-- ==== Sys2Proof/Word.lean ====
section
/-!
DEFINITION. The plainest data types of the model: bytes, memories and sparse tables.
Everything with a rule of its own stands in the files under Machine.
-/

namespace Sys2Proof

/-- One byte. -/
abbrev Byte := BitVec 8

/-- A sparse table from an instance number to a record.
An instance that is not listed holds the table's default record (its value after reset).
The canonical form lists instance numbers strictly rising and never lists the default record. -/
abbrev Tbl (α : Type) := List (Nat × α)

/-- A byte memory: the cells that differ from the byte an unlisted address reads as. -/
abbrev Mem := List Host.Cell

/-- A token's tag: the ticket stream and the sequence number of a ticket it serves (R206). -/
structure Tag where
  stream : Nat
  seq : Nat
  deriving DecidableEq, Repr

end Sys2Proof
end

