-- ==== Sys2Proof/Types.lean ====
section
/-!
DEFINITION. Plain data that both the commands (Syntax.lean) and the state hold: requesters of device memory,
Ethernet frames, sensor and planner payloads.
-/

namespace Sys2Proof

/-- Who asked for a line of device memory, with what its error response acts on (R380, R381 REQ codes). -/
inductive Requester where
  /-- wrist DMA of a mitten's firing -/
  | glove (mitten : Nat)
  /-- host access through a HOST port -/
  | host (port : Nat)
  /-- ledger injection of a ticket's input -/
  | ledger (stream seq : Nat)
  /-- a scene-memory page read by a reader firing -/
  | scene (mem slot mitten : Nat)
  /-- a sensor ring entry -/
  | sensor (stream entry : Nat)
  /-- patrol scrub -/
  | scrub
  /-- the fitter's refill of constants of a mitten (R102, log entry 138) -/
  | refill (mitten : Nat)
  /-- fitter -/
  | fitter
  /-- the trace unit of a die, and a read of its ring -/
  | trace (die : Nat)
  | island (i : Nat)
  deriving DecidableEq, Repr

/-- A received Ethernet frame: addresses, VLAN tag (none = untagged), EtherType, and the bytes after it;
`fcsOk` is false for a frame with a bad frame check sequence. -/
structure EthFrame where
  dst : Nat
  src : Nat
  vlan : Option Nat := none
  etherType : Nat
  payload : List Byte
  fcsOk : Bool := true
  deriving DecidableEq, Repr

/-- A CSI-2 packet (R223, R225): short packets, and long packets with the values of their pixels (or components) and
the outcome of the payload CRC; a header that cannot be corrected. -/
inductive CsiPacket where
  | frameStart (vc : Nat)
  | frameEnd (vc : Nat)
  /-- line start and line end short packets -/
  | lineSync (vc : Nat)
  | long (vc dt : Nat) (pixels : List Nat) (crcOk : Bool)
  | badHeader
  deriving DecidableEq, Repr

/-- One element recomputed for a SPOT check (R80, R187, R330): its index, the value a fault of the recomputing side put in
place of its result (none: the result stands), and the quads that produced and recomputed it. For an element of a solver, the
INFO of its system and what the producer hands over of it, as encoded, row by row: the factors with the order of their rows,
and the gain. -/
structure SpotItem where
  index : Nat
  again : Option Nat
  quad : Nat
  rquad : Nat
  info : Int := 0
  factors : List Nat := []
  rows : List Nat := []
  gain : List Nat := []
  deriving DecidableEq, Repr

/-- What the egress of a frame is reported to (R309, R314). -/
inductive TxOwner where
  | plain
  /-- the time agent's Pdelay_Req with its sequence number -/
  | agentReq (seq : Nat)
  /-- a host-path frame that asked for a stamp, with its identifier -/
  | stamped (id : Nat)
  /-- an actuation frame of a loop slot -/
  | loop (slot : Nat)
  deriving DecidableEq, Repr

/-- Where a packet stands: a quad router of a die, a cuff crossbar or brim stop of an I/O die. -/
inductive Place where
  | router (stack quad : Nat)
  | crossbar (die : Nat)
  | brim (die stop : Nat)
  deriving DecidableEq, Repr

/-- Output ports of R41 and R94, the cuffs of a crossbar, the ring and the block of a brim stop. -/
inductive OutPort where
  | north | south | east | west | wrist (slot : Nat) | lining | control | ioCuff | sibCuff
  | stackCuff (stack : Nat) | bridge | toBrim | toCrossbar | ring | block
  deriving DecidableEq, Repr

end Sys2Proof
end

