-- ==== Sys2Proof/Syntax.lean ====
section
/-!
DEFINITION. The commands of the block: one constructor per row of spec/opcode_table.json.
The first operand `t` of every command is the nominal time in ns at which the event comes about.
-/

namespace Sys2Proof

/-- A command: an event that reaches the module, with its facts. -/
inductive Instr where
  /-- MATE_STAGE (R32). A group of connector contacts mates or breaks as the module travels into or out of the tray. -/
  | mateStage (t : Nat) (stage : Nat) (coolant : Bool)
  /-- INPUT_QUALIFIED (R31). PRSNT_N mated, PWR_EN high and the input in range for 10 ms start the power stage with limited inrush. -/
  | inputQualified (t : Nat) (mv : Nat)
  /-- PGOOD_RELEASE (R31). All rails reach regulation, PGOOD is released and the always-on domains leave reset. -/
  | pgoodRelease (t : Nat)
  /-- INPUT_VOLTAGE_WARN (R31). The input enters 33–36 V or 60–63 V; operation continues and the input-voltage source of both collectors is raised. -/
  | inputVoltageWarn (t : Nat) (mv : Nat)
  /-- INPUT_UNDERVOLTAGE_OFF (R31). The input stays below 33 V for more than 50 µs and the power stage turns off, taking the module to OFF. -/
  | inputUndervoltageOff (t : Nat) (mv ns : Nat)
  /-- INPUT_OVERVOLTAGE_OFF (R31). The input stays above 63 V for more than 50 µs and the power stage turns off, taking the module to OFF. -/
  | inputOvervoltageOff (t : Nat) (mv ns : Nat)
  /-- PWR_EN_LOW_OFF (R31). PWR_EN stays low for more than 100 µs and the power stage turns off, taking the module to OFF. -/
  | pwrEnLowOff (t : Nat) (ns : Nat)
  /-- PRESENCE_LOSS_OFF (R33). PRSNT_N is lost while the power stage is on and the stage turns off within 10 µs. -/
  | presenceLossOff (t : Nat)
  /-- RAIL_OUT_OF_REGULATION (R31). A rail leaves regulation; PGOOD is pulled low within 5 µs and the fault is reported to the collectors. -/
  | railOutOfRegulation (t : Nat) (half rail : Nat)
  /-- REFCLK_LOSS (R25). A half detects the loss, or a deviation beyond ±1,000 ppm, of the other half's reference clock within 10 µs and raises a collector source. -/
  | refclkLoss (t : Nat) (half : Nat) (ppm : Option Int)
  /-- PPS_IN_EDGE (R312). A PPS_IN rising edge is captured by both timebases and, with SOURCE = 1, steers the phase unless it is too early. -/
  | ppsInEdge (t : Nat)
  /-- PPS_OUT_RISE (R313). IOD1's timebase reaches a whole second and PPS_OUT rises. -/
  | ppsOutRise (t : Nat)
  /-- PPS_OUT_FALL (R313). 100 ms of timebase time after its rise, leaving out any step, PPS_OUT falls. -/
  | ppsOutFall (t : Nat)
  /-- PACKET_ARRIVE (R44). A packet reaches a router, cuff or brim stop and is routed, or discarded and reported. -/
  | packetArrive (t : Nat) (place : Place) (via : Option (Place × OutPort)) (header payload : List Byte)
  /-- TOKEN_ARRIVE (R57). A token message arrives at the consumer of an edge in class 0. -/
  | tokenArrive (t : Nat) (edge : Nat)
  /-- CREDIT_RETURN (R57). A credit message returned by a consumer arrives at the producer of an edge. -/
  | creditReturn (t : Nat) (edge : Nat)
  /-- MITTEN_WAKE (R393). The firing conditions become true in a clock-gated mitten, which re-enables its clocks and regulators within 8 µs. -/
  | mittenWake (t : Nat) (mitten : Nat)
  /-- FIRING_START (R58). A mitten whose input tokens and output credits are present starts a firing and takes its output credits. -/
  | firingStart (t : Nat) (mitten : Nat) (allow : Bool)
  /-- FIRING_COMPLETE (R58). A firing ends: output tokens are sent, input buffers are freed, credits return and numeric events are counted. -/
  | firingComplete (t : Nat) (mitten : Nat)
  /-- PREFETCH_COPY_DONE (R167). A reader's prefetch copy of a T2 or T3 page into a LOOKAHEAD window completes, and the window is refilled with the next page once released. -/
  | prefetchCopyDone (t : Nat) (mem reader seq : Nat) (stalled : Bool)
  /-- LINING_SCRUB_READ (R50). Lining patrol scrub reads a word in an idle cycle, corrects and writes back single-bit errors and records completed passes. -/
  | liningScrubRead (t : Nat) (stack bank err : Nat)
  /-- GLOVE_CLOCK_GATE (R393). A glove whose mitten has not fired for PARK_US is clock-gated. -/
  | gloveClockGate (t : Nat) (glove : Nat)
  /-- ROUTE_TABLE_SWAP (R42). Once a die has drained its links at a route-table seam, all its route tables are swapped at once and injection resumes. -/
  | routeTableSwap (t : Nat) (stack : Nat)
  /-- LOAD_FULL_GO (R99). Writing GO with MODE full judges the request under R473 and, if accepted, stops the ledger and starts a full load in VERIFYING. -/
  | loadFullGo (t : Nat) (value : Nat)
  /-- PATCH_GO (R114). Writing GO with MODE patch judges the request under R473 and, if accepted, starts verifying a patch image. -/
  | patchGo (t : Nat) (value : Nat)
  /-- LOAD_VERIFY_DONE (R100). Both islands finish verifying the digests, signatures and SEC_VERSION of an image, which is refused or passes to FITTING. -/
  | loadVerifyDone (t : Nat)
  /-- LOAD_FIT_DONE (R100). The stitch and graph checks and the fitted-layer admission or device fit complete, and the two fitters' results are compared. -/
  | loadFitDone (t : Nat) (code0 : Nat) (fit0 : List Byte) (code1 : Nat) (fit1 : List Byte)
  /-- LOAD_COMPLETE (R100). Contents are checked and copied, the old pattern is torn down, the new placement is installed, streams are enabled and the pattern becomes LOADED. -/
  | loadComplete (t : Nat)
  /-- PATCH_STAGED (R116). The checks of a patch end, its constants are copied and its values are staged, leaving it PATCH_ARMED or refusing it as LATE. -/
  | patchStaged (t : Nat)
  /-- PATCH_SEAM (R475). LOAD_STAMP is reached and the patch takes one global seam over every touched group. -/
  | patchSeam (t : Nat)
  /-- CONSTANT_REFILL_DONE (R102). A mitten's constants are back in its lining and palms, and the mitten may fire. -/
  | constantRefillDone (t : Nat) (mitten : Nat)
  /-- ALT_COMPUTE_DONE (R104). The device fitter finishes computing the alternates and sets ALT_READY. -/
  | altComputeDone (t : Nat) (alts : List Byte)
  /-- ALTERNATE_SWITCH (R106). After the isolation of a quad or stack with a matching alternate, and any TAKING seam, the alternate is installed and affected mittens are reset. -/
  | alternateSwitch (t : Nat)
  /-- DEVICE_REFIT_DONE (R106). A device re-fit from the portable layer completes, or finds no placement and disables streams. -/
  | deviceRefitDone (t : Nat) (code0 : Nat) (fit0 : List Byte) (code1 : Nat) (fit1 : List Byte)
  /-- SEAM_ARM (R110). Writing ARM to a seam engine judges the request and either arms it or refuses it with a code. -/
  | seamArm (t : Nat) (engine value : Nat)
  /-- SEAM_CANCEL (R113). Writing CANCEL cancels an ARMED engine, keeping the values pending, and is ignored while TAKING. -/
  | seamCancel (t : Nat) (engine value : Nat)
  /-- SEAM_DISCARD (R113). Writing DISCARD drops the pending values of the listed groups when the engine is neither ARMED nor TAKING. -/
  | seamDiscard (t : Nat) (engine value : Nat)
  /-- RWS_WRITE (R109). A write to an RWS field makes its value pending in the shadow, or is ignored when the field's group is armed or the value is refused. -/
  | rwsWrite (t : Nat) (off value : Nat)
  /-- BLOCK_SEAM (R111). A block armed for a block seam reaches its next work-item boundary, or idles for 1 µs, and takes its pending values. -/
  | blockSeam (t : Nat) (engine group : Nat)
  /-- GLOBAL_SEAM_STAMP (R112). An engine's stamp is reached; no block of the listed groups starts a new work item and the engine is TAKING. -/
  | globalSeamStamp (t : Nat) (engine : Nat)
  /-- SEAM_LIMIT_EXPIRE (R112). SEAM_LIMIT passes during a global seam and the blocks still in a work item abandon it, voiding its tickets with cause 0x03. -/
  | seamLimitExpire (t : Nat) (engine : Nat)
  /-- GLOBAL_SEAM_SWITCH (R112). At the next whole microsecond after every block holds, every block of every listed group switches to its pending values. -/
  | globalSeamSwitch (t : Nat) (engine : Nat)
  /-- GLOVE_NUM_CLR (R74). Writing CLR clears a glove's SAT_COUNT and NAN_COUNT. -/
  | gloveNumClr (t : Nat) (glove value : Nat)
  /-- PALM_CE_CLR (R50). Writing CE_CLR clears a glove's corrected-palm-error count. -/
  | palmCeClr (t : Nat) (glove value : Nat)
  /-- LINING_CE_CLR (R62). Writing CE_CLR clears a lining bank's corrected-error count. -/
  | liningCeClr (t : Nat) (stack bank value : Nat)
  /-- BAR4_WRITE (R193). A host write to an intake-window slot updates its byte enables and is held while the intake queue is full. -/
  | bar4Write (t : Nat) (port off : Nat) (bytes : List Byte) (ok : Bool)
  /-- TICKET_VERDICT (R197). The home ledger forms the verdict of a landing, journals an accepted ticket and advances NEXT_SEQ, or writes a rejection receipt. -/
  | ticketVerdict (t : Nat) (home : Nat)
  /-- JOURNAL_MIRROR_ACK (R203). The other die acknowledges the mirror journal entry, and the ACCEPT receipt is written. -/
  | journalMirrorAck (t : Nat) (stream seq : Nat)
  /-- TICKET_INJECT (R205). When its order and the producer credits allow, the ledger DMAs a ticket's input descriptors into token buffers and marks it RUNNING. -/
  | ticketInject (t : Nat) (stream : Nat)
  /-- TICKET_DEADLINE_DROP (R207). A DROP_LATE ticket reaches its deadline before injection and ends FAILED with cause 0x12 and LATE. -/
  | ticketDeadlineDrop (t : Nat) (stream seq : Nat)
  /-- TICKET_ENDED (R206). Every consumer edge has delivered a token with the ticket's tag to its output descriptor, and the ticket's status is fixed. -/
  | ticketEnded (t : Nat) (stream seq : Nat)
  /-- OUTCOME_DELIVER (R212). Once earlier tickets are delivered and a port is up, the ledger writes the lowest ENDED outcome to its ring and advances PROD. -/
  | outcomeDeliver (t : Nat) (stream : Nat)
  /-- OUTCOME_IRQ_TIMER (R213). COAL_US after the first unsignalled outcome, the stream's MSI-X vector is sent. -/
  | outcomeIrqTimer (t : Nat) (stream : Nat)
  /-- OUTCOME_CONS_WRITE (R212). A write to STRM_OUT_CONS consumes outcomes, frees journal entries and returns credits, or is refused as out of order. -/
  | outcomeConsWrite (t : Nat) (stream value : Nat)
  /-- LEDGER_TAKEOVER (R204). After its home I/O die is isolated, the other ledger takes over its streams, writes pending receipts and voids ACCEPTED and RUNNING entries. -/
  | ledgerTakeover (t : Nat) (die : Nat)
  /-- CSI_PACKET_RX (R225). A CSI-2 packet is received on a port and matched to a stream by VC and DT, or discarded and counted as unmatched. -/
  | csiPacketRx (t : Nat) (port : Nat) (corrected : Bool) (pkt : CsiPacket)
  /-- ETH_FRAME_RX (R226). A received Ethernet frame is stamped at ingress and classified to a sensor flow, the time agent, the partner protocol, management or the host path. -/
  | ethFrameRx (t : Nat) (port : Nat) (frame : EthFrame)
  /-- STREAM_STALL (R230). A stream completes no sample for 3 × PERIOD_US, sets STALL and raises its stall source. -/
  | streamStall (t : Nat) (stream : Nat)
  /-- SLOT_OPEN (R234). Slot time T_k arrives and a fusion slot opens and binds its values, or no slot is free. -/
  | slotOpen (t : Nat) (grp : Nat)
  /-- MEMBER_DECIDE (R236). The timebase has passed a member's decision time and no window sample is in flight, so the member becomes USED, MISSED or QUIET. -/
  | memberDecide (t : Nat) (grp fseq member : Nat)
  /-- SLOT_WAIT_LIMIT (R237). E_k = T_k + WAIT_US arrives; undecided members are masked and the slot is decided. -/
  | slotWaitLimit (t : Nat) (grp fseq : Nat)
  /-- PROJECTION_DONE (R245). The projection units finish building a slot's depth channels from its window points. -/
  | projectionDone (t : Nat) (grp fseq : Nat)
  /-- SLOT_EMIT (R237). A decided slot has its projection done and edge credits, sends its FRAME and member tokens, and is freed. -/
  | slotEmit (t : Nat) (grp fseq : Nat)
  /-- CONFLICT_SUMMARY_RX (R252). A grid conflict summary arrives on sub-port 5, writes conflict records and penalizes the members' confidence. -/
  | conflictSummaryRx (t : Nat) (edge : Nat)
  /-- DETECTION_LIST_RX (R251). A detection token predicts, associates, updates, starts and retires tracks, judges object conflicts and emits the track table. -/
  | detectionListRx (t : Nat) (edge : Nat)
  /-- FUSION_GROUP_MOVE (R256). After its home I/O die is isolated, a fusion group moves to the other die's engine, losing its open slots and track table. -/
  | fusionGroupMove (t : Nat) (grp : Nat)
  /-- MAP_UPDATE_BUILT (R262). A planner finishes building a map update into a new version, or refuses it as a whole. -/
  | mapUpdateBuilt (t : Nat) (die : Nat) (used : Option Nat)
  /-- MAP_COMMIT (R264). A built map version is committed as the next epoch by switching root tables, once at most two epochs stay live. -/
  | mapCommit (t : Nat) (die : Nat)
  /-- PLAN_REQUEST_START (R266). A planner request starts in arrival order once its slices or chain are free, and pins the newest epoch committed on both dies. -/
  | planRequestStart (t : Nat)
  /-- PLAN_SEARCH_END (R275). Every candidate is judged, or a heap search ends, so the list and status are fixed, with a recheck when the result is stale. -/
  | planSearchEnd (t : Nat) (req : Nat)
  /-- PLAN_DEADLINE (R275). A request's deadline is reached, tests stop and the result is fixed as TIMEOUT or FOUND. -/
  | planDeadline (t : Nat) (req : Nat) (done : List Nat) (expansions : Nat)
  /-- PLAN_RESULT_SEND (R274). A fixed result token is sent once its edge has a credit, releasing the pinned epoch. -/
  | planResultSend (t : Nat) (chan : Nat)
  /-- LOOP_TIMER_TRIGGER (R283). A TIMER slot's grid stamp is reached and the slot is triggered, or a SAFE_OUT slot sends a safe frame. -/
  | loopTimerTrigger (t : Nat) (slot : Nat)
  /-- LOOP_EVAL (R284). A waiting evaluation takes a free unit, runs the check, set-point, law and limits, builds its frame and hands it to the MAC queue. -/
  | loopEval (t : Nat) (slot : Nat)
  /-- QBV_GATE_EVENT (R291). An entry of a port's gate control list takes effect, opening or closing traffic-class gates so that queued frames transmit. -/
  | qbvGateEvent (t : Nat) (port entry : Nat)
  /-- SETPOINT_TOKEN (R286). A set-point sequence token arrives at a slot, replaces its target sequence and returns its credit at once. -/
  | setpointToken (t : Nat) (edge : Nat)
  /-- FEEDBACK_TOKEN (R282). A feedback token arrives on an EDGE channel, is copied and returns its credit at once. -/
  | feedbackToken (t : Nat) (edge : Nat)
  /-- SETPOINT_STALE (R286). No set-point token arrives for SP_STALE_US, so SP_STALE is set and the set-point-stale source is raised. -/
  | setpointStale (t : Nat) (slot : Nat)
  /-- LOOP_TRIGGER_WATCHDOG (R297). A slot's watchdog expires at 2 × PERIOD_US without a trigger, so the slot enters SAFE_OUT. -/
  | loopTriggerWatchdog (t : Nat) (slot : Nat)
  /-- LOOP_REQ_MANUAL (R292). LOOP_MODE.REQ = MANUAL requests a move of the slot to MANUAL at its next evaluation, or is refused. -/
  | loopReqManual (t : Nat) (slot : Nat)
  /-- LOOP_REQ_AUTO (R293). LOOP_MODE.REQ = AUTO requests a bumpless transfer from MANUAL to AUTO at the slot's next evaluation, or is refused. -/
  | loopReqAuto (t : Nat) (slot : Nat)
  /-- LOOP_REQ_STOP (R292). LOOP_MODE.REQ = STOP stops the slot and its frames, or is refused. -/
  | loopReqStop (t : Nat) (slot : Nat)
  /-- LOOP_MAN_WRITE (R295). A write to LOOP_MAN stores a manual value, which is read at the next evaluation. -/
  | loopManWrite (t : Nat) (slot j value : Nat)
  /-- ISLAND_LOOP_RECOMPUTE (R297). Every 10 ms the island recomputes one sampled evaluation per slot and raises the residual source on a mismatch. -/
  | islandLoopRecompute (t : Nat) (slot : Nat) (ok : Bool)
  /-- TIME_STEP_REQUEST (R300). Writing TIME_CTRL.STEP requests the one timebase step, which is judged and then applied or refused. -/
  | timeStepRequest (t : Nat)
  /-- ALIGNMENT_EXCHANGE (R302). Every 125 µs IOD1 aligns its timebase with IOD0's, tracking failures, holdover and SKEW_VALID. -/
  | alignmentExchange (t : Nat) (ok : Bool) (trim : Int)
  /-- RATE_WRITE (R301). A write to TIME_RATE_SET sets the rate correction, clamped, from the next reference tick. -/
  | rateWrite (t : Nat) (value : Nat)
  /-- TIME_AGENT_WRITE (R311). Writing TIME_CFG.AGENT starts the time agent in FREE or stops it to HOST, abandoning any exchange. -/
  | timeAgentWrite (t : Nat) (on : Bool)
  /-- GPTP_SYNC (R308). A Sync message is received and stamped; a one-step Sync is discarded and counted. -/
  | gptpSync (t : Nat) (port seq : Nat) (twoStep : Bool)
  /-- GPTP_FOLLOW_UP (R310). A Follow_Up completes a Sync pair; the agent measures the offset and steps or steers RATE and updates its state. -/
  | gptpFollowUp (t : Nat) (port seq : Nat) (origin : Nat)
  /-- GPTP_PDELAY_REQ_SEND (R308). Once per second the agent sends a Pdelay_Req. -/
  | gptpPdelayReqSend (t : Nat)
  /-- GPTP_PDELAY_REQ_RX (R308). A received Pdelay_Req is answered with a Pdelay_Resp and a Pdelay_Resp_Follow_Up. -/
  | gptpPdelayReqRx (t : Nat) (port seq : Nat)
  /-- GPTP_PDELAY_RESP_RX (R308). A Pdelay_Resp or Pdelay_Resp_Follow_Up is received for the mean link delay measurement. -/
  | gptpPdelayRespRx (t : Nat) (port seq : Nat) (followUp : Bool) (value : Nat)
  /-- GPTP_ANNOUNCE_RX (R308). An Announce is received and used for best master selection, recording any grandmaster change. -/
  | gptpAnnounceRx (t : Nat) (port identity priority : Nat)
  /-- GPTP_SIGNALING_RX (R308). A Signaling message is received and ignored. -/
  | gptpSignalingRx (t : Nat) (port : Nat)
  /-- GPTP_SYNC_TIMEOUT (R311). No Sync arrives for 3 s in LOCKED, so the agent enters HOLDOVER and raises the time-source source. -/
  | gptpSyncTimeout (t : Nat)
  /-- ETH_TXTS_POP (R314). Writing ETH_TXTS_POP removes the head of a port's transmit timestamp queue. -/
  | ethTxtsPop (t : Nat) (port value : Nat)
  /-- TRACE_COPY_GO (R315). Writing TRACE_COPY_CTRL.GO starts copying a die's trace ring to host memory, oldest event first. -/
  | traceCopyGo (t : Nat) (die value : Nat)
  /-- TRACE_COPY_DONE (R315). A trace ring copy completes and BUSY clears. -/
  | traceCopyDone (t : Nat) (die : Nat)
  /-- ISLAND_HEARTBEAT_CHECK (R320). Every 100 µs an island reads the peer's heartbeat, and raises the peer-lost source after 300 µs without one. -/
  | islandHeartbeatCheck (t : Nat) (island : Nat)
  /-- VOTER_MISMATCH (R322). The voter sees a cycle in which the three cores do not all agree, and continues with the majority or goes SILENT. -/
  | voterMismatch (t : Nat) (island : Nat) (minority : Option Nat)
  /-- CORE_TEST_START (R323). A core test starts, after a mismatch or on the 100 ms period, testing the cores one at a time while the other two run as a compare pair. -/
  | coreTestStart (t : Nat) (island : Nat)
  /-- CORE_TEST_DONE (R322). A core test completes and the triplet stays TRIPLE, drops to PAIR or goes SILENT. -/
  | coreTestDone (t : Nat) (island : Nat) (failed : Option Nat)
  /-- ISLAND_MONITOR_TRIP (R322). An island's own supply or clock monitor trips and the island goes SILENT. -/
  | islandMonitorTrip (t : Nat) (island : Nat)
  /-- VOTER_INJECTION (R345). Every 100 ms a periodic voter injection tests the voter, and a miss makes the island SILENT. -/
  | voterInjection (t : Nat) (island : Nat) (ok : Bool)
  /-- CHECKER_INJECTION (R345). Every 1 s a failing frame is injected per check kind, and a pass makes the island SILENT. -/
  | checkerInjection (t : Nat) (island kind : Nat) (caught : Bool)
  /-- CHECK_TOKEN_RX (R328). A token arrives at a check tap and opens or completes a frame for judging. -/
  | checkTokenRx (t : Nat) (edge : Nat)
  /-- SPOT_RECOMPUTE_DONE (R330). The recompute of a frame's sampled elements on another stack completes and the elements are compared. -/
  | spotRecomputeDone (t : Nat) (chk : Nat) (items : List SpotItem)
  /-- CHECK_VERDICT (R331). A frame's verdict is fixed, its tickets are marked, and its window is updated. -/
  | checkVerdict (t : Nat) (chk : Nat)
  /-- CHECK_VERDICT_TIMEOUT (R331). VERDICT_US passes before a frame is fully judged, and the frame is UNCHECKED. -/
  | checkVerdictTimeout (t : Nat) (chk : Nat)
  /-- MRT_TOKEN (R335). An MRT token is checked and, if accepted, replaces the stored minimal-risk trajectory and is copied to the other island. -/
  | mrtToken (t : Nat) (edge : Nat)
  /-- MRT_AGED (R335). The stored MRT's STAMP_T0 becomes older than MAX_AGE_US and the MRT-age source is raised. -/
  | mrtAged (t : Nat) (island : Nat)
  /-- DEADLINE_MISS (R336). A watched ticket is not ENDED at its deadline stamp, so the island raises the miss source and updates the deadline window. -/
  | deadlineMiss (t : Nat) (stream seq : Nat)
  /-- GLOVE_TEST_SLICE (R337). A self-test slice starts on an idle glove, which reads SELFTEST. -/
  | gloveTestSlice (t : Nat) (glove : Nat)
  /-- GLOVE_TEST_SLICE_DONE (R337). A self-test slice completes; a full pass updates LAST_PASS and a failure isolates the quad. -/
  | gloveTestSliceDone (t : Nat) (glove : Nat) (ok : Bool)
  /-- GLOVE_WITHDRAW_REQUEST (R338). At 55 s without a pass the island requests withdrawal of the glove's quad, or defers the test when the quad has no alternate. -/
  | gloveWithdrawRequest (t : Nat) (glove : Nat)
  /-- QUAD_WITHDRAW_SEAM (R338). At the next whole millisecond + 1 ms the quad's alternate is installed at a global seam and the quad becomes WITHDRAWN. -/
  | quadWithdrawSeam (t : Nat) (quad : Nat)
  /-- QUAD_RETURN_SEAM (R338). After a withdrawn quad passes its test, the primary placement returns at a further global seam. -/
  | quadReturnSeam (t : Nat) (quad : Nat)
  /-- MBX_STATUS (R341). The STATUS mailbox command returns the island's status, vote and test registers. -/
  | mbxStatus (t : Nat) (island : Nat)
  /-- MBX_MRT_GET (R341). The MRT_GET mailbox command returns the stored MRT and its AGED flag. -/
  | mbxMrtGet (t : Nat) (island : Nat)
  /-- MBX_TICKET (R341). The sealed TICKET command submits a secure stream's ticket for a verdict and returns its receipt. -/
  | mbxTicket (t : Nat) (island : Nat)
  /-- MBX_OUTCOME_GET (R341). The sealed OUTCOME_GET command returns up to 25 outcomes of a secure stream and counts them as consumed. -/
  | mbxOutcomeGet (t : Nat) (island : Nat)
  /-- MBX_LOOP_MODE (R341). The sealed LOOP_MODE command requests a mode change of a secure loop slot. -/
  | mbxLoopMode (t : Nat) (island : Nat)
  /-- MBX_UNBLOCK (R341). The sealed UNBLOCK command lifts a fusion member's block, writes an UNBLOCK record and sets its confidence to 1.0. -/
  | mbxUnblock (t : Nat) (island : Nat)
  /-- MBX_CHECK_CLEAR (R341). The sealed CHECK_CLEAR command empties one check's window. -/
  | mbxCheckClear (t : Nat) (island : Nat)
  /-- MBX_PATTERN_AUTH (R341). The sealed PATTERN_AUTH command authorizes one load or patch of the named PATTERN_ID and GENERATION. -/
  | mbxPatternAuth (t : Nat) (island : Nat)
  /-- MBX_DONE_CLEAR (R340). Writing DONE = 1 frees the mailbox buffers and returns the mailbox to IDLE. -/
  | mbxDoneClear (t : Nat) (island : Nat)
  /-- PATTERN_AUTH_EXPIRE (R342). 10 s after it is given, an unused PATTERN_AUTH expires. -/
  | patternAuthExpire (t : Nat)
  /-- FAULT_RAISE (R346). A collector recognizes a source raised on two consecutive samples and acts by its severity. -/
  | faultRaise (t : Nat) (col : Nat) (ext : List (Nat × Nat))
  /-- FAULT_LINE_BROKEN (R347). A dual-rail pair shows the broken-wire state, raising the wire-fault source and treating its own source as raised. -/
  | faultLineBroken (t : Nat) (id : Nat)
  /-- FW_FAULT_ACK (R354). Island firmware acknowledges a MAJOR raise by a secure write, ending its reaction timer with ACTION ACKED. -/
  | fwFaultAck (t : Nat) (src : Nat)
  /-- FW_ISOLATE_CMD (R354). Island firmware commands the isolation of a part, ending the reaction timer once the isolation is confirmed. -/
  | fwIsolateCmd (t : Nat) (src part : Nat)
  /-- REACTION_TIMER_EXPIRE (R354). A MAJOR raise's reaction timer expires, so hardware isolates PART, or drives the safe state when PART is 0xFF. -/
  | reactionTimerExpire (t : Nat) (src : Nat)
  /-- ISOLATION_CONFIRM (R356). An isolation gate reports closed; the part is cut off, the module goes DEGRADED and the consequences for that part start. -/
  | isolationConfirm (t : Nat) (part : Nat)
  /-- ISOLATION_UNCONFIRMED (R354). An isolation is not confirmed within 5 µs, so the collector drives the module safe state. -/
  | isolationUnconfirmed (t : Nat) (part : Nat)
  /-- SAFE_ENTER (R358). A collector sinks its SAFE pin and raises the peer safe request, the other pin follows, and loop slots and tickets are made safe. -/
  | safeEnter (t : Nat) (col : Nat)
  /-- COLLECTOR_PARITY_ERROR (R360). A collector finds a parity error in its own registers and enters the safe state or merges the error into a raised source, by CF_MODE. -/
  | collectorParityError (t : Nat) (col : Nat)
  /-- THERMAL_TRIP (R408). A sensor reads 115 °C or more and the GRAVE thermal-trip source takes the module to SAFE. -/
  | thermalTrip (t : Nat) (pair : Nat) (ring : Bool) (raw : Int)
  /-- SWEEP_DONE (R364). The start-up error-injection sweep ends and FAULT_SWEEP records a pass, or a miss that stops start-up. -/
  | sweepDone (t : Nat) (miss : Option (Nat × Nat))
  /-- SWEEP_TIMEOUT (R365). The sweep exceeds 100 ms, and start-up stops with both SAFE pins asserted. -/
  | sweepTimeout (t : Nat)
  /-- DDR_REQUEST_ENTER (R373). A line request passes the guards at the brim stop and enters the controller's queues, merged or forwarded, or is held while its queue is full. -/
  | ddrRequestEnter (t : Nat) (addr : Nat) (write : Option (List (Nat × Byte))) (who : Requester) (secure : Bool)
  /-- DDR_COMMAND_ISSUE (R375). The controller picks and issues its next DDR4 command by mode, bank rotation and priority. -/
  | ddrCommandIssue (t : Nat) (ch : Nat) (ready : List Nat)
  /-- DDR_READ_DECODE (R376). Read data returns and is decoded clean, corrected, UE or poisoned, with write-back or an error response. -/
  | ddrReadDecode (t : Nat) (ch : Nat) (errs : List (Nat × Nat))
  /-- DDR_SCRUB_READ (R379). Patrol scrub reads the next line in an idle cycle, writing back a CE and poisoning a UE. -/
  | ddrScrubRead (t : Nat) (ch : Nat) (errs : List (Nat × Nat))
  /-- DDR_CA_PARITY_ERROR (R382). A device signals a CA parity error; the controller recovers, replays its commands and raises the CA parity source. -/
  | ddrCaParityError (t : Nat) (ch back : Nat)
  /-- DDR_WRITE_CRC_ERROR (R382). A device signals a write CRC error; the write is re-issued, and exhausted retries raise a MAJOR source. -/
  | ddrWriteCrcError (t : Nat) (ch line : Nat)
  /-- DDR_CONTROLLER_PARITY (R382). A parity error in the controller's queues or replay buffer raises the MAJOR controller parity source. -/
  | ddrControllerParity (t : Nat) (ch : Nat)
  /-- DDR_REFRESH_DUE (R383). tREFI elapses and an all-bank refresh is due, postponed while reads are queued up to four times. -/
  | ddrRefreshDue (t : Nat) (ch : Nat)
  /-- DDR_REFRESH_WATCHDOG (R383). No refresh is issued within 9 × tREFI and the channel's refresh source is raised. -/
  | ddrRefreshWatchdog (t : Nat) (ch : Nat)
  /-- DDR_TEMP_READ (R383). Every 32 ms the controller reads the device temperatures and sets the refresh rate and TEMP_HIGH. -/
  | ddrTempRead (t : Nat) (ch : Nat) (deg : Int)
  /-- DDR_ZQCS (R371). Every 128 ms a ZQCS calibration is issued. -/
  | ddrZqcs (t : Nat) (ch : Nat)
  /-- DDR_POWER_DOWN_ENTER (R384). Both queues stay empty for PD_IDLE and the channel enters precharge power-down. -/
  | ddrPowerDownEnter (t : Nat) (ch : Nat)
  /-- DDR_SELF_REFRESH_ENTER (R384). The queues stay empty for SR_IDLE ms, or RETAIN or a reset begins, and the channel enters self-refresh. -/
  | ddrSelfRefreshEnter (t : Nat) (ch : Nat)
  /-- DDR_TRAINING_DONE (R385). A channel's training at BOOT completes with or without seeds, or fails and stops start-up. -/
  | ddrTrainingDone (t : Nat) (ch : Nat) (ok seeds : Bool) (step device us : Nat)
  /-- RETAIN_REQUEST (R391). MOD_PWR_CTRL.REQ = RETAIN stops the ledger and starts RETAIN entry, or is refused. -/
  | retainRequest (t : Nat) (value : Nat)
  /-- RETAIN_ENTERED (R391). DDR is in self-refresh, PLLs are stopped and fast rails are off, and the module is in RETAIN. -/
  | retainEntered (t : Nat)
  /-- RETAIN_WAKE_STAMP (R391). MOD_PWR_WAKE is reached with WAKE_EN = 1 and RETAIN exit begins. -/
  | retainWakeStamp (t : Nat)
  /-- RETAIN_EXIT_DONE (R391). Rails are up, PLLs locked and DDR out of self-refresh; the module returns to STANDBY and per-block state restarts. -/
  | retainExitDone (t : Nat)
  /-- STATE_HOLD_EXPIRE (R390). HOLD_MS after the last ticket ended, with none pending, the module leaves ACTIVE for STANDBY. -/
  | stateHoldExpire (t : Nat)
  /-- CROWN_POWER_SAMPLE (R394). Every 10 µs the crown samples input power, rail and regulator telemetry and checks the hardware backstop. -/
  | crownPowerSample (t : Nat) (mw : Nat)
  /-- CROWN_THROTTLE_UPDATE (R395). Once per 1 ms the crown compares the average power with E_run and raises or lowers the throttle level. -/
  | crownThrottleUpdate (t : Nat) (above forecast : List Nat)
  /-- CROWN_THERMAL_READ (R397). Once per 1 ms the crown reads every thermal sensor, forms hot spots, masks sensors, throttles or holds mittens and mirrors to the shadow crown. -/
  | crownThermalRead (t : Nat) (readings : List (Nat × Int × Int))
  /-- SHADOW_CROWN_TAKEOVER (R397). After IOD0 is isolated, the shadow crown acts from its copy and sets ACTING. -/
  | shadowCrownTakeover (t : Nat)
  /-- TRAY_I3C_READ (R399). Every 10 ms the crown reads inlet, outlet and flow from the tray and applies the flow and inlet rules. -/
  | trayI3cRead (t : Nat) (ack : Bool) (bytes : List Byte)
  /-- TRAY_I3C_WRITE (R399). Every 10 ms the crown writes the 50 ms power forecast to the tray. -/
  | trayI3cWrite (t : Nat) (ok : Bool)
  /-- TRAY_STALE (R404). No good tray read for 100 ms makes readings stale, raising tray-I3C-lost and applying f_tray. -/
  | trayStale (t : Nat)
  /-- COOL_HOLD_QUIESCED (R402). Firings in progress in COOL_HOLD complete, unfinished tickets are voided and every glove is gated. -/
  | coolHoldQuiesced (t : Nat)
  /-- COOL_HOLD_EXIT (R402). Flow, inlet and hot spot stay within limits for 10 s; COOL_HOLD ends and streams accept tickets again. -/
  | coolHoldExit (t : Nat)
  /-- COOLANT_LOW_CLEAR (R401). Flow stays at or above 3.2 L/min for 10 s and the coolant-below-80 % source clears. -/
  | coolantLowClear (t : Nat)
  /-- LIFE_MINUTE (R409). Each operating minute adds equivalent hours at 100 °C to CROWN_LIFE_USED. -/
  | lifeMinute (t : Nat)
  /-- LIFE_LOG_WRITE (R409). Hourly, and at RETAIN entry, Island A writes the life counters to the log in FLASH_A. -/
  | lifeLogWrite (t : Nat)
  /-- AGEING_READ (R410). Hourly the crown reads each die's ageing monitor and raises its regulator set-point per full 1 % of degradation. -/
  | ageingRead (t : Nat) (die degrade : Nat)
  /-- CAL_WRITE (R412). CROWN_CAL_CTRL.WRITE starts the overwrite of the calibration set, or is refused with BUSY or KEY. -/
  | calWrite (t : Nat) (value : Nat)
  /-- CAL_WRITE_DONE (R412). Island A finishes erasing, writing and reading back the calibration set, with RESULT DONE or FLASH. -/
  | calWriteDone (t : Nat) (ok : Bool)
  /-- BOOT_ROM_DONE (R439). The boot ROM checks the identity seed and key stores, generates the identity key and sets the counters to their ceilings. -/
  | bootRomDone (t : Nat)
  /-- FIRMWARE_SELECT (R436). Both islands finish validating their firmware slots, agree on one, repair the lagging flash and apply the owner block. -/
  | firmwareSelect (t : Nat) (repairOk : Bool)
  /-- MGMT_FRAGMENT_RX (R427). A management fragment frame arrives and is reassembled into a message. -/
  | mgmtFragmentRx (t : Nat) (island src dst : Nat) (bytes : List Byte)
  /-- MGMT_REASSEMBLY_TIMEOUT (R427). A message whose fragments are not all present within 10 ms is discarded. -/
  | mgmtReassemblyTimeout (t : Nat) (island : Nat)
  /-- MGMT_IDENTITY (R428). The IDENTITY command returns the identity record. -/
  | mgmtIdentity (t : Nat) (island : Nat)
  /-- MGMT_ATTEST (R433). The ATTEST command returns an attestation report signed by the identity key. -/
  | mgmtAttest (t : Nat) (island : Nat)
  /-- MGMT_ENROLL (R425). The ENROLL command writes a key into a slot, the first owner enrolment plain and later ones sealed. -/
  | mgmtEnroll (t : Nat) (island : Nat)
  /-- MGMT_REVOKE (R425). The REVOKE command empties a slot and lists its key's digest as revoked. -/
  | mgmtRevoke (t : Nat) (island : Nat)
  /-- MGMT_SET_FLOOR (R426). The SET_FLOOR command raises the pattern or firmware floor. -/
  | mgmtSetFloor (t : Nat) (island : Nat)
  /-- MGMT_FIRMWARE (R437). The FIRMWARE command validates an image and writes it to the idle slot of both flashes. -/
  | mgmtFirmware (t : Nat) (island : Nat)
  /-- MGMT_STORE (R438). The STORE command writes or erases a pattern store entry on both flashes. -/
  | mgmtStore (t : Nat) (island : Nat)
  /-- FLASH_WRITE_DONE (R437). A FIRMWARE or STORE flash write completes and is answered. -/
  | flashWriteDone (t : Nat) (ok : Bool)
  /-- HOST_LINK_UP (R454). A HOST port's link comes up and the attach state advances. -/
  | hostLinkUp (t : Nat) (port : Nat)
  /-- HOST_LINK_DOWN (R449). A HOST port's data link goes down; in-flight reads end and surprise removal is judged. -/
  | hostLinkDown (t : Nat) (port : Nat) (orderly : Bool) (flight : List Requester)
  /-- PORT_FAILOVER (R449). A port stays down for FO_US, so its traffic is redirected to the other port and its outcome rings are rewritten. -/
  | portFailover (t : Nat) (port : Nat)
  /-- PERST_ASSERT (R452). Assertion of PERSTn_N resets one port's function and link. -/
  | perstAssert (t : Nat) (port : Nat) (flight : List Requester)
  /-- PERST_DEASSERT (R452). Deassertion of PERSTn_N starts link training, and wakes the module in RETAIN. -/
  | perstDeassert (t : Nat) (port : Nat)
  /-- BAR2_ACCESS (R445). A host read or write through BAR2 is translated by its aperture and judged by the guards. -/
  | bar2Access (t : Nat) (port off : Nat) (write : Option (List Byte)) (len : Nat) (ok : Bool)
  /-- HOST_READ_COMPLETION (R447). A device read to the host completes, with data or an error that voids the work that needed it. -/
  | hostReadCompletion (t : Nat) (port : Nat) (who : Requester) (status : Nat)
  /-- HOST_COMPLETION_TIMEOUT (R447). A device read reaches its completion timeout and the work that needed it is voided. -/
  | hostCompletionTimeout (t : Nat) (port : Nat) (who : Requester)
  /-- MSIX_UNMASK (R448). Unmasking a vector with its PBA bit set sends it once. -/
  | msixUnmask (t : Nat) (port vector : Nat)
  /-- ETH_TX_PRODUCE (R453). The host advances ETH_HR_IDX.PROD and the port transmits frames from the TX ring, stamping them on request. -/
  | ethTxProduce (t : Nat) (port prod : Nat)
  /-- ATTACH_QUIESCE (R456). ATTACH_CTRL.QUIESCE stops intake and voids uninjected tickets, or is refused. -/
  | attachQuiesce (t : Nat)
  /-- QUIESCE_LIMIT (R456). ATTACH_QLIMIT passes and the tickets still unended are voided with cause 0x05. -/
  | quiesceLimit (t : Nat)
  /-- QUIESCE_COMPLETE (R457). All outcomes are delivered; the watermark record is written and the module is QUIESCED. -/
  | quiesceComplete (t : Nat)
  /-- ATTACH_RESUME (R456). ATTACH_CTRL.RESUME ends QUIESCED and streams accept tickets again. -/
  | attachResume (t : Nat)
  /-- ATTACH_FENCE (R459). ATTACH_CTRL.FENCE fences the module, voiding unended tickets and refusing later landings until restart. -/
  | attachFence (t : Nat)
  /-- ATTACH_JOIN (R461). ATTACH_CTRL.JOIN joins the module to its partner, or is refused. -/
  | attachJoin (t : Nat)
  /-- ATTACH_UNREDIRECT (R449). ATTACH_CTRL.UNREDIRECT ends redirection when the original port is LINKED, or is refused. -/
  | attachUnredirect (t : Nat)
  /-- ATTACH_RESTART (R458). ATTACH_CTRL.RESTART with the key restarts the module into BOOT with the always-on domains kept, or is refused. -/
  | attachRestart (t : Nat) (key : Nat)
  /-- HEARTBEAT_SEND (R460). Every 1 ms at a partner position IOD1 sends a HEARTBEAT with state and watermarks on ETH3. -/
  | heartbeatSend (t : Nat)
  /-- HEARTBEAT_RX (R460). A partner heartbeat is received and updates the ATTACH_PEER registers. -/
  | heartbeatRx (t : Nat) (bytes : List Byte)
  /-- PEER_HEARTBEAT_TIMEOUT (R461). A joined module misses partner heartbeats for PEER_TO_MS and sets PEER_LOST. -/
  | peerHeartbeatTimeout (t : Nat)
  /-- BEACON_SEND (R462). Every 100 ms at the farm position each island sends a BEACON to the fault manager. -/
  | beaconSend (t : Nat) (island : Nat)
  /-- LEASE (R463). A LEASE frame joins the module to a job or renews the lease, or is ignored. -/
  | lease (t : Nat) (island dst : Nat) (bytes : List Byte)
  /-- FENCE_FRAME (R463). A FENCE frame for the joined job fences the module. -/
  | fenceFrame (t : Nat) (island dst : Nat) (bytes : List Byte)
  /-- RESTART_FRAME (R463). A RESTART frame for the last job restarts a fenced module. -/
  | restartFrame (t : Nat) (island dst : Nat) (bytes : List Byte)
  /-- WAKE_FRAME (R462). A WAKE frame wakes the module from RETAIN. -/
  | wakeFrame (t : Nat) (island dst : Nat) (bytes : List Byte)
  /-- LEASE_GRACE (R463). 2 s after the last renewal the module sets GRACE and keeps working. -/
  | leaseGrace (t : Nat)
  /-- LEASE_EXPIRE (R463). 3 s after the last renewal the lease lapses and the module is fenced. -/
  | leaseExpire (t : Nat)
  /-- REGISTER_WRITE (R11). A BAR0 write to a register without a row of its own takes effect by its access code, or is ignored and raises CFG_BUSY and a NOTE. -/
  | registerWrite (t : Nat) (port off size value : Nat)
  /-- ETH_LINK_DOWN (R348). An Ethernet port's link goes down; the port's link-down source is raised and the port is idle for ETH_TS_ASYM. -/
  | ethLinkDown (t : Nat) (port : Nat)
  /-- ETH_LINK_UP (R309). An Ethernet port's link comes up again and the port resumes stamping and classifying frames. -/
  | ethLinkUp (t : Nat) (port : Nat) (fast : Bool)
  /-- CSI_LINK_LOST (R223). A CSI receiver sees no high-speed traffic for 1 ms and CSI_CTRL.LINK clears. -/
  | csiLinkLost (t : Nat) (port : Nat)
  /-- D3HOT_ENTRY (R443). A host configuration write puts a port's function in D3hot, disabling BAR decode and bus mastering and making the port down for failover. -/
  | d3hotEntry (t : Nat) (port : Nat) (flight : List Requester)
  /-- D3HOT_EXIT (R449). A host configuration write returns a port's function from D3hot to D0, re-enabling decode so that held outcomes can flow. -/
  | d3hotExit (t : Nat) (port : Nat)
  /-- ADMIN_BASE_TIME (R291). The administrative base time of a port's gate configuration is reached, and the administrative gate control list becomes operational. -/
  | adminBaseTime (t : Nat) (port base cycle : Nat) (list : List (Nat × Nat))
  /-- TEST_INTERVAL_PASSED (R338). A glove of a placement without an alternate passes 60 s without a full test pass, and the test-interval source is raised. -/
  | testIntervalPassed (t : Nat) (glove : Nat)
  /-- PLANNER_TEST_INJECTION (R367). Every 100 ms test candidates are injected into each planner slice, and a wrong answer raises the slice-logic source. -/
  | plannerTestInjection (t : Nat) (unit : Nat) (ok : Bool)
  /-- PROJECTION_RECOMPUTE (R367). Every 1 ms the island recomputes the projection of one point and, on a mismatch, takes the projection unit out of service. -/
  | projectionRecompute (t : Nat) (unit : Nat) (ok : Bool)
  /-- RATE_DRIFT_CHECK (R318). Once per second an island compares RATE with the measured drift of the offset, and on a mismatch raises the time-source source. -/
  | rateDriftCheck (t : Nat) (island : Nat) (ok : Bool)
  /-- PATTERN_STORE_READ (R439). The read of a pattern-store image from flash into device memory completes, for BOOT_LOAD or for a GO with SRC = 1, and the image is handed to verification. -/
  | patternStoreRead (t : Nat)
  /-- BIAS_HOLD_LOSS (R29). The input at the VIN blades falls below 9 V, the bias network stops holding the SAFE outputs, and the SAFE lines may rise to the carrier pull-up. -/
  | biasHoldLoss (t : Nat) (mv : Nat)
  deriving DecidableEq, Repr

end Sys2Proof
end

