-- ==== Sys2Proof/Machine/Bits.lean ====
section
/-!
DEFINITION. Bit fields, two's complement, saturation and the check codes of the spec
(CRC-32C of R195, the CRC-16 of R44 and the CRC-8 of R399).
-/

namespace Sys2Proof.Machine

/-- Bits `[hi:lo]` of a number. -/
def bits (v hi lo : Nat) : Nat := v / 2 ^ lo % 2 ^ (hi + 1 - lo)

/-- Bit `i` of a number. -/
def bit (v i : Nat) : Bool := v / 2 ^ i % 2 == 1

/-- A truth value as a bit. -/
def b2n (b : Bool) : Nat := if b then 1 else 0

/-- The `w`-bit two's complement value of a number. -/
def sext (w v : Nat) : Int :=
  let u := v % 2 ^ w
  if u < 2 ^ (w - 1) then (u : Int) else (u : Int) - 2 ^ w

/-- The `w`-bit two's complement encoding of an integer. -/
def uenc (w : Nat) (x : Int) : Nat := (x % 2 ^ w).toNat

/-- Clamp an integer to `[lo, hi]`. -/
def clampI (lo hi x : Int) : Int := if x < lo then lo else if hi < x then hi else x

/-- Clamp to the range of a signed `w`-bit integer. -/
def satS (w : Nat) (x : Int) : Int := clampI (-(2 ^ (w - 1))) (2 ^ (w - 1) - 1) x

/-- A counter of `w` bits that saturates: add `n`. -/
def satAdd (w v n : Nat) : Nat := min (v + n) (2 ^ w - 1)

/-- A free-running counter of `w` bits: add `n`. -/
def wrapAdd (w v n : Nat) : Nat := (v + n) % 2 ^ w

/-- Saturating conversion of a number to `w` unsigned bits. -/
def satU (w v : Nat) : Nat := min v (2 ^ w - 1)

/-- The signed 32-bit difference of two short stamps (R304). -/
def shortDiff (a b : Nat) : Int := sext 32 (a + (2 ^ 32 - b % 2 ^ 32))

/-- Expansion of a short stamp with a reference full stamp (R305). -/
def expandStamp (s f : Nat) : Nat := ((f : Int) + shortDiff s f).toNat % 2 ^ 64

/-- `a` is later than `b` as short stamps (R304). -/
def laterShort (a b : Nat) : Bool := decide (0 < shortDiff a b)

/-! ### Check codes -/

/-- One bit step of a reflected CRC. -/
def crcStepR (poly c : Nat) : Nat := if c % 2 = 1 then (c / 2) ^^^ poly else c / 2

/-- `n` bit steps of a reflected CRC. -/
def crcStepsR (poly : Nat) : Nat → Nat → Nat
  | 0, c => c
  | n + 1, c => crcStepsR poly n (crcStepR poly c)

/-- A reflected CRC over bytes. -/
def crcR (poly : Nat) : Nat → List Byte → Nat
  | c, [] => c
  | c, b :: bs => crcR poly (crcStepsR poly 8 (c ^^^ b.toNat)) bs

/-- CRC-32C (R195): reflected polynomial 0x82F6_3B78, initial value and final XOR 0xFFFF_FFFF. -/
def crc32c (bs : List Byte) : Nat := crcR 0x82F63B78 0xFFFFFFFF bs ^^^ 0xFFFFFFFF

/-- One bit step of an unreflected CRC of `w` bits. -/
def crcStepN (w poly c : Nat) : Nat :=
  if c / 2 ^ (w - 1) % 2 = 1 then (c * 2 % 2 ^ w) ^^^ poly else c * 2 % 2 ^ w

/-- `n` bit steps of an unreflected CRC. -/
def crcStepsN (w poly : Nat) : Nat → Nat → Nat
  | 0, c => c
  | n + 1, c => crcStepsN w poly n (crcStepN w poly c)

/-- An unreflected CRC of `w` bits over bytes. -/
def crcN (w poly : Nat) : Nat → List Byte → Nat
  | c, [] => c
  | c, b :: bs => crcN w poly (crcStepsN w poly 8 (c ^^^ (b.toNat * 2 ^ (w - 8)))) bs

/-- CRC-16 with polynomial 0x1021 and initial value 0xFFFF, the header check of R44. -/
def crc16 (bs : List Byte) : Nat := crcN 16 0x1021 0xFFFF bs

/-- CRC-8 with polynomial 0x07 and initial value 0x00, the tray check of R399. -/
def crc8 (bs : List Byte) : Nat := crcN 8 0x07 0 bs

end Sys2Proof.Machine
end

