-- ==== Sys2Proof/Config.lean ====
section
/-!
DEFINITION. The fixed figures of the module and the values the spec leaves open (opaque constants: nothing in Lean can
compute them, so a claim holds whatever they are). Each opaque constant is named in the assumption log.
-/

namespace Sys2Proof.Config

/-- Gloves and quads (R38, R39). -/
def gloves : Nat := 1344
def quads : Nat := 336

/-- Device addresses run from 0 to 192 GiB − 1 (R369). -/
def deviceBytes : Nat := 192 * 2 ^ 30

/-- The pattern area: 2 GiB at the top of the device address space (R98). -/
def patternArea : Nat := deviceBytes - 2 ^ 31

/-- The trace ring of die `d`: 4 MiB directly below the pattern area, IOD1's below IOD0's (R315). -/
def traceRing (d : Nat) : Nat := patternArea - 2 ^ 22 * (d + 1)

/-- Module identity as built (MOD_ID, MOD_CAP2). -/
def member : Nat := 0x0C8
def portableVer : Nat := 1

/-- A free number: a value the spec leaves open, drawn with the state's counter (assumption 6). -/
opaque freeNat : Nat → Nat

/-- Element `i` of a draw of free values: what float arithmetic delivers within a bound, and what the spec leaves open
element by element (assumption 6). -/
opaque freeAt : Nat → Nat → Nat

/-- The SHA3-256 digest of a byte string, 32 bytes little end first in the list (FIPS 202, assumption 7). -/
opaque sha3 : List Byte → List Byte

/-- ML-DSA-44 verification: key, message, signature (FIPS 204, assumption 7). -/
opaque mldsaVerify : List Byte → List Byte → List Byte → Bool

/-- ML-DSA-44 signature of a message with the identity key of a module (FIPS 204, assumption 7). -/
opaque mldsaSign : List Byte → List Byte → List Byte

/-- The phase term the time agent adds to the rate ratio (R310 gives no gain), from the measured offset. -/
opaque phaseTerm : Int → Int

/-- The payload of an IEEE 802.1AS message the agent sends: message type, sequence number, stamp (the cited standard
fixes the bytes). -/
opaque gptpPayload : Nat → Nat → Nat → List Byte

/-- Projection error of a point in a camera, in 2^-20 pixel, used within ±1/64 pixel (R244 gives the bound alone). -/
opaque projError : Nat → Int

/-- The exact model of a FISHEYE camera: (u, v) in 2^-20 pixel from the CAMERA stitch and the FP32 camera-frame point
(R244: a transcendental function); none where the point is not valid. -/
opaque fisheye : List Byte → List Nat → Option (Int × Int)

/-- Object fusion arithmetic of R251, which the spec bounds and does not fix: the predicted state and covariance of a track,
the d² of a track and a detection, the pairwise d² of two detections, the updated state and covariance. FP32 encodings. -/
opaque trackPredict : List Nat → List Nat → Nat → Int → List Nat × List Nat
opaque trackD2 : List Nat → List Nat → List Nat → Nat → Nat
opaque pairD2 : List Nat → Nat → List Nat → Nat → Nat
opaque trackUpdate : List Nat → List Nat → List Nat → Nat → List Nat × List Nat

/-- What the planner forms in FP32 with an order the spec does not fix (R268, R273): the poses (X, Y, YAW) and the COST of
a SAMPLE candidate from the request header and its two draws, of a ROADMAP candidate from the header, its path, offset and
acceleration, and the extension of a tree node (X, Y, YAW, V, KAPPA, COST, depth) by a primitive: its poses and the new V,
KAPPA, COST. FP32 encodings. -/
opaque sampleCand : List Byte → Nat → Nat → List (List Nat) × Nat
opaque roadmapCand : List Byte → List Byte → Nat → Nat → List (List Nat) × Nat
opaque extendNode : List Byte → List Nat → List Byte → List (List Nat) × List Nat

/-- On which side of a column edge a coordinate within 2^-10 of it falls (R269): true = the higher column. -/
opaque edgeSide : Nat → Int → Bool

/-- What a pose's NaN or infinity counts as in R269, which states no result for one. -/
opaque oddValue : Nat → Int

/-- The device address at which the fitter places the page-table buffer of a scene memory (R162 gives the tier alone):
PATTERN_ID and memory number. -/
opaque pageTableAt : Nat → Nat → Nat

/-- The seed of an island for a check, which keys its sampling (R329 names it and gives no value). -/
opaque checkSeed : Nat → Nat → Nat

/-- Whether the equivalent hours of a minute, in 2^-32 h, are rounded up: from the sum and the number of the minute's hottest
hot spots (R409 gives the exponential and no rounding). -/
opaque lifeUp : Int → Nat → Bool

/-- The values of a calibration section (0 THERMAL, 1 VREG, 2 DPHY, 3 CLOCK, 4 DDR) lie in range (R411 gives no range). -/
opaque calInRange : Nat → List Byte → Bool

/-- ML-DSA-44 key generation from the identity seed (FIPS 204). -/
opaque mldsaKey : List Byte → List Byte

/-- The power of x that symbol k of a line has in the codeword (R376 gives the field and the roots, not the order). -/
opaque symbolPower : Nat → Nat

/-- A pattern of six or more symbol errors that the decoder miscorrects (R376: a fraction of 5.4 × 10^-8): the 64-byte mask
by which the delivered line differs; none = detected. -/
opaque miscorrected : List (Nat × Nat) → Option (List Byte)

end Sys2Proof.Config
end

