-- ==== Sys2Proof/Machine/Blocks/Crown.lean ====
section
/-!
DEFINITION. State of the module's power and reset (MOD registers, connector, power stage) and of the crown
(Module, package and connector R18 to R33; Power states, clocks, cooling and calibration R390 to R413).
-/

namespace Sys2Proof.Machine

/-- Module states (MOD_STATUS codes, R9 and R390). -/
inductive ModSt where
  | off | retain | boot | standby | active | degraded | fenced | safe
  deriving DecidableEq, Repr

/-- The connector, the power stage and the MOD block. -/
structure PowerState where
  /-- MOD_STATUS.STATE; resets to BOOT -/
  st : ModSt := .boot
  /-- MOD_STATUS.PREV_STATE -/
  prev : ModSt := .off
  /-- MOD_ID.STEPPING, fused: 0 A0, 1 B0 -/
  stepping : Nat := 1
  /-- MOD_STATUS.JEPOCH -/
  jepoch : Nat := 0
  /-- the two non-volatile copies; none = fails its digest -/
  jepochA : Option Nat := some 0
  jepochB : Option Nat := some 0
  /-- travel of the module: 0 withdrawn, 1 stage 1, 2 stage 2, 3 fully mated -/
  mate : Nat := 3
  /-- coolant couplings engaged -/
  coolant : Bool := true
  prsnt : Bool := true
  pwrEn : Bool := true
  /-- the power stage has been started -/
  on : Bool := true
  pgood : Bool := true
  /-- the main converter of each half, the always-on converter of each half -/
  main0 : Bool := true
  main1 : Bool := true
  aon0 : Bool := true
  aon1 : Bool := true
  /-- the bias network holds both SAFE outputs conducting -/
  biasHeld : Bool := true
  /-- SLOT_ID pins on the carrier, and the value sampled at reset -/
  strapPins : Nat := 0
  position : Nat := 0
  /-- reference clocks as monitored -/
  refA : Bool := true
  refB : Bool := true
  /-- fast domains stopped (SAFE, R358) -/
  fastStopped : Bool := false
  /-- MOD_PWR_CTRL -/
  refused : Bool := false
  wakeEn : Bool := false
  pwrCfgBusy : Bool := false
  holdMs : Nat := 10
  /-- MOD_PWR_WAKE.STAMP -/
  wakeStamp : Nat := 0
  /-- between the end of RETAIN entry and the start of RETAIN exit -/
  inRetain : Bool := false
  /-- RETAIN entry in progress; exit in progress -/
  retainEntry : Bool := false
  retainExit : Bool := false
  /-- a wake arrived during entry (R413) -/
  wakePend : Bool := false
  /-- the module is FENCED; the module is in SAFE -/
  fenced : Bool := false
  safe : Bool := false
  /-- DDR training of this start is done, so the fast clocks run (R392) -/
  trained : Bool := false
  /-- the boot chain is complete -/
  booted : Bool := false
  deriving DecidableEq, Repr

/-- A thermal sensor pair: 336 quads, then 8 I/O die hot spots (CROWN_QTEMP, CROWN_QFLAG). -/
structure SensePair where
  diode : Int := 0
  ring : Int := 0
  maskD : Bool := false
  maskR : Bool := false
  disagree : Bool := false
  halfRate : Bool := false
  held : Bool := false
  /-- nominal time since which the difference exceeds 6 K -/
  diffSince : Option Nat := none
  /-- nominal time since which the difference is at most 6 K -/
  agreeSince : Option Nat := none
  /-- the hot spot in 1/128 °C; none before the first read or with both sensors masked on a quad -/
  hot : Option Int := none
  deriving DecidableEq, Repr

/-- Ageing registers of one die (CROWN_AGE_k). -/
structure AgeReg where
  degrade : Nat := 0
  trimMv : Nat := 0
  limit : Bool := false
  deriving DecidableEq, Repr

/-- The CROWN block. -/
structure CrownState where
  level : Nat := 0
  acting : Bool := false
  trayOk : Bool := false
  coolHold : Bool := false
  /-- COOL_HOLD has drained: every glove gated -/
  coolGated : Bool := false
  cfgBusy : Bool := false
  hardCap : Bool := false
  /-- RUN_W, SHORT_W, SHORT_MS in force (ENVELOPE stitch or default) and pending RWS values -/
  runW : Nat := 520
  shortW : Nat := 640
  shortMs : Nat := 10
  nowW : Nat := 0
  peakW : Nat := 0
  excursions : Nat := 0
  /-- samples of the running 1 ms window: sum of mW and count -/
  sumMw : Nat := 0
  sumN : Nat := 0
  /-- consecutive samples above E_short; nominal time since power exceeds E_run -/
  overShort : Nat := 0
  overRunAt : Option Nat := none
  /-- nominal time since which the 1 ms average stays below 0.9 E_run -/
  lowSince : Option Nat := none
  parkUs : Nat := 1000
  bins : List Nat := [0, 0, 0, 0, 0]
  inlet : Int := 0
  outlet : Int := 0
  flow : Nat := 0
  /-- nominal time of the last good tray read -/
  goodAt : Option Nat := none
  inletLow : Bool := false
  inletHigh : Bool := false
  hotTemp : Int := 0
  hotWhere : Nat := 0x1FF
  /-- hottest hot spot at past reads: (nominal time, 1/128 °C), newest first, within 1 s -/
  hotHist : List (Nat × Int) := []
  changes : Nat := 0
  heldMs : Nat := 0
  lifeH : Nat := 0
  lifeUsed : Nat := 0
  /-- minutes and fractions behind the two life counters -/
  lifeMin : Nat := 0
  lifeFrac : Nat := 0
  /-- the life counters hold what the log restored since power-on (R409) -/
  lifeKept : Bool := false
  /-- hottest hot spots of the running minute: sum and count -/
  hotSum : Int := 0
  hotN : Nat := 0
  /-- forecasts written to the tray and acknowledged, newest first -/
  traySent : List (List Byte) := []
  age : Tbl AgeReg := []
  pairs : Tbl SensePair := []
  /-- offsets in force, 1/128 °C: pair index to (diode, ring oscillator) -/
  offD : Tbl Int := []
  offR : Tbl Int := []
  /-- readings are stale: no good read for 100 ms (R399) -/
  stale : Bool := false
  /-- the calibration set was read, or replaced, at the last entry to BOOT -/
  calRead : Bool := false
  calOrigin : Nat := 0
  calThermal : Bool := false
  calVreg : Bool := false
  calDphy : Bool := false
  calClock : Bool := false
  calDdr : Bool := false
  calBusy : Bool := false
  calResult : Nat := 0
  calAddr : Nat := 0
  calLen : Nat := 0
  /-- the calibration set the accepted write carries -/
  calNew : List Byte := []
  coolSince : Option Nat := none
  flowOkSince : Option Nat := none
  flowLow : Bool := false
  deriving DecidableEq, Repr

end Sys2Proof.Machine
end

