-- ==== Sys2Proof/Machine/Blocks/Ddr.lean ====
section
/-!
DEFINITION. State of the twelve DDR4 controllers and of device memory (DDR4 memory controllers, R369 to R389).
-/

namespace Sys2Proof.Machine

/-- DDR_STATUS.STATE -/
inductive DdrSt where
  | reset | training | active | powerDown | selfRefresh | isolated | trainFailed
  deriving DecidableEq, Repr

/-- A queued read of one line. -/
structure DdrRead where
  line : Nat
  who : Requester
  secure : Bool := false
  /-- entry order of the controller -/
  ord : Nat := 0
  /-- the merge read of a partial write (R374) -/
  merge : Bool := false
  /-- the line was poisoned when the read was issued -/
  poison : Bool := false
  deriving DecidableEq, Repr

/-- A write-queue entry: byte offsets with their new bytes, and whether its merge read is outstanding (R374). -/
structure DdrWrite where
  line : Nat
  bytes : List (Nat × Byte)
  merge : Bool := false
  who : Requester
  secure : Bool := false
  ord : Nat := 0
  /-- re-issues made after a write CRC error -/
  retries : Nat := 0
  /-- retries exhausted: stays queued until the isolation -/
  stuck : Bool := false
  /-- reads waiting for the merge: they are forwarded then -/
  waiters : List DdrRead := []
  deriving DecidableEq, Repr

/-- One entry of the error log (R381). -/
structure DdrLog where
  stamp : Nat := 0
  addr : Nat := 0
  detail : Nat := 0
  kind : Nat := 0
  symbols : Nat := 0
  secure : Bool := false
  req : Nat := 0
  syndrome : Nat := 0
  deriving DecidableEq, Repr

/-- One channel. -/
structure DdrChan where
  st : DdrSt := .reset
  ref2x : Bool := false
  cfgBusy : Bool := false
  tempHigh : Bool := false
  drain : Bool := false
  /-- the drain was entered for lack of reads -/
  drainIdle : Bool := false
  wmHigh : Nat := 48
  wmLow : Nat := 16
  pdIdle : Nat := 8
  srIdle : Nat := 0
  wcrcRetry : Nat := 4
  periodH : Nat := 24
  scrubOn : Bool := true
  scrubLine : Nat := 0
  scrubLast : Nat := 0
  ce : Nat := 0
  ue : Nat := 0
  caPar : Nat := 0
  wcrc : Nat := 0
  postponed : Nat := 0
  postMax : Nat := 0
  forwards : Nat := 0
  poisoned : Nat := 0
  discarded : Nat := 0
  devCe : Tbl Nat := []
  trainResult : Nat := 0
  trainStep : Nat := 0
  trainDevice : Nat := 0
  trainUs : Nat := 0
  elogWr : Nat := 0
  elog : Tbl DdrLog := []
  reads : List DdrRead := []
  writes : List DdrWrite := []
  /-- reads issued and not yet decoded, oldest first -/
  flight : List DdrRead := []
  ord : Nat := 0
  /-- rotating pointer over the 16 banks -/
  bankPtr : Nat := 0
  openRow : Tbl (Option Nat) := []
  /-- picks of the open row before an older request to another row, in a row, per bank (R375) -/
  rowHits : Tbl Nat := []
  /-- the commands kept for replay: their lines and kinds (1 read, 2 write), newest first, at most 32 -/
  replay : List (Nat × Nat) := []
  /-- a refresh is due and may no longer be postponed -/
  refDue : Bool := false
  zqDue : Bool := false
  lastRef : Nat := 0
  lastUse : Nat := 0
  /-- poisoned lines, by channel-local line number -/
  poison : List Nat := []
  deriving DecidableEq, Repr

/-- The memory system: the channels and the bytes of device memory by device address. -/
structure DdrState where
  ch : Tbl DdrChan := []
  mem : Mem := []
  deriving DecidableEq, Repr

end Sys2Proof.Machine
end

