-- ==== Sys2Proof/Machine/Blocks/Fabric.lean ====
section
/-!
DEFINITION. State of the compute fabric: gloves, mittens, edges with their tokens and credits, lining banks, routers
(Compute fabric, R38 to R62; Number formats, R73 to R75).
-/

namespace Sys2Proof.Machine

/-- A token: one buffer of the edge's tensor, with the tags of the tickets it serves (R206). -/
structure Token where
  tags : List Tag := []
  data : List Byte := []
  degraded : Bool := false
  stale : Bool := false
  /-- element positions and the global quad that produced them, for a checked edge -/
  quad : Nat := 0xFFFF
  /-- the ring entry the buffer is, for a token of a sensor stream or a LATEST member: stream and SAMPLE_SEQ -/
  ring : Option (Nat × Nat) := none
  deriving DecidableEq, Repr

/-- An edge of the graph (R57): depth, free credits of the producer, tokens and credits in flight, tokens held. -/
structure Edge where
  depth : Nat := 0
  credits : Nat := 0
  flight : List Token := []
  held : List Token := []
  /-- token buffers taken by a firing in progress of the consumer -/
  inUse : Nat := 0
  /-- credits taken by a firing in progress of the producer -/
  taken : Nat := 0
  creditFlight : Nat := 0
  deriving DecidableEq, Repr

/-- A firing in progress (R58): tokens taken from each input edge, and when it started. -/
structure Firing where
  inputs : List (Nat × List Token)
  outs : List (Nat × Nat)
  at_ : Nat
  /-- short stamp of the start -/
  stamp : Nat := 0
  tags : List Tag
  /-- the state tensors as they stood at the start (R182) -/
  states : List (Nat × List Byte) := []
  /-- an input is DEGRADED, STALE, or a version with a LOST page (R168, R206) -/
  degraded : Bool := false
  stale : Bool := false
  deriving DecidableEq, Repr

/-- A mitten (R54 to R58). -/
structure Mitten where
  /-- bound to an operator or fused group by the placement in force -/
  bound : Bool := false
  op : Nat := 0
  stack : Nat := 0
  gloves : List Nat := []
  /-- gloves of the node's mittens on other dies, which fire with this one (R54) -/
  parts : List Nat := []
  /-- the mitten with which this part of a split node fires -/
  lead : Option Nat := none
  secure : Bool := false
  /-- runs at 300 MHz -/
  half : Bool := false
  /-- the rate the crown asks for, taken at the block seam (R56) -/
  halfNext : Bool := false
  gated : Bool := false
  /-- waits for its constants (R102) -/
  waitConst : Bool := false
  firing : Option Firing := none
  lastFire : Nat := 0
  /-- firings completed since LOADED -/
  fires : Nat := 0
  deriving DecidableEq, Repr

/-- What self-test does with a glove (R337, R338). -/
inductive GloveTest where
  | none | selftest | withdrawn
  deriving DecidableEq, Repr

/-- A glove's status entry (GLOVE_* registers). -/
structure Glove where
  test : GloveTest := .none
  cfgBusy : Bool := false
  ce : Nat := 0
  ue : Bool := false
  fires : Nat := 0
  /-- GLOVE_TEST.LAST_PASS, a short stamp -/
  lastPass : Nat := 0
  /-- nominal time of the last full pass -/
  passAt : Nat := 0
  /-- slices of the running test that have passed -/
  slices : Nat := 0
  /-- the test-interval source has been raised -/
  overdue : Bool := false
  sat : Nat := 0
  nan : Nat := 0
  /-- the instant of the last completed firing and the events counted at it: a clear of that instant acts first (R75) -/
  evAt : Nat := 0
  evSat : Nat := 0
  evNan : Nat := 0
  deriving DecidableEq, Repr

/-- A lining bank's status record (LINING_BANK, LINING_SCRUB). -/
structure Bank where
  ce : Nat := 0
  ue : Bool := false
  lastPass : Nat := 0
  /-- next word of the patrol scrub -/
  pos : Nat := 0
  deriving DecidableEq, Repr

/-- A packet: the 16 header bytes and the payload (R44). -/
structure Packet where
  header : List Byte
  payload : List Byte
  deriving DecidableEq, Repr

/-- A packet waiting at an output (R43), with the input it came by: the code of a local port, or that of a link. -/
structure Queued where
  place : Place
  out : OutPort
  cls : Nat
  pkt : Packet
  input : Nat
  deriving DecidableEq, Repr

/-- The compute fabric. -/
structure FabricState where
  gloves : Tbl Glove := []
  mittens : Tbl Mitten := []
  edges : Tbl Edge := []
  banks : Tbl Bank := []
  /-- contents of state tensors (ROLE 4), scene memories apart, by tensor ID -/
  tensors : List (Nat × List Byte) := []
  /-- route-table generation of each die -/
  rtGen : Tbl Nat := []
  /-- route-table entries that differ from the row-first default: (stack × 84 + quad) × 86 + destination -/
  routes : Tbl (Option Nat) := []
  /-- dies draining for a route-table seam (R42), with the tables to be installed -/
  draining : List (Nat × List (Nat × Nat)) := []
  queued : List Queued := []
  /-- flits an output has served since class 3 was, while class 3 waits (R43) -/
  since3 : Tbl Nat := []
  /-- the input that an output served last in a class, plus 1: 4 × output + class (R43) -/
  turn : Tbl Nat := []
  /-- packets handed to a wrist, lining or control port or to a brim stop's block, latest last -/
  delivered : List (Place × OutPort × Packet) := []
  /-- DMA descriptors of the wrists by 8 × glove + queue (R38, R94) -/
  dma : Tbl (List (List Byte)) := []
  /-- counter from which free values are drawn -/
  fresh : Nat := 0
  deriving DecidableEq, Repr

end Sys2Proof.Machine
end

