-- ==== Sys2Proof/Machine/Blocks/Fault.lean ====
section
/-!
DEFINITION. State of the two fault collectors, their sources, timers, records, isolations and the module safe state
(Fault collection, reaction and failure modes, R346 to R368).
-/

namespace Sys2Proof.Machine

/-- One source of a collector: its dual-rail line and what the collector keeps about it (R346, R348). -/
structure FaultSrc where
  /-- the source has latched an error and holds (1, 0) -/
  latched : Bool := false
  /-- raises latched and not yet recognized by the collector -/
  hits : Nat := 0
  /-- the line is in the broken-wire state -/
  wire : Bool := false
  /-- raised and not cleared (FAULT_SRC.ACTIVE) -/
  active : Bool := false
  /-- raises since BOOT; saturates at 0xFFFF -/
  count : Nat := 0
  /-- DETAIL the source supplies with its raise -/
  detail : Nat := 0
  /-- part named by the raise when the source's PART depends on the raise; 0xFF none -/
  part : Nat := 0xFF
  /-- the raising part or object is in the secure world -/
  secure : Bool := false
  /-- nominal time of the last record of this source -/
  lastRec : Option Nat := none
  /-- the reaction timer: nominal time at which it was started -/
  timer : Option Nat := none
  /-- nominal time of the manifestation, for FAULT_BUDGET0 -/
  since : Nat := 0
  deriving DecidableEq, Repr

/-- A fault record (R352). -/
structure FaultRec where
  stamp : Nat := 0
  source : Nat := 0
  sev : Nat := 0
  wire : Bool := false
  merged : Bool := false
  part : Nat := 0xFF
  action : Nat := 0
  quad : Nat := 0xFFFF
  count : Nat := 0
  detail : Nat := 0
  done : Nat := 0
  rseq : Nat := 0
  jepoch : Nat := 0
  coarse : Bool := false
  budgetExt : Bool := false
  secure : Bool := false
  deriving DecidableEq, Repr

/-- A commanded isolation awaiting its confirmation (R354, R356). -/
structure IsoCmd where
  /-- part in the model's numbering: identifiers below 0x80 as they stand, a quad as 0x100 + global quad index -/
  part : Nat
  /-- the source whose reaction it ends; none for an isolation by a check or a test -/
  src : Option Nat
  /-- 0x3 ISOLATED_FW or 0x4 ISOLATED_TIMER -/
  action : Nat
  /-- nominal time of the command -/
  at_ : Nat
  deriving DecidableEq, Repr

/-- One collector's own registers. -/
structure Collector where
  /-- CF_MODE: false DIRECT, true MERGE (R360) -/
  merge : Bool := false
  /-- number of the next record -/
  rseq : Nat := 0
  /-- records of severity MINOR and above since BOOT, saturating (R462) -/
  faults : Nat := 0
  sweepOk : Bool := false
  /-- a GRAVE source is latched -/
  grave : Bool := false
  /-- timer value of the profile, ns (R354) -/
  timerNs : Nat := 200000
  /-- the SAFE pin is sunk by this collector's island -/
  pinLow : Bool := true
  /-- the ring of 4,096 records in island SRAM, by record number modulo 4,096 -/
  ring : Tbl FaultRec := []
  /-- raised sources that are not complete, oldest first (for MERGE) -/
  open_ : List Nat := []
  deriving DecidableEq, Repr

/-- The FAULT block. -/
structure FaultState where
  /-- sources by their 11-bit source ID -/
  src : Tbl FaultSrc := []
  c0 : Collector := {}
  c1 : Collector := {}
  /-- severities of the firmware profile where they differ from the default (R350) -/
  profile : List (Nat × Nat) := []
  /-- timer values of the profile in µs where they differ from TIMER_US (R435) -/
  timers : List (Nat × Nat) := []
  /-- isolated parts, in the model's part numbering -/
  isolated : List Nat := []
  isoPend : List IsoCmd := []
  /-- parts whose re-placement is still to run, oldest first, with the source and the confirmation time -/
  replace : List (Nat × Nat × Nat) := []
  safeSource : Nat := 0
  safeValid : Bool := false
  safeCause : Nat := 0
  safeStamp : Nat := 0
  /-- a safe request recognised and not yet carried out: source and cause code of FAULT_SAFE -/
  safeReq : Option (Nat × Nat × Nat) := none
  ringBase : Nat := 0
  ringVector : Nat := 0
  ringPort : Nat := 0
  ringEnable : Bool := false
  ringMinSev : Nat := 0
  ringWr : Nat := 0
  detectUs : Nat := 0
  handleUs : Nat := 0
  replaceUs : Nat := 0
  voidUs : Nat := 0
  totalUs : Nat := 0
  budgetExt : Bool := false
  /-- the fault whose budget is being measured: source, manifestation, record, confirmation and re-placement times -/
  budget : Option (Nat × Nat × Nat × Nat × Nat) := none
  sweepResult : Nat := 0
  sweepClass : Nat := 0
  sweepItem : Nat := 0
  sweepUs : Nat := 0
  /-- nominal time at which the running sweep started -/
  sweepAt : Option Nat := none
  deriving DecidableEq, Repr

end Sys2Proof.Machine
end

