-- ==== Sys2Proof/Machine/Blocks/Host.lean ====
section
/-!
DEFINITION. State of the HOST ports, the ATTACH block, the Ethernet ports' frame path and of host memory as the device
sees it (Host attach, hot-plug, partners and fleets, R443 to R466; R314 queues).
-/

namespace Sys2Proof.Machine

/-- One entry of an MSI-X table (R448). -/
structure MsixEntry where
  addr : Nat := 0
  data : Nat := 0
  masked : Bool := true
  pba : Bool := false
  deriving DecidableEq, Repr

/-- One HOST port (R443 to R452). -/
structure HostPort where
  /-- data link layer up -/
  link : Bool := false
  /-- PERSTn_N asserted -/
  perst : Bool := false
  d3hot : Bool := false
  /-- nominal time since which the port is down -/
  downAt : Nat := 0
  /-- this port's traffic is redirected to the other port -/
  redirect : Bool := false
  /-- MSI-X table -/
  msix : Tbl MsixEntry := []
  /-- an orderly link end (PERST, Hot Reset, Link Disable) precedes the next link-down -/
  orderly : Bool := false
  /-- aperture registers: index to (BASE, VALID) -/
  win : Tbl (Nat × Bool) := []
  /-- AER status: a refused write has been reported as an Unsupported Request error -/
  aerUr : Bool := false
  deriving DecidableEq, Repr

/-- A completion or response the module returned on a port: Unsupported Request, poisoned or data. -/
inductive HostResp where
  | data (port : Nat) (bytes : List Byte)
  | poisoned (port : Nat) (len : Nat)
  | unsupported (port : Nat)
  deriving DecidableEq, Repr

/-- An MSI-X message sent: port and vector. -/
structure Msg where
  port : Nat
  vector : Nat
  deriving DecidableEq, Repr

/-- One frame-path ring of an Ethernet port (ETH_HR_*). -/
structure HrRing where
  base : Nat := 0
  sizeLog2 : Nat := 4
  vector : Nat := 0
  port : Nat := 0
  enable : Bool := false
  prod : Nat := 0
  done : Nat := 0
  deriving DecidableEq, Repr

/-- One transmit timestamp queue entry: identifier, stamp, fraction, COARSE. -/
abbrev TxEntry := Nat × Nat × Nat × Bool

/-- One Ethernet port. -/
structure EthPort where
  link : Bool := false
  /-- link rate 25GBASE-R (true) or 10GBASE-R -/
  fast : Bool := true
  asym : Int := 0
  txts : List TxEntry := []
  ovf : Bool := false
  lost : Nat := 0
  tx : HrRing := {}
  rx : HrRing := {}
  drop : Nat := 0
  /-- frames queued for transmission, oldest first: traffic class, frame, owner -/
  queued : List (Nat × EthFrame × TxOwner) := []
  /-- frames sent, newest first: egress stamp and frame -/
  sent : List (Nat × EthFrame) := []
  /-- open traffic classes (one bit per class) of the gate control list entry in force -/
  gates : Nat := 0xFF
  deriving DecidableEq, Repr

/-- The partner's last heartbeat entries: stream and watermark. -/
structure PeerWm where
  wm : Nat := 0
  stream : Nat := 0
  valid : Bool := false
  deriving DecidableEq, Repr

/-- Ports, ATTACH block, messages to the host and host memory. -/
structure HostState where
  p0 : HostPort := {}
  p1 : HostPort := {}
  eth : Tbl EthPort := []
  /-- host memory behind the ports (the same memory at the same addresses, R449) -/
  mem : Mem := []
  /-- MSI-X messages sent, newest first -/
  msgs : List Msg := []
  /-- responses to host requests, newest first -/
  resps : List HostResp := []
  joined : Bool := false
  quiescing : Bool := false
  quiesceAt : Nat := 0
  quiesced : Bool := false
  peerLost : Bool := false
  grace : Bool := false
  cmdRej : Bool := false
  cfgBusy : Bool := false
  fenceCause : Nat := 0
  vector : Nat := 0
  port : Nat := 0
  failover : Bool := true
  irq : Bool := false
  foUs : Nat := 100
  peerToMs : Nat := 3
  qlimitMs : Nat := 100
  wmBase : Nat := 0
  /-- the watermark record waits for a link -/
  wmPend : Bool := false
  /-- the watermark record as it was fixed (R457) -/
  wmRec : List Byte := []
  hbMask : Tbl Nat := []
  peerMac : Nat := 0x034B4C000001
  fmMac : Nat := 0x034B4C000002
  peerState : Nat := 0
  peerFlags : Nat := 0
  peerJepoch : Nat := 0
  peerLast : Nat := 0
  /-- nominal time of the last partner heartbeat -/
  peerAt : Option Nat := none
  peerWm : Tbl PeerWm := []
  jobId : Nat := 0
  jobEpoch : Nat := 0
  lastJob : Nat := 0
  leaseHeld : Bool := false
  /-- nominal time of the last renewal, counted in reference ticks -/
  renewAt : Nat := 0
  /-- a ticket was accepted since the last entry to BOOT -/
  accepted : Bool := false
  hbCtr : Nat := 0
  beaconCtrA : Nat := 0
  beaconCtrB : Nat := 0
  /-- frames sent on the management ports: island and frame bytes, newest first -/
  mgmtSent : List (Nat × List Byte) := []
  moduleId : Nat := 0
  macA : Nat := 0
  deriving DecidableEq, Repr

end Sys2Proof.Machine
end

