-- ==== Sys2Proof/Machine/Blocks/Island.lean ====
section
/-!
DEFINITION. State of the two safety islands, their mailboxes, checks, deadline watches and self-test
(Safety islands and the plausibility checker, R320 to R345).
-/

namespace Sys2Proof.Machine

/-- How an island's core triplet runs (R320, R322, R325). -/
inductive Vote where
  | triple | pair | silent | split
  deriving DecidableEq, Repr

/-- A message being reassembled on a management port (R427). -/
structure MgmtAsm where
  mtag : Nat
  src : Nat
  frags : Nat
  parts : List (Nat × List Byte) := []
  /-- sent to the broadcast address -/
  bcast : Bool := false
  at_ : Nat := 0
  deriving DecidableEq, Repr

/-- A complete management message and its sender. -/
structure MgmtMsg where
  src : Nat
  mtag : Nat
  bcast : Bool
  bytes : List Byte
  deriving DecidableEq, Repr

/-- A mailbox (MOD_ISL_MBX_*). -/
structure Mailbox where
  vector : Nat := 0
  port : Nat := 0
  irq : Bool := false
  busy : Bool := false
  done : Bool := false
  sendErr : Bool := false
  inBuf : Mem := []
  outBuf : Mem := []
  deriving DecidableEq, Repr

/-- One island. -/
structure Island where
  vote : Vote := .triple
  /-- 0 none, 1 B, 2 C, 3 A -/
  retired : Nat := 0
  peerLost : Bool := false
  /-- nominal time of the peer's last heartbeat read -/
  peerBeat : Nat := 0
  transient : Nat := 0
  tests : Nat := 0
  /-- minority core of the mismatch whose test is due (0 A, 1 B, 2 C), and its time -/
  due : Option (Nat × Nat) := none
  /-- a core test runs -/
  testing : Bool := false
  unexplained : Nat := 0
  mbx : Mailbox := {}
  mrt : Option (List Byte) := none
  mrtAged : Bool := false
  mrtRejected : Nat := 0
  deferred : Nat := 0
  withdrawn : Nat := 0
  asm : Option MgmtAsm := none
  msg : Option MgmtMsg := none
  deriving DecidableEq, Repr

/-- A frame of a check being judged (R328). -/
structure ChkFrame where
  /-- tokens by sub-port -/
  toks : List (Nat × List Byte) := []
  tags : List Tag := []
  /-- global quad of the producing glove, 0xFFFF unknown -/
  quad : Nat := 0xFFFF
  /-- arrival stamp of the first token; nominal time of the last token's arrival -/
  firstStamp : Nat := 0
  lastAt : Nat := 0
  number : Nat := 0
  /-- parameters in force when the first token arrived: SAMPLES, VERDICT_US, P0 to P3 -/
  samples : Nat := 0
  verdictUs : Nat := 0
  p : List Nat := []
  /-- SPOT: recompute done, with the disagreements (producing quad, recomputing quad) -/
  spot : Option (List (Nat × Nat)) := none
  /-- cannot be judged (R330, R343) -/
  unchecked : Bool := false
  deriving DecidableEq, Repr

/-- One entry of a check's window: FAIL, and the quads charged. -/
structure ChkEntry where
  fail : Bool
  charges : List (Nat × Nat) := []
  deriving DecidableEq, Repr

/-- One check (CHECK stitch and CHK_* registers). -/
structure Check where
  declared : Bool := false
  id : Nat := 0
  kind : Nat := 0
  hold : Bool := false
  owner : Nat := 0
  secure : Bool := false
  k : Nat := 3
  n : Nat := 16
  op : Nat := 0
  tensor : Nat := 0
  samples : Nat := 0
  verdictUs : Nat := 0
  p : List Nat := []
  frames : List ChkFrame := []
  nextFrame : Nat := 0
  /-- previous judged tensor and the arrival stamp of its frame, for RATE -/
  prev : Option (List Byte × Nat) := none
  /-- newest first -/
  window : List ChkEntry := []
  raised : Bool := false
  partial_ : Nat := 0
  unchecked : Nat := 0
  judged : Nat := 0
  failed : Nat := 0
  lastQuad : Nat := 0x1FF
  lastRquad : Nat := 0x1FF
  /-- rotation of the recompute stack -/
  rot : Nat := 0
  deriving DecidableEq, Repr

/-- The watch of one stream (R336). -/
structure Watch where
  declared : Bool := false
  k : Nat := 0
  n : Nat := 0
  /-- misses of the last tickets that had deadlines, newest first -/
  win : List Bool := []
  deriving DecidableEq, Repr

/-- A reserved window (R338): gloves by the operator, period, phase, width. -/
structure Reserve where
  id : Nat
  op : Nat
  periodUs : Nat
  phaseNs : Nat
  windowUs : Nat
  deriving DecidableEq, Repr

/-- Both islands and what they share. -/
structure IslandState where
  a : Island := {}
  b : Island := {}
  checks : Tbl Check := []
  watch : Tbl Watch := []
  reserves : List Reserve := []
  mrtMaxAgeUs : Option Nat := none
  /-- quad withdrawals requested: quad and nominal time of the request -/
  withdrawReq : List (Nat × Nat) := []
  /-- quads withdrawn for testing, each with the nominal time of its withdrawal -/
  withdrawnQuads : List (Nat × Nat) := []
  deriving DecidableEq, Repr

end Sys2Proof.Machine
end

