-- ==== Sys2Proof/Machine/Blocks/Ledger.lean ====
section
/-!
DEFINITION. State of the ledger: streams, intake windows and queues, tickets with their journal entries, rings
(Tickets, receipts, outcomes and the ledger, R190 to R220).
-/

namespace Sys2Proof.Machine

/-- A descriptor of a ticket (R196). -/
structure Desc where
  addr : Nat
  len : Nat
  sub : Nat
  space : Nat
  deriving DecidableEq, Repr

/-- A stream edge: its sub-port, the edge it names and the packed size of its tensor (R192). -/
structure StreamEdge where
  sub : Nat
  edge : Nat
  size : Nat
  deriving DecidableEq, Repr

/-- One ticket stream (STRM_* registers, the STREAM stitch of R190, the duplicate window of R198). -/
structure Strm where
  /-- declared by the pattern in force -/
  declared : Bool := false
  /-- disabled under R106 or by a failed load -/
  disabled : Bool := false
  pipelined : Bool := false
  home : Nat := 0
  secure : Bool := false
  voidFollow : Bool := false
  allowHost : Bool := false
  cfgBusy : Bool := false
  limitRej : Bool := false
  consErr : Bool := false
  limit : Nat := 0
  budgetUs : Nat := 0
  outstanding : Nat := 0
  nextSeq : Nat := 1
  watermark : Nat := 0
  outBase : Nat := 0
  sizeLog2 : Nat := 4
  vector : Nat := 0
  port : Nat := 0
  coalCnt : Nat := 0
  coalUs : Nat := 0
  prod : Nat := 0
  cons : Nat := 0
  rejects : Nat := 0
  voids : Nat := 0
  late : Nat := 0
  suspect : Nat := 0
  /-- outcomes written and not yet signalled, and the nominal time of the first of them -/
  unsig : Nat := 0
  unsigAt : Nat := 0
  /-- VOID bits: voided sequence numbers of the duplicate window whose outcome has been written -/
  voidSeqs : List Nat := []
  /-- REISSUED bits: sequence numbers an accepted ticket has named -/
  reissued : List Nat := []
  edges : List StreamEdge := []
  deriving DecidableEq, Repr

/-- State of a journal entry (R202). -/
inductive TicketPhase where
  | accepted | running | ended | delivered
  deriving DecidableEq, Repr

/-- An accepted ticket with its journal entry. -/
structure Ticket where
  stream : Nat
  seq : Nat
  hostTag : Nat := 0
  /-- the voided ticket this one replaces, 0 for none -/
  reissueOf : Nat := 0
  /-- full stamp of the verdict -/
  accept : Nat := 0
  phase : TicketPhase := .accepted
  rcptPending : Bool := true
  /-- the entry is in the journal of IOD0, of IOD1 -/
  inJ0 : Bool := false
  inJ1 : Bool := false
  /-- short stamp of the landing, for the receipt -/
  landing : Nat := 0
  deadline : Option Nat := none
  dropLate : Bool := false
  descs : List Desc := []
  /-- input sub-ports injected so far -/
  injected : List Nat := []
  /-- output sub-ports delivered so far -/
  outputs : List Nat := []
  injectAt : Option Nat := none
  endStamp : Nat := 0
  /-- 0 DONE, 1 SUSPECT, 2 VOID, 3 FAILED -/
  status : Nat := 0
  lateFlag : Bool := false
  degraded : Bool := false
  stale : Bool := false
  cause : Nat := 0
  part : Nat := 0xFF
  quad : Nat := 0xFFFF
  detail : Nat := 0
  numSat : Nat := 0
  numNan : Nat := 0
  /-- a saturation-fatal or solver failure of a firing that carried the tag: cause and operator ID -/
  failed : Option (Nat × Nat) := none
  /-- CHECK stitch ID of a check that marked the ticket SUSPECT -/
  suspectBy : Option Nat := none
  /-- counted as a miss by a deadline watch (R336) -/
  missed : Bool := false
  /-- steps (Δ) applied since the injection, for R306 -/
  stepSum : Int := 0
  /-- submitted sealed through the mailbox (secure stream) -/
  sealed_ : Bool := false
  deriving DecidableEq, Repr

/-- A captured landing awaiting its verdict (R193). -/
structure Landing where
  window : Nat
  slot : Nat
  die : Nat
  bytes : List Byte
  /-- short stamp of the landing -/
  stamp : Nat
  deriving DecidableEq, Repr

/-- One slot of an intake window: the bytes written, and which of bytes 120 to 127 were written since the landing. -/
structure Slot where
  bytes : List Byte := []
  tail : List Nat := []
  deriving DecidableEq, Repr

/-- An outcome held for a secure stream, which MBX OUTCOME_GET returns (64 bytes each). -/
abbrev SecureOutcome := List Byte

/-- The LEDGER block. -/
structure LedgerState where
  up0 : Bool := true
  up1 : Bool := true
  mirrorOk : Bool := true
  rcptBase : Nat := 0
  rcptVector : Nat := 0
  irqRej : Bool := false
  rcptPort : Nat := 0
  rcptEnable : Bool := false
  rcptWr : Nat := 0
  /-- stopped by a load (R99), by RETAIN entry (R391) or by QUIESCE (R456) -/
  stopLoad : Bool := false
  stopRetain : Bool := false
  stopQuiesce : Bool := false
  /-- COOL_HOLD rejects landings (R402) -/
  stopCool : Bool := false
  strm : Tbl Strm := []
  /-- intake slots, window × 512 + slot -/
  slots : Tbl Slot := []
  /-- depth of an intake queue, an implementation figure the spec does not give (assumption 9) -/
  intakeDepth : Nat := 64
  /-- BAR4 writes held back by withheld posted credits, oldest first: port, offset, bytes -/
  heldWrites : List (Nat × Nat × List Byte) := []
  /-- landings in the order in which they reach the home ledgers -/
  intake : List Landing := []
  /-- accepted tickets not yet FREE, in order of acceptance -/
  tickets : List Ticket := []
  /-- outcomes of secure streams delivered and not yet fetched: stream and the 64 bytes -/
  secureOut : List (Nat × SecureOutcome) := []
  /-- nominal time at which the last ticket ended -/
  lastEnd : Option Nat := none
  deriving DecidableEq, Repr

end Sys2Proof.Machine
end

