-- ==== Sys2Proof/Machine/Blocks/Loop.lean ====
section
/-!
DEFINITION. State of the two loop engines and their sixteen slots, and of the gate control lists of the Ethernet ports
(Loop engine, R280 to R297). Values named FP32 are kept as their 32-bit encodings.
-/

namespace Sys2Proof.Machine

/-- LOOP_STATE.STATE -/
inductive LoopSt where
  | stopped | manual | auto | safeOut
  deriving DecidableEq, Repr

/-- A feedback channel: its CHANNEL stitch, its newest value and its profile generator. -/
structure LoopChan where
  edgeSrc : Bool := false
  fmt : Nat := 0
  big : Bool := false
  /-- SENSOR stitch ID -/
  stream : Nat := 0
  offset : Nat := 0
  scale : Nat := 0
  bias : Nat := 0
  maxAgeUs : Nat := 0
  vmax : Nat := 0
  amax : Nat := 0
  jmax : Nat := 0
  profTc : Nat := 0
  resBound : Nat := 0
  /-- newest value, FP32, and its stamp; none before the first -/
  value : Nat := 0
  at_ : Option Nat := none
  /-- steps (Δ) since that stamp, for R306 -/
  stepSum : Int := 0
  /-- profile generator: r, v, a -/
  r : Nat := 0
  v : Nat := 0
  a : Nat := 0
  /-- last y used (LOOP_FB) -/
  y : Nat := 0
  deriving DecidableEq, Repr

/-- An output: its OUTPUT stitch, its last value and its manual value. -/
structure LoopOut where
  ofmt : Nat := 0
  big : Bool := false
  safeMode : Nat := 0
  offset : Nat := 0
  umin : Nat := 0
  umax : Nat := 0
  urate : Nat := 0
  safeValue : Nat := 0
  oscale : Nat := 0
  /-- last output (LOOP_OUT) -/
  u : Nat := 0
  /-- manual value (LOOP_MAN) -/
  man : Nat := 0
  deriving DecidableEq, Repr

/-- One loop slot. -/
structure LoopSlot where
  declared : Bool := false
  /-- SLOT stitch ID -/
  id : Nat := 0
  secure : Bool := false
  law : Nat := 0
  /-- SAMPLE trigger -/
  sample : Bool := false
  spTrack : Bool := false
  resHold : Bool := false
  periodUs : Nat := 0
  phaseNs : Nat := 0
  m : Nat := 0
  p : Nat := 0
  n : Nat := 0
  q : Nat := 0
  outer : Nat := 0xFF
  divider : Nat := 0
  port : Nat := 0
  tc : Nat := 0
  spDtUs : Nat := 0
  /-- SP_STALE_US in force -/
  spStaleUs : Nat := 0
  resK : Nat := 0
  resN : Nat := 0
  fbLossN : Nat := 0
  kp : Nat := 0
  ki : Nat := 0
  kd : Nat := 0
  tfY : Nat := 0
  tdF : Nat := 0
  bW : Nat := 0
  cW : Nat := 0
  /-- matrices by WHICH, row-major FP32 -/
  mats : Tbl (List Nat) := []
  chans : List LoopChan := []
  outs : List LoopOut := []
  /-- FRAME: CTR_OFF, STAMP_OFF, STAT_OFF; the template -/
  frame : Option (Nat × Nat × Nat) := none
  template : List Byte := []
  st : LoopSt := .stopped
  /-- request waiting for the next evaluation: 1 MANUAL, 2 AUTO, 3 STOP; 0 none -/
  req : Nat := 0
  refused : Bool := false
  cfgBusy : Bool := false
  track : Bool := false
  spStale : Bool := false
  fbStale : Bool := false
  implausible : Bool := false
  /-- the residual window: newest evaluation first -/
  resWin : List Bool := []
  /-- the residual source has been raised for the window's present excess -/
  resRaised : Bool := false
  fbRun : Nat := 0
  /-- law states: PID integrator, derivative, filtered feedback, previous r and yf; state-space x and w; model xm -/
  iState : Nat := 0
  dState : Nat := 0
  yf : Nat := 0
  rPrev : Nat := 0
  yfPrev : Nat := 0
  x : List Nat := []
  w : List Nat := []
  xm : List Nat := []
  /-- set-point sequence in force: arrival stamp and points, each the m values -/
  seq : Option (Nat × List (List Nat)) := none
  /-- nominal time of the last set-point token, or of LOADED -/
  spAt : Nat := 0
  /-- trigger stamp of an evaluation that waits -/
  waiting : Option Nat := none
  /-- grid stamp or stamp of the last trigger, and its nominal time -/
  lastTrig : Option Nat := none
  trigAt : Nat := 0
  /-- steps (Δ) since the last trigger, for R306 -/
  stepSum : Int := 0
  /-- nominal time of the last safe frame -/
  safeAt : Nat := 0
  /-- LOOP_TRIG -/
  trigStamp : Nat := 0
  latLast : Nat := 0
  latMax : Nat := 0
  cImpl : Nat := 0
  cFb : Nat := 0
  early : Nat := 0
  replaced : Nat := 0
  dropped : Nat := 0
  /-- frame counter of the next frame -/
  ctr : Nat := 0
  deriving DecidableEq, Repr

/-- One entry of a gate control list: open classes, interval in ns. -/
structure GateEntry where
  gates : Nat := 0xFF
  ns : Nat := 0
  deriving DecidableEq, Repr

/-- Gate control of one Ethernet port (R291): the operational and the administrative list; the entry in force and the
nominal time at which it took effect. Without an operational list every gate is open. -/
structure GateCtl where
  oper : List GateEntry := []
  operBase : Nat := 0
  operCycle : Nat := 0
  admin : List GateEntry := []
  adminBase : Nat := 0
  adminCycle : Nat := 0
  idx : Nat := 0
  at_ : Nat := 0
  deriving DecidableEq, Repr

/-- Both engines. -/
structure LoopState where
  slots : Tbl LoopSlot := []
  /-- evaluations since LOADED per engine -/
  evals0 : Nat := 0
  evals1 : Nat := 0
  gates : Tbl GateCtl := []
  deriving DecidableEq, Repr

end Sys2Proof.Machine
end

