-- ==== Sys2Proof/Machine/Blocks/Pattern.lean ====
section
/-!
DEFINITION. State of the pattern loader, the placement in force, alternates, patches and seam engines
(Pattern images, seams and the fitter, R82 to R117, R473 to R475).
-/

namespace Sys2Proof.Machine

/-- A stitch of an image section (R85): section kind, stitch kind, ID and all its bytes, header included. -/
structure Stitch where
  sec : Nat
  kind : Nat
  id : Nat
  bytes : List Byte
  deriving DecidableEq, Repr

/-- An image taken apart into header fields and stitches (R82 to R84). -/
structure Image where
  portableVer : Nat := 1
  flags : Nat := 0
  totalLen : Nat := 0
  patternId : Nat := 0
  generation : Nat := 0
  baseGen : Nat := 0
  secVersion : Nat := 0
  targetMember : Nat := 0
  steppingMask : Nat := 0
  /-- section table entries: kind, layer, offset, length, stitch count -/
  secs : List (Nat × Nat × Nat × Nat × Nat) := []
  stitches : List Stitch := []
  deriving DecidableEq, Repr

/-- PATTERN_STATUS.STATE -/
inductive PatSt where
  | empty | verifying | fitting | loading | loaded | patchArmed | refitting | failed
  deriving DecidableEq, Repr

/-- An alternate of the placement (R95): lost part and the complete FIT stitches that replace the primary's. -/
structure Alternate where
  /-- 1 quad, 2 stack -/
  loss : Nat
  index : Nat
  fit : List Stitch
  deriving DecidableEq, Repr

/-- A full load or a patch in progress (R100, R116). -/
structure LoadJob where
  patch : Bool := false
  /-- nominal time and stamp of GO -/
  goAt : Nat := 0
  raw : List Byte := []
  image : Image := {}
  /-- 0 verifying, 1 fitting, 2 loading, 3 staged (patch), 4 taking its seam -/
  stage : Nat := 0
  fit : List Stitch := []
  primary : List Stitch := []
  alts : List Alternate := []
  source : Nat := 0
  altKind : Nat := 0
  altIndex : Nat := 0
  /-- digest checks of EXTERNAL contents -/
  loadStamp : Nat := 0
  forcePortable : Bool := false
  stackAlts : Bool := false
  /-- seam groups a patch touches -/
  groups : List Nat := []
  /-- nominal time at which the patch's seam began -/
  takingAt : Nat := 0
  /-- part of the boot chain -/
  boot : Bool := false
  deriving DecidableEq, Repr

/-- A seam engine (SEAM_* registers of engine e), R110 to R113. -/
structure SeamEngine where
  stamp : Nat := 0
  /-- 0 IDLE, 1 ARMED, 2 TAKING, 3 DONE, 4 REFUSED, 5 CANCELLED -/
  st : Nat := 0
  writeArmed : Bool := false
  code : Nat := 0
  withdrawn : Nat := 0
  done : Nat := 0
  limitUs : Nat := 1000
  /-- SEAM_SEL entries: index to (group, valid) -/
  sel : Tbl (Nat × Bool) := []
  /-- groups of the armed engine -/
  groups : List Nat := []
  /-- groups still to take their block seam -/
  left : List Nat := []
  takingAt : Nat := 0
  deriving DecidableEq, Repr

/-- The PATTERN block. -/
structure PatternState where
  addr : Nat := 0
  len : Nat := 0
  mode : Nat := 0
  src : Bool := false
  flashEntry : Nat := 0
  forcePortable : Bool := false
  stackAltsReq : Bool := false
  loadStamp : Nat := 0
  limitUs : Nat := 1000
  withdrawn : Nat := 0
  st : PatSt := .empty
  cfgBusy : Bool := false
  altReady : Bool := false
  shadowLost : Bool := false
  code : Nat := 0
  source : Nat := 0
  stackAlts : Bool := false
  detailSec : Nat := 0
  detailKind : Nat := 0
  detailId : Nat := 0
  patternId : Nat := 0
  gen : Nat := 0
  altKind : Nat := 0
  altIndex : Nat := 0
  switches : Nat := 0
  fitUs : Nat := 0
  /-- the pattern in force, with its patches applied -/
  image : Option Image := none
  /-- the FIT stitches in force -/
  fit : List Stitch := []
  /-- the primary placement -/
  primary : List Stitch := []
  alts : List Alternate := []
  job : Option LoadJob := none
  /-- a device re-fit in progress: nominal time of the isolation -/
  refitAt : Option Nat := none
  /-- an I/O die has been isolated since the last entry to BOOT (R357) -/
  dieLost : Bool := false
  /-- loaded image data: master copies of constants and initial contents, by tensor ID (R98) -/
  masters : List (Nat × List Byte) := []
  /-- PATTERN_AUTH in force: PATTERN_ID, GENERATION and nominal expiry per R342 -/
  auth : Option (Nat × Nat × Nat) := none
  e0 : SeamEngine := {}
  e1 : SeamEngine := {}
  e2 : SeamEngine := {}
  e3 : SeamEngine := {}
  /-- pending RWS values by 8 × seam group + field (R109) -/
  shadow : Tbl (Option Nat) := []
  /-- the quad alternate in force was installed for a self-test withdrawal (R338, R390) -/
  testAlt : Bool := false
  /-- nominal time at which a TAKING seam last ended -/
  seamEnd : Nat := 0
  /-- the global seam of a self-test withdrawal (false) or return (true): quad, groups, and when it began (R338) -/
  testSeam : Option (Nat × Bool × List Nat × Nat) := none
  deriving DecidableEq, Repr

end Sys2Proof.Machine
end

