-- ==== Sys2Proof/Machine/Blocks/Plan.lean ====
section
/-!
DEFINITION. State of the planner: map versions of both dies, updates, requests and slices (Planner, R258 to R279).
-/

namespace Sys2Proof.Machine

/-- What a map version was built from, newest first: the records of R262 and the layer shift of a CURRENT update. -/
inductive MapRec where
  | fill (tLo tHi codes x0 y0 x1 y1 : Nat)
  | brick (tl bx bY : Nat) (columns : List Nat)
  | copy (tLo tHi srcT x0 y0 x1 y1 : Nat)
  | shift (n : Nat)
  /-- the block of a brick is poisoned (R278) -/
  | poison (tl bx bY : Nat)
  deriving DecidableEq, Repr

/-- A map version: its header and the records that make its content; an empty record list is the map with every voxel
UNKNOWN. -/
structure MapVer where
  epoch : Nat := 0
  t0 : Nat := 0
  originX : Int := -1024
  originY : Int := -1024
  recs : List MapRec := []
  deriving DecidableEq, Repr

/-- A planner slice. -/
structure PlanSlice where
  tests : Nat := 0
  drops : Nat := 0
  deriving DecidableEq, Repr

/-- The planner of one die. -/
structure PlanDie where
  cur : MapVer := {}
  /-- the other live epoch -/
  old : Option MapVer := none
  /-- a finished build that waits for its commit -/
  built : Option MapVer := none
  /-- its commit has been held and counted -/
  held : Bool := false
  /-- map updates not yet built, oldest first: their edge, bytes and the tickets they serve -/
  updates : List (Nat × List Byte × List Tag) := []
  used : Nat := 0
  refused : Nat := 0
  overflow : Nat := 0
  commits : Nat := 0
  deferred : Nat := 0
  done : Nat := 0
  stale : Nat := 0
  noPath : Nat := 0
  timeout : Nat := 0
  cfgBusy : Bool := false
  slices : Tbl PlanSlice := []
  deriving DecidableEq, Repr

/-- The values a request binds at its start. -/
structure PlanCfg where
  outside : Nat := 1
  cost : Bool := false
  recheck : Bool := false
  search : Nat := 1
  chain : Nat := 1
  deriving DecidableEq, Repr

/-- A listed candidate: number, score or COST (FP32), UNKNOWN tests, FIRST_HIT, poses (X, Y, YAW, T). -/
structure PlanCand where
  cand : Nat
  score : Nat
  unknown : Nat
  firstHit : Nat
  poses : List (List Nat)
  deriving DecidableEq, Repr

/-- A fixed result (R274). -/
structure PlanResult where
  endStamp : Nat := 0
  epoch : Nat := 0
  epochNow : Nat := 0
  status : Nat := 0
  flags : Nat := 0
  found : Nat := 0
  checked : Nat := 0
  collided : Nat := 0
  tests : Nat := 0
  invalid : Nat := 0
  reason : Nat := 0
  list : List PlanCand := []
  deriving DecidableEq, Repr

/-- A request from its arrival to its result (R266, R267). -/
structure PlanReq where
  chan : Nat
  edge : Nat
  bytes : List Byte
  tags : List Tag := []
  arrival : Nat
  /-- parameters bound at the start; none before -/
  cfg : Option PlanCfg := none
  /-- the pinned version -/
  pin : MapVer := {}
  deadline : Nat := 0
  /-- slices held: die × 8 + slice -/
  slices : List Nat := []
  /-- a slice or memory it used was lost -/
  degraded : Bool := false
  result : Option PlanResult := none
  deriving DecidableEq, Repr

/-- Both planners and the requests. -/
structure PlanState where
  enabled : Bool := false
  secure : Bool := false
  d0 : PlanDie := {}
  d1 : PlanDie := {}
  cfg : PlanCfg := {}
  budgetUs : Nat := 0
  reqs : List PlanReq := []
  deriving DecidableEq, Repr

end Sys2Proof.Machine
end

