-- ==== Sys2Proof/Machine/Blocks/Scene.lean ====
section
/-!
DEFINITION. State of the scene memories (Attention, scene memory and spilling, R159 to R168).
-/

namespace Sys2Proof.Machine

/-- Entry states of a page table (R162). -/
inductive PageSt where
  | free | valid | lost
  deriving DecidableEq, Repr

/-- A page-table entry (R162) with the page's contents. -/
structure ScenePage where
  seq : Nat := 0
  st : PageSt := .free
  tier : Nat := 0
  place : Nat := 0
  addr : Nat := 0
  /-- FP32 score -/
  score : Nat := 0
  stamp : Nat := 0
  reads : Nat := 0
  /-- the keys and values, token by token -/
  data : List Byte := []
  deriving DecidableEq, Repr

/-- A prefetch copy of a reader: the reader's operator, the page number, and whether the copy is complete (R167). -/
structure Prefetch where
  reader : Nat
  seq : Nat
  ready : Bool
  deriving DecidableEq, Repr

/-- One scene memory with the parameters of its MEM_APPEND operator. -/
structure SceneMem where
  declared : Bool := false
  tensor : Nat := 0
  writer : Nat := 0
  scorer : Nat := 0
  readers : List Nat := []
  secure : Bool := false
  pageLog2 : Nat := 0
  lookahead : Nat := 0
  /-- windows that the placement reserved at load (R163, R169) -/
  reserved : Nat := 0
  protect : Nat := 0
  quota : List Nat := [0, 0, 0, 0]
  decay : Nat := 0
  init : Nat := 0
  /-- LOOKAHEAD, DECAY and INIT_SCORE of a patch, taken at the append operator's next firing (R168) -/
  nextPar : Option (Nat × Nat × Nat) := none
  /-- device address of the page-table buffer -/
  tableAt : Nat := 0
  /-- the committed page table -/
  pages : List ScenePage := []
  nextSeq : Nat := 0
  /-- pages still to copy and copies made, per reader -/
  prefetch : List Prefetch := []
  /-- pages a reader's firing in progress has taken from its windows: reader and PAGE_SEQ -/
  taken : List (Nat × Nat) := []
  evict : Nat := 0
  pfStall : Nat := 0
  clears : Nat := 0
  deriving DecidableEq, Repr

end Sys2Proof.Machine
end

