-- ==== Sys2Proof/Machine/Blocks/Security.lean ====
section
/-!
DEFINITION. State of the boot chain, the key stores, the flashes, the region guards and the identity
(Worlds, secure boot, identity and start-up, R415 to R442; R399 calibration region).
-/

namespace Sys2Proof.Machine

/-- A key slot (R424, R431). -/
structure KeySlot where
  /-- the public key; empty = EMPTY slot -/
  key : List Byte := []
  /-- [0] PATTERN, [1] WORLD, [2] SEALED, [3] CALIBRATION, [4] OWNER, [5] FIRMWARE -/
  kinds : Nat := 0
  ceiling : Nat := 0
  deriving DecidableEq, Repr

/-- One key store (R423 to R426). -/
structure KeyStore where
  slots : Tbl KeySlot := []
  gen : Nat := 0
  revoked : List (List Byte) := []
  patFloor : Nat := 0
  fwFloor : Nat := 0
  /-- the store passes its digest -/
  ok : Bool := true
  deriving DecidableEq, Repr

/-- A pattern store entry (R438). -/
structure StoreSlot where
  valid : Bool := false
  patternId : Nat := 0
  generation : Nat := 0
  raw : List Byte := []
  deriving DecidableEq, Repr

/-- One flash (R19, R434, R438). -/
structure Flash where
  /-- the flash can be read -/
  ok : Bool := true
  fw0 : List Byte := []
  fw1 : List Byte := []
  store : Tbl StoreSlot := []
  /-- the first 64 KiB of the calibration region (FLASH_A) -/
  cal : List Byte := []
  /-- the life log at the end of the calibration region: operating hours, equivalent hours (FLASH_A) -/
  lifeLog : Nat × Nat := (0, 0)
  deriving DecidableEq, Repr

/-- A FIRMWARE or STORE command whose flash write is in progress (R437, R438). -/
structure FlashJob where
  island : Nat
  /-- envelope bytes, request digest, counter and sender for the response -/
  env : List Byte
  reqDigest : List Byte
  counter : Nat
  src : Nat
  mtag : Nat
  /-- FIRMWARE: slot to write; STORE: entry -/
  firmware : Bool
  index : Nat
  raw : List Byte
  deriving DecidableEq, Repr

/-- A DDR guard (R420). -/
structure DdrGuard where
  base : Nat
  size : Nat
  secure : Bool
  host : Nat
  deriving DecidableEq, Repr

/-- A lining guard: stack, offset and size in 64 KiB units. -/
structure LinGuard where
  stack : Nat
  base : Nat
  size : Nat
  deriving DecidableEq, Repr

/-- Boot chain, keys, flashes, guards. -/
structure SecState where
  /-- MOD_BOOT -/
  stage : Nat := 0
  code : Nat := 0
  stopped : Bool := false
  fwSlot : Nat := 0
  repaired : Bool := false
  boots : Nat := 0
  /-- MOD_BOOT_TIME -/
  bootUs : Nat := 0
  /-- nominal time of PGOOD or of the restart -/
  pgoodAt : Nat := 0
  storeA : KeyStore := {}
  storeB : KeyStore := {}
  /-- OWNER_SET, one-time programmable -/
  ownerSet : Bool := false
  /-- accepted counters per slot -/
  counters : Tbl Nat := []
  /-- the identity seed, one-time programmable (R432) -/
  seed : List Byte := []
  /-- the identity record (R432) -/
  identity : List Byte := []
  flashA : Flash := {}
  flashB : Flash := {}
  job : Option FlashJob := none
  /-- running firmware: VERSION, SEC_VERSION, BODY_DIGEST -/
  fwVersion : Nat := 0
  fwSec : Nat := 0
  fwDigest : List Byte := []
  /-- BOOT_OPTIONS in force -/
  bootEntry : Nat := 0
  bootLoad : Bool := false
  /-- image-scope DIGEST of the last full image and of the last patch -/
  patDigest : List Byte := []
  patchDigest : List Byte := []
  ddrGuards : List DdrGuard := []
  linGuards : List LinGuard := []
  violHost : Nat := 0
  violInt : Nat := 0
  lastAddr : Nat := 0
  lastSrc : Nat := 0
  lastWrite : Bool := false
  lastPort : Nat := 0
  deriving DecidableEq, Repr

end Sys2Proof.Machine
end

