-- ==== Sys2Proof/Machine/Blocks/Sense.lean ====
section
/-!
DEFINITION. State of the sensor intake and the fusion engines (Sensor intake, alignment and fusion, R221 to R257).
-/

namespace Sys2Proof.Machine

/-- A sample in its ring entry (R228). -/
structure Sample where
  seq : Nat := 0
  arrival : Nat := 0
  meas : Nat := 0
  complete : Bool := false
  compStamp : Nat := 0
  count : Nat := 0
  data : List Byte := []
  points : List Byte := []
  intensity : List Byte := []
  /-- columns of the point tensor read -/
  nPoints : Nat := 0
  /-- steps (Δ) of its port's timebase since its arrival, for R306 -/
  stepSum : Int := 0
  deriving DecidableEq, Repr

/-- A sensor stream: its SENSOR stitch, its ring and its registers. -/
structure SensStream where
  declared : Bool := false
  /-- SENSOR stitch ID -/
  id : Nat := 0
  secure : Bool := false
  eth : Bool := false
  port : Nat := 0
  vc : Nat := 0
  dt : Nat := 0
  pixFmt : Nat := 0
  pointsOn : Bool := false
  intensityOn : Bool := false
  width : Nat := 0
  height : Nat := 0
  /-- OFFSET_NS in force -/
  offsetNs : Nat := 0
  periodUs : Nat := 0
  ring : Nat := 2
  /-- PLACE: false DDR4, true fusion buffer -/
  inBuffer : Bool := false
  vid : Nat := 0
  tagged : Bool := false
  match_ : Nat := 0
  matchVal : Nat := 0
  ptStride : Nat := 0
  ptFmt : Nat := 0
  xOff : Nat := 0
  yOff : Nat := 0
  zOff : Nat := 0
  iOff : Nat := 0xFF
  tOff : Nat := 0xFF
  skip : Nat := 0
  pointsMax : Nat := 0
  ptScale : Nat := 0
  /-- SAMPLE_SEQ of the last sample -/
  last : Nat := 0
  /-- samples in the ring, oldest first -/
  entries : List Sample := []
  /-- a CSI frame is being received; it has no ring entry, or an error has been found in it -/
  inFrame : Bool := false
  noEntry : Bool := false
  bad : Bool := false
  stall : Bool := false
  count : Nat := 0
  err : Nat := 0
  drop : Nat := 0
  /-- nominal time of the last complete sample, or of LOADED -/
  compAt : Nat := 0
  deriving DecidableEq, Repr

/-- A CSI port (CSI_CTRL, CSI_ERR). -/
structure CsiPort where
  lanes : Nat := 2
  deskew : Bool := true
  cfgBusy : Bool := false
  link : Bool := false
  eccCorr : Nat := 0
  unmatched : Nat := 0
  /-- nominal time of the last packet -/
  seenAt : Nat := 0
  deriving DecidableEq, Repr

/-- State of a member in a slot (R236, R237). -/
inductive MemSt where
  | undecided | used | missed | quiet | usedMissed | blocked
  deriving DecidableEq, Repr

/-- A member of a group: its MEMBER stitch and its registers. -/
structure Member where
  index : Nat := 0
  /-- stream number -/
  stream : Nat := 0
  all : Bool := false
  project : Bool := false
  before : Nat := 0
  after : Nat := 0
  weight : Nat := 0
  /-- confidence, FP32 -/
  conf : Nat := 0x3F800000
  late : Nat := 0
  missed : Nat := 0
  blocked : Bool := false
  /-- the port is isolated, or lay on a lost die -/
  portLost : Bool := false
  deriving DecidableEq, Repr

/-- A member as a slot binds it, with what the slot chose. -/
structure SlotMember where
  index : Nat
  stream : Nat
  all : Bool
  project : Bool
  before : Nat
  after : Nat
  weight : Nat
  offsetNs : Nat
  st : MemSt := .undecided
  /-- SAMPLE_SEQs used, ascending -/
  seqs : List Nat := []
  deriving DecidableEq, Repr

/-- A fusion slot. -/
structure FuseSlot where
  fseq : Nat
  tov : Nat
  waitUs : Nat
  /-- PEN_MISS and RECOVER as bound at the opening (R234) -/
  penMiss : Nat := 0
  recover : Nat := 0
  members : List SlotMember
  /-- content fixed: EMITTING -/
  emitting : Bool := false
  forced : Bool := false
  decided : Nat := 0
  /-- steps (Δ) of the home die's timebase since T_k, for R306 -/
  stepSum : Int := 0
  projDone : Bool := false
  /-- the FRAME record, fixed at the decision -/
  frame : List Byte := []
  /-- the depth channels, built from the decision's window points, in CAMERA rank (R245) -/
  depth : List (List Byte) := []
  degraded : Bool := false
  deriving DecidableEq, Repr

/-- A track (R250), its numbers as FP32 encodings. -/
structure Track where
  id : Nat := 0
  /-- 0 FREE, 1 TENTATIVE, 2 CONFIRMED -/
  st : Nat := 0
  conflict : Bool := false
  degraded : Bool := false
  cls : Nat := 0
  hits : Nat := 0
  misses : Nat := 0
  /-- X, Y, VX, VY -/
  x : List Nat := []
  /-- upper triangle of P, row by row -/
  p : List Nat := []
  tov : Nat := 0
  members : Nat := 0
  len : Nat := 0
  wid : Nat := 0
  fseq : Nat := 0
  deriving DecidableEq, Repr

/-- A fusion group. -/
structure FuseGroup where
  declared : Bool := false
  id : Nat := 0
  secure : Bool := false
  home : Nat := 0
  slots : Nat := 0
  retro : Bool := false
  raw : Bool := false
  object : Bool := false
  periodUs : Nat := 0
  phaseNs : Nat := 0
  waitUs : Nat := 0
  penMiss : Nat := 0
  penConflict : Nat := 0
  recover : Nat := 0
  confMin : Nat := 0
  conflictK : Nat := 0
  conflictN : Nat := 0
  members : List Member := []
  open_ : List FuseSlot := []
  /-- slots whose opening waits for a forced slot to be emitted: FSEQ and time, oldest first -/
  opening : List (Nat × Nat) := []
  /-- slots decided and freed, newest first: FSEQ, time, windows and what was used (for late samples, R255) -/
  past : List FuseSlot := []
  lastFseq : Nat := 0
  /-- grid stamp of the last slot opened or skipped -/
  lastT : Option Nat := none
  forced : Nat := 0
  skipped : Nat := 0
  degraded : Nat := 0
  conflicts : Nat := 0
  tableLost : Bool := false
  full : Nat := 0
  /-- TRACKS stitch: MAX_TRACKS, CONFIRM_M, CONFIRM_N, MISS_MAX, Q_ACC, ASSOC_GATE, CONFLICT_GATE, INIT_VSTD -/
  maxTracks : Nat := 0
  confirmM : Nat := 0
  confirmN : Nat := 0
  missMax : Nat := 0
  qAcc : Nat := 0
  assocGate : Nat := 0
  conflictGate : Nat := 0
  initVstd : Nat := 0
  tracks : List Track := []
  nextTrack : Nat := 1
  /-- FSEQ of the last detection list, 0 none -/
  tableFseq : Nat := 0
  /-- emitted FRAME records, newest first, for the confidences and flags that lists refer to: FSEQ, confidences, degraded -/
  frames : List (Nat × List Nat × Bool) := []
  /-- slot and member pairs already penalized (R252), newest first -/
  penalized : List (Nat × Nat) := []
  /-- emitted slots with the pairs in conflict reported for them, newest first (R254) -/
  history : List (Nat × List (Nat × Nat)) := []
  /-- persistent pairs as last judged -/
  persistent : List (Nat × Nat) := []
  deriving DecidableEq, Repr

/-- The event ring of one die (FUSE_EVT_*). -/
structure EvtRing where
  base : Nat := 0
  vector : Nat := 0
  port : Nat := 0
  enable : Bool := false
  irq : Bool := false
  wr : Nat := 0
  deriving DecidableEq, Repr

/-- Streams, ports, groups, event rings and projection units. -/
structure SenseState where
  streams : Tbl SensStream := []
  csi : Tbl CsiPort := []
  groups : Tbl FuseGroup := []
  evt0 : EvtRing := {}
  evt1 : EvtRing := {}
  /-- projection units out of service: die × 4 + unit -/
  unitsOut : List Nat := []
  deriving DecidableEq, Repr

end Sys2Proof.Machine
end

