-- ==== Sys2Proof/Machine/Blocks/Time.lean ====
section
/-!
DEFINITION. State of the two timebases, the time agent, PPS, the transmit timestamp queues and the event traces
(Timebase, stamps and network time, R298 to R319).
-/

namespace Sys2Proof.Machine

/-- The states of the time agent (R311). -/
inductive AgentState where
  | free | acquiring | locked | holdover | host
  deriving DecidableEq, Repr

/-- Trace registers of one die (TRACE_MASK, TRACE_WR, TRACE_COPY_ADDR, TRACE_COPY_CTRL), R315 and R316. -/
structure TraceUnit where
  /-- TRACE_MASK.CLASSES -/
  mask : Nat := 0xFF
  /-- TRACE_WR.COUNT, free-running over 32 bits -/
  wr : Nat := 0
  /-- TRACE_COPY_ADDR.ADDR -/
  copyAddr : Nat := 0
  /-- TRACE_COPY_CTRL.PORT -/
  copyPort : Nat := 0
  /-- TRACE_COPY_CTRL.BUSY -/
  busy : Bool := false
  /-- the ring has wrapped at least once -/
  full : Bool := false
  /-- events dropped and not yet reported by a kind-0x08 event -/
  dropped : Nat := 0
  deriving DecidableEq, Repr

/-- One entry of a transmit timestamp queue (R314). -/
structure TxStamp where
  id : Nat
  stamp : Nat
  frac : Nat
  coarse : Bool
  deriving DecidableEq, Repr

/-- The TIME block and the clocks behind it. -/
structure TimeState where
  /-- nominal time of the last event, in ns (the model's own clock; both references are taken as nominal) -/
  now : Nat := 0
  /-- IOD0's timebase in units of 2^-48 ns (64-bit count, 48 fraction bits) -/
  tb0 : Nat := 0
  /-- IOD1's timebase in units of 2^-48 ns -/
  tb1 : Nat := 0
  /-- RATE in force, units of 2^-32 (TIME_RATE) -/
  rate : Int := 0
  /-- IOD1's local trim, units of 2^-32, within ±200 ppm (R302) -/
  trim : Int := 0
  skewValid : Bool := false
  /-- TIME_SKEW.NS -/
  skewNs : Int := 0
  /-- TIME_SKEW.FAILS -/
  skewFails : Nat := 0
  /-- consecutive failed alignment exchanges -/
  failRun : Nat := 0
  /-- events are marked SKEWED (R302) -/
  skewed : Bool := false
  /-- TIME_STEP.DELTA -/
  stepDelta : Int := 0
  /-- a step request was accepted and waits for the next alignment exchange -/
  stepPending : Bool := false
  /-- the step the time agent asked for; none = the host's TIME_STEP applies -/
  agentDelta : Option Int := none
  /-- a step taken by IOD0 that IOD1 still has to take (R319) -/
  stepOwed : Option Int := none
  stepUsed : Bool := false
  stepRej : Bool := false
  stepBusy : Bool := false
  rateClamp : Bool := false
  cfgBusy : Bool := false
  agentDie : Nat := 0
  agent : AgentState := .host
  /-- TIME_CFG.AGENT -/
  agentOn : Bool := false
  /-- TIME_CFG.SOURCE -/
  source : Bool := false
  port : Nat := 0
  altPort : Nat := 2
  stepTh : Nat := 1000000
  limit : Nat := 1000
  /-- TIME_NOW's high word and TIME_NOW_FRAC as the last read of its low word latched them -/
  latHigh : Nat := 0
  latFrac : Nat := 0
  /-- TIME_OFFSET.NS, signed, saturating to 32 bits -/
  offset : Int := 0
  ppsIn0 : Nat := 0
  ppsIn1 : Nat := 0
  /-- nominal time of the previous PPS_IN edge -/
  ppsLast : Option Nat := none
  /-- PPS_OUT: the level of the pin -/
  ppsOut : Bool := false
  /-- timebase time left of the high phase: the value of tb1 at the rise, moved by any step -/
  ppsRise : Nat := 0
  stepLog : Int := 0
  gptpSync : Nat := 0
  gptpOneStep : Nat := 0
  /-- Syncs in a row with |offset| within TIME_LIMIT -/
  okRun : Nat := 0
  /-- time of the last Sync of a usable pair -/
  lastSync : Option Nat := none
  /-- sequence number and corrected ingress stamp of a two-step Sync awaiting its Follow_Up -/
  syncPend : Option (Nat × Nat) := none
  /-- grandmaster time and ingress stamp of the previous pair, for the rate ratio -/
  lastPair : Option (Int × Int) := none
  /-- mean link delay, ns -/
  linkDelay : Int := 0
  /-- sequence number and egress stamp of the outstanding Pdelay_Req -/
  pdelayReq : Option (Nat × Nat) := none
  /-- t2 and t4 of a Pdelay_Resp awaiting its Follow_Up -/
  pdelayResp : Option (Nat × Nat × Nat) := none
  pdelaySeq : Nat := 0
  /-- clockIdentity of the selected grandmaster, with its priority vector -/
  gm : Option (Nat × Nat) := none
  trace0 : TraceUnit := {}
  trace1 : TraceUnit := {}
  deriving DecidableEq, Repr

end Sys2Proof.Machine
end

