-- ==== Sys2Proof/Machine/State.lean ====
section
/-!
DEFINITION. The machine's state, its reasons to stop, and the state after reset.
-/

namespace Sys2Proof.Machine

/-- Why a command stops the machine with a fault: no command of this block does, since the spec gives every command an
effect (a fault of the hardware is a source of a collector, which is state). -/
inductive Fault where
  deriving DecidableEq, Repr

/-- Why a command is refused. -/
inductive Refusal where
  /-- A command whose meaning is not written: raised by Dispatch.lean alone. Safe. -/
  | notModelled (mnemonic : String)
  deriving DecidableEq, Repr

/-- Everything the spec gives the module, block by block, and the queue of waiting commands. -/
structure State where
  pending : List Instr := []
  time : TimeState := {}
  power : PowerState := {}
  crown : CrownState := {}
  fault : FaultState := {}
  led : LedgerState := {}
  pat : PatternState := {}
  fab : FabricState := {}
  ddr : DdrState := {}
  host : HostState := {}
  isl : IslandState := {}
  loop : LoopState := {}
  sense : SenseState := {}
  sec : SecState := {}
  scene : Tbl SceneMem := []
  plan : PlanState := {}
  deriving DecidableEq, Repr

/-- The module right after reset (assumption 2 names the values the spec leaves open). -/
def State.reset : State := {}

end Sys2Proof.Machine
end

