-- ==== Sys2Proof/Machine/Tbl.lean ====
section
/-!
DEFINITION. Sparse tables and byte memories in one canonical form (strictly rising keys, no default entry),
with reads, writes and little-endian multi-byte accesses (R10).
-/

namespace Sys2Proof.Machine

/-- Read the record of instance `k`. -/
def tget {α : Type} (d : α) (k : Nat) : Tbl α → α
  | [] => d
  | (a, v) :: r => if a = k then v else tget d k r

/-- Put a listed entry in its sorted place. -/
def tinsert {α : Type} (k : Nat) (v : α) : Tbl α → Tbl α
  | [] => [(k, v)]
  | (a, w) :: r =>
    if a < k then (a, w) :: tinsert k v r
    else if a = k then (k, v) :: r
    else (k, v) :: (a, w) :: r

/-- Take instance `k` out of the list, so that it holds the default record. -/
def terase {α : Type} (k : Nat) : Tbl α → Tbl α
  | [] => []
  | (a, w) :: r => if a = k then terase k r else (a, w) :: terase k r

/-- Write the record of instance `k`, keeping the canonical form. -/
def tset {α : Type} [DecidableEq α] (d : α) (k : Nat) (v : α) (t : Tbl α) : Tbl α :=
  if v = d then terase k t else tinsert k v t

/-- Change the record of instance `k` by `f`. -/
def tmod {α : Type} [DecidableEq α] (d : α) (k : Nat) (f : α → α) (t : Tbl α) : Tbl α :=
  tset d k (f (tget d k t)) t

/-- Every listed instance number is above `k`. -/
def tabove {α : Type} (k : Nat) : Tbl α → Bool
  | [] => true
  | (a, _) :: r => decide (k < a) && tabove k r

/-- The canonical form: instance numbers strictly rising, no entry equal to the default record. -/
def twf {α : Type} [DecidableEq α] (d : α) : Tbl α → Bool
  | [] => true
  | (a, v) :: r => decide (v ≠ d) && tabove a r && twf d r

/-- Change every listed record by `f`, dropping those that become the default. -/
def tmapAll {α : Type} [DecidableEq α] (d : α) (f : Nat → α → α) : Tbl α → Tbl α
  | [] => []
  | (a, v) :: r => if f a v = d then terase a (tmapAll d f r) else (a, f a v) :: tmapAll d f r

/-- Change the records of the instances in `ks` by `f`. -/
def tmodAll {α : Type} [DecidableEq α] (d : α) (f : α → α) : List Nat → Tbl α → Tbl α
  | [], t => t
  | k :: ks, t => tmodAll d f ks (tmod d k f t)

/-! ### Byte memories -/

/-- The byte an unlisted address reads as. DESIGN CHOICE (assumption 4): 0x00. -/
def memDefault : Byte := 0#8

/-- The canonical form of a byte memory. -/
def Memory.wf (m : Mem) : Bool := twf memDefault m

/-- One byte of a memory. -/
def rd8 (m : Mem) (a : Nat) : Byte := tget memDefault a m

/-- Write one byte of a memory. -/
def wr8 (m : Mem) (a : Nat) (b : Byte) : Mem := tset memDefault a b m

/-- `n` bytes from address `a` upward. -/
def rdBytes (m : Mem) (a : Nat) : Nat → List Byte
  | 0 => []
  | n + 1 => rd8 m a :: rdBytes m (a + 1) n

/-- Write a list of bytes from address `a` upward. -/
def wrBytes (m : Mem) (a : Nat) : List Byte → Mem
  | [] => m
  | b :: bs => wrBytes (wr8 m a b) (a + 1) bs

/-- The value of bytes taken little-endian (R10). -/
def leVal : List Byte → Nat
  | [] => 0
  | b :: bs => b.toNat + 256 * leVal bs

/-- `v` as `n` bytes, little-endian (R10). -/
def leBytes : Nat → Nat → List Byte
  | 0, _ => []
  | n + 1, v => BitVec.ofNat 8 v :: leBytes n (v / 256)

/-- `n` bytes at `a` as a little-endian number. -/
def rdLe (m : Mem) (a n : Nat) : Nat := leVal (rdBytes m a n)

/-- The bytes of a byte list from `o`, `n` of them, as a little-endian number (a missing byte reads 0). -/
def fieldLe (bs : List Byte) (o n : Nat) : Nat := leVal ((bs.drop o).take n)

/-- Write `v` little-endian in `n` bytes at `a`. -/
def wrLe (m : Mem) (a n v : Nat) : Mem := wrBytes m a (leBytes n v)

/-- `n` zero bytes. -/
def zeroBytes (n : Nat) : List Byte := List.replicate n 0#8

end Sys2Proof.Machine
end

