-- ==== Sys2Proof/Machine/Ops.lean ====
section
/-!
DEFINITION. The operations every family shares: the passage of time, stamps, the event trace, device and host memory,
MSI-X messages, and the latching of fault sources.
-/

namespace Sys2Proof.Machine

open Host (Outcome)

/-! ### Parts -/

/-- The model's number of a glove quad as a part (R40 gives the four dies' quads the same identifiers). -/
def quadPart (q : Nat) : Nat := 0x100 + q

/-- The part identifier of a part (R40). -/
def partId (p : Nat) : Nat := if 0x100 ≤ p then 0x80 + (p - 0x100) % 84 else p

/-- The QUAD field that goes with a part: the global quad index, or 0xFFFF. -/
def partQuad (p : Nat) : Nat := if 0x100 ≤ p then p - 0x100 else 0xFFFF

/-- The half a part lies in. -/
def partHalf (p : Nat) : Nat :=
  if 0x100 ≤ p then (p - 0x100) / 168
  else if p < 4 then p / 2
  else if p < 6 then p - 4
  else if p < 0x1C then (p - 0x10) / 6
  else if p < 0x28 then (p - 0x20) / 4
  else if p < 0x2C then (p - 0x28) / 2
  else if p < 0x40 then (p - 0x30) / 8
  else if p < 0x42 then p - 0x40
  else if p < 0x4A then p - 0x48
  else p - 0x50

/-- The parts isolated with a part (R356: an I/O die takes its whole half with it, except the island). -/
def partsBehind (p : Nat) : List Nat :=
  if p = 4 then [4, 0, 1] ++ (List.range 6).map (0x10 + ·) ++ (List.range 4).map (0x20 + ·) ++ [0x28, 0x29]
    ++ (List.range 8).map (0x30 + ·) ++ [0x40, 0x48]
  else if p = 5 then [5, 2, 3] ++ (List.range 6).map (0x16 + ·) ++ (List.range 4).map (0x24 + ·) ++ [0x2A, 0x2B]
    ++ (List.range 8).map (0x38 + ·) ++ [0x41, 0x49]
  else [p]

/-- The part is isolated, by itself. -/
def isIso (p : Nat) (s : State) : Bool := s.fault.isolated.contains p

/-- A quad is available: neither it nor its stack is isolated. -/
def quadAvail (q : Nat) (s : State) : Bool := !isIso (quadPart q) s

/-- A stack is available. -/
def stackAvail (k : Nat) (s : State) : Bool := !isIso k s

/-- An I/O die is in service. -/
def dieUp (d : Nat) (s : State) : Bool := !isIso (4 + d) s

/-! ### Time -/

/-- What one reference tick adds, in timebase units (R298). -/
def tickInc (rate : Int) : Int := 40 * 2 ^ 48 + 40 * rate * 2 ^ 16

/-- A timebase after `n` ticks. -/
def tbAfter (tb : Nat) (rate : Int) (n : Nat) : Nat := (((tb : Int) + tickInc rate * n) % 2 ^ 112).toNat

/-- The rate IOD1's timebase runs at: RATE plus its local trim (R302). -/
def rate1 (s : State) : Int := s.time.rate + s.time.trim

/-- The passage of time up to `t` (nominal ns): both timebases count the reference ticks that pass. -/
def advanceTo (t : Nat) (s : State) : State :=
  if t ≤ s.time.now then s
  else
    let n := t / 40 - s.time.now / 40
    { s with time := { s.time with
        now := t
        tb0 := tbAfter s.time.tb0 s.time.rate n
        tb1 := tbAfter s.time.tb1 (rate1 s) n } }

/-- The 600 MHz clocks of a die run, so that its stamps are fine (R299, R392). -/
def fineClock (d : Nat) (s : State) : Bool :=
  dieUp d s && !s.power.fastStopped && !s.power.retainExit &&
    (match s.power.st with
     | .off | .retain => false
     | .boot => s.power.trained
     | _ => true)

/-- 600 MHz cycles since the last reference tick (R299). -/
def subTick (s : State) : Nat := s.time.now % 40 * 24 / 40

/-- The timebase of a die refined to the present cycle, in timebase units (R299). -/
def tbNow (d : Nat) (s : State) : Nat :=
  let tb := if d = 0 then s.time.tb0 else s.time.tb1
  let r := if d = 0 then s.time.rate else rate1 s
  if fineClock d s then ((tb : Int) + tickInc r * subTick s / 24).toNat % 2 ^ 112 else tb

/-- A full stamp of die `d` now (R304). -/
def stamp (d : Nat) (s : State) : Nat := tbNow d s / 2 ^ 48

/-- The visible 16-bit fraction that goes with it (R298). -/
def stampFrac (d : Nat) (s : State) : Nat := tbNow d s % 2 ^ 48 / 2 ^ 32

/-- A short stamp of die `d` now (R304). -/
def shortStamp (d : Nat) (s : State) : Nat := stamp d s % 2 ^ 32

/-- The largest stamp of a grid at or before `st`. -/
def gridBefore (periodNs phase st : Nat) : Nat :=
  if periodNs = 0 ∨ st < phase then phase else (st - phase) / periodNs * periodNs + phase

/-- The grid stamp reached now: the timebase passed it within the present 40 ns tick (R298, assumption 28). -/
def gridNow (d periodNs phase : Nat) (s : State) : Option Nat :=
  let st := stamp d s
  let g := gridBefore periodNs phase st
  if periodNs = 0 ∨ st < phase ∨ g + 41 ≤ st then none else some g

/-- Grid stamps up to a stamp. -/
def gridCount (periodNs phase st : Nat) : Nat := if periodNs = 0 ∨ st < phase then 0 else (st - phase) / periodNs + 1

/-- The die of a sensor stream's port. -/
def sensDie (x : SensStream) : Nat := if x.eth then x.port / 2 else x.port / 4

/-- The die whose timebase serves a half, or the survivor when that die is isolated (R302). -/
def liveDie (d : Nat) (s : State) : Nat := if dieUp d s then d else 1 - d

/-! ### Device memory -/

/-- Channel of a device address (R369). -/
def chanOf (a : Nat) : Nat := a / 4096 % 12

/-- Channel-local address of a device address (R369). -/
def localOf (a : Nat) : Nat := a / 4096 / 12 * 4096 + a % 4096

/-- Device address of a channel-local address. -/
def deviceOf (ch c : Nat) : Nat := (c / 4096 * 12 + ch) * 4096 + c % 4096

/-- The record of a channel. -/
def chan (ch : Nat) (s : State) : DdrChan := tget {} ch s.ddr.ch

/-- Change a channel. -/
def modChan (ch : Nat) (f : DdrChan → DdrChan) (s : State) : State :=
  { s with ddr := { s.ddr with ch := tmod {} ch f s.ddr.ch } }

/-- A channel accepts requests: not isolated (R387). -/
def chanUp (ch : Nat) (s : State) : Bool := !isIso (0x10 + ch) s

/-- The line of a device address is poisoned (R378). -/
def poisonedAt (a : Nat) (s : State) : Bool := (chan (chanOf a) s).poison.contains (localOf a / 64)

/-- The byte a queued write holds for a device address (R373): the newest request to a line merges into its entry. -/
def queuedByte (a : Nat) (s : State) : Option Byte :=
  match (chan (chanOf a) s).writes.find? (fun w => w.line == localOf a / 64) with
  | none => none
  | some w => (w.bytes.find? (fun b => b.1 == a % 64)).map (·.2)

/-- Put a byte into the queued write of its line. -/
def setQueued (a : Nat) (b : Byte) (s : State) : State :=
  modChan (chanOf a) (fun c => { c with writes := c.writes.map (fun w =>
    if w.line = localOf a / 64 then { w with bytes := w.bytes.filter (fun x => x.1 != a % 64) ++ [(a % 64, b)] } else w) }) s

/-- Write one byte of device memory, into the queued write of its line when that holds the byte. -/
def devWr8 (a : Nat) (b : Byte) (s : State) : State :=
  if !chanUp (chanOf a) s then s
  else if (queuedByte a s).isSome then setQueued a b s
  else { s with ddr := { s.ddr with mem := wr8 s.ddr.mem a b } }

/-- Write bytes to device memory, dropping those of isolated channels (R387). -/
def devWr (a : Nat) (bs : List Byte) (s : State) : State :=
  match bs with
  | [] => s
  | b :: r => devWr (a + 1) r (devWr8 a b s)

/-- One byte of device memory, as a read that is ordered after every queued write sees it (R373). -/
def devRd8 (a : Nat) (s : State) : Byte := (queuedByte a s).getD (rd8 s.ddr.mem a)

/-- Read bytes of device memory. -/
def devRd (a n : Nat) (s : State) : List Byte := (List.range n).map (fun i => devRd8 (a + i) s)

/-! ### Event trace (R315, R316) -/

/-- The trace unit of a die. -/
def trace (d : Nat) (s : State) : TraceUnit := if d = 0 then s.time.trace0 else s.time.trace1

/-- Put back the trace unit of a die. -/
def setTrace (d : Nat) (u : TraceUnit) (s : State) : State :=
  if d = 0 then { s with time := { s.time with trace0 := u } }
  else { s with time := { s.time with trace1 := u } }

/-- The 16 bytes of a trace event (R316). -/
def traceBytes (st src kind flags tseq data : Nat) : List Byte :=
  leBytes 8 st ++ leBytes 1 src ++ leBytes 1 kind ++ leBytes 1 flags ++ leBytes 1 tseq ++ leBytes 4 data

/-- A kind that TRACE_MASK cannot stop (R316). -/
def traceAlways (kind : Nat) : Bool := decide (kind ≤ 8) || decide (kind = 0x70)

/-- Write one event into the ring of die `d`, or count it as dropped when its line lies in a lost channel (R357). -/
def tracePut (d src kind data : Nat) (s : State) : State :=
  let u := trace d s
  let a := Config.traceRing d + u.wr % 2 ^ 18 * 16
  if chanUp (chanOf a) s then
    let flags := b2n (!fineClock d s) + 2 * b2n s.time.skewed
    let s1 := devWr a (traceBytes (stamp d s) src kind flags (u.wr % 256) (data % 2 ^ 32)) s
    setTrace d { u with wr := wrapAdd 32 u.wr 1, full := u.full || decide (2 ^ 18 ≤ u.wr + 1) } s1
  else setTrace d { u with dropped := u.dropped + 1 } s

/-- Record a trace event of die `d` under TRACE_MASK, after reporting events lost before it (kind 0x08). -/
def traceEv (d src kind data : Nat) (s : State) : State :=
  let d' := liveDie d s
  if traceAlways kind || bit (trace d' s).mask (kind / 16 - 1) then
    let n := (trace d' s).dropped
    let s1 := if n = 0 then s else tracePut d' 0xE4 8 n (setTrace d' { trace d' s with dropped := 0 } s)
    tracePut d' src kind data s1
  else s

/-! ### HOST ports, host memory and MSI-X -/

/-- A HOST port. -/
def hport (p : Nat) (s : State) : HostPort := if p = 0 then s.host.p0 else s.host.p1

/-- Change a HOST port. -/
def modPort (p : Nat) (f : HostPort → HostPort) (s : State) : State :=
  if p = 0 then { s with host := { s.host with p0 := f s.host.p0 } }
  else { s with host := { s.host with p1 := f s.host.p1 } }

/-- A port is up: link up, not in D3hot, not isolated (R449). -/
def portUp (p : Nat) (s : State) : Bool :=
  (hport p s).link && !(hport p s).d3hot && !isIso (0x48 + p) s

/-- The port that carries what is configured for port `p` (R449). -/
def carrier (p : Nat) (s : State) : Nat := if (hport p s).redirect then 1 - p else p

/-- What is configured for port `p` can be carried now. -/
def carried (p : Nat) (s : State) : Bool := portUp (carrier p s) s

/-- Write bytes to host memory through the port configured; with the carrying port down nothing is written. -/
def hostWr (p a : Nat) (bs : List Byte) (s : State) : State :=
  if carried p s then { s with host := { s.host with mem := wrBytes s.host.mem a bs } } else s

/-- Send an MSI-X vector of the port configured: a masked vector sets its PBA bit (R448). -/
def sendVec (p v : Nat) (s : State) : State :=
  let q := carrier p s
  if !portUp q s then s
  else if (tget ({} : MsixEntry) v (hport q s).msix).masked then
    modPort q (fun h => { h with msix := tmod {} v (fun e => { e with pba := true }) h.msix }) s
  else { s with host := { s.host with msgs := ⟨q, v⟩ :: s.host.msgs } }

/-- The attach vector (ATTACH_CFG.VECTOR, sent when IRQ = 1). -/
def attachVec (s : State) : State := if s.host.irq then sendVec s.host.port s.host.vector s else s

/-! ### Ethernet transmission -/

/-- An Ethernet port. -/
def eport (e : Nat) (s : State) : EthPort := tget {} e s.host.eth

/-- Change an Ethernet port. -/
def modEth (e : Nat) (f : EthPort → EthPort) (s : State) : State :=
  { s with host := { s.host with eth := tmod {} e f s.host.eth } }

/-- An Ethernet port works: link up and not isolated. -/
def ethUp (e : Nat) (s : State) : Bool := (eport e s).link && !isIso (0x28 + e) s && dieUp (e / 2) s

/-- Put a stamp into a port's transmit timestamp queue, or drop it when 32 entries are held (R314). -/
def pushTxts (e : Nat) (x : TxEntry) (s : State) : State :=
  modEth e (fun p => if p.txts.length < 32 then { p with txts := p.txts ++ [x] }
    else { p with ovf := true, lost := satAdd 16 p.lost 1 }) s

/-- A frame leaves the port now: it is stamped, and a requested stamp is reported (R309, R314). -/
def ethEmit (e : Nat) (f : EthFrame) (o : TxOwner) (s : State) : State :=
  let st := stamp (e / 2) s
  let s1 := modEth e (fun p => { p with sent := (st, f) :: p.sent }) s
  match o with
  | .plain | .loop _ => s1
  | .agentReq q => { s1 with time := { s1.time with pdelayReq := some (q, st) } }
  | .stamped id => pushTxts e (id, st, stampFrac (e / 2) s, !fineClock (e / 2) s) s1

/-- The gate control of a port. -/
def gateCtl (e : Nat) (s : State) : GateCtl := tget {} e s.loop.gates

/-- For how many ns from the start of entry `i` class `tc` stays open, over at most `n` entries. -/
def openRun (l : List GateEntry) (tc : Nat) : Nat → Nat → Nat
  | 0, _ => 0
  | n + 1, i =>
    let g := l.getD (i % l.length) {}
    if bit g.gates tc then g.ns + openRun l tc n (i + 1) else 0

/-- Bytes of a frame on the line: addresses, tag, type, payload, FCS, preamble and gap (R291). -/
def lineBytes (f : EthFrame) : Nat := 14 + (if f.vlan.isSome then 4 else 0) + max f.payload.length 46 + 24

/-- Transmission overrun prevention (R291): the frame completes at line rate before the gate of its class closes. -/
def ethFits (e tc : Nat) (f : EthFrame) (s : State) : Bool :=
  let g := gateCtl e s
  if g.oper.isEmpty ∨ g.oper.all (fun x => bit x.gates tc) then true
  else
    let left := g.at_ + openRun g.oper tc g.oper.length g.idx - s.time.now
    decide (lineBytes f * 8 ≤ left * (if (eport e s).fast then 25 else 10))

/-- A frame of class `tc` may leave now: its gate is open and it fits. -/
def ethMay (e tc : Nat) (f : EthFrame) (s : State) : Bool := bit (eport e s).gates tc && ethFits e tc f s

/-- The slot's frame that still waits for its gate gives way to a new one (R290). -/
def dropWaiting (e : Nat) (o : TxOwner) (s : State) : State :=
  match o with
  | .loop _ => modEth e (fun p => { p with queued := p.queued.filter (fun q => q.2.2 != o) }) s
  | _ => s

/-- Hand a frame of traffic class `tc` to a port: it leaves at once when its gate is open and nothing of its class
waits, and queues otherwise (R291). A port that does not work abandons it. -/
def ethSend (e tc : Nat) (f : EthFrame) (o : TxOwner) (s : State) : State :=
  if !ethUp e s then s
  else
    let s1 := dropWaiting e o s
    if ethMay e tc f s1 && !(eport e s1).queued.any (fun q => q.1 == tc) then ethEmit e f o s1
    else modEth e (fun p => { p with queued := p.queued ++ [(tc, f, o)] }) s1

/-- Send the queued frames of a class from its head while they may leave. -/
def ethDrainClass (e tc : Nat) : Nat → State → State
  | 0, s => s
  | n + 1, s =>
    match (eport e s).queued.find? (fun q => q.1 == tc) with
    | none => s
    | some (c, f, o) =>
      if ethMay e tc f s then
        ethDrainClass e tc n (ethEmit e f o (modEth e (fun p => { p with queued := p.queued.erase (c, f, o) }) s))
      else s

/-- The queue of a port meets its open gates: higher classes first, each class in order. -/
def ethDrain (e : Nat) (s : State) : State :=
  (List.range 8).reverse.foldl (fun a tc => ethDrainClass e tc (eport e a).queued.length a) s

/-! ### Fault sources -/

/-- A source of a collector. -/
def fsrc (id : Nat) (s : State) : FaultSrc := tget {} id s.fault.src

/-- Change a source. -/
def modSrc (id : Nat) (f : FaultSrc → FaultSrc) (s : State) : State :=
  { s with fault := { s.fault with src := tmod {} id f s.fault.src } }

/-- A source latches an error and holds its line at (1, 0) until the collector clears it (R346). -/
def latch (id detail : Nat) (s : State) : State :=
  modSrc id (fun r => { r with
    latched := true
    hits := r.hits + 1
    detail := detail
    since := if r.hits = 0 then s.time.now else r.since }) s

/-- Latch the same index in both collectors. -/
def latchBoth (idx detail : Nat) (s : State) : State := latch (0x400 + idx) detail (latch idx detail s)

/-- The register-write source of a block's collector: DETAIL is the BAR0 offset written (R12, R348). -/
def latchWrite (half off : Nat) (s : State) : State := latch (half * 0x400 + 0x142) off s

/-! Source IDs of R348. -/

def srcQuad (q : Nat) : Nat := q / 168 * 0x400 + q % 168
def srcStack (k off : Nat) : Nat := k / 2 * 0x400 + 0x0A8 + 12 * (k % 2) + off
def srcDdr (ch off : Nat) : Nat := ch / 6 * 0x400 + 0x0C0 + 8 * (ch % 6) + off
def srcCsi (p off : Nat) : Nat := p / 4 * 0x400 + 0x0F0 + 2 * (p % 4) + off
def srcEth (e off : Nat) : Nat := e / 2 * 0x400 + 0x0F8 + 4 * (e % 2) + off
def srcSlice (d n off : Nat) : Nat := d * 0x400 + 0x130 + 2 * n + off
def srcLoop (slot off : Nat) : Nat := slot / 8 * 0x400 + 0x150 + 6 * (slot % 8) + off
def srcHost (p off : Nat) : Nat := p * 0x400 + 0x190 + off

/-! ### Holding at a seam (R59, R111, R112) -/

/-- The blocks of a seam group start no work item: an engine that lists it, a patch that touches it or a withdrawal is TAKING,
or an armed block seam of the group is still to be taken, which goes first (R59, R111). -/
def heldGroup (g : Nat) (s : State) : Bool :=
  [s.pat.e0, s.pat.e1, s.pat.e2, s.pat.e3].any (fun e =>
      (e.st == 2 && e.groups.contains g) || (e.st == 1 && e.stamp == 0 && e.left.contains g))
    || (match s.pat.job with
        | none => false
        | some j => decide (j.stage = 4) && j.groups.contains g)
    || (match s.pat.testSeam with
        | none => false
        | some x => x.2.2.1.contains g)

/-! ### Module state (R390) -/

/-- An accepted ticket is not ENDED. -/
def ticketOpen (tk : Ticket) : Bool :=
  match tk.phase with
  | .accepted | .running => true
  | _ => false

/-- Some accepted ticket is not ENDED. -/
def anyOpen (s : State) : Bool := s.led.tickets.any ticketOpen

/-! ### Registers of BAR0 (R12, R469) -/

/-- The fast domains are stopped: RETAIN, SAFE, OFF. -/
def fastDown (s : State) : Bool := s.power.fastStopped || s.power.inRetain || !s.power.on

/-- The register at a BAR0 offset belongs to an isolated part or a stopped domain (R469): it reads as it stood, and a write
is ignored. -/
def offBlocked (off : Nat) (s : State) : Bool :=
  if off < 0x00040000 then false
  else if off < 0x00050000 then fastDown s
  else if off < 0x00060000 then false
  else if off < 0x00080000 then fastDown s
  else if off < 0x000B0000 then fastDown s || isIso (0x10 + (off - 0x00080000) / 0x4000) s
  else if off < 0x000D0000 then fastDown s || isIso (0x20 + (off - 0x000C0000) / 0x2000) s
  else if off < 0x000F0000 then fastDown s || isIso (0x28 + (off - 0x000E0000) / 0x4000) s
  else if off < 0x00140000 then decide (0x1000 ≤ off % 0x10000) && (fastDown s || !dieUp 0 s)
  else if off < 0x00180000 then decide (0x1000 ≤ off % 0x10000) && (fastDown s || !dieUp 1 s)
  else if off < 0x001A0000 then fastDown s || !dieUp 0 s
  else if off < 0x001C0000 then fastDown s || !dieUp 1 s
  else if off < 0x001C1000 then fastDown s || isIso (0x40 + (off - 0x001C0000) / 0x100) s
  else if off < 0x00200000 then fastDown s || isIso (0x40 + (off - 0x001C1000) / 0x1000) s
  else if off < 0x00400000 then false
  else if off < 0x00460000 then
    let q := (off - 0x00400000) / 0x400
    fastDown s || !quadAvail q s || !stackAvail (q / 84) s
  else if off < 0x00470000 then fastDown s || !stackAvail ((off - 0x00460000) / 0x1000) s
  else fastDown s

/-- The half whose collector takes a NOTE about a register (R12, R348). -/
def offHalf (off : Nat) : Nat :=
  if 0x000C0000 ≤ off ∧ off < 0x000D0000 then (off - 0x000C0000) / 0x8000
  else if 0x000E0000 ≤ off ∧ off < 0x000F0000 then (off - 0x000E0000) / 0x8000
  else if 0x00080000 ≤ off ∧ off < 0x000B0000 then (off - 0x00080000) / 0x18000
  else if 0x00141000 ≤ off ∧ off < 0x00180000 then 1
  else if 0x001A0000 ≤ off ∧ off < 0x001C0000 then 1
  else if 0x001C2000 ≤ off ∧ off < 0x001C3000 then 1
  else if 0x00400000 ≤ off ∧ off < 0x00460000 then (off - 0x00400000) / 0x2A000
  else if 0x00460000 ≤ off ∧ off < 0x00470000 then (off - 0x00460000) / 0x2000 % 2
  else 0

/-- A write of an RW field: ignored while its block runs, with the block's CFG_BUSY bit and a NOTE (R12). -/
def rwWrite (idle : Bool) (off : Nat) (busy act : State → State) (s : State) : State :=
  if idle then act s else latchWrite (offHalf off) off (busy s)

/-- Draw a fresh number for a free value (assumption 6). -/
def drawFree (s : State) : Nat × State :=
  (Config.freeNat s.fab.fresh, { s with fab := { s.fab with fresh := s.fab.fresh + 1 } })

end Sys2Proof.Machine
end

