-- ==== Sys2Proof/Machine/ModState.lean ====
section
/-!
DEFINITION. The envelope factor (R394), and the module state as R390 determines it.
-/

namespace Sys2Proof.Machine

/-- The smaller of two fractions `n / d`. -/
def fracMin (a b : Nat × Nat) : Nat × Nat := if a.1 * b.2 ≤ b.1 * a.2 then a else b

/-- f_flow (R394, R401): F / 3.2 L/min below that flow; unknown while readings are stale (R400). -/
def fFlow (s : State) : Nat × Nat :=
  if s.crown.stale ∨ s.crown.goodAt = none ∨ 3200 ≤ s.crown.flow then (1, 1) else (s.crown.flow, 3200)

/-- f_inlet (R394, R403), the inlet in 0.01 °C. -/
def fInlet (s : State) : Nat × Nat :=
  if s.crown.goodAt = none ∨ s.crown.inlet ≤ 6000 then (1, 1)
  else ((7000 - s.crown.inlet).toNat, 1000)

/-- f_tray (R404). -/
def fTray (s : State) : Nat × Nat := if s.crown.stale then (6, 10) else (1, 1)

/-- f_ddr (R394): any channel reports TEMP_HIGH. -/
def fDdr (s : State) : Nat × Nat :=
  if (List.range 12).any (fun c => (chan c s).tempHigh) then (9, 10) else (1, 1)

/-- f_cal (R394, R411): the regulator trims are invalid. -/
def fCal (s : State) : Nat × Nat := if s.crown.calRead ∧ !s.crown.calVreg then (8, 10) else (1, 1)

/-- The factor f, the smallest of the five (R394). -/
def envF (s : State) : Nat × Nat :=
  fracMin (fracMin (fracMin (fracMin (fFlow s) (fInlet s)) (fTray s)) (fDdr s)) (fCal s)

/-- E_run in milliwatts, rounded down (R394). -/
def eRunMw (s : State) : Nat := s.crown.runW * 1000 * (envF s).1 / (envF s).2

/-- E_short in milliwatts, rounded down. -/
def eShortMw (s : State) : Nat := s.crown.shortW * 1000 * (envF s).1 / (envF s).2

/-- The envelope in force is below the pattern's RUN_W. -/
def envLow (s : State) : Bool := decide ((envF s).1 < (envF s).2)

/-- Row 6 of R390; a silent island (R324). -/
def isDegraded (s : State) : Bool :=
  s.isl.a.vote == .silent || s.isl.b.vote == .silent || !s.fault.isolated.isEmpty || (decide (s.pat.altKind ≠ 0) && !s.pat.testAlt)
    || (envLow s && !s.crown.coolHold) || (s.crown.calRead && !s.crown.calThermal)

/-- A ticket ended less than HOLD_MS ago. -/
def recentlyActive (s : State) : Bool :=
  match s.led.lastEnd with
  | none => false
  | some e => decide (s.time.now < e + s.power.holdMs * 1000000)

/-- The module state by the first row of R390 that applies. -/
def modStateOf (s : State) : ModSt :=
  if !s.power.on ∨ (!s.power.aon0 ∧ !s.power.aon1) then .off
  else if s.power.safe then .safe
  else if s.power.fenced then .fenced
  else if !s.power.booted then .boot
  else if s.power.inRetain then .retain
  else if isDegraded s then .degraded
  else if anyOpen s || recentlyActive s then .active
  else .standby

/-- Bring MOD_STATUS up to date: a change of state writes PREV_STATE (R390). -/
def settle (s : State) : State :=
  let n := modStateOf s
  if n = s.power.st then s else { s with power := { s.power with st := n, prev := s.power.st } }

/-- MOD_STATUS codes (R9). -/
def ModSt.code : ModSt → Nat
  | .off => 0
  | .retain => 1
  | .boot => 2
  | .standby => 3
  | .active => 4
  | .degraded => 5
  | .fenced => 6
  | .safe => 7

/-- The module serves tickets: STANDBY, ACTIVE or DEGRADED. -/
def serving (s : State) : Bool :=
  match s.power.st with
  | .standby | .active | .degraded => true
  | _ => false

end Sys2Proof.Machine
end

