-- ==== Sys2Proof/Machine/LedgerOps.lean ====
section
/-!
DEFINITION. Shared operations of the ledger: streams, tickets, voiding, receipts, outcomes, tokens on edges.
-/

namespace Sys2Proof.Machine

/-- A ticket stream. -/
def strm (n : Nat) (s : State) : Strm := tget {} n s.led.strm

/-- Change a stream. -/
def modStrm (n : Nat) (f : Strm → Strm) (s : State) : State :=
  { s with led := { s.led with strm := tmod {} n f s.led.strm } }

/-- AVAIL of a stream (R217). -/
def avail (x : Strm) : Nat := x.limit - x.outstanding

/-- ENABLED: declared and accepting (STRM_CFG). -/
def strmEnabled (x : Strm) : Bool := x.declared && !x.disabled

/-- The accepted ticket of a stream with a sequence number. -/
def ticket (st q : Nat) (s : State) : Option Ticket :=
  s.led.tickets.find? (fun k => k.stream == st && k.seq == q)

/-- Replace the tickets. -/
def setTickets (ts : List Ticket) (s : State) : State := { s with led := { s.led with tickets := ts } }

/-- Change every ticket. -/
def mapTickets (f : Ticket → Ticket) (s : State) : State := setTickets (s.led.tickets.map f) s

/-- Change one ticket. -/
def modTicket (st q : Nat) (f : Ticket → Ticket) (s : State) : State :=
  mapTickets (fun k => if k.stream = st ∧ k.seq = q then f k else k) s

/-- A ticket record with its VOID decided (R209): no flags, no counts, RUN_US 0. -/
def Ticket.voided (k : Ticket) (cause part quad detail endS : Nat) : Ticket :=
  { k with
    phase := .ended
    status := 2
    cause := cause
    part := part
    quad := quad
    detail := detail
    endStamp := endS
    lateFlag := false
    degraded := false
    stale := false
    numSat := 0
    numNan := 0
    injectAt := none
    failed := none
    suspectBy := none }

/-- The home die of a stream. -/
def homeOf (st : Nat) (s : State) : Nat := (strm st s).home

/-- The deadline watch of a stream (R336). -/
def watch (st : Nat) (s : State) : Watch := tget {} st s.isl.watch

/-- Enter a ticket that had a deadline into the window of its stream's watch. -/
def watchPush (st : Nat) (miss : Bool) (s : State) : State :=
  { s with isl := { s.isl with watch := tmod {} st (fun w =>
    if w.declared then { w with win := (miss :: w.win).take w.n } else w) s.isl.watch } }

/-- A ticket ends: one that had a deadline and has not missed it enters the window as met. -/
def watchEnd (k : Ticket) (s : State) : State :=
  match k.deadline with
  | none => s
  | some d =>
    if !k.missed ∧ stamp (liveDie (homeOf k.stream s) s) s ≤ d then watchPush k.stream false s else s

/-- A void reaches a ticket: it is open, or it became ENDED in this very cycle (R219). -/
def canVoid (s : State) (k : Ticket) : Bool :=
  ticketOpen k || (decide (k.phase = .ended) && k.status != 2
    && k.endStamp == stamp (liveDie (homeOf k.stream s) s) s)

/-- Void every ticket that `p` selects and a void can reach (R209, R216), and in a VOID_FOLLOW stream every later open ticket
(R211). -/
def voidWhere (p : Ticket → Bool) (cause part quad detail : Nat) (s : State) : State :=
  let hit := s.led.tickets.filter (fun k => canVoid s k && p k)
  if hit.isEmpty then s
  else
    let follows := fun (k : Ticket) =>
      (strm k.stream s).voidFollow && hit.any (fun h => h.stream == k.stream && decide (h.seq < k.seq))
    let f := fun (k : Ticket) =>
      if (canVoid s k && p k) || (ticketOpen k && follows k) then
        k.voided cause part quad detail (stamp (liveDie (homeOf k.stream s) s) s)
      else k
    let ends := s.led.tickets.filter (fun k => ticketOpen k && (p k || follows k))
    let s1 := ends.foldl (fun a k => watchEnd k a) (mapTickets f s)
    { s1 with led := { s1.led with lastEnd := some s.time.now } }

/-- Void the tickets a list of tags names. -/
def voidTags (tags : List Tag) (cause part quad detail : Nat) (s : State) : State :=
  voidWhere (fun k => tags.any (fun g => g.stream == k.stream && g.seq == k.seq)) cause part quad detail s

/-- Void every open ticket. -/
def voidAll (cause part : Nat) (s : State) : State := voidWhere (fun _ => true) cause part 0xFFFF 0 s

/-- Void the open tickets of a stream. -/
def voidStream (st cause part quad : Nat) (s : State) : State :=
  voidWhere (fun k => k.stream == st) cause part quad 0 s

/-- Disable a stream as in the last row of R106: its accepted tickets are voided, later ones rejected. -/
def disableStream (st cause part quad : Nat) (s : State) : State :=
  modStrm st (fun x => { x with disabled := true }) (voidStream st cause part quad s)

/-- Disable several streams. -/
def disableStreams (sts : List Nat) (cause part quad : Nat) (s : State) : State :=
  sts.foldl (fun a st => disableStream st cause part quad a) s

/-- Streams declared by the pattern in force, ascending. -/
def declaredStreams (s : State) : List Nat := (s.led.strm.filter (fun e => e.2.declared)).map (·.1)

/-! ### Receipts (R200, R201) -/

/-- The 16 bytes of a receipt. -/
def receiptBytes (seq stmp verdict phase st av : Nat) : List Byte :=
  leBytes 8 seq ++ leBytes 4 stmp ++ leBytes 1 (verdict + 128 * phase) ++ leBytes 1 st ++ leBytes 2 (av % 1024)

/-- Write a receipt to the ring and signal a rejection (R201, R213). -/
def writeReceipt (seq stmp verdict st : Nat) (s : State) : State :=
  let s0 := if verdict = 0 then s else modStrm st (fun x => { x with rejects := satAdd 16 x.rejects 1 }) s
  if s0.led.rcptEnable then
    let k := s0.led.rcptWr
    let phase := if k / 1024 % 2 = 0 then 1 else 0
    let s1 := hostWr s0.led.rcptPort (s0.led.rcptBase + k % 1024 * 16)
      (receiptBytes seq stmp verdict phase st (avail (strm st s0))) s0
    let s2 := { s1 with led := { s1.led with rcptWr := wrapAdd 16 k 1 } }
    if verdict ≠ 0 ∧ s2.led.irqRej then sendVec s2.led.rcptPort s2.led.rcptVector s2 else s2
  else s0

/-! ### Ticket records (R195, R196) -/

/-- Descriptor `i` of a ticket record. -/
def descAt (bs : List Byte) (i : Nat) : Desc :=
  let o := 40 + 20 * i
  ⟨fieldLe bs o 8, fieldLe bs (o + 8) 4, fieldLe bs (o + 12) 1, fieldLe bs (o + 13) 1⟩

/-- The descriptors a ticket record carries (those beyond NDESC are ignored). -/
def descsOf (bs : List Byte) : List Desc := (List.range (min (fieldLe bs 33 1) 4)).map (descAt bs)

/-- The record's CRC matches and LAND repeats SEQ[31:0] (R195, R197 row 2). -/
def ticketIntact (bs : List Byte) : Bool :=
  fieldLe bs 120 4 == crc32c (bs.take 120) && fieldLe bs 124 4 == fieldLe bs 0 8 % 2 ^ 32

/-- R196 apart from the regions: NDESC, each stream edge's sub-port named exactly once, LEN, SPACE. -/
def descsOk (x : Strm) (bs : List Byte) : Bool :=
  let n := fieldLe bs 33 1
  let ds := descsOf bs
  decide (1 ≤ n ∧ n ≤ 4) && decide (ds.length = x.edges.length)
    && x.edges.all (fun e => (ds.filter (fun d => d.sub == e.sub)).length == 1)
    && ds.all (fun d => x.edges.any (fun e => e.sub == d.sub && e.size == d.len)
      && decide (d.space ≤ 1) && (d.space == 0 || x.allowHost))

/-- WORLD REGION stitches of the pattern in force: base, size, world, host access (R93). -/
def worldRegions (s : State) : List (Nat × Nat × Nat × Nat) :=
  match s.pat.image with
  | none => []
  | some im => (im.stitches.filter (fun t => t.sec == 0x0C && t.kind == 2)).map
      (fun t => (fieldLe t.bytes 8 8, fieldLe t.bytes 16 8, fieldLe t.bytes 24 1, fieldLe t.bytes 25 1))

/-- A device range of a non-secure stream lies in one region that permits its direction and touches no secure region. -/
def descWorldOk (s : State) (d : Desc) : Bool :=
  d.space == 1 ||
    ((worldRegions s).any (fun r => decide (r.1 ≤ d.addr ∧ d.addr + d.len ≤ r.1 + r.2.1)
        && decide ((if 4 ≤ d.sub then 2 else 1) ≤ r.2.2.2))
      && (worldRegions s).all (fun r => r.2.2.1 == 0 || decide (d.addr + d.len ≤ r.1 ∨ r.1 + r.2.1 ≤ d.addr)))

/-- The stream accepts tickets: not stopped by a load, RETAIN entry, QUIESCE or COOL_HOLD, in a serving state. -/
def accepting (s : State) : Bool :=
  serving s && !s.led.stopLoad && !s.led.stopQuiesce && !s.led.stopRetain && !s.led.stopCool

/-- A sequence number lies in the duplicate window of a stream (R198). -/
def inDupWindow (x : Strm) (q : Nat) : Bool := decide (1 ≤ q ∧ x.nextSeq ≤ q + 512 ∧ q < x.nextSeq)

/-- The verdict of a ticket record on window `w`, slot `slot` (none for a sealed request), by the first row of R197
whose condition holds. -/
def verdictOf (w : Nat) (slot : Option Nat) (bs : List Byte) (s : State) : Nat :=
  let x := strm w s
  let seq := fieldLe bs 0 8
  let r := fieldLe bs 8 8
  if s.power.fenced then 7
  else if !ticketIntact bs then 3
  else if fieldLe bs 32 1 ≠ w ∨ !strmEnabled x ∨ !accepting s ∨ !descsOk x bs ∨ (!x.secure ∧ !s.led.rcptEnable)
      ∨ (x.secure ∧ slot.isSome) then 5
  else if !x.secure ∧ !((descsOf bs).all (descWorldOk s)) then 6
  else if fieldLe bs 34 2 ≠ s.power.jepoch ∨ seq = 0 ∨ (slot ≠ none ∧ slot ≠ some (seq % 512))
      ∨ x.nextSeq < seq ∨ seq + 512 < x.nextSeq then 1
  else if seq < x.nextSeq ∨ (r ≠ 0 ∧ inDupWindow x r ∧ x.reissued.contains r) then 2
  else if r ≠ 0 ∧ (!inDupWindow x r ∨ !x.voidSeqs.contains r) then 1
  else if avail x = 0 then 4
  else 0

/-- The deadline of a ticket accepted at `acc` (R207). -/
def deadlineOf (x : Strm) (bs : List Byte) (acc : Nat) : Option Nat :=
  let d := fieldLe bs 16 8
  if d ≠ 0 then some d else if x.budgetUs ≠ 0 then some (acc + x.budgetUs * 1000) else none

/-- The ticket an accepted record becomes (R202). -/
def acceptedTicket (w : Nat) (bs : List Byte) (land acc : Nat) (seald : Bool) (home : Nat) (x : Strm) : Ticket :=
  { stream := w, seq := fieldLe bs 0 8, hostTag := fieldLe bs 24 8, reissueOf := fieldLe bs 8 8, accept := acc, landing := land
    inJ0 := decide (home = 0), inJ1 := decide (home = 1)
    deadline := deadlineOf x bs acc, dropLate := bit (fieldLe bs 36 2) 0, descs := descsOf bs
    sealed_ := seald }

/-- ACCEPT (R197 row 9, R198, R199, R203): journal entry, NEXT_SEQ, credit, REISSUED bit, trace event. Bits that left the
window are kept as far as a takeover can take accepts back (R204). -/
def acceptTicket (w : Nat) (bs : List Byte) (land : Nat) (sealed : Bool) (s : State) : State :=
  let x := strm w s
  let d := liveDie x.home s
  let acc := stamp d s
  let r := fieldLe bs 8 8
  let next := x.nextSeq + 1
  let keep := fun (q : Nat) => decide (next ≤ q + 1024)
  let s1 := modStrm w (fun y => { y with
      nextSeq := next
      outstanding := y.outstanding + 1
      voidSeqs := y.voidSeqs.filter keep
      reissued := (if r = 0 then y.reissued else y.reissued ++ [r]).filter keep }) s
  let s2 := setTickets (s1.led.tickets ++ [acceptedTicket w bs land acc sealed x.home x]) s1
  let s3 := { s2 with host := { s2.host with accepted := true } }
  settle (traceEv d 0xE0 0x10 (fieldLe bs 0 8 % 2 ^ 24 + w * 2 ^ 24) s3)

/-- Write the ACCEPT receipt and clear RCPT_PENDING (R203). -/
def ackTicket (st q : Nat) (s : State) : State :=
  match ticket st q s with
  | none => s
  | some k =>
    if k.rcptPending then
      let s1 := modTicket st q (fun y => { y with rcptPending := false }) s
      if k.sealed_ then s1 else writeReceipt q k.landing 0 st s1
    else s

/-! ### Outcomes (R208) -/

/-- RUN_US: microseconds from injection to END_STAMP, corrected for the step (R208, R306). -/
def runUs (k : Ticket) : Nat :=
  match k.injectAt with
  | none => 0
  | some i => if k.status = 2 then 0 else (((k.endStamp : Int) - i - k.stepSum) / 1000).toNat % 2 ^ 32

/-- The 64 bytes of an outcome. -/
def outcomeBytes (k : Ticket) (phase epoch : Nat) : List Byte :=
  leBytes 8 k.seq ++ leBytes 8 k.hostTag ++ leBytes 8 k.endStamp ++ leBytes 4 (k.accept % 2 ^ 32)
    ++ leBytes 1 (k.status + 4 * b2n k.lateFlag + 8 * b2n k.degraded + 16 * b2n k.stale + 128 * phase)
    ++ leBytes 1 k.cause ++ leBytes 1 k.part ++ leBytes 1 k.stream ++ leBytes 2 k.quad ++ leBytes 2 epoch
    ++ leBytes 2 (satU 16 k.numSat) ++ leBytes 2 (satU 16 k.numNan) ++ leBytes 4 k.detail ++ leBytes 4 (runUs k)
    ++ zeroBytes 16

/-- Ring entries of a stream. -/
def ringSize (x : Strm) : Nat := 2 ^ (if 4 ≤ x.sizeLog2 ∧ x.sizeLog2 ≤ 12 then x.sizeLog2 else 4)

/-- Fix the status of a ticket whose results are all delivered (R206, R207, R209, R210). -/
def endTicket (st q : Nat) (s : State) : State :=
  let e := stamp (liveDie (homeOf st s) s) s
  let f := fun (k : Ticket) =>
    let late := match k.deadline with
      | none => false
      | some d => decide (d < e)
    match k.failed with
    | some (c, op) => { k with phase := .ended, status := 3, cause := c, detail := op, endStamp := e, lateFlag := late }
    | none =>
      match k.suspectBy with
      | some c => { k with phase := .ended, status := 1, detail := c, endStamp := e, lateFlag := late }
      | none => { k with phase := .ended, status := 0, endStamp := e, lateFlag := late }
  let s1 := (s.led.tickets.filter (fun k => k.stream == st && k.seq == q)).foldl (fun a k => watchEnd k a) (modTicket st q f s)
  { s1 with led := { s1.led with lastEnd := some s.time.now } }

/-- The lowest-numbered ticket of a stream that is not yet delivered (R212). -/
def nextToDeliver (st : Nat) (s : State) : Option Ticket :=
  s.led.tickets.find? (fun k => k.stream == st && decide (k.phase ≠ .delivered))

/-- Signal an outcome under the coalescing rules of R213. -/
def signalOutcome (st : Nat) (isVoid : Bool) (s : State) : State :=
  let x := strm st s
  let n := x.unsig + 1
  if isVoid || decide (x.coalCnt ≤ n) || decide (x.coalCnt ≤ 1) then
    sendVec x.port x.vector (modStrm st (fun y => { y with unsig := 0 }) s)
  else modStrm st (fun y => { y with unsig := n, unsigAt := if x.unsig = 0 then s.time.now else y.unsigAt }) s

/-- Deliver one ENDED outcome (R212): ring entry, producer index, counts, watermark, VOID bit, vector. -/
def deliverOutcome (k : Ticket) (s : State) : State :=
  let st := k.stream
  let x := strm st s
  let isVoid := decide (k.status = 2)
  let upd := fun (y : Strm) => { y with
    prod := wrapAdd 16 y.prod 1
    watermark := k.seq
    voids := if isVoid then satAdd 16 y.voids 1 else y.voids
    late := if k.lateFlag then satAdd 16 y.late 1 else y.late
    suspect := if k.status = 1 then satAdd 16 y.suspect 1 else y.suspect
    voidSeqs := if isVoid then y.voidSeqs ++ [k.seq] else y.voidSeqs }
  let d := liveDie x.home s
  let s1 := modTicket st k.seq (fun y => { y with phase := .delivered }) (modStrm st upd s)
  let s2 := traceEv d 0xE0 0x11 (k.seq % 2 ^ 24 + k.status * 2 ^ 24) s1
  if x.secure then
    { s2 with led := { s2.led with secureOut := s2.led.secureOut ++ [(st, outcomeBytes k 0 s.power.jepoch)] } }
  else
    let size := ringSize x
    let phase := if x.prod / size % 2 = 0 then 1 else 0
    let s3 := hostWr x.port (x.outBase + x.prod % size * 64) (outcomeBytes k phase s.power.jepoch) s2
    signalOutcome st isVoid s3

/-- Consume `n` delivered outcomes of a stream: their journal entries become FREE (R202, R212). -/
def freeDelivered (st : Nat) : Nat → List Ticket → List Ticket
  | 0, ts => ts
  | _, [] => []
  | n + 1, k :: ts => if k.stream = st ∧ k.phase = .delivered then freeDelivered st n ts else k :: freeDelivered st (n + 1) ts

/-! ### Tokens on edges (R57) -/

/-- An edge. -/
def edge (e : Nat) (s : State) : Edge := tget {} e s.fab.edges

/-- Change an edge. -/
def modEdge (e : Nat) (f : Edge → Edge) (s : State) : State :=
  { s with fab := { s.fab with edges := tmod {} e f s.fab.edges } }

/-- Send a token: one credit is spent and the token is in flight. -/
def sendToken (e : Nat) (tk : Token) (s : State) : State :=
  modEdge e (fun x => { x with credits := x.credits - 1, flight := x.flight ++ [tk] }) s

end Sys2Proof.Machine
end

