-- ==== Sys2Proof/Machine/Image.lean ====
section
/-!
DEFINITION. Reading a pattern image: header, section table, stitches, and the typed views of the portable stitches
(R82 to R94).
-/

namespace Sys2Proof.Machine

/-- "none" wherever an ID is referenced (R85). -/
def noneId : Nat := 0xFFFFFFFF

/-- The stitches of the bytes of a section, as far as they parse (R85). -/
def parseStitches (sec : Nat) : Nat → List Byte → List Stitch
  | 0, _ => []
  | n + 1, bs =>
    let len := fieldLe bs 2 2
    if bs.length < 8 ∨ len < 8 ∨ bs.length < len then []
    else ⟨sec, fieldLe bs 0 1, fieldLe bs 4 4, bs.take len⟩ :: parseStitches sec n (bs.drop len)

/-- Entry `i` of the section table: kind, layer, offset, length, stitches (R83). -/
def secEntry (raw : List Byte) (i : Nat) : Nat × Nat × Nat × Nat × Nat :=
  let o := 64 + 16 * i
  (fieldLe raw o 1, fieldLe raw (o + 1) 1, fieldLe raw (o + 4) 4, fieldLe raw (o + 8) 4, fieldLe raw (o + 12) 4)

/-- The bytes `[o, o + n)` of an image. -/
def slice (raw : List Byte) (o n : Nat) : List Byte := (raw.drop o).take n

/-- An image taken apart. -/
def parseImage (raw : List Byte) : Image :=
  let secs := (List.range (min 16 (fieldLe raw 12 2))).map (secEntry raw)
  { portableVer := fieldLe raw 6 1
    flags := fieldLe raw 7 1
    totalLen := fieldLe raw 8 4
    patternId := fieldLe raw 16 8
    generation := fieldLe raw 24 4
    baseGen := fieldLe raw 28 4
    secVersion := fieldLe raw 32 2
    targetMember := fieldLe raw 34 2
    steppingMask := fieldLe raw 36 1
    secs := secs
    stitches := secs.flatMap (fun e => parseStitches e.1 (e.2.2.2.1 / 8 + 1) (slice raw e.2.2.1 e.2.2.2.1)) }

/-- FLAGS of the header (R82). -/
def Image.fitted (im : Image) : Bool := bit im.flags 0
def Image.isPatch (im : Image) : Bool := bit im.flags 1
def Image.stackAlts (im : Image) : Bool := bit im.flags 2

/-- A section is present. -/
def Image.has (im : Image) (sec : Nat) : Bool := im.secs.any (fun e => e.1 == sec)

/-- The stitches of a kind in a section. -/
def Image.of (im : Image) (sec kind : Nat) : List Stitch :=
  im.stitches.filter (fun t => t.sec == sec && t.kind == kind)

/-- A stitch by section, kind and ID. -/
def Image.find (im : Image) (sec kind id : Nat) : Option Stitch :=
  (im.of sec kind).find? (fun t => t.id == id)

/-- Fields of a stitch, at offsets from its first byte. -/
def Stitch.u8 (t : Stitch) (o : Nat) : Nat := fieldLe t.bytes o 1
def Stitch.u16 (t : Stitch) (o : Nat) : Nat := fieldLe t.bytes o 2
def Stitch.u32 (t : Stitch) (o : Nat) : Nat := fieldLe t.bytes o 4
def Stitch.u64 (t : Stitch) (o : Nat) : Nat := fieldLe t.bytes o 8

/-- An operator (R89). -/
structure GOp where
  id : Nat
  opcode : Nat
  nIn : Nat
  nOut : Nat
  satFatal : Bool
  prio : Nat
  fuse : Nat
  ins : List Nat
  outs : List Nat
  params : List Byte
  deriving DecidableEq, Repr

/-- The operator of an OP stitch. -/
def gop (t : Stitch) : GOp :=
  { id := t.id, opcode := t.u16 8, nIn := t.u8 10, nOut := t.u8 11, satFatal := bit (t.u16 12) 0, prio := t.u16 14
    fuse := t.u32 16
    ins := (List.range (min 8 (t.u8 10))).map (fun i => t.u32 (20 + 4 * i))
    outs := (List.range (min 4 (t.u8 11))).map (fun i => t.u32 (52 + 4 * i))
    params := slice t.bytes 72 (t.u16 68) }

/-- A tensor descriptor (R87). -/
structure GTen where
  id : Nat
  fmt : Nat
  rank : Nat
  role : Nat
  hostAllowed : Bool
  perChannel : Bool
  external : Bool
  sparse : Bool
  prio : Nat
  qaxis : Nat
  zp : Int
  dims : List Nat
  scale : Nat
  scaleT : Nat
  ref : Nat
  len : Nat
  digest : List Byte
  deriving DecidableEq, Repr

/-- The tensor of a TENSOR stitch. -/
def gten (t : Stitch) : GTen :=
  { id := t.id, fmt := t.u8 8, rank := t.u8 9, role := t.u8 10
    hostAllowed := bit (t.u8 11) 0, perChannel := bit (t.u8 11) 1, external := bit (t.u8 11) 2, sparse := bit (t.u8 11) 3
    prio := t.u16 12, qaxis := t.u8 14, zp := sext 8 (t.u8 15)
    dims := (List.range 6).map (fun i => t.u32 (16 + 4 * i))
    scale := t.u32 40, scaleT := t.u32 44, ref := t.u64 48, len := t.u64 56, digest := slice t.bytes 64 32 }

/-- An edge of the graph (R90). -/
structure GEdge where
  id : Nat
  src : Nat
  dst : Nat
  tensor : Nat
  srcKind : Nat
  srcPort : Nat
  dstKind : Nat
  dstPort : Nat
  depth : Nat
  init : Nat
  consume : Nat
  produce : Nat
  deriving DecidableEq, Repr

/-- The edge of an EDGE stitch. -/
def gedge (t : Stitch) : GEdge :=
  { id := t.id, src := t.u32 8, dst := t.u32 12, tensor := t.u32 16, srcKind := t.u8 20, srcPort := t.u8 21
    dstKind := t.u8 22, dstPort := t.u8 23, depth := t.u8 24, init := t.u8 25, consume := t.u8 26, produce := t.u8 27 }

/-- The typed views of an image. -/
def Image.ops (im : Image) : List GOp := (im.of 0x05 1).map gop
def Image.tensors (im : Image) : List GTen := (im.of 0x04 1).map gten
def Image.edges (im : Image) : List GEdge := (im.of 0x06 1).map gedge
def Image.op (im : Image) (id : Nat) : Option GOp := (im.find 0x05 1 id).map gop
def Image.tensor (im : Image) (id : Nat) : Option GTen := (im.find 0x04 1 id).map gten
def Image.edge (im : Image) (id : Nat) : Option GEdge := (im.find 0x06 1 id).map gedge

/-- The world of an object by its WORLD OBJECT kind (R93): true = secure. -/
def Image.secure (im : Image) (objKind id : Nat) : Bool :=
  (im.of 0x0C 1).any (fun t => t.u8 8 == objKind && t.u8 9 == 1 && (objKind == 6 || t.u32 12 == id))

/-- A BUDGET of an object in W (R92). -/
def Image.budget (im : Image) (objKind id : Nat) : Option Nat :=
  ((im.of 0x0B 2).find? (fun t => t.u8 8 == objKind && t.u32 12 == id)).map (·.u16 10)

/-- The operators that share a mitten with an operator: its fused group, or itself (R89). -/
def Image.unit (im : Image) (op : Nat) : List GOp :=
  match im.op op with
  | none => []
  | some o => if o.fuse = noneId then [o] else im.ops.filter (fun p => p.fuse == o.fuse)

/-- The naming operator of a unit: the lowest operator ID. -/
def Image.naming (im : Image) (op : Nat) : Nat := ((im.unit op).map (·.id)).foldl min op

/-- An edge whose producer and consumer are operators of one fused group (R89). -/
def Image.isInternal (im : Image) (e : GEdge) : Bool :=
  e.srcKind == 0 && e.dstKind == 0 && im.naming e.src == im.naming e.dst
    && (match im.op e.src with
        | none => false
        | some o => o.fuse != noneId)

/-- The pattern in force; the empty image without one. -/
def curImage (s : State) : Image := s.pat.image.getD {}

/-- The EDGE stitch of an edge of the pattern in force. -/
def gEdgeOf (e : Nat) (s : State) : Option GEdge := (curImage s).edge e

/-- A mitten. -/
def mitten (m : Nat) (s : State) : Mitten := tget {} m s.fab.mittens

/-- Change a mitten. -/
def modMitten (m : Nat) (f : Mitten → Mitten) (s : State) : State :=
  { s with fab := { s.fab with mittens := tmod {} m f s.fab.mittens } }

/-- Change every listed mitten. -/
def mapMittens (f : Nat → Mitten → Mitten) (s : State) : State :=
  { s with fab := { s.fab with mittens := tmapAll {} f s.fab.mittens } }

/-- Numbers of the bound mittens, ascending. -/
def boundMittens (s : State) : List Nat := (s.fab.mittens.filter (fun e => e.2.bound)).map (·.1)

/-- The mitten an operator is bound to. -/
def mittenOf (op : Nat) (s : State) : Option Nat :=
  let nm := (curImage s).naming op
  (boundMittens s).find? (fun m => (mitten m s).op == nm)

/-- The operators of a mitten. -/
def unitOf (m : Nat) (s : State) : List GOp := (curImage s).unit (mitten m s).op

/-- The input edges of a mitten: external edges into one of its operators. -/
def inEdges (m : Nat) (s : State) : List GEdge :=
  let im := curImage s
  let ids := (unitOf m s).map (·.id)
  im.edges.filter (fun e => e.dstKind == 0 && ids.contains e.dst && !im.isInternal e)

/-- The output edges of a mitten. -/
def outEdges (m : Nat) (s : State) : List GEdge :=
  let im := curImage s
  let ids := (unitOf m s).map (·.id)
  im.edges.filter (fun e => e.srcKind == 0 && ids.contains e.src && !im.isInternal e)

/-- The stream number of a STREAM stitch. -/
def streamNumber (id : Nat) (s : State) : Option Nat := ((curImage s).find 0x02 1 id).map (·.u8 8)

/-- The edges an endpoint of a kind and object produces into, with their sub-ports. -/
def edgesFrom (kind id : Nat) (s : State) : List GEdge :=
  (curImage s).edges.filter (fun e => e.srcKind == kind && e.src == id)

/-- The edges an endpoint of a kind and object consumes from. -/
def edgesTo (kind id : Nat) (s : State) : List GEdge :=
  (curImage s).edges.filter (fun e => e.dstKind == kind && e.dst == id)

/-- The token that arrives next on an edge. -/
def arriving (e : Nat) (s : State) : Option Token := (edge e s).flight.head?

/-- Take the arriving token off an edge, returning its credit at once. -/
def takeArriving (e : Nat) (s : State) : State :=
  modEdge e (fun x => { x with flight := x.flight.drop 1, creditFlight := x.creditFlight + 1 }) s

/-- Send a token on an edge that has a credit; without one it is not offered. -/
def offerToken (e : Nat) (tk : Token) (s : State) : State :=
  if (edge e s).credits = 0 then s else sendToken e tk s

/-- The SIGNATURE section starts here. -/
def Image.sigOffset (im : Image) : Nat := ((im.secs.find? (fun e => e.1 == 0x1F)).map (·.2.2.1)).getD 0

/-- Bytes of a section of a raw image. -/
def secBytes (raw : List Byte) (im : Image) (sec : Nat) : List Byte :=
  match im.secs.find? (fun e => e.1 == sec) with
  | none => []
  | some e => slice raw e.2.2.1 e.2.2.2.1

/-- Bits of one element of a format (R88). -/
def fmtBits (f : Nat) : Nat :=
  match f with
  | 0x01 | 0x08 => 4
  | 0x02 | 0x04 | 0x05 | 0x06 | 0x07 | 0x0D => 8
  | 0x09 | 0x0A => 16
  | 0x0C => 64
  | _ => 32

/-- Elements of a tensor. -/
def GTen.elems (x : GTen) : Nat := (x.dims.take x.rank).foldl (· * ·) 1

/-- Packed size in bytes of a tensor (R64): a 2:4-compressed tensor keeps half of its values with 2-bit positions. -/
def GTen.size (x : GTen) : Nat :=
  let n := x.elems
  if x.sparse then (n / 2 * fmtBits x.fmt + 7) / 8 + (n / 2 * 2 + 7) / 8 else (n * fmtBits x.fmt + 7) / 8

/-- Packed size of the tensor an edge carries. -/
def edgeSize (e : GEdge) (s : State) : Nat := (((curImage s).tensor e.tensor).map GTen.size).getD 0

end Sys2Proof.Machine
end

