-- ==== Sys2Proof/Machine/FaultSrc.lean ====
section
/-!
DEFINITION. Severities, floors and parts of the fault sources (R348, R349, R350).
-/

namespace Sys2Proof.Machine

/-- Severity codes: NOTE 0, MINOR 1, MAJOR 2, GRAVE 3. Default and floor of a source by its index (R349);
a reserved index is NOTE. -/
def sevFloor (i : Nat) : Nat × Nat :=
  if i < 0x0A8 then (2, 2)
  else if i < 0x0C0 then
    (match (i - 0x0A8) % 12 with
     | 0 | 2 | 10 | 11 => (0, 0)
     | 1 | 3 => (1, 1)
     | 7 => (1, 0)
     | _ => (2, 2))
  else if i < 0x0F0 then
    (match (i - 0x0C0) % 8 with
     | 0 => (0, 0)
     | 1 | 4 => (1, 1)
     | 2 => (1, 0)
     | _ => (2, 2))
  else if i < 0x0F8 then (1, 0)
  else if i < 0x100 then (if (i - 0x0F8) % 4 = 2 then (2, 1) else (1, 0))
  else if i < 0x130 then (1, 0)
  else if i < 0x140 then (if i % 2 = 0 then (2, 2) else (1, 1))
  else if i < 0x150 then
    (match i with
     | 0x140 => (1, 0)
     | 0x141 => (1, 1)
     | 0x144 | 0x148 => (2, 2)
     | 0x149 | 0x14A | 0x14B | 0x14C | 0x14D | 0x14E => (1, 1)
     | _ => (0, 0))
  else if i < 0x180 then
    (match (i - 0x150) % 6 with
     | 0 | 1 => (2, 1)
     | 2 => (1, 0)
     | 3 => (2, 2)
     | 4 => (1, 1)
     | _ => (0, 0))
  else if i < 0x190 then (1, 0)
  else if i < 0x198 then
    (match i with
     | 0x193 => (2, 2)
     | 0x190 | 0x191 | 0x192 | 0x194 => (1, 0)
     | _ => (0, 0))
  else if i < 0x1A0 then
    (match i with
     | 0x199 | 0x19A | 0x19B | 0x19C | 0x19D | 0x19E => (2, 2)
     | _ => (0, 0))
  else if i < 0x1A8 then
    (match i with
     | 0x1A0 | 0x1A1 | 0x1A2 => (2, 2)
     | 0x1A3 | 0x1A4 | 0x1A5 => (1, 0)
     | _ => (0, 0))
  else if i < 0x1B0 then
    (match i with
     | 0x1A8 | 0x1AB | 0x1AC | 0x1AD => (2, 2)
     | _ => (1, 0))
  else if i < 0x1C0 then
    (match i with
     | 0x1B1 | 0x1B2 | 0x1B3 | 0x1BF => (2, 2)
     | 0x1B5 | 0x1BB | 0x1BC => (2, 1)
     | 0x1B8 => (0, 0)
     | 0x1B9 | 0x1BD | 0x1BE => (3, 3)
     | _ => (1, 0))
  else if i < 0x200 then (2, 2)
  else if i < 0x300 then (0, 0)
  else (2, 1)

/-- The default severity of a source. -/
def sevDefault (id : Nat) : Nat := (sevFloor (id % 0x400)).1

/-- The floor of a source: the firmware profile may not lower it further (R350). -/
def sevLeast (id : Nat) : Nat := (sevFloor (id % 0x400)).2

/-- The severity in force (R350). -/
def sevOf (id : Nat) (s : State) : Nat :=
  match s.fault.profile.find? (fun e => e.1 == id) with
  | none => sevDefault id
  | some e => e.2

/-- PART of a source in the model's part numbering; 0xFF none (R349). -/
def srcPart (id : Nat) : Nat :=
  let h := id / 0x400
  let i := id % 0x400
  if i < 0x0A8 then quadPart (h * 168 + i)
  else if i < 0x0C0 then
    (if (i - 0x0A8) % 12 = 4 ∨ (i - 0x0A8) % 12 = 5 ∨ (i - 0x0A8) % 12 = 6 ∨ (i - 0x0A8) % 12 = 8
        ∨ (i - 0x0A8) % 12 = 9 then 2 * h + (i - 0x0A8) / 12 else 0xFF)
  else if i < 0x0F0 then
    (if (i - 0x0C0) % 8 = 3 ∨ 5 ≤ (i - 0x0C0) % 8 then 0x10 + 6 * h + (i - 0x0C0) / 8 else 0xFF)
  else if i < 0x0F8 then 0xFF
  else if i < 0x100 then (if (i - 0x0F8) % 4 = 2 then 0x28 + 2 * h + (i - 0x0F8) / 4 else 0xFF)
  else if i < 0x130 then 0xFF
  else if i < 0x140 then (if i % 2 = 0 then 0x30 + 8 * h + (i - 0x130) / 2 else 0xFF)
  else if i = 0x148 then 4 + h
  else if 0x150 ≤ i ∧ i < 0x180 then (if (i - 0x150) % 6 = 3 then 0x40 + h else 0xFF)
  else if i = 0x193 ∨ i = 0x19B then 0x48 + h
  else if i = 0x1A0 then 5 - h
  else if i = 0x1B1 ∨ i = 0x1B3 then 4 + h
  else if i = 0x1A8 ∨ i = 0x1B2 then 0x51 - h
  else if i = 0x1AB ∨ i = 0x1AC ∨ i = 0x1AD then 0x50 + h
  else 0xFF

/-- A profile that lowers a source below its floor is refused at boot (R350). -/
def profileOk (p : List (Nat × Nat)) : Bool := p.all (fun e => decide (e.1 < 2048 ∧ sevLeast e.1 ≤ e.2 ∧ e.2 ≤ 3))

end Sys2Proof.Machine
end

