-- ==== Sys2Proof/Machine/Fault.lean ====
section
/-!
DEFINITION. Fault collection and reaction: recognition of raises, records, reaction timers, the safe request
(R346 to R355, R360, R366).
-/

namespace Sys2Proof.Machine

open Host (Outcome)

/-- A collector. -/
def coll (c : Nat) (s : State) : Collector := if c = 0 then s.fault.c0 else s.fault.c1

/-- Change a collector. -/
def modColl (c : Nat) (f : Collector → Collector) (s : State) : State :=
  if c = 0 then { s with fault := { s.fault with c0 := f s.fault.c0 } }
  else { s with fault := { s.fault with c1 := f s.fault.c1 } }

/-- An island. -/
def island (i : Nat) (s : State) : Island := if i = 0 then s.isl.a else s.isl.b

/-- An island's firmware runs voted (not silent, not split). -/
def islandVoted (i : Nat) (s : State) : Bool :=
  match (island i s).vote with
  | .triple | .pair => true
  | _ => false

/-- Firmware answers collector `c`: its own island's, voted or split in one island; the other island's when that one is
voted; none with both islands in split mode (R355). -/
def fwHandles (c : Nat) (s : State) : Bool := islandVoted c s || islandVoted (1 - c) s

/-! ### Records (R351, R352) -/

/-- The 32 bytes of a record in the host copy: DETAIL is 0 when SECURE is set. -/
def recBytes (r : FaultRec) (phase : Nat) : List Byte :=
  leBytes 8 r.stamp ++ leBytes 2 (r.source + 2048 * r.sev + 8192 * b2n r.wire + 16384 * b2n r.merged)
    ++ leBytes 1 r.part ++ leBytes 1 r.action ++ leBytes 2 r.quad ++ leBytes 2 r.count
    ++ leBytes 4 (if r.secure then 0 else r.detail) ++ leBytes 4 r.done ++ leBytes 4 r.rseq ++ leBytes 2 r.jepoch
    ++ leBytes 1 (b2n r.coarse + 2 * b2n r.budgetExt + 4 * b2n r.secure + 128 * phase) ++ leBytes 1 0

/-- Copy a record to the host ring at or above MIN_SEV (R351). -/
def copyRec (r : FaultRec) (s : State) : State :=
  if s.fault.ringEnable ∧ s.fault.ringMinSev ≤ r.sev then
    let k := s.fault.ringWr
    let phase := if k / 1024 % 2 = 0 then 1 else 0
    let s1 := hostWr s.fault.ringPort (s.fault.ringBase + k % 1024 * 32) (recBytes r phase) s
    { s1 with fault := { s1.fault with ringWr := wrapAdd 16 k 1 } }
  else s

/-- Write a record: the island's ring, the trace event of kind 0x20, the host copy. -/
def writeRec (c : Nat) (r : FaultRec) (s : State) : State :=
  let n := (coll c s).rseq
  let r1 := { r with rseq := n, jepoch := s.power.jepoch }
  let s1 := modColl c (fun x => { x with
    faults := if r.sev = 0 then x.faults else satAdd 32 x.faults 1, rseq := wrapAdd 32 n 1, ring := tset {} (n % 4096) r1 x.ring }) s
  copyRec r1 (traceEv c (0x50 + c) 0x20 (r.source + 2048 * r.sev) s1)

/-- The record of a raise of source `id` with an action. -/
def raiseRec (id action : Nat) (s : State) : FaultRec :=
  let x := fsrc id s
  let p := if x.part = 0xFF then srcPart id else x.part
  { stamp := stamp (id / 0x400) s
    source := id, sev := sevOf id s, wire := x.wire
    part := partId p, quad := partQuad p
    action := action, count := x.count, detail := x.detail
    coarse := !fineClock (id / 0x400) s, secure := x.secure }

/-- The vector of records of severity MINOR and above (R353). -/
def faultVec (s : State) : State := sendVec s.fault.ringPort s.fault.ringVector s

/-- Timers running in a collector (FAULT_STATUS.ACTIVE_MAJOR). -/
def timersRunning (c : Nat) (s : State) : Nat :=
  (s.fault.src.filter (fun e => e.1 / 0x400 == c && e.2.timer.isSome)).length

/-- Ask for the module safe state: the causing source and the code of FAULT_SAFE.CAUSE (R358). A request stands once. -/
def askSafe (id cause : Nat) (s : State) : State :=
  if s.fault.safeReq.isSome ∨ s.power.safe then s
  else { s with fault := { s.fault with safeReq := some (id, cause, stamp (id / 0x400) s) } }

/-- The source's action is complete: the second record with DONE, the clear, the timer freed (R351, R354). -/
def completeSrc (id action : Nat) (s : State) : State :=
  let c := id / 0x400
  let s1 := writeRec c { raiseRec id action s with done := shortStamp c s } s
  let s2 := modSrc id (fun x => { x with timer := none, active := false, latched := x.wire }) s1
  modColl c (fun x => { x with open_ := x.open_.filter (· != id) }) s2

/-- A reaction timer expires (R354): hardware isolates PART, or the safe state when there is none. -/
def expireSrc (id : Nat) (s : State) : State :=
  let p := if (fsrc id s).part = 0xFF then srcPart id else (fsrc id s).part
  if p = 0xFF then askSafe id 2 (completeSrc id 6 s)
  else
    let s1 := modSrc id (fun x => { x with timer := none }) s
    { s1 with fault := { s1.fault with isoPend := s1.fault.isoPend ++ [⟨p, some id, 4, s.time.now⟩] } }

/-- Act on a recognized MAJOR raise (R353, R354, R366). -/
def actMajor (id : Nat) (grave : Bool) (s : State) : State :=
  let c := id / 0x400
  let p := if (fsrc id s).part = 0xFF then srcPart id else (fsrc id s).part
  if grave then
    modSrc id (fun x => { x with active := true }) (faultVec (writeRec c (raiseRec id 5 s) s))
  else if p ≠ 0xFF ∧ isIso p s then
    modSrc id (fun x => { x with latched := x.wire, active := false }) (faultVec (writeRec c (raiseRec id 8 s) s))
  else
    let s1 := faultVec (writeRec c (raiseRec id 1 s) s)
    let s2 := modSrc id (fun x => { x with active := true }) s1
    let s3 := modColl c (fun x => { x with open_ := x.open_ ++ [id] })
      { s2 with fault := { s2.fault with budget := some (id, (fsrc id s).since, s.time.now, 0, 0) } }
    if 32 ≤ timersRunning c s then expireSrc id s3
    else modSrc id (fun x => { x with timer := some s.time.now }) s3

/-- Recognize the latched raises of one source (R346, R351, R353): the count advances; a source still raised writes no
further record; the severity decides the rest. In SAFE a raise is recorded only (R358). -/
def recognize (grave : Bool) (id : Nat) (s : State) : State :=
  let c := id / 0x400
  let x := fsrc id s
  if x.hits = 0 then s
  else
    let s1 := modSrc id (fun y => { y with count := satAdd 16 y.count y.hits, hits := 0 }) s
    if x.active then s1
    else
      let sev := sevOf id s
      if s.power.safe ∧ sev < 3 then
        modSrc id (fun y => { y with latched := y.wire }) (writeRec c (raiseRec id 0 s1) s1)
      else if sev ≤ 1 then
        let s2 := modSrc id (fun y => { y with latched := y.wire }) s1
        let soon := match x.lastRec with
          | none => false
          | some l => decide (s.time.now < l + 1000000)
        if soon then s2
        else
          let s3 := modSrc id (fun y => { y with lastRec := some s.time.now }) (writeRec c (raiseRec id sev s1) s2)
          if sev = 1 then faultVec s3 else s3
      else if sev = 2 then actMajor id grave s1
      else
        let s2 := faultVec (writeRec c (raiseRec id 5 s1) s1)
        let s3 := modColl c (fun y => { y with grave := true }) (modSrc id (fun y => { y with active := true }) s2)
        askSafe id 1 s3

/-- Source IDs of a collector with raises not yet recognized, ascending. -/
def pendingSrcs (c : Nat) (s : State) : List Nat :=
  (s.fault.src.filter (fun e => e.1 / 0x400 == c && decide (e.2.hits ≠ 0))).map (·.1)

/-- A collector recognizes every latched source of its sample, in ascending ID (R346, R366). During the start-up sweep only
a GRAVE raise is acted on; the others wait for its end (R365). -/
def recognizeAll (c : Nat) (s : State) : State :=
  let ids := pendingSrcs c s
  let grave := ids.any (fun i => sevOf i s == 3)
  let now := if s.fault.sweepAt.isSome then ids.filter (fun i => sevOf i s == 3) else ids
  now.foldl (fun a i => recognize grave i a) s

/-- A line's source lies in an unpowered domain, so its gate holds it idle (R347): the fast domains in RETAIN and OFF. -/
def lineGated (id : Nat) (s : State) : Bool :=
  (match s.power.st with
   | .retain | .off => true
   | _ => false) && decide (id % 0x400 < 0x198)

/-- FAULT_LINE_BROKEN (R347): the wire-fault source is raised with the line's index, and the line's own source is treated
as raised with WIRE set. -/
def lineBroken (id : Nat) (s : State) : State :=
  if lineGated id s then s
  else
    let c := id / 0x400
    let s1 := latch id (fsrc id s).detail (modSrc id (fun x => { x with wire := true }) s)
    latch (c * 0x400 + 0x1BF) (id % 0x400) s1

def execFaultLineBroken (t id : Nat) (s : State) : Outcome State Fault Refusal :=
  .next (lineBroken id (advanceTo t s))

/-- The timer value of a source, ns (R354, R435). -/
def timerNsOf (id : Nat) (s : State) : Nat :=
  match s.fault.timers.find? (fun e => e.1 == id) with
  | none => (coll (id / 0x400) s).timerNs
  | some e => e.2 * 1000

/-- The timer of a source has run out. -/
def timerDue (id : Nat) (s : State) : Bool :=
  match (fsrc id s).timer with
  | none => false
  | some a => decide (a + timerNsOf id s ≤ s.time.now)

/-- REACTION_TIMER_EXPIRE (R354). -/
def timerExpire (id : Nat) (s : State) : State := if timerDue id s then expireSrc id s else s

def execReactionTimerExpire (t src : Nat) (s : State) : Outcome State Fault Refusal :=
  .next (timerExpire src (advanceTo t s))

/-- FW_FAULT_ACK (R354, R366): ends the timer with ACTION ACKED; in the cycle of the expiry, the expiry comes first and
the acknowledgement is ignored. -/
def fwAck (id : Nat) (s : State) : State :=
  if timerDue id s then expireSrc id s
  else if (fsrc id s).timer.isSome ∧ fwHandles (id / 0x400) s then
    completeSrc id 2 s
  else s

def execFwFaultAck (t src : Nat) (s : State) : Outcome State Fault Refusal := .next (fwAck src (advanceTo t s))

/-- FW_ISOLATE_CMD (R354): firmware commands the isolation of PART or of a part it names, which ends the timer; the
reaction ends once the isolation is confirmed. -/
def fwIsolate (id part : Nat) (s : State) : State :=
  if timerDue id s then expireSrc id s
  else if (fsrc id s).timer.isSome ∧ fwHandles (id / 0x400) s then
    let s1 := modSrc id (fun x => { x with timer := none }) s
    { s1 with fault := { s1.fault with isoPend := s1.fault.isoPend ++ [⟨part, some id, 3, s.time.now⟩] } }
  else s

def execFwIsolateCmd (t src part : Nat) (s : State) : Outcome State Fault Refusal :=
  .next (fwIsolate src part (advanceTo t s))

/-- The isolation command pending for a part. -/
def isoCmd (part : Nat) (s : State) : Option IsoCmd := s.fault.isoPend.find? (fun x => x.part == part)

/-- Drop the pending commands for a part. -/
def dropIso (part : Nat) (s : State) : State :=
  { s with fault := { s.fault with isoPend := s.fault.isoPend.filter (fun x => x.part != part) } }

/-- ISOLATION_UNCONFIRMED (R354, R356): 5 µs after the command the gate has not reported closed: the safe state. -/
def isoUnconfirmed (part : Nat) (s : State) : State :=
  match isoCmd part s with
  | none => s
  | some x =>
    if x.at_ + 5000 < s.time.now then
      let s1 := dropIso part s
      match x.src with
      | some id => askSafe id 2 (completeSrc id 6 s1)
      | none => askSafe (partHalf part * 0x400 + 0x1C0) 2 s1
    else s

def execIsolationUnconfirmed (t part : Nat) (s : State) : Outcome State Fault Refusal :=
  .next (isoUnconfirmed part (advanceTo t s))

/-! ### Collector register parity (R360) -/

/-- The oldest raised source of a collector that is not complete. -/
def oldestOpen (c : Nat) (s : State) : Option Nat := (coll c s).open_.head?

/-- COLLECTOR_PARITY_ERROR (R360): DIRECT asks for the safe state; MERGE merges the error into the oldest raised source
that is not complete, or raises the collector-register-parity source as a partless MAJOR fault. -/
def collectorParity (c : Nat) (s : State) : State :=
  let id := c * 0x400 + 0x144
  if !(coll c s).merge then
    let s1 := modSrc id (fun x => { x with count := satAdd 16 x.count 1, latched := true, active := true }) s
    askSafe id 3 (writeRec c (raiseRec id 7 s1) s1)
  else
    match oldestOpen c s with
    | none => recognize false id (latch id 0 s)
    | some o =>
      if timerDue o s then
        let s1 := expireSrc o s
        writeRec c { raiseRec o 1 s1 with merged := true, sev := max 2 (sevOf o s) } s1
      else
        let s1 := modSrc o (fun x => { x with timer := some (x.timer.getD s.time.now) }) s
        writeRec c { raiseRec o 1 s1 with merged := true, sev := max 2 (sevOf o s) } s1

def execCollectorParityError (t col : Nat) (s : State) : Outcome State Fault Refusal :=
  .next (collectorParity col (advanceTo t s))

end Sys2Proof.Machine
end

