-- ==== Sys2Proof/Machine/Float.lean ====
section
/-!
DEFINITION. The number formats of R63, with conversion, rounding to nearest with ties to even (R66), exact dyadic
arithmetic and the correctly rounded operations of R77 (add, multiply, FMA, divide, square root).
-/

namespace Sys2Proof.Machine

/-- A binary floating-point format: exponent bits, fraction bits, bias, and whether it has infinities and NaNs as
IEEE 754 has them (`special` 0), a single NaN pattern and no infinity (1, E4M3) or neither (2, E2M1). -/
structure Fmt where
  e : Nat
  m : Nat
  bias : Int
  special : Nat
  deriving DecidableEq, Repr

def fp32 : Fmt := ⟨8, 23, 127, 0⟩
def fp64 : Fmt := ⟨11, 52, 1023, 0⟩
def fp16 : Fmt := ⟨5, 10, 15, 0⟩
def bf16 : Fmt := ⟨8, 7, 127, 0⟩
def e4m3 : Fmt := ⟨4, 3, 7, 1⟩
def e5m2 : Fmt := ⟨5, 2, 15, 0⟩
def e2m1 : Fmt := ⟨2, 1, 1, 2⟩

/-- A floating-point value: `fin neg n e` is ± n × 2^e. -/
inductive FVal where
  | nan
  | inf (neg : Bool)
  | fin (neg : Bool) (n : Nat) (e : Int)
  deriving DecidableEq, Repr

/-- Width of a format in bits. -/
def Fmt.width (f : Fmt) : Nat := f.e + f.m + 1

/-- Largest finite magnitude as an encoding without its sign. -/
def Fmt.maxEnc (f : Fmt) : Nat :=
  if f.special = 0 then (2 ^ f.e - 1) * 2 ^ f.m - 1
  else if f.special = 1 then 2 ^ (f.e + f.m) - 2
  else 2 ^ (f.e + f.m) - 1

/-- The default NaN. -/
def Fmt.nanBits (f : Fmt) : Nat :=
  if f.special = 0 then (2 ^ f.e - 1) * 2 ^ f.m + 2 ^ (f.m - 1) else 2 ^ (f.e + f.m) - 1

/-- Value of an encoding (R63). -/
def Fmt.decode (f : Fmt) (b : Nat) : FVal :=
  let mag := b % 2 ^ (f.e + f.m)
  let neg := b / 2 ^ (f.e + f.m) % 2 == 1
  let ex := mag / 2 ^ f.m
  let fr := mag % 2 ^ f.m
  if f.special = 0 && ex == 2 ^ f.e - 1 then (if fr = 0 then .inf neg else .nan)
  else if f.special = 1 && mag == 2 ^ (f.e + f.m) - 1 then .nan
  else if ex = 0 then .fin neg fr (1 - f.bias - f.m)
  else .fin neg (2 ^ f.m + fr) (ex - f.bias - f.m)

/-- Number of bits of a natural number. -/
def bitLen (n : Nat) : Nat := if n = 0 then 0 else Nat.log2 n + 1

/-- Round n × 2^e (plus less than one unit of n when `sticky`) to the significand grid of the format:
the encoding without sign, which exceeds `maxEnc` on overflow. -/
def Fmt.roundMag (f : Fmt) (n : Nat) (e : Int) (sticky : Bool) : Nat :=
  if n = 0 then 0
  else
    let top := e + bitLen n - 1
    let q := max top (1 - f.bias) - f.m
    let mant :=
      if q ≤ e then n * 2 ^ (e - q).toNat
      else
        let s := (q - e).toNat
        let fl := n / 2 ^ s
        let rem := n % 2 ^ s
        let half := 2 ^ (s - 1)
        if half < rem ∨ (rem = half ∧ (sticky ∨ fl % 2 = 1)) then fl + 1 else fl
    if mant < 2 ^ f.m then mant
    else (q + f.m + f.bias).toNat * 2 ^ f.m + mant - 2 ^ f.m

/-- Put the sign on an encoding. -/
def Fmt.sign (f : Fmt) (neg : Bool) (mag : Nat) : Nat := mag + b2n neg * 2 ^ (f.e + f.m)

/-- Encode a value with one rounding; the flag is a saturation under R67. DESIGN CHOICE (assumption 141): a finite value
above the largest finite magnitude that rounds back to it is no saturation, since R67 does not say whether its range is
judged before or after the rounding. -/
def Fmt.encodeSticky (f : Fmt) (sticky : Bool) : FVal → Nat × Bool
  | .nan => (f.nanBits, false)
  | .inf neg =>
    if f.special = 0 then (f.sign neg ((2 ^ f.e - 1) * 2 ^ f.m), false) else (f.sign neg f.maxEnc, true)
  | .fin neg n e =>
    let g := f.roundMag n e sticky
    if g ≤ f.maxEnc then (f.sign neg g, false)
    else if f.special = 0 then (f.sign neg ((2 ^ f.e - 1) * 2 ^ f.m), false)
    else (f.sign neg f.maxEnc, true)

/-- Encode an exact value. -/
def Fmt.encode (f : Fmt) (v : FVal) : Nat × Bool := f.encodeSticky false v

/-- One rounding of an exact value into the format, as a value. -/
def Fmt.round (f : Fmt) (v : FVal) : FVal := f.decode (f.encode v).1

/-- An integer as a value. -/
def FVal.ofInt (x : Int) : FVal := .fin (decide (x < 0)) x.natAbs 0

/-- The signed significand of a finite value at exponent `e0` (at most its own exponent). -/
def alignTo (neg : Bool) (n : Nat) (e e0 : Int) : Int :=
  let a : Int := (n * 2 ^ (e - e0).toNat : Nat)
  if neg then -a else a

/-- Exact sum; an exact zero takes sign + unless both are -0 (R66). -/
def FVal.add : FVal → FVal → FVal
  | .nan, _ => .nan
  | _, .nan => .nan
  | .inf a, .inf b => if a = b then .inf a else .nan
  | .inf a, .fin _ _ _ => .inf a
  | .fin _ _ _, .inf b => .inf b
  | .fin sa na ea, .fin sb nb eb =>
    let e0 := min ea eb
    let x := alignTo sa na ea e0 + alignTo sb nb eb e0
    if x = 0 then .fin (sa && sb) 0 e0 else .fin (decide (x < 0)) x.natAbs e0

/-- Negation. -/
def FVal.neg : FVal → FVal
  | .nan => .nan
  | .inf a => .inf (!a)
  | .fin s n e => .fin (!s) n e

/-- Magnitude. -/
def FVal.abs : FVal → FVal
  | .nan => .nan
  | .inf _ => .inf false
  | .fin _ n e => .fin false n e

/-- A value that is zero. -/
def FVal.isZero : FVal → Bool
  | .fin _ n _ => n == 0
  | _ => false

/-- Exact product; 0 × ∞ is invalid (R67). -/
def FVal.mul : FVal → FVal → FVal
  | .nan, _ => .nan
  | _, .nan => .nan
  | .inf a, .inf b => .inf (a != b)
  | .inf a, .fin s n _ => if n = 0 then .nan else .inf (a != s)
  | .fin s n _, .inf b => if n = 0 then .nan else .inf (s != b)
  | .fin sa na ea, .fin sb nb eb => .fin (sa != sb) (na * nb) (ea + eb)

/-- Is `a` below `b` (both not NaN)? -0 and +0 are equal here. -/
def FVal.lt : FVal → FVal → Bool
  | .nan, _ => false
  | _, .nan => false
  | .inf a, .inf b => a && !b
  | .inf a, .fin _ _ _ => a
  | .fin _ _ _, .inf b => !b
  | .fin sa na ea, .fin sb nb eb =>
    let e0 := min ea eb
    decide (alignTo sa na ea e0 < alignTo sb nb eb e0)

/-- `a ≤ b` for values that are not NaN. -/
def FVal.le (a b : FVal) : Bool :=
  match a, b with
  | .nan, _ => false
  | _, .nan => false
  | _, _ => !FVal.lt b a

/-- Maximum with NaN propagation and -0 below +0 (R139). -/
def FVal.max2 (a b : FVal) : FVal :=
  match a, b with
  | .nan, _ => .nan
  | _, .nan => .nan
  | _, _ =>
    if FVal.lt a b then b
    else if FVal.lt b a then a
    else match a with
      | .fin true 0 _ => b
      | _ => a

/-- Minimum with NaN propagation and -0 below +0 (R139). -/
def FVal.min2 (a b : FVal) : FVal :=
  match a, b with
  | .nan, _ => .nan
  | _, .nan => .nan
  | _, _ =>
    if FVal.lt a b then a
    else if FVal.lt b a then b
    else match a with
      | .fin true 0 _ => a
      | _ => b

/-- Integer square root by bits, from bit `k` downward. -/
def isqrtGo (n : Nat) : Nat → Nat → Nat
  | 0, r => r
  | k + 1, r => let c := r + 2 ^ k; isqrtGo n k (if c * c ≤ n then c else r)

/-- Integer square root. -/
def isqrt (n : Nat) : Nat := isqrtGo n (bitLen n / 2 + 1) 0

/-- The least value of a format at or above one that is not negative (R66, R80). -/
def Fmt.up (f : Fmt) (v : FVal) : FVal :=
  let r := f.encode v
  if FVal.lt (f.decode r.1) v then f.decode (r.1 + 1) else f.decode r.1

/-- Correctly rounded addition. -/
def Fmt.add (f : Fmt) (a b : FVal) : FVal := f.round (a.add b)

/-- Correctly rounded subtraction. -/
def Fmt.sub (f : Fmt) (a b : FVal) : FVal := f.round (a.add b.neg)

/-- Correctly rounded multiplication. -/
def Fmt.mul (f : Fmt) (a b : FVal) : FVal := f.round (a.mul b)

/-- Correctly rounded fused multiply-add. -/
def Fmt.fma (f : Fmt) (a b c : FVal) : FVal := f.round ((a.mul b).add c)

/-- Correctly rounded division (IEEE 754 for zero and infinity, R139). -/
def Fmt.div (f : Fmt) (a b : FVal) : FVal :=
  match a, b with
  | .nan, _ => .nan
  | _, .nan => .nan
  | .inf _, .inf _ => .nan
  | .inf s, .fin t _ _ => .inf (s != t)
  | .fin s _ _, .inf t => .fin (s != t) 0 0
  | .fin s n e, .fin t m k =>
    if m = 0 then (if n = 0 then .nan else .inf (s != t))
    else if n = 0 then .fin (s != t) 0 0
    else
      let sh := f.m + 4 + bitLen m
      let q := n * 2 ^ sh / m
      let r := n * 2 ^ sh % m
      f.decode (f.encodeSticky (decide (r ≠ 0)) (.fin (s != t) q (e - k - sh))).1

/-- Correctly rounded square root; of a negative number it is invalid (R67). -/
def Fmt.sqrt (f : Fmt) : FVal → FVal
  | .nan => .nan
  | .inf s => if s then .nan else .inf false
  | .fin s n e =>
    if n = 0 then .fin s 0 0
    else if s then .nan
    else
      let sh := 2 * (f.m + 4) + (if e % 2 = 0 then 0 else 1)
      let w := n * 2 ^ sh
      let r := isqrt w
      f.decode (f.encodeSticky (decide (r * r ≠ w)) (.fin false r ((e - sh) / 2))).1

/-- Round a value to an integer, ties to even; a NaN or an infinity gives 0 here (callers decide those first). -/
def FVal.toIntRne : FVal → Int
  | .nan => 0
  | .inf _ => 0
  | .fin s n e =>
    let a : Nat :=
      if 0 ≤ e then n * 2 ^ e.toNat
      else
        let k := (-e).toNat
        let fl := n / 2 ^ k
        let rem := n % 2 ^ k
        if 2 ^ (k - 1) < rem ∨ (rem = 2 ^ (k - 1) ∧ fl % 2 = 1) then fl + 1 else fl
    if s then -(a : Int) else a

/-- Round toward minus infinity to an integer. -/
def FVal.floor : FVal → Int
  | .nan => 0
  | .inf _ => 0
  | .fin s n e =>
    let x : Int := if s then -(n : Int) else n
    if 0 ≤ e then x * 2 ^ e.toNat else x / 2 ^ (-e).toNat

/-- The FP32 value of an encoding. -/
def f32 (b : Nat) : FVal := fp32.decode b

/-- The FP32 encoding of a value, rounded once. -/
def toF32 (v : FVal) : Nat := (fp32.encode v).1

/-- A NaN that an operation created from operands that were not NaN (R73). -/
def nanMade (ins : List FVal) (out : FVal) : Bool := decide (out = .nan) && ins.all (fun v => decide (v ≠ .nan))

/-- Conversion of a value to an integer of `w` bits: value, saturation, NaN event (R67). -/
def FVal.toIntSat (w : Nat) (v : FVal) : Int × Bool × Bool :=
  match v with
  | .nan => (0, false, true)
  | .inf neg => (if neg then -(2 ^ (w - 1)) else 2 ^ (w - 1) - 1, true, false)
  | .fin s n e =>
    let x := FVal.toIntRne (.fin s n e)
    let y := satS w x
    (y, decide (x ≠ y), false)

/-- The FP32 scale as a 24-bit multiplier and a shift: scale = mult × 2^sh (R69). -/
def scaleParts (v : FVal) : Nat × Int :=
  match v with
  | .fin _ n e => (n, e)
  | _ => (0, 0)

/-- Shift an integer right by `k` (left when negative) with one rounding to nearest, ties to even. -/
def shiftRne (x : Int) (e : Int) : Int := FVal.toIntRne (.fin (decide (x < 0)) x.natAbs e)

/-- Requantization of an INT32 accumulator (R69): the output element and whether it clamped. -/
def requant (w : Nat) (scale : FVal) (zp : Int) (acc : Int) : Int × Bool :=
  let p := scaleParts scale
  let y := shiftRne (acc * p.1) p.2 + zp
  let z := satS w y
  (z, decide (y ≠ z))

/-- Encode an element of an MX block at its scale (R70): what exceeds the element range after the rounding, an infinity
included, takes the largest finite magnitude and saturates. -/
def Fmt.encodeClamp (f : Fmt) : FVal → Nat × Bool
  | .nan => (f.nanBits, false)
  | .inf neg => (f.sign neg f.maxEnc, true)
  | .fin neg n e =>
    let g := f.roundMag n e false
    if g ≤ f.maxEnc then (f.sign neg g, false) else (f.sign neg f.maxEnc, true)

/-- The gap between the two representable values that bracket a value (R77); in the subnormal range the smallest
subnormal. -/
def Fmt.gap (f : Fmt) : FVal → FVal
  | .fin _ n e => .fin false 1 (max (if n = 0 then 1 - f.bias else e + bitLen n - 1) (1 - f.bias) - f.m)
  | _ => .fin false 1 (1 - f.bias - f.m)

/-- The MX block scale for a block's results (R70), from the largest magnitude; 0xFF with a NaN in the block. -/
def mxScale (emax : Int) (xs : List FVal) : Nat :=
  if xs.any (fun v => decide (v = .nan)) then 0xFF
  else
    match (xs.map FVal.abs).foldl FVal.max2 (.fin false 0 0) with
    | .fin _ n e =>
      if n = 0 then 0
      else (clampI 0 254 (e + bitLen n - 1 - emax + 127)).toNat
    | _ => 254

/-- Multiply a value by 2^k exactly. -/
def FVal.scale2 (k : Int) : FVal → FVal
  | .fin s n e => .fin s n (e + k)
  | v => v

end Sys2Proof.Machine
end

