-- ==== Sys2Proof/Machine/Loop.lean ====
section
/-!
DEFINITION. Loop engine: triggers, evaluations, transfers, safe outputs, actuation frames and the scheduled gates
(R280 to R297).
-/

namespace Sys2Proof.Machine

open Host (Outcome)

/-! ### FP32 arithmetic on encodings, one rounding per operation (R284) -/

def fadd (a b : Nat) : Nat := toF32 (fp32.add (f32 a) (f32 b))
def fsub (a b : Nat) : Nat := toF32 (fp32.sub (f32 a) (f32 b))
def fmul (a b : Nat) : Nat := toF32 (fp32.mul (f32 a) (f32 b))
def fdiv (a b : Nat) : Nat := toF32 (fp32.div (f32 a) (f32 b))
def fneg (a : Nat) : Nat := toF32 (f32 a).neg
def fabs (a : Nat) : Nat := toF32 (f32 a).abs
def flt (a b : Nat) : Bool := (f32 a).lt (f32 b)
def fle (a b : Nat) : Bool := (f32 a).le (f32 b)

/-- Numeric equality of two FP32 encodings. -/
def feq (a b : Nat) : Bool := fle a b && fle b a

/-- clamp(x, lo, hi). -/
def fclamp (x lo hi : Nat) : Nat := if flt x lo then lo else if flt hi x then hi else x

/-- An integer converted to FP32. -/
def fint (x : Int) : Nat := toF32 (FVal.ofInt x)

/-- A count of µs as seconds, rounded once (R283). -/
def fsec (us : Nat) : Nat := toF32 (fp32.div (FVal.ofInt us) (FVal.ofInt 1000000))

/-- A dot product, left to right. -/
def fdot : List Nat → List Nat → Nat → Nat
  | a :: as, b :: bs, acc => fdot as bs (fadd acc (fmul a b))
  | _, _, acc => acc

/-- A row-major matrix of `c` columns times a vector: `r` rows. -/
def fmatVec (m : List Nat) (c : Nat) (x : List Nat) (r : Nat) : List Nat :=
  (List.range r).map (fun i => fdot ((m.drop (i * c)).take c) x 0)

/-- Element-wise sum. -/
def fvAdd (a b : List Nat) : List Nat := List.zipWith fadd a b

/-- Element-wise difference. -/
def fvSub (a b : List Nat) : List Nat := List.zipWith fsub a b

/-! ### Slots -/

/-- A loop slot. -/
def lslot (n : Nat) (s : State) : LoopSlot := tget {} n s.loop.slots

/-- Change a slot. -/
def modLoop (n : Nat) (f : LoopSlot → LoopSlot) (s : State) : State :=
  { s with loop := { s.loop with slots := tmod {} n f s.loop.slots } }

/-- The engine of a slot is in service. -/
def engineUp (n : Nat) (s : State) : Bool := !isIso (0x40 + n / 8) s && dieUp (n / 8) s

/-- A matrix of a slot, zero where absent (R282). -/
def lmat (x : LoopSlot) (which r c : Nat) : List Nat :=
  let m := tget ([] : List Nat) which x.mats
  if m.isEmpty then List.replicate (r * c) 0 else m

/-- Slot numbers of declared slots. -/
def declaredLoops (s : State) : List Nat := (s.loop.slots.filter (fun e => e.2.declared)).map (·.1)

/-- Inner slots of a slot. -/
def innersOf (n : Nat) (s : State) : List Nat :=
  (declaredLoops s).filter (fun k => (lslot k s).outer == n)

/-- The slot is the outer slot of a cascade. -/
def isOuter (n : Nat) (s : State) : Bool := !(innersOf n s).isEmpty

/-! ### Actuation frames (R290) -/

/-- `v` in `n` bytes, most significant first. -/
def beBytes (n v : Nat) : List Byte := (leBytes n v).reverse

/-- Overwrite bytes of a list from offset `o`. -/
def overlay (bs : List Byte) (o : Nat) (new : List Byte) : List Byte :=
  bs.take o ++ new ++ bs.drop (o + new.length)

/-- The bytes of an output field: integers carry round(u / OSCALE), ties to even, saturating (R281). -/
def outField (x : LoopOut) : List Byte :=
  let (w, v) :=
    if x.ofmt = 2 then (4, x.u)
    else
      let n := if x.ofmt = 0 then 16 else 32
      (n / 8, uenc n ((f32 (fdiv x.u x.oscale)).toIntSat n).1)
  if x.big then beBytes w v else leBytes w v

/-- Bytes of a big-endian number. -/
def beVal (bs : List Byte) : Nat := leVal bs.reverse

/-- The Ethernet frame of a byte template, sent from a port (R290). -/
def frameOfBytes (bs : List Byte) (src : Nat) : EthFrame :=
  let tagged := beVal (slice bs 12 2) == 0x8100
  { dst := beVal (bs.take 6), src := src
    vlan := if tagged then some (beVal (slice bs 14 2)) else none
    etherType := beVal (slice bs (if tagged then 16 else 12) 2)
    payload := bs.drop (if tagged then 18 else 14) }

/-- The port address (ETH_MAC). -/
def portMac (e : Nat) (s : State) : Nat := s.host.macA + 2 + e

/-- The status byte of R290. -/
def statByte (x : LoopSlot) : Nat :=
  b2n (decide (x.st = .safeOut)) + 2 * b2n (decide (x.st = .manual)) + 4 * b2n x.implausible + 8 * b2n x.spStale
    + 16 * b2n x.fbStale

/-- Write an optional field of the frame. -/
def putField (off : Nat) (new : List Byte) (bs : List Byte) : List Byte :=
  if off = 0xFF then bs else overlay bs off new

/-- The frame of a slot with its trigger stamp. -/
def buildFrame (x : LoopSlot) (offs : Nat × Nat × Nat) (st : Nat) : List Byte :=
  let b1 := x.outs.foldl (fun b o => overlay b o.offset (outField o)) x.template
  let b2 := putField offs.1 (beBytes 2 x.ctr) b1
  let b3 := putField offs.2.1 (beBytes 8 st) b2
  putField offs.2.2 (leBytes 1 (statByte x)) b3

/-- Hand the frame of a slot to its port's queue (R290): counted as DROPPED when the port does not work, REPLACED when
the slot's previous frame still waits; `steps` is the step since the stamp (R306). -/
def sendFrame (n st : Nat) (steps : Int) (s : State) : State :=
  let x := lslot n s
  match x.frame with
  | none => s
  | some offs =>
    let e := x.port
    let lat := ((stamp (n / 8) s : Int) - st - steps).toNat
    let waits := (eport e s).queued.any (fun q => q.2.2 == .loop n)
    let up := ethUp e s
    let s1 := modLoop n (fun y => { y with
      ctr := wrapAdd 16 y.ctr 1
      latLast := satU 16 lat
      latMax := max y.latMax (satU 16 lat)
      replaced := if up && waits then satAdd 10 y.replaced 1 else y.replaced
      dropped := if up then y.dropped else satAdd 11 y.dropped 1 }) s
    ethSend e x.tc (frameOfBytes (buildFrame x offs st) (portMac e s)) (.loop n) s1

/-! ### Safe outputs (R294) -/

/-- One step of an output in SAFE_OUT. -/
def safeStep (dt : Nat) (o : LoopOut) : LoopOut :=
  match o.safeMode with
  | 0 => { o with u := o.safeValue }
  | 1 => o
  | _ =>
    let d := fmul o.urate dt
    { o with u := fclamp o.safeValue (fsub o.u d) (fadd o.u d) }

/-- LOOP_STATE codes (R9). -/
def LoopSt.code : LoopSt → Nat
  | .stopped => 0
  | .manual => 1
  | .auto => 2
  | .safeOut => 3

/-- The trace event of a slot whose state changed from `o` (R316, kind 0x60). -/
def loopTrace (n : Nat) (o : LoopSt) (s : State) : State :=
  let z := (lslot n s).st
  if z = o then s else traceEv (n / 8) (0x40 + n / 8) 0x60 (n + 16 * z.code) s

/-- A safe frame of a slot: outputs follow SAFE_MODE, STAT.SAFE = 1. -/
def safeFrame (n : Nat) (s : State) : State :=
  let st := stamp (n / 8) s
  let s1 := modLoop n (fun y => { y with
    outs := y.outs.map (safeStep (fsec y.periodUs)), waiting := none, safeAt := s.time.now }) s
  sendFrame n st 0 s1

/-- The slot enters SAFE_OUT and hands over its first safe frame. -/
def enterSafe (n : Nat) (s : State) : State :=
  let o := (lslot n s).st
  safeFrame n (loopTrace n o (modLoop n (fun y => { y with st := .safeOut, track := false, req := 0 }) s))

/-- SAFE_OUT of a slot takes its MANUAL or AUTO inner slots with it (R292). -/
def slotSafe (n : Nat) (s : State) : State :=
  let s1 := enterSafe n s
  (innersOf n s).foldl (fun a k =>
    match (lslot k a).st with
    | .manual | .auto => enterSafe k a
    | _ => a) s1

/-- Every slot not STOPPED hands over its first safe frame (R294, R358, R459). -/
def safeOutAll (s : State) : State :=
  (declaredLoops s).foldl (fun a n =>
    if (lslot n a).st = .stopped ∨ (lslot n a).st = .safeOut ∨ !engineUp n a then a else enterSafe n a) s

/-! ### Triggers (R283, R297) -/

/-- The module leaves slots running: neither SAFE nor FENCED. -/
def notSafe (s : State) : Bool := !s.power.safe && !s.power.fenced

/-- The module state runs loop slots (R292): STANDBY, ACTIVE, DEGRADED, and safe frames in FENCED and SAFE. -/
def loopsRun (s : State) : Bool :=
  match s.power.st with
  | .standby | .active | .degraded | .fenced | .safe => true
  | _ => false

/-- Trigger a slot: an evaluation waits; a SAFE_OUT slot without a request sends its safe frame. -/
def trigger (n st : Nat) (s : State) : State :=
  let x := lslot n s
  let s1 := modLoop n (fun y => { y with lastTrig := some st, trigAt := s.time.now, stepSum := 0 }) s
  if x.st = .safeOut ∧ ¬(x.req = 1 ∧ notSafe s) then
    safeFrame n s1
  else modLoop n (fun y => { y with waiting := some st }) s1

/-- LOOP_TIMER_TRIGGER (R283, R294): the grid stamp of a TIMER slot; a SAMPLE slot in SAFE_OUT sends a frame per period. -/
def loopTimer (n : Nat) (s : State) : State :=
  let x := lslot n s
  if !x.declared ∨ !engineUp n s ∨ !loopsRun s then s
  else if x.sample then
    (if x.st = .safeOut ∧ x.safeAt + x.periodUs * 1000 ≤ s.time.now then safeFrame n s else s)
  else
    match gridNow (n / 8) (x.periodUs * 1000) x.phaseNs s with
    | none => s
    | some g => if x.lastTrig = some g then s else trigger n g s

def execLoopTimerTrigger (t slot : Nat) (s : State) : Outcome State Fault Refusal := .next (loopTimer slot (advanceTo t s))

/-- LOOP_TRIGGER_WATCHDOG (R297): 2 × PERIOD_US without a trigger. -/
def loopWatchdog (n : Nat) (s : State) : State :=
  let x := lslot n s
  if (x.st = .manual ∨ x.st = .auto) ∧ x.trigAt + 2 * x.periodUs * 1000 ≤ s.time.now ∧ engineUp n s then
    latch (srcLoop n 3) n (slotSafe n s)
  else s

def execLoopTriggerWatchdog (t slot : Nat) (s : State) : Outcome State Fault Refusal :=
  .next (loopWatchdog slot (advanceTo t s))

/-! ### Feedback values (R281, R282) -/

/-- Width of a STREAM channel's field. -/
def chanWidth (fmt : Nat) : Nat := if fmt = 0 ∨ fmt = 3 then 2 else 4

/-- A field of `w` bytes in the channel's byte order. -/
def chanField (c : LoopChan) (payload : List Byte) : Nat :=
  let b := slice payload c.offset (chanWidth c.fmt)
  if c.big then beVal b else leVal b

/-- The field as FP32. -/
def chanRaw (c : LoopChan) (v : Nat) : Nat :=
  match c.fmt with
  | 0 => fint (sext 16 v)
  | 1 => fint (sext 32 v)
  | 3 => fint v
  | _ => v

/-- y = field × SCALE + BIAS. -/
def chanY (c : LoopChan) (raw : Nat) : Nat := fadd (fmul raw c.scale) c.bias

/-- The value a complete sample brings to a channel; a payload that ends early brings none. -/
def chanSample (id arrival : Nat) (payload : List Byte) (c : LoopChan) : LoopChan :=
  if !c.edgeSrc ∧ c.stream = id ∧ c.offset + chanWidth c.fmt ≤ payload.length then
    { c with value := chanY c (chanRaw c (chanField c payload)), at_ := some arrival, stepSum := 0 }
  else c

/-- A complete sample reaches one slot: its channels, and the SAMPLE trigger of channel 0's stream (R283). -/
def loopSample1 (id arrival : Nat) (payload : List Byte) (n : Nat) (s : State) : State :=
  let x := lslot n s
  let s1 := modLoop n (fun y => { y with chans := y.chans.map (chanSample id arrival payload) }) s
  let first := match x.chans.head? with
    | none => false
    | some c => decide (c.stream = id) && !c.edgeSrc
  if !x.sample ∨ !first ∨ !engineUp n s ∨ !loopsRun s then s1
  else
    let early := match x.lastTrig with
      | none => false
      | some l => decide (arrival < l + x.periodUs * 1000)
    if early then modLoop n (fun y => { y with early := satAdd 10 y.early 1 }) s1
    else if x.st = .safeOut ∧ ¬(x.req = 1 ∧ notSafe s) then
      modLoop n (fun y => { y with lastTrig := some arrival, trigAt := s.time.now, stepSum := 0 }) s1
    else trigger n arrival s1

/-- A complete sample of a SENSOR stitch reaches every slot. -/
def loopSample (id arrival : Nat) (payload : List Byte) (s : State) : State :=
  (declaredLoops s).foldl (fun a n => loopSample1 id arrival payload n a) s

/-- The slot an edge feeds, with the sub-port. -/
def loopOfEdge (e : Nat) (s : State) : Option (Nat × Nat) :=
  match gEdgeOf e s with
  | none => none
  | some g =>
    if g.dstKind = 5 then
      ((declaredLoops s).find? (fun n => (lslot n s).id == g.dst)).map (fun n => (n, g.dstPort))
    else none

/-- The FP32 values of a token. -/
def f32List (bs : List Byte) : Nat → List Nat
  | 0 => []
  | n + 1 => fieldLe bs 0 4 :: f32List (bs.drop 4) n

/-- Split a list into rows of `m`. -/
def rowsOf (m : Nat) : Nat → List Nat → List (List Nat)
  | 0, _ => []
  | n + 1, l => if l.length < m ∨ m = 0 then [] else l.take m :: rowsOf m n (l.drop m)

/-- SETPOINT_TOKEN (R286): a sequence replaces the one in force; SP_STALE clears; the credit returns at once. -/
def setpointToken (e : Nat) (s : State) : State :=
  match arriving e s, loopOfEdge e s with
  | some tk, some (n, 0) =>
    let x := lslot n s
    let vals := f32List tk.data (tk.data.length / 4)
    let st := stamp (n / 8) s
    takeArriving e (modLoop n (fun y => { y with
      seq := some (st, rowsOf x.m 64 vals), spAt := s.time.now, spStale := false }) s)
  | _, _ => s

def execSetpointToken (t edge : Nat) (s : State) : Outcome State Fault Refusal := .next (setpointToken edge (advanceTo t s))

/-- An EDGE channel takes its element of a token. -/
def chanEdge (st : Nat) (data : List Byte) (c : LoopChan) : LoopChan :=
  if c.edgeSrc then { c with value := chanY c (fieldLe data (4 * c.offset) 4), at_ := some st, stepSum := 0 } else c

/-- FEEDBACK_TOKEN (R282): the values are copied and the credit returns at once. -/
def feedbackToken (e : Nat) (s : State) : State :=
  match arriving e s, loopOfEdge e s with
  | some tk, some (n, p) =>
    if 8 ≤ p then
      let st := stamp (n / 8) s
      takeArriving e (modLoop n (fun y => { y with chans := y.chans.modify (p - 8) (chanEdge st tk.data) }) s)
    else s
  | _, _ => s

def execFeedbackToken (t edge : Nat) (s : State) : Outcome State Fault Refusal := .next (feedbackToken edge (advanceTo t s))

/-- SETPOINT_STALE (R286). -/
def setpointStale (n : Nat) (s : State) : State :=
  let x := lslot n s
  if x.declared ∧ x.spStaleUs ≠ 0 ∧ !x.spStale ∧ x.spAt + x.spStaleUs * 1000 ≤ s.time.now then
    latch (srcLoop n 2) n (modLoop n (fun y => { y with spStale := true }) s)
  else s

def execSetpointStale (t slot : Nat) (s : State) : Outcome State Fault Refusal := .next (setpointStale slot (advanceTo t s))

/-! ### Requests (R292) -/

/-- What a request would lead to in the present state; none = refused. -/
def reqTarget (n r : Nat) (s : State) : Option LoopSt :=
  let x := lslot n s
  match r, x.st with
  | 1, .stopped => some .manual
  | 1, .auto => some .manual
  | 1, .safeOut => if notSafe s then some .manual else none
  | 2, .manual => if x.outer ≠ 0xFF ∧ (lslot x.outer s).st = .stopped then none else some .auto
  | 3, .manual => if notSafe s ∧ (innersOf n s).all (fun k => (lslot k s).st != .auto) then some .stopped else none
  | 3, .auto => if notSafe s ∧ (innersOf n s).all (fun k => (lslot k s).st != .auto) then some .stopped else none
  | _, _ => none

/-- A mode request of a slot: it waits for the next evaluation, or REFUSED is set. -/
def loopReq (n r : Nat) (s : State) : State :=
  let x := lslot n s
  if !x.declared ∨ !engineUp n s then s
  else if (reqTarget n r s).isSome then modLoop n (fun y => { y with req := r }) s
  else modLoop n (fun y => { y with refused := true }) s

/-- A request from the host: those of a secure slot come only through the mailbox. -/
def loopHostReq (n r : Nat) (s : State) : State :=
  if (lslot n s).secure ∨ offBlocked (0x001C1004 + n * 0x200) s then s else loopReq n r s

def execLoopReqManual (t slot : Nat) (s : State) : Outcome State Fault Refusal := .next (loopHostReq slot 1 (advanceTo t s))
def execLoopReqAuto (t slot : Nat) (s : State) : Outcome State Fault Refusal := .next (loopHostReq slot 2 (advanceTo t s))
def execLoopReqStop (t slot : Nat) (s : State) : Outcome State Fault Refusal := .next (loopHostReq slot 3 (advanceTo t s))

/-- LOOP_MAN_WRITE (R295): stored in every mode; writes to a secure slot are ignored. -/
def loopMan (n j v : Nat) (s : State) : State :=
  let x := lslot n s
  if !x.declared ∨ x.secure ∨ offBlocked (0x001C1040 + n * 0x200) s then s
  else modLoop n (fun y => { y with outs := y.outs.modify j (fun o => { o with man := v % 2 ^ 32 }) }) s

def execLoopManWrite (t slot j value : Nat) (s : State) : Outcome State Fault Refusal :=
  .next (loopMan slot j value (advanceTo t s))

/-- Entry into MANUAL: from STOPPED the law states and the model are zero, the manual values SAFE_VALUE and the counter 0;
otherwise the manual values are the last outputs. -/
def toManual (fresh : Bool) (x : LoopSlot) : LoopSlot :=
  if fresh then
    { x with st := .manual, iState := 0, dState := 0, yf := 0, rPrev := 0, yfPrev := 0
             x := List.replicate x.n 0, w := List.replicate x.p 0, xm := List.replicate x.q 0, ctr := 0
             outs := x.outs.map (fun o => { o with man := o.safeValue, u := o.safeValue }) }
  else { x with st := .manual, track := false, outs := x.outs.map (fun o => { o with man := o.u }) }

/-- Apply the waiting request at an evaluation. -/
def applyReq (n : Nat) (s : State) : State :=
  let x := lslot n s
  if x.req = 0 then s
  else
    let clear := fun (y : LoopSlot) => { y with req := 0 }
    loopTrace n x.st <| match reqTarget n x.req s with
    | none => modLoop n (fun y => { clear y with refused := true }) s
    | some .manual => modLoop n (fun y => toManual (decide (x.st = .stopped)) (clear y)) s
    | some .auto => modLoop n (fun y => { clear y with st := .auto }) s
    | some z => modLoop n (fun y => { clear y with st := z, track := false }) s

/-! ### Set-points (R286, R287) -/

/-- Target and slope of channel `i` of a sequence at a stamp: linear interpolation, the last point beyond the end. -/
def seqTarget (dtUs : Nat) (t0 : Nat) (pts : List (List Nat)) (st i : Nat) : Nat × Nat :=
  let dt := dtUs * 1000
  let el := if st < t0 then 0 else st - t0
  let k := el / dt
  let at_ := fun (j : Nat) => ((pts.getD j []).getD i 0)
  if pts.length ≤ k + 1 ∨ dt = 0 then (at_ (pts.length - 1), 0)
  else
    let d := fsub (at_ (k + 1)) (at_ k)
    let fr := toF32 (fp32.div (FVal.ofInt (el % dt)) (FVal.ofInt dt))
    (fadd (at_ k) (fmul d fr), fdiv d (fsec dtUs))

/-- The target and slope of a channel: the outer slot's output in a cascade, the sequence otherwise. -/
def target (x : LoopSlot) (st i : Nat) (s : State) : Nat × Nat :=
  if x.outer ≠ 0xFF then (((lslot x.outer s).outs.map (·.u)).getD i 0, 0)
  else
    match x.seq with
    | none => ((x.chans.map (·.r)).getD i 0, 0)
    | some (t0, pts) => seqTarget x.spDtUs t0 pts st i

/-- One step of the profile generator (R286). -/
def profStep (dt : Nat) (rv : Nat × Nat) (c : LoopChan) : LoopChan :=
  let vd := fclamp (fadd rv.2 (fdiv (fsub rv.1 c.r) c.profTc)) (fneg c.vmax) c.vmax
  let ad := fclamp (fdiv (fsub vd c.v) c.profTc) (fneg c.amax) c.amax
  let j := fmul c.jmax dt
  let a := fadd c.a (fclamp (fsub ad c.a) (fneg j) j)
  let v := fclamp (fadd c.v (fmul a dt)) (fneg c.vmax) c.vmax
  { c with a := a, v := v, r := fadd c.r (fmul v dt) }

/-- The set-point of every channel at an evaluation. -/
def setpoints (x : LoopSlot) (st : Nat) (s : State) : List LoopChan :=
  x.chans.mapIdx (fun i c =>
    if x.st = .manual ∧ x.spTrack then { c with r := c.y, v := 0, a := 0 }
    else profStep (fsec x.periodUs) (target x st i s) c)

/-! ### Feedback plausibility (R288) -/

/-- A channel's newest value is older than MAX_AGE_US at the trigger stamp, since which `steps` were made (R306). -/
def chanStale (st : Nat) (steps : Int) (c : LoopChan) : Bool :=
  match c.at_ with
  | none => true
  | some a => decide ((c.maxAgeUs * 1000 : Nat) < (st : Int) - a - (c.stepSum - steps))

/-- Channel `i` against its prediction: the value used, and whether it is implausible. -/
def judgeChan (x : LoopSlot) (st : Nat) (yhat : List Nat) (i : Nat) (c : LoopChan) : LoopChan × Bool :=
  let stale := chanStale st x.stepSum c
  if x.q = 0 then ({ c with y := c.value }, false)
  else
    let h := yhat.getD i 0
    let rho := if stale then 0 else fsub c.value h
    let imp := !fle (fabs rho) c.resBound
    ({ c with y := if stale || (x.resHold && imp) then h else c.value }, imp)

/-- Steps 1 and 2 of R284: the channels with the y used, whether any is stale, whether any is implausible. -/
def feedback (x : LoopSlot) (st : Nat) (yhat : List Nat) : List LoopChan × Bool × Bool :=
  let js := x.chans.mapIdx (judgeChan x st yhat)
  (js.map (·.1), x.chans.any (chanStale st x.stepSum), js.any (·.2))

/-! ### Laws (R289, R293) -/

/-- limit(v) of an output. -/
def limitOut (dt : Nat) (o : LoopOut) (v : Nat) : Nat :=
  let d := fmul o.urate dt
  fclamp (fclamp v o.umin o.umax) (fsub o.u d) (fadd o.u d)

/-- How an evaluation treats the integrator: as in AUTO, forced to the manual values, or preset so that the output
equals given values. -/
inductive LawMode where
  | auto
  | forced (u : List Nat)
  | preset (u : List Nat)
  deriving DecidableEq, Repr

/-- The anti-windup condition: the output is not limited, or the error drives it out of the limit. -/
def mayStep (u v g : Nat) : Bool := feq u v || flt (fmul g (fsub v u)) 0

/-- A PID evaluation. -/
def pidLaw (x : LoopSlot) (mode : LawMode) : LoopSlot :=
  let dt := fsec x.periodUs
  let ay := fdiv dt (fadd x.tfY dt)
  let den := fadd x.tdF dt
  let ad := fdiv x.tdF den
  let bd := fdiv x.kd den
  let c := x.chans.headD {}
  let o := x.outs.headD {}
  let yf := fadd x.yf (fmul ay (fsub c.y x.yf))
  let p := fmul x.kp (fsub (fmul x.bW c.r) yf)
  let d := fadd (fmul ad x.dState) (fmul bd (fsub (fsub (fmul x.cW c.r) yf) (fsub (fmul x.cW x.rPrev) x.yfPrev)))
  let e := fsub c.r yf
  let fin := fun (i u : Nat) =>
    { x with yf := yf, dState := d, iState := i, rPrev := c.r, yfPrev := yf, outs := [{ o with u := u }] }
  let go := fun (u v : Nat) =>
    fin (if mayStep u v (fmul x.ki e) then fadd x.iState (fmul (fmul x.ki dt) e) else x.iState) u
  match mode with
  | .auto =>
    let v := fadd (fadd p x.iState) d
    go (limitOut dt o v) v
  | .forced us => go (limitOut dt o (us.headD 0)) (fadd (fadd p x.iState) d)
  | .preset us =>
    let i := fclamp (fsub (fsub (us.headD 0) p) d) o.umin o.umax
    fin i (limitOut dt o (fadd (fadd p i) d))

/-- A state-space evaluation. -/
def ssLaw (x : LoopSlot) (mode : LawMode) : LoopSlot :=
  let dt := fsec x.periodUs
  let e := x.chans.map (fun c => fsub c.r c.y)
  let cx := fmatVec (lmat x 2 x.p x.n) x.n x.x x.p
  let de := fmatVec (lmat x 3 x.p x.m) x.m e x.p
  let base := fvAdd cx de
  let kwe := fmatVec (lmat x 4 x.p x.m) x.m e x.p
  let w0 := match mode with
    | .preset us => List.zipWith (fun o v => fclamp v o.umin o.umax) x.outs (fvSub us base)
    | _ => x.w
  let v := fvAdd base w0
  let want := match mode with
    | .forced us => us
    | _ => v
  let u := List.zipWith (fun o t => limitOut dt o t) x.outs want
  let w1 := match mode with
    | .preset _ => w0
    | _ => w0.mapIdx (fun j wj =>
        let g := kwe.getD j 0
        if mayStep (u.getD j 0) (v.getD j 0) g then fadd wj (fmul dt g) else wj)
  { x with
    x := fvAdd (fmatVec (lmat x 0 x.n x.n) x.n x.x x.n) (fmatVec (lmat x 1 x.n x.m) x.m e x.n)
    w := w1
    outs := List.zipWith (fun o ui => { o with u := ui }) x.outs u }

/-- The law of a slot. -/
def evalLaw (x : LoopSlot) (mode : LawMode) : LoopSlot := if x.law = 0 then pidLaw x mode else ssLaw x mode

/-- The inner slot in MANUAL of an outer slot in AUTO: the outer tracks (R293). -/
def trackedInner (n : Nat) (s : State) : Option Nat :=
  if (lslot n s).st = .auto then (innersOf n s).find? (fun k => (lslot k s).st == .manual) else none

/-- The inner slot's filtered feedback. -/
def innerFeedback (k : Nat) (s : State) : List Nat :=
  let x := lslot k s
  if x.law = 0 then [x.yf] else x.chans.map (·.y)

/-- How the evaluation of a slot treats its integrator; `was` is its state before the waiting request. -/
def lawMode (n : Nat) (was : LoopSt) (s : State) : LawMode :=
  let x := lslot n s
  match x.st with
  | .manual => .forced (x.outs.map (·.man))
  | _ =>
    match trackedInner n s with
    | some k => .preset (innerFeedback k s)
    | none => if was = .manual then .preset (x.outs.map (·.man)) else .auto

/-- Step 7 of R284: xm = AM·xm + BM·u + LM·(y − ŷ). -/
def modelStep (x : LoopSlot) (yhat : List Nat) : LoopSlot :=
  if x.q = 0 then x
  else
    let am := fmatVec (lmat x 5 x.q x.q) x.q x.xm x.q
    let bm := fmatVec (lmat x 6 x.q x.p) x.p (x.outs.map (·.u)) x.q
    let lm := fmatVec (lmat x 8 x.q x.m) x.m (fvSub (x.chans.map (·.y)) yhat) x.q
    { x with xm := fvAdd (fvAdd am bm) lm }

/-! ### Evaluation (R284) -/

/-- Residual window and feedback-loss counts of an evaluation (R288). -/
def countFeedback (stale imp : Bool) (x : LoopSlot) : LoopSlot :=
  let win := (imp :: x.resWin).take x.resN
  { x with
    fbStale := stale
    implausible := imp
    cImpl := if imp then satAdd 16 x.cImpl 1 else x.cImpl
    cFb := if stale then satAdd 16 x.cFb 1 else x.cFb
    fbRun := if stale then x.fbRun + 1 else 0
    resWin := win }

/-- The count of implausible evaluations reaches RES_K. -/
def resExceeded (x : LoopSlot) : Bool :=
  decide (x.q ≠ 0 ∧ x.resK ≤ (x.resWin.filter id).length) && decide (0 < x.resK)

/-- Raise the residual source when the window reaches RES_K. -/
def raiseResidual (n : Nat) (s : State) : State :=
  let x := lslot n s
  let above := resExceeded x
  let s1 := modLoop n (fun y => { y with resRaised := above }) s
  if above ∧ !x.resRaised then latch (srcLoop n 0) n s1 else s1

/-- Count an evaluation of the slot's engine (LOOP_ENG_EVAL). -/
def countEval (n : Nat) (s : State) : State :=
  if n < 8 then { s with loop := { s.loop with evals0 := s.loop.evals0 + 1 } }
  else { s with loop := { s.loop with evals1 := s.loop.evals1 + 1 } }

/-- Steps 1 to 8 of R284 for a slot in MANUAL or AUTO. -/
def evaluate (n st : Nat) (was : LoopSt) (s : State) : State :=
  let x := lslot n s
  let yhat := fmatVec (lmat x 7 x.m x.q) x.q x.xm x.m
  let (cs, stale, imp) := feedback x st yhat
  let s1 := countEval n (modLoop n (fun y => countFeedback stale imp { y with chans := cs, waiting := none, trigStamp := st }) s)
  let s2 := raiseResidual n s1
  if (lslot n s2).fbRun ≥ x.fbLossN ∧ stale then latch (srcLoop n 1) n (slotSafe n s2)
  else if x.outer ≠ 0xFF ∧ (lslot x.outer s2).st = .safeOut ∧ x.st = .auto then slotSafe n s2
  else
    let mode := lawMode n was s2
    let tr := decide ((trackedInner n s2).isSome)
    let s3 := modLoop n (fun y =>
      let y1 := { y with chans := setpoints y st s2, track := tr }
      modelStep (evalLaw y1 mode) yhat) s2
    if isOuter n s3 then s3 else sendFrame n st x.stepSum s3

/-- Evaluations of the same engine ahead in trigger-stamp order, lower slot first on equal stamps. -/
def aheadOf (n st : Nat) (s : State) : Nat :=
  ((declaredLoops s).filter (fun k => k / 8 == n / 8 && k != n &&
    (match (lslot k s).waiting with
     | none => false
     | some w => decide (w < st ∨ (w = st ∧ k < n))))).length

/-- The outer evaluation of the same tick has been made (R287). -/
def outerDone (n st : Nat) (s : State) : Bool :=
  let x := lslot n s
  if x.outer = 0xFF then true
  else
    let o := lslot x.outer s
    if st % (o.periodUs * 1000) = o.phaseNs then decide ((o.lastTrig = some st ∨ o.trigStamp = st) ∧ o.waiting = none) else true

/-- LOOP_EVAL (R284): a waiting evaluation takes one of the engine's four units. -/
def loopEval (n : Nat) (s : State) : State :=
  match (lslot n s).waiting with
  | none => s
  | some st =>
    if !engineUp n s ∨ 4 ≤ aheadOf n st s ∨ !outerDone n st s ∨ heldGroup (0x020 + n) s then s
    else
      let was := (lslot n s).st
      let s1 := applyReq n s
      match (lslot n s1).st with
      | .stopped => modLoop n (fun y => { y with waiting := none }) s1
      | .safeOut => safeFrame n s1
      | _ => evaluate n st was s1

def execLoopEval (t slot : Nat) (s : State) : Outcome State Fault Refusal := .next (loopEval slot (advanceTo t s))

/-- ISLAND_LOOP_RECOMPUTE (R297): the island's recompute of a sampled evaluation disagrees. -/
def loopRecompute (n : Nat) (ok : Bool) (s : State) : State :=
  if (lslot n s).declared ∧ !ok then latch (srcLoop n 0) n s else s

def execIslandLoopRecompute (t slot : Nat) (ok : Bool) (s : State) : Outcome State Fault Refusal :=
  .next (loopRecompute slot ok (advanceTo t s))

/-! ### Scheduled gates (R291) -/

/-- Change the gate control of a port. -/
def modGates (e : Nat) (f : GateCtl → GateCtl) (s : State) : State :=
  { s with loop := { s.loop with gates := tmod {} e f s.loop.gates } }

/-- Entry `i` of the operational list takes effect: its gates open and close, and queued frames leave. -/
def gateEntry (e i : Nat) (s : State) : State :=
  let g := gateCtl e s
  match g.oper[i]? with
  | none => s
  | some x =>
    ethDrain e (modEth e (fun p => { p with gates := x.gates % 256 })
      (modGates e (fun y => { y with idx := i, at_ := s.time.now }) s))

def execQbvGateEvent (t port entry : Nat) (s : State) : Outcome State Fault Refusal := .next (gateEntry port entry (advanceTo t s))

/-- A gate control list R291 allows: at most 64 entries at 8 ns granularity, a cycle of 1 µs to 1 s. -/
def gateListOk (cycle : Nat) (l : List (Nat × Nat)) : Bool :=
  decide (l ≠ [] ∧ l.length ≤ 64 ∧ 1000 ≤ cycle ∧ cycle ≤ 1000000000) && l.all (fun g => g.2 % 8 == 0 && decide (0 < g.2))

/-- ADMIN_BASE_TIME (R291): the administrative list becomes operational and its first entry takes effect. -/
def adminBase (e base cycle : Nat) (l : List (Nat × Nat)) (s : State) : State :=
  if !gateListOk cycle l then s
  else
    let es := l.map (fun g => ({ gates := g.1 % 256, ns := g.2 } : GateEntry))
    gateEntry e 0 (modGates e (fun y => { y with
      oper := es, operBase := base, operCycle := cycle, admin := es, adminBase := base, adminCycle := cycle }) s)

def execAdminBaseTime (t port base cycle : Nat) (list : List (Nat × Nat)) (s : State) : Outcome State Fault Refusal :=
  .next (adminBase port base cycle list (advanceTo t s))

end Sys2Proof.Machine
end

