-- ==== Sys2Proof/Machine/Start.lean ====
section
/-!
DEFINITION. Starting and stopping the module: full power loss, entry to BOOT with its reset domains (R468), stops of
start-up (R440), the end of the boot chain, restart (R458), the fence (R459) and waking from RETAIN (R391).
-/

namespace Sys2Proof.Machine

/-- The boot chain runs: BOOT, not stopped. -/
def booting (s : State) : Bool := s.power.on && !s.power.booted && !s.sec.stopped && !s.power.safe

/-- An island's cores run firmware: not SILENT. -/
def islandRuns (i : Nat) (s : State) : Bool := (island i s).vote != .silent

/-- Change an island. -/
def modIsland (i : Nat) (f : Island → Island) (s : State) : State :=
  if i = 0 then { s with isl := { s.isl with a := f s.isl.a } } else { s with isl := { s.isl with b := f s.isl.b } }

/-- A flash of an island. -/
def flash (i : Nat) (s : State) : Flash := if i = 0 then s.sec.flashA else s.sec.flashB

/-- Change a flash. -/
def modFlash (i : Nat) (f : Flash → Flash) (s : State) : State :=
  if i = 0 then { s with sec := { s.sec with flashA := f s.sec.flashA } }
  else { s with sec := { s.sec with flashB := f s.sec.flashB } }

/-- A flash write cut short: the slot or entry it was writing is not valid (R437, R438), an interrupted calibration write
leaves an invalid set (R412). -/
def abortFlash (s : State) : State :=
  let s1 := match s.sec.job with
    | none => s
    | some j =>
      let f := fun (x : Flash) =>
        if j.firmware then (if j.index = 0 then { x with fw0 := [] } else { x with fw1 := [] })
        else { x with store := tmod {} j.index (fun e => { e with valid := false }) x.store }
      modFlash 0 f (modFlash 1 f { s with sec := { s.sec with job := none } })
  if s1.crown.calBusy then
    modFlash 0 (fun x => { x with cal := [] }) { s1 with crown := { s1.crown with calBusy := false } }
  else s1

/-- Full power loss (R8, R31, R216): only the non-volatile memories, the connector and what lies outside the module stay;
the life log keeps its last entry. -/
def powerLost (s0 : State) : State :=
  let s := abortFlash s0
  let r := State.reset
  { r with
    pending := s.pending
    time := { r.time with now := s.time.now }
    power := { r.power with
      st := s.power.st, prev := s.power.prev, stepping := s.power.stepping, jepoch := s.power.jepoch
      jepochA := s.power.jepochA, jepochB := s.power.jepochB
      mate := s.power.mate, coolant := s.power.coolant, prsnt := s.power.prsnt, pwrEn := s.power.pwrEn
      strapPins := s.power.strapPins, refA := s.power.refA, refB := s.power.refB
      on := false, pgood := false, main0 := false, main1 := false, aon0 := false, aon1 := false, biasHeld := s.power.biasHeld }
    sec := { r.sec with
      storeA := s.sec.storeA, storeB := s.sec.storeB, ownerSet := s.sec.ownerSet, identity := s.sec.identity
      seed := s.sec.seed, flashA := s.sec.flashA, flashB := s.sec.flashB, boots := 0 }
    host := { r.host with
      mem := s.host.mem, msgs := s.host.msgs, resps := s.host.resps, mgmtSent := s.host.mgmtSent
      moduleId := s.host.moduleId, macA := s.host.macA
      eth := tmapAll {} (fun _ p => { ({} : EthPort) with sent := p.sent }) s.host.eth }
    fab := { r.fab with fresh := s.fab.fresh } }

/-- The power stage turns off and takes the module to OFF (R31, R33). -/
def turnOff (s : State) : State := settle (powerLost s)

/-- A DDR channel at entry to BOOT: devices that were initialised keep their contents in self-refresh; its registers return to
reset. -/
def bootChan (c : DdrChan) : DdrChan :=
  { ({} : DdrChan) with st := if c.st = .reset then .reset else .selfRefresh, poison := c.poison }

/-- An Ethernet port at entry to BOOT: the link and what has left the port stay. -/
def bootEth (p : EthPort) : EthPort := { ({} : EthPort) with link := p.link, fast := p.fast, sent := p.sent }

/-- The half and stack reset domains return to their reset values (R468). -/
def resetHalves (s : State) : State :=
  { s with
    pat := {}
    fab := { ({} : FabricState) with fresh := s.fab.fresh }
    ddr := { s.ddr with ch := tmapAll {} (fun _ c => bootChan c) s.ddr.ch }
    loop := {}
    scene := []
    plan := {}
    sense := { ({} : SenseState) with evt0 := s.sense.evt0, evt1 := s.sense.evt1 }
    host := { s.host with eth := tmapAll {} (fun _ p => bootEth p) s.host.eth }
    sec := { s.sec with
      ddrGuards := [], linGuards := [], violHost := 0, violInt := 0, lastAddr := 0, lastSrc := 0
      lastWrite := false, lastPort := 0 }
    led := { s.led with
      strm := tmapAll {} (fun _ x => { x with declared := false, disabled := false, edges := [] }) s.led.strm } }

/-- A collector at entry to BOOT: DIRECT and the default timer until the profile is applied, records from 0, pin low. -/
def bootColl (c : Collector) : Collector :=
  { c with merge := false, rseq := 0, faults := 0, sweepOk := false, grave := false, timerNs := 200000, pinLow := true, open_ := [] }

/-- What the fault collectors forget at entry to BOOT: isolations but for islands, and everything "since BOOT". -/
def bootFault (f : FaultState) : FaultState :=
  { f with
    src := [], c0 := bootColl f.c0, c1 := bootColl f.c1, profile := [], timers := []
    isolated := f.isolated.filter (fun p => p == 0x50 || p == 0x51)
    isoPend := [], replace := [], safeSource := 0, safeValid := false, safeCause := 0, safeStamp := 0, safeReq := none
    budget := none, sweepAt := none }

/-- The crown at entry to BOOT: masks, peaks, levels, the running windows and the calibration start anew. -/
def bootCrown (c : CrownState) : CrownState :=
  { c with
    level := 0, acting := false, hardCap := false, runW := 520, shortW := 640, shortMs := 10, peakW := 0, changes := 0
    sumMw := 0, sumN := 0, overShort := 0, overRunAt := none, lowSince := none, bins := [0, 0, 0, 0, 0], hotHist := []
    pairs := tmapAll {} (fun _ p => { p with maskD := false, maskR := false, disagree := false, diffSince := none
                                             agreeSince := none, hot := none, halfRate := false, held := false }) c.pairs
    offD := [], offR := [], calRead := false, calOrigin := 0, calThermal := false, calVreg := false, calDphy := false
    calClock := false, calDdr := false, stale := false }

/-- The module's own doing takes a HOST link down. -/
def linkDrop (now : Nat) (h : HostPort) : HostPort :=
  { h with link := false, orderly := true, downAt := if h.link then now else h.downAt }

/-- The join and its lease end (R454). -/
def endJoin (s : State) : State :=
  { s with host := { s.host with joined := false, leaseHeld := false, grace := false, jobId := 0, jobEpoch := 0 } }

/-- Entry to BOOT at the PGOOD row of R439: reset domains, counters since BOOT, trace start (kind 0x01). -/
def enterBoot (s : State) : State :=
  let s1 := resetHalves s
  let s2 := endJoin { s1 with
    power := { s1.power with
      booted := false, trained := false, fenced := false, safe := false, fastStopped := false, inRetain := false
      retainEntry := false, retainExit := false, wakePend := false }
    fault := bootFault s1.fault
    crown := bootCrown s1.crown
    led := { s1.led with
      stopLoad := false, stopRetain := false, stopQuiesce := false, stopCool := s1.crown.coolHold
      intake := [], heldWrites := [] }
    host := { s1.host with
      p0 := linkDrop s1.time.now s1.host.p0, p1 := linkDrop s1.time.now s1.host.p1
      quiescing := false, quiesced := false, wmPend := false, peerLost := false, fenceCause := 0, accepted := false }
    sec := { s1.sec with
      stage := 0, code := 0, stopped := false, repaired := false, boots := (s1.sec.boots + 1) % 256
      pgoodAt := s1.time.now, bootEntry := 0, bootLoad := false }
    isl := { s1.isl with withdrawReq := [], withdrawnQuads := [], reserves := [] } }
  let s3 := settle s2
  traceEv 1 0xE4 1 s3.power.jepoch (traceEv 0 0xE4 1 s3.power.jepoch s3)

/-- Both SAFE pins asserted. -/
def assertPins (s : State) : State := modColl 0 (fun c => { c with pinLow := true }) (modColl 1 (fun c => { c with pinLow := true }) s)

/-- Microseconds since PGOOD or the restart (MOD_BOOT_TIME). -/
def bootUsNow (s : State) : Nat := (s.time.now - s.sec.pgoodAt) / 1000 % 2 ^ 32

/-- Start-up stops with a code of R440, both pins asserted. -/
def stopStart (code : Nat) (s : State) : State :=
  assertPins { s with
    sec := { s.sec with stopped := true, code := code, bootUs := bootUsNow s }
    fault := { s.fault with sweepAt := none } }

/-- The boot chain is complete: the islands that run release their pins and the module leaves BOOT (R439). -/
def bootDone (s : State) : State :=
  let rel := fun (i : Nat) (c : Collector) => { c with pinLow := !islandRuns i s }
  settle (modColl 0 (rel 0) (modColl 1 (rel 1) { s with
    sec := { s.sec with stage := 6, bootUs := bootUsNow s }
    power := { s.power with booted := true } }))

/-- A GRAVE source is latched. -/
def graveLatched (s : State) : Bool := s.fault.c0.grave || s.fault.c1.grave

/-- A restart is refused (R458): BOOT or RETAIN, a latched GRAVE source; a stop other than SAFE needs a power cycle. -/
def restartRefused (s : State) : Bool :=
  !s.power.on || s.power.st == .boot || s.power.st == .retain || graveLatched s
    || (s.sec.stopped && s.sec.code != 0x0B)

/-- An accepted restart (R458, R216): open tickets are voided with cause 0x01, and BOOT is entered. -/
def restart (s : State) : State := enterBoot (abortFlash (voidAll 1 0xFF s))

/-- The fence (R459): taken unless SAFE holds. -/
def fence (cause : Nat) (s : State) : State :=
  if !s.power.on ∨ s.power.safe ∨ s.power.fenced then s
  else
    let s1 := voidAll 4 0xFF s
    let s2 := endJoin { s1 with power := { s1.power with fenced := true }, host := { s1.host with fenceCause := cause } }
    settle (safeOutAll s2)

/-- A wake in RETAIN begins the exit; during the entry it waits for the entry's end (R391, R413). -/
def wake (s : State) : State :=
  if s.power.retainEntry then { s with power := { s.power with wakePend := true } }
  else if s.power.inRetain then settle { s with power := { s.power with inRetain := false, retainExit := true } }
  else s

end Sys2Proof.Machine
end

