-- ==== Sys2Proof/Machine/FabricOps.lean ====
section
/-!
DEFINITION. Shared operations of the compute fabric and of placements: firings and their abandonment, the edges and
mittens of a placement, resets of R107, streams that a part of the graph serves (R54 to R59, R94, R106, R107, R112).
-/

namespace Sys2Proof.Machine

/-! ### Placement stitches (R94) -/

/-- The gloves of a MITTEN stitch. -/
def mitGloves (t : Stitch) : List Nat :=
  let base := t.u8 12 * 336
  let q0 := t.u8 17 * 7 + t.u8 16
  match t.u8 13 with
  | 0 => [base + q0 * 4 + t.u8 14]
  | 1 => [base + q0 * 4 + t.u8 14, base + q0 * 4 + t.u8 14 + 1]
  | _ => (List.range (t.u8 19)).flatMap (fun r => (List.range (t.u8 18)).flatMap (fun c =>
      (List.range 4).map (fun k => base + (q0 + r * 7 + c) * 4 + k)))

/-- The global quads of a MITTEN stitch. -/
def mitQuads (t : Stitch) : List Nat := ((mitGloves t).map (· / 4)).eraseDups

/-- MITTEN and BUFFER stitches of a placement. -/
def fitMittens (fit : List Stitch) : List Stitch := fit.filter (fun t => t.kind == 2)
def fitBuffers (fit : List Stitch) : List Stitch := fit.filter (fun t => t.kind == 3)
def fitRoutes (fit : List Stitch) : List Stitch := fit.filter (fun t => t.kind == 4)

/-- The BUFFER stitch of a tensor. -/
def bufferOf (tensor : Nat) (fit : List Stitch) : Option Stitch := (fitBuffers fit).find? (fun t => t.id == tensor)

/-- The MITTEN stitch of a mitten. -/
def mitStitch (m : Nat) (fit : List Stitch) : Option Stitch := (fitMittens fit).find? (fun t => t.id == m + 1)

/-- The MITTEN stitch whose palms hold a T0 buffer: MITTEN names it by its stitch ID (R85, assumption 155). -/
def ownerStitch (b : Stitch) (fit : List Stitch) : Option Stitch := (fitMittens fit).find? (fun t => t.id == b.u32 24)

/-- Quads a placement uses. -/
def fitQuads (fit : List Stitch) : List Nat := ((fitMittens fit).flatMap mitQuads).eraseDups

/-- Stacks a placement uses, with mittens or lining buffers. -/
def fitStacks (fit : List Stitch) : List Nat :=
  ((fitMittens fit).map (·.u8 12) ++ ((fitBuffers fit).filter (fun t => t.u8 8 == 1)).map (·.u8 9)).eraseDups

/-- Every quad and stack that a placement uses is available (R474). -/
def fitAvailable (fit : List Stitch) (s : State) : Bool :=
  (fitQuads fit).all (fun q => quadAvail q s && stackAvail (q / 84) s) && (fitStacks fit).all (fun k => stackAvail k s)

/-- The gloves that run a mitten's firings: its own, and those of its node's mittens on other dies (R54). -/
def Mitten.every (x : Mitten) : List Nat := x.gloves ++ x.parts

/-- The mitten that fires for a mitten: itself, or the one its node fires with. -/
def leadOf (m : Nat) (s : State) : Nat := (mitten m s).lead.getD m

/-- Wrist DMA descriptors of a placement: 8 × glove + queue, and its descriptors (R38, R94). -/
def fitDma (fit : List Stitch) : Tbl (List (List Byte)) :=
  (fit.filter (fun t => t.kind == 5)).foldl (fun a t =>
    tset [] (t.u16 8 * 8 + t.u8 10) ((List.range (t.u8 11)).map (fun i => slice t.bytes (16 + 32 * i) 32)) a) []

/-! ### Firings -/

/-- A firing ends without output: its input buffers are freed with one credit each, its output credits go back (R112). -/
def freeFiring (f : Firing) (s : State) : State :=
  let s1 := f.inputs.foldl (fun a i => modEdge i.1 (fun e => { e with
    inUse := e.inUse - i.2.length, creditFlight := e.creditFlight + i.2.length }) a) s
  f.outs.foldl (fun a o => modEdge o.1 (fun e => { e with taken := e.taken - o.2, credits := e.credits + o.2 }) a) s1

/-- Abandon the firing of a mitten (R59); with `free` its edges balance at once (R112), otherwise at the reset of R107. -/
def abandonFiring (free : Bool) (m : Nat) (s : State) : State :=
  match (mitten m s).firing with
  | none => s
  | some f =>
    let s1 := modMitten m (fun x => { x with firing := none }) s
    if free then freeFiring f s1 else s1

/-- The tags of the firing a mitten has in progress. -/
def firingTags (m : Nat) (s : State) : List Tag :=
  match (mitten m s).firing with
  | none => []
  | some f => f.tags

/-- Abandon a firing and void the tickets it served. -/
def voidFiring (free : Bool) (m cause part quad detail : Nat) (s : State) : State :=
  abandonFiring free m (voidTags (firingTags m s) cause part quad detail s)

/-- Mittens that hold a glove of a global quad, or lie on a stack. -/
def mittensOnQuad (q : Nat) (s : State) : List Nat :=
  (boundMittens s).filter (fun m => (mitten m s).every.any (fun g => g / 4 == q))
def mittensOnStack (k : Nat) (s : State) : List Nat :=
  (boundMittens s).filter (fun m => (mitten m s).stack == k || (mitten m s).every.any (fun g => g / 336 == k))

/-- The thermal sensor pairs that govern a mitten: its quads, and the hot spots of its half's I/O die (R407). -/
def governing (m : Nat) (s : State) : List SensePair :=
  let x := mitten m s
  let d := x.stack / 2
  ((x.every.map (· / 4)).eraseDups ++ (List.range 4).map (fun i => 336 + 4 * d + i)).map (fun i => tget {} i s.crown.pairs)

/-! ### Which streams a part of the graph serves -/

/-- Operators fed from a set of operators by one more edge. -/
def grow (edges : List GEdge) (fwd : Bool) (ids : List Nat) : List Nat :=
  edges.foldl (fun a e =>
    if e.srcKind ≠ 0 ∨ e.dstKind ≠ 0 then a
    else if fwd ∧ a.contains e.src ∧ !a.contains e.dst then a ++ [e.dst]
    else if !fwd ∧ a.contains e.dst ∧ !a.contains e.src then a ++ [e.src]
    else a) ids

/-- Repeat `grow`. -/
def growN (edges : List GEdge) (fwd : Bool) : Nat → List Nat → List Nat
  | 0, ids => ids
  | n + 1, ids => growN edges fwd n (grow edges fwd ids)

/-- The operators a ticket stream's graph holds: those its inputs reach and those its results come from. -/
def streamOps (im : Image) (id : Nat) : List Nat :=
  let n := im.ops.length
  let starts := (im.edges.filter (fun e => e.srcKind == 1 && e.src == id && e.dstKind == 0)).map (·.dst)
  let ends := (im.edges.filter (fun e => e.dstKind == 1 && e.dst == id && e.srcKind == 0)).map (·.src)
  (growN im.edges true n starts ++ growN im.edges false n ends).eraseDups

/-- Declared streams whose graphs hold one of the operators. -/
def streamsWithOps (ops : List Nat) (s : State) : List Nat :=
  let im := curImage s
  ((im.of 0x02 1).filter (fun t => (streamOps im t.id).any (ops.contains ·))).map (·.u8 8)

/-- Declared streams whose graphs hold an operator of a mitten. -/
def streamsOfMitten (m : Nat) (s : State) : List Nat := streamsWithOps ((unitOf m s).map (·.id)) s

/-- Operators of the object a BUDGET names by kind and ID: an operator, a ticket stream or a fusion group (R92). -/
def objectOps (im : Image) (kind id : Nat) : List Nat :=
  match kind with
  | 0 => [id]
  | 1 => streamOps im id
  | 2 => growN im.edges true im.ops.length
      ((im.edges.filter (fun e => e.srcKind == 3 && e.src == id && e.dstKind == 0)).map (·.dst))
  | _ => []

/-- A mitten of an object that has a POWER BUDGET; the others are throttled only from level 2 (R395). -/
def budgeted (m : Nat) (s : State) : Bool :=
  let im := curImage s
  (im.of 0x0B 2).any (fun t => (objectOps im (t.u8 8) (t.u32 12)).any (((unitOf m s).map (·.id)).contains ·))

/-! ### Contents -/

/-- The master copy of a tensor, zero-filled when it has none (R87). -/
def masterOf (id : Nat) (s : State) : List Byte :=
  match s.pat.masters.find? (fun e => e.1 == id) with
  | some e => e.2
  | none => zeroBytes ((((curImage s).tensor id).map GTen.size).getD 0)

/-- The contents of a state tensor. -/
def stateOf (id : Nat) (s : State) : List Byte :=
  match s.fab.tensors.find? (fun e => e.1 == id) with
  | some e => e.2
  | none => masterOf id s

/-- Write a state tensor. -/
def setStateTensor (id : Nat) (bs : List Byte) (s : State) : State :=
  { s with fab := { s.fab with tensors := s.fab.tensors.filter (fun e => e.1 != id) ++ [(id, bs)] } }

/-- Return a state tensor to its initial contents. -/
def resetStateTensor (id : Nat) (s : State) : State :=
  { s with fab := { s.fab with tensors := s.fab.tensors.filter (fun e => e.1 != id) } }

/-! ### Edges -/

/-- An edge has token buffers: it is not internal to a fused group. -/
def tokenEdges (im : Image) : List GEdge := im.edges.filter (fun e => !im.isInternal e)

/-- An edge at load: INIT tokens with the initial contents, DEPTH − INIT credits (R90). -/
def initEdge (e : GEdge) (s : State) : Edge :=
  { depth := e.depth, credits := e.depth - e.init
    held := List.replicate e.init { data := masterOf e.tensor s } }

/-- Every tag on an edge. -/
def edgeTags (x : Edge) : List Tag := (x.flight ++ x.held).flatMap (·.tags)

/-- Discard the tokens of an edge and reset it (R107); the tickets of its tokens are voided. -/
def resetEdge (e : GEdge) (part quad : Nat) (s : State) : State :=
  let s1 := voidTags (edgeTags (edge e.id s)) 1 part quad 0 s
  modEdge e.id (fun _ => initEdge e s1) s1

/-- The edges that touch a mitten. -/
def edgesOfMitten (m : Nat) (s : State) : List GEdge :=
  inEdges m s ++ (outEdges m s).filter (fun e => !(inEdges m s).any (fun i => i.id == e.id))

/-! ### Binding mittens -/

/-- A constant of an operator that must be refilled: a constant input placed in palms or lining (R102). -/
def needsRefill (im : Image) (fit : List Stitch) (op : Nat) : Bool :=
  (im.unit op).any (fun o => o.ins.any (fun t =>
    match im.tensor t, bufferOf t fit with
    | some x, some b => x.role == 1 && decide (b.u8 8 < 2)
    | _, _ => false))

/-- The MITTEN stitches of a node, one for each die it is spread over (R54). -/
def mittensOfOp (op : Nat) (fit : List Stitch) : List Stitch := (fitMittens fit).filter (fun t => t.u32 8 == op)

/-- The stitch with which a node's mittens fire: the lowest mitten number. -/
def leadStitch (op : Nat) (fit : List Stitch) : Option Stitch :=
  (mittensOfOp op fit).foldl (fun b t =>
    match b with
    | none => some t
    | some x => if t.id < x.id then some t else some x) none

/-- The mitten of a MITTEN stitch, waiting for its constants; the parts of a split node fire with its lowest mitten (R54). -/
def bindMitten (im : Image) (fit : List Stitch) (now : Nat) (t : Stitch) : Mitten :=
  let op := t.u32 8
  let x : Mitten := { bound := true, op := op, stack := t.u8 12, gloves := mitGloves t, secure := im.secure 0 op, lastFire := now }
  match leadStitch op fit with
  | none => x
  | some l =>
    if l.id = t.id then
      { x with waitConst := needsRefill im fit op
               parts := ((mittensOfOp op fit).filter (fun p => p.id != t.id)).flatMap mitGloves }
    else { x with lead := some (l.id - 1) }

/-- Mittens whose stitch, or a stitch of whose node, differs between two placements, ascending. -/
def changedMittens (old new : List Stitch) : List Nat :=
  let ops := (((fitMittens old).filter (fun t => !(new.contains t))) ++ ((fitMittens new).filter (fun t => !(old.contains t)))).map (·.u32 8)
  (((fitMittens old ++ fitMittens new).filter (fun t => ops.contains (t.u32 8))).map (·.id - 1)).eraseDups

/-- A new placement moves a constant of an operator's unit that lies in palms or lining: its buffer changes, or the palms it
lies in move with their mitten (R107). -/
def constMoved (im : Image) (old new : List Stitch) (op : Nat) : Bool :=
  (im.unit op).any (fun o => o.ins.any (fun t =>
    match im.tensor t, bufferOf t new with
    | some x, some b => x.role == 1 && decide (b.u8 8 < 2)
        && (bufferOf t old != some b || (b.u8 8 == 0 && ownerStitch b old != ownerStitch b new))
    | _, _ => false))

/-! ### Lost storage (R107, R168) -/

/-- Storage of a placed buffer lies in a lost quad's palms or a lost stack's lining. -/
def bufferLost (fit : List Stitch) (part : Nat) (b : Stitch) : Bool :=
  if 0x100 ≤ part then
    b.u8 8 == 0 && (match ownerStitch b fit with
      | none => false
      | some t => (mitQuads t).contains (part - 0x100))
  else if part < 4 then
    (b.u8 8 == 1 && b.u8 9 == part) || (b.u8 8 == 0 && (match ownerStitch b fit with
      | none => false
      | some t => t.u8 12 == part))
  else false

/-- Reset the state tensors that a lost part held. -/
def resetLostStates (old : List Stitch) (part : Nat) (s : State) : State :=
  (((fitBuffers old).filter (bufferLost old part)).filter (fun b =>
    (((curImage s).tensor b.id).map (fun x => x.role == 4)).getD false)).foldl (fun a b => resetStateTensor b.id a) s

/-- A scene memory. -/
def scene (m : Nat) (s : State) : SceneMem := tget {} m s.scene

/-- Change a scene memory. -/
def modScene (m : Nat) (f : SceneMem → SceneMem) (s : State) : State := { s with scene := tmod {} m f s.scene }

/-- The home mitten of a scene memory: the mitten of its scoring reader (R163). -/
def homeMitten (x : SceneMem) (s : State) : Option Nat := mittenOf x.scorer s

/-- A page becomes LOST when `p` holds of it. -/
def losePages (p : ScenePage → Bool) (x : SceneMem) : SceneMem :=
  { x with pages := x.pages.map (fun g => if g.st == .valid && p g then { g with st := .lost } else g) }

/-- The scene memories after a switch (R168): pages in lost palms or lining, or in palms of a home mitten whose stitch
changed, are LOST. -/
def loseScenes (old : List Stitch) (changed : List Nat) (part : Nat) (s : State) : State :=
  let f := fun (x : SceneMem) =>
    match homeMitten x s with
    | none => x
    | some h =>
      let hit : Bool := (match mitStitch h old with
        | none => false
        | some t => (decide (0x100 ≤ part) && (mitQuads t).contains (part - 0x100)) || (decide (part < 4) && t.u8 12 == part))
      losePages (fun g => (g.tier == 0 && (hit || changed.contains h)) || (g.tier == 1 && decide (part < 4) && g.place == part)) x
  { s with scene := tmapAll {} (fun _ => f) s.scene }

/-! ### Switching placements (R106, R107) -/

/-- A route table of a quad router from a ROUTE stitch: (router, destination) to output port. -/
def routeEntries (t : Stitch) : List (Nat × Option Nat) :=
  let r := t.u8 8 * 84 + t.u8 9
  (List.range 86).map (fun d => (r * 86 + d, some (t.u8 (16 + d))))

/-- The route tables of a placement. -/
def routesOf (fit : List Stitch) : List (Nat × Nat) :=
  (fitRoutes fit).flatMap (fun t => (routeEntries t).map (fun e => (e.1, e.2.getD 0)))

/-- A die's part of the route tables. -/
def routesOfDie (k : Nat) (rs : List (Nat × Nat)) : List (Nat × Nat) := rs.filter (fun e => e.1 / (84 * 86) == k)

/-- Dies whose tables a switch changes begin to drain (R42). -/
def startDrains (old new : List Stitch) (s : State) : State :=
  let ks := (List.range 4).filter (fun k => routesOfDie k (routesOf old) != routesOfDie k (routesOf new))
  { s with fab := { s.fab with
      draining := s.fab.draining.filter (fun d => !ks.contains d.1) ++ ks.map (fun k => (k, routesOfDie k (routesOf new))) } }

/-- Install another placement after the loss of a part: the mittens whose stitch changed lose their firing, their tokens
and their bindings, and a mitten waits for the constants that move; every other mitten continues (R107). -/
def switchFit (new : List Stitch) (part : Nat) (s : State) : State :=
  let old := s.pat.fit
  let ch := changedMittens old new
  let pid := partId part
  let quad := partQuad part
  let s1 := ch.foldl (fun a m => voidFiring false m 1 pid quad 0 a) s
  let es := ((ch.flatMap (fun m => edgesOfMitten m s)).map (·.id)).eraseDups
  let s2 := ((tokenEdges (curImage s)).filter (fun e => es.contains e.id)).foldl (fun a e => resetEdge e pid quad a) s1
  let s3 := loseScenes old ch part (resetLostStates old part s2)
  let s4 := ch.foldl (fun a m =>
    match mitStitch m new with
    | none => modMitten m (fun _ => {}) a
    | some t => modMitten m (fun x => { bindMitten (curImage a) new a.time.now t with waitConst := x.waitConst }) a) s3
  let s5 := mapMittens (fun _ x => { x with
    waitConst := x.waitConst || (x.bound && x.lead.isNone && constMoved (curImage s4) old new x.op) }) s4
  startDrains old new { s5 with
    pat := { s5.pat with fit := new, switches := satAdd 16 s5.pat.switches 1 }
    fab := { s5.fab with dma := fitDma new } }

/-- A placement with the deltas of an alternate applied (R95): a delta of kind 6 removes a stitch, any other replaces or
adds one. -/
def applyDeltas (fit : List Stitch) : List Stitch → List Stitch
  | [] => fit
  | d :: r =>
    if d.kind = 6 then applyDeltas (fit.filter (fun t => !(t.kind == d.u8 8 && t.id == d.u32 12))) r
    else applyDeltas (fit.filter (fun t => !(t.kind == d.kind && t.id == d.id)) ++ [d]) r

end Sys2Proof.Machine
end

