-- ==== Sys2Proof/Machine/Time.lean ====
section
/-!
DEFINITION. Timebase, stamps and network time: the meanings of its commands (R298 to R319, R26).
-/

namespace Sys2Proof.Machine

open Host (Outcome)

/-- Largest RATE: ±500 ppm (R301). -/
def rateMax : Int := 2147483

/-- Largest local trim of IOD1: ±200 ppm (R302). -/
def trimMax : Int := 858993

/-- Set RATE, clamped (R301), with its trace event on both dies. -/
def setRate (r : Int) (s : State) : State :=
  let c := clampI (-rateMax) rateMax r
  let s1 := { s with time := { s.time with rate := c, rateClamp := s.time.rateClamp || decide (c ≠ r) } }
  traceEv 1 0xE2 4 (uenc 32 c) (traceEv 0 0xE2 4 (uenc 32 c) s1)

/-- RATE_WRITE (R301): ignored while AGENT = 1. -/
def rateWrite (v : Nat) (s : State) : State := if s.time.agentOn then s else setRate (sext 32 v) s

def execRateWrite (t value : Nat) (s : State) : Outcome State Fault Refusal := .next (rateWrite value (advanceTo t s))

/-! ### The one step (R300, R306, R307) -/

/-- The four seam engines. -/
def engines (s : State) : List SeamEngine := [s.pat.e0, s.pat.e1, s.pat.e2, s.pat.e3]

/-- An engine is ARMED or TAKING. -/
def engBusy (e : SeamEngine) : Bool := e.st == 1 || e.st == 2

/-- A patch is in progress: from its GO until LOADED or FAILED (R475). -/
def patchInProgress (s : State) : Bool :=
  match s.pat.job with
  | none => false
  | some j => j.patch

/-- What keeps a step from being applied (R300, second row). -/
def stepBlocked (s : State) : Bool :=
  (engines s).any (fun e => engBusy e && decide (e.stamp ≠ 0)) || patchInProgress s

/-- First judgement of a step request. -/
def judgeStep (s : State) : State :=
  if s.time.stepUsed then latchBoth 0x1A3 0 { s with time := { s.time with stepRej := true } }
  else if stepBlocked s then { s with time := { s.time with stepBusy := true } }
  else { s with time := { s.time with stepPending := true } }

/-- TIME_STEP_REQUEST (R300): TIME_CTRL.STEP, ignored while AGENT = 1. -/
def timeStepRequest (s : State) : State := if s.time.agentOn then s else judgeStep s

def execTimeStepRequest (t : Nat) (s : State) : Outcome State Fault Refusal := .next (timeStepRequest (advanceTo t s))

/-- A timebase moved by `d` ns. -/
def tbShift (tb : Nat) (d : Int) : Nat := (((tb : Int) + d * 2 ^ 48) % 2 ^ 112).toNat

/-- The two step events of a die (kinds 0x02 and 0x03). -/
def stepEvents (die : Nat) (d : Int) (s : State) : State :=
  let u := uenc 64 d
  traceEv die 0xE2 3 (u / 2 ^ 32) (traceEv die 0xE2 2 (u % 2 ^ 32) s)

/-- A stream's samples after a step of its port's timebase: what is measured from their stamps is corrected (R306). -/
def steppedStream (d : Int) (x : SensStream) : SensStream :=
  { x with entries := x.entries.map (fun p => { p with stepSum := p.stepSum + d }) }

/-- A group after a step of its home timebase from one stamp to another: its open slots are corrected (R306), its grid starts
anew, and the slot times stepped past are never opened and count as SKIPPED (R307). -/
def steppedGroup (d : Int) (before after : Nat) (x : FuseGroup) : FuseGroup :=
  let points := gridCount (x.periodUs * 1000) x.phaseNs
  { x with
    open_ := x.open_.map (fun f => { f with stepSum := f.stepSum + d })
    lastT := none
    skipped := satAdd 10 x.skipped (points (after - 1) - points before) }

/-- A loop slot after a step: its ages and latency are corrected (R306), and a TIMER's grid starts anew (R307). -/
def steppedSlot (d : Int) (x : LoopSlot) : LoopSlot :=
  { x with
    stepSum := x.stepSum + d
    lastTrig := if x.sample then x.lastTrig.map (fun l => ((l : Int) + d).toNat) else none
    chans := x.chans.map (fun c => { c with stepSum := c.stepSum + d }) }

/-- The blocks whose stamps come from a die's timebase, after its step from the state `s0`. -/
def stepBlocks (die : Nat) (d : Int) (s0 s : State) : State :=
  let group := steppedGroup d (stamp die s0) (stamp die s)
  { s with
    sense := { s.sense with
      streams := tmapAll {} (fun _ x => if x.declared ∧ sensDie x = die then steppedStream d x else x) s.sense.streams
      groups := tmapAll {} (fun _ x => if x.declared ∧ x.home = die then group x else x) s.sense.groups }
    loop := { s.loop with
      slots := tmapAll {} (fun n x => if x.declared ∧ n / 8 = die then steppedSlot d x else x) s.loop.slots } }

/-- Add Δ to a die's timebase (R300), with its trace events; running tickets of the die are corrected (R306), and a high
PPS_OUT keeps its length (R313). -/
def stepDie (die : Nat) (d : Int) (s : State) : State :=
  let s1 :=
    if die = 0 then { s with time := { s.time with tb0 := tbShift s.time.tb0 d } }
    else { s with time := { s.time with
      tb1 := tbShift s.time.tb1 d, stepOwed := none, ppsRise := tbShift s.time.ppsRise d } }
  mapTickets (fun k => if ticketOpen k ∧ k.injectAt.isSome ∧ liveDie (homeOf k.stream s) s = die then
      { k with stepSum := k.stepSum + d } else k)
    (stepBlocks die d s (stepEvents die d s1))

/-- Apply the step (R300): both timebases at one tick, or the survivor alone, or IOD0 alone when the exchange of that
tick fails (R319). -/
def applyStep (d : Int) (ok : Bool) (s : State) : State :=
  let s1 := { s with time := { s.time with
      stepPending := false, stepUsed := true, stepLog := d, agentDelta := none, lastPair := none } }
  let s2 := if dieUp 0 s then stepDie 0 d s1 else s1
  if !dieUp 1 s then s2
  else if ok ∨ !dieUp 0 s then stepDie 1 d s2
  else { s2 with time := { s2.time with stepOwed := some d, skewed := true } }

/-- Second judgement, at the tick of application. -/
def takeStep (ok : Bool) (s : State) : State :=
  if !s.time.stepPending then s
  else if s.time.stepUsed then
    latchBoth 0x1A3 0 { s with time := { s.time with stepPending := false, stepRej := true, agentDelta := none } }
  else if stepBlocked s then
    { s with time := { s.time with stepPending := false, stepBusy := true, agentDelta := none } }
  else applyStep (s.time.agentDelta.getD s.time.stepDelta) ok s

/-- IOD1 minus IOD0 in ns. -/
def measuredSkew (s : State) : Int := ((s.time.tb1 : Int) - s.time.tb0) / 2 ^ 48

/-- A successful exchange (R302, R318): the owed step, the difference, the new trim; SKEW_VALID returns once the
difference is back within 20 ns. -/
def exchangeOk (trim : Int) (s : State) : State :=
  let s0 := match s.time.stepOwed with
    | none => s
    | some d => stepDie 1 d s
  let k := measuredSkew s0
  let far := decide (200 < k ∨ k < -200)
  let valid := s0.time.skewValid || decide (-20 ≤ k ∧ k ≤ 20)
  let s1 := { s0 with time := { s0.time with
      skewNs := satS 16 k
      trim := clampI (-trimMax) trimMax trim
      failRun := 0
      skewValid := valid
      skewed := far || (s0.time.skewed && !valid) } }
  if far then latchBoth 0x1A2 0 s1 else s1

/-- A failed exchange (R302): the fourth in a row starts the holdover. -/
def exchangeFail (s : State) : State :=
  let n := s.time.failRun + 1
  let s1 := { s with time := { s.time with failRun := n, skewFails := satAdd 16 s.time.skewFails 1 } }
  if n = 4 then latch 0x5A5 0 { s1 with time := { s1.time with skewValid := false, skewed := true } } else s1

/-- ALIGNMENT_EXCHANGE (R302, R300): every 125 µs; `trim` is the trim IOD1's servo forms. With a die isolated no
exchange takes place and a pending step is applied to the survivor. -/
def alignmentExchange (ok : Bool) (trim : Int) (s : State) : State :=
  if !dieUp 0 s ∨ !dieUp 1 s then takeStep false s
  else
    let s1 := takeStep ok s
    if ok then exchangeOk trim s1 else exchangeFail s1

def execAlignmentExchange (t : Nat) (ok : Bool) (trim : Int) (s : State) : Outcome State Fault Refusal :=
  .next (alignmentExchange ok trim (advanceTo t s))

/-! ### The time agent (R308 to R311) -/

/-- Codes of the agent states (R311). -/
def AgentState.code : AgentState → Nat
  | .free => 0
  | .acquiring => 1
  | .locked => 2
  | .holdover => 3
  | .host => 4

/-- The port in service: TIME_CFG.PORT, or ALT_PORT when that port or its die is isolated (R308). -/
def agentPort (s : State) : Nat :=
  if isIso (0x28 + s.time.port) s ∨ !dieUp (s.time.port / 2) s then s.time.altPort else s.time.port

/-- Change the agent's state, with its trace event; leaving LOCKED for ACQUIRING or HOLDOVER raises the source. -/
def setAgent (n : AgentState) (s : State) : State :=
  let o := s.time.agent
  if o = n then s
  else
    let d := agentPort s / 2
    let s1 := { s with time := { s.time with agent := n, agentDie := d } }
    let s2 := traceEv d 0xE2 6 (n.code + 16 * o.code) s1
    if o = .locked ∧ (n = .acquiring ∨ n = .holdover) then latchBoth 0x1A4 0 s2 else s2

/-- Forget a measurement in progress. -/
def dropExchange (s : State) : State :=
  { s with time := { s.time with
      syncPend := none, lastPair := none, pdelayReq := none, pdelayResp := none, okRun := 0 } }

/-- TIME_AGENT_WRITE (R311, R319): TIME_CFG.AGENT; RATE is kept. -/
def timeAgentWrite (on : Bool) (s : State) : State :=
  if on = s.time.agentOn then s
  else
    let s1 := dropExchange { s with time := { s.time with agentOn := on, lastSync := none } }
    setAgent (if on then .free else .host) s1

def execTimeAgentWrite (t : Nat) (on : Bool) (s : State) : Outcome State Fault Refusal :=
  .next (timeAgentWrite on (advanceTo t s))

/-- The ingress stamp of a frame on a port, corrected by ETH_TS_ASYM (R309). -/
def ingressStamp (e : Nat) (s : State) : Nat :=
  ((stamp (e / 2) s : Int) + (eport e s).asym).toNat % 2 ^ 64

/-- A message of the agent counts: AGENT = 1, on the port in service, whose link is up. -/
def agentHears (e : Nat) (s : State) : Bool := s.time.agentOn && decide (e = agentPort s) && ethUp e s

/-- GPTP_SYNC (R308): a one-step Sync is discarded and counted; a two-step Sync waits for its Follow_Up. -/
def gptpSync (e q : Nat) (two : Bool) (s : State) : State :=
  if !agentHears e s then s
  else if !two then { s with time := { s.time with gptpOneStep := satAdd 16 s.time.gptpOneStep 1 } }
  else { s with time := { s.time with syncPend := some (q, ingressStamp e s), lastSync := some s.time.now } }

def execGptpSync (t port seq : Nat) (twoStep : Bool) (s : State) : Outcome State Fault Refusal :=
  .next (gptpSync port seq twoStep (advanceTo t s))

/-- The rate ratio to the source over the last interval, applied to the RATE in force, in 2^-32 units (R310). -/
def ratioRate (s : State) (gm loc : Int) : Int :=
  match s.time.lastPair with
  | none => s.time.rate
  | some (g0, l0) =>
    if loc - l0 ≤ 0 then s.time.rate
    else (2 ^ 32 + s.time.rate) * (gm - g0) / (loc - l0) - 2 ^ 32

/-- |x|. -/
def absI (x : Int) : Nat := x.natAbs

/-- State transitions of R311 after a measured offset. -/
def agentJudge (off : Int) (s : State) : State :=
  let ok := decide (absI off ≤ s.time.limit)
  let run := if ok then s.time.okRun + 1 else 0
  let s1 := { s with time := { s.time with okRun := run } }
  match s.time.agent with
  | .free => setAgent .acquiring s1
  | .holdover => setAgent .acquiring s1
  | .acquiring => if 8 ≤ run then setAgent .locked s1 else s1
  | .locked => if ok then s1 else setAgent .acquiring { s1 with time := { s1.time with okRun := 0 } }
  | .host => s1

/-- Steer from a source time `gm` met at the local stamp `loc` (R310): the one step when it is still free and the offset
exceeds the threshold, RATE otherwise. -/
def agentSteer (gm loc : Int) (s : State) : State :=
  let off := gm - loc
  let s1 := { s with time := { s.time with offset := satS 32 off } }
  if !s.time.stepUsed ∧ s.time.stepTh < absI off then
    agentJudge off (judgeStep { s1 with time := { s1.time with agentDelta := some off, lastPair := none } })
  else
    let r := ratioRate s gm loc + Config.phaseTerm off
    let s2 := setRate r { s1 with time := { s1.time with lastPair := some (gm, loc) } }
    agentJudge off s2

/-- GPTP_FOLLOW_UP (R310): completes the pair; `origin` is the grandmaster's corrected origin time in ns. -/
def gptpFollowUp (e q origin : Nat) (s : State) : State :=
  if !agentHears e s then s
  else
    match s.time.syncPend with
    | none => s
    | some (q', loc) =>
      if q ≠ q' then s
      else
        let s1 := { s with time := { s.time with syncPend := none, gptpSync := satAdd 16 s.time.gptpSync 1 } }
        if s.time.source then s1 else agentSteer ((origin : Int) + s.time.linkDelay) loc s1

def execGptpFollowUp (t port seq origin : Nat) (s : State) : Outcome State Fault Refusal :=
  .next (gptpFollowUp port seq origin (advanceTo t s))

/-- An IEEE 802.1AS frame of the agent (R308 framing). -/
def gptpFrame (e kind q st : Nat) (s : State) : EthFrame :=
  { dst := 0x0180C200000E, src := s.host.macA + 2 + e, etherType := 0x88F7, payload := Config.gptpPayload kind q st }

/-- GPTP_PDELAY_REQ_SEND (R308). -/
def pdelayReqSend (s : State) : State :=
  let e := agentPort s
  if !agentHears e s then s
  else
    let q := s.time.pdelaySeq
    let s1 := { s with time := { s.time with pdelaySeq := wrapAdd 16 q 1, pdelayReq := none, pdelayResp := none } }
    ethSend e 7 (gptpFrame e 2 q 0 s) (.agentReq q) s1

def execGptpPdelayReqSend (t : Nat) (s : State) : Outcome State Fault Refusal := .next (pdelayReqSend (advanceTo t s))

/-- GPTP_PDELAY_REQ_RX (R308): answered with a Pdelay_Resp and its Follow_Up. -/
def pdelayReqRx (e q : Nat) (s : State) : State :=
  if !agentHears e s then s
  else
    let s1 := ethSend e 7 (gptpFrame e 3 q (ingressStamp e s) s) .plain s
    ethSend e 7 (gptpFrame e 0xA q (stamp (e / 2) s1) s1) .plain s1

def execGptpPdelayReqRx (t port seq : Nat) (s : State) : Outcome State Fault Refusal :=
  .next (pdelayReqRx port seq (advanceTo t s))

/-- GPTP_PDELAY_RESP_RX (R308): the Resp brings t2, its Follow_Up t3; the mean link delay follows. -/
def pdelayRespRx (e q : Nat) (fu : Bool) (v : Nat) (s : State) : State :=
  if !agentHears e s then s
  else
    match s.time.pdelayReq with
    | none => s
    | some (q1, t1) =>
      if q ≠ q1 then s
      else if !fu then { s with time := { s.time with pdelayResp := some (q, v, ingressStamp e s) } }
      else
        match s.time.pdelayResp with
        | none => s
        | some (_, t2, t4) =>
          { s with time := { s.time with
              linkDelay := (((t4 : Int) - t1) - ((v : Int) - t2)) / 2
              pdelayReq := none
              pdelayResp := none } }

def execGptpPdelayRespRx (t port seq : Nat) (followUp : Bool) (value : Nat) (s : State) : Outcome State Fault Refusal :=
  .next (pdelayRespRx port seq followUp value (advanceTo t s))

/-- GPTP_ANNOUNCE_RX (R308, R311): best master selection among the port's announcements; a change is traced. -/
def announceRx (e ident prio : Nat) (s : State) : State :=
  if !agentHears e s then s
  else
    let better := match s.time.gm with
      | none => true
      | some (i, p) => decide (ident = i ∨ prio < p ∨ (prio = p ∧ ident < i))
    if better then
      let changed := decide ((s.time.gm.map (·.1)) ≠ some ident)
      let s1 := { s with time := { s.time with gm := some (ident, prio) } }
      if changed then traceEv (e / 2) 0xE2 7 (ident % 2 ^ 32) s1 else s1
    else s

def execGptpAnnounceRx (t port identity priority : Nat) (s : State) : Outcome State Fault Refusal :=
  .next (announceRx port identity priority (advanceTo t s))

/-- GPTP_SIGNALING_RX (R308): received and ignored. -/
def execGptpSignalingRx (t _port : Nat) (s : State) : Outcome State Fault Refusal := .next (advanceTo t s)

/-- GPTP_SYNC_TIMEOUT (R311): no Sync for 3 s in LOCKED. -/
def syncTimeout (s : State) : State :=
  match s.time.agent, s.time.lastSync with
  | .locked, some l => if l + 3000000000 ≤ s.time.now then setAgent .holdover { s with time := { s.time with okRun := 0 } } else s
  | _, _ => s

def execGptpSyncTimeout (t : Nat) (s : State) : Outcome State Fault Refusal := .next (syncTimeout (advanceTo t s))

/-- RATE_DRIFT_CHECK (R318): an island finds that RATE does not match the measured drift. -/
def execRateDriftCheck (t island : Nat) (ok : Bool) (s : State) : Outcome State Fault Refusal :=
  .next (if ok then advanceTo t s else latch (island * 0x400 + 0x1A4) 0 (advanceTo t s))

/-! ### PPS (R26, R312, R313) -/

/-- The whole second nearest a stamp. -/
def nearestSecond (st : Nat) : Nat := (st + 500000000) / 1000000000 * 1000000000

/-- PPS_IN_EDGE (R312): captured by both timebases; too early an edge is recorded and ignored. -/
def ppsInEdge (s : State) : State :=
  let early := match s.time.ppsLast with
    | none => false
    | some l => decide (s.time.now < l + 500000000)
  let s1 := { s with time := { s.time with ppsIn0 := stamp 0 s, ppsIn1 := stamp 1 s, ppsLast := some s.time.now } }
  let s2 := traceEv 1 0xE2 5 (stampFrac 1 s) (traceEv 0 0xE2 5 (stampFrac 0 s) s1)
  if early then latchBoth 0x1A6 0 s2
  else if s.time.agentOn ∧ s.time.source then
    let st := stamp (agentPort s / 2) s
    agentSteer (nearestSecond st) st s2
  else s2

def execPpsInEdge (t : Nat) (s : State) : Outcome State Fault Refusal := .next (ppsInEdge (advanceTo t s))

/-- PPS_OUT_RISE (R313): IOD1's timebase is at a whole second, within 10 ns. -/
def ppsOutRise (s : State) : State :=
  if s.power.on ∧ dieUp 1 s ∧ !s.time.ppsOut ∧ stamp 1 s % 1000000000 < 10 then
    { s with time := { s.time with ppsOut := true, ppsRise := tbNow 1 s } }
  else s

def execPpsOutRise (t : Nat) (s : State) : Outcome State Fault Refusal := .next (ppsOutRise (advanceTo t s))

/-- PPS_OUT_FALL (R313): 10^8 ns of timebase time after the rise, leaving out any step. -/
def ppsOutFall (s : State) : State :=
  if s.time.ppsOut ∧ s.time.ppsRise + 100000000 * 2 ^ 48 ≤ tbNow 1 s then { s with time := { s.time with ppsOut := false } } else s

def execPpsOutFall (t : Nat) (s : State) : Outcome State Fault Refusal := .next (ppsOutFall (advanceTo t s))

/-! ### Transmit timestamp queue and trace copy (R314, R315) -/

/-- ETH_TXTS_POP (R314): a write of 1 removes the head; ignored for an isolated port (R469). -/
def txtsPop (e v : Nat) (s : State) : State :=
  if offBlocked (0x000E0214 + e * 0x4000) s ∨ !bit v 0 then s else modEth e (fun p => { p with txts := p.txts.drop 1 }) s

def execEthTxtsPop (t port value : Nat) (s : State) : Outcome State Fault Refusal := .next (txtsPop port value (advanceTo t s))

/-- TIME_STATUS.CFG_BUSY is set. -/
def timeCfgBusy (s : State) : State := { s with time := { s.time with cfgBusy := true } }

/-- TRACE_COPY_GO (R315): a write of TRACE_COPY_CTRL; while BUSY, GO is ignored and PORT falls under R12. -/
def traceCopyGo (d v : Nat) (s : State) : State :=
  rwWrite (!(trace d s).busy) (0x00020110 + d * 0x40) timeCfgBusy
    (fun z => setTrace d { trace d z with copyPort := b2n (bit v 1), busy := bit v 0 } z) s

def execTraceCopyGo (t die value : Nat) (s : State) : Outcome State Fault Refusal := .next (traceCopyGo die value (advanceTo t s))

/-- The bytes of a trace ring, oldest event first. -/
def ringOldestFirst (d : Nat) (s : State) : List Byte :=
  let u := trace d s
  let n := if u.full then 2 ^ 18 else u.wr
  let first := if u.full then u.wr % 2 ^ 18 else 0
  let base := Config.traceRing d
  devRd (base + first * 16) ((n - first) * 16) s ++ devRd base (first * 16) s

/-- TRACE_COPY_DONE (R315): the ring is in host memory and BUSY clears. -/
def traceCopyDone (d : Nat) (s : State) : State :=
  let u := trace d s
  if u.busy then
    setTrace d { u with busy := false } (hostWr u.copyPort u.copyAddr (ringOldestFirst d s) s)
  else s

def execTraceCopyDone (t die : Nat) (s : State) : Outcome State Fault Refusal := .next (traceCopyDone die (advanceTo t s))

end Sys2Proof.Machine
end

