-- ==== Sys2Proof/Machine/HostPath.lean ====
section
/-!
DEFINITION. The host frame path of the Ethernet ports (R453) and the fusion event rings (R253).
-/

namespace Sys2Proof.Machine

open Host (Outcome)

/-- The bytes of a frame, destination address through payload. -/
def ethBytes (f : EthFrame) : List Byte :=
  beBytes 6 f.dst ++ beBytes 6 f.src
    ++ (match f.vlan with
        | none => []
        | some v => beBytes 2 0x8100 ++ beBytes 2 v)
    ++ beBytes 2 f.etherType ++ f.payload

/-- Descriptors of a frame-path ring; SIZE_LOG2 outside 4 to 12 counts as 4. -/
def hrSize (r : HrRing) : Nat := 2 ^ (if 4 ≤ r.sizeLog2 ∧ r.sizeLog2 ≤ 12 then r.sizeLog2 else 4)

/-- PHASE of the entry a free-running count falls on (R201). -/
def phaseOf (size count : Nat) : Nat := if count / size % 2 = 0 then 1 else 0

/-- A received frame goes to the host (R453): written to the next receive buffer, its descriptor written back; discarded
and counted without a free descriptor. -/
def hostRx (e : Nat) (f : EthFrame) (s : State) : State :=
  let r := (eport e s).rx
  if !r.enable ∨ r.prod = r.done ∨ !carried r.port s then modEth e (fun p => { p with drop := satAdd 16 p.drop 1 }) s
  else
    let d := r.base + r.done % hrSize r * 16
    let addr := rdLe s.host.mem d 8
    let cap := rdLe s.host.mem (d + 8) 2
    let bs := ethBytes f
    let kept := bs.take cap
    let flags := 1 + 2 * b2n (decide (cap < bs.length)) + 128 * phaseOf (hrSize r) r.done
    let s1 := hostWr r.port addr kept s
    let s2 := hostWr r.port d (leBytes 8 (ingressStamp e s) ++ leBytes 2 kept.length ++ leBytes 1 flags ++ zeroBytes 5) s1
    sendVec r.port r.vector (modEth e (fun p => { p with rx := { p.rx with done := wrapAdd 16 p.rx.done 1 } }) s2)

/-- The frame a transmit descriptor names, sent with the port's source address as written by the host. -/
def txFrame (bs : List Byte) : EthFrame := frameOfBytes bs (beVal (slice bs 6 6))

/-- Transmit descriptors from DONE up to PROD, in ring order (R453). -/
def hostTx (e : Nat) : Nat → State → State
  | 0, s => s
  | n + 1, s =>
    let r := (eport e s).tx
    if !r.enable ∨ r.prod = r.done then s
    else if !carried r.port s then s
    else
      let d := r.base + r.done % hrSize r * 16
      let len := rdLe s.host.mem (d + 8) 2
      let bs := rdBytes s.host.mem (rdLe s.host.mem d 8) len
      let o := if bit (rdLe s.host.mem (d + 10) 1) 0 then TxOwner.stamped (rdLe s.host.mem (d + 12) 2) else .plain
      let s1 := ethSend e (rdLe s.host.mem (d + 11) 1 % 8) (txFrame bs) o s
      hostTx e n (modEth e (fun p => { p with tx := { p.tx with done := wrapAdd 16 p.tx.done 1 } }) s1)

/-- Serve the transmit ring of a port, and signal the descriptors completed. -/
def hostServe (e : Nat) (s : State) : State :=
  let n := ((eport e s).tx.prod + 65536 - (eport e s).tx.done) % 65536
  let s1 := hostTx e n s
  if (eport e s1).tx.done = (eport e s).tx.done then s1 else sendVec (eport e s1).tx.port (eport e s1).tx.vector s1

/-- ETH_TX_PRODUCE (R453): PROD is written and the port transmits; ignored for a port that is isolated (R469). -/
def ethTxProduce (e prod : Nat) (s : State) : State :=
  if offBlocked (0x000E030C + e * 0x4000) s then s
  else hostServe e (modEth e (fun p => { p with tx := { p.tx with prod := prod % 65536 } }) s)

def execEthTxProduce (t port prod : Nat) (s : State) : Outcome State Fault Refusal := .next (ethTxProduce port prod (advanceTo t s))

/-! ### Fusion events (R253) -/

/-- The event ring of a die. -/
def evtRing (d : Nat) (s : State) : EvtRing := if d = 0 then s.sense.evt0 else s.sense.evt1

/-- Change the event ring of a die. -/
def modEvt (d : Nat) (f : EvtRing → EvtRing) (s : State) : State :=
  if d = 0 then { s with sense := { s.sense with evt0 := f s.sense.evt0 } }
  else { s with sense := { s.sense with evt1 := f s.sense.evt1 } }

/-- Write one event record: kind, group, members, FSEQ, stamp, detail, stream. -/
def fuseEvt (d kind g a b fseq st detail stream : Nat) (s : State) : State :=
  let r := evtRing d s
  if !r.enable then s
  else
    let bs := leBytes 1 kind ++ leBytes 1 (128 * phaseOf 1024 r.wr) ++ leBytes 1 g ++ leBytes 1 a ++ leBytes 1 b ++ zeroBytes 3
      ++ leBytes 8 fseq ++ leBytes 8 st ++ leBytes 4 detail ++ leBytes 1 stream ++ zeroBytes 3
    let s1 := hostWr r.port (r.base + r.wr % 1024 * 32) bs s
    let s2 := modEvt d (fun x => { x with wr := wrapAdd 16 x.wr 1 }) s1
    if r.irq then sendVec r.port r.vector s2 else s2

end Sys2Proof.Machine
end

