-- ==== Sys2Proof/Machine/FuseOps.lean ====
section
/-!
DEFINITION. Shared operations of the sensor intake and the fusion groups: rings, holds, late samples (R228 to R241, R255).
-/

namespace Sys2Proof.Machine

/-- A sensor stream. -/
def sens (n : Nat) (s : State) : SensStream := tget {} n s.sense.streams

/-- Change a sensor stream. -/
def modSens (n : Nat) (f : SensStream → SensStream) (s : State) : State :=
  { s with sense := { s.sense with streams := tmod {} n f s.sense.streams } }

/-- A fusion group. -/
def group (g : Nat) (s : State) : FuseGroup := tget {} g s.sense.groups

/-- Change a group. -/
def modGroup (g : Nat) (f : FuseGroup → FuseGroup) (s : State) : State :=
  { s with sense := { s.sense with groups := tmod {} g f s.sense.groups } }

/-- Declared streams and groups. -/
def declaredSens (s : State) : List Nat := (s.sense.streams.filter (fun e => e.2.declared)).map (·.1)
def declaredGroups (s : State) : List Nat := (s.sense.groups.filter (fun e => e.2.declared)).map (·.1)

/-- The part of a stream's port. -/
def sensPart (x : SensStream) : Nat := if x.eth then 0x28 + x.port else 0x20 + x.port

/-- The stream's port works. -/
def sensUp (x : SensStream) (s : State) : Bool := !isIso (sensPart x) s && dieUp (sensDie x) s

/-- A measurement stamp lies in a member's window of a slot (R235). -/
def inWindow (m : SlotMember) (tov meas : Nat) : Bool :=
  decide (meas ≤ tov + m.after * 1000) &&
    (if m.all then decide (tov < meas + m.before * 1000) else decide (tov ≤ meas + m.before * 1000))

/-- A waiting slot refers to the window's samples of a member's stream, an emitting slot to those it uses. -/
def slotHolds (x : FuseSlot) (stream : Nat) (p : Sample) : Bool :=
  x.members.any (fun m => m.stream == stream &&
    (if x.emitting then m.seqs.contains p.seq else p.complete && inWindow m x.tov p.meas))

/-- A token on an edge of the stream, or taken by a firing, is the entry's buffer. -/
def tokenHolds (stream : Nat) (p : Sample) (s : State) : Bool :=
  let is := fun (k : Token) => k.ring == some (stream, p.seq)
  s.fab.edges.any (fun e => e.2.flight.any is || e.2.held.any is)
    || s.fab.mittens.any (fun m => match m.2.firing with
        | none => false
        | some f => f.inputs.any (fun i => i.2.any is))

/-- The entry is held (R229). -/
def entryHeld (stream : Nat) (p : Sample) (s : State) : Bool :=
  !p.complete || tokenHolds stream p s || s.sense.groups.any (fun g => g.2.open_.any (fun x => slotHolds x stream p))

/-- Room for a new sample: an unwritten entry, or the oldest unheld one given up; none when every entry is held. -/
def ringRoom (n : Nat) (s : State) : Option (List Sample) :=
  let x := sens n s
  if x.entries.length < x.ring then some x.entries
  else
    match x.entries.find? (fun p => !entryHeld n p s) with
    | none => none
    | some p => some (x.entries.filter (fun q => q.seq != p.seq))

/-- The sample record of R228. -/
def sampleRecord (n : Nat) (p : Sample) : List Byte :=
  leBytes 8 p.seq ++ leBytes 8 p.arrival ++ leBytes 8 p.meas ++ leBytes 4 p.compStamp ++ leBytes 1 n ++ zeroBytes 1
    ++ leBytes 2 p.count

/-- What a sub-port of a stream carries (R231). -/
def sampleBytes (n : Nat) (p : Sample) (sub : Nat) : List Byte :=
  match sub with
  | 0 => p.data
  | 1 => p.points
  | 2 => p.intensity
  | _ => sampleRecord n p

/-- Offer a complete sample to every edge of its stream. -/
def offerSample (n : Nat) (p : Sample) (s : State) : State :=
  (edgesFrom 2 (sens n s).id s).foldl (fun a e =>
    offerToken e.id { data := sampleBytes n p e.srcPort, ring := some (n, p.seq) } a) s

/-! ### Late samples (R255) -/

/-- Slots of a group for which a sample of a stream is late: decided, window holds it, not used. -/
def lateSlots (g : FuseGroup) (n : Nat) (p : Sample) (mi : Nat) : List FuseSlot :=
  ((g.open_.filter (·.emitting)) ++ g.past).filter (fun x =>
    x.members.any (fun m => m.index == mi && m.stream == n && inWindow m x.tov p.meas && !m.seqs.contains p.seq))

/-- Distance of a slot time from a stamp. -/
def dist (a b : Nat) : Nat := if a ≤ b then b - a else a - b

/-- The slot nearest the measurement stamp, the earlier one on a tie. -/
def nearest (meas : Nat) : List FuseSlot → Option FuseSlot
  | [] => none
  | x :: r =>
    match nearest meas r with
    | none => some x
    | some y =>
      if dist x.tov meas < dist y.tov meas ∨ (dist x.tov meas = dist y.tov meas ∧ x.tov ≤ y.tov) then some x else some y

/-- Count a late sample once for each member of a group whose decided slots missed it, with its RETRO record. -/
def lateGroup (n : Nat) (p : Sample) (gi : Nat) (s : State) : State :=
  ((group gi s).members.filter (fun m => m.stream == n)).foldl (fun a m =>
    match nearest p.meas (lateSlots (group gi a) n p m.index) with
    | none => a
    | some x =>
      let a1 := modGroup gi (fun g => { g with members := g.members.map (fun y =>
        if y.index = m.index then { y with late := satAdd 16 y.late 1 } else y) }) a
      if (group gi a).retro then
        fuseEvt (group gi a).home 3 gi m.index 0xFF x.fseq p.meas (p.seq % 2 ^ 32) n a1
      else a1) s

/-! ### Completion (R225, R228, R230) -/

/-- A sample of a stream is complete: counts, STALL clears, tokens are offered, decided slots see it late, loop channels
take it. -/
def completeSample (n : Nat) (p : Sample) (payload : List Byte) (s : State) : State :=
  let d := sensDie (sens n s)
  let q := { p with complete := true, compStamp := shortStamp d s }
  let s1 := modSens n (fun x => { x with
    entries := x.entries.map (fun y => if y.seq = p.seq then q else y)
    inFrame := false, noEntry := false, bad := false
    stall := false, count := wrapAdd 32 x.count 1, compAt := s.time.now }) s
  let s2 := (declaredGroups s1).foldl (fun a g => lateGroup n q g a) s1
  let s3 := offerSample n q s2
  if (sens n s).eth then loopSample (sens n s).id p.arrival payload s3 else s3

/-- A sample is discarded for an error: its entry is empty again and ERR counts it. -/
def discardSample (n seq : Nat) (s : State) : State :=
  modSens n (fun x => { x with
    entries := x.entries.filter (fun y => y.seq != seq)
    inFrame := false, noEntry := false, bad := false, err := satAdd 16 x.err 1 }) s

/-- Begin a sample with its arrival stamp: it takes a number and an entry, or DROP counts it (R228, R229). Answers the sample
when it has an entry. -/
def beginSample (n st : Nat) (s : State) : Option Sample × State :=
  let x := sens n s
  let q := x.last + 1
  match ringRoom n s with
  | none =>
    (none, modSens n (fun y => { y with last := q, drop := satAdd 16 y.drop 1, inFrame := true, noEntry := true }) s)
  | some es =>
    let p : Sample := { seq := q, arrival := st, meas := st - x.offsetNs }
    (some p, modSens n (fun y => { y with last := q, entries := es ++ [p], inFrame := true, noEntry := false
                                          bad := false }) s)

end Sys2Proof.Machine
end

