-- ==== Sys2Proof/Machine/Sense.lean ====
section
/-!
DEFINITION. Sensor intake: CSI-2 packets, Ethernet sensor flows, stalls and links (R221 to R231, R309, R348).
-/

namespace Sys2Proof.Machine

open Host (Outcome)

/-! ### CSI-2 (R223 to R225) -/

/-- Channels of a CSI data type: 2 for YUV422, 3 for RGB888, 1 for RAW. -/
def dtChannels (dt : Nat) : Nat := if dt = 0x1E then 2 else if dt = 0x24 then 3 else 1

/-- Bits of a pixel value. -/
def dtBits (dt : Nat) : Nat :=
  match dt with
  | 0x2B => 10
  | 0x2C => 12
  | 0x2D => 14
  | 0x2E => 16
  | _ => 8

/-- The stored bytes of a pixel value (R224). -/
def pixelBytes (pixFmt dt v : Nat) : List Byte :=
  let b := dtBits dt
  let p := v % 2 ^ b
  match pixFmt with
  | 0 => leBytes 1 (uenc 8 ((p / 2 ^ (b - 8) : Nat) - 128 : Int))
  | 1 => leBytes 2 (fp16.encode (FVal.ofInt p)).1
  | _ => leBytes 4 (toF32 (FVal.ofInt p))

/-- A CSI port. -/
def csi (p : Nat) (s : State) : CsiPort := tget {} p s.sense.csi

/-- Change a CSI port. -/
def modCsi (p : Nat) (f : CsiPort → CsiPort) (s : State) : State :=
  { s with sense := { s.sense with csi := tmod {} p f s.sense.csi } }

/-- Streams of a CSI port that `f` selects. -/
def csiStreams (p : Nat) (f : SensStream → Bool) (s : State) : List Nat :=
  (declaredSens s).filter (fun n => !(sens n s).eth && (sens n s).port == p && f (sens n s))

/-- The sample being received on a stream. -/
def current (n : Nat) (s : State) : Option Sample := (sens n s).entries.find? (fun p => p.seq == (sens n s).last)

/-- A Frame Start on a stream (R225, R228): a sample in progress is discarded, a new one begins. -/
def csiStart (n : Nat) (s : State) : State :=
  let s1 := if (sens n s).inFrame ∧ !(sens n s).noEntry then discardSample n (sens n s).last s else s
  (beginSample n (stamp (sensDie (sens n s)) s) s1).2

/-- A line of a stream's frame: its pixels are stored; a wrong CRC or pixel count spoils the frame. -/
def csiLine (n dt : Nat) (px : List Nat) (crcOk : Bool) (s : State) : State :=
  let x := sens n s
  if !x.inFrame then s
  else
    let bad := !crcOk || decide (px.length ≠ x.width * dtChannels dt)
    modSens n (fun y => { y with
      bad := y.bad || bad
      entries := y.entries.map (fun p =>
        if p.seq = y.last ∧ !p.complete then { p with data := p.data ++ px.flatMap (pixelBytes y.pixFmt dt), count := p.count + 1 }
        else p) }) s

/-- A Frame End on a stream: the sample is complete, or discarded when it is spoilt or its lines differ from HEIGHT. -/
def csiEnd (n : Nat) (s : State) : State :=
  let x := sens n s
  if !x.inFrame then s
  else if x.noEntry then modSens n (fun y => { y with inFrame := false, noEntry := false, bad := false }) s
  else
    match current n s with
    | none => s
    | some p => if x.bad ∨ p.count ≠ x.height then discardSample n p.seq s else completeSample n p p.data s

/-- What a packet does to the streams of its port. -/
def csiPacket (p : Nat) (k : CsiPacket) (s : State) : State :=
  match k with
  | .frameStart vc => (csiStreams p (fun x => x.vc == vc) s).foldl (fun a n => csiStart n a) s
  | .frameEnd vc => (csiStreams p (fun x => x.vc == vc) s).foldl (fun a n => csiEnd n a) s
  | .lineSync _ => s
  | .long vc dt px ok =>
    match csiStreams p (fun x => x.vc == vc && x.dt == dt) s with
    | [] => if dt = 0x12 then s else modCsi p (fun c => { c with unmatched := satAdd 16 c.unmatched 1 }) s
    | ns => ns.foldl (fun a n => csiLine n dt px ok a) s
  | .badHeader =>
    let s1 := latch (srcCsi p 1) p s
    match csiStreams p (fun x => x.inFrame) s with
    | [] => modCsi p (fun c => { c with unmatched := satAdd 16 c.unmatched 1 }) s1
    | ns => ns.foldl (fun a n => modSens n (fun y => { y with bad := true }) a) s1

/-- CSI_PACKET_RX (R225): `corrected` tells of a header with a corrected bit error. An isolated port receives nothing. -/
def csiPacketRx (p : Nat) (corrected : Bool) (k : CsiPacket) (s : State) : State :=
  if isIso (0x20 + p) s ∨ !dieUp (p / 4) s then s
  else
    let s1 := modCsi p (fun c => { c with link := true, seenAt := s.time.now
                                          eccCorr := if corrected then satAdd 16 c.eccCorr 1 else c.eccCorr }) s
    csiPacket p k s1

def execCsiPacketRx (t port : Nat) (corrected : Bool) (pkt : CsiPacket) (s : State) : Outcome State Fault Refusal :=
  .next (csiPacketRx port corrected pkt (advanceTo t s))

/-- CSI_LINK_LOST (R223): no high-speed traffic for 1 ms. -/
def csiLinkLost (p : Nat) (s : State) : State :=
  if (csi p s).link ∧ (csi p s).seenAt + 1000000 ≤ s.time.now then modCsi p (fun c => { c with link := false }) s else s

def execCsiLinkLost (t port : Nat) (s : State) : Outcome State Fault Refusal := .next (csiLinkLost port (advanceTo t s))

/-! ### Ethernet flows (R226, R227) -/

/-- The UDP payload a frame carries for a match mode, with its destination port; `frag` tells of a first fragment. -/
structure UdpPart where
  dport : Nat
  payload : List Byte
  frag : Bool
  deriving DecidableEq, Repr

/-- UDP over IPv4 without options; later fragments carry no ports and match nothing. -/
def udp4 (f : EthFrame) : Option UdpPart :=
  let b := f.payload
  let fr := beVal (slice b 6 2)
  if f.etherType ≠ 0x0800 ∨ (b.headD 0#8).toNat ≠ 0x45 ∨ fieldLe b 9 1 ≠ 17 ∨ fr % 8192 ≠ 0 then none
  else some ⟨beVal (slice b 22 2), slice b 28 (beVal (slice b 24 2) - 8), bit fr 13⟩

/-- UDP over IPv6 without extension headers. -/
def udp6 (f : EthFrame) : Option UdpPart :=
  let b := f.payload
  if f.etherType ≠ 0x86DD ∨ (b.headD 0#8).toNat / 16 ≠ 6 ∨ fieldLe b 6 1 ≠ 17 then none
  else some ⟨beVal (slice b 42 2), slice b 48 (beVal (slice b 44 2) - 8), false⟩

/-- The payload a flow matches in a frame: none when it does not match; `true` when it is a fragment to discard. -/
def flowMatch (x : SensStream) (f : EthFrame) : Option (List Byte × Bool) :=
  let vlanOk := if x.tagged then f.vlan.map (· % 4096) == some x.vid else f.vlan.isNone
  if !vlanOk then none
  else
    match x.match_ with
    | 0 => if f.etherType = x.matchVal then some (f.payload, false) else none
    | m =>
      match (if m = 1 then udp4 f else udp6 f) with
      | none => none
      | some u => if u.dport = x.matchVal then some (u.payload, u.frag) else none

/-- A coordinate of a point: stored value × PT_SCALE, rounded once to FP32. -/
def pointCoord (x : SensStream) (pt : List Byte) (o : Nat) : Nat :=
  match x.ptFmt with
  | 0 => toF32 ((FVal.ofInt (sext 16 (fieldLe pt o 2))).mul (f32 x.ptScale))
  | 1 => toF32 ((FVal.ofInt (sext 32 (fieldLe pt o 4))).mul (f32 x.ptScale))
  | _ => toF32 ((f32 (fieldLe pt o 4)).mul (f32 x.ptScale))

/-- The column of a point: x, y, z and t in seconds. -/
def pointColumn (x : SensStream) (pt : List Byte) : List Byte :=
  let t := if x.tOff = 0xFF then 0 else toF32 (fp32.div (FVal.ofInt (sext 32 (fieldLe pt x.tOff 4))) (FVal.ofInt 1000000000))
  leBytes 4 (pointCoord x pt x.xOff) ++ leBytes 4 (pointCoord x pt x.yOff) ++ leBytes 4 (pointCoord x pt x.zOff) ++ leBytes 4 t

/-- The points of a payload: from SKIP, PT_STRIDE bytes each, at most POINTS_MAX, none past the end. -/
def pointsOf (x : SensStream) (payload : List Byte) : List (List Byte) :=
  let n := if x.ptStride = 0 then 0 else min x.pointsMax ((payload.length - x.skip) / x.ptStride)
  (List.range n).map (fun i => slice payload (x.skip + i * x.ptStride) x.ptStride)

/-- A sample with its points extracted (R227). An intensity of 0 is 0x80; it stands without I_OFF and beyond the points read
(assumption 168). -/
def withPoints (x : SensStream) (payload : List Byte) (p : Sample) : Sample :=
  if !x.pointsOn then { p with data := payload, count := payload.length }
  else
    let ps := pointsOf x payload
    let pad := x.pointsMax - ps.length
    { p with
      data := payload, nPoints := ps.length, count := ps.length
      points := ps.flatMap (pointColumn x) ++ zeroBytes (16 * pad)
      intensity := if x.intensityOn then
          ps.map (fun q => if x.iOff = 0xFF then BitVec.ofNat 8 128 else BitVec.ofNat 8 (fieldLe q x.iOff 1 + 128)) ++ List.replicate pad 128#8
        else [] }

/-- A frame that matches a flow is one sample, complete at arrival; a payload beyond MAX_LEN is cut and counted. -/
def flowSample (n st : Nat) (full : List Byte) (s : State) : State :=
  let x := sens n s
  let payload := full.take x.width
  let s0 := if x.width < full.length then modSens n (fun y => { y with err := satAdd 16 y.err 1 }) s else s
  match beginSample n st s0 with
  | (none, s1) => modSens n (fun y => { y with inFrame := false, noEntry := false }) s1
  | (some p, s1) =>
    let q := withPoints x payload p
    let s2 := modSens n (fun y => { y with entries := y.entries.map (fun z => if z.seq = q.seq then q else z) }) s1
    completeSample n q payload s2

/-- The frame belongs to the time agent, or to the partner protocol (R308, R460). -/
def ownFrame (f : EthFrame) : Bool := f.etherType == 0x88F7 || f.etherType == 0x88B6

/-- ETH_FRAME_RX (R226, R309, R453): a frame with an FCS error or above 9,216 bytes is discarded at the MAC; a matching
sensor flow takes it; the agent's and the partner's frames have rows of their own; the host gets the rest. -/
def ethFrameRx (e : Nat) (f : EthFrame) (s : State) : State :=
  if !ethUp e s ∨ !f.fcsOk ∨ 9216 < (ethBytes f).length then s
  else
    let st := ingressStamp e s
    let cand := (declaredSens s).filter (fun n =>
      (sens n s).eth && (sens n s).port == e && (flowMatch (sens n s) f).isSome)
    match cand with
    | n :: _ =>
      match flowMatch (sens n s) f with
      | some (_, true) => modSens n (fun y => { y with err := satAdd 16 y.err 1 }) s
      | some (pl, false) => flowSample n st pl s
      | none => s
    | [] => if ownFrame f then s else hostRx e f s

def execEthFrameRx (t port : Nat) (frame : EthFrame) (s : State) : Outcome State Fault Refusal :=
  .next (ethFrameRx port frame (advanceTo t s))

/-- STREAM_STALL (R230): no complete sample for 3 × PERIOD_US. -/
def streamStall (n : Nat) (s : State) : State :=
  let x := sens n s
  if x.declared ∧ !x.stall ∧ x.compAt + 3 * x.periodUs * 1000 ≤ s.time.now then
    latch (sensDie x * 0x400 + 0x100 + n) n (modSens n (fun y => { y with stall := true }) s)
  else s

def execStreamStall (t stream : Nat) (s : State) : Outcome State Fault Refusal := .next (streamStall stream (advanceTo t s))

/-- ETH_LINK_DOWN (R348): the port's link-down source. -/
def ethLinkDown (e : Nat) (s : State) : State :=
  if (eport e s).link then latch (srcEth e 0) 0 (modEth e (fun p => { p with link := false }) s) else s

def execEthLinkDown (t port : Nat) (s : State) : Outcome State Fault Refusal := .next (ethLinkDown port (advanceTo t s))

/-- ETH_LINK_UP (R309): the port stamps and classifies frames again, at 25GBASE-R or 10GBASE-R. -/
def ethLinkUp (e : Nat) (fast : Bool) (s : State) : State :=
  if isIso (0x28 + e) s ∨ !dieUp (e / 2) s then s else modEth e (fun p => { p with link := true, fast := fast }) s

def execEthLinkUp (t port : Nat) (fast : Bool) (s : State) : Outcome State Fault Refusal :=
  .next (ethLinkUp port fast (advanceTo t s))

end Sys2Proof.Machine
end

