-- ==== Sys2Proof/Machine/Fuse.lean ====
section
/-!
DEFINITION. Fusion groups: slots, decisions, frames, raw and object fusion, conflicts, blocks (R232 to R257, R367).
-/

namespace Sys2Proof.Machine

open Host (Outcome)

/-! ### Slots (R234, R239) -/

/-- Bind a member for a slot. -/
def bindMember (s : State) (m : Member) : SlotMember :=
  { index := m.index, stream := m.stream, all := m.all, project := m.project, before := m.before, after := m.after
    weight := m.weight, offsetNs := (sens m.stream s).offsetNs }

/-- Open slot k with slot time T. -/
def openSlot (g k t : Nat) (s : State) : State :=
  let x := group g s
  modGroup g (fun y => { y with
    open_ := y.open_ ++ [{ fseq := k, tov := t, waitUs := x.waitUs, penMiss := x.penMiss, recover := x.recover
                           members := x.members.map (bindMember s) }] }) s

/-! ### Decisions (R235 to R240) -/

/-- The complete samples of a member's window, in SAMPLE_SEQ order. -/
def windowSamples (m : SlotMember) (tov : Nat) (s : State) : List Sample :=
  (sens m.stream s).entries.filter (fun p => p.complete && inWindow m tov p.meas)

/-- A sample of the window is in flight. -/
def windowInFlight (m : SlotMember) (tov : Nat) (s : State) : Bool :=
  (sens m.stream s).entries.any (fun p => !p.complete && inWindow m tov p.meas)

/-- The latest measurement stamp, the higher SAMPLE_SEQ on equal stamps. -/
def latestSample : List Sample → Option Sample
  | [] => none
  | p :: r =>
    match latestSample r with
    | none => some p
    | some q => if q.meas < p.meas ∨ (q.meas = p.meas ∧ q.seq < p.seq) then some p else some q

/-- The register record of a member. -/
def memberReg (g i : Nat) (s : State) : Member :=
  ((group g s).members.find? (fun m => m.index == i)).getD {}

/-- A member is blocked by an island, or its port is lost (R254, R256). -/
def regOut (r : Member) (s : State) : Bool := r.blocked || r.portLost || !sensUp (sens r.stream s) s

/-- The same of a slot's member. -/
def memberOut (g : Nat) (m : SlotMember) (s : State) : Bool := regOut { memberReg g m.index s with stream := m.stream } s

/-- What a sample contributes to an ALL member's buffer: points for POINTS streams, data otherwise. -/
def allBytes (x : SensStream) (p : Sample) : List Byte := if x.pointsOn then p.points.take (16 * p.nPoints) else p.data

/-- The edge that carries a member's data (R241). -/
def memberEdge (g i : Nat) (s : State) : Option GEdge :=
  (edgesFrom 3 (group g s).id s).find? (fun e => e.srcPort == 32 + i)

/-- Whether an ALL member's content exceeds the cap of its token. -/
def overCap (g : Nat) (m : SlotMember) (ps : List Sample) (s : State) : Bool :=
  match memberEdge g m.index s with
  | none => false
  | some e => decide (edgeSize e s < (ps.flatMap (allBytes (sens m.stream s))).length)

/-- Decide a member: at its decision time, or masked at E_k (`mask`). -/
def decideMember (g tov : Nat) (mask : Bool) (s : State) (m : SlotMember) : SlotMember :=
  if m.st ≠ .undecided then m
  else if memberOut g m s then { m with st := .blocked }
  else
    let ps := windowSamples m tov s
    if m.all then
      if ps.isEmpty then { m with st := if mask then .missed else .quiet }
      else
        let above := overCap g m ps s
        { m with st := if mask || above then .usedMissed else .used, seqs := ps.map (·.seq) }
    else
      match latestSample ps with
      | none => { m with st := .missed }
      | some p => { m with st := .used, seqs := [p.seq] }

/-- A member contributes. -/
def MemSt.isUsed : MemSt → Bool
  | .used | .usedMissed => true
  | _ => false

/-- A member is MISSED. -/
def MemSt.isMissed : MemSt → Bool
  | .missed | .usedMissed => true
  | _ => false

/-- CONFIDENCE (R238): sums in member order, one rounding per operation; +0.0 when every member is QUIET. -/
def confidence (conf : Nat → Nat) (ms : List SlotMember) : Nat :=
  let num := ms.foldl (fun a m => if m.st.isUsed then fadd a (fmul m.weight (conf m.index)) else a) 0
  let den := ms.foldl (fun a m => if m.st = .quiet then a else fadd a m.weight) 0
  if ms.all (fun m => m.st = .quiet) then 0 else fdiv num den

/-- Bits of the members that `p` selects. -/
def memberBits (p : SlotMember → Bool) (ms : List SlotMember) : Nat :=
  ms.foldl (fun a m => if p m then a + 2 ^ m.index else a) 0

/-- The samples a slot uses. -/
def usedSamples (ms : List SlotMember) (s : State) : List Sample :=
  ms.flatMap (fun m => (sens m.stream s).entries.filter (fun p => m.seqs.contains p.seq))

/-- The sample with the earliest measurement stamp. -/
def oldestSample : List Sample → Option Sample
  | [] => none
  | p :: r =>
    match oldestSample r with
    | none => some p
    | some o => some (if p.meas ≤ o.meas then p else o)

/-- AGE_US: TOV − OLDEST, corrected for a step between them (R306), in µs toward +∞. -/
def ageUs (x : FuseSlot) (o : Sample) : Int := -(((o.meas : Int) - x.tov + (o.stepSum - x.stepSum)) / 1000)

/-- FP32 to FP16. -/
def half16 (b : Nat) : Nat := (fp16.encode (f32 b)).1

/-- The FRAME record (R240); without a used sample OLDEST is a free value. -/
def frameRecord (g : Nat) (x : FuseSlot) (oldFree dec : Nat) (deg : Bool) (s : State) : List Byte :=
  let conf := fun i => (memberReg g i s).conf
  let us := usedSamples x.members s
  let old := ((oldestSample us).map (·.meas)).getD (oldFree % 2 ^ 64)
  let age : Int := ((oldestSample us).map (ageUs x)).getD 0
  let seqOf := fun (i : Nat) => match x.members.find? (fun m => m.index == i) with
    | none => 0
    | some m => if m.st.isUsed then (m.seqs.getLast?.getD 0) % 2 ^ 32 else 0
  leBytes 8 x.fseq ++ leBytes 8 x.tov ++ leBytes 8 old ++ leBytes 4 dec ++ leBytes 4 (uenc 32 age)
    ++ leBytes 4 (memberBits (fun m => m.st.isUsed) x.members) ++ leBytes 4 (memberBits (fun m => m.st.isMissed) x.members)
    ++ leBytes 4 (memberBits (fun m => m.st = .blocked) x.members) ++ leBytes 4 (confidence conf x.members)
    ++ leBytes 1 (b2n deg + 2 * b2n x.forced) ++ leBytes 1 g ++ leBytes 2 (satU 16 us.length) ++ zeroBytes 12
    ++ (List.range 32).flatMap (fun i => leBytes 2 (half16 (conf i)))
    ++ (List.range 32).flatMap (fun i => leBytes 4 (seqOf i))

/-- Confidence of a member after the decision (R238), with the values the slot bound (R234): MISSED is penalized, a clean
USED member recovers, a blocked one stays 0. -/
def confAfter (x : FuseGroup) (f : FuseSlot) (m : Member) : Member :=
  match f.members.find? (fun k => k.index == m.index) with
  | none => m
  | some k =>
    let missed := if k.st.isMissed then satAdd 12 m.missed 1 else m.missed
    if m.blocked then { m with conf := 0, missed := missed }
    else if k.st.isMissed then { m with conf := fmul m.conf f.penMiss, missed := missed }
    else if k.st = .used ∧ !x.penalized.contains (f.fseq, m.index) then
      let c := fadd m.conf f.recover
      { m with conf := if flt 0x3F800000 c then 0x3F800000 else c, missed := missed }
    else { m with missed := missed }

/-! ### Raw fusion (R243 to R245) -/

/-- A fraction of integers, its denominator positive. -/
abbrev Q := Int × Nat

/-- Exact arithmetic on fractions. -/
def qadd (a b : Q) : Q := (a.1 * b.2 + b.1 * a.2, a.2 * b.2)
def qmul (a b : Q) : Q := (a.1 * b.1, a.2 * b.2)
def qdiv (a b : Q) : Q :=
  if b.1 = 0 then (0, 1) else ((if b.1 < 0 then -1 else 1) * a.1 * b.2, a.2 * b.1.natAbs)

/-- The exact value of a finite FP32 encoding. -/
def qf (b : Nat) : Q :=
  match f32 b with
  | .fin neg n e =>
    let v : Int := if neg then -(n : Int) else n
    if 0 ≤ e then (v * 2 ^ e.toNat, 1) else (v, 2 ^ (-e).toNat)
  | _ => (0, 1)

/-- FP32 fields of a stitch. -/
def f32At (t : Stitch) (o n : Nat) : List Nat := (List.range n).map (fun i => t.u32 (o + 4 * i))

/-- ROT · p + TRANS in FP32, with ROT at `o` and TRANS after it. -/
def rotTrans (t : Stitch) (o : Nat) (p : List Nat) : List Nat :=
  fvAdd (fmatVec (f32At t o 9) 3 p 3) (f32At t (o + 36) 3)

/-- The exact PINHOLE model on a camera-frame point: (u, v) in 2^-20 pixel; none where Z < ZMIN. -/
def pinhole (t : Stitch) (p : List Nat) : Option (Int × Int) :=
  let z := p.getD 2 0
  if flt z (t.u32 20) ∨ (f32 z).isZero then none
  else
    let k := f32At t 40 8
    let g := fun i => qf (k.getD i 0)
    let x := qdiv (qf (p.getD 0 0)) (qf z)
    let y := qdiv (qf (p.getD 1 0)) (qf z)
    let r2 := qadd (qmul x x) (qmul y y)
    let r4 := qmul r2 r2
    let r6 := qmul r4 r2
    let one : Q := (1, 1)
    let two : Q := (2, 1)
    let up := qadd one (qadd (qmul (g 0) r2) (qadd (qmul (g 1) r4) (qmul (g 2) r6)))
    let dn := qadd one (qadd (qmul (g 3) r2) (qadd (qmul (g 4) r4) (qmul (g 5) r6)))
    let rho := qdiv up dn
    let xy2 := qmul two (qmul x y)
    let x2 := qadd (qmul x rho) (qadd (qmul (g 6) xy2) (qmul (g 7) (qadd r2 (qmul two (qmul x x)))))
    let y2 := qadd (qmul y rho) (qadd (qmul (g 6) (qadd r2 (qmul two (qmul y y)))) (qmul (g 7) xy2))
    let u := qadd (qmul (qf (t.u32 24)) x2) (qf (t.u32 32))
    let v := qadd (qmul (qf (t.u32 28)) y2) (qf (t.u32 36))
    some (u.1 * 2 ^ 20 / u.2, v.1 * 2 ^ 20 / v.2)

/-- The pixel of a point in a camera with its Z: the exact model with an error the spec leaves open within 1/64 pixel (R244). -/
def projectPoint (t : Stitch) (p : List Nat) (nonce : Nat) : Option (Nat × Nat × Nat) :=
  let m := if t.u8 12 = 0 then pinhole t p else Config.fisheye t.bytes p
  match m with
  | none => none
  | some (u, v) =>
    let u1 := u + clampI (-16384) 16384 (Config.projError (2 * nonce))
    let v1 := v + clampI (-16384) 16384 (Config.projError (2 * nonce + 1))
    if u1 < 0 ∨ v1 < 0 ∨ (t.u16 16 : Int) * 2 ^ 20 ≤ u1 ∨ (t.u16 18 : Int) * 2 ^ 20 ≤ v1 then none
    else some ((u1 / 2 ^ 20).toNat, (v1 / 2 ^ 20).toNat, p.getD 2 0)

/-- The points of the PROJECT members of a slot in the vehicle frame, by their POSE (R244). -/
def slotPoints (f : FuseSlot) (s : State) : List (List Nat) :=
  let im := curImage s
  f.members.flatMap (fun m =>
    if !m.project ∨ !m.st.isUsed then []
    else
      let mid := (((im.of 0x07 2).find? (fun t => t.u8 16 == m.index && streamOfMember im t == m.stream)).map (·.id)).getD 0
      match (im.of 0x07 5).find? (fun t => t.u32 8 == mid) with
      | none => []
      | some pose =>
        ((sens m.stream s).entries.filter (fun p => m.seqs.contains p.seq)).flatMap (fun p =>
          (List.range p.nPoints).map (fun i => rotTrans pose 12 (f32List (p.points.drop (16 * i)) 3))))
where
  /-- The stream number of a MEMBER stitch. -/
  streamOfMember (im : Image) (t : Stitch) : Nat := ((im.find 0x03 1 (t.u32 12)).map (·.u8 8)).getD 0xFF

/-- The smallest Z of the points that fall on an element, as FP16; +0 when none does. -/
def depthElem (pix : List (Nat × Nat × Nat)) (div i j : Nat) : Nat :=
  let zs := (pix.filter (fun q => q.1 / div == i && q.2.1 / div == j)).map (·.2.2)
  match zs with
  | [] => 0
  | z :: r => half16 (r.foldl (fun a b => if flt b a then b else a) z)

/-- The depth channel of a CAMERA stitch. -/
def depthChannel (t : Stitch) (pts : List (List Nat)) (nonce : Nat) : List Byte :=
  let pix := (pts.mapIdx (fun i p => projectPoint t (rotTrans t 72 p) (nonce * 2 ^ 20 + i))).filterMap id
  let div := max 1 (t.u8 13)
  (List.range (t.u16 18 / div)).flatMap (fun j => (List.range (t.u16 16 / div)).flatMap (fun i =>
    leBytes 2 (depthElem pix div i j)))

/-- CAMERA stitches of a group, ascending. -/
def camerasOf (g : Nat) (s : State) : List Stitch :=
  let im := curImage s
  let ids := ((im.of 0x07 2).filter (fun t => t.u32 8 == (group g s).id)).map (·.id)
  (im.of 0x07 3).filter (fun t => ids.contains (t.u32 8))

/-! ### The decision (R237) -/

/-- The depth channels of a slot (R245), in CAMERA rank; none without RAW. -/
def depthsOf (g : Nat) (f : FuseSlot) (s : State) : List (List Byte) :=
  if (group g s).raw then
    (camerasOf g s).mapIdx (fun i t => depthChannel t (slotPoints f s) (f.fseq * 16 + i))
  else []

/-- Fix the content of a slot (R237): the frame, the flags, the confidences; the slot turns EMITTING. -/
def decideSlot (g fseq : Nat) (forced : Bool) (s : State) : State :=
  match (group g s).open_.find? (fun f => f.fseq == fseq && !f.emitting) with
  | none => s
  | some f =>
    let d := (group g s).home
    let ms := f.members.map (decideMember g f.tov true s)
    let deg := forced || ms.any (fun m => m.st.isMissed || m.st == .blocked)
    let f1 := { f with members := ms, forced := forced }
    let dec := shortStamp d s
    let (fr, s0) := if (usedSamples ms s).isEmpty then drawFree s else (0, s)
    let f2 := { f1 with
      emitting := true, decided := dec, degraded := deg, frame := frameRecord g f1 fr dec deg s0, depth := depthsOf g f1 s0 }
    let s1 := modGroup g (fun x => { x with
      open_ := x.open_.map (fun y => if y.fseq = fseq then f2 else y)
      frames := (fseq, (List.range 32).map (fun i => (memberReg g i s0).conf), deg) :: x.frames.take 63
      members := x.members.map (confAfter x f2)
      degraded := if deg then satAdd 16 x.degraded 1 else x.degraded
      forced := if forced then satAdd 10 x.forced 1 else x.forced }) s0
    traceEv d (4 + d) 0x40 (fseq % 2 ^ 32) s1

/-- MEMBER_DECIDE (R236): the timebase reached D and no window sample is in flight; the last member fixes the slot. -/
def memberDecide (g fseq i : Nat) (s : State) : State :=
  match (group g s).open_.find? (fun f => f.fseq == fseq && !f.emitting) with
  | none => s
  | some f =>
    match f.members.find? (fun m => m.index == i) with
    | none => s
    | some m =>
      if stamp (group g s).home s < f.tov + m.after * 1000 + m.offsetNs ∨ windowInFlight m f.tov s then s
      else
        let ms := f.members.map (fun k => if k.index = i then decideMember g f.tov false s k else k)
        let s1 := modGroup g (fun x => { x with
          open_ := x.open_.map (fun y => if y.fseq = fseq then { y with members := ms } else y) }) s
        if ms.all (fun k => k.st ≠ .undecided) then decideSlot g fseq false s1 else s1

def execMemberDecide (t grp fseq member : Nat) (s : State) : Outcome State Fault Refusal :=
  .next (memberDecide grp fseq member (advanceTo t s))

/-- SLOT_WAIT_LIMIT (R237): E_k = T_k + WAIT_US. -/
def slotWaitLimit (g fseq : Nat) (s : State) : State :=
  match (group g s).open_.find? (fun f => f.fseq == fseq && !f.emitting) with
  | none => s
  | some f => if stamp (group g s).home s < f.tov + f.waitUs * 1000 then s else decideSlot g fseq false s

def execSlotWaitLimit (t grp fseq : Nat) (s : State) : Outcome State Fault Refusal :=
  .next (slotWaitLimit grp fseq (advanceTo t s))

/-- The FSEQ has had its slot: grid points repeat after a backward step (R307). -/
def fseqUsed (x : FuseGroup) (k : Nat) : Bool :=
  x.past.any (fun f => f.fseq == k) || x.open_.any (fun f => f.fseq == k) || x.opening.any (fun f => f.1 == k)

/-- SLOT_OPEN (R234, R239): at a slot time a slot opens, or the oldest WAITING slot is forced, or the slot is skipped. -/
def slotOpen (g : Nat) (s : State) : State :=
  let x := group g s
  if !x.declared ∨ !dieUp x.home s then s
  else
    match gridNow x.home (x.periodUs * 1000) x.phaseNs s with
    | none => s
    | some t =>
      if x.lastT = some t then s
      else
        let k := t / (x.periodUs * 1000)
        let s1 := modGroup g (fun y => { y with lastT := some t }) s
        if fseqUsed x k then s1
        else if x.open_.length < x.slots then openSlot g k t s1
        else
          match x.open_.find? (fun f => !f.emitting) with
          | some f => decideSlot g f.fseq true (modGroup g (fun y => { y with opening := y.opening ++ [(k, t)] }) s1)
          | none => modGroup g (fun y => { y with skipped := satAdd 10 y.skipped 1 }) s1

def execSlotOpen (t grp : Nat) (s : State) : Outcome State Fault Refusal := .next (slotOpen grp (advanceTo t s))

/-! ### Projection (R245, R367) -/

/-- Projection units of a die in service. -/
def unitsUp (d : Nat) (s : State) : Nat := ((List.range 4).filter (fun u => !s.sense.unitsOut.contains (4 * d + u))).length

/-- PROJECTION_DONE (R245): the home die's units have built the slot's depth channels. -/
def projectionDone (g fseq : Nat) (s : State) : State :=
  if (group g s).raw ∧ 0 < unitsUp (group g s).home s then
    modGroup g (fun x => { x with open_ := x.open_.map (fun f =>
      if f.fseq = fseq ∧ f.emitting then { f with projDone := true } else f) }) s
  else s

def execProjectionDone (t grp fseq : Nat) (s : State) : Outcome State Fault Refusal :=
  .next (projectionDone grp fseq (advanceTo t s))

/-- PROJECTION_RECOMPUTE (R367): the island recomputes one point; on a mismatch the unit leaves service. -/
def projectionRecompute (unit : Nat) (ok : Bool) (s : State) : State :=
  if ok ∨ s.sense.unitsOut.contains unit then s
  else
    latch (unit / 4 * 0x400 + 0x149 + unit % 4) unit { s with sense := { s.sense with unitsOut := s.sense.unitsOut ++ [unit] } }

def execProjectionRecompute (t unit : Nat) (ok : Bool) (s : State) : Outcome State Fault Refusal :=
  .next (projectionRecompute unit ok (advanceTo t s))

/-! ### Conflicts and blocks (R252, R254) -/

/-- Penalize a member once for a slot. -/
def penalize (g fseq i : Nat) (s : State) : State :=
  let x := group g s
  if x.penalized.contains (fseq, i) then s
  else modGroup g (fun y => { y with
    penalized := (fseq, i) :: y.penalized.take 1023
    members := y.members.map (fun m => if m.index = i then { m with conf := fmul m.conf y.penConflict } else m) }) s

/-- A conflict of a pair in a slot: its record, its place in the history, the penalties. -/
def conflictPair (g kind fseq a b detail : Nat) (s : State) : State :=
  let x := group g s
  let add := fun (h : Nat × List (Nat × Nat)) =>
    if h.1 = fseq ∧ !h.2.contains (a, b) then (h.1, h.2 ++ [(a, b)]) else h
  let s1 := modGroup g (fun y => { y with conflicts := satAdd 16 y.conflicts 1, history := y.history.map add }) s
  let s2 := fuseEvt x.home kind g a b fseq (stamp x.home s) detail 0xFF s1
  penalize g fseq b (penalize g fseq a s2)

/-- Pairs of blocked members stop counting. -/
def pairLive (x : FuseGroup) (p : Nat × Nat) : Bool :=
  x.members.all (fun m => !m.blocked || (m.index != p.1 && m.index != p.2))

/-- The persistent pairs (R254): at least CONFLICT_K of the last CONFLICT_N emitted slots. -/
def persistentPairs (x : FuseGroup) : List (Nat × Nat) :=
  let h := x.history.take x.conflictN
  let all := (h.flatMap (·.2)).eraseDups.filter (pairLive x)
  all.filter (fun p => decide (x.conflictK ≤ (h.filter (fun e => e.2.contains p)).length))

/-- Partners of a member among pairs. -/
def partners (ps : List (Nat × Nat)) (i : Nat) : Nat := (ps.filter (fun p => p.1 == i || p.2 == i)).length

/-- Block a member: c = 0 and a BLOCK record. -/
def blockMember (g i : Nat) (s : State) : State :=
  let x := group g s
  if (memberReg g i s).blocked then s
  else
    let s1 := modGroup g (fun y => { y with
      members := y.members.map (fun m => if m.index = i then { m with blocked := true, conf := 0 } else m) }) s
    fuseEvt x.home 4 g i 0xFF x.lastFseq (stamp x.home s) 0 0xFF s1

/-- The islands judge the persistent pairs when their set changes (R254): a slot is emitted, the records of one report are
written, a block is lifted. -/
def judgeConflicts (g : Nat) (s : State) : State :=
  let x := group g s
  let ps := persistentPairs x
  if ps = x.persistent then s
  else
    ps.foldl (fun a p =>
      let na := partners ps p.1
      let nb := partners ps p.2
      if nb < na then blockMember g p.1 a
      else if na < nb then blockMember g p.2 a
      else latch (x.home * 0x400 + 0x180 + g) (p.1 + 256 * p.2) a) (modGroup g (fun y => { y with persistent := ps }) s)

/-- The conflicts one report brings, each a pair with its DETAIL; the islands judge after them. -/
def reportConflicts (g kind fseq : Nat) (cs : List ((Nat × Nat) × Nat)) (s : State) : State :=
  if cs.isEmpty then s
  else judgeConflicts g (cs.foldl (fun a c => conflictPair g kind fseq c.1.1 c.1.2 c.2 a) s)

/-! ### Emission (R237, R241, R242) -/

/-- The token of a member: the chosen ring entry, the concatenated samples, or zeros. -/
def memberToken (f : FuseSlot) (e : GEdge) (s : State) : Token :=
  let size := edgeSize e s
  match f.members.find? (fun m => m.index + 32 == e.srcPort) with
  | none => { data := zeroBytes size, degraded := f.degraded }
  | some m =>
    let x := sens m.stream s
    let ps := x.entries.filter (fun p => m.seqs.contains p.seq)
    if !m.st.isUsed then { data := zeroBytes size, degraded := f.degraded }
    else if m.all then
      let bs := (ps.flatMap (allBytes x)).take size
      { data := bs ++ zeroBytes (size - bs.length), degraded := f.degraded }
    else
      match ps with
      | [] => { data := zeroBytes size, degraded := f.degraded }
      | p :: _ => { data := p.data, degraded := f.degraded, ring := some (m.stream, p.seq) }

/-- The token an edge of the group gets from a slot; none for the track table and other sub-ports. -/
def slotToken (f : FuseSlot) (e : GEdge) (s : State) : Option Token :=
  if e.srcPort = 0 then some { data := f.frame, degraded := f.degraded }
  else if 8 ≤ e.srcPort ∧ e.srcPort ≤ 23 then
    some { data := f.depth.getD (e.srcPort - 8) [], degraded := f.degraded }
  else if 32 ≤ e.srcPort then some (memberToken f e s)
  else none

/-- SLOT_EMIT (R237): the projection is done and every edge of the frame has a credit; tokens leave, the slot is freed, a
slot that waited for it opens, and the islands judge the conflicts. -/
def slotEmit (g fseq : Nat) (s : State) : State :=
  let x := group g s
  match x.open_.find? (fun f => f.fseq == fseq && f.emitting) with
  | none => s
  | some f =>
    let es := (edgesFrom 3 x.id s).filter (fun e => e.srcPort != 1)
    if (x.raw ∧ !f.projDone) ∨ es.any (fun e => (edge e.id s).credits == 0) ∨ !dieUp x.home s then s
    else
      let s1 := es.foldl (fun a e => match slotToken f e s with
        | none => a
        | some tk => sendToken e.id tk a) s
      let s2 := modGroup g (fun y => { y with
        open_ := y.open_.filter (fun z => z.fseq != fseq)
        past := f :: y.past.take 2047
        lastFseq := fseq
        history := ((fseq, []) :: y.history).take 64 }) s1
      let s3 := match (group g s2).opening with
        | [] => s2
        | (k, t) :: r =>
          if (group g s2).open_.length < (group g s2).slots then
            openSlot g k t (modGroup g (fun y => { y with opening := r }) s2)
          else s2
      judgeConflicts g s3

def execSlotEmit (t grp fseq : Nat) (s : State) : Outcome State Fault Refusal := .next (slotEmit grp fseq (advanceTo t s))

/-! ### Reports to the engine (R247 to R252) -/

/-- The group an edge feeds, with the sub-port. -/
def groupOfEdge (e : Nat) (s : State) : Option (Nat × Nat) :=
  match gEdgeOf e s with
  | none => none
  | some x =>
    if x.dstKind = 3 then ((declaredGroups s).find? (fun g => (group g s).id == x.dst)).map (fun g => (g, x.dstPort))
    else none

/-- The members of the inputs of the GRID_FUSE operator that produces an edge (R247). -/
def gridMembers (e : Nat) (s : State) : List Nat :=
  match gEdgeOf e s with
  | none => []
  | some x =>
    match (curImage s).op x.src with
    | none => []
    | some o => (List.range (min 7 (fieldLe o.params 0 1))).map (fun i => fieldLe o.params (2 + i) 1)

/-- CONFLICT_SUMMARY_RX (R247, R252): a record and the penalties for every pair with cells in conflict. -/
def conflictSummary (e : Nat) (s : State) : State :=
  match arriving e s, groupOfEdge e s with
  | some tk, some (g, 5) =>
    let ms := gridMembers e s
    let n := ms.length
    let fseq := fieldLe tk.data (4 * (n * n)) 4 + 2 ^ 32 * fieldLe tk.data (4 * (n * n + 1)) 4
    let pairs := (List.range n).flatMap (fun i => (List.range n).filterMap (fun j => if i < j then some (i, j) else none))
    let cs := pairs.filterMap (fun p =>
      let c := fieldLe tk.data (4 * (p.1 * n + p.2)) 4
      if c = 0 then none else some ((ms.getD p.1 0, ms.getD p.2 0), c))
    takeArriving e (reportConflicts g 1 fseq cs s)
  | _, _ => s

def execConflictSummaryRx (t edge : Nat) (s : State) : Outcome State Fault Refusal := .next (conflictSummary edge (advanceTo t s))

/-- A detection record (R249). -/
structure Detection where
  member : Nat
  cls : Nat
  conf : Nat
  /-- X, Y, SXX, SYY, SXY -/
  z : List Nat
  len : Nat
  wid : Nat
  deriving DecidableEq, Repr

/-- Detection `i` of a list (records count from 1). -/
def detectionAt (bs : List Byte) (i : Nat) : Detection :=
  let o := 32 * (i + 1)
  { member := fieldLe bs o 1, cls := fieldLe bs (o + 1) 1, conf := fieldLe bs (o + 4) 4
    z := (List.range 5).map (fun k => fieldLe bs (o + 8 + 4 * k) 4), len := fieldLe bs (o + 28) 2, wid := fieldLe bs (o + 30) 2 }

/-- The detections that count: within the count, not empty, of members that are neither blocked nor on an isolated port
(R249, R256). -/
def detections (x : FuseGroup) (bs : List Byte) (s : State) : List Detection :=
  let n := min (fieldLe bs 8 4) (bs.length / 32 - 1)
  ((List.range n).map (detectionAt bs)).filter (fun d => d.cls != 0 && x.members.all (fun m => m.index != d.member || !regOut m s))

/-- The table of a group: MAX_TRACKS records. -/
def tableOf (x : FuseGroup) : List Track := (x.tracks ++ List.replicate (x.maxTracks - x.tracks.length) ({} : Track)).take x.maxTracks

/-- A candidate association: d², table slot, detection index. -/
def pairsOf (ts : List Track) (ds : List Detection) (conf : Nat → Nat) (gate : Nat) : List (Nat × Nat × Nat) :=
  ts.zipIdx.flatMap (fun t => if t.1.st = 0 then [] else
    ds.zipIdx.filterMap (fun d =>
      let d2 := Config.trackD2 t.1.x t.1.p d.1.z (conf d.1.member)
      if fle d2 gate then some (d2, t.2, d.2) else none))

/-- Insert an association in ascending d², then table slot, then detection index. -/
def insertPair (p : Nat × Nat × Nat) : List (Nat × Nat × Nat) → List (Nat × Nat × Nat)
  | [] => [p]
  | q :: r =>
    if flt p.1 q.1 ∨ (feq p.1 q.1 ∧ (p.2.1 < q.2.1 ∨ (p.2.1 = q.2.1 ∧ p.2.2 < q.2.2))) then p :: q :: r
    else q :: insertPair p r

/-- Accept pairs in order: the detection unassigned, the track without a detection of that member (R251 step 3). -/
def acceptPairs (ds : List Detection) : List (Nat × Nat × Nat) → List (Nat × Nat) → List (Nat × Nat)
  | [], acc => acc
  | (_, t, d) :: r, acc =>
    let m := (ds[d]?.map (·.member)).getD 0
    if acc.any (fun a => a.2 == d) || acc.any (fun a => a.1 == t && (ds[a.2]?.map (·.member)) == some m) then acceptPairs ds r acc
    else acceptPairs ds r (acc ++ [(t, d)])

/-- Two detections of a track contradict (R252). -/
def detConflict (x : FuseGroup) (conf : Nat → Nat) (a b : Detection) : Bool :=
  flt x.conflictGate (Config.pairD2 a.z (conf a.member) b.z (conf b.member))
    || (a.cls != b.cls && fle x.confMin a.conf && fle x.confMin b.conf)

/-- The conflicting pairs among the detections of a track. -/
def trackConflicts (x : FuseGroup) (conf : Nat → Nat) : List Detection → List (Nat × Nat)
  | [] => []
  | d :: r => (r.filter (detConflict x conf d)).map (fun e => (min d.member e.member, max d.member e.member))
      ++ trackConflicts x conf r

/-- Bits set among the lowest `n`. -/
def lowBits (v : Nat) : Nat → Nat
  | 0 => 0
  | n + 1 => v % 2 + lowBits (v / 2) n

/-- Insert a detection by ascending member index. -/
def insertDet (d : Detection) : List Detection → List Detection
  | [] => [d]
  | e :: r => if d.member < e.member then d :: e :: r else e :: insertDet d r

/-- Steps 1, 4 and 6 of R251 for one table slot: prediction, updates or the conflict mark, confirmation, retirement. -/
def stepTrack (x : FuseGroup) (conf : Nat → Nat) (deg : Bool) (fseq tov : Nat) (ds : List Detection) (t : Track) : Track :=
  if t.st = 0 then t
  else
    let (px, pp) := Config.trackPredict t.x t.p x.qAcc ((tov : Int) - t.tov)
    let t1 := { t with x := px, p := pp, tov := tov, fseq := fseq, degraded := deg, conflict := false }
    let sorted := ds.foldl (fun a d => insertDet d a) []
    if !(trackConflicts x conf sorted).isEmpty then { t1 with conflict := true }
    else
      let upd := fun (a : Track) (d : Detection) =>
        let (ux, up) := Config.trackUpdate a.x a.p d.z (conf d.member)
        { a with x := ux, p := up, cls := d.cls, len := d.len, wid := d.wid }
      let t2 : Track := sorted.foldl upd t1
      let t3 : Track := if ds.isEmpty then { t2 with hits := t2.hits * 2 % 256, misses := satAdd 8 t2.misses 1 }
        else { t2 with hits := (t2.hits * 2 + 1) % 256, misses := 0
                       members := sorted.foldl (fun a d => a ||| 2 ^ d.member) 0 }
      let t4 : Track := if t3.st = 1 ∧ x.confirmM ≤ lowBits t3.hits x.confirmN then { t3 with st := 2 } else t3
      if x.missMax ≤ t4.misses then ({} : Track) else t4

/-- The next TRACK_ID: from 1, skipping 0 and live ones, wrapping after 65,535. -/
def freeTrackId (ts : List Track) : Nat → Nat → Nat
  | 0, i => i
  | n + 1, i =>
    let j := if i = 0 ∨ 65535 < i then 1 else i
    if ts.any (fun t => t.st != 0 && t.id == j) then freeTrackId ts n (j + 1) else j

/-- Start a TENTATIVE track for an unassigned detection in the lowest FREE slot, or drop it (R251 step 5). -/
def startTrack (deg : Bool) (fseq tov : Nat) (g : FuseGroup) (d : Detection) : FuseGroup :=
  let ts := tableOf g
  match ts.findIdx? (fun t => t.st == 0) with
  | none => { g with full := satAdd 16 g.full 1 }
  | some i =>
    let id := freeTrackId ts 512 g.nextTrack
    let v := fmul g.initVstd g.initVstd
    let z := fun k => d.z.getD k 0
    let t : Track := { id := id, st := if g.confirmM ≤ 1 then 2 else 1, degraded := deg, cls := d.cls, hits := 1
                       x := [z 0, z 1, 0, 0], p := [z 2, z 4, 0, 0, z 3, 0, 0, v, 0, v]
                       tov := tov, members := 2 ^ d.member, len := d.len, wid := d.wid, fseq := fseq }
    { g with tracks := ts.set i t, nextTrack := if id = 65535 then 1 else id + 1 }

/-- The 96 bytes of a track record (R250). -/
def trackBytes (t : Track) : List Byte :=
  if t.st = 0 then zeroBytes 96
  else
    leBytes 2 t.id ++ leBytes 1 t.st ++ leBytes 1 (b2n t.conflict + 2 * b2n t.degraded) ++ leBytes 1 t.cls ++ leBytes 1 t.hits
      ++ leBytes 1 t.misses ++ zeroBytes 1 ++ (List.range 4).flatMap (fun i => leBytes 4 (t.x.getD i 0))
      ++ (List.range 10).flatMap (fun i => leBytes 4 (t.p.getD i 0)) ++ leBytes 8 t.tov ++ leBytes 4 t.members
      ++ leBytes 2 t.len ++ leBytes 2 t.wid ++ leBytes 8 t.fseq ++ zeroBytes 8

/-- Emit the track table on sub-port 1. -/
def emitTable (g : Nat) (deg : Bool) (s : State) : State :=
  let x := group g s
  ((edgesFrom 3 x.id s).filter (fun e => e.srcPort == 1)).foldl (fun a e =>
    offerToken e.id { data := (tableOf x).flatMap trackBytes, degraded := deg } a) s

/-- Confidences and DEGRADED flag of an emitted frame. -/
def frameInfo (x : FuseGroup) (fseq : Nat) : List Nat × Bool :=
  match x.frames.find? (fun f => f.1 == fseq) with
  | none => ((List.range 32).map (fun i => ((x.members.find? (fun m => m.index == i)).map (·.conf)).getD 0), false)
  | some f => f.2

/-- Process a new detection list (R251). -/
def processList (g fseq : Nat) (bs : List Byte) (s : State) : State :=
  let x := group g s
  let tov := fseq * (x.periodUs * 1000) + x.phaseNs
  let (cs, deg) := frameInfo x fseq
  let conf := fun i => cs.getD i 0
  let ds := detections x bs s
  let ts := tableOf x
  let pred := ts.map (fun t => if t.st = 0 then t else
    { t with x := (Config.trackPredict t.x t.p x.qAcc ((tov : Int) - t.tov)).1, p := (Config.trackPredict t.x t.p x.qAcc ((tov : Int) - t.tov)).2 })
  let acc := acceptPairs ds ((pairsOf pred ds conf x.assocGate).foldr insertPair []) []
  let mine := fun (i : Nat) => acc.filterMap (fun a => if a.1 = i then ds[a.2]? else none)
  let ts1 := ts.mapIdx (fun i t => stepTrack x conf deg fseq tov (mine i) t)
  let free := ds.zipIdx.filterMap (fun d => if acc.any (fun a => a.2 == d.2) then none else some d.1)
  let starts := free.filter (fun d => fle x.confMin d.conf)
  let confl := ts.zipIdx.flatMap (fun t => (trackConflicts x conf (mine t.2)).map (fun p => (p, t.1.id)))
  let s1 := modGroup g (fun y => starts.foldl (startTrack deg fseq tov) { y with tracks := ts1, tableFseq := fseq }) s
  emitTable g deg (reportConflicts g 2 fseq confl s1)

/-- DETECTION_LIST_RX (R251, R256): a list whose FSEQ is not greater than the table's last is ignored; the table is emitted. -/
def detectionList (e : Nat) (s : State) : State :=
  match arriving e s, groupOfEdge e s with
  | some tk, some (g, 4) =>
    let fseq := fieldLe tk.data 0 8
    let s1 := takeArriving e s
    if !(group g s).object then s1
    else if fseq ≤ (group g s).tableFseq then emitTable g false s1
    else processList g fseq tk.data s1
  | _, _ => s

def execDetectionListRx (t edge : Nat) (s : State) : Outcome State Fault Refusal := .next (detectionList edge (advanceTo t s))

/-- FUSION_GROUP_MOVE (R256): the group goes to the other die's engine without its open slots and track table; members on
the lost die's ports are BLOCKED. -/
def groupMove (g : Nat) (s : State) : State :=
  let x := group g s
  if !x.declared ∨ dieUp x.home s ∨ !dieUp (1 - x.home) s then s
  else modGroup g (fun y => { y with
    home := 1 - y.home, open_ := [], opening := [], past := [], tracks := [], tableLost := y.tableLost || y.object
    members := y.members.map (fun m => { m with portLost := m.portLost || !sensUp (sens m.stream s) s }) }) s

def execFusionGroupMove (t grp : Nat) (s : State) : Outcome State Fault Refusal := .next (groupMove grp (advanceTo t s))

/-- Lift a member's block (R254): an UNBLOCK record, c = 1.0. -/
def unblockMember (g i : Nat) (s : State) : State :=
  let x := group g s
  if !(memberReg g i s).blocked then s
  else
    let s1 := modGroup g (fun y => { y with
      members := y.members.map (fun m => if m.index = i then { m with blocked := false, conf := 0x3F800000 } else m)
      history := y.history.map (fun h => (h.1, h.2.filter (fun p => p.1 != i && p.2 != i))) }) s
    judgeConflicts g (fuseEvt x.home 5 g i 0xFF x.lastFseq (stamp x.home s) 0 0xFF s1)

end Sys2Proof.Machine
end

