-- ==== Sys2Proof/Machine/Ddr.lean ====
section
/-!
DEFINITION. DDR4 memory controllers: guards at the brim stop, queues, the check code, scrub, bus errors, refresh and
low-power states (R369 to R389, R418 to R421).
-/

namespace Sys2Proof.Machine

open Host (Outcome)

/-! ### Addresses (R370) -/

/-- Device address of a line of a channel. -/
def lineAddr (ch line : Nat) : Nat := deviceOf ch (line * 64)

/-- Row, bank and bank group of a channel-local line number. -/
def rowOf (line : Nat) : Nat := line * 64 / 2 ^ 17 % 2 ^ 17
def bankOf (line : Nat) : Nat := bits (line * 64) 16 15 ^^^ bits (line * 64) 20 19
def groupOf (line : Nat) : Nat := bits (line * 64) 7 6 ^^^ bits (line * 64) 18 17

/-- The bank number 0 to 15 of a line. -/
def bankIx (line : Nat) : Nat := groupOf line * 4 + bankOf line

/-- Devices of the symbols in error. -/
def errDevices (errs : List (Nat × Nat)) : List Nat := (errs.map (·.1 / 8)).eraseDups

/-- DETAIL of a log entry and of the channel's records (R381). -/
def ddrDetail (line : Nat) (errs : List (Nat × Nat)) : Nat :=
  let dev := match errDevices errs with
    | [d] => d
    | _ => 0xF
  rowOf line + bankOf line * 2 ^ 17 + groupOf line * 2 ^ 19 + bits (line * 64) 14 8 * 2 ^ 21 + dev * 2 ^ 28

/-! ### Check code (R376, R378) -/

/-- Multiplication by α in GF(2^8) with x^8 + x^4 + x^3 + x^2 + 1. -/
def gfAlpha (v : Nat) : Nat := if v < 128 then v * 2 else (v * 2 % 256) ^^^ 0x1D

/-- Multiplication by α^n. -/
def gfShift : Nat → Nat → Nat
  | 0, v => v
  | n + 1, v => gfShift n (gfAlpha v)

/-- Syndrome S_j of an error pattern. -/
def syndrome (errs : List (Nat × Nat)) (j : Nat) : Nat :=
  errs.foldl (fun a e => a ^^^ gfShift (j * Config.symbolPower e.1 % 255) e.2) 0

/-- The eight syndrome bytes, S0 lowest. -/
def syndromes (errs : List (Nat × Nat)) : Nat := leVal ((List.range 8).map (fun j => BitVec.ofNat 8 (syndrome errs j)))

/-- The poison pattern: 0x5A in every check symbol. -/
def poisonErrs : List (Nat × Nat) := (List.range 8).map (fun i => (64 + i, 0x5A))

/-- Result of decoding a line. -/
inductive Decoded where
  | clean | corrected (n : Nat) | uncorrectable | poisoned | wrong (mask : List Byte)
  deriving DecidableEq, Repr

/-- The errors a read meets: symbols with a non-zero error, the poison pattern of a poisoned line among them. -/
def seenErrs (poisoned : Bool) (errs : List (Nat × Nat)) : List (Nat × Nat) :=
  let p := if poisoned then poisonErrs else []
  ((List.range 72).map (fun k => (k, ((p ++ errs).filter (fun e => e.1 == k)).foldl (fun a e => a ^^^ e.2 % 256) 0))).filter
    (fun e => e.2 != 0)

/-- Classification of R376: the poison syndrome is recognized before any correction. -/
def decodeLine (errs : List (Nat × Nat)) : Decoded :=
  if errs = [] then .clean
  else if errs = poisonErrs then .poisoned
  else if errs.length ≤ 3 then .corrected errs.length
  else if errs.length ≤ 5 then .uncorrectable
  else match Config.miscorrected errs with
    | none => .uncorrectable
    | some m => .wrong m

/-! ### Guards (R417 to R421) -/

/-- The device reserve (R417). -/
def inReserve (a : Nat) : Bool := decide (0x2F7F800000 ≤ a)

/-- The DDR guard that covers an address. -/
def guardAt (a : Nat) (s : State) : Option DdrGuard :=
  s.sec.ddrGuards.find? (fun g => decide (g.base ≤ a ∧ a < g.base + g.size))

/-- The address lies in a secure region. -/
def secureAddr (a : Nat) (s : State) : Bool :=
  match guardAt a s with
  | none => false
  | some g => g.secure

/-- Requesters the reserve guard admits. -/
def reserveAgent (w : Requester) : Bool :=
  match w with
  | .scrub | .refill _ | .fitter | .trace _ | .island _ => true
  | _ => false

/-- The brim stop lets a request pass (R418, R420, R421). -/
def guardPasses (a : Nat) (write secure : Bool) (w : Requester) (s : State) : Bool :=
  match w with
  | .host _ =>
    !inReserve a && (match guardAt a s with
      | none => false
      | some g => !g.secure && decide ((if write then 2 else 1) ≤ g.host))
  | _ => if inReserve a then reserveAgent w else secure || !secureAddr a s

/-- The part of a requester. -/
def requesterPart (w : Requester) (s : State) : Nat :=
  match w with
  | .glove m | .scene _ _ m | .refill m => quadPart ((((mitten m s).gloves.head?).getD 0) / 4)
  | .host p => 0x48 + p
  | .sensor n _ => sensPart (sens n s)
  | .island i => 0x50 + i
  | .ledger st _ => 4 + homeOf st s
  | .trace d => 4 + d
  | .scrub | .fitter => 0xFF

/-- Where a requester sits, in the SRC encoding of R44. -/
def requesterSrc (w : Requester) (s : State) : Nat :=
  let io := fun (d st : Nat) => 0x8000 + d * 0x4000 + st
  match w with
  | .glove m | .scene _ _ m | .refill m =>
    let g := ((mitten m s).gloves.head?).getD 0
    g / 336 * 0x2000 + g % 336 / 4 * 0x40 + g % 4 * 8
  | .host _ => 0xFFFF
  | .ledger st _ => io (homeOf st s) 0x1E
  | .sensor n _ => let x := sens n s; io (sensDie x) (if x.eth then 0x14 + x.port % 2 else 0x10 + x.port % 4)
  | .island i => io i 0x1C
  | .trace d => io d 0x1C
  | .scrub | .fitter => io 0 0

/-! ### Error responses (R380, R387, R447) -/

/-- A ring entry or slot buffer with an uncorrectable error: the member is BLOCKED in that slot only (R256). -/
def blockInSlot (g n seq fr : Nat) (s : State) (f : FuseSlot) : FuseSlot :=
  let hit := fun (m : SlotMember) => m.stream == n && (m.seqs.contains seq ||
    (m.st == .undecided && (sens n s).entries.any (fun p => p.seq == seq && inWindow m f.tov p.meas)))
  if !f.members.any hit then f
  else
    let f1 := { f with members := f.members.map (fun m => if hit m then { m with st := .blocked, seqs := [] } else m) }
    if f.emitting then { f1 with degraded := true, frame := frameRecord g f1 fr f.decided true s } else f1

/-- The slots that use a ring entry meet its error. -/
def ringError (n seq : Nat) (s : State) : State :=
  let (fr, s1) := drawFree s
  (declaredGroups s1).foldl (fun a g => modGroup g (fun x => { x with open_ := x.open_.map (blockInSlot g n seq fr a) }) a) s1

/-- A scene-memory page read failed: its entry becomes LOST (R168). -/
def losePage (mem slot : Nat) (s : State) : State :=
  modScene mem (fun x => { x with pages := x.pages.mapIdx (fun i g => if i = slot ∧ g.st = .valid then { g with st := .lost } else g) }) s

/-- A requester receives an error response: what it abandons, with the VOID cause and PART (R380). -/
def errorResponse (w : Requester) (line cause part : Nat) (s : State) : State :=
  match w with
  | .glove m => voidFiring true m cause part 0xFFFF 0 s
  | .ledger st q => voidTags [⟨st, q⟩] cause part 0xFFFF 0 s
  | .scene mem slot m => losePage mem slot (voidFiring true m cause part 0xFFFF 0 s)
  | .sensor n e => ringError n e s
  | .refill m => disableStreams (streamsOfMitten m s) cause part 0xFFFF s
  | .trace d => setTrace d { trace d s with dropped := (trace d s).dropped + 4 } s
  | .host p => { s with host := { s.host with resps := .poisoned p line :: s.host.resps } }
  | .scrub | .fitter | .island _ => s

/-- A refused request (R419): the host's completion or AER error, or an internal agent's voids with the MAJOR source at the
refusing guard. -/
def refuse (a : Nat) (write : Bool) (w : Requester) (s : State) : State :=
  let s0 := { s with sec := { s.sec with lastSrc := requesterSrc w s, lastWrite := write } }
  match w with
  | .host p =>
    let s1 := { s0 with sec := { s0.sec with violHost := satAdd 16 s0.sec.violHost 1, lastAddr := a, lastPort := p } }
    let s2 := if write then modPort p (fun h => { h with aerUr := true }) s1 else { s1 with host := { s1.host with resps := .unsupported p :: s1.host.resps } }
    latch (srcHost p 5) 0 s2
  | _ =>
    let s1 := { s0 with sec := { s0.sec with violInt := satAdd 16 s0.sec.violInt 1 } }
    latch (srcDdr (chanOf a) 7) 0 (errorResponse w a 1 (partId (requesterPart w s)) s1)

/-! ### Queues (R372 to R374) -/

/-- A write of a line in the queue. -/
def queuedWrite (ch line : Nat) (s : State) : Option DdrWrite := (chan ch s).writes.find? (fun w => w.line == line)

/-- Reads of a bank. -/
def bankReads (ch bank : Nat) (s : State) : Nat := ((chan ch s).reads.filter (fun r => bankIx r.line == bank)).length

/-- Both queues of a channel are empty, with no read in flight. -/
def chanIdle (c : DdrChan) : Bool := c.reads.isEmpty && c.writes.isEmpty && c.flight.isEmpty

/-- A channel that serves requests; a low-power state is left at the next one (R384). -/
def chanServes (c : DdrChan) : Bool :=
  match c.st with
  | .active | .powerDown | .selfRefresh => true
  | _ => false

/-- Change the writes of a channel. -/
def modWrites (ch : Nat) (f : List DdrWrite → List DdrWrite) (s : State) : State :=
  modChan ch (fun c => { c with writes := f c.writes }) s

/-- Bytes laid over an entry's bytes (R373). -/
def mergeBytes (old new : List (Nat × Byte)) : List (Nat × Byte) :=
  old.filter (fun b => !new.any (fun c => c.1 == b.1)) ++ new

/-- Byte enables covering the whole line. -/
def coversLine (bs : List (Nat × Byte)) : Bool := (List.range 64).all (fun i => bs.any (fun b => b.1 == i))

/-- DRAIN mode by R375. -/
def drainMode (c : DdrChan) : DdrChan :=
  let n := c.writes.length
  let r := c.reads.isEmpty
  if !c.drain then
    (if c.wmHigh ≤ n then { c with drain := true, drainIdle := false }
     else if r ∧ 0 < n then { c with drain := true, drainIdle := true }
     else c)
  else if n ≤ c.wmLow ∧ !(c.drainIdle ∧ r ∧ 0 < n) then { c with drain := false, drainIdle := false }
  else if c.drainIdle ∧ !r ∧ n < c.wmHigh then { c with drain := false, drainIdle := false }
  else c

/-- A read enters: forwarded from a write entry of its line, or queued; held while its bank's queue is full. -/
def enterRead (ch line : Nat) (w : Requester) (secure : Bool) (s : State) : State :=
  let c := chan ch s
  match queuedWrite ch line s with
  | some e =>
    let s1 := modChan ch (fun c => { c with forwards := satAdd 16 c.forwards 1, st := .active, lastUse := s.time.now }) s
    if e.merge then
      modChan ch (fun d => { d with
        ord := c.ord + 1
        writes := d.writes.map (fun x => if x.line = line then
          { x with waiters := x.waiters ++ [{ line := line, who := w, secure := secure, ord := c.ord }] } else x) }) s1
    else s1
  | none =>
    if 8 ≤ bankReads ch (bankIx line) s then s
    else modChan ch (fun c => drainMode { c with
      st := .active, lastUse := s.time.now, ord := c.ord + 1
      reads := c.reads ++ [{ line := line, who := w, secure := secure, ord := c.ord }] }) s

/-- A write enters: merged into an entry of its line, or queued; held while the write queue is full. An entry that covers
its line needs no merge, and the reads that waited for it are forwarded. -/
def enterWrite (ch line : Nat) (bs : List (Nat × Byte)) (w : Requester) (secure : Bool) (s : State) : State :=
  if (queuedWrite ch line s).isSome then
    modChan ch (fun c => { c with
      st := .active, lastUse := s.time.now
      writes := c.writes.map (fun x => if x.line = line then
        let m := mergeBytes x.bytes bs
        { x with bytes := m, merge := x.merge && !coversLine m
                 waiters := if coversLine m then [] else x.waiters } else x) }) s
  else if 64 ≤ (chan ch s).writes.length then s
  else modChan ch (fun c => drainMode { c with
    st := .active, lastUse := s.time.now, ord := c.ord + 1
    writes := c.writes ++ [{ line := line, bytes := bs, merge := !coversLine bs, who := w, secure := secure, ord := c.ord }] }) s

/-- DDR_REQUEST_ENTER (R372 to R374, R387, R418): a request of one line meets the guards, then the queues. -/
def ddrEnter (a : Nat) (write : Option (List (Nat × Byte))) (w : Requester) (secure : Bool) (s : State) : State :=
  let ch := chanOf a
  let line := localOf a / 64
  if Config.deviceBytes ≤ a then s
  else if !guardPasses a write.isSome secure w s then refuse a write.isSome w s
  else if !chanUp ch s then
    (match w, write with
     | .host _, some _ => s
     | _, _ => errorResponse w 64 1 (0x10 + ch) s)
  else if !chanServes (chan ch s) then s
  else match write with
    | none => enterRead ch line w secure s
    | some bs => enterWrite ch line (bs.map (fun b => (b.1 % 64, b.2))) w secure s

def execDdrRequestEnter (t addr : Nat) (write : Option (List (Nat × Byte))) (who : Requester) (secure : Bool) (s : State) :
    Outcome State Fault Refusal :=
  .next (ddrEnter addr write who secure (advanceTo t s))

/-! ### Issue (R375) -/

/-- Banks in rotating order from the pointer. -/
def bankOrder (p : Nat) : List Nat := (List.range 16).map (fun i => (p + i) % 16)

/-- The request of a bank that goes next: one to the open row goes before older ones at most four times in a row. -/
def bankPick {α : Type} (lineOf ordOf : α → Nat) (bank : Nat) (c : DdrChan) (xs : List α) : Option α :=
  let mine := xs.filter (fun x => bankIx (lineOf x) == bank)
  let oldest := mine.foldl (fun a x => match a with
    | none => some x
    | some y => if ordOf x < ordOf y then some x else some y) none
  let hit := mine.find? (fun x => tget none bank c.openRow == some (rowOf (lineOf x)))
  if tget 0 bank c.rowHits < 4 then (match hit with
    | some x => some x
    | none => oldest) else oldest

/-- The first bank at or after the pointer with a request that may go. -/
def firstBank {α : Type} (ready : List Nat) (lineOf ordOf : α → Nat) (c : DdrChan) (xs : List α) : Option (Nat × α) :=
  ((bankOrder c.bankPtr).filter (ready.contains ·)).findSome? (fun b => (bankPick lineOf ordOf b c xs).map (fun x => (b, x)))

/-- A pick in the open row goes before an older request of its bank to another row (R375). -/
def overtakes {α : Type} (lineOf ordOf : α → Nat) (b : Nat) (c : DdrChan) (xs : List α) (x : α) : Bool :=
  tget none b c.openRow == some (rowOf (lineOf x))
    && xs.any (fun y => bankIx (lineOf y) == b && decide (ordOf y < ordOf x) && rowOf (lineOf y) != rowOf (lineOf x))

/-- Record a pick: the open row, the run of overtaking picks, the pointer, the replay buffer. -/
def picked (b line kind : Nat) (passes : Bool) (c : DdrChan) : DdrChan :=
  { c with
    rowHits := tset 0 b (if passes then tget 0 b c.rowHits + 1 else 0) c.rowHits
    openRow := tset none b (some (rowOf line)) c.openRow
    bankPtr := (b + 1) % 16
    replay := (line, kind) :: c.replay.take 31 }

/-- A refresh is issued: every postponed one is made up. It ends POWER_DOWN (R384). -/
def issueRefresh (now : Nat) (c : DdrChan) : DdrChan :=
  { c with st := .active, refDue := false, postponed := 0, lastRef := now, openRow := [], rowHits := [] }

/-- Writes that may be issued: merged, not stuck, no older queued read of the line (R373). -/
def writable (c : DdrChan) : List DdrWrite :=
  c.writes.filter (fun w => !w.merge && !w.stuck && !c.reads.any (fun r => r.line == w.line && decide (r.ord < w.ord)))

/-- A write leaves the queue: its bytes are in memory; a line covered in full is poisoned no more (R378). -/
def issueWrite (ch b : Nat) (w : DdrWrite) (s : State) : State :=
  let base := lineAddr ch w.line
  let s1 := modChan ch (fun c => drainMode (picked b w.line 2 (overtakes DdrWrite.line DdrWrite.ord b c (writable c) w) { c with
    writes := c.writes.filter (fun x => x.line != w.line), poison := c.poison.filter (· != w.line) })) s
  { s1 with ddr := { s1.ddr with mem := w.bytes.foldl (fun m x => wr8 m (base + x.1) x.2) s1.ddr.mem } }

/-- Issue the merge read of a partial write that has none outstanding. -/
def mergeRead (c : DdrChan) : Option DdrWrite :=
  c.writes.find? (fun w => w.merge && !c.flight.any (fun r => r.merge && r.line == w.line))

/-- DDR_COMMAND_ISSUE (R375): `ready` are the banks whose next command meets DDR4 timing. -/
def commandIssue (ch : Nat) (ready : List Nat) (s : State) : State :=
  let c := drainMode (chan ch s)
  if c.st ≠ .active ∨ !chanUp ch s then s
  else if c.refDue then modChan ch (fun _ => issueRefresh s.time.now c) s
  else if c.zqDue then modChan ch (fun _ => { c with zqDue := false }) s
  else
    match mergeRead c with
    | some w => modChan ch (fun _ => picked (bankIx w.line) w.line 1 false { c with
        flight := c.flight ++ [{ line := w.line, who := w.who, secure := w.secure, ord := w.ord, merge := true
                                 poison := c.poison.contains w.line }] }) s
    | none =>
      if c.drain then
        (match firstBank ready DdrWrite.line DdrWrite.ord c (writable c) with
         | none => s
         | some (b, w) => issueWrite ch b w s)
      else
        (match firstBank ready DdrRead.line DdrRead.ord c c.reads with
         | none => s
         | some (b, r) => modChan ch (fun _ => drainMode (picked b r.line 1 (overtakes DdrRead.line DdrRead.ord b c c.reads r) { c with
             reads := c.reads.filter (fun x => x.ord != r.ord)
             flight := c.flight ++ [{ r with poison := c.poison.contains r.line }] })) s)

def execDdrCommandIssue (t ch : Nat) (ready : List Nat) (s : State) : Outcome State Fault Refusal :=
  .next (commandIssue ch ready (advanceTo t s))

/-! ### Decode (R376 to R381) -/

/-- REQ codes of R381. -/
def reqCode (w : Requester) (write : Bool) : Nat :=
  match w with
  | .glove _ | .scene _ _ _ | .refill _ => 0
  | .host _ => 1
  | .ledger _ _ => 2
  | .sensor _ _ => 3
  | .scrub => 4
  | .fitter => 5
  | .trace _ => if write then 6 else 7
  | .island _ => 7

/-- Log one error (R381). -/
def ddrLog (ch line kind syms req : Nat) (errs : List (Nat × Nat)) (s : State) : State :=
  let a := lineAddr ch line
  let e : DdrLog := {
    stamp := stamp (ch / 6) s, addr := a, detail := ddrDetail line errs, kind := kind, symbols := syms
    secure := secureAddr a s, req := req, syndrome := if 6 ≤ kind then 0 else syndromes errs }
  modChan ch (fun c => { c with elogWr := wrapAdd 16 c.elogWr 1, elog := tset {} (c.elogWr % 16) e c.elog }) s

/-- Raise a source of a channel with the DETAIL of R381. -/
def ddrRaise (ch off line : Nat) (errs : List (Nat × Nat)) (s : State) : State :=
  latch (srcDdr ch off) (ddrDetail line errs) s

/-- Count, log and report a corrected line (R377). -/
def countCe (ch line req : Nat) (errs : List (Nat × Nat)) (s : State) : State :=
  let s1 := modChan ch (fun c => { c with
    ce := satAdd 16 c.ce 1
    devCe := (errDevices errs).foldl (fun t d => tmod 0 d (fun v => satAdd 16 v 1) t) c.devCe }) s
  ddrRaise ch 0 line errs (ddrLog ch line 1 errs.length req errs s1)

/-- A miscorrected line is delivered and written back wrong: its bytes change by a mask. The write-back is skipped when
the write queue holds an entry for the line (R377). -/
def xorLine (ch line : Nat) (mask : List Byte) (s : State) : State :=
  let a := lineAddr ch line
  let bs := List.zipWith (fun (x y : Byte) => x ^^^ y) (rdBytes s.ddr.mem a 64) mask
  if (queuedWrite ch line s).isSome then s else { s with ddr := { s.ddr with mem := wrBytes s.ddr.mem a bs } }

/-- Count a UE or a poisoned read. -/
def countUe (ch : Nat) (s : State) : State := modChan ch (fun c => { c with ue := satAdd 16 c.ue 1 }) s

/-- Reads that waited for a merge which failed go back to the read queue, oldest first. -/
def requeueWaiters (ch line : Nat) (s : State) : State :=
  match queuedWrite ch line s with
  | none => s
  | some w => modChan ch (fun c => { c with
      writes := c.writes.filter (fun x => x.line != line), reads := w.waiters ++ c.reads }) s

/-- The bytes that a miscorrected merge read puts under the new ones. -/
def maskedBytes (mask old : List Byte) : List Byte := List.zipWith (fun (x y : Byte) => x ^^^ y) old mask

/-- The merge read of a partial write is decoded (R374, R378, R381). -/
def decodeMerge (ch : Nat) (r : DdrRead) (errs : List (Nat × Nat)) (s : State) : State :=
  let req := reqCode r.who true
  let fill := fun (lay : List Byte → List Byte) (z : State) =>
    let old := lay (rdBytes z.ddr.mem (lineAddr ch r.line) 64)
    modWrites ch (fun ws => ws.map (fun x => if x.line = r.line then
      { x with bytes := mergeBytes (old.mapIdx (fun i b => (i, b))) x.bytes, merge := false, waiters := [] } else x)) z
  match decodeLine errs with
  | .clean => fill id s
  | .corrected _ => fill id (countCe ch r.line req errs s)
  | .wrong m => fill (maskedBytes m) (countCe ch r.line req errs s)
  | .uncorrectable => requeueWaiters ch r.line (ddrLog ch r.line 4 0xFF req errs s)
  | .poisoned =>
    requeueWaiters ch r.line (ddrLog ch r.line 4 0xFF req errs
      (modChan ch (fun c => { c with discarded := satAdd 16 c.discarded 1 }) s))

/-- A demand read is decoded (R377, R380). -/
def decodeDemand (ch : Nat) (r : DdrRead) (errs : List (Nat × Nat)) (s : State) : State :=
  let req := reqCode r.who false
  let bad := fun (kind : Nat) =>
    let s1 := ddrRaise ch 1 r.line errs (ddrLog ch r.line kind 0xFF req errs (countUe ch s))
    errorResponse r.who 64 2 (0x10 + ch) s1
  match decodeLine errs with
  | .clean => s
  | .corrected _ => countCe ch r.line req errs s
  | .wrong m => countCe ch r.line req errs (xorLine ch r.line m s)
  | .uncorrectable => bad 2
  | .poisoned => bad 5

/-- DDR_READ_DECODE: the oldest read in flight returns; `errs` are symbol numbers with the errors of the bus and the
devices. -/
def readDecode (ch : Nat) (errs : List (Nat × Nat)) (s : State) : State :=
  match (chan ch s).flight with
  | [] => s
  | r :: rest =>
    let s1 := modChan ch (fun c => { c with flight := rest }) s
    let es := seenErrs r.poison errs
    if r.merge then
      (match queuedWrite ch r.line s1 with
       | none => s1
       | some w => if w.merge then decodeMerge ch r es s1 else s1)
    else decodeDemand ch r es s1

def execDdrReadDecode (t ch : Nat) (errs : List (Nat × Nat)) (s : State) : Outcome State Fault Refusal :=
  .next (readDecode ch errs (advanceTo t s))

/-- The scrub position moves on; the last line completes a pass. -/
def scrubNext (ch : Nat) (s : State) : State :=
  let st := stamp (ch / 6) s
  modChan ch (fun c => if c.scrubLine + 1 = 2 ^ 28 then { c with scrubLine := 0, scrubLast := st }
    else { c with scrubLine := c.scrubLine + 1 }) s

/-- DDR_SCRUB_READ (R379, R388). -/
def scrubRead (ch : Nat) (errs : List (Nat × Nat)) (s : State) : State :=
  let c := chan ch s
  if !chanUp ch s ∨ !c.scrubOn ∨ !chanIdle c ∨ c.refDue ∨ c.zqDue ∨ !(c.st == .active || c.st == .powerDown) then s
  else
    let line := c.scrubLine
    let es := seenErrs (c.poison.contains line) errs
    let s1 := match decodeLine es with
      | .clean => s
      | .corrected _ => countCe ch line 4 es s
      | .wrong m => countCe ch line 4 es (xorLine ch line m s)
      | .poisoned => ddrLog ch line 5 0xFF 4 es (countUe ch s)
      | .uncorrectable =>
        let s2 := modChan ch (fun x => { x with
          poison := if x.poison.contains line then x.poison else x.poison ++ [line]
          poisoned := if x.poison.contains line then x.poisoned else satAdd 16 x.poisoned 1 }) (countUe ch s)
        ddrRaise ch 4 line es (ddrLog ch line 3 0xFF 4 es s2)
    scrubNext ch s1

def execDdrScrubRead (t ch : Nat) (errs : List (Nat × Nat)) (s : State) : Outcome State Fault Refusal :=
  .next (scrubRead ch errs (advanceTo t s))

/-! ### Bus errors (R382) -/

/-- A channel that runs. -/
def chanRuns (ch : Nat) (s : State) : Bool := chanUp ch s && chanServes (chan ch s)

/-- The rows that are open after all banks were precharged and the commands from `back` ago onward replayed. -/
def reopened (back : Nat) (c : DdrChan) : Tbl (Option Nat) :=
  (c.replay.take (back + 1)).foldr (fun x t => tset none (bankIx x.1) (some (rowOf x.1)) t) []

/-- DDR_CA_PARITY_ERROR: the commands from the one in error onward (`back` commands ago) are replayed after all banks are
precharged. -/
def caParity (ch back : Nat) (s : State) : State :=
  if !chanRuns ch s then s
  else
    let line := ((((chan ch s).replay)[back]?).map (·.1)).getD 0
    let s1 := modChan ch (fun c => { c with caPar := satAdd 16 c.caPar 1, openRow := reopened back c, rowHits := [] }) s
    ddrRaise ch 2 line [] (ddrLog ch line 6 0xFF (reqCode .scrub false) [] s1)

def execDdrCaParityError (t ch back : Nat) (s : State) : Outcome State Fault Refusal := .next (caParity ch back (advanceTo t s))

/-- DDR_WRITE_CRC_ERROR: the write of a line is re-issued up to WCRC_RETRY times; then it stays queued. -/
def writeCrc (ch line : Nat) (s : State) : State :=
  match queuedWrite ch line s with
  | none => s
  | some w =>
    if !chanRuns ch s ∨ w.stuck then s
    else
      let limit := if (chan ch s).wcrcRetry = 0 then 1 else (chan ch s).wcrcRetry
      if w.retries < limit then
        modChan ch (fun c => { c with
          wcrc := satAdd 16 c.wcrc 1
          writes := c.writes.map (fun x => if x.line = line then { x with retries := x.retries + 1 } else x) }) s
      else
        let s1 := modWrites ch (fun ws => ws.map (fun x => if x.line = line then { x with stuck := true } else x)) s
        ddrRaise ch 3 line [] (ddrLog ch line 7 0xFF (reqCode w.who true) [] s1)

def execDdrWriteCrcError (t ch line : Nat) (s : State) : Outcome State Fault Refusal := .next (writeCrc ch line (advanceTo t s))

/-- DDR_CONTROLLER_PARITY. -/
def controllerParity (ch : Nat) (s : State) : State := if chanRuns ch s then latch (srcDdr ch 7) 0 s else s

def execDdrControllerParity (t ch : Nat) (s : State) : Outcome State Fault Refusal := .next (controllerParity ch (advanceTo t s))

/-! ### Refresh and temperature (R383, R371) -/

/-- tREFI in ns. -/
def trefi (c : DdrChan) : Nat := if c.ref2x then 3900 else 7800

/-- The controller refreshes the devices itself. -/
def refreshes (ch : Nat) (s : State) : Bool :=
  chanUp ch s && ((chan ch s).st == .active || (chan ch s).st == .powerDown)

/-- DDR_REFRESH_DUE: issued while no read is queued, postponed up to four times while reads are, then due before anything
else. -/
def refreshDue (ch : Nat) (s : State) : State :=
  let c := chan ch s
  if !refreshes ch s ∨ c.refDue ∨ s.time.now < c.lastRef + (c.postponed + 1) * trefi c then s
  else if c.reads.isEmpty then modChan ch (issueRefresh s.time.now) s
  else if c.postponed < 4 then
    modChan ch (fun x => { x with postponed := x.postponed + 1, postMax := max x.postMax (x.postponed + 1) }) s
  else modChan ch (fun x => { x with refDue := true }) s

def execDdrRefreshDue (t ch : Nat) (s : State) : Outcome State Fault Refusal := .next (refreshDue ch (advanceTo t s))

/-- DDR_REFRESH_WATCHDOG: no refresh within 9 × tREFI. -/
def refreshWatchdog (ch : Nat) (s : State) : State :=
  let c := chan ch s
  if refreshes ch s ∧ c.lastRef + 9 * trefi c ≤ s.time.now then latch (srcDdr ch 6) 0 s else s

def execDdrRefreshWatchdog (t ch : Nat) (s : State) : Outcome State Fault Refusal := .next (refreshWatchdog ch (advanceTo t s))

/-- DDR_TEMP_READ: the hottest device, °C; TEMP_HIGH bears on the envelope (R394). -/
def tempRead (ch : Nat) (deg : Int) (s : State) : State :=
  if !refreshes ch s then s
  else settle (modChan ch (fun c => { c with ref2x := decide (85 < deg), tempHigh := decide (95 < deg) }) s)

def execDdrTempRead (t ch : Nat) (deg : Int) (s : State) : Outcome State Fault Refusal := .next (tempRead ch deg (advanceTo t s))

/-- DDR_ZQCS: issued at once, or after a refresh that may no longer be postponed (R375). -/
def zqcs (ch : Nat) (s : State) : State :=
  if refreshes ch s ∧ (chan ch s).refDue then modChan ch (fun c => { c with zqDue := true }) s else s

def execDdrZqcs (t ch : Nat) (s : State) : Outcome State Fault Refusal := .next (zqcs ch (advanceTo t s))

/-! ### Low-power states and training (R384 to R386) -/

/-- DDR_POWER_DOWN_ENTER: idle for PD_IDLE × 8 clocks of 0.625 ns. -/
def powerDown (ch : Nat) (s : State) : State :=
  let c := chan ch s
  if chanUp ch s ∧ c.st = .active ∧ chanIdle c ∧ !c.refDue ∧ c.pdIdle ≠ 0 ∧ c.lastUse + c.pdIdle * 5 ≤ s.time.now then
    modChan ch (fun x => { x with st := .powerDown }) s
  else s

def execDdrPowerDownEnter (t ch : Nat) (s : State) : Outcome State Fault Refusal := .next (powerDown ch (advanceTo t s))

/-- DDR_SELF_REFRESH_ENTER: idle for SR_IDLE ms, or RETAIN is being entered and the write queue is empty. -/
def selfRefresh (ch : Nat) (s : State) : State :=
  let c := chan ch s
  let idle := c.srIdle ≠ 0 ∧ c.lastUse + c.srIdle * 1000000 ≤ s.time.now
  if chanUp ch s ∧ (c.st = .active ∨ c.st = .powerDown) ∧ chanIdle c ∧ (idle ∨ s.power.retainEntry) then
    modChan ch (fun x => { x with st := .selfRefresh, openRow := [], rowHits := [], postponed := 0, refDue := false }) s
  else s

def execDdrSelfRefreshEnter (t ch : Nat) (s : State) : Outcome State Fault Refusal := .next (selfRefresh ch (advanceTo t s))

/-- Every channel has been trained. -/
def allTrained (s : State) : Bool := (List.range 12).all (fun c => (chan c s).st == .active)

/-- DDR_TRAINING_DONE (R385, R386, R439): `seeds` tells of the channel's own seeds; with the twelfth channel the sweep
begins. A failed step stops start-up. -/
def trainingDone (ch : Nat) (ok seeds : Bool) (step device us : Nat) (s : State) : State :=
  if !booting s ∨ s.sec.stage ≠ 3 ∨ 12 ≤ ch ∨ (chan ch s).st = .active then s
  else if !ok then
    let s1 := modChan ch (fun c => { c with
      st := .trainFailed, trainResult := 3, trainStep := step % 8, trainDevice := device % 16, trainUs := us % 2 ^ 32 }) s
    stopStart 0x06 (latch (srcDdr ch 5) 0 s1)
  else
    let r := if s.crown.calDdr ∧ seeds then 1 else 2
    let s1 := modChan ch (fun c => { c with
      st := .active, trainResult := r, trainStep := 0, trainDevice := 0, trainUs := us % 2 ^ 32
      lastRef := s.time.now, lastUse := s.time.now }) s
    if allTrained s1 then
      { s1 with
        power := { s1.power with trained := true }
        sec := { s1.sec with stage := 4 }
        fault := { s1.fault with sweepAt := some s1.time.now } }
    else s1

def execDdrTrainingDone (t ch : Nat) (ok seeds : Bool) (step device us : Nat) (s : State) : Outcome State Fault Refusal :=
  .next (trainingDone ch ok seeds step device us (advanceTo t s))

/-- A channel is isolated (R387): its queued requests end with error responses of cause 0x01; it stays so until BOOT. -/
def isolateChannel (ch : Nat) (s : State) : State :=
  let c := chan ch s
  let wr := (c.writes.map (·.who)).filter (fun w => match w with
    | .host _ => false
    | _ => true)
  let who := (c.reads ++ c.flight ++ c.writes.flatMap (·.waiters)).map (·.who) ++ wr
  let s1 := modChan ch (fun x => { x with st := .isolated, reads := [], writes := [], flight := [] }) s
  who.foldl (fun a w => errorResponse w 64 1 (0x10 + ch) a) s1

end Sys2Proof.Machine
end

