-- ==== Sys2Proof/Machine/Attach.lean ====
section
/-!
DEFINITION. PCI Express ports, BAR2, failover, QUIESCE, fence, join and restart: the meanings of the attach commands
(R443 to R459, R461, R465).
-/

namespace Sys2Proof.Machine

open Host (Outcome)

/-! ### Links (R447, R449 to R452) -/

/-- Work whose device reads were in flight on a port is abandoned: its reads end as a completion timeout would (R447). -/
def failReads (p src : Nat) (flight : List Requester) (s : State) : State :=
  flight.foldl (fun a w => latch (srcHost p src) 0 (errorResponse w 64 1 (0x48 + p) a)) s

/-- The watermark record that waits is written once a port carries it (R456). -/
def flushRecord (s : State) : State :=
  if s.host.wmPend ∧ carried s.host.port s then
    { hostWr s.host.port s.host.wmBase s.host.wmRec s with host := { (hostWr s.host.port s.host.wmBase s.host.wmRec s).host with wmPend := false } }
  else s

/-- HOST_LINK_UP (R454): the port's function is out of reset, and the start-up step that begins training is past. -/
def linkUp (p : Nat) (s : State) : State :=
  let h := hport p s
  if h.link ∨ h.perst ∨ isIso (0x48 + p) s ∨ !dieUp p s ∨ !s.power.on ∨ s.power.inRetain ∨ (s.sec.stage < 3 ∧ !s.power.booted) then s
  else flushRecord (modPort p (fun x => { x with link := true, orderly := false }) s)

def execHostLinkUp (t port : Nat) (s : State) : Outcome State Fault Refusal := .next (linkUp port (advanceTo t s))

/-- A port's data link layer goes down: reads in flight end, the link-down source is raised, and the surprise-removal source
unless an orderly end came before (R451, R452). -/
def goDown (p : Nat) (orderly : Bool) (flight : List Requester) (s : State) : State :=
  let h := hport p s
  if !h.link then s
  else
    let s1 := latch (srcHost p 0) 0 (modPort p (fun x => { x with link := false, downAt := s.time.now, orderly := false }) s)
    let s2 := if orderly ∨ h.orderly then s1 else latch (srcHost p 1) 0 s1
    failReads p 2 flight s2

def execHostLinkDown (t port : Nat) (orderly : Bool) (flight : List Requester) (s : State) : Outcome State Fault Refusal :=
  .next (goDown port orderly flight (advanceTo t s))

/-- The delivered tickets of a stream that are not consumed: its ring entries from CONS to PROD − 1. -/
def unconsumed (st : Nat) (s : State) : List Ticket :=
  s.led.tickets.filter (fun k => k.stream == st && decide (k.phase = .delivered))

/-- Rewrite the outcome entries of a stream on the port that now carries it, and signal it once (R450). -/
def rewriteRing (st : Nat) (s : State) : State :=
  let x := strm st s
  let ks := unconsumed st s
  if x.secure ∨ ks.isEmpty then s
  else
    let size := ringSize x
    let s1 := ks.zipIdx.foldl (fun a k =>
      let c := (x.cons + k.2) % 65536
      hostWr x.port (x.outBase + c % size * 64)
        (outcomeBytes k.1 (if c / size % 2 = 0 then 1 else 0) a.power.jepoch) a) s
    sendVec x.port x.vector s1

/-- PORT_FAILOVER (R449, R450). -/
def failover (p : Nat) (s : State) : State :=
  let h := hport p s
  if !s.host.failover ∨ h.redirect ∨ portUp p s ∨ !portUp (1 - p) s ∨ s.time.now < h.downAt + s.host.foUs * 1000 then s
  else
    let s1 := modPort p (fun x => { x with redirect := true }) s
    let sts := (declaredStreams s1).filter (fun st => (strm st s1).port == p)
    flushRecord (attachVec (sts.foldl (fun a st => rewriteRing st a) s1))

def execPortFailover (t port : Nat) (s : State) : Outcome State Fault Refusal := .next (failover port (advanceTo t s))

/-- A refused request of the host. -/
def cmdRej (s : State) : State := { s with host := { s.host with cmdRej := true } }

/-- ATTACH_UNREDIRECT (R449): ends redirection while the original port is LINKED. -/
def unredirect (s : State) : State :=
  let one := fun (p : Nat) (z : State) =>
    if !(hport p z).redirect then z
    else if portUp p z then modPort p (fun h => { h with redirect := false }) z
    else cmdRej z
  one 1 (one 0 s)

def execAttachUnredirect (t : Nat) (s : State) : Outcome State Fault Refusal := .next (unredirect (advanceTo t s))

/-- PERST_ASSERT (R452): the port's function and link are reset, its configuration and MSI-X table return to defaults. -/
def perstAssert (p : Nat) (flight : List Requester) (s : State) : State :=
  modPort p (fun h => { ({} : HostPort) with
    perst := true, orderly := true, downAt := h.downAt, redirect := h.redirect, win := h.win }) (goDown p true flight s)

def execPerstAssert (t port : Nat) (flight : List Requester) (s : State) : Outcome State Fault Refusal :=
  .next (perstAssert port flight (advanceTo t s))

/-- PERST_DEASSERT (R452, R391): the link trains; the module wakes from RETAIN. -/
def perstDeassert (p : Nat) (s : State) : State :=
  if (hport p s).perst then wake (modPort p (fun h => { h with perst := false }) s) else s

def execPerstDeassert (t port : Nat) (s : State) : Outcome State Fault Refusal := .next (perstDeassert port (advanceTo t s))

/-- D3HOT_ENTRY (R443, R449): the port is down; the module state is unchanged. -/
def d3Entry (p : Nat) (flight : List Requester) (s : State) : State :=
  if (hport p s).d3hot ∨ !(hport p s).link then s
  else failReads p 2 flight (modPort p (fun h => { h with d3hot := true, downAt := s.time.now }) s)

def execD3hotEntry (t port : Nat) (flight : List Requester) (s : State) : Outcome State Fault Refusal :=
  .next (d3Entry port flight (advanceTo t s))

/-- D3HOT_EXIT. -/
def d3Exit (p : Nat) (s : State) : State :=
  if (hport p s).d3hot then flushRecord (modPort p (fun h => { h with d3hot := false }) s) else s

def execD3hotExit (t port : Nat) (s : State) : Outcome State Fault Refusal := .next (d3Exit port (advanceTo t s))

/-- HOST_READ_COMPLETION (R447): `status` 0 data, 1 Unsupported Request, 2 Completer Abort, 3 poisoned data. -/
def readCompletion (p : Nat) (who : Requester) (status : Nat) (s : State) : State :=
  if status = 0 ∨ !portUp p s then s else failReads p (if status = 3 then 4 else 2) [who] s

def execHostReadCompletion (t port : Nat) (who : Requester) (status : Nat) (s : State) : Outcome State Fault Refusal :=
  .next (readCompletion port who status (advanceTo t s))

/-- HOST_COMPLETION_TIMEOUT (R447). -/
def completionTimeout (p : Nat) (who : Requester) (s : State) : State := failReads p 2 [who] s

def execHostCompletionTimeout (t port : Nat) (who : Requester) (s : State) : Outcome State Fault Refusal :=
  .next (completionTimeout port who (advanceTo t s))

/-- MSIX_UNMASK (R448): a vector with its PBA bit is sent once. -/
def msixUnmask (p v : Nat) (s : State) : State :=
  let e := tget ({} : MsixEntry) v (hport p s).msix
  if 32 ≤ v ∨ !e.masked then s
  else
    let s1 := modPort p (fun h => { h with msix := tmod {} v (fun x => { x with masked := false, pba := false }) h.msix }) s
    if e.pba ∧ portUp p s then { s1 with host := { s1.host with msgs := ⟨p, v⟩ :: s1.host.msgs } } else s1

def execMsixUnmask (t port vector : Nat) (s : State) : Outcome State Fault Refusal :=
  .next (msixUnmask port vector (advanceTo t s))

/-! ### BAR2 (R444, R445, R421) -/

/-- The device address of a BAR2 offset, none through an aperture that is not VALID or beyond device memory. -/
def bar2Addr (p off len : Nat) (s : State) : Option Nat :=
  let w := tget (0, false) (off / 2 ^ 32) (hport p s).win
  let a := w.1 * 65536 + off % 2 ^ 32
  if w.2 ∧ off < 2 ^ 36 ∧ a + len ≤ Config.deviceBytes ∧ off % 2 ^ 32 + len ≤ 2 ^ 32 then some a else none

/-- The lines of a device range. -/
def linesOf (a len : Nat) : List Nat := (List.range ((a % 64 + len + 63) / 64)).map (fun i => a / 64 * 64 + 64 * i)

/-- The part of a write that falls into one line. -/
def lineWrite (a : Nat) (bs : List Byte) (line : Nat) (s : State) : State :=
  let lo := max a line
  let hi := min (a + bs.length) (line + 64)
  let part := slice bs (lo - a) (hi - lo)
  let ch := chanOf line
  let n := localOf line / 64
  if !chanUp ch s then s
  else if (chan ch s).poison.contains n ∧ part.length < 64 then
    ddrLog ch n 4 0xFF 1 poisonErrs (modChan ch (fun c => { c with discarded := satAdd 16 c.discarded 1 }) s)
  else devWr lo part (modChan ch (fun c => { c with poison := c.poison.filter (· != n) }) s)

/-- A host read: poisoned when a line of it lies in an isolated channel or is poisoned (R380, R387). -/
def hostRead (p a len : Nat) (s : State) : State :=
  let ls := linesOf a len
  let bad := ls.find? (fun l => !chanUp (chanOf l) s || poisonedAt l s)
  match bad with
  | none => { s with host := { s.host with resps := .data p (devRd a len s) :: s.host.resps } }
  | some l =>
    let ch := chanOf l
    let n := localOf l / 64
    let s1 := if chanUp ch s then ddrRaise ch 1 n poisonErrs (ddrLog ch n 5 0xFF 1 poisonErrs (countUe ch s)) else s
    { s1 with host := { s1.host with resps := .poisoned p len :: s1.host.resps } }

/-- BAR2_ACCESS (R445, R447): a poisoned or ECRC-failed write is discarded; then the aperture, then the guards. -/
def bar2Access (p off : Nat) (write : Option (List Byte)) (len : Nat) (ok : Bool) (s : State) : State :=
  if !portUp p s then s
  else if write.isSome ∧ !ok then latch (srcHost p 4) 0 s
  else
    let n := (write.map List.length).getD len
    match bar2Addr p off n s with
    | none => refuse (off % 2 ^ 32 + (tget (0, false) (off / 2 ^ 32) (hport p s).win).1 * 65536) write.isSome (.host p) s
    | some a =>
      if !((linesOf a n).all (fun l => guardPasses (max a l) write.isSome false (.host p) s)) then refuse a write.isSome (.host p) s
      else match write with
        | none => hostRead p a n s
        | some bs => (linesOf a n).foldl (fun z l => lineWrite a bs l z) s

def execBar2Access (t port off : Nat) (write : Option (List Byte)) (len : Nat) (ok : Bool) (s : State) :
    Outcome State Fault Refusal :=
  .next (bar2Access port off write len ok (advanceTo t s))

/-! ### QUIESCE (R456, R457, R465) -/

/-- ATTACH_QUIESCE: intake stops, tickets not yet injected are voided with cause 0x05; refused outside the serving states. -/
def quiesce (s : State) : State :=
  if !serving s then cmdRej s
  else if s.host.quiescing ∨ s.host.quiesced then s
  else
    let s1 := { s with
      led := { s.led with stopQuiesce := true }
      host := { s.host with quiescing := true, quiesceAt := s.time.now } }
    settle (voidWhere (fun k => decide (k.phase = .accepted) && k.injected.isEmpty) 5 0xFF 0xFFFF 0 s1)

def execAttachQuiesce (t : Nat) (s : State) : Outcome State Fault Refusal := .next (quiesce (advanceTo t s))

/-- QUIESCE_LIMIT. -/
def quiesceLimit (s : State) : State :=
  if s.host.quiescing ∧ s.host.quiesceAt + s.host.qlimitMs * 1000000 ≤ s.time.now then settle (voidAll 5 0xFF s) else s

def execQuiesceLimit (t : Nat) (s : State) : Outcome State Fault Refusal := .next (quiesceLimit (advanceTo t s))

/-- The watermark record (R457). -/
def watermarkRecord (s : State) : List Byte :=
  let sts := declaredStreams s
  leBytes 4 0x4B4D574B ++ leBytes 2 s.power.jepoch ++ leBytes 2 sts.length ++ leBytes 8 (stamp (liveDie 0 s) s) ++ zeroBytes 16
    ++ sts.flatMap (fun st => leBytes 1 st ++ zeroBytes 7 ++ leBytes 8 (strm st s).watermark)

/-- QUIESCE_COMPLETE: every outcome has been delivered. -/
def quiesceComplete (s : State) : State :=
  if !s.host.quiescing ∨ s.led.tickets.any (fun k => decide (k.phase ≠ .delivered)) then s
  else
    let s1 := { s with host := { s.host with
      quiescing := false, quiesced := true, wmPend := true, wmRec := watermarkRecord s } }
    attachVec (flushRecord s1)

def execQuiesceComplete (t : Nat) (s : State) : Outcome State Fault Refusal := .next (quiesceComplete (advanceTo t s))

/-- ATTACH_RESUME. -/
def resume (s : State) : State :=
  if s.host.quiesced then
    { s with host := { s.host with quiesced := false }, led := { s.led with stopQuiesce := false } }
  else s

def execAttachResume (t : Nat) (s : State) : Outcome State Fault Refusal := .next (resume (advanceTo t s))

/-! ### Fence, join, restart (R458, R459, R461) -/

def execAttachFence (t : Nat) (s : State) : Outcome State Fault Refusal := .next (fence 1 (advanceTo t s))

/-- PEER_TO_MS, clamped. -/
def peerTo (s : State) : Nat := max 2 (min 100 s.host.peerToMs) * 1000000

/-- ATTACH_JOIN (R461). -/
def join (s : State) : State :=
  let heard : Bool := match s.host.peerAt with
    | none => false
    | some a => decide (s.time.now ≤ a + peerTo s)
  if s.power.position < 2 ∧ heard ∧ !s.power.fenced ∧ !s.host.accepted then { s with host := { s.host with joined := true } }
  else cmdRej s

def execAttachJoin (t : Nat) (s : State) : Outcome State Fault Refusal := .next (join (advanceTo t s))

/-- A restart, or its refusal (R458). -/
def restartRequest (s : State) : State := if restartRefused s then cmdRej s else restart s

/-- ATTACH_RESTART: acts only with the key. -/
def attachRestart (key : Nat) (s : State) : State := if key = 0xC1A5 then restartRequest s else s

def execAttachRestart (t key : Nat) (s : State) : Outcome State Fault Refusal := .next (attachRestart key (advanceTo t s))

end Sys2Proof.Machine
end

