-- ==== Sys2Proof/Machine/Wide.lean ====
section
/-!
DEFINITION. Elementary functions in a working precision of 1,024 bits: the exact values against which the bounds of R77
and R158 are measured. Their own error is below every slack added to a bound here.
-/

namespace Sys2Proof.Machine

/-- The working precision. -/
def wide : Fmt := ⟨20, 1024, 524287, 0⟩

/-- n × 2^e. -/
def unitN (n : Nat) (e : Int) : FVal := .fin false n e

/-- 0 and 1. -/
def zeroV : FVal := unitN 0 0
def oneV : FVal := unitN 1 0

/-- The sum t + t·r(1) + t·r(1)·r(2) + … of `fuel` terms, with r the ratio of a term to the one before it. -/
def seriesW (ratio : Nat → FVal) : Nat → Nat → FVal → FVal → FVal
  | 0, _, _, acc => acc
  | fuel + 1, n, t, acc =>
    let t' := wide.mul t (ratio n)
    seriesW ratio fuel (n + 1) t' (wide.add acc t')

/-- Square `n` times. -/
def squareN : Nat → FVal → FVal
  | 0, v => v
  | n + 1, v => squareN n (wide.mul v v)

/-- e^x. -/
def expW (x : FVal) : FVal :=
  match x with
  | .nan => .nan
  | .inf neg => if neg then zeroV else .inf false
  | .fin neg _ _ =>
    if FVal.lt (unitN 1 18) x.abs then (if neg then zeroV else .inf false)
    else
      let r := x.scale2 (-40)
      squareN 40 (seriesW (fun n => wide.div r (unitN n 0)) 60 1 oneV oneV)

/-- 2 atanh z = ln ((1 + z) / (1 - z)) for |z| ≤ 1/3. -/
def atanh2 (z : FVal) : FVal :=
  let z2 := wide.mul z z
  (seriesW (fun n => wide.mul z2 (wide.div (unitN (2 * n - 1) 0) (unitN (2 * n + 1) 0))) 340 1 z z).scale2 1

/-- ln of a positive value n × 2^e. -/
def lnPos (n : Nat) (e : Int) : FVal :=
  let b := bitLen n - 1
  let m := FVal.fin false n (-(b : Int))
  let lnOf := fun (v : FVal) => atanh2 (wide.div (v.add oneV.neg) (v.add oneV))
  wide.add (lnOf m) (wide.mul (.ofInt (e + b)) (lnOf (unitN 2 0)))

/-- ln x (IEEE 754 at 0 and below). -/
def lnW : FVal → FVal
  | .nan => .nan
  | .inf neg => if neg then .nan else .inf false
  | .fin neg n e => if n = 0 then .inf true else if neg then .nan else lnPos n e

/-- 2π × 2^384. -/
def twoPi : Nat :=
  0x6487ed5110b4611a62633145c06e0e68948127044533e63a0105df531d89cd9128a5043cc71a026ef7ca8cd9e69d218d9

/-- 2 / √π. -/
def twoOverRootPi : FVal := wide.div (unitN 2 0) (wide.sqrt (unitN twoPi (-385)))

/-- erf x; beyond ±16 it is ±1 to more digits than any format here holds. -/
def erfW (x : FVal) : FVal :=
  match x with
  | .nan => .nan
  | .inf neg => .fin neg 1 0
  | .fin neg _ _ =>
    if FVal.lt (unitN 1 4) x.abs then .fin neg 1 0
    else
      let x2 := (wide.mul x x).neg
      let ratio := fun (n : Nat) =>
        wide.div (wide.mul x2 (unitN (2 * n - 1) 0)) (unitN (n * (2 * n + 1)) 0)
      wide.mul twoOverRootPi (seriesW ratio 1200 1 x x)

/-- 1 / (1 + e^-v). -/
def sigmoidW (v : FVal) : FVal := wide.div oneV (wide.add oneV (expW v.neg))

/-- tanh v. -/
def tanhW (v : FVal) : FVal :=
  match v with
  | .nan => .nan
  | .inf neg => .fin neg 1 0
  | .fin neg _ _ =>
    let q := expW (v.abs.scale2 1).neg
    let r := wide.div (wide.add oneV q.neg) (wide.add oneV q)
    if neg then r.neg else r

/-- GELU through erf: v × ½ (1 + erf (v / √2)). -/
def geluErfW (v : FVal) : FVal :=
  wide.mul v ((wide.add oneV (erfW (wide.div v (wide.sqrt (unitN 2 0))))).scale2 (-1))

/-- GELU in its tanh form, v × ½ (1 + tanh (√(2/π) (v + 0.044715 v³))) = v × sigmoid (2 √(2/π) (v + 0.044715 v³)). -/
def geluTanhW (v : FVal) : FVal :=
  let c := wide.sqrt (wide.div (unitN 1 386) (unitN twoPi 0))
  let p := wide.add v (wide.mul (wide.div (unitN 44715 0) (unitN 1000000 0)) (wide.mul v (wide.mul v v)))
  wide.mul v (sigmoidW ((wide.mul c p).scale2 1))

end Sys2Proof.Machine
end

