-- ==== Sys2Proof/Machine/Crown.lean ====
section
/-!
DEFINITION. Power states, cooling, thermal sensors, life and calibration: the meanings of the crown's commands
(R390 to R413).
-/

namespace Sys2Proof.Machine

open Host (Outcome)

/-- Change the crown. -/
def modCrown (f : CrownState → CrownState) (s : State) : State := { s with crown := f s.crown }

/-- The collector of the acting crown. -/
def crownColl (s : State) : Nat := if s.crown.acting then 1 else 0

/-- Latch a crown source of the acting crown's collector. -/
def crownLatch (idx : Nat) (s : State) : State := latch (crownColl s * 0x400 + idx) 0 s

/-- The crown, or the shadow crown after its takeover, works. -/
def crownUp (s : State) : Bool := s.power.on && (dieUp 0 s || s.crown.acting)

/-! ### RETAIN and module states (R390, R391) -/

/-- Some loop slot is not STOPPED. -/
def loopActive (s : State) : Bool := s.loop.slots.any (fun e => e.2.st != .stopped)

/-- RETAIN is refused (R391). -/
def retainRefused (s : State) : Bool :=
  !(s.power.st == .standby || s.power.st == .degraded) || anyOpen s || loopActive s || s.pat.job.isSome
    || (engines s).any engBusy || s.crown.calBusy

/-- An accepted or refused RETAIN request. -/
def retainRequest (s : State) : State :=
  if s.power.retainEntry then s
  else if retainRefused s then { s with power := { s.power with refused := true } }
  else { s with power := { s.power with retainEntry := true }, led := { s.led with stopRetain := true } }

/-- A write of MOD_PWR_CTRL (R391, R472). -/
def pwrCtrlWrite (v : Nat) (s : State) : State :=
  let h := bits v 15 8
  let s1 := { s with power := { s.power with
    refused := s.power.refused && !bit v 2, wakeEn := bit v 3, pwrCfgBusy := s.power.pwrCfgBusy && !bit v 4 } }
  let s2 := if h = s.power.holdMs then s1
    else if s.power.st = .standby then { s1 with power := { s1.power with holdMs := h } }
    else latchWrite 0 0x30 { s1 with power := { s1.power with pwrCfgBusy := true } }
  if bits v 1 0 = 1 then retainRequest s2 else s2

def execRetainRequest (t value : Nat) (s : State) : Outcome State Fault Refusal := .next (pwrCtrlWrite value (advanceTo t s))

/-- Every channel in service is in self-refresh. -/
def ddrAsleep (s : State) : Bool :=
  (List.range 12).all (fun c => (chan c s).st == .selfRefresh || (chan c s).st == .isolated || !chanUp c s)

/-- A HOST link drops with the module's own doing. -/
def dropLink (p : Nat) (s : State) : State := modPort p (linkDrop s.time.now) s

/-- LIFE_LOG_WRITE (R409): Island A writes both counters, hourly and at every entry to RETAIN. -/
def lifeLogWrite (s : State) : State :=
  if s.power.on ∧ islandRuns 0 s ∧ s.sec.flashA.ok then
    modFlash 0 (fun f => { f with lifeLog := (s.crown.lifeH, s.crown.lifeUsed) }) s
  else s

/-- RETAIN_ENTERED (R391, R409): the life log is written, the fast domains are off; lining and palm contents are lost and links drop. A wake that came
during the entry begins the exit (R413). -/
def retainEntered (s : State) : State :=
  if !s.power.retainEntry ∨ !ddrAsleep s then s
  else
    let s1 := mapMittens (fun _ m => { m with waitConst := m.bound, firing := none, gated := true }) (lifeLogWrite s)
    let s2 := dropLink 0 (dropLink 1 { s1 with
      fab := { s1.fab with queued := [] }
      power := { s1.power with retainEntry := false, inRetain := true, wakePend := false } })
    let s3 := settle s2
    if s.power.wakePend then wake s3 else s3

def execRetainEntered (t : Nat) (s : State) : Outcome State Fault Refusal := .next (retainEntered (advanceTo t s))

/-- RETAIN_WAKE_STAMP (R391): MOD_PWR_WAKE reached with WAKE_EN = 1. -/
def retainWakeStamp (s : State) : State :=
  if s.power.wakeEn ∧ s.power.wakeStamp ≤ stamp (liveDie 0 s) s then wake s else s

def execRetainWakeStamp (t : Nat) (s : State) : Outcome State Fault Refusal := .next (retainWakeStamp (advanceTo t s))

/-- STATE_HOLD_EXPIRE (R390): the state follows its rows. -/
def execStateHoldExpire (t : Nat) (s : State) : Outcome State Fault Refusal := .next (settle (advanceTo t s))

/-! ### Power (R394 to R396) -/

/-- The backstop acts (R396). -/
def backstop (s : State) : State :=
  if s.crown.hardCap then s
  else crownLatch 0x1BB (modCrown (fun c => { c with hardCap := true, excursions := satAdd 12 c.excursions 1 }) s)

/-- CROWN_POWER_SAMPLE (R394, R396): input power in milliwatts. -/
def powerSample (mw : Nat) (s : State) : State :=
  if !s.power.on then s
  else
    let above := decide (eRunMw s < mw)
    let s1 := modCrown (fun c => { c with
      sumMw := c.sumMw + mw, sumN := c.sumN + 1, peakW := max c.peakW (satU 10 (mw / 1000))
      overShort := if eShortMw s < mw then c.overShort + 1 else 0
      overRunAt := if above then some (c.overRunAt.getD s.time.now) else none
      hardCap := c.hardCap && decide (eRunMw s * 9 < mw * 10) }) s
    let long : Bool := match s1.crown.overRunAt with
      | none => false
      | some a => decide (a + s1.crown.shortMs * 1000000 < s.time.now)
    if 2 ≤ s1.crown.overShort ∨ long then backstop s1 else s1

def execCrownPowerSample (t mw : Nat) (s : State) : Outcome State Fault Refusal := .next (powerSample mw (advanceTo t s))

/-- The level of the next millisecond from its average (R395). -/
def nextLevel (avg : Nat) (s : State) : Nat × Option Nat :=
  let c := s.crown
  if eRunMw s < avg then (min 3 (c.level + 1), none)
  else if avg * 10 < eRunMw s * 9 then
    let a := c.lowSince.getD s.time.now
    if a + 10000000 ≤ s.time.now then (c.level - 1, some s.time.now) else (c.level, some a)
  else (c.level, none)

/-- CROWN_THROTTLE_UPDATE (R395, R398): the mittens of objects above their budgets over the last 10 ms, and the measured
forecast in W, are the crown's measurements; only an object with a BUDGET is throttled at level 1. -/
def throttleUpdate (above forecast : List Nat) (s : State) : State :=
  if !crownUp s then s
  else
    let avg := if s.crown.sumN = 0 then 0 else s.crown.sumMw / s.crown.sumN
    let (lv, low) := nextLevel avg s
    let held := (boundMittens s).any (fun m => (governing m s).any (·.held))
    let cap := eRunMw s / 1000
    let s1 := modCrown (fun c => { c with
      level := lv, lowSince := low, sumMw := 0, sumN := 0, nowW := satU 10 (avg / 1000)
      changes := if lv = c.level then c.changes else satAdd 16 c.changes 1
      heldMs := if held then satAdd 16 c.heldMs 1 else c.heldMs
      bins := (List.range 5).map (fun i => min cap (forecast.getD i 0)) }) s
    mapMittens (fun m x => { x with halfNext := above.contains m && budgeted m s }) s1

def execCrownThrottleUpdate (t : Nat) (above forecast : List Nat) (s : State) : Outcome State Fault Refusal :=
  .next (throttleUpdate above forecast (advanceTo t s))

/-! ### COOL_HOLD (R402) -/

/-- All conditions for leaving COOL_HOLD hold now. -/
def coolOk (s : State) : Bool :=
  !s.crown.stale && s.crown.goodAt.isSome && decide (3200 ≤ s.crown.flow) && decide (s.crown.inlet < 6000)
    && decide (s.crown.hotTemp ≤ 90 * 128)

/-- Keep the time since which those conditions hold. -/
def coolTrack (s : State) : State :=
  modCrown (fun c => { c with coolSince := if coolOk s then some (c.coolSince.getD s.time.now) else none }) s

/-- Coolant critical: COOL_HOLD is entered, its source raised. -/
def coolCritical (s : State) : State :=
  if s.crown.coolHold then s
  else
    let s1 := crownLatch 0x1B5 (modCrown (fun c => { c with coolHold := true, coolGated := false, coolSince := none }) s)
    settle { s1 with led := { s1.led with stopCool := true } }

/-- A firing is in progress. -/
def anyFiring (s : State) : Bool := s.fab.mittens.any (fun e => e.2.firing.isSome)

/-- COOL_HOLD_QUIESCED (R402). -/
def coolQuiesced (s : State) : State :=
  if !s.crown.coolHold ∨ s.crown.coolGated ∨ anyFiring s then s
  else
    let s1 := voidAll 1 0xFF s
    settle (modCrown (fun c => { c with coolGated := true }) (mapMittens (fun _ m => { m with gated := true }) s1))

def execCoolHoldQuiesced (t : Nat) (s : State) : Outcome State Fault Refusal := .next (coolQuiesced (advanceTo t s))

/-- COOL_HOLD_EXIT (R402): all conditions held for 10 s. -/
def coolExit (s : State) : State :=
  match s.crown.coolSince with
  | none => s
  | some a =>
    if s.crown.coolHold ∧ coolOk s ∧ a + 10000000000 ≤ s.time.now then
      let s1 := modCrown (fun c => { c with coolHold := false, coolGated := false }) s
      settle { s1 with led := { s1.led with stopCool := false } }
    else s

def execCoolHoldExit (t : Nat) (s : State) : Outcome State Fault Refusal := .next (coolExit (advanceTo t s))

/-! ### Thermal sensors (R405 to R407) -/

/-- A sensor pair. -/
def tpair (i : Nat) (s : State) : SensePair := tget {} i s.crown.pairs

/-- The half a sensor pair lies in. -/
def pairHalf (i : Nat) : Nat := if i < 336 then i / 168 else (i - 336) / 4

/-- A corrected reading masks its sensor (R405), in 1/128 °C. -/
def outOfRange (x : Int) : Bool := decide (x < -40 * 128 ∨ 150 * 128 < x)

/-- The thresholds of R407 in 1/128 °C, 5 K lower with replaced THERMAL offsets (R411). -/
def hotLimit (c : Int) (s : State) : Int := (if s.crown.calRead ∧ !s.crown.calThermal then c - 5 else c) * 128

/-- The next record of a pair from its corrected readings. -/
def nextPair (i : Nat) (d r : Int) (s : State) : SensePair :=
  let p := tpair i s
  let mD := p.maskD || outOfRange d
  let mR := p.maskR || outOfRange r
  let both := !mD && !mR
  let far := decide (6 * 128 < (d - r).natAbs)
  let diff := if both && far then some (p.diffSince.getD s.time.now) else none
  let agree := if both && !far then some (p.agreeSince.getD s.time.now) else none
  let long : Bool := match diff with
    | none => false
    | some a => decide (a + 100000000 < s.time.now)
  let calm : Bool := match agree with
    | none => false
    | some a => decide (a + 1000000000 ≤ s.time.now)
  let hot : Option Int :=
    if both then some (max d r + if long then 3 * 128 else 0)
    else if mD ∧ mR then (if i < 336 then none else some (105 * 128))
    else some ((if mD then r else d) + 3 * 128)
  let atOrAbove := fun (c : Int) => match hot with
    | none => false
    | some h => decide (hotLimit c s ≤ h)
  { p with
    diode := d, ring := r, maskD := mD, maskR := mR, diffSince := diff, agreeSince := agree
    disagree := long || (p.disagree && !calm), hot := hot
    halfRate := atOrAbove 100 || (p.halfRate && atOrAbove 97)
    held := atOrAbove 104 || (p.held && atOrAbove 102) }

/-- Read one pair: raw diode and ring-oscillator values in 1/128 °C, corrected by the offsets in force. -/
def readPair (x : Nat × Int × Int) (s : State) : State :=
  let (i, rd, rr) := x
  let h := pairHalf i
  if 344 ≤ i ∨ !dieUp h s then s
  else
    let p := tpair i s
    let q := nextPair i (rd + tget 0 i s.crown.offD) (rr + tget 0 i s.crown.offR) s
    let s1 := modCrown (fun c => { c with pairs := tset {} i q c.pairs }) s
    let s2 := if (q.maskD ∧ !p.maskD) ∨ (q.maskR ∧ !p.maskR) then latch (h * 0x400 + 0x1B7) i s1 else s1
    let s3 := if q.disagree ∧ !p.disagree then latch (h * 0x400 + 0x1B6) i s2 else s2
    let s4 := if q.halfRate ∧ !p.halfRate ∧ i < 336 then latch (h * 0x400 + 0x1B8) i s3 else s3
    if i < 336 ∧ q.maskD ∧ q.maskR ∧ !(p.maskD && p.maskR) then latch (srcQuad i) 0 s4 else s4

/-- The hottest hot spot and its pair. -/
def hottest (s : State) : Option (Int × Nat) :=
  s.crown.pairs.foldl (fun a e => match e.2.hot, a with
    | none, _ => a
    | some h, none => some (h, e.1)
    | some h, some (m, _) => if m < h then some (h, e.1) else a) none

/-- The hottest hot spot rose by more than 5 K over the last second. -/
def risen (h : Int) (s : State) : Bool :=
  match s.crown.hotHist.getLast? with
  | none => false
  | some (_, o) => decide (o + 5 * 128 < h)

/-- CROWN_THERMAL_READ (R397, R405 to R407, R402): the readings of the sensor pairs; the junction-rise rule is judged at the
first read of each 10 ms. -/
def thermalRead (rs : List (Nat × Int × Int)) (s : State) : State :=
  if !crownUp s then s
  else
    let s1 := rs.foldl (fun a x => readPair x a) s
    match hottest s1 with
    | none => coolTrack s1
    | some (h, i) =>
      let now := s.time.now
      let due : Bool := match s1.crown.hotHist with
        | [] => true
        | (a, _) :: _ => decide (a / 10000000 ≠ now / 10000000)
      let s2 := modCrown (fun c => { c with
        hotTemp := h, hotWhere := i, hotSum := c.hotSum + h, hotN := c.hotN + 1
        hotHist := (now, h) :: c.hotHist.filter (fun x => decide (now ≤ x.1 + 1000000000)) }) s1
      let s3 := coolTrack s2
      if due ∧ risen h s3 then coolCritical s3 else s3

def execCrownThermalRead (t : Nat) (readings : List (Nat × Int × Int)) (s : State) : Outcome State Fault Refusal :=
  .next (thermalRead readings (advanceTo t s))

/-- SHADOW_CROWN_TAKEOVER (R397): IOD0 is isolated, the shadow crown acts. -/
def shadowTakeover (s : State) : State :=
  if dieUp 0 s ∨ !dieUp 1 s then s else settle (modCrown (fun c => { c with acting := true }) s)

def execShadowCrownTakeover (t : Nat) (s : State) : Outcome State Fault Refusal := .next (shadowTakeover (advanceTo t s))

/-! ### Tray and coolant (R399 to R404) -/

/-- A tray read is good (R399). -/
def trayGood (ack : Bool) (bs : List Byte) : Bool :=
  ack && decide (bs.length = 8) && crc8 (bs.take 7) == fieldLe bs 7 1 && bit (fieldLe bs 6 1) 0

/-- The flow and inlet rules on a good reading (R401 to R403). -/
def trayRules (s : State) : State :=
  let f := s.crown.flow
  let s1 := modCrown (fun c => { c with
    inletLow := decide (c.inlet < 1000), inletHigh := decide (6000 < c.inlet)
    flowOkSince := if 3200 ≤ f then some (c.flowOkSince.getD s.time.now) else none }) s
  let s2 := if f < 3200 ∧ !s.crown.flowLow then crownLatch 0x1B4 (modCrown (fun c => { c with flowLow := true }) s1) else s1
  let s3 := coolTrack s2
  settle (if f < 800 ∨ 7000 ≤ s.crown.inlet then coolCritical s3 else s3)

/-- TRAY_I3C_READ (R399): impossible while the shadow crown acts (R404). -/
def trayRead (ack : Bool) (bs : List Byte) (s : State) : State :=
  if !s.power.on ∨ !dieUp 0 s ∨ !trayGood ack bs then s
  else trayRules (modCrown (fun c => { c with
    inlet := sext 16 (fieldLe bs 0 2), outlet := sext 16 (fieldLe bs 2 2), flow := fieldLe bs 4 2
    goodAt := some s.time.now, stale := false, trayOk := true }) s)

def execTrayI3cRead (t : Nat) (ack : Bool) (bytes : List Byte) (s : State) : Outcome State Fault Refusal :=
  .next (trayRead ack bytes (advanceTo t s))

/-- The 16-byte forecast (R399). -/
def forecastBytes (s : State) : List Byte :=
  leBytes 4 (shortStamp 0 s) ++ s.crown.bins.flatMap (leBytes 2) ++ leBytes 2 (eRunMw s / 1000)

/-- TRAY_I3C_WRITE (R399): a failed write is retried in the next period and not reported. -/
def trayWrite (ok : Bool) (s : State) : State :=
  if !s.power.on ∨ !dieUp 0 s ∨ !ok then s
  else modCrown (fun c => { c with traySent := forecastBytes s :: c.traySent }) s

def execTrayI3cWrite (t : Nat) (ok : Bool) (s : State) : Outcome State Fault Refusal := .next (trayWrite ok (advanceTo t s))

/-- TRAY_STALE (R399, R404): no good read for 100 ms. -/
def trayStale (s : State) : State :=
  let since := s.crown.goodAt.getD s.sec.pgoodAt
  if !s.power.on ∨ s.crown.stale ∨ s.time.now < since + 100000000 then s
  else settle (crownLatch 0x1BA (modCrown (fun c => { c with
    stale := true, trayOk := false, flowOkSince := none, coolSince := none }) s))

def execTrayStale (t : Nat) (s : State) : Outcome State Fault Refusal := .next (trayStale (advanceTo t s))

/-- COOLANT_LOW_CLEAR (R401). -/
def coolantLowClear (s : State) : State :=
  match s.crown.flowOkSince with
  | none => s
  | some a =>
    if s.crown.flowLow ∧ a + 10000000000 ≤ s.time.now then modCrown (fun c => { c with flowLow := false }) s else s

def execCoolantLowClear (t : Nat) (s : State) : Outcome State Fault Refusal := .next (coolantLowClear (advanceTo t s))

/-! ### Life and ageing (R409, R410) -/

/-- The mean hottest hot spot of the minute, in kelvin. -/
def meanKelvin (c : CrownState) : FVal :=
  let (sum, n) := if c.hotN = 0 then (c.hotTemp, 1) else (c.hotSum, c.hotN)
  wide.div (.ofInt (100 * sum + 3496320 * n)) (unitN (12800 * n) 0)

/-- 0.7 eV / k in kelvin, with k the SI value of Boltzmann's constant (PRESUMED, log entry 167). -/
def activation : FVal := wide.div (unitN 11215236438 0) (unitN 1380649 0)

/-- Equivalent hours at 100 °C of one operating minute in units of 2^-32 h (R409). -/
def minuteHours (c : CrownState) : FVal :=
  let d := wide.add (wide.div (unitN 100 0) (unitN 37315 0)) (wide.div oneV (meanKelvin c)).neg
  (wide.div (expW (wide.mul activation d)) (unitN 60 0)).scale2 32

/-- What a minute adds to the ageing counter: `minuteHours` rounded down or up, which R409 leaves open. -/
def lifeAdd (c : CrownState) : Nat := (minuteHours c).floor.toNat + if Config.lifeUp c.hotSum c.hotN then 1 else 0

/-- LIFE_MINUTE (R409): an operating minute, in any state but OFF and RETAIN. -/
def lifeMinute (s : State) : State :=
  if s.power.st = .off ∨ s.power.st = .retain then s
  else modCrown (fun c =>
    let fr := c.lifeFrac + lifeAdd c
    { c with
      lifeMin := (c.lifeMin + 1) % 60, lifeH := if c.lifeMin = 59 then wrapAdd 32 c.lifeH 1 else c.lifeH
      lifeFrac := fr % 2 ^ 32, lifeUsed := wrapAdd 32 c.lifeUsed (fr / 2 ^ 32), hotSum := 0, hotN := 0 }) s

def execLifeMinute (t : Nat) (s : State) : Outcome State Fault Refusal := .next (lifeMinute (advanceTo t s))

def execLifeLogWrite (t : Nat) (s : State) : Outcome State Fault Refusal := .next (lifeLogWrite (advanceTo t s))

/-- AGEING_READ (R410): degradation of die `k` (CS0 to CS3, IOD0, IOD1) in 0.01 %. -/
def ageingRead (k d : Nat) (s : State) : State :=
  if 5 < k ∨ isIso k s ∨ !crownUp s then s
  else modCrown (fun c => { c with
    age := tset {} k { degrade := satU 16 d, trimMv := min 40 (d / 100 * 5), limit := decide (9 ≤ d / 100) } c.age }) s

def execAgeingRead (t die degrade : Nat) (s : State) : Outcome State Fault Refusal :=
  .next (ageingRead die degrade (advanceTo t s))

/-! ### Calibration set (R411, R412) -/

/-- The key store in use: Island A's while that island runs and its store passes its digest, otherwise Island B's. -/
def keyStore (s : State) : KeyStore :=
  if (islandRuns 0 s && s.sec.storeA.ok) || !s.sec.storeB.ok then s.sec.storeA else s.sec.storeB

/-- A key slot. -/
def keySlot (n : Nat) (s : State) : KeySlot := tget {} n (keyStore s).slots

/-- A slot holds a key of a kind. -/
def hasKind (n kind : Nat) (s : State) : Bool := !(keySlot n s).key.isEmpty && bit (keySlot n s).kinds kind

/-- A calibration set verifies: header, digest, signature by a CALIBRATION key. -/
def calVerifies (bs : List Byte) (s : State) : Bool :=
  let d := slice bs 16 32
  fieldLe bs 0 4 == 0x4C41434B && fieldLe bs 4 2 == 1 && d == Config.sha3 (slice bs 64 7544)
    && hasKind (fieldLe bs 7 1) 3 s && Config.mldsaVerify (keySlot (fieldLe bs 7 1) s).key d (slice bs 7608 2420)

/-- Signed 16-bit value `i` of a section. -/
def calInt16 (bs : List Byte) (o i : Nat) : Int := sext 16 (fieldLe bs (o + 2 * i) 2)

/-- Offsets of R405 as a table. -/
def calOffsets (bs : List Byte) (k : Nat) : Tbl Int :=
  (List.range 344).foldl (fun t i => tset 0 i (calInt16 bs 64 (2 * i + k)) t) []

/-- At BOOT the life counters return from the log, or stay where the always-on copy survived (R409). -/
def restoreLife (s : State) : State :=
  if !s.crown.lifeKept ∧ islandRuns 0 s ∧ s.sec.flashA.ok then
    modCrown (fun c => { c with
      lifeKept := true, lifeH := s.sec.flashA.lifeLog.1, lifeUsed := s.sec.flashA.lifeLog.2 }) s
  else s

/-- Read the calibration set at entry to BOOT (R411): a section that is not valid is replaced. -/
def readCal (s0 : State) : State :=
  let s := restoreLife s0
  let bs := s.sec.flashA.cal
  let ok := islandRuns 0 s && s.sec.flashA.ok && calVerifies bs s
  let v := fun (k o n : Nat) => ok && Config.calInRange k (slice bs o n)
  let s1 := modCrown (fun c => { c with
    calRead := true, calOrigin := if ok then fieldLe bs 6 1 % 4 else 0
    calThermal := v 0 64 1376, calVreg := v 1 1440 352, calDphy := v 2 1792 80, calClock := v 3 1872 16
    calDdr := v 4 1888 1728
    offD := if v 0 64 1376 then calOffsets bs 0 else [], offR := if v 0 64 1376 then calOffsets bs 1 else [] }) s
  let rate := if v 3 1872 16 then sext 32 (fieldLe bs 1872 4) else 0
  let trim := if v 3 1872 16 then sext 32 (fieldLe bs 1876 4) else 0
  let s2 := setRate rate s1
  { s2 with time := { s2.time with trim := clampI (-trimMax) trimMax trim } }

/-- CROWN_STATUS.CFG_BUSY is set. -/
def crownCfgBusy (s : State) : State := modCrown (fun c => { c with cfgBusy := true }) s

/-- CAL_WRITE (R412): a write of CROWN_CAL_CTRL. -/
def calWrite (v : Nat) (s : State) : State :=
  let s1 := rwWrite (!s.crown.calBusy) 0x00010070 crownCfgBusy (modCrown (fun c => { c with calLen := bits v 16 0 })) s
  if !bit v 31 then s1
  else if !(s.power.st == .standby || s.power.st == .degraded) ∨ s.pat.job.isSome ∨ s.power.retainEntry ∨ s.crown.calBusy then
    modCrown (fun c => { c with calResult := 2 }) s1
  else
    let bs := devRd s.crown.calAddr 10028 s
    if s1.crown.calLen = 10028 ∧ fieldLe bs 6 1 = 2 ∧ calVerifies bs s then
      modCrown (fun c => { c with calBusy := true, calNew := bs }) s1
    else modCrown (fun c => { c with calResult := 3 }) s1

def execCalWrite (t value : Nat) (s : State) : Outcome State Fault Refusal := .next (calWrite value (advanceTo t s))

/-- CAL_WRITE_DONE (R412): the set is in FLASH_A and read back, or the write failed. -/
def calDone (ok : Bool) (s : State) : State :=
  if !s.crown.calBusy then s
  else
    modFlash 0 (fun f => { f with cal := if ok then s.crown.calNew else [] })
      (modCrown (fun c => { c with calBusy := false, calNew := [], calResult := if ok then 1 else 4 }) s)

def execCalWriteDone (t : Nat) (ok : Bool) (s : State) : Outcome State Fault Refusal := .next (calDone ok (advanceTo t s))

end Sys2Proof.Machine
end

