-- ==== Sys2Proof/Machine/Seal.lean ====
section
/-!
DEFINITION. Island messages: envelopes (R339), sealed requests and their judgement (R429 to R431), responses and their
trailers (R432), and changes of the key stores (R423).
-/

namespace Sys2Proof.Machine

/-! STATUS values of a response (R342). -/

def stOk : Nat := 0
def stBadCmd : Nat := 1
def stBadLen : Nat := 2
def stSealRequired : Nat := 3
def stSealInvalid : Nat := 4
def stWrongIsland : Nat := 5
def stRefused : Nat := 6

/-- Envelope fields of a message. -/
def msgCmd (m : List Byte) : Nat := fieldLe m 0 1
def msgSealed (m : List Byte) : Bool := fieldLe m 1 1 == 1
def msgLen (m : List Byte) : Nat := fieldLe m 2 2
def msgTag (m : List Byte) : Nat := fieldLe m 4 4

/-- Payload of a message. -/
def msgPayload (m : List Byte) : List Byte := slice m 16 (msgLen m)

/-- A seal that was accepted: the digest its SIG covers, and its counter. -/
structure Seal where
  digest : List Byte
  counter : Nat
  deriving DecidableEq, Repr

/-- Change the key stores of the islands that run (R423). -/
def modStores (f : KeyStore → KeyStore) (s : State) : State :=
  { s with sec := { s.sec with
      storeA := if islandRuns 0 s then f s.sec.storeA else s.sec.storeA
      storeB := if islandRuns 1 s then f s.sec.storeB else s.sec.storeB } }

/-- A change that counts as a new generation of the store. -/
def commitStores (f : KeyStore → KeyStore) (s : State) : State :=
  modStores (fun k => { f k with gen := k.gen + 1 }) s

/-- Change a slot of a store. -/
def setSlot (n : Nat) (f : KeySlot → KeySlot) (k : KeyStore) : KeyStore := { k with slots := tmod {} n f k.slots }

/-- Sealed fields of a payload (R429). -/
def sealSlot (p : List Byte) : Nat := fieldLe p 5 1
def sealBodyLen (p : List Byte) : Nat := fieldLe p 6 2
def sealCounter (p : List Byte) : Nat := fieldLe p 8 8
def sealBody (p : List Byte) : List Byte := slice p 32 (sealBodyLen p)
def sealDigest (p : List Byte) : List Byte := Config.sha3 (p.take (32 + sealBodyLen p))

/-- The third row of R430. `kind` is the bit of the kind needed: 2 SEALED, 4 OWNER. -/
def sealValid (cmd kind : Nat) (p : List Byte) (s : State) : Bool :=
  let n := sealSlot p
  fieldLe p 0 4 == 0x5152534B && fieldLe p 4 1 == cmd && fieldLe p 16 16 == s.host.moduleId
    && decide (1 ≤ n ∧ n ≤ 15) && hasKind n kind s && (kind != 4 || n == 1)
    && decide (tget 0 n s.sec.counters < sealCounter p)
    && Config.mldsaVerify (keySlot n s).key (sealDigest p) (slice p (32 + sealBodyLen p) 2420)

/-- The slot's counter becomes COUNTER; at its ceiling the ceiling is raised in the stores (R430, R431). -/
def takeCounter (n c : Nat) (s : State) : State :=
  let s1 := { s with sec := { s.sec with counters := tset 0 n c s.sec.counters } }
  if (keySlot n s).ceiling ≤ c then modStores (setSlot n (fun k => { k with ceiling := c + 65536 })) s1 else s1

/-- Judge a sealed message whose command has a body of `body` bytes (R430). -/
def judgeSeal (kind body : Nat) (m : List Byte) (s : State) : Except Nat (List Byte × Seal) :=
  let p := msgPayload m
  if !msgSealed m then .error stSealRequired
  else if msgLen m ≠ 2452 + sealBodyLen p ∨ sealBodyLen p ≠ body then .error stBadLen
  else if !sealValid (msgCmd m) kind p s then .error stSealInvalid
  else .ok (sealBody p, ⟨sealDigest p, sealCounter p⟩)

/-- The envelope of a response: 16 bytes. -/
def respHeader (m : List Byte) (status len st : Nat) : List Byte :=
  leBytes 1 (msgCmd m) ++ leBytes 1 status ++ leBytes 2 len ++ leBytes 4 (msgTag m) ++ leBytes 8 st

/-- A response; one to an accepted sealed request carries the trailer of R432. -/
def response (m : List Byte) (status : Nat) (payload : List Byte) (sl : Option Seal) (st : Nat) (s : State) : List Byte :=
  match sl with
  | none => respHeader m status payload.length st ++ payload
  | some x =>
    let h := respHeader m status (payload.length + 2468) st
    h ++ payload ++ x.digest ++ leBytes 8 x.counter ++ zeroBytes 8
      ++ Config.mldsaSign s.sec.seed (Config.sha3 (h ++ payload ++ x.digest ++ leBytes 8 x.counter))

/-- What a command answers: status, payload, and the new state. -/
abbrev Answer := Nat × List Byte × State

/-- Carry out a sealed command: judge, take the counter, then run `f` on the body. -/
def sealedRun (kind body : Nat) (m : List Byte) (s : State) (f : List Byte → State → Answer) : Option Seal × Answer :=
  match judgeSeal kind body m s with
  | .error e => (none, e, [], s)
  | .ok (b, x) => (some x, f b (takeCounter (sealSlot (msgPayload m)) x.counter s))

/-- A plain command with a body of `body` bytes. -/
def plainRun (body : Nat) (m : List Byte) (s : State) (f : List Byte → State → Answer) : Option Seal × Answer :=
  if msgLen m ≠ body then (none, stBadLen, [], s) else (none, f (msgPayload m) s)

end Sys2Proof.Machine
end

