-- ==== Sys2Proof/Machine/Boot.lean ====
section
/-!
DEFINITION. Boot ROM, firmware selection, management port, keys, attestation and flash writes: the meanings of their
commands (R423 to R440).
-/

namespace Sys2Proof.Machine

open Host (Outcome)

/-! ### Boot ROM (R423, R431, R432, R439) -/

/-- Compare and repair the stores; none when no store is valid. -/
def mergeStores (s : State) : Option State :=
  let a := s.sec.storeA
  let b := s.sec.storeB
  if islandRuns 0 s && islandRuns 1 s then
    (if a.ok && b.ok then
      (if a = b then some s
       else if b.gen ≤ a.gen then some { s with sec := { s.sec with storeB := a } }
       else some { s with sec := { s.sec with storeA := b } })
     else if a.ok then some { s with sec := { s.sec with storeB := a } }
     else if b.ok then some { s with sec := { s.sec with storeA := b } }
     else none)
  else if islandRuns 0 s then (if a.ok then some s else none)
  else if islandRuns 1 s then (if b.ok then some s else none)
  else none

/-- Counters at their ceilings (R431). -/
def ceilings (s : State) : Tbl Nat :=
  (List.range 16).foldl (fun t n => tset 0 n (keySlot n s).ceiling t) []

/-- BOOT_ROM_DONE: stores compared, the identity key generated and compared with the record, counters set. -/
def bootRom (s : State) : State :=
  if !booting s ∨ s.sec.stage ≠ 0 then s
  else
    match mergeStores s with
    | none => stopStart 0x03 s
    | some s1 =>
      if Config.mldsaKey s1.sec.seed = slice s1.sec.identity 32 1312 then
        { s1 with
          sec := { s1.sec with stage := 1, counters := ceilings s1 }
          host := { s1.host with moduleId := fieldLe s1.sec.identity 0 16, macA := beVal (slice s1.sec.identity 16 6) } }
      else stopStart 0x03 s1

def execBootRomDone (t : Nat) (s : State) : Outcome State Fault Refusal := .next (bootRom (advanceTo t s))

/-! ### Firmware (R434 to R437) -/

/-- Bytes of the body, of the owner block, and where the latter begins (each part on an 8-byte boundary). -/
def fwBodyLen (bs : List Byte) : Nat := fieldLe bs 12 4
def fwOwnerLen (bs : List Byte) : Nat := fieldLe bs 48 4
def fwOwnerAt (bs : List Byte) : Nat := (64 + fwBodyLen bs + 2420 + 7) / 8 * 8
def fwOwner (bs : List Byte) : List Byte := slice bs (fwOwnerAt bs) (fwOwnerLen bs)

/-- The entries of an owner block: source, severity, timer in µs. -/
def ownerEntries (o : List Byte) : List (Nat × Nat × Nat) :=
  (List.range (fieldLe o 40 2)).map (fun i =>
    let v := fieldLe o (64 + 4 * i) 4
    (bits v 10 0, bits v 12 11, bits v 31 13))

/-- A timer value is 0 or 10 to 10,000 µs. -/
def timerOk (v : Nat) : Bool := v == 0 || decide (10 ≤ v ∧ v ≤ 10000)

/-- An owner block is valid (R435, R436). -/
def ownerValid (bs : List Byte) (s : State) : Bool :=
  let o := fwOwner bs
  let n := fieldLe o 40 2
  let es := ownerEntries o
  fieldLe o 0 4 == 0x4E574F4B && slice o 8 32 == slice bs 16 32 && decide (n ≤ 512)
    && fwOwnerLen bs == 64 + 4 * n + 2420 && o.length == fwOwnerLen bs && decide (fieldLe o 42 1 ≤ 1)
    && timerOk (fieldLe o 44 4) && es.all (fun e => timerOk e.2.2) && profileOk (es.map (fun e => (e.1, e.2.1)))
    && Config.mldsaVerify (keySlot 1 s).key (Config.sha3 (o.take (64 + 4 * n))) (slice o (64 + 4 * n) 2420)

/-- A firmware image is valid (R436). -/
def fwValid (bs : List Byte) (s : State) : Bool :=
  let n := fwBodyLen bs
  fieldLe bs 0 4 == 0x4957464B && fieldLe bs 4 2 == 1 && n % 8 == 0 && decide (n ≤ 8 * 2 ^ 20)
    && decide (64 + n + 2420 ≤ bs.length)
    && Config.mldsaVerify (keySlot 0 s).key (Config.sha3 (bs.take 64)) (slice bs (64 + n) 2420)
    && slice bs 16 32 == Config.sha3 (slice bs 64 n) && decide ((keyStore s).fwFloor ≤ fieldLe bs 6 2)
    && (fwOwnerLen bs == 0 || ownerValid bs s)

/-- VERSION of an image. -/
def fwVer (bs : List Byte) : Nat := fieldLe bs 8 4

/-- A firmware slot of a flash. -/
def fwSlotOf (i n : Nat) (s : State) : List Byte := if n = 0 then (flash i s).fw0 else (flash i s).fw1

/-- Change a firmware slot. -/
def setFw (n : Nat) (bs : List Byte) (f : Flash) : Flash := if n = 0 then { f with fw0 := bs } else { f with fw1 := bs }

/-- The choice of an island: the valid slot with the higher VERSION, slot 0 on equal ones. -/
def fwChoice (i : Nat) (s : State) : Option Nat :=
  if !islandRuns i s ∨ !(flash i s).ok then none
  else
    let a := fwValid (fwSlotOf i 0 s) s
    let b := fwValid (fwSlotOf i 1 s) s
    if a && b then (if fwVer (fwSlotOf i 0 s) < fwVer (fwSlotOf i 1 s) then some 1 else some 0)
    else if a then some 0
    else if b then some 1
    else none

/-- Image chosen by an island. -/
def fwImage (i : Nat) (s : State) : List Byte :=
  match fwChoice i s with
  | none => []
  | some n => fwSlotOf i n s

/-- What both islands run: the slot, the image, and the island that lacks it, none on agreement (R436). -/
def fwAgree (s : State) : Option (Nat × List Byte × Option Nat) :=
  match fwChoice 0 s, fwChoice 1 s with
  | none, none => none
  | some n, none => some (n, fwImage 0 s, if islandRuns 1 s then some 1 else none)
  | none, some n => some (n, fwImage 1 s, if islandRuns 0 s then some 0 else none)
  | some a, some b =>
    if fwVer (fwImage 0 s) = fwVer (fwImage 1 s) then some (a, fwImage 0 s, none)
    else if fwVer (fwImage 1 s) < fwVer (fwImage 0 s) then some (a, fwImage 0 s, some 1)
    else some (b, fwImage 1 s, some 0)

/-- BOOT_OPTIONS of an image. -/
def fwOptions (bs : List Byte) : Nat := if fwOwnerLen bs = 0 then 0 else fieldLe (fwOwner bs) 4 4

/-- The voting configuration of an island at entry to BOOT (R325). -/
def bootVote (split : Bool) (i : Island) : Island :=
  { i with vote := if i.vote = .silent then .silent else if split then .split else if i.retired = 0 then .triple else .pair }

/-- Apply an image's owner block: profile, CF_MODE, timers, split mode, boot options (R435). -/
def applyOwner (n : Nat) (bs : List Byte) (s : State) : State :=
  let o := if fwOwnerLen bs = 0 then [] else fwOwner bs
  let es := ownerEntries o
  let us := if fieldLe o 44 4 = 0 then 200 else fieldLe o 44 4
  let opt := fwOptions bs
  let c := fun (x : Collector) => { x with merge := fieldLe o 42 1 == 1, timerNs := us * 1000 }
  let s1 := modColl 0 c (modColl 1 c { s with
    fault := { s.fault with
      profile := es.map (fun e => (e.1, e.2.1))
      timers := (es.filter (fun e => e.2.2 != 0)).map (fun e => (e.1, e.2.2)) }
    sec := { s.sec with
      fwSlot := n, fwVersion := fwVer bs, fwSec := fieldLe bs 6 2, fwDigest := slice bs 16 32
      bootEntry := bits opt 5 2, bootLoad := bit opt 6 } })
  modIsland 0 (bootVote (bit opt 0)) (modIsland 1 (bootVote (bit opt 1)) s1)

/-- A split island. -/
def anySplit (s : State) : Bool := s.isl.a.vote == .split || s.isl.b.vote == .split

/-- A partner position (R30). -/
def partnerPos (s : State) : Bool := decide (s.power.position < 2)

/-- FIRMWARE_SELECT (R436, R326, R411): the choice, the repair of a lagging flash (which can fail, code REPAIR), the owner
block, the position check, then the calibration set; the HOST ports begin link training. -/
def firmwareSelect (repairOk : Bool) (s : State) : State :=
  if !booting s ∨ s.sec.stage ≠ 1 then s
  else
    match fwAgree s with
    | none => stopStart 0x04 s
    | some (n, bs, lag) =>
      if lag.isSome ∧ !repairOk then stopStart 0x05 s
      else
        let s1 := match lag with
          | none => s
          | some i => modFlash i (setFw n bs) { s with sec := { s.sec with repaired := true } }
        let s2 := applyOwner n bs s1
        if anySplit s2 ∧ partnerPos s2 then stopStart 0x02 (latchBoth 0x1BC 1 s2)
        else
          let s3 := readCal { s2 with sec := { s2.sec with stage := 3 } }
          settle s3

def execFirmwareSelect (t : Nat) (repairOk : Bool) (s : State) : Outcome State Fault Refusal :=
  .next (firmwareSelect repairOk (advanceTo t s))

/-! ### Management port (R427, R428) -/

/-- A management port's own address. -/
def mgmtMac (i : Nat) (s : State) : Nat := s.host.macA + i

/-- A management port hears frames: its island runs. -/
def mgmtUp (i : Nat) (s : State) : Bool := s.power.on && islandRuns i s

/-- The frame of one fragment: destination, source, EtherType, fragment header and bytes. -/
def mgmtFrame (i dst mtag k n : Nat) (part : List Byte) (s : State) : List Byte :=
  beBytes 6 dst ++ beBytes 6 (mgmtMac i s) ++ beBytes 2 0x88B5 ++ leBytes 4 mtag ++ leBytes 1 k ++ leBytes 1 n
    ++ leBytes 2 part.length ++ part

/-- Send a message in fragments of at most 1,492 bytes. -/
def mgmtSend (i dst mtag : Nat) (bs : List Byte) (s : State) : State :=
  let n := (bs.length + 1491) / 1492
  let fs := (List.range n).map (fun k => (i, mgmtFrame i dst mtag k n (slice bs (1492 * k) 1492) s))
  { s with host := { s.host with mgmtSent := fs.reverse ++ s.host.mgmtSent } }

/-- Answer the message an island's management port holds. -/
def mgmtAnswer (i : Nat) (g : MgmtMsg) (r : Option Seal × Answer) : State :=
  let (sl, status, payload, s1) := r
  let s2 := modIsland i (fun x => { x with msg := none }) s1
  mgmtSend i g.src g.mtag (response g.bytes status payload sl (stamp i s2) s2) s2

/-- Codes of the management commands. -/
def mgmtCodes : List Nat := [0x40, 0x41, 0x42, 0x43, 0x44, 0x45, 0x46]

/-- A complete message: only IDENTITY may be broadcast; an unknown code is answered BAD_CMD. -/
def mgmtComplete (i : Nat) (g : MgmtMsg) (s : State) : State :=
  let cmd := msgCmd g.bytes
  if g.bcast ∧ cmd ≠ 0x40 then s
  else if g.bytes.length ≠ 16 + msgLen g.bytes then mgmtAnswer i g (none, stBadLen, [], s)
  else if !mgmtCodes.contains cmd then mgmtAnswer i g (none, stBadCmd, [], s)
  else modIsland i (fun x => { x with msg := some g }) s

/-- All fragments of a message in order, once present. -/
def asmBytes (a : MgmtAsm) : Option (List Byte) :=
  if (List.range a.frags).all (fun k => a.parts.any (fun p => p.1 == k)) then
    some ((List.range a.frags).flatMap (fun k => ((a.parts.find? (fun p => p.1 == k)).map (·.2)).getD []))
  else none

/-- MGMT_FRAGMENT_RX (R427): `bytes` follow the EtherType. -/
def mgmtFragment (i src dst : Nat) (bytes : List Byte) (s : State) : State :=
  let bcast := dst == 0xFFFFFFFFFFFF
  let mtag := fieldLe bytes 0 4
  let k := fieldLe bytes 4 1
  let n := fieldLe bytes 5 1
  let len := fieldLe bytes 6 2
  if !mgmtUp i s ∨ (!bcast ∧ dst ≠ mgmtMac i s) ∨ n = 0 ∨ 3 < n ∨ n ≤ k ∨ 1492 < len ∨ bytes.length < 8 + len
      ∨ (island i s).msg.isSome ∨ (s.sec.job.any (fun j => j.island == i)) then s
  else
    let fresh : MgmtAsm := { mtag := mtag, src := src, frags := n, bcast := bcast, at_ := s.time.now }
    let a := match (island i s).asm with
      | none => some fresh
      | some x => if x.mtag = mtag ∧ x.src = src ∧ x.frags = n then some x else none
    match a with
    | none => s
    | some x =>
      let y := { x with parts := x.parts.filter (fun p => p.1 != k) ++ [(k, slice bytes 8 len)] }
      match asmBytes y with
      | none => modIsland i (fun z => { z with asm := some y }) s
      | some bs => mgmtComplete i ⟨src, mtag, y.bcast, bs⟩ (modIsland i (fun z => { z with asm := none }) s)

def execMgmtFragmentRx (t island src dst : Nat) (bytes : List Byte) (s : State) : Outcome State Fault Refusal :=
  .next (mgmtFragment island src dst bytes (advanceTo t s))

/-- MGMT_REASSEMBLY_TIMEOUT (R427): 10 ms after the first fragment. -/
def mgmtTimeout (i : Nat) (s : State) : State :=
  match (island i s).asm with
  | none => s
  | some a => if a.at_ + 10000000 ≤ s.time.now then modIsland i (fun x => { x with asm := none }) s else s

def execMgmtReassemblyTimeout (t island : Nat) (s : State) : Outcome State Fault Refusal :=
  .next (mgmtTimeout island (advanceTo t s))

/-- Carry out a management command that a port holds. -/
def mgmtDo (i cmd : Nat) (s : State) (f : List Byte → State → Option Seal × Answer) : State :=
  match (island i s).msg with
  | none => s
  | some g => if msgCmd g.bytes = cmd ∧ mgmtUp i s then mgmtAnswer i g (f g.bytes s) else s

/-- MGMT_IDENTITY (R428, R432). -/
def mgmtIdentity (i : Nat) (s : State) : State :=
  mgmtDo i 0x40 s (fun m z => plainRun 0 m z (fun _ y => (stOk, y.sec.identity, y)))

def execMgmtIdentity (t island : Nat) (s : State) : Outcome State Fault Refusal := .next (mgmtIdentity island (advanceTo t s))

/-- MOD_ID (R2). -/
def modId (s : State) : Nat := 0x5D3 * 2 ^ 20 + Config.member * 2 ^ 8 + s.power.stepping % 16 * 2 ^ 4

/-- The key material that KEYS_DIGEST covers: the slots with their kinds, then the revoked digests. -/
def keysBytes (s : State) : List Byte :=
  (List.range 16).flatMap (fun n => leBytes 1 (keySlot n s).kinds ++ (keySlot n s).key) ++ (keyStore s).revoked.flatten

/-- A digest, or 32 zero bytes. -/
def digest32 (d : List Byte) : List Byte := if d.isEmpty then zeroBytes 32 else d

/-- The attestation report fixed by island `i` (R433). -/
def attestReport (i : Nat) (nonce : List Byte) (s : State) : List Byte :=
  let k := keyStore s
  let owner := (keySlot 1 s).key
  let loaded := s.pat.image.isSome
  let flags := b2n (s.isl.a.vote == .split) + 2 * b2n (s.isl.b.vote == .split) + 4 * b2n (!islandRuns (1 - i) s)
    + 8 * b2n (s.crown.calOrigin == 2) + 16 * b2n s.sec.ownerSet
  let body := leBytes 4 0x5454414B ++ leBytes 2 1 ++ leBytes 2 s.power.jepoch ++ nonce ++ leBytes 16 s.host.moduleId
    ++ leBytes 4 (modId s) ++ leBytes 4 s.sec.fwVersion ++ digest32 s.sec.fwDigest ++ leBytes 2 s.sec.fwSec
    ++ leBytes 2 k.fwFloor ++ leBytes 2 k.patFloor ++ leBytes 1 s.power.st.code ++ leBytes 1 flags
    ++ leBytes 8 (if loaded then s.pat.patternId else 0) ++ leBytes 4 s.pat.gen ++ zeroBytes 4
    ++ digest32 s.sec.patDigest ++ digest32 s.sec.patchDigest
    ++ (if s.sec.ownerSet then Config.sha3 owner else zeroBytes 32) ++ Config.sha3 (keysBytes s) ++ leBytes 8 (stamp i s)
  body ++ Config.mldsaSign s.sec.seed (Config.sha3 body)

/-- MGMT_ATTEST (R433). -/
def mgmtAttest (i : Nat) (s : State) : State :=
  mgmtDo i 0x41 s (fun m z => plainRun 32 m z (fun b y => (stOk, attestReport i b y, y)))

def execMgmtAttest (t island : Nat) (s : State) : Outcome State Fault Refusal := .next (mgmtAttest island (advanceTo t s))

/-- Enrol the key of an ENROLL body (R425). `owner`: slot 1, accepted for the owner key. -/
def enroll (b : List Byte) (s : State) : Answer :=
  let n := fieldLe b 0 1
  let kinds := fieldLe b 1 1
  let key := slice b 4 1312
  let s1 := commitStores (setSlot n (fun k => { k with key := key, kinds := if n = 1 then 16 else kinds })) s
  if (keyStore s).revoked.contains (Config.sha3 key) then (stRefused, [], s)
  else if n = 1 then (stOk, [], { s1 with sec := { s1.sec with ownerSet := true } })
  else if n < 2 ∨ 15 < n ∨ !(keySlot n s).key.isEmpty ∨ kinds % 16 = 0 ∨ bit kinds 4 then (stRefused, [], s)
  else (stOk, [], s1)

/-- MGMT_ENROLL (R425, R430): the first owner enrolment is accepted plain, once; every later one is sealed by the owner. -/
def mgmtEnroll (i : Nat) (s : State) : State :=
  mgmtDo i 0x42 s (fun m z =>
    if !msgSealed m ∧ !z.sec.ownerSet ∧ fieldLe m 16 1 = 1 then plainRun 1316 m z enroll
    else sealedRun 4 1316 m z enroll)

def execMgmtEnroll (t island : Nat) (s : State) : Outcome State Fault Refusal := .next (mgmtEnroll island (advanceTo t s))

/-- Revoke a slot (R425). -/
def revoke (b : List Byte) (s : State) : Answer :=
  let n := fieldLe b 0 1
  if n < 2 ∨ 15 < n ∨ (keySlot n s).key.isEmpty ∨ 64 ≤ (keyStore s).revoked.length then (stRefused, [], s)
  else
    let d := Config.sha3 (keySlot n s).key
    (stOk, [], commitStores (fun k =>
      { setSlot n (fun x => { x with key := [], kinds := 0 }) k with revoked := k.revoked ++ [d] }) s)

/-- MGMT_REVOKE. -/
def mgmtRevoke (i : Nat) (s : State) : State := mgmtDo i 0x43 s (fun m z => sealedRun 4 1 m z revoke)

def execMgmtRevoke (t island : Nat) (s : State) : Outcome State Fault Refusal := .next (mgmtRevoke island (advanceTo t s))

/-- Raise a floor (R426). -/
def setFloor (b : List Byte) (s : State) : Answer :=
  let w := fieldLe b 0 1
  let v := fieldLe b 2 2
  let k := keyStore s
  if w = 0 ∧ k.patFloor < v then (stOk, [], commitStores (fun x => { x with patFloor := v }) s)
  else if w = 1 ∧ k.fwFloor < v then (stOk, [], commitStores (fun x => { x with fwFloor := v }) s)
  else (stRefused, [], s)

/-- MGMT_SET_FLOOR. -/
def mgmtSetFloor (i : Nat) (s : State) : State := mgmtDo i 0x44 s (fun m z => sealedRun 4 4 m z setFloor)

def execMgmtSetFloor (t island : Nat) (s : State) : Outcome State Fault Refusal := .next (mgmtSetFloor island (advanceTo t s))

/-- FIRMWARE and STORE are accepted only in STANDBY or DEGRADED, one at a time (R428). -/
def flashFree (s : State) : Bool := (s.power.st == .standby || s.power.st == .degraded) && s.sec.job.isNone

/-- A flash command: judged; refused or answered at once, or left in progress as a job for FLASH_WRITE_DONE. -/
def mgmtFlash (i cmd body : Nat) (s : State) (start : List Byte → State → Option (Bool × Nat × List Byte)) : State :=
  match (island i s).msg with
  | none => s
  | some g =>
    if msgCmd g.bytes ≠ cmd ∨ !mgmtUp i s then s
    else
      match judgeSeal 4 body g.bytes s with
      | .error e => mgmtAnswer i g (none, e, [], s)
      | .ok (b, x) =>
        let s1 := takeCounter (sealSlot (msgPayload g.bytes)) x.counter s
        match (if flashFree s then start b s1 else none) with
        | none => mgmtAnswer i g (some x, stRefused, [], s1)
        | some (fw, idx, raw) =>
          modIsland i (fun z => { z with msg := none }) { s1 with sec := { s1.sec with
            job := some { island := i, env := g.bytes.take 16, reqDigest := x.digest, counter := x.counter, src := g.src
                          mtag := g.mtag, firmware := fw, index := idx, raw := raw } } }

/-- MGMT_FIRMWARE (R437): a valid image goes to the slot that is not running. -/
def mgmtFirmware (i : Nat) (s : State) : State :=
  mgmtFlash i 0x45 12 s (fun b z =>
    let bs := devRd (fieldLe b 0 8) (fieldLe b 8 4) z
    if fwValid bs z ∧ bs.length ≤ 16 * 2 ^ 20 then some (true, 1 - z.sec.fwSlot, bs) else none)

def execMgmtFirmware (t island : Nat) (s : State) : Outcome State Fault Refusal := .next (mgmtFirmware island (advanceTo t s))

/-- Bytes the pattern store still has for an entry (R19, R438). -/
def storeRoom (e : Nat) (s : State) : Nat :=
  let used := (s.sec.flashA.store.filter (fun x => x.1 != e && x.2.valid)).map (fun x => x.2.raw.length)
  31 * 2 ^ 20 - 4096 - used.foldl (· + ·) 0

/-- MGMT_STORE (R438): write or erase an entry. -/
def mgmtStore (i : Nat) (s : State) : State :=
  mgmtFlash i 0x46 16 s (fun b z =>
    let e := fieldLe b 0 1
    let n := fieldLe b 12 4
    if e < 16 ∧ n ≤ storeRoom e z then some (false, e, devRd (fieldLe b 4 8) n z) else none)

def execMgmtStore (t island : Nat) (s : State) : Outcome State Fault Refusal := .next (mgmtStore island (advanceTo t s))

/-- A flash after a finished job. -/
def flashAfter (j : FlashJob) (ok : Bool) (f : Flash) : Flash :=
  if j.firmware then setFw j.index (if ok then j.raw else []) f
  else
    let e : StoreSlot := if !ok ∨ j.raw.isEmpty then {} else
      { valid := true, patternId := fieldLe j.raw 16 8, generation := fieldLe j.raw 24 4, raw := j.raw }
    { f with store := tset {} j.index e f.store }

/-- FLASH_WRITE_DONE (R437, R438): the flashes of the islands that run hold the image, read back, and the command is
answered; a write that fails its read-back is answered REFUSED (assumption 11). -/
def flashDone (ok : Bool) (s : State) : State :=
  match s.sec.job with
  | none => s
  | some j =>
    let s1 := { s with sec := { s.sec with
      job := none
      flashA := if islandRuns 0 s then flashAfter j ok s.sec.flashA else s.sec.flashA
      flashB := if islandRuns 1 s then flashAfter j ok s.sec.flashB else s.sec.flashB } }
    if mgmtUp j.island s then
      mgmtSend j.island j.src j.mtag
        (response j.env (if ok then stOk else stRefused) [] (some ⟨j.reqDigest, j.counter⟩) (stamp j.island s1) s1) s1
    else s1

def execFlashWriteDone (t : Nat) (ok : Bool) (s : State) : Outcome State Fault Refusal := .next (flashDone ok (advanceTo t s))

end Sys2Proof.Machine
end

