-- ==== Sys2Proof/Machine/Tensor.lean ====
section
/-!
DEFINITION. Elements of tensors: packing and real values (R63, R64, R68), the gap between neighbours of a format (R77),
and the counter-based generator that the checker and the planner draw from (R264, R329).
-/

namespace Sys2Proof.Machine

/-! ### Elements -/

/-- The floating-point format of a format code's elements (R88); none for the integer formats and E8M0. -/
def elemFmt (f : Nat) : Option Fmt :=
  match f with
  | 0x04 | 0x06 => some e4m3
  | 0x05 | 0x07 => some e5m2
  | 0x08 => some e2m1
  | 0x09 => some fp16
  | 0x0A => some bf16
  | 0x0B => some fp32
  | 0x0C => some fp64
  | _ => none

/-- Codes of the MX formats. -/
def isMx (f : Nat) : Bool := f == 0x06 || f == 0x07 || f == 0x08

/-- Codes of the integer formats. -/
def isIntFmt (f : Nat) : Bool := f == 0x01 || f == 0x02 || f == 0x03

/-- The encoding of element `i` in packed bytes (R64): two 4-bit elements per byte, the even one low. -/
def rawElem (f : Nat) (bs : List Byte) (i : Nat) : Nat :=
  let w := fmtBits f
  if w = 4 then fieldLe bs (i / 2) 1 / 16 ^ (i % 2) % 16 else fieldLe bs (i * (w / 8)) (w / 8)

/-- Put nibbles into bytes, the even one low. -/
def packNibbles : List Nat → List Byte
  | [] => []
  | [a] => [BitVec.ofNat 8 (a % 16)]
  | a :: b :: r => BitVec.ofNat 8 (a % 16 + b % 16 * 16) :: packNibbles r

/-- Pack encodings (R64). -/
def packElems (f : Nat) (es : List Nat) : List Byte :=
  if fmtBits f = 4 then packNibbles es else es.flatMap (leBytes (fmtBits f / 8))

/-- The index of an element along an axis. -/
def axisIndex (x : GTen) (axis i : Nat) : Nat :=
  i / ((x.dims.take axis).foldl (· * ·) 1) % max 1 (x.dims.getD axis 1)

/-- Bytes of the element array of a tensor that is not 2:4-compressed. -/
def elemBytes (x : GTen) : Nat := (x.elems * fmtBits x.fmt + 7) / 8

/-- The block scales of an MX tensor: those that travel behind the elements in a token, or the contents of its scale
array. -/
def blockScales (x : GTen) (bs : List Byte) (s : State) : List Byte :=
  if elemBytes x < bs.length then bs.drop (elemBytes x) else stateOf x.scaleT s

/-- The scale of an element of an INT8, INT4 or FP8 tensor (R68). -/
def scaleAt (x : GTen) (i : Nat) (s : State) : FVal :=
  if x.perChannel then f32 (rawElem 0x0B (stateOf x.scaleT s) (axisIndex x x.qaxis i)) else f32 x.scale

/-- The signed value of an integer element. -/
def intElem (f : Nat) (bs : List Byte) (i : Nat) : Int := sext (fmtBits f) (rawElem f bs i)

/-- The real value of element `i` of a tensor (R68). -/
def realAt (x : GTen) (bs : List Byte) (i : Nat) (s : State) : FVal :=
  match elemFmt x.fmt with
  | some f =>
    let v := f.decode (rawElem x.fmt bs i)
    if isMx x.fmt then
      let b := fieldLe (blockScales x bs s) (i / 32) 1
      if b = 0xFF then .nan else v.scale2 ((b : Int) - 127)
    else if x.fmt = 0x04 ∨ x.fmt = 0x05 then (scaleAt x i s).mul v
    else v
  | none =>
    if x.fmt = 0x01 ∨ x.fmt = 0x02 then (scaleAt x i s).mul (.ofInt (intElem x.fmt bs i - x.zp))
    else if x.fmt = 0x0D then .fin false 1 ((rawElem 0x0D bs i : Int) - 127)
    else .ofInt (intElem x.fmt bs i)

/-- The gap between the representable values around an encoding of a format (R77). -/
def Fmt.ulp (f : Fmt) (b : Nat) : FVal :=
  .fin false 1 ((max 1 (b / 2 ^ f.m % 2 ^ f.e) : Nat) - f.bias - f.m)

/-- Half an ulp of a delivered element in its output format; 0 for FP32 and FP64 (R80). -/
def halfUlp (x : GTen) (bs : List Byte) (i : Nat) (s : State) : FVal :=
  match elemFmt x.fmt with
  | none => .fin false 0 0
  | some f =>
    if x.fmt = 0x0B ∨ x.fmt = 0x0C then .fin false 0 0
    else
      let u := (f.ulp (rawElem x.fmt bs i)).scale2 (-1)
      if isMx x.fmt then u.scale2 ((fieldLe (blockScales x bs s) (i / 32) 1 : Int) - 127)
      else if x.fmt = 0x04 ∨ x.fmt = 0x05 then (scaleAt x i s).mul u
      else u

/-! ### Philox-4×32-10 -/

/-- One round: the four counter words under the two key words. -/
def philoxRound (c : Nat × Nat × Nat × Nat) (k0 k1 : Nat) : Nat × Nat × Nat × Nat :=
  let p0 := 0xD2511F53 * c.1
  let p1 := 0xCD9E8D57 * c.2.2.1
  ((p1 / 2 ^ 32) ^^^ c.2.1 ^^^ k0, p1 % 2 ^ 32, (p0 / 2 ^ 32) ^^^ c.2.2.2 ^^^ k1, p0 % 2 ^ 32)

/-- `n` rounds with the key schedule. -/
def philoxRounds : Nat → Nat × Nat × Nat × Nat → Nat → Nat → Nat × Nat × Nat × Nat
  | 0, c, _, _ => c
  | n + 1, c, k0, k1 => philoxRounds n (philoxRound c k0 k1) ((k0 + 0x9E3779B9) % 2 ^ 32) ((k1 + 0xBB67AE85) % 2 ^ 32)

/-- The four outputs for a 64-bit key and a 128-bit counter. -/
def philox (key ctr : Nat) : List Nat :=
  let r := philoxRounds 10 (ctr % 2 ^ 32, ctr / 2 ^ 32 % 2 ^ 32, ctr / 2 ^ 64 % 2 ^ 32, ctr / 2 ^ 96 % 2 ^ 32)
    (key % 2 ^ 32) (key / 2 ^ 32 % 2 ^ 32)
  [r.1, r.2.1, r.2.2.1, r.2.2.2]

/-- The first `m` distinct values below `n` of a stream of outputs, taken from at most `fuel` blocks of four. -/
def distinctMod (key base n m : Nat) : Nat → Nat → List Nat → List Nat
  | 0, _, acc => acc
  | fuel + 1, b, acc =>
    if m ≤ acc.length then acc
    else
      distinctMod key base n m fuel (b + 1)
        ((philox key (base + b * 2 ^ 64)).foldl (fun a o =>
          if m ≤ a.length ∨ a.contains (o % n) then a else a ++ [o % n]) acc)

end Sys2Proof.Machine
end

