-- ==== Sys2Proof/Machine/Elem.lean ====
section
/-!
DEFINITION. What every operator shares: tensors with their contents, coordinates, values free within a bound, and the
rounding into an output format with its numeric events (R67, R69, R70, R73, R77).
-/

namespace Sys2Proof.Machine

/-- A tensor and its contents. -/
structure TVal where
  ten : GTen
  bytes : List Byte
  deriving DecidableEq, Repr

/-- A result before the output rounding: the value delivered, the NaN events of its making, the exact result ŷ, and the
bound on |v − ŷ| (R77, R80); an infinite bound where the spec states none. -/
structure El where
  v : FVal
  ev : Nat := 0
  y : FVal
  b : FVal
  deriving DecidableEq, Repr

/-- A value without an error. -/
def El.sure (v : FVal) : El := { v := v, y := v, b := zeroV }

/-- What an operator delivers: the bytes of its outputs, the saturations and NaN events of its parts layer by layer (a part is
an element of OUT[0], or a system of a batch), the elements of OUT[0] and of OUT[1] before the output rounding (none where the
output is exact as encoded), and a solver failure with FAIL_FATAL. -/
structure OpRes where
  outs : List (List Byte) := []
  parts : List (List (Nat × Nat)) := []
  els : List El := []
  els1 : List El := []
  /-- computed on integers: exact whatever the order (R71), and judged as encoded (R81) -/
  exact : Bool := false
  fatal : Bool := false
  /-- attention mass of the pages a scoring reader read: PAGE_SEQ and FP32 value (R165) -/
  mass : List (Nat × Nat) := []
  deriving DecidableEq, Repr

/-- Saturations and NaN events of an operator's firing. -/
def OpRes.sat (r : OpRes) : Nat := (r.parts.flatten.map (·.1)).foldl (· + ·) 0
def OpRes.nan (r : OpRes) : Nat := (r.parts.flatten.map (·.2)).foldl (· + ·) 0

/-- PARAM fields. -/
def GOp.p8 (o : GOp) (n : Nat) : Nat := fieldLe o.params n 1
def GOp.p16 (o : GOp) (n : Nat) : Nat := fieldLe o.params n 2
def GOp.p32 (o : GOp) (n : Nat) : Nat := fieldLe o.params n 4
def GOp.p64 (o : GOp) (n : Nat) : Nat := fieldLe o.params n 8

/-- Operand `j`, and whether it is there. -/
def inp (ins : List (Option TVal)) (j : Nat) : TVal := (ins.getD j none).getD ⟨gten ⟨4, 1, 0, []⟩, []⟩
def hasIn (ins : List (Option TVal)) (j : Nat) : Bool := (ins.getD j none).isSome

/-! ### Coordinates (R119) -/

/-- The six extents of a tensor. -/
def tdims (x : GTen) : List Nat := (List.range 6).map (fun a => max 1 (x.dims.getD a 1))

/-- An extent. -/
def tdim (x : GTen) (a : Nat) : Nat := max 1 (x.dims.getD a 1)

/-- The coordinates of an element, DIMS[0] first. -/
def coordsOf : List Nat → Nat → List Nat
  | [], _ => []
  | d :: ds, i => i % d :: coordsOf ds (i / d)

/-- The element at coordinates. -/
def flatOf : List Nat → List Nat → Nat
  | d :: ds, c :: cs => c + d * flatOf ds cs
  | _, _ => 0

/-- The element of `x` that a broadcast to coordinates reads: an extent of 1 reads index 0. -/
def castIx (x : GTen) (cs : List Nat) : Nat :=
  flatOf (tdims x) (((tdims x).zip cs).map (fun p => if p.1 = 1 then 0 else p.2))

/-- Encoding, signed value less the zero point, and real value of an element. -/
def TVal.raw (x : TVal) (i : Nat) : Nat := rawElem x.ten.fmt x.bytes i
def TVal.q (x : TVal) (i : Nat) : Int := intElem x.ten.fmt x.bytes i - x.ten.zp
def TVal.val (x : TVal) (i : Nat) (s : State) : FVal := realAt x.ten x.bytes i s

/-- The operator runs on integers. -/
def TVal.isInt (x : TVal) : Bool := isIntFmt x.ten.fmt

/-- The float format an operator with this output computes in. -/
def laneFmt (x : GTen) : Fmt := if x.fmt = 0x0C then fp64 else fp32

/-- The unit roundoff of R77 as an exponent. -/
def lanU (x : GTen) : Int := if x.fmt = 0x0C then -53 else -24

/-! ### Values free within a bound (R77, R79) -/

/-- A finite value. -/
def isFin : FVal → Bool
  | .fin _ _ _ => true
  | _ => false

/-- `|y - yhat| ≤ bound`. -/
def within (y yhat bound : FVal) : Bool := isFin y && ((y.add yhat.neg).abs).le bound

/-- A delivered value: any value of the format within the bound of the exact one, element `i` of draw `k`; without one
there, the exact value rounded once. NaN and infinity propagate. -/
def pick (f : Fmt) (k i : Nat) (yhat bound : FVal) : FVal :=
  let c := f.decode (Config.freeAt k i % 2 ^ f.width)
  if isFin yhat && within c yhat bound then c else f.round yhat

/-- As `pick`, about the exact quotient num / den, with the bound multiplied by `den`. -/
def pickDiv (f : Fmt) (k i : Nat) (num den bound : FVal) : FVal :=
  let c := f.decode (Config.freeAt k i % 2 ^ f.width)
  if isFin num && isFin c && within (c.mul den) num bound then c else f.div num den

/-- The sum of values. -/
def fsum (xs : List FVal) : FVal := xs.foldl FVal.add (.fin false 0 0)

/-- Exact products. -/
def prods (ps : List (FVal × FVal)) : List FVal := ps.map (fun p => p.1.mul p.2)

/-- A sum of terms within n · u · Σ|terms| + extra, with its NaN event: at most one for the element, and none where an operand
is a NaN (DESIGN CHOICE, assumption 143: R73 does not say how many invalid products of one reduction count). -/
def sumEl (f : Fmt) (k i n : Nat) (u : Int) (extra : FVal) (ins terms : List FVal) : El :=
  let yhat := fsum terms
  let bound := ((unitN n u).mul (fsum (terms.map FVal.abs))).add extra
  let v := pick f k i yhat bound
  ⟨v, b2n (nanMade ins v), yhat, bound⟩

/-- A step on a result with further operands: the value it delivers, the exact value, and what it adds to the bound; a NaN it
makes is counted. -/
def El.step (e : El) (ops : List FVal) (v y db : FVal) : El := ⟨v, e.ev + b2n (nanMade (e.v :: ops) v), y, e.b.add db⟩

/-- Half the gap of a format at a value: one rounding. -/
def Fmt.half (f : Fmt) (y : FVal) : FVal := (f.gap y).scale2 (-1)

/-- A free FP32 value that replaces a result: a NaN counts as made. -/
def freeEl (f : Fmt) (k i : Nat) : El :=
  let v := f.decode (Config.freeAt k i % 2 ^ f.width)
  ⟨v, b2n (decide (v = .nan)), v, .inf false⟩

/-! ### Output rounding (R67, R69, R70) -/

/-- Round a / b into a format, with the saturation. -/
def Fmt.encodeDiv (f : Fmt) (a b : FVal) : Nat × Bool :=
  match a, b with
  | .fin s n e, .fin _ m k =>
    if n = 0 ∨ m = 0 then (f.sign s 0, false)
    else
      let sh := f.m + 4 + bitLen m
      let q := n * 2 ^ sh / m
      f.encodeSticky (decide (n * 2 ^ sh % m ≠ 0)) (.fin s q (e - k - sh))
  | v, _ => f.encode v

/-- n / d to nearest, ties to even. -/
def natRne (n d : Nat) : Nat :=
  let q := n / d
  let r := n % d
  if d < 2 * r ∨ (2 * r = d ∧ q % 2 = 1) then q + 1 else q

/-- A real value as an integer element of `w` bits with a scale and zero point: element, saturation, NaN event. -/
def quantize (w : Nat) (v sc : FVal) (zp : Int) : Int × Bool × Bool :=
  match v, sc with
  | .nan, _ => (0, false, true)
  | .inf neg, _ => (if neg then -(2 ^ (w - 1)) else 2 ^ (w - 1) - 1, true, false)
  | .fin s n e, .fin _ m k =>
    let r := natRne (n * 2 ^ (e - k).toNat) (max 1 m * 2 ^ (k - e).toNat)
    let y := (if s then -(r : Int) else r) + zp
    (satS w y, decide (y ≠ satS w y), false)
  | .fin _ _ _, _ => (0, false, false)

/-- The largest exponent of an MX element format. -/
def mxEmax (fmt : Nat) : Int := if fmt = 0x06 then 8 else if fmt = 0x07 then 15 else 2

/-- A block of an MX tensor: its scale, its elements with their saturations. -/
def mxBlock (fmt : Nat) (vs : List FVal) : Nat × List (Nat × Bool) :=
  let f := (elemFmt fmt).getD e4m3
  let sc := mxScale (mxEmax fmt) vs
  (sc, vs.map (fun v => f.encodeClamp (v.scale2 (127 - sc))))

/-- One element in a format that is not MX: encoding, saturation, NaN event. -/
def encodeElem (x : GTen) (i : Nat) (v : FVal) (s : State) : Nat × Bool × Bool :=
  match elemFmt x.fmt with
  | some f =>
    let r := if x.fmt = 0x04 ∨ x.fmt = 0x05 then f.encodeDiv v (scaleAt x i s) else f.encode v
    (r.1, r.2, false)
  | none =>
    let w := fmtBits x.fmt
    let sc := if x.fmt = 0x03 ∨ x.fmt = 0x0D then unitN 1 0 else scaleAt x i s
    let r := quantize w v sc x.zp
    (uenc w r.1, r.2)

/-- Round results into an output tensor: its bytes, and the saturations and NaN events of each element. -/
def encodeOut (x : GTen) (vs : List FVal) (s : State) : List Byte × List (Nat × Nat) :=
  if isMx x.fmt then
    let bl := (List.range ((vs.length + 31) / 32)).map (fun b => mxBlock x.fmt ((vs.drop (32 * b)).take 32))
    let es := bl.flatMap (·.2)
    (packElems x.fmt (es.map (·.1)) ++ bl.map (fun b => BitVec.ofNat 8 b.1), es.map (fun e => (b2n e.2, 0)))
  else
    let rs := vs.mapIdx (fun i v => encodeElem x i v s)
    (packElems x.fmt (rs.map (·.1)), rs.map (fun r => (b2n r.2.1, b2n r.2.2)))

/-- The result of an operator with one output. -/
def emit (x : GTen) (es : List El) (s : State) : OpRes :=
  let r := encodeOut x (es.map (·.v)) s
  { outs := [r.1], parts := [(r.2.zip es).map (fun p => (p.1.1, p.1.2 + p.2.ev))], els := es }

/-- Integer elements as an output, with their saturations. -/
def emitInts (x : GTen) (es : List (Int × Nat)) : OpRes :=
  { outs := [packElems x.fmt (es.map (fun e => uenc (fmtBits x.fmt) e.1))], parts := [es.map (fun e => (e.2, 0))]
    exact := true }

/-- Contents that nothing fixes: `n` bytes of draw `k`, place `j`. -/
def freeBytes (k j n : Nat) : List Byte := leBytes n (Config.freeAt k (2 ^ 40 + j))

/-! ### Activation functions (R124) -/

/-- A negative value. -/
def isNegV : FVal → Bool
  | .inf s => s
  | .fin s n _ => s && n != 0
  | .nan => false

/-- The gaps of R77 around values of an output tensor: the format's own; with the tensor scale of an FP8 output, the block
scales of an MX output, and FP32 for an integer output (R140). -/
def outGaps (x : GTen) (ys : List FVal) (s : State) : List FVal :=
  match elemFmt x.fmt with
  | none => ys.map fp32.gap
  | some f =>
    if isMx x.fmt then
      (List.range ys.length).map (fun i =>
        let sc : Int := (mxScale (mxEmax x.fmt) ((ys.drop (i / 32 * 32)).take 32) : Int) - 127
        (f.gap ((ys.getD i zeroV).scale2 (-sc))).scale2 sc)
    else if x.fmt = 0x04 ∨ x.fmt = 0x05 then
      ys.mapIdx (fun i y => (f.gap (wide.div y (scaleAt x i s))).mul (scaleAt x i s))
    else ys.map f.gap

/-- The special functions of R124, exactly. -/
def funcW (code : Nat) (v : FVal) : FVal :=
  match code with
  | 4 => geluErfW v
  | 5 => geluTanhW v
  | 6 => wide.mul v (sigmoidW v)
  | 7 => sigmoidW v
  | 8 => tanhW v
  | 9 => expW v
  | 10 => lnW v
  | 11 => wide.div oneV v
  | 12 => wide.div oneV (wide.sqrt v)
  | 14 => erfW v
  | _ => v

/-- GELU and SILU of -∞, for which no result is stated. -/
def actOpen (code : Nat) (v : FVal) : Bool := decide (v = .inf true) && [4, 5, 6].contains code

/-- An activation of R124 on a result in format `f`, with the bound of its function in R77: `gap` is the output format's gap
around the exact function of the delivered value. -/
def actEl (f : Fmt) (code alpha beta k i : Nat) (gap : FVal) (e : El) : El :=
  let al := f32 alpha
  let be := f32 beta
  match code with
  | 0 => e
  | 1 => e.step [] (e.v.max2 zeroV) (e.y.max2 zeroV) zeroV
  | 2 => e.step [] ((e.v.max2 al).min2 be) ((e.y.max2 al).min2 be) zeroV
  | 3 =>
    let y := if isNegV e.y then al.mul e.y else e.y
    e.step [] (if isNegV e.v then f.mul al e.v else e.v) y (f.half y)
  | 13 => let y := wide.sqrt e.y; e.step [] (f.sqrt e.v) y (f.half y)
  | 15 => e.step [] e.v.abs e.y.abs zeroV
  | 16 => e.step [] e.v.neg e.y.neg zeroV
  | c =>
    if e.v = .nan then e
    else if actOpen c e.v then freeEl f k i
    else
      let yhat := funcW c e.v
      let two := gap.scale2 1
      e.step [] (pick f k i yhat (two.add (yhat.abs.scale2 (-150)))) (funcW c e.y) two

/-- The activation of a whole output tensor: element `i` takes place `base + i` of draw `k`. -/
def actAll (f : Fmt) (out : GTen) (code alpha beta k base : Nat) (es : List El) (s : State) : List El :=
  if code = 0 then es
  else (es.zip (outGaps out (es.map (fun e => funcW code e.v)) s)).mapIdx (fun i p =>
    actEl f code alpha beta k (base + i) p.2 p.1)

end Sys2Proof.Machine
end

