-- ==== Sys2Proof/Machine/Dense.lean ====
section
/-!
DEFINITION. Dense and sliding-window operators, element-wise operators, normalization and data movement (R118 to R142).
The mapping and the tiling (R126, R130 to R132, R143 to R147), in Tiling.lean, change where the work runs and no result
beyond R77.
-/

namespace Sys2Proof.Machine

/-! ### The epilogue (R121 to R123) -/

/-- An EPI block. -/
structure Epi where
  act : Nat
  flags : Nat
  alpha : Nat
  beta : Nat
  deriving DecidableEq, Repr

/-- The EPI block at a PARAM offset. -/
def epiAt (o : GOp) (off : Nat) : Epi := ⟨o.p8 off, o.p8 (off + 1), o.p32 (off + 4), o.p32 (off + 8)⟩

/-- The scale of an integer tensor's element; an INT32 tensor has none. -/
def intScale (x : GTen) (i : Nat) (s : State) : FVal := if x.fmt = 0x03 then oneV else scaleAt x i s

/-- ACT on a requantized integer (R123 step 3). DESIGN CHOICE (assumption 148): a CLAMP bound outside the output format's
range is taken as it is, and the element then keeps the low bits of its encoding. -/
def actInt (e : Epi) (out : GTen) (i : Nat) (y : Int) (s : State) : Int :=
  match e.act with
  | 1 => max y out.zp
  | 2 =>
    let b := fun (v : Nat) => (quantize 64 (f32 v) (intScale out i s) out.zp).1
    min (max y (b e.alpha)) (b e.beta)
  | _ => y

/-- Steps 2 to 4 of R122 on a result: `c` is the output channel, `i` the output element. -/
def epiFloat (e : Epi) (ins : List (Option TVal)) (out : GTen) (c i : Nat) (v : El) (s : State) : El :=
  let f := laneFmt out
  let v1 : El := (if bit e.flags 0 then
      (let b := (inp ins 2).val c s; let y := v.y.add b; v.step [b] (f.add v.v b) y (f.half y)) else v)
  let v2 : El := (if bit e.flags 2 then
      (let g := (inp ins 4).val c s; let h := (inp ins 5).val c s; let y := (g.mul v1.y).add h
       v1.step [g, h] (f.fma g v1.v h) y (f.half y)) else v1)
  if bit e.flags 1 then
    (let r := (inp ins 3).val i s; let y := v2.y.add r; v2.step [r] (f.add v2.v r) y (f.half y)) else v2

/-- Steps 5 and 6 of R122 over the output tensor. -/
def finish (k base : Nat) (e : Epi) (out : GTen) (es : List El) (s : State) : OpRes :=
  emit out (actAll (laneFmt out) out e.act e.alpha e.beta k base es s) s

/-! ### Products (R119, R120, R125 to R134) -/

/-- The reduction indices of channel `ch` of a weight tensor with reduction length `n`, with the place of each weight in the
packed elements; a 2:4 tensor holds two of every four (R133). -/
def wTerms (w : TVal) (ch n : Nat) : List (Nat × Nat) :=
  if w.ten.sparse then
    let chans := w.ten.elems / max 1 n
    let meta0 := (chans * (n / 2) * fmtBits w.ten.fmt + 7) / 8
    (List.range (n / 4)).flatMap (fun g =>
      let nib := fieldLe w.bytes (meta0 + ch * (n / 8) + g / 2) 1 / 16 ^ (g % 2) % 16
      [(4 * g + nib % 4, ch * (n / 2) + 2 * g), (4 * g + nib / 4, ch * (n / 2) + 2 * g + 1)])
  else (List.range n).map (fun k => (k, ch * n + k))

/-- The real value of a weight by its place in the packed elements and its channel. -/
def wVal (w : TVal) (ch n place : Nat) (s : State) : FVal :=
  if w.ten.sparse then
    match elemFmt w.ten.fmt with
    | some f => (scaleAt w.ten (ch * n) s).mul (f.decode (rawElem w.ten.fmt w.bytes place))
    | none => (scaleAt w.ten (ch * n) s).mul (.ofInt (intElem w.ten.fmt w.bytes place))
  else w.val place s

/-- An activation element, or the padding value: the zero point of an integer, +0 of a float (R129). -/
def aInt (a : TVal) : Option Nat → Int
  | some j => a.q j
  | none => 0
def aVal (a : TVal) (s : State) : Option Nat → FVal
  | some j => a.val j s
  | none => zeroV

/-- One output element of an integer product (R69, R71, R76, R123): element and saturations. DESIGN CHOICE (assumption 144):
the bias is added to the accumulator already saturated to INT32, so that one element may count twice; R71 and R123 do not say
whether the 40-bit value takes the bias. -/
def dotInt (e : Epi) (ins : List (Option TVal)) (out : GTen) (c i ch n : Nat) (ix : Nat → Option Nat) (s : State) :
    Int × Nat :=
  let a := inp ins 0
  let w := inp ins 1
  let exact := ((wTerms w ch n).map (fun p => aInt a (ix p.1) * w.q p.2)).foldl (· + ·) 0
  let acc := satS 32 exact
  let biased := if bit e.flags 0 then acc + intElem 0x03 (inp ins 2).bytes c else acc
  let acc2 := satS 32 biased
  let n0 := b2n (decide (acc ≠ exact)) + b2n (decide (acc2 ≠ biased))
  if out.fmt = 0x03 then (actInt e out i acc2 s, n0)
  else
    let mult := fp32.div ((intScale a.ten 0 s).mul (intScale w.ten (ch * n) s)) (intScale out i s)
    let r := requant (fmtBits out.fmt) mult out.zp acc2
    (actInt e out i r.1 s, n0 + b2n r.2)

/-- One output element of a float product before the output rounding (R72, R77, R122). -/
def dotFloat (k : Nat) (e : Epi) (ins : List (Option TVal)) (out : GTen) (c i ch n : Nat) (ix : Nat → Option Nat)
    (s : State) : El :=
  let a := inp ins 0
  let w := inp ins 1
  let ps := (wTerms w ch n).map (fun p => (aVal a s (ix p.1), wVal w ch n p.2 s))
  let extra := if isMx a.ten.fmt then unitN ps.length (-150) else zeroV
  epiFloat e ins out c i (sumEl fp32 k i ps.length (-24) extra (ps.flatMap (fun p => [p.1, p.2])) (prods ps)) s

/-- One output element of an integer product with a float output: the exact accumulator times both scales. -/
def dotMixed (e : Epi) (ins : List (Option TVal)) (out : GTen) (c i ch n : Nat) (ix : Nat → Option Nat)
    (s : State) : El × Nat :=
  let a := inp ins 0
  let w := inp ins 1
  let r := dotInt { e with act := 0 } ins { out with fmt := 0x03 } c i ch n ix s
  (El.sure (((intScale a.ten 0 s).mul (intScale w.ten (ch * n) s)).mul (.ofInt r.1)), r.2)

/-- A product operator: weight channel, reduction length and the activation index of every output element. -/
def product (k : Nat) (e : Epi) (ins : List (Option TVal)) (out : GTen) (n : Nat) (chan : Nat → Nat)
    (ix : Nat → Nat → Option Nat) (s : State) : OpRes :=
  let c := fun (i : Nat) => i % tdim out 0
  let is := List.range out.elems
  if (inp ins 0).isInt then
    if isIntFmt out.fmt then emitInts out (is.map (fun i => dotInt e ins out (c i) i (chan i) n (ix i) s))
    else
      let rs := is.map (fun i => dotMixed e ins out (c i) i (chan i) n (ix i) s)
      let r := finish k (2 ^ 32) e out (rs.map (·.1)) s
      { r with parts := r.parts.map (fun l => (l.zip rs).map (fun p => (p.1.1 + p.2.2, p.1.2))), exact := decide (e.act < 3) }
  else finish k (2 ^ 32) e out (is.map (fun i => dotFloat k e ins out (c i) i (chan i) n (ix i) s)) s

/-- MATMUL and FC (R125). -/
def opMatmul (k : Nat) (o : GOp) (ins : List (Option TVal)) (out : GTen) (s : State) : OpRes :=
  let a := inp ins 0
  let b := inp ins 1
  let n := tdim a.ten 0
  let at0 := fun (x : TVal) (i j : Nat) => castIx x.ten (match coordsOf (tdims out) i with
    | c0 :: c1 :: r => 0 :: (if j = 0 then c1 else c0) :: r
    | r => r)
  product k (epiAt o 0) ins out n (fun i => at0 b i 1 / n) (fun i j => some (at0 a i 0 + j)) s

/-- The element a padded position takes (R129); none for a zero. -/
def padIndex (mode n : Nat) (i : Int) : Option Nat :=
  if 0 ≤ i ∧ i < n then some i.toNat
  else match mode with
    | 0 => none
    | 1 => some (clampI 0 (n - 1) i).toNat
    | 2 => some (if i < 0 then (-i).toNat else (2 * ((n : Int) - 1) - i).toNat)
    | _ => some (i % n).toNat

/-- The flat index of a feature-map element, or none for a zero pad. -/
def mapIndex (x : GTen) (mode c : Nat) (col row : Int) (b : Nat) : Option Nat :=
  match padIndex mode (tdim x 1) col, padIndex mode (tdim x 2) row with
  | some w, some h => some (flatOf (tdims x) [c, w, h, b])
  | _, _ => none

/-- CONV2D (R127 to R131). -/
def opConv (k : Nat) (o : GOp) (ins : List (Option TVal)) (out : GTen) (s : State) : OpRes :=
  let x := (inp ins 0).ten
  let groups := max 1 (o.p32 28)
  let cig := tdim x 0 / groups
  let cog := tdim out 0 / groups
  let kh := o.p8 16
  let kw := o.p8 17
  let ix := fun (i j : Nat) =>
    match coordsOf (tdims out) i with
    | co :: wo :: ho :: b :: _ =>
      mapIndex x (o.p8 22) (co / max 1 cog * cig + j % max 1 cig)
        ((wo * o.p8 19 + j / max 1 cig % max 1 kw * o.p8 21 : Nat) - (o.p8 26 : Int))
        ((ho * o.p8 18 + j / max 1 cig / max 1 kw * o.p8 20 : Nat) - (o.p8 24 : Int)) b
    | _ => none
  product k (epiAt o 0) ins out (cig * kh * kw) (fun i => i % tdim out 0) ix s

/-! ### Pooling (R135, R136) -/

/-- Reduce the elements `js` of a window with `cnt` the divisor of an average: modes 0 MAX, 1 MIN, 2 AVG, 3 SUM. -/
def poolFloat (k mode i cnt : Nat) (x : TVal) (out : GTen) (js : List Nat) (s : State) : El :=
  let f := laneFmt out
  let vs := js.map (fun j => x.val j s)
  match mode with
  | 0 => El.sure (vs.foldl FVal.max2 (.inf true))
  | 1 => El.sure (vs.foldl FVal.min2 (.inf false))
  | 2 =>
    let lim := (unitN (cnt + 1) (-24)).mul (fsum (vs.map FVal.abs))
    let v := pickDiv f k i (fsum vs) (unitN cnt 0) lim
    ⟨v, b2n (nanMade vs v), wide.div (fsum vs) (unitN cnt 0), wide.div lim (unitN cnt 0)⟩
  | _ => sumEl f k i cnt (-24) zeroV vs vs

/-- The integer form of it. DESIGN CHOICE (assumption 149): count × scale_out of an AVG is formed exactly and the multiplier
rounded once, since R136 does not say whether the product is rounded. -/
def poolInt (mode i cnt : Nat) (x : TVal) (out : GTen) (js : List Nat) (s : State) : Int × Nat :=
  let qs := js.map x.q
  match mode with
  | 0 => (qs.foldl max (-(2 ^ 32)) + x.ten.zp, 0)
  | 1 => (qs.foldl min (2 ^ 32) + x.ten.zp, 0)
  | _ =>
    let exact := qs.foldl (· + ·) 0
    let acc := satS 32 exact
    let mult := fp32.div (intScale x.ten 0 s) ((intScale out i s).mul (unitN (if mode = 2 then cnt else 1) 0))
    let r := requant (fmtBits out.fmt) mult out.zp acc
    (r.1, b2n (decide (acc ≠ exact)) + b2n r.2)

/-- A pooling operator from the window and the divisor of every output element. -/
def pooled (k mode : Nat) (x : TVal) (out : GTen) (win : Nat → List Nat × Nat) (s : State) : OpRes :=
  let is := List.range out.elems
  if x.isInt then emitInts out (is.map (fun i => poolInt mode i (win i).2 x out (win i).1 s))
  else emit out (is.map (fun i => poolFloat k mode i (win i).2 x out (win i).1 s)) s

/-- POOL. -/
def opPool (k : Nat) (o : GOp) (ins : List (Option TVal)) (out : GTen) (s : State) : OpRes :=
  let x := inp ins 0
  let win := fun (i : Nat) =>
    match coordsOf (tdims out) i with
    | c :: wo :: ho :: b :: _ =>
      let js := (List.range (o.p8 1)).flatMap (fun y => (List.range (o.p8 2)).filterMap (fun z =>
        mapIndex x.ten 0 c ((wo * o.p8 4 + z : Nat) - (o.p8 7 : Int)) ((ho * o.p8 3 + y : Nat) - (o.p8 5 : Int)) b))
      (js, if o.p8 0 = 2 ∧ bit (o.p8 9) 0 = false then js.length else o.p8 1 * o.p8 2)
    | _ => ([], 1)
  pooled k (o.p8 0) x out win s

/-- GLOBAL_POOL. -/
def opGlobalPool (k : Nat) (o : GOp) (ins : List (Option TVal)) (out : GTen) (s : State) : OpRes :=
  let x := inp ins 0
  let n := tdim x.ten 1 * tdim x.ten 2
  let win := fun (i : Nat) =>
    match coordsOf (tdims out) i with
    | c :: _ :: _ :: b :: _ =>
      ((List.range n).map (fun p => flatOf (tdims x.ten) [c, p % tdim x.ten 1, p / tdim x.ten 1, b]), n)
    | _ => ([], 1)
  pooled k (o.p8 0) x out win s

/-! ### Element-wise operators (R137 to R140) -/

/-- The format of the lanes an element-wise operator runs in (R137). DESIGN CHOICE (assumption 150): FP64 lanes as soon as one
tensor is FP64; R137 names FP32 lanes and R77 has an FP64 row. -/
def elemLane (fn : Nat) (a b out : GTen) : Fmt :=
  if a.fmt = 0x0C ∨ b.fmt = 0x0C ∨ out.fmt = 0x0C then fp64
  else if fn = 5 ∨ a.fmt ≠ b.fmt ∨ a.fmt ≠ out.fmt then fp32
  else if a.fmt = 0x09 then fp16
  else if a.fmt = 0x0A then bf16
  else fp32

/-- A float function (R139), and its exact value. -/
def elemFloat (f : Fmt) (fn : Nat) (a b : FVal) : FVal :=
  match fn with
  | 0 => f.add a b
  | 1 => f.sub a b
  | 2 => f.mul a b
  | 3 => a.max2 b
  | 4 => a.min2 b
  | _ => f.div a b

def elemExact (fn : Nat) (a b : FVal) : FVal :=
  match fn with
  | 0 => a.add b
  | 1 => a.add b.neg
  | 2 => a.mul b
  | 3 => a.max2 b
  | 4 => a.min2 b
  | _ => wide.div a b

/-- An integer function (R138); DIV has no integer form (R137). -/
def elemInt (k fn i ja jb : Nat) (a b : TVal) (out : GTen) (s : State) : Int × Nat :=
  let sa := intScale a.ten ja s
  let sb := intScale b.ten jb s
  let so := intScale out i s
  let clamp := fun (y : Int) => (satS 8 y, b2n (decide (satS 8 y ≠ y)))
  let term := fun (sc : FVal) (q : Int) => (fp32.div sc so).mul (.ofInt q)
  match fn with
  | 0 => clamp (((term sa (a.q ja)).add (term sb (b.q jb))).toIntRne + out.zp)
  | 1 => clamp (((term sa (a.q ja)).add (term sb (b.q jb)).neg).toIntRne + out.zp)
  | 2 =>
    let r := requant 8 (fp32.div (sa.mul sb) so) out.zp (a.q ja * b.q jb)
    (r.1, b2n r.2)
  | 3 => (max (a.q ja) (b.q jb) + a.ten.zp, 0)
  | 4 => (min (a.q ja) (b.q jb) + a.ten.zp, 0)
  | _ => (sext 8 (Config.freeAt k i), 0)

/-- ELEMENTWISE. -/
def opElementwise (k : Nat) (o : GOp) (ins : List (Option TVal)) (out : GTen) (s : State) : OpRes :=
  let a := inp ins 0
  let b := inp ins 1
  let e := epiAt o 8
  let fn := o.p8 0
  let at0 := fun (x : TVal) (i : Nat) => castIx x.ten (coordsOf (tdims out) i)
  if a.isInt then
    emitInts out ((List.range out.elems).map (fun i =>
      let r := elemInt k fn i (at0 a i) (at0 b i) a b out s
      (actInt e out i r.1 s, r.2)))
  else
    let f := elemLane fn a.ten b.ten out
    let es := (List.range out.elems).map (fun i =>
      let va := a.val (at0 a i) s
      let vb := b.val (at0 b i) s
      let r := elemFloat f fn va vb
      let y := elemExact fn va vb
      (⟨r, b2n (nanMade [va, vb] r), y, if fn = 3 ∨ fn = 4 then zeroV else f.half y⟩ : El))
    emit out (actAll f out e.act e.alpha e.beta k (2 ^ 32) es s) s

/-- ACTIVATION. -/
def opActivation (k : Nat) (o : GOp) (ins : List (Option TVal)) (out : GTen) (s : State) : OpRes :=
  let e := epiAt o 0
  finish k 0 e out ((List.range out.elems).map (fun i => El.sure ((inp ins 0).val i s))) s

/-! ### Normalization (R141) -/

/-- The mean of exact values, to the working precision. -/
def meanW (vs : List FVal) : FVal := wide.div (fsum vs) (unitN (max 1 vs.length) 0)

/-- A normalized value within its bound. -/
def normPick (k i n : Nat) (vs : List FVal) (yhat : FVal) : El :=
  let m := yhat.abs.add oneV
  let lim := ((unitN (2 * n + 12) (-24)).mul m).add (m.scale2 (-150))
  let v := pick fp32 k i yhat lim
  ⟨v, b2n (nanMade vs v), yhat, lim⟩

/-- LAYERNORM (`centre`) and RMSNORM. -/
def opNorm (centre : Bool) (k : Nat) (o : GOp) (ins : List (Option TVal)) (out : GTen) (s : State) : OpRes :=
  let x := inp ins 0
  let n := tdim x.ten 0
  let eps := f32 (o.p32 0)
  let row := fun (i : Nat) => (List.range n).map (fun c => x.val (i / n * n + c) s)
  let one := fun (i : Nat) =>
    let vs := row i
    let mu := if centre then meanW vs else zeroV
    let ds := vs.map (fun v => wide.add v mu.neg)
    let den := wide.sqrt (wide.add (meanW (ds.map (fun d => wide.mul d d))) eps)
    let e := normPick k i n vs (wide.div (ds.getD (i % n) zeroV) den)
    let g := (inp ins 1).val (i % n) s
    let h := (inp ins 2).val (i % n) s
    match bit (o.p8 4) 0, bit (o.p8 4) 1 with
    | true, true => let y := (g.mul e.y).add h; e.step [g, h] (fp32.fma g e.v h) y (fp32.half y)
    | true, false => let y := g.mul e.y; e.step [g] (fp32.mul g e.v) y (fp32.half y)
    | false, true => let y := e.y.add h; e.step [h] (fp32.add e.v h) y (fp32.half y)
    | false, false => e
  emit out ((List.range out.elems).map one) s

/-- BATCHNORM. -/
def opBatchNorm (ins : List (Option TVal)) (out : GTen) (s : State) : OpRes :=
  emit out ((List.range out.elems).map (fun i =>
    let v := (inp ins 0).val i s
    let g := (inp ins 1).val (i % tdim out 0) s
    let h := (inp ins 2).val (i % tdim out 0) s
    let y := (g.mul v).add h
    (El.sure v).step [g, h] (fp32.fma g v h) y (fp32.half y))) s

/-! ### Data movement (R142) -/

/-- CONVERT. -/
def opConvert (ins : List (Option TVal)) (out : GTen) (s : State) : OpRes :=
  let x := inp ins 0
  if x.isInt && isIntFmt out.fmt then
    emitInts out ((List.range out.elems).map (fun i =>
      let r := requant (fmtBits out.fmt) (fp32.div (intScale x.ten i s) (intScale out i s)) out.zp (x.q i)
      (r.1, b2n r.2)))
  else
    let f := laneFmt out
    emit out ((List.range out.elems).map (fun i =>
      let v := x.val i s
      { El.sure v with b := if out.fmt = 0x0B ∨ out.fmt = 0x0C then f.half v else zeroV })) s

/-- Copy elements, each from an element of an input or a zero pad; the block scales of an MX tensor follow the first element
of each block. -/
def moved (out : GTen) (src : Nat → Option (TVal × Nat)) (s : State) : OpRes :=
  let es := (List.range out.elems).map (fun i =>
    match src i with
    | some (x, j) => x.raw j
    | none => if isIntFmt out.fmt then uenc (fmtBits out.fmt) out.zp else 0)
  let sc := if isMx out.fmt then (List.range ((out.elems + 31) / 32)).map (fun b =>
      match src (32 * b) with
      | some (x, j) => BitVec.ofNat 8 (fieldLe (blockScales x.ten x.bytes s) (j / 32) 1)
      | none => 0#8) else []
  { outs := [packElems out.fmt es ++ sc] }

/-- TRANSPOSE. -/
def opTranspose (o : GOp) (ins : List (Option TVal)) (out : GTen) (s : State) : OpRes :=
  let x := inp ins 0
  moved out (fun i =>
    let cs := coordsOf (tdims out) i
    let axisOf := fun (a : Nat) => (List.range 6).findIdx (fun j => o.p8 j == a)
    some (x, flatOf (tdims x.ten) ((List.range 6).map (fun a => cs.getD (axisOf a) 0)))) s

/-- The input and index along the axis of CONCAT. -/
def concatAt (axis : Nat) : List TVal → Nat → Option (TVal × Nat)
  | [], _ => none
  | x :: xs, i => if i < tdim x.ten axis then some (x, i) else concatAt axis xs (i - tdim x.ten axis)

/-- CONCAT. -/
def opConcat (o : GOp) (ins : List (Option TVal)) (out : GTen) (s : State) : OpRes :=
  let axis := o.p8 0
  moved out (fun i =>
    let cs := coordsOf (tdims out) i
    (concatAt axis (ins.filterMap id) (cs.getD axis 0)).map (fun p => (p.1, flatOf (tdims p.1.ten) (cs.set axis p.2)))) s

/-- SLICE. -/
def opSlice (o : GOp) (ins : List (Option TVal)) (out : GTen) (s : State) : OpRes :=
  let x := inp ins 0
  moved out (fun i =>
    let cs := coordsOf (tdims out) i
    some (x, flatOf (tdims x.ten) (cs.mapIdx (fun a c => o.p32 (4 * a) + c * o.p32 (24 + 4 * a))))) s

/-- PAD. -/
def opPad (o : GOp) (ins : List (Option TVal)) (out : GTen) (s : State) : OpRes :=
  let x := inp ins 0
  moved out (fun i =>
    match coordsOf (tdims out) i with
    | c :: w :: h :: b :: _ =>
      (mapIndex x.ten (o.p8 0) c ((w : Int) - o.p8 3) ((h : Int) - o.p8 1) b).map (fun j => (x, j))
    | _ => none) s

/-- UPSAMPLE. -/
def opUpsample (o : GOp) (ins : List (Option TVal)) (out : GTen) (s : State) : OpRes :=
  let x := inp ins 0
  moved out (fun i =>
    match coordsOf (tdims out) i with
    | c :: w :: h :: b :: _ => some (x, flatOf (tdims x.ten) [c, w / max 1 (o.p8 1), h / max 1 (o.p8 0), b])
    | _ => none) s

/-- RESHAPE. -/
def opReshape (ins : List (Option TVal)) (out : GTen) (s : State) : OpRes :=
  moved out (fun i => some (inp ins 0, i)) s

end Sys2Proof.Machine
end

