-- ==== Sys2Proof/Machine/Grid.lean ====
section
/-!
DEFINITION. Feature fusion on gloves: GRID_SAMPLE and GRID_FUSE (R246, R247, R252).
-/

namespace Sys2Proof.Machine

/-! ### GRID_SAMPLE -/

/-- The centre of a cell at a height, as an FP32 point of the vehicle frame. -/
def cellPoint (o : GOp) (ix iy j : Nat) : List Nat :=
  let at0 := fun (corner : Nat) (i : Nat) =>
    toF32 ((f32 corner).add ((f32 (o.p32 4)).mul (.fin false (2 * i + 1) (-1))))
  [at0 (o.p32 8) ix, at0 (o.p32 12) iy, toF32 ((f32 (o.p32 20)).add ((f32 (o.p32 24)).mul (unitN j 0)))]

/-- Does height `j` of a cell project into the camera? The sampling map is formed at load (and after a seam that changes the
CAMERA stitch), so it is the same for every firing of a generation. -/
def heightSeen (o : GOp) (ix iy j : Nat) (s : State) : Bool :=
  match (curImage s).find 0x07 3 (o.p32 28) with
  | none => false
  | some t =>
    let nonce := 2 ^ 100 + (s.pat.gen * 2 ^ 32 + o.id) * 2 ^ 32 + (iy * 1024 + ix) * 8 + j
    (projectPoint t (rotTrans t 72 (cellPoint o ix iy j)) nonce).isSome

/-- Heights of a cell that project into the camera. -/
def heights (o : GOp) (ix iy : Nat) (s : State) : Nat :=
  ((List.range (o.p8 16)).filter (fun j => heightSeen o ix iy j s)).length

/-- GRID_SAMPLE. The map's coordinates in the feature map carry no rule beyond the projection (R246), so a sampled value is
free; a cell that no height reaches is +0. -/
def opGridSample (k : Nat) (o : GOp) (outs : List GTen) (s : State) : OpRes :=
  let out := outs.getD 0 (gten ⟨4, 1, 0, []⟩)
  let r := emit out ((List.range out.elems).map (fun i =>
    match coordsOf (tdims out) i with
    | _ :: ix :: iy :: _ => if heights o ix iy s = 0 then El.sure zeroV else freeEl fp32 k i
    | _ => El.sure zeroV)) s
  let cnt := (List.range (o.p16 2)).flatMap (fun iy => (List.range (o.p16 0)).map (fun ix =>
    BitVec.ofNat 8 (heights o ix iy s)))
  { r with outs := r.outs ++ [cnt] }

/-! ### GRID_FUSE -/

/-- What GRID_FUSE takes for an input: its grid, its weight w and its confidence c. -/
structure GridIn where
  x : TVal
  w : FVal
  c : FVal
  deriving DecidableEq, Repr

/-- The inputs of an operator with their weights from the FRAME record in IN[N]. -/
def gridIns (o : GOp) (ins : List (Option TVal)) (s : State) : List GridIn :=
  let n := o.p8 0
  let fr := (inp ins n).bytes
  let im := curImage s
  (List.range n).map (fun i =>
    let m := o.p8 (2 + i)
    let used := bit (fieldLe fr 32 4) m
    let c := fp16.decode (fieldLe fr (64 + 2 * m) 2)
    let wt := (((im.of 0x07 2).find? (fun t => t.u32 8 == o.p32 20 && t.u8 16 == m)).map (fun t => f32 (t.u32 28))).getD zeroV
    ⟨inp ins i, if used then wt.mul c else zeroV, c⟩)

/-- Are two inputs in conflict in a cell (R252)? `e` is the cell's element of channel 0. -/
def gridConflict (o : GOp) (a b : GridIn) (e : Nat) (s : State) : Bool :=
  let th := f32 (o.p32 12)
  let ok := fun (g : GridIn) => FVal.lt zeroV g.w && (f32 (o.p32 16)).le g.c
  let va := a.x.val e s
  let vb := b.x.val e s
  bit (o.p8 1) 0 && ok a && ok b && ((th.le va && vb.le th.neg) || (th.le vb && va.le th.neg))

/-- The conflicting pairs i < j of a cell. -/
def cellPairs (o : GOp) (gs : List GridIn) (e : Nat) (s : State) : List (Nat × Nat) :=
  (List.range gs.length).flatMap (fun i => ((List.range gs.length).filter (fun j =>
    decide (i < j) && (match gs[i]?, gs[j]? with
      | some a, some b => gridConflict o a b e s
      | _, _ => false))).map (fun j => (i, j)))

/-- The weighted mean of an element, within its bound. -/
def fuseEl (k i : Nat) (gs : List GridIn) (s : State) : El :=
  if gs.all (fun g => g.w.isZero) then El.sure zeroV
  else
    let ps := gs.map (fun g => (g.w, g.x.val i s))
    let num := fsum (prods ps)
    let den := fsum (gs.map (·.w))
    let lim := (unitN (2 * gs.length + 2) (-24)).mul (fsum ((prods ps).map FVal.abs))
    let v := pickDiv fp32 k i num den lim
    ⟨v, b2n (nanMade (ps.flatMap (fun p => [p.1, p.2])) v), wide.div num den, wide.div lim den⟩

/-- GRID_FUSE. -/
def opGridFuse (k : Nat) (o : GOp) (ins : List (Option TVal)) (outs : List GTen) (s : State) : OpRes :=
  let out := outs.getD 0 (gten ⟨4, 1, 0, []⟩)
  let gs := gridIns o ins s
  let n := gs.length
  let ch := tdim out 0
  let cells := tdim out 1 * tdim out 2
  let pairs := (List.range cells).map (fun q => cellPairs o gs (q * ch) s)
  let r := emit out ((List.range out.elems).map (fun i =>
    if i % ch = 0 ∧ (pairs.getD (i / ch) []).isEmpty = false then El.sure zeroV else fuseEl k i gs s)) s
  let noData := gs.all (fun g => g.w.isZero)
  let flags := pairs.map (fun p => BitVec.ofNat 8 (b2n (!p.isEmpty) + 2 * b2n noData))
  let count := fun (ij : Nat) => ((pairs.filter (fun p => p.contains (ij / n, ij % n))).length : Nat)
  let fr := (inp ins n).bytes
  let tail := [fieldLe fr 0 4, fieldLe fr 4 4]
  { r with outs := r.outs ++ [flags, packElems 0x03 ((List.range (n * n)).map count ++ tail)] }

end Sys2Proof.Machine
end

