-- ==== Sys2Proof/Machine/Ledger.lean ====
section
/-!
DEFINITION. Tickets, receipts, outcomes and the ledger: the meanings of the ledger's commands (R193 to R219).
-/

namespace Sys2Proof.Machine

open Host (Outcome)

/-! ### Intake (R193) -/

/-- Put `b` at offset `o` of a slot's 128 bytes. -/
def putByte (bs : List Byte) (o : Nat) (b : Byte) : List Byte :=
  let full := bs ++ zeroBytes (128 - bs.length)
  full.set o b

/-- One byte reaches a slot: the byte enables of bytes 120 to 127 gather until the landing, which captures the slot. -/
def slotByte (port w slot o : Nat) (b : Byte) (s : State) : State :=
  let key := w * 512 + slot
  let x := tget ({} : Slot) key s.led.slots
  let bs := putByte x.bytes o b
  let tail := if 120 ≤ o ∧ !x.tail.contains o then x.tail ++ [o] else x.tail
  if tail.length = 8 then
    let d := liveDie port s
    let ld : Landing := { window := w, slot := slot, die := d, bytes := bs, stamp := shortStamp d s }
    { s with led := { s.led with slots := tset {} key { bytes := bs, tail := [] } s.led.slots
                                 intake := s.led.intake ++ [ld] } }
  else { s with led := { s.led with slots := tset {} key { bytes := bs, tail := tail } s.led.slots } }

/-- The bytes of a BAR4 write in address order. -/
def windowBytes (port : Nat) : Nat → List Byte → State → State
  | _, [], s => s
  | off, b :: bs, s =>
    windowBytes port (off + 1) bs (slotByte port (off / 65536 % 256) (off % 65536 / 128) (off % 128) b s)

/-- Landings captured by a die that have no verdict yet. -/
def queuedAt (d : Nat) (s : State) : Nat := (s.led.intake.filter (fun l => l.die == d)).length

/-- BAR4_WRITE (R193, R447): held while the receiving die's intake queue is full; a poisoned or ECRC-failed write is
discarded without landing. -/
def bar4Write (port off : Nat) (bytes : List Byte) (ok : Bool) (s : State) : State :=
  if !portUp port s then s
  else if !ok then latch (srcHost port 4) 0 s
  else if s.led.intakeDepth ≤ queuedAt (liveDie port s) s ∨ s.led.heldWrites ≠ [] then
    { s with led := { s.led with heldWrites := s.led.heldWrites ++ [(port, off, bytes)] } }
  else windowBytes port off bytes s

def execBar4Write (t port off : Nat) (bytes : List Byte) (ok : Bool) (s : State) : Outcome State Fault Refusal :=
  .next (bar4Write port off bytes ok (advanceTo t s))

/-- Let the oldest held write through when its queue has room again. -/
def releaseHeld (s : State) : State :=
  match s.led.heldWrites with
  | [] => s
  | (p, off, bs) :: r =>
    if s.led.intakeDepth ≤ queuedAt (liveDie p s) s then s
    else windowBytes p off bs { s with led := { s.led with heldWrites := r } }

/-! ### Verdicts (R197) -/

/-- The first landing whose stream has its home on die `d`, taken out of the queue. -/
def takeLanding (d : Nat) (s : State) : List Landing → Option (Landing × List Landing)
  | [] => none
  | l :: r =>
    if homeOf l.window s = d then some (l, r)
    else match takeLanding d s r with
      | none => none
      | some (x, r') => some (x, l :: r')

/-- Judge one landing: accept it, with its receipt once both journals hold the entry, or write its rejection. -/
def judgeLanding (l : Landing) (s : State) : State :=
  let v := verdictOf l.window (some l.slot) l.bytes s
  if v = 0 then
    let s1 := acceptTicket l.window l.bytes l.stamp false s
    if s1.led.mirrorOk then s1 else ackTicket l.window (fieldLe l.bytes 0 8) s1
  else if v = 5 ∧ !s.led.rcptEnable ∧ !(strm l.window s).secure then s
  else writeReceipt (fieldLe l.bytes 0 8) l.stamp v l.window s

/-- TICKET_VERDICT (R197): the home ledger forms the verdict of the next landing that reached it. The ledger of an isolated die
forms none (R201, R204). -/
def ticketVerdict (home : Nat) (s : State) : State :=
  match takeLanding home s s.led.intake with
  | none => s
  | some (l, r) =>
    if heldGroup (0x100 + l.window) s ∨ !dieUp home s then s else releaseHeld (judgeLanding l { s with led := { s.led with intake := r } })

def execTicketVerdict (t home : Nat) (s : State) : Outcome State Fault Refusal :=
  .next (ticketVerdict home (advanceTo t s))

/-- JOURNAL_MIRROR_ACK (R203): both journals hold the entry, so the ACCEPT receipt is written. -/
def mirrorAck (st q : Nat) (s : State) : State :=
  match ticket st q s with
  | none => s
  | some k =>
    if k.rcptPending ∧ s.led.mirrorOk ∧ dieUp 0 s ∧ dieUp 1 s then
      ackTicket st q (modTicket st q (fun y => { y with inJ0 := true, inJ1 := true }) s)
    else s

def execJournalMirrorAck (t stream seq : Nat) (s : State) : Outcome State Fault Refusal :=
  .next (mirrorAck stream seq (advanceTo t s))

/-! ### Injection (R205) -/

/-- The oldest ticket of a stream that has not been injected. -/
def nextToInject (st : Nat) (s : State) : Option Ticket :=
  s.led.tickets.find? (fun k => k.stream == st && decide (k.phase = .accepted))

/-- The tickets of the stream before it allow the injection: SERIAL needs them ENDED, PIPELINED RUNNING or ENDED. -/
def orderAllows (x : Strm) (k : Ticket) (s : State) : Bool :=
  s.led.tickets.all (fun h => h.stream != k.stream || decide (k.seq ≤ h.seq)
    || (if x.pipelined then decide (h.phase ≠ .accepted) else !ticketOpen h))

/-- The edge of an input or output sub-port of a stream. -/
def edgeOfSub (x : Strm) (sub : Nat) : Option Nat := (x.edges.find? (fun e => e.sub == sub)).map (·.edge)

/-- The input descriptors of a ticket. -/
def inputDescs (k : Ticket) : List Desc := k.descs.filter (fun d => decide (d.sub < 4))

/-- Channels touched by a device range, by its 4 KiB pages. -/
def chansOfRange (a n : Nat) : List Nat :=
  (List.range (min 12 ((a % 4096 + n + 4095) / 4096))).map (fun i => chanOf (a + 4096 * i))

/-- A line of the range is poisoned: the lines of a range are those of its 64-byte units (R380). -/
def rangePoisoned (a n : Nat) (s : State) : Option Nat :=
  (List.range 12).find? (fun ch => (chan ch s).poison.any (fun ln =>
    let b := deviceOf ch (ln * 64)
    decide (a / 64 * 64 ≤ b ∧ b < a + n)))

/-- What stops the injection of a descriptor: cause and part of the void (R380, R387, R451). -/
def descError (x : Strm) (d : Desc) (s : State) : Option (Nat × Nat) :=
  if d.space = 1 then
    (if carried x.port s then none else some (1, 0x48 + x.port))
  else
    match (chansOfRange d.addr d.len).find? (fun ch => !chanUp ch s) with
    | some ch => some (1, 0x10 + ch)
    | none =>
      match rangePoisoned d.addr d.len s with
      | some ch => some (2, 0x10 + ch)
      | none => none

/-- The bytes an input descriptor brings. -/
def descData (d : Desc) (s : State) : List Byte :=
  if d.space = 1 then rdBytes s.host.mem d.addr d.len else devRd d.addr d.len s

/-- Send the input token of one descriptor. -/
def injectDesc (x : Strm) (tg : Tag) (d : Desc) (s : State) : State :=
  match edgeOfSub x d.sub with
  | none => s
  | some e => sendToken e { tags := [tg], data := descData d s } s

/-- The order and the producer credits allow the injection of a ticket, and its home ledger is in service (R204, R205). -/
def mayInject (k : Ticket) (s : State) : Bool :=
  let x := strm k.stream s
  dieUp x.home s && orderAllows x k s && (inputDescs k).all (fun d => match edgeOfSub x d.sub with
    | none => true
    | some e => (edge e s).credits != 0)

/-- A DROP_LATE ticket is past its deadline: in the cycle of the deadline itself an injection goes first (R207, R219). -/
def tooLate (k : Ticket) (now : Nat) (s : State) : Bool :=
  match k.deadline with
  | none => false
  | some d => k.dropLate && (decide (d < now) || (d == now && !((nextToInject k.stream s).map (·.seq) == some k.seq && mayInject k s)))

/-- TICKET_INJECT (R205): when its order and the producer credits allow, and both journals hold it, the ticket's input tokens
are sent and its entry becomes RUNNING. -/
def ticketInject (st : Nat) (s : State) : State :=
  match nextToInject st s with
  | none => s
  | some k =>
    let x := strm st s
    let ds := inputDescs k
    if !mayInject k s ∨ k.rcptPending ∨ tooLate k (stamp (liveDie x.home s) s) s then s
    else
      match ds.findSome? (fun d => descError x d s) with
      | some (c, p) =>
        let s1 := if p = 0x48 + x.port then latch (srcHost x.port 2) 0 s else s
        settle (voidTags [⟨st, k.seq⟩] c p 0xFFFF 0 s1)
      | none =>
        let s1 := ds.foldl (fun a d => injectDesc x ⟨st, k.seq⟩ d a) s
        modTicket st k.seq (fun y => { y with
          phase := .running
          injected := ds.map (·.sub)
          injectAt := some (stamp (liveDie x.home s) s) }) s1

def execTicketInject (t stream : Nat) (s : State) : Outcome State Fault Refusal :=
  .next (ticketInject stream (advanceTo t s))

/-- TICKET_DEADLINE_DROP (R207, R210): a DROP_LATE ticket that reaches its deadline before injection ends FAILED. -/
def deadlineDrop (st q : Nat) (s : State) : State :=
  match ticket st q s with
  | none => s
  | some k =>
    match k.phase, k.deadline with
    | .accepted, some d =>
      if tooLate k (stamp (liveDie (homeOf st s) s) s) s ∧ dieUp (homeOf st s) s then
        let s1 := modTicket st q (fun y => { y with
          phase := .ended, status := 3, cause := 0x12, lateFlag := true, endStamp := d }) s
        settle (watchEnd k { s1 with led := { s1.led with lastEnd := some s.time.now } })
      else s
    | _, _ => s

def execTicketDeadlineDrop (t stream seq : Nat) (s : State) : Outcome State Fault Refusal :=
  .next (deadlineDrop stream seq (advanceTo t s))

/-- The consumer sub-ports of a stream (R192). -/
def outSubs (x : Strm) : List Nat := (x.edges.filter (fun e => decide (4 ≤ e.sub))).map (·.sub)

/-- A HOLD check still has to judge a frame with a tag: a frame open or a token on its way to the check's tap (R331). -/
def checkPending (g : Tag) (s : State) : Bool :=
  s.isl.checks.any (fun c => c.2.declared && c.2.hold
    && (c.2.frames.any (fun f => f.tags.contains g)
      || (edgesTo 6 c.2.id s).any (fun e => (edge e.id s).flight.any (fun k => k.tags.contains g))))

/-- TICKET_ENDED (R206): every consumer edge has delivered its token to the ticket's descriptors and no check is still
to judge it, so its status is fixed. -/
def ticketEnded (st q : Nat) (s : State) : State :=
  match ticket st q s with
  | none => s
  | some k =>
    if k.phase = .running ∧ (outSubs (strm st s)).all (k.outputs.contains ·) ∧ !checkPending ⟨st, q⟩ s ∧ dieUp (homeOf st s) s then
      settle (endTicket st q s)
    else s

def execTicketEnded (t stream seq : Nat) (s : State) : Outcome State Fault Refusal :=
  .next (ticketEnded stream seq (advanceTo t s))

/-! ### Outcomes (R212, R213) -/

/-- The first outcome that reports the measured fault ends its budget (R361 to R363): the four steps in µs. -/
def budgetOutcome (k : Ticket) (s : State) : State :=
  match s.fault.budget with
  | none => s
  | some (_, since, rec, conf, repl) =>
    if k.status = 2 ∧ k.cause = 1 ∧ repl ≠ 0 then
      { s with fault := { s.fault with
          budget := none
          detectUs := satU 16 ((rec - since) / 1000)
          handleUs := satU 16 ((conf - rec) / 1000)
          replaceUs := satU 16 ((repl - conf) / 1000)
          voidUs := satU 16 ((s.time.now - repl) / 1000)
          totalUs := satU 16 ((s.time.now - since) / 1000) } }
    else s

/-- OUTCOME_DELIVER (R212, R219): the lowest ticket not yet delivered is written when it is ENDED and its port is up. -/
def outcomeDeliver (st : Nat) (s : State) : State :=
  match nextToDeliver st s with
  | none => s
  | some k =>
    let x := strm st s
    if k.phase = .ended ∧ !k.rcptPending ∧ (x.secure ∨ carried x.port s) ∧ dieUp x.home s then budgetOutcome k (deliverOutcome k s)
    else s

def execOutcomeDeliver (t stream : Nat) (s : State) : Outcome State Fault Refusal :=
  .next (outcomeDeliver stream (advanceTo t s))

/-- OUTCOME_IRQ_TIMER (R213): COAL_US after the first unsignalled outcome the vector is sent. -/
def outcomeIrqTimer (st : Nat) (s : State) : State :=
  let x := strm st s
  if x.unsig ≠ 0 ∧ x.coalUs ≠ 0 ∧ x.unsigAt + x.coalUs * 1000 ≤ s.time.now then
    sendVec x.port x.vector (modStrm st (fun y => { y with unsig := 0 }) s)
  else s

def execOutcomeIrqTimer (t stream : Nat) (s : State) : Outcome State Fault Refusal :=
  .next (outcomeIrqTimer stream (advanceTo t s))

/-- Consume `n` outcomes of a stream: entries become FREE and their credits return (R202, R217). -/
def consumeOutcomes (st n : Nat) (s : State) : State :=
  modStrm st (fun y => { y with outstanding := y.outstanding - n })
    (setTickets (freeDelivered st n s.led.tickets) s)

/-- OUTCOME_CONS_WRITE (R212): a CONS that moves forward up to PROD consumes; any other is ignored and reported. -/
def consWrite (st v : Nat) (s : State) : State :=
  let x := strm st s
  let c := v % 65536
  let n := (c + 65536 - x.cons) % 65536
  if n ≤ (x.prod + 65536 - x.cons) % 65536 then
    modStrm st (fun y => { y with cons := c }) (consumeOutcomes st n s)
  else latchWrite 0 (0x00031028 + st * 0x40) (modStrm st (fun y => { y with consErr := true }) s)

def execOutcomeConsWrite (t stream value : Nat) (s : State) : Outcome State Fault Refusal :=
  .next (consWrite stream value (advanceTo t s))

/-! ### Loss of a home die (R204) -/

/-- The other die's journal lacks an entry of a stream homed at `d`: its mirror was still to be written (R203). -/
def unmirrored (d : Nat) (s : State) (k : Ticket) : Bool :=
  homeOf k.stream s == d && k.rcptPending && !(if d = 0 then k.inJ1 else k.inJ0)

/-- Take an accept back: for the ledger that takes over it never came about, so NEXT_SEQ, the credit and the REISSUED bit are
those of its own journal (R203, R204). -/
def takeBack (k : Ticket) (s : State) : State :=
  modStrm k.stream (fun y => { y with
    nextSeq := y.nextSeq - 1, outstanding := y.outstanding - 1
    reissued := if k.reissueOf = 0 then y.reissued else y.reissued.filter (· != k.reissueOf) }) s

/-- LEDGER_TAKEOVER (R204): the other ledger becomes home of the lost die's streams: pending receipts are written, the
open entries voided with cause 0x01 and the die's identifier; the lost die's landings are gone, and so are accepts its mirror
lacks. With MIRROR_OK 0 the surviving journal alone holds an entry, and no receipt waits any more (R203). -/
def ledgerTakeover (d : Nat) (s : State) : State :=
  if dieUp d s then s
  else
    let sts := (declaredStreams s).filter (fun st => homeOf st s == d)
    let gone := s.led.tickets.filter (unmirrored d s)
    let s0 := setTickets (s.led.tickets.filter (fun k => !unmirrored d s k)) (gone.foldl (fun a k => takeBack k a) s)
    let pend := s0.led.tickets.filter (·.rcptPending)
    let s1 := pend.foldl (fun a k => ackTicket k.stream k.seq a) s0
    let s2 := voidWhere (fun k => sts.contains k.stream) 1 (4 + d) 0xFFFF 0 s1
    let s3 := sts.foldl (fun a st => modStrm st (fun y => { y with home := 1 - d }) a) s2
    settle { s3 with led := { s3.led with
      up0 := if d = 0 then false else s3.led.up0
      up1 := if d = 0 then s3.led.up1 else false
      mirrorOk := false
      intake := s3.led.intake.filter (fun l => l.die != d) } }

def execLedgerTakeover (t die : Nat) (s : State) : Outcome State Fault Refusal :=
  .next (ledgerTakeover die (advanceTo t s))

end Sys2Proof.Machine
end

