-- ==== Sys2Proof/Machine/Plan.lean ====
section
/-!
DEFINITION. The planner: the space-time map and its epochs, requests, candidate tests, all-at-once and heap search,
results (Planner, R258 to R279).
-/

namespace Sys2Proof.Machine

open Host (Outcome)

/-! ### The map (R258 to R263) -/

/-- A column word with one code below a split and one from it upward (R259, R260). -/
def uniformWord (low high split : Nat) : Nat :=
  (List.range 16).foldl (fun a l => a + (if l < split then low else high) * 4 ^ l) 0

/-- The column word of a version at (ix, iy) in a time layer, newest record first; none = a poisoned block (R262, R278). -/
def colWord : List MapRec → Nat → Nat → Nat → Option Nat
  | [], _, _, _ => some 0x55555555
  | r :: older, t, x, y =>
    match r with
    | .fill lo hi codes x0 y0 x1 y1 =>
      if lo ≤ t ∧ t ≤ hi ∧ x0 ≤ x ∧ x ≤ x1 ∧ y0 ≤ y ∧ y ≤ y1 then
        some (uniformWord (codes % 4) (codes / 4 % 4) (codes / 16 % 16))
      else colWord older t x y
    | .brick tl bx bY cols =>
      if t = tl ∧ x / 8 = bx ∧ y / 8 = bY then some (cols.getD (y % 8 * 8 + x % 8) 0) else colWord older t x y
    | .copy lo hi src x0 y0 x1 y1 =>
      if lo ≤ t ∧ t ≤ hi ∧ x0 ≤ x ∧ x ≤ x1 ∧ y0 ≤ y ∧ y ≤ y1 then colWord older src x y else colWord older t x y
    | .shift n => colWord older (min (t + n) 31) x y
    | .poison tl bx bY => if t = tl ∧ x / 8 = bx ∧ y / 8 = bY then none else colWord older t x y

/-- A column word without the code 0b11. -/
def wordOk (w : Nat) : Bool := (List.range 16).all (fun l => w / 4 ^ l % 4 != 3)

/-- The rectangle of FILL and COPY. -/
def rectOk (bs : List Byte) : Bool :=
  decide (fieldLe bs 6 2 ≤ fieldLe bs 10 2 ∧ fieldLe bs 8 2 ≤ fieldLe bs 12 2 ∧ fieldLe bs 10 2 < 2048 ∧ fieldLe bs 12 2 < 2048)

/-- One record at the head of the bytes, with its length; none where R263 refuses it. -/
def mapRecord (bs : List Byte) : Option (MapRec × Nat) :=
  let b := fun (o : Nat) => fieldLe bs o 1
  let h := fun (o : Nat) => fieldLe bs o 2
  match b 0 with
  | 1 =>
    if bs.length < 16 ∨ b 2 < b 1 ∨ 31 < b 2 ∨ b 3 % 4 = 3 ∨ b 3 / 4 % 4 = 3 ∨ !rectOk bs then none
    else some (.fill (b 1) (b 2) (b 3) (h 6) (h 8) (h 10) (h 12), 16)
  | 2 =>
    let cols := (List.range 64).map (fun i => fieldLe bs (16 + 4 * i) 4)
    if bs.length < 272 ∨ 31 < b 1 ∨ 255 < h 2 ∨ 255 < h 4 ∨ !cols.all wordOk then none
    else some (.brick (b 1) (h 2) (h 4) cols, 272)
  | 3 =>
    if bs.length < 16 ∨ b 2 < b 1 ∨ 31 < b 2 ∨ 31 < b 3 ∨ !rectOk bs then none
    else some (.copy (b 1) (b 2) (b 3) (h 6) (h 8) (h 10) (h 12), 16)
  | _ => none

/-- `n` records in order, which must use up the bytes; the result has the newest first. -/
def mapRecords : Nat → List Byte → List MapRec → Option (List MapRec)
  | 0, bs, acc => if bs.isEmpty then some acc else none
  | n + 1, bs, acc =>
    match mapRecord bs with
    | none => none
    | some (r, l) => mapRecords n (bs.drop l) (r :: acc)

/-- The version an update builds from the current one; none where R263 refuses the update. -/
def buildMap (cur : MapVer) (bs : List Byte) : Option MapVer :=
  let t0 := fieldLe bs 8 8
  let ox := sext 32 (fieldLe bs 16 4)
  let oy := sext 32 (fieldLe bs 20 4)
  let sh := fieldLe bs 1 1
  match fieldLe bs 0 1 with
  | 0 => (mapRecords (fieldLe bs 4 4) (bs.drop 32) []).map (fun r => { cur with t0 := t0, originX := ox, originY := oy, recs := r })
  | 1 =>
    if 31 < sh ∨ t0 ≠ cur.t0 + sh * 100000000 ∨ ox ≠ cur.originX ∨ oy ≠ cur.originY then none
    else (mapRecords (fieldLe bs 4 4) (bs.drop 32) (if sh = 0 then cur.recs else .shift sh :: cur.recs)).map
      (fun r => { cur with t0 := t0, recs := r })
  | _ => none

/-- The planner of a die. -/
def pdie (d : Nat) (s : State) : PlanDie := if d = 0 then s.plan.d0 else s.plan.d1
def modPdie (d : Nat) (f : PlanDie → PlanDie) (s : State) : State :=
  if d = 0 then { s with plan := { s.plan with d0 := f s.plan.d0 } } else { s with plan := { s.plan with d1 := f s.plan.d1 } }

/-- Change every request. -/
def mapReqs (f : PlanReq → PlanReq) (s : State) : State := { s with plan := { s.plan with reqs := s.plan.reqs.map f } }

/-- Tickets take DEGRADED or STALE (R206). -/
def markTags (deg stale : Bool) (tags : List Tag) (s : State) : State :=
  mapTickets (fun k => if ticketOpen k ∧ tags.any (fun g => g.stream == k.stream && g.seq == k.seq) then
    { k with degraded := k.degraded || deg, stale := k.stale || stale } else k) s

/-- A token that the planner holds gives its buffer back. -/
def releaseToken (e : Nat) (s : State) : State :=
  modEdge e (fun y => { y with inUse := y.inUse - 1, creditFlight := y.creditFlight + 1 }) s

/-- A request joins the order of requests (R266): behind those that came before it, and of two that arrive in one cycle in
ascending channel order. -/
def insertReq (r : PlanReq) : List PlanReq → List PlanReq
  | [] => [r]
  | q :: rest =>
    if q.cfg.isNone ∧ q.arrival = r.arrival ∧ r.chan < q.chan then r :: q :: rest else q :: insertReq r rest

/-- A token arrives at the planner (R264, R266): an update goes to both dies, a request into the order of requests. -/
def planToken (g : GEdge) (k : Token) (s : State) : State :=
  let s1 := modEdge g.id (fun y => { y with flight := y.flight.drop 1, inUse := y.inUse + 1 }) s
  if g.dstPort = 0 then
    let put := fun (d : Nat) (a : State) =>
      if dieUp d a then modPdie d (fun p => { p with updates := p.updates ++ [(g.id, k.data, k.tags)] }) a else a
    put 1 (put 0 s1)
  else
    let r : PlanReq :=
      { chan := g.dstPort, edge := g.id, bytes := k.data, tags := k.tags, arrival := stamp (liveDie 0 s) s }
    { s1 with plan := { s1.plan with reqs := insertReq r s1.plan.reqs } }

/-- The update at the head of a die's queue leaves it; its buffer is free once the other die has it no more. -/
def popUpdate (d : Nat) (e : Nat) (s : State) : State :=
  let s1 := modPdie d (fun p => { p with updates := p.updates.drop 1 }) s
  if (pdie (1 - d) s).updates.length < (pdie d s).updates.length then releaseToken e s1 else s1

/-- MAP_UPDATE_BUILT (R262, R263): `used` is the map-pool use after the build, none when the pool ran out. A refusal counts,
raises the map-update source and marks the tickets DEGRADED. -/
def mapBuilt (d : Nat) (used : Option Nat) (s : State) : State :=
  match (pdie d s).updates, (pdie d s).built with
  | (e, bs, tags) :: _, none =>
    if !s.plan.enabled ∨ !dieUp d s then s
    else
      let s1 := popUpdate d e s
      let refuse := fun (f : PlanDie → PlanDie) => markTags true false tags (latch (d * 0x400 + 0x140) 0 (modPdie d f s1))
      match buildMap (pdie d s).cur bs, used with
      | none, _ => refuse (fun p => { p with refused := satAdd 8 p.refused 1 })
      | some _, none => refuse (fun p => { p with overflow := satAdd 8 p.overflow 1 })
      | some v, some n => modPdie d (fun p => { p with built := some v, used := n }) s1
  | _, _ => s

def execMapUpdateBuilt (t die : Nat) (used : Option Nat) (s : State) : Outcome State Fault Refusal :=
  .next (mapBuilt die used (advanceTo t s))

/-- A request is pinned to an epoch. -/
def pinned (ep : Nat) (s : State) : Bool := s.plan.reqs.any (fun r => r.cfg.isSome && r.pin.epoch == ep)

/-- MAP_COMMIT (R264): the built version becomes the next epoch, unless a third epoch would be live. -/
def mapCommit (d : Nat) (s : State) : State :=
  let p := pdie d s
  match p.built with
  | none => s
  | some v =>
    if !dieUp d s then s
    else if p.old.isSome then
      if p.held then s else modPdie d (fun q => { q with held := true, deferred := satAdd 16 q.deferred 1 }) s
    else
      let ep := wrapAdd 16 p.cur.epoch 1
      let s1 := modPdie d (fun q => { q with
        cur := { v with epoch := ep }, old := if pinned p.cur.epoch s then some p.cur else none
        built := none, held := false, commits := satAdd 16 q.commits 1 }) s
      traceEv d (0x30 + 8 * d) 0x50 ep s1

def execMapCommit (t die : Nat) (s : State) : Outcome State Fault Refusal := .next (mapCommit die (advanceTo t s))

/-- Release epochs that nothing pins (R264). -/
def releaseEpochs (s : State) : State :=
  let f := fun (p : PlanDie) =>
    match p.old with
    | none => p
    | some v => if pinned v.epoch s then p else { p with old := none }
  modPdie 0 f (modPdie 1 f s)

/-! ### Slices -/

/-- The slices in service: die × 8 + slice. -/
def sliceUp (n : Nat) (s : State) : Bool := !isIso (0x30 + n) s && dieUp (n / 8) s
def slicesUp (s : State) : List Nat := (List.range 16).filter (fun n => sliceUp n s)

/-- Slices held by started requests. -/
def heldSlices (s : State) : List Nat := s.plan.reqs.flatMap (·.slices)

/-- A free chain of `c` slices on one die (R272). -/
def freeChain (c : Nat) (s : State) : Option (List Nat) :=
  let starts := (List.range 16).filter (fun n => n % 8 % (max 1 c) == 0)
  (starts.map (fun n => (List.range c).map (n + ·))).find? (fun l => l.all (fun n => sliceUp n s && !(heldSlices s).contains n))

/-! ### Requests (R267) -/

/-- The PLAN stitches of a kind, in ascending ID. -/
def planStitch (kind i : Nat) (s : State) : Option Stitch := ((curImage s).of 0x08 kind)[i]?

/-- Header fields of a request. -/
def rq8 (b : List Byte) (o : Nat) : Nat := fieldLe b o 1
def rq32 (b : List Byte) (o : Nat) : Nat := fieldLe b o 4
def rqSource (b : List Byte) : Nat := rq8 b 24
def rqCount (b : List Byte) : Nat := rq32 b 28
def rqDt (b : List Byte) : Nat := rq32 b 40

/-- The search of a request: its own or the PLANNER default. -/
def rqSearch (b : List Byte) (c : PlanCfg) : Nat := if rq8 b 25 = 0 then c.search else rq8 b 25

/-- Records of a LIST payload: COST, poses. -/
def listRecords : Nat → List Byte → Option (List (Nat × List (List Nat)))
  | 0, bs => if bs.isEmpty then some [] else none
  | n + 1, bs =>
    let p := fieldLe bs 4 1
    if bs.length < 8 + 16 * p then none
    else
      let poses := (List.range p).map (fun j => (List.range 4).map (fun k => fieldLe bs (8 + 16 * j + 4 * k) 4))
      (listRecords n (bs.drop (8 + 16 * p))).map ((fieldLe bs 0 4, poses) :: ·)

/-- Paths of a ROADMAP payload, each as its bytes. -/
def roadPaths : Nat → List Byte → Option (List (List Byte))
  | 0, bs => if bs.isEmpty then some [] else none
  | n + 1, bs =>
    let l := 8 + 12 * fieldLe bs 4 1
    if bs.length < l then none else (roadPaths n (bs.drop l)).map (bs.take l :: ·)

/-- REASON of a refused request, 0 when it is accepted: 1 source and search, 2 range, 3 length, 4 index (R274). -/
def rqReason (b : List Byte) (c : PlanCfg) (s : State) : Nat :=
  let src := rqSource b
  let n := rqCount b
  let lat := rq8 b 38
  let acc := rq8 b 39
  let inR := fun (v lo hi : Nat) => decide (lo ≤ v ∧ v ≤ hi)
  let pay := b.drop 128
  if 3 < src ∨ 2 < rq8 b 25 ∨ rqSearch b c ≠ (if src = 2 then 2 else 1) then 1
  else if !inR (rq8 b 26) 1 16 ∨ !inR (rqDt b) 10000 1000000 ∨ (src ≠ 0 ∧ !inR (rq8 b 36) 1 64)
      ∨ !(match src with
          | 0 | 1 => inR n 1 65536
          | 2 => inR n 1 16777216
          | _ => inR n 1 1024 && inR lat 1 16 && inR acc 1 16 && decide (n * lat * acc ≤ 65536)) then 2
  else
    let bad : Nat := (match src with
      | 0 => (match listRecords n pay with
        | none => 3
        | some rs => if rs.all (fun r => inR r.2.length 1 64) then 0 else 2)
      | 3 => if pay.length < 4 * (lat + acc) then 3
        else (match roadPaths n (pay.drop (4 * (lat + acc))) with
          | none => 3
          | some ps => if ps.all (fun p => inR (fieldLe p 4 1) 2 64) then 0 else 2)
      | _ => if pay.isEmpty then 0 else 3)
    if bad ≠ 0 then bad
    else if (planStitch 2 (rq8 b 27) s).isNone ∨ (src = 2 ∧ (planStitch 3 (rq8 b 37) s).isNone) then 4
    else 0

/-- The newest epoch committed on both dies that are in service (R276). -/
def newestCommon (s : State) : MapVer :=
  if !dieUp 0 s then s.plan.d1.cur
  else if !dieUp 1 s then s.plan.d0.cur
  else if (s.plan.d1.cur.epoch + 65536 - s.plan.d0.cur.epoch) % 65536 < 32768 then s.plan.d0.cur
  else s.plan.d1.cur

/-- A pin keeps its epoch live on a die that has moved on. -/
def keepLive (v : MapVer) (d : Nat) (s : State) : State :=
  modPdie d (fun p => if p.cur.epoch = v.epoch ∨ p.old.isSome then p else { p with old := some v }) s

/-- The current epoch of the sending die. -/
def epochNow (s : State) : MapVer := (pdie (liveDie 0 s) s).cur

/-- Replace request `i`. -/
def setReq (i : Nat) (r : PlanReq) (s : State) : State := { s with plan := { s.plan with reqs := s.plan.reqs.set i r } }

/-- The first request that has not been started. -/
def nextReq (s : State) : Option (Nat × PlanReq) :=
  ((List.range s.plan.reqs.length).zip s.plan.reqs).find? (fun x => x.2.cfg.isNone)

/-- The first result of a request (R274): nothing tested. -/
def emptyResult (status reason flags : Nat) (pin : MapVer) (s : State) : PlanResult :=
  { endStamp := stamp (liveDie 0 s) s, epoch := pin.epoch, epochNow := (epochNow s).epoch, status := status, reason := reason
    flags := flags }

/-- PLAN_REQUEST_START (R266, R271, R272, R276, R278): the next request in order binds its values, its slices and its epoch;
a wrong one is REFUSED, one with no slice in service ends TIMEOUT at once. -/
def requestStart (s : State) : State :=
  match nextReq s with
  | none => s
  | some (i, r) =>
    if !s.plan.enabled ∨ heldGroup 0x050 s then s
    else
      let c := s.plan.cfg
      let v := newestCommon s
      let dl := if fieldLe r.bytes 16 8 = 0 then r.arrival + s.plan.budgetUs * 1000 else fieldLe r.bytes 16 8
      let r1 := { r with cfg := some c, pin := v, deadline := dl }
      let go := fun (q : PlanReq) => keepLive v 0 (keepLive v 1 (setReq i q s))
      let reason := rqReason r.bytes c s
      if reason ≠ 0 then go { r1 with result := some (emptyResult 3 reason 0 v s) }
      else if (slicesUp s).isEmpty then go { r1 with degraded := true, result := some (emptyResult 2 0 0x10 v s) }
      else if rqSearch r.bytes c = 2 then
        match freeChain c.chain s with
        | none => s
        | some l => go { r1 with slices := l }
      else
        let busy := s.plan.reqs.any (fun q => match q.cfg with
          | none => false
          | some k => rqSearch q.bytes k == 1 && !q.slices.isEmpty)
        let free := (slicesUp s).filter (fun n => !(heldSlices s).contains n)
        if busy ∨ free.isEmpty then s else go { r1 with slices := free }

def execPlanRequestStart (t : Nat) (s : State) : Outcome State Fault Refusal := .next (requestStart (advanceTo t s))

/-! ### Tests (R269, R270) -/

/-- n / d rounded to nearest, ties to even. -/
def divRne (n : Int) (d : Nat) : Int :=
  let q := n / d
  let r := n % d
  if (d : Int) < 2 * r ∨ (2 * r = d ∧ q % 2 = 1) then q + 1 else q

/-- A finite value times 2^k, as an integer (k large enough for the formats used). -/
def scaledInt (v : FVal) (k : Nat) : Int :=
  match v with
  | .fin neg n e => alignTo neg n (e + k) 0
  | _ => 0

/-- The yaw bin of R269. -/
def yawBin (yaw bins : Nat) : Nat :=
  match f32 yaw with
  | .fin neg n e => (divRne (scaledInt (.fin neg n e) 149 * bins * 2 ^ 235) twoPi % bins).toNat
  | _ => (Config.oddValue yaw % bins).toNat

/-- The column of a coordinate (R269): floor(10·X − ORIGIN) in FP32; within 2^-10 of an edge either side. -/
def column (x : Nat) (origin : Int) : Int :=
  match fp32.sub (fp32.mul (.ofInt 10) (f32 x)) (.ofInt origin) with
  | .fin neg n e =>
    let v := FVal.fin neg n e
    let near := FVal.toIntRne v
    if FVal.lt ((v.add (FVal.ofInt near).neg).abs) (.fin false 1 (-10)) then
      (if Config.edgeSide x origin then near else near - 1)
    else v.floor
  | _ => Config.oddValue x

/-- The time layer of a pose, and whether it was clamped (R269). -/
def timeLayer (t0req : Nat) (t : Nat) (v : MapVer) : Nat × Bool :=
  let ns : Int := (match f32 t with
    | .fin neg n e => ((FVal.fin neg n e).mul (.ofInt 1000000000)).toIntRne
    | _ => Config.oddValue t)
  let l := ((t0req : Int) + ns - v.t0) / 100000000
  ((clampI 0 31 l).toNat, decide (l < 0 ∨ 31 < l))

/-- The entries of a footprint's yaw bin: DX, DY, LO, HI. -/
def footprint (f : Stitch) (bin : Nat) : List (Int × Int × Nat × Nat) :=
  let n := f.u8 9
  (List.range n).map (fun i =>
    let o := 16 + 4 * n * bin + 4 * i
    (sext 8 (f.u8 o), sext 8 (f.u8 (o + 1)), f.u8 (o + 2) % 16, f.u8 (o + 2) / 16))

/-- What a set of tests found. -/
structure Tested where
  tests : Nat := 0
  unknown : Nat := 0
  hit : Option Nat := none
  clamped : Bool := false
  poisoned : Bool := false
  deriving DecidableEq, Repr

/-- One test: 0 FREE, 1 UNKNOWN, 2 OCCUPIED, and whether the word was poisoned. -/
def oneTest (v : MapVer) (outside t : Nat) (x y : Int) (lo hi : Nat) : Nat × Bool :=
  let layers := (List.range 16).filter (fun l => decide (lo ≤ l ∧ l ≤ hi))
  let judge := fun (w : Nat) =>
    if layers.any (fun l => w / 4 ^ l % 4 == 2) then 2 else if layers.any (fun l => w / 4 ^ l % 4 == 1) then 1 else 0
  if 0 ≤ x ∧ x < 2048 ∧ 0 ≤ y ∧ y < 2048 then
    match colWord v.recs t x.toNat y.toNat with
    | none => (2, true)
    | some w => (judge w, false)
  else (judge (uniformWord outside outside 0), false)

/-- Judge the poses from index `j` on, ascending, up to the first that collides (R270). -/
def judgePoses (v : MapVer) (c : PlanCfg) (fp : Stitch) (t0 : Nat) : Nat → List (List Nat) → Tested → Tested
  | _, [], a => a
  | j, p :: r, a =>
    let tl := timeLayer t0 (p.getD 3 0) v
    let ix := column (p.getD 0 0) v.originX
    let iy := column (p.getD 1 0) v.originY
    let res := (footprint fp (yawBin (p.getD 2 0) (fp.u8 8))).map (fun e =>
      oneTest v c.outside tl.1 (ix + e.1) (iy + e.2.1) e.2.2.1 e.2.2.2)
    let unk := (res.filter (fun x => x.1 == 1)).length
    let hit := res.any (fun x => x.1 == 2) || (!c.cost && decide (unk ≠ 0))
    let b : Tested := { tests := a.tests + res.length, unknown := a.unknown + unk, clamped := a.clamped || tl.2
                        poisoned := a.poisoned || res.any (·.2), hit := if hit then some j else none }
    if hit then b else judgePoses v c fp t0 (j + 1) r b

/-- A judged candidate. -/
structure Judged where
  cand : Nat
  cost : Nat
  poses : List (List Nat)
  t : Tested
  deriving DecidableEq, Repr

/-- The score of a candidate that does not collide (R270). -/
def candScore (b : List Byte) (c : PlanCfg) (k : Judged) : Nat :=
  if c.cost then toF32 (fp32.add (f32 k.cost) (fp32.mul (f32 (rq32 b 100)) (.ofInt k.t.unknown))) else k.cost

/-- The score makes the candidate invalid. -/
def badScore (e : Nat) : Bool :=
  match f32 e with
  | .fin _ _ _ => false
  | _ => true

/-- The time of pose `j` of a formed candidate (R268): (j + 1) × DT, as FP32 seconds. -/
def poseTime (b : List Byte) (j : Nat) : Nat := toF32 (fp32.div (.ofInt ((j + 1) * rqDt b)) (.ofInt 1000000))

/-- `n` poses from pose `first` on: their X, Y and YAW as formed, their times as R268 gives them. -/
def timedPoses (b : List Byte) (first n : Nat) (ps : List (List Nat)) : List (List Nat) :=
  (List.range n).map (fun i =>
    let p := ps.getD i []
    [p.getD 0 0, p.getD 1 0, p.getD 2 0, poseTime b (first + i)])

/-- Candidates of a request of sources LIST, SAMPLE and ROADMAP: number of them, and candidate `n` (R268): LIST as given,
SAMPLE of POSES poses, ROADMAP of at most POSES, as it ends at the path's end. -/
def candCount (b : List Byte) : Nat := if rqSource b = 3 then rqCount b * rq8 b 38 * rq8 b 39 else rqCount b
def candAt (b : List Byte) (recs : List (Nat × List (List Nat))) (paths : List (List Byte)) (n : Nat) : List (List Nat) × Nat :=
  match rqSource b with
  | 0 => let r := recs.getD n (0, []); (r.2, r.1)
  | 1 =>
    let o := philox (rq32 b 32) n
    let k := Config.sampleCand (b.take 128) (o.getD 0 0) (o.getD 1 0)
    (timedPoses b 0 (rq8 b 36) k.1, k.2)
  | _ =>
    let lat := rq8 b 38
    let acc := rq8 b 39
    let k := Config.roadmapCand (b.take 128) (paths.getD (n / (lat * acc)) []) (rq32 b (128 + 4 * (n / acc % lat)))
      (rq32 b (128 + 4 * lat + 4 * (n % acc)))
    (timedPoses b 0 (min (rq8 b 36) k.1.length) k.1, k.2)

/-- The FOOTPRINT stitch of a request. -/
def rqFootprint (b : List Byte) (s : State) : Stitch := (planStitch 2 (rq8 b 27) s).getD ⟨8, 2, 0, []⟩

/-- Judge candidates by number against a version. -/
def judgeCands (b : List Byte) (c : PlanCfg) (v : MapVer) (ns : List Nat) (s : State) : List Judged :=
  let recs := (listRecords (rqCount b) (b.drop 128)).getD []
  let paths := (roadPaths (rqCount b) (b.drop (128 + 4 * (rq8 b 38 + rq8 b 39)))).getD []
  ns.map (fun n =>
    let k := candAt b recs paths n
    ⟨n, k.2, k.1, judgePoses v c (rqFootprint b s) (fieldLe b 8 8) 0 k.1 {}⟩)

/-! ### Lists (R271) -/

/-- Put a candidate into an ordered list. -/
def insertBy {α : Type} (before : α → α → Bool) (x : α) : List α → List α
  | [] => [x]
  | y :: r => if before x y then x :: y :: r else y :: insertBy before x r

/-- Order a list. -/
def orderBy {α : Type} (before : α → α → Bool) (xs : List α) : List α := xs.foldr (insertBy before) []

/-- The order of found candidates: ascending score, then number. -/
def foundBefore (a b : PlanCand) : Bool :=
  FVal.lt (f32 a.score) (f32 b.score) || (!FVal.lt (f32 b.score) (f32 a.score) && decide (a.cand ≤ b.cand))

/-- The order of partial candidates: descending FIRST_HIT, then ascending COST, then number. -/
def partBefore (a b : PlanCand) : Bool := decide (b.firstHit < a.firstHit) || (a.firstHit == b.firstHit && foundBefore a b)

/-- A list entry of a judged candidate. -/
def listEntry (score : Nat) (k : Judged) : PlanCand := ⟨k.cand, score, satU 16 k.t.unknown, k.t.hit.getD 0xFF, k.poses⟩

/-- The list of an all-at-once search over what was judged, and whether it is partial (R271). -/
def allList (b : List Byte) (c : PlanCfg) (js : List Judged) : List PlanCand × Bool :=
  let k := rq8 b 26
  let free := js.filter (fun j => j.t.hit.isNone)
  let good := (free.map (fun j => listEntry (candScore b c j) j)).filter (fun x => !badScore x.score)
  if good.isEmpty then
    let ps := (js.filter (fun j => j.t.hit.isSome)).map (fun j => listEntry j.cost j)
    ((orderBy partBefore ps).take k, !ps.isEmpty)
  else ((orderBy foundBefore good).take k, false)

/-- RFLAGS. -/
def planFlags (stale rechecked part clamped deg pruned : Bool) : Nat :=
  b2n stale + 2 * b2n rechecked + 4 * b2n part + 8 * b2n clamped + 16 * b2n deg + 32 * b2n pruned

/-- The result of an all-at-once search; `all` says that every candidate was judged. -/
def allResult (r : PlanReq) (c : PlanCfg) (js : List Judged) (all : Bool) (s : State) : PlanResult :=
  let l := allList r.bytes c js
  let found := if l.2 then 0 else l.1.length
  { endStamp := stamp (liveDie 0 s) s, epoch := r.pin.epoch, epochNow := (epochNow s).epoch
    status := if !all then 2 else if found = 0 then 1 else 0
    flags := planFlags false false l.2 (js.any (·.t.clamped)) (r.degraded || js.any (·.t.poisoned)) false
    found := found, checked := js.length, collided := (js.filter (fun j => j.t.hit.isSome)).length
    tests := (js.map (·.t.tests)).foldl (· + ·) 0
    invalid := (js.filter (fun j => j.t.hit.isNone && badScore (candScore r.bytes c j))).length
    list := l.1 }

/-- Add the tests of the judged candidates to their slices: candidate n to the n mod S-th (R271). -/
def countTests (slices : List Nat) (js : List (Nat × Nat)) (s : State) : State :=
  if slices.isEmpty then s
  else js.foldl (fun a j =>
    let n := slices.getD (j.1 % slices.length) 0
    modPdie (n / 8) (fun p => { p with slices := tmod {} (n % 8) (fun x => { x with tests := x.tests + j.2 }) p.slices }) a) s

/-! ### Heap search (R272, R273) -/

/-- A node: X, Y, YAW, V, KAPPA, COST; parent; depth; primitive; the poses of its extension. -/
structure HNode where
  st : List Nat
  parent : Nat
  depth : Nat
  prim : Nat
  poses : List (List Nat)
  unknown : Nat
  deriving DecidableEq, Repr

/-- A heap search in progress. `heap` is in the order of R272. -/
structure HSearch where
  nodes : List HNode := []
  heap : List (Nat × Nat) := []
  listed : List Nat := []
  expansions : Nat := 0
  collided : Nat := 0
  tests : Nat := 0
  drops : Nat := 0
  clamped : Bool := false
  poisoned : Bool := false
  /-- 0 running, 1 heap empty, 2 K goals, 3 limit -/
  fin : Nat := 0
  deriving DecidableEq, Repr

/-- The order of heap entries: lowest KEY, then lowest node. -/
def keyBefore (a b : Nat × Nat) : Bool := FVal.lt (f32 a.1) (f32 b.1) || (!FVal.lt (f32 b.1) (f32 a.1) && decide (a.2 ≤ b.2))

/-- dist of R273: Euclidean distance to the goal, in FP32. -/
def goalDist (b : List Byte) (st : List Nat) : FVal :=
  let dx := fp32.sub (f32 (st.getD 0 0)) (f32 (rq32 b 104))
  let dy := fp32.sub (f32 (st.getD 1 0)) (f32 (rq32 b 108))
  fp32.sqrt (fp32.add (fp32.mul dx dx) (fp32.mul dy dy))

/-- The KEY of a node: its cost (0 for the root) plus w_h · dist / v_max. -/
def nodeKey (b : List Byte) (n : HNode) : Nat :=
  toF32 (fp32.add (f32 (n.st.getD 5 0)) (fp32.div (fp32.mul (f32 (rq32 b 116)) (goalDist b n.st)) (f32 (rq32 b 80))))

/-- Push a node: a full node pool drops the push; a full heap drops the push or its largest entry (R273). A push that is
dropped allocates no node; an entry that is dropped leaves its node allocated. -/
def heapPush (b : List Byte) (cap : Nat) (n : HNode) (h : HSearch) : HSearch :=
  let e := (nodeKey b n, h.nodes.length)
  let largest := h.heap.getLast?.any (fun l => !FVal.lt (f32 e.1) (f32 l.1))
  if cap ≤ h.nodes.length ∨ (cap ≤ h.heap.length ∧ largest) then { h with drops := h.drops + 1 }
  else
    let full := decide (cap ≤ h.heap.length)
    { h with
      nodes := h.nodes ++ [n]
      heap := insertBy keyBefore e (if full then h.heap.dropLast else h.heap)
      drops := h.drops + b2n full }

/-- The primitives of a PRIMSET stitch, each as its bytes. -/
def primitives (st : Stitch) : List (List Byte) := (List.range (st.u8 8)).map (fun i => slice st.bytes (16 + 16 * i) 16)

/-- extend(n, p) of R273: STEPS poses from the node's state, stepped as SAMPLE with v held in [0, V_MAX] and κ in
[−K_MAX, K_MAX] (R268); the new X, Y, YAW, V, KAPPA and COST. -/
def extendBy (b : List Byte) (n : HNode) (p : List Byte) : List (List Nat) × List Nat :=
  let x := Config.extendNode (b.take 128) (n.st ++ [n.depth]) p
  let ps := timedPoses b n.depth (fieldLe p 8 1) x.1
  let last := ps.getLast?.getD n.st
  let kMax := rq32 b 84
  (ps, last.take 3 ++ [fclamp (x.2.getD 0 0) 0 (rq32 b 80), fclamp (x.2.getD 1 0) (fneg kMax) kMax, x.2.getD 2 0])

/-- Expand node `i` by every primitive. -/
def expand (b : List Byte) (c : PlanCfg) (v : MapVer) (fp : Stitch) (cap i : Nat) (ps : List (List Byte)) (h : HSearch) : HSearch :=
  match h.nodes[i]? with
  | none => h
  | some n =>
    ((List.range ps.length).zip ps).foldl (fun a p =>
      let x := extendBy b n p.2
      let depth := n.depth + fieldLe p.2 8 1
      if rq8 b 36 < depth then a
      else
        let tt := judgePoses v c fp (fieldLe b 8 8) n.depth x.1 {}
        let a1 := { a with tests := a.tests + tt.tests, clamped := a.clamped || tt.clamped, poisoned := a.poisoned || tt.poisoned }
        if tt.hit.isSome then { a1 with collided := a1.collided + 1 }
        else heapPush b cap ⟨x.2, i, depth, p.1, x.1, n.unknown + tt.unknown⟩ a1) h

/-- The loop of R273, with at most `limit` expansions. -/
def searchLoop (b : List Byte) (c : PlanCfg) (v : MapVer) (fp : Stitch) (cap limit : Nat) (ps : List (List Byte)) : Nat → HSearch → HSearch
  | 0, h => h
  | fuel + 1, h =>
    if h.fin ≠ 0 then h
    else if limit ≤ h.expansions then { h with fin := 3 }
    else
      match h.heap with
      | [] => { h with fin := 1 }
      | e :: r =>
        let h1 := { h with heap := r }
        let st := (h.nodes.getD e.2 ⟨[], 0, 0, 0, [], 0⟩).st
        if FVal.le (goalDist b st) (f32 (rq32 b 112)) then
          let l := h.listed ++ [e.2]
          searchLoop b c v fp cap limit ps fuel { h1 with listed := l, fin := if l.length = rq8 b 26 then 2 else 0 }
        else searchLoop b c v fp cap limit ps fuel (expand b c v fp cap e.2 ps { h1 with expansions := h1.expansions + 1 })

/-- Run a search up to a number of expansions. -/
def heapSearch (r : PlanReq) (c : PlanCfg) (limit : Nat) (s : State) : HSearch :=
  let b := r.bytes
  let cap := 4096 * c.chain
  let root : HNode := ⟨(List.range 5).map (fun k => rq32 b (44 + 4 * k)) ++ [0], 0xFFFF, 0, 0, [], 0⟩
  let ps := match planStitch 3 (rq8 b 37) s with
    | none => []
    | some st => primitives st
  searchLoop b c r.pin (rqFootprint b s) cap (min limit (rqCount b)) ps (min limit (rqCount b) + rq8 b 26 + 1)
    (heapPush b cap root {})

/-- The path of a node, rebuilt through PARENT. -/
def nodePath (h : HSearch) : Nat → Nat → List (List Nat)
  | 0, _ => []
  | n + 1, i =>
    match h.nodes[i]? with
    | none => []
    | some x => if x.parent = 0xFFFF then [] else nodePath h n x.parent ++ x.poses

/-- The list entry of a node: its cost-to-come as score. -/
def nodeEntry (h : HSearch) (i : Nat) : PlanCand :=
  let n := h.nodes.getD i ⟨[], 0, 0, 0, [], 0⟩
  ⟨i, n.st.getD 5 0, satU 16 n.unknown, 0xFF, nodePath h 65 i⟩

/-- The node of least dist, ties to the lower KEY, then the lower index. -/
def closest (b : List Byte) (h : HSearch) : Option Nat :=
  let key := fun (i : Nat) => let n := h.nodes.getD i ⟨[], 0, 0, 0, [], 0⟩; (goalDist b n.st, nodeKey b n)
  (List.range h.nodes.length).foldl (fun a i =>
    match a with
    | none => some i
    | some j =>
      let x := key i
      let y := key j
      if FVal.lt x.1 y.1 || (!FVal.lt y.1 x.1 && FVal.lt (f32 x.2) (f32 y.2)) then some i else some j) none

/-- The result of a heap search (R273, R275); `ended` forces TIMEOUT. -/
def heapResult (r : PlanReq) (h : HSearch) (ended : Bool) (s : State) : PlanResult :=
  let found := h.listed.length
  let status := if ended then 2 else if found ≠ 0 then 0 else if h.fin = 1 then 1 else 2
  let part := decide (found = 0 ∧ status = 2)
  let l := if part then ((closest r.bytes h).map (fun i => [nodeEntry h i])).getD [] else h.listed.map (nodeEntry h)
  { endStamp := stamp (liveDie 0 s) s, epoch := r.pin.epoch, epochNow := (epochNow s).epoch, status := status
    flags := planFlags false false (part && !l.isEmpty) h.clamped (r.degraded || h.poisoned) (decide (h.drops ≠ 0))
    found := found, checked := h.expansions, collided := h.collided, tests := h.tests, list := l }

/-- Count a heap search's tests and drops on the first slice of its chain. -/
def countHeap (slices : List Nat) (h : HSearch) (s : State) : State :=
  match slices with
  | [] => s
  | n :: _ => modPdie (n / 8) (fun p => { p with slices := tmod {} (n % 8) (fun x =>
      { x with tests := x.tests + h.tests, drops := satAdd 16 x.drops h.drops }) p.slices }) s

/-! ### Ends of a search (R274 to R276) -/

/-- Test a listed candidate once more. -/
def recheckCand (r : PlanReq) (c : PlanCfg) (v : MapVer) (s : State) (k : PlanCand) : PlanCand × Tested :=
  let t := judgePoses v c (rqFootprint r.bytes s) (fieldLe r.bytes 8 8) 0 k.poses {}
  (k, t)

/-- RECHECK = BEST against the current epoch (R276): colliding candidates leave the list, partial ones are re-ordered. -/
def recheck (r : PlanReq) (c : PlanCfg) (v : MapVer) (x : PlanResult) (s : State) : PlanResult :=
  let ks := x.list.map (recheckCand r c v s)
  let hits := (ks.filter (fun k => k.2.hit.isSome)).length
  let tests := (ks.map (·.2.tests)).foldl (· + ·) 0
  let flags := x.flags ||| 2 ||| (if ks.any (·.2.poisoned) then 16 else 0) ||| (if ks.any (·.2.clamped) then 8 else 0)
  let x1 := { x with flags := flags, collided := x.collided + hits, tests := x.tests + tests, epoch := v.epoch, epochNow := v.epoch }
  if bit x.flags 2 then
    { x1 with list := orderBy partBefore (ks.map (fun k => { k.1 with firstHit := k.2.hit.getD 0xFF })) }
  else
    let l := (ks.filter (fun k => k.2.hit.isNone)).map (·.1)
    { x1 with list := l, found := l.length, status := if x.status = 0 ∧ l.isEmpty then 1 else x.status }

/-- Fix a result: a stale one is rechecked where RECHECK = BEST and the deadline has not ended it. -/
def fixResult (r : PlanReq) (c : PlanCfg) (x : PlanResult) (again : Bool) (s : State) : PlanResult :=
  let v := epochNow s
  if v.epoch = r.pin.epoch ∨ !c.recheck ∨ !again then x else recheck r c v x s

/-- The deadline of a request has come. -/
def pastDeadline (r : PlanReq) (s : State) : Bool := decide (r.deadline ≤ stamp (liveDie 0 s) s)

/-- Request `i`, started and without a result. -/
def running (i : Nat) (s : State) : Option (PlanReq × PlanCfg) :=
  match s.plan.reqs[i]? with
  | none => none
  | some r =>
    match r.cfg, r.result with
    | some c, none => some (r, c)
    | _, _ => none

/-- PLAN_SEARCH_END (R271, R273, R275, R276): request `i` was searched to its end before its deadline. -/
def searchEnd (i : Nat) (s : State) : State :=
  match running i s with
  | none => s
  | some (r, c) =>
    if pastDeadline r s then s
    else if rqSearch r.bytes c = 2 then
      let h := heapSearch r c (rqCount r.bytes) s
      setReq i { r with result := some (fixResult r c (heapResult r h false s) true s) } (countHeap r.slices h s)
    else
      let js := judgeCands r.bytes c r.pin (List.range (candCount r.bytes)) s
      setReq i { r with result := some (fixResult r c (allResult r c js true s) true s) }
        (countTests r.slices (js.map (fun j => (j.cand, j.t.tests))) s)

def execPlanSearchEnd (t req : Nat) (s : State) : Outcome State Fault Refusal := .next (searchEnd req (advanceTo t s))

/-- End a running request early with what was judged: candidate numbers, or the expansions of a heap search. -/
def endEarly (i : Nat) (done : List Nat) (expansions : Nat) (ended : Bool) (s : State) : State :=
  match running i s with
  | none => s
  | some (r, c) =>
    if rqSearch r.bytes c = 2 then
      let h := heapSearch r c expansions s
      setReq i { r with result := some (fixResult r c (heapResult r h ended s) false s) } (countHeap r.slices h s)
    else
      let ns := (List.range (candCount r.bytes)).filter (done.contains ·)
      let js := judgeCands r.bytes c r.pin ns s
      setReq i { r with result := some (fixResult r c (allResult r c js false s) false s) }
        (countTests r.slices (js.map (fun j => (j.cand, j.t.tests))) s)

/-- PLAN_DEADLINE (R275): tests of request `i` stop at its deadline with `done` candidates judged, or after a number of
expansions; a request still waiting to start ends TIMEOUT too. -/
def planDeadline (i : Nat) (done : List Nat) (expansions : Nat) (s : State) : State :=
  match s.plan.reqs[i]? with
  | none => s
  | some r =>
    match r.cfg with
    | some _ => if pastDeadline r s then endEarly i done expansions false s else s
    | none =>
      let dl := if fieldLe r.bytes 16 8 = 0 then r.arrival + s.plan.budgetUs * 1000 else fieldLe r.bytes 16 8
      let r1 := { r with cfg := some s.plan.cfg, pin := epochNow s, deadline := dl }
      if pastDeadline r1 s then setReq i { r1 with result := some (emptyResult 2 0 0 (epochNow s) s) } s else s

def execPlanDeadline (t req : Nat) (done : List Nat) (expansions : Nat) (s : State) : Outcome State Fault Refusal :=
  .next (planDeadline req done expansions (advanceTo t s))

/-! ### Results (R274) -/

/-- A list entry of the result tensor. -/
def candBytes (k : PlanCand) : List Byte :=
  leBytes 4 k.cand ++ leBytes 4 k.score ++ leBytes 2 k.unknown ++ leBytes 1 k.firstHit ++ leBytes 1 k.poses.length ++ zeroBytes 4

/-- The 64 poses of a list entry, unused ones +0. -/
def poseBytes (k : PlanCand) : List Byte :=
  ((k.poses.take 64).flatMap (fun p => (List.range 4).flatMap (fun i => leBytes 4 (p.getD i 0))))
    ++ zeroBytes (16 * (64 - min 64 k.poses.length))

/-- The 16,704 bytes of the result tensor. -/
def resultBytes (b : List Byte) (x : PlanResult) : List Byte :=
  let l := x.list.take 16
  b.take 8 ++ leBytes 8 x.endStamp ++ leBytes 2 x.epoch ++ leBytes 2 x.epochNow ++ leBytes 1 x.status ++ leBytes 1 x.flags
    ++ leBytes 1 x.found ++ leBytes 1 l.length ++ leBytes 4 x.checked ++ leBytes 4 x.collided ++ leBytes 8 x.tests
    ++ leBytes 4 x.invalid ++ leBytes 1 x.reason ++ zeroBytes 19
    ++ l.flatMap candBytes ++ zeroBytes (16 * (16 - l.length)) ++ l.flatMap poseBytes ++ zeroBytes (1024 * (16 - l.length))

/-- The oldest request of a channel, with its index. -/
def chanHead (ch : Nat) (s : State) : Option (Nat × PlanReq) :=
  ((List.range s.plan.reqs.length).zip s.plan.reqs).find? (fun x => x.2.chan == ch)

/-- The planner's result edge of a channel. -/
def resultEdges (ch : Nat) (s : State) : List GEdge :=
  (curImage s).edges.filter (fun e => e.srcKind == 4 && e.srcPort == ch + 4)

/-- PLAN_RESULT_SEND (R266, R274, R276): the result of the channel's oldest request goes out once its edges have a credit;
slices, request buffer and epoch are released. -/
def resultSend (ch : Nat) (s : State) : State :=
  match chanHead ch s with
  | none => s
  | some (i, r) =>
    match r.result with
    | none => s
    | some x0 =>
      let es := resultEdges ch s
      if es.any (fun e => (edge e.id s).credits == 0) then s
      else
        let now := (epochNow s).epoch
        let stale := decide (x0.status ≠ 3) && decide (now ≠ x0.epoch)
        let x := { x0 with epochNow := now, flags := if stale then x0.flags ||| 1 else x0.flags }
        let deg := bit x.flags 4
        let tk : Token := { tags := r.tags, data := resultBytes r.bytes x, degraded := deg, stale := stale }
        let s1 := es.foldl (fun a e => sendToken e.id tk a) s
        let s2 := releaseToken r.edge (markTags deg stale r.tags s1)
        let s3 := { s2 with plan := { s2.plan with reqs := s2.plan.reqs.eraseIdx i } }
        let s4 := modPdie (liveDie 0 s) (fun p => { p with
          done := satAdd 16 p.done 1
          stale := if stale then satAdd 16 p.stale 1 else p.stale
          noPath := if x.status = 1 then satAdd 16 p.noPath 1 else p.noPath
          timeout := if x.status = 2 then satAdd 16 p.timeout 1 else p.timeout }) s3
        releaseEpochs s4

def execPlanResultSend (t chan : Nat) (s : State) : Outcome State Fault Refusal := .next (resultSend chan (advanceTo t s))

/-- PLANNER_TEST_INJECTION (R367): a wrong answer raises the slice's logic source. -/
def plannerTest (n : Nat) (ok : Bool) (s : State) : State :=
  if ok ∨ !sliceUp n s then s else latch (srcSlice (n / 8) (n % 8) 0) 0 s

def execPlannerTestInjection (t unit : Nat) (ok : Bool) (s : State) : Outcome State Fault Refusal :=
  .next (plannerTest unit ok (advanceTo t s))

/-! ### Losses (R278) -/

/-- A request loses slices: an all-at-once request goes on with the rest, or ends without one; a heap search ends TIMEOUT
after a number of expansions that nothing fixes. -/
def reqLost (lost : List Nat) (i : Nat) (s : State) : State :=
  match running i s with
  | none => s
  | some (r, c) =>
    if !r.slices.any (lost.contains ·) then s
    else
      let r1 := { r with degraded := true, slices := r.slices.filter (fun n => !lost.contains n) }
      if rqSearch r.bytes c = 2 then
        let f := drawFree (setReq i { r with degraded := true } s)
        endEarly i [] f.1 true f.2
      else if r1.slices.isEmpty then setReq i { r1 with result := some (emptyResult 2 0 0x10 r.pin s) } s
      else setReq i r1 s

/-- Slices leave service. -/
def slicesLost (lost : List Nat) (s : State) : State := (List.range s.plan.reqs.length).foldl (fun a i => reqLost lost i a) s

/-- An uncorrectable error in a slice's heap or pool ends its search (R278). -/
def heapError (n : Nat) (s : State) : State :=
  (List.range s.plan.reqs.length).foldl (fun a i =>
    match running i a with
    | none => a
    | some (r, c) =>
      if r.slices.contains n ∧ rqSearch r.bytes c = 2 then
        let f := drawFree (setReq i { r with degraded := true } a)
        endEarly i [] f.1 true f.2
      else a) s

/-- An uncorrectable error in a map block of a die: the brick's block is poisoned in the versions that hold it (R278). -/
def poisonMap (d tl bx bY : Nat) (s : State) : State :=
  let f := fun (v : MapVer) => { v with recs := .poison tl bx bY :: v.recs }
  mapReqs (fun r => if r.cfg.isSome then { r with pin := f r.pin } else r)
    (modPdie d (fun p => { p with cur := f p.cur, old := p.old.map f, built := p.built.map f }) s)

/-- The planner of a die is lost with it (R278): its updates go on the other die. -/
def planDieLost (d : Nat) (s : State) : State :=
  let s1 := slicesLost ((List.range 8).map (8 * d + ·)) s
  let n := (pdie d s1).updates.length - (pdie (1 - d) s1).updates.length
  let gone := (pdie d s1).updates.take n
  gone.foldl (fun a u => releaseToken u.1 a) (modPdie d (fun _ => {}) s1)

/-- Epoch 0 (R264): the empty map at the present stamp, with nothing built. -/
def planEpoch0 (s : State) : State :=
  let v : MapVer := { t0 := stamp (liveDie 0 s) s }
  let f := fun (p : PlanDie) => { p with cur := v, old := none, built := none, held := false }
  modPdie 0 f (modPdie 1 f s)

end Sys2Proof.Machine
end

