-- ==== Sys2Proof/Machine/Attn.lean ====
section
/-!
DEFINITION. Attention, attention over a scene memory and softmax (R150 to R158, R166).
-/

namespace Sys2Proof.Machine

/-- One key that a query row sees: its exact score, |τ| Σ|q k|, and the element of its value. -/
structure KeyTerm where
  score : FVal
  mag : FVal
  v : FVal
  deriving DecidableEq, Repr

/-- What R158 takes from the operator. -/
structure AttnPar where
  tau : FVal
  d : Nat
  mx : Bool
  /-- the P format is BF16 -/
  bf : Bool
  /-- split count -/
  split : Nat
  deriving DecidableEq, Repr

/-- The relative part of the bound: (e^(2Δ) − 1) + (2L + 4s + 8) · 2⁻²⁴ + u_P, over the unmasked keys (R158). -/
def attnGrow (p : AttnPar) (ks : List KeyTerm) : FVal :=
  let delta := ((unitN (p.d + 1) (-24)).mul ((ks.map (·.mag)).foldl FVal.max2 zeroV)).add
    (if p.mx then (unitN p.d (-150)).mul p.tau.abs else zeroV)
  ((wide.add (expW (delta.scale2 1)) oneV.neg).add (unitN (2 * ks.length + 4 * p.split + 8) (-24))).add
    (if p.bf then unitN 1 (-8) else unitN 1 (-11))

/-- The exact weights of keys, not normalized, and their sum. -/
def attnWeights (live : List KeyTerm) : List FVal × FVal :=
  let top := (live.map (·.score)).foldl FVal.max2 (.inf true)
  let ws := live.map (fun q => expW (q.score.add top.neg))
  (ws, ws.foldl wide.add zeroV)

/-- The exact result and its bound (R158), from the unmasked keys and those of them whose score is above -∞. -/
def attnExact (p : AttnPar) (ks live : List KeyTerm) : FVal × FVal :=
  let w := attnWeights live
  let pv := prods ((w.1.map (fun x => wide.div x w.2)).zip (live.map (·.v)))
  let sv := fsum (pv.map FVal.abs)
  let tail := if p.bf then zeroV
    else (unitN ks.length (-25)).mul ((ks.map (fun q => q.v.abs)).foldl FVal.max2 zeroV)
  (fsum pv, ((wide.mul sv (attnGrow p ks)).add tail).add (sv.scale2 (-150)))

/-- An element with infinite values among its keys (R67, R154 step 6): a weight that cannot round to 0 in the P format carries
the infinity, opposite ones and a weight of 0 are invalid, and whether a smaller weight rounds to 0 is free. -/
def attnInf (k i : Nat) (ks live : List KeyTerm) : El :=
  let top := (live.map (·.score)).foldl FVal.max2 (.inf true)
  let infs := live.filter (fun q => !isFin q.v)
  let small := infs.any (fun q => FVal.lt (expW (q.score.add top.neg)) (unitN 1 (-24)))
  let dead := ks.any (fun q => decide (q.score = .inf true) && !isFin q.v)
  let v := if dead ∨ (small ∧ Config.freeAt k i % 2 = 1) then .nan else fsum (infs.map (·.v))
  ⟨v, b2n (decide (v = .nan)), v, zeroV⟩

/-- An output element before the output rounding (R154, R155, R158); `first` marks the element at which the row's events are
counted. A NaN or +∞ score makes the row NaN; a row with no key or with all scores -∞ is 0. -/
def attnEl (k i : Nat) (first : Bool) (p : AttnPar) (ks : List KeyTerm) : El :=
  let live := ks.filter (fun q => decide (q.score ≠ .inf true))
  if live.any (fun q => !isFin q.score) then { El.sure .nan with ev := b2n first }
  else if live.isEmpty then El.sure zeroV
  else if ks.any (fun q => decide (q.v = .nan)) then El.sure .nan
  else if ks.any (fun q => !isFin q.v) then attnInf k i ks live
  else
    let r := attnExact p ks live
    ⟨pick fp32 k i r.1 r.2, 0, r.1, r.2⟩

/-- A score with its magnitude. -/
def scoreOf (tau : FVal) (qk : List (FVal × FVal)) : FVal × FVal :=
  (tau.mul (fsum (prods qk)), tau.abs.mul (fsum ((prods qk).map FVal.abs)))

/-- A key from a query row `q`, its key elements and its value element. -/
def keyTerm (tau : FVal) (q ks : List FVal) (v : FVal) : KeyTerm :=
  let r := scoreOf tau (q.zip ks)
  ⟨r.1, r.2, v⟩

/-- Does query row `i` of head `h` see key `j` (R151)? -/
def admits (o : GOp) (mask : TVal) (i j h : Nat) : Bool :=
  match o.p8 12 with
  | 0 => true
  | 1 => decide (j ≤ i + o.p32 20)
  | 2 => decide (j ≤ i + o.p32 20 ∧ i + o.p32 20 < j + o.p32 16)
  | _ => decide (rawElem mask.ten.fmt mask.bytes (castIx mask.ten [j, i, h]) ≠ 0)

/-- The elements of a query row. -/
def queryRow (q : TVal) (d i h b : Nat) (s : State) : List FVal :=
  (List.range d).map (fun c => q.val (flatOf (tdims q.ten) [c, i, h, b]) s)

/-- The key head of a query head. -/
def kvHead (o : GOp) (h : Nat) : Nat := h / max 1 (o.p16 0 / max 1 (o.p16 2))

/-- The keys in operands `kv` (K) and `kv + 1` (V) that a row sees. -/
def currentKeys (o : GOp) (ins : List (Option TVal)) (kv c i h b : Nat) (s : State) : List KeyTerm :=
  let q := inp ins 0
  let kk := inp ins kv
  let v := inp ins (kv + 1)
  let tau := f32 (o.p32 8)
  let row := queryRow q (o.p16 4) i h b s
  let g := kvHead o h
  ((List.range (tdim kk.ten 1)).filter (fun j => admits o (inp ins 3) i j h)).map (fun j =>
    keyTerm tau row ((List.range (o.p16 4)).map (fun e => kk.val (flatOf (tdims kk.ten) [e, j, g, b]) s))
      (v.val (flatOf (tdims v.ten) [c, j, g, b]) s))

/-- The palm budget of a glove (R143). -/
def gloveBudget : Nat := 245760

/-- Bytes that a block of `b` keys with a query tile of `qt` rows needs (R153). -/
def attnSet (d dv eq ek ev b qt : Nat) : Nat := 2 * b * (d * ek + dv * ev) + qt * d * eq + qt * b * 4 + qt * (dv + 2) * 4

/-- Block size and query tile (R153): the largest block for which some query tile fits, with the largest such tile; `log2` 0
lets the fitter choose. None when a forced block does not fit. -/
def attnTile (d dv eq ek ev log2 : Nat) : Option (Nat × Nat) :=
  (if log2 = 0 then [4096, 2048, 1024, 512, 256, 128, 64, 32, 16] else [2 ^ log2]).findSome? (fun b =>
    ([128, 64, 32, 16].find? (fun qt => decide (attnSet d dv eq ek ev b qt ≤ gloveBudget))).map (fun qt => (b, qt)))

/-- Element size in bytes of an attention operand. -/
def elSize (f : Nat) : Nat := fmtBits f / 8

/-- The tile of an attention operator from the formats of Q, K and V. -/
def attnTileOf (o : GOp) (fq fk fv log2 : Nat) : Option (Nat × Nat) :=
  attnTile (o.p16 4) (o.p16 6) (elSize fq) (elSize fk) (elSize fv) log2

/-- The split count of a query row (R153): the blocks of `t.1` keys that hold a pair admitted for some row of its query tile of
`t.2` rows, of `lq` rows and `lk` keys. -/
def splitCount (o : GOp) (mask : TVal) (t : Nat × Nat) (lq lk r h : Nat) : Nat :=
  let rows := (List.range t.2).filterMap (fun i => let x := r / t.2 * t.2 + i; if x < lq then some x else none)
  ((List.range ((lk + t.1 - 1) / t.1)).filter (fun n =>
    (List.range t.1).any (fun c => let j := n * t.1 + c; decide (j < lk) && rows.any (fun i => admits o mask i j h)))).length

/-- The block a softmax row is cut into (R157): 4,096 elements fit every budget. -/
def softBlock (log2 : Nat) : Nat := if log2 = 0 then 4096 else 2 ^ log2

/-- ATTENTION; `single` takes the split count as 1 (R81). -/
def opAttention (single : Bool) (k : Nat) (o : GOp) (ins : List (Option TVal)) (out : GTen) (s : State) : OpRes :=
  let t := (attnTileOf o (inp ins 0).ten.fmt (inp ins 1).ten.fmt (inp ins 2).ten.fmt (o.p8 13)).getD (16, 16)
  let p : AttnPar := ⟨f32 (o.p32 8), o.p16 4, isMx (inp ins 0).ten.fmt, (inp ins 2).ten.fmt == 0x0A, 1⟩
  emit out ((List.range out.elems).map (fun i =>
    match coordsOf (tdims out) i with
    | c :: r :: h :: b :: _ =>
      let n := if single then 1 else splitCount o (inp ins 3) t (tdim out 1) (tdim (inp ins 1).ten 1) r h
      attnEl k i (c == 0) { p with split := n } (currentKeys o ins 1 c r h b s)
    | _ => El.sure zeroV)) s

/-! ### Reading a scene memory (R166) -/

/-- The scene memory that a tensor is. -/
def sceneOf (tensor : Nat) (s : State) : Option (Nat × SceneMem) :=
  s.scene.find? (fun e => e.2.declared && e.2.tensor == tensor)

/-- The VALID entries, ascending by PAGE_SEQ. -/
def validPages (x : SceneMem) : List ScenePage :=
  (x.pages.filter (fun g => g.st == .valid)).mergeSort (fun a b => decide (a.seq ≤ b.seq))

/-- The pages a reader takes: the newest MAX_PAGES, 0 = all. -/
def readPages (o : GOp) (x : SceneMem) : List ScenePage :=
  let vs := validPages x
  if o.p16 34 = 0 then vs else vs.drop (vs.length - o.p16 34)

/-- The keys of a page for one key head. -/
def pageKeys (o : GOp) (x : SceneMem) (mt : GTen) (g : ScenePage) (row : List FVal) (c h : Nat) (s : State) :
    List KeyTerm :=
  let pv : TVal := ⟨mt, g.data⟩
  let w := tdim mt 0
  (List.range (2 ^ x.pageLog2)).map (fun j =>
    let base := (j * tdim mt 2 + kvHead o h) * w
    keyTerm (f32 (o.p32 8)) row ((List.range (o.p16 4)).map (fun e => pv.val (base + e) s)) (pv.val (base + o.p16 4 + c) s))

/-- The attention mass of each page in one row (R165) with its bound; NaN where the row is. -/
def rowMass (p : AttnPar) (cur : List KeyTerm) (pages : List (List KeyTerm)) : List (FVal × FVal) :=
  let ks := cur ++ pages.flatten
  let live := fun (l : List KeyTerm) => l.filter (fun q => decide (q.score ≠ .inf true))
  if (live ks).any (fun q => !isFin q.score) then pages.map (fun _ => (.nan, zeroV))
  else if (live ks).isEmpty then pages.map (fun _ => (zeroV, zeroV))
  else
    let top := ((live ks).map (·.score)).foldl FVal.max2 (.inf true)
    let l := (attnWeights (live ks)).2
    let tail := if p.bf then zeroV else unitN ks.length (-25)
    pages.map (fun g =>
      let m := ((live g).map (fun q => wide.div (expW (q.score.add top.neg)) l)).foldl wide.add zeroV
      (m, (wide.mul m (attnGrow p ks)).add tail))

/-- A reader's operands and memory as the rows of MEM_ATTENTION use them. -/
structure MemRead where
  x : SceneMem
  mt : GTen
  cur : Bool
  pages : List ScenePage
  tile : Nat × Nat
  par : AttnPar

/-- What MEM_ATTENTION reads; none without its memory. -/
def memRead (o : GOp) (ins : List (Option TVal)) (s : State) : Option MemRead :=
  match o.ins[1]?.bind (fun t => sceneOf t s), o.ins[1]?.bind (fun t => (curImage s).tensor t) with
  | some (_, x), some mt => some {
      x := x, mt := mt, cur := bit (o.p8 32) 1, pages := readPages o x
      tile := (attnTileOf o (inp ins 0).ten.fmt mt.fmt mt.fmt x.pageLog2).getD (2 ^ x.pageLog2, 16)
      par := ⟨f32 (o.p32 8), o.p16 4, false, mt.fmt == 0x0A, 1⟩ }
  | _, _ => none

/-- The keys of a row: current ones, and those of each page read. -/
def memKeys (q : MemRead) (o : GOp) (ins : List (Option TVal)) (c r h b : Nat) (s : State) :
    List KeyTerm × List (List KeyTerm) :=
  let row := queryRow (inp ins 0) (o.p16 4) r h b s
  (if q.cur then currentKeys o ins 2 c r h b s else [], q.pages.map (fun g => pageKeys o q.x q.mt g row c h s))

/-- The split count of a row: the pages read, and the current blocks of P keys that are not masked as a whole (R166). -/
def memSplit (q : MemRead) (o : GOp) (ins : List (Option TVal)) (r h : Nat) : Nat :=
  q.pages.length + (if q.cur then
    splitCount o (inp ins 3) q.tile (tdim (inp ins 0).ten 1) (tdim (inp ins 2).ten 1) r h else 0)

/-- The mass m_k of each page read (R165): the mean over batch, heads and rows, an FP32 value within twice the bound that R158
gives the weights (assumption 151). -/
def memMass (q : MemRead) (k : Nat) (o : GOp) (ins : List (Option TVal)) (s : State) : List (Nat × Nat) :=
  let x := (inp ins 0).ten
  let rows := (List.range (tdim x 3)).flatMap (fun b => (List.range (tdim x 2)).flatMap (fun h =>
    (List.range (tdim x 1)).map (fun r =>
      let ks := memKeys q o ins 0 r h b s
      rowMass { q.par with split := memSplit q o ins r h } ks.1 ks.2)))
  let n := unitN (max 1 rows.length) 0
  q.pages.mapIdx (fun i g =>
    let col := rows.map (fun r => r.getD i (zeroV, zeroV))
    let y := wide.div (fsum (col.map (·.1))) n
    let lim := (wide.div (fsum (col.map (·.2))) n).add ((y.mul (unitN (rows.length + 4) (-24))))
    (g.seq, toF32 (pick fp32 k (2 ^ 48 + g.seq) y (lim.scale2 1))))

/-- MEM_ATTENTION. With MASK TENSOR no operand holds the mask (R166), and the rows are free. -/
def opMemAttention (single : Bool) (k : Nat) (o : GOp) (ins : List (Option TVal)) (out : GTen) (s : State) : OpRes :=
  match memRead o ins s with
  | none => { outs := [freeBytes k 0 out.size] }
  | some q =>
    { emit out ((List.range out.elems).map (fun i =>
      match coordsOf (tdims out) i with
      | c :: r :: h :: b :: _ =>
        if q.cur ∧ o.p8 12 = 3 then freeEl fp32 k i
        else
          let ks := memKeys q o ins c r h b s
          attnEl k i (c == 0) { q.par with split := if single then 1 else memSplit q o ins r h } (ks.1 ++ ks.2.flatten)
      | _ => El.sure zeroV)) s with mass := if bit (o.p8 32) 0 then memMass q k o ins s else [] }

/-! ### Softmax (R157) -/

/-- SOFTMAX. DESIGN CHOICE (assumption 142): a row with a +∞ input counts one NaN event for each of its elements whose own
input is +∞; R77 does not say how many events the row is. -/
def opSoftmax (single : Bool) (k : Nat) (o : GOp) (ins : List (Option TVal)) (out : GTen) (s : State) : OpRes :=
  let x := inp ins 0
  let n := tdim x.ten 0
  let b := softBlock (o.p8 0)
  let sp := if single then 1 else (n + b - 1) / b
  let one := fun (i : Nat) =>
    let vs := (List.range n).map (fun c => x.val (i / n * n + c) s)
    if vs.any (fun v => decide (v = .nan)) then El.sure .nan
    else if vs.any (fun v => decide (v = .inf false)) then
      { El.sure .nan with ev := b2n (decide (vs.getD (i % n) zeroV = .inf false)) }
    else if vs.all (fun v => decide (v = .inf true)) then El.sure zeroV
    else
      let top := vs.foldl FVal.max2 (.inf true)
      let ws := vs.map (fun v => expW (v.add top.neg))
      let y := wide.div (ws.getD (i % n) zeroV) (ws.foldl wide.add zeroV)
      let lim := (y.mul (unitN (n + 4 * sp + 8) (-24))).add (y.scale2 (-150))
      ⟨pick fp32 k i y lim, 0, y, lim⟩
  emit out ((List.range out.elems).map one) s

end Sys2Proof.Machine
end

