-- ==== Sys2Proof/Machine/Island.lean ====
section
/-!
DEFINITION. The safety islands: the voted core, silence, checks and their windows, the minimal-risk trajectory, deadline
watches and the mailbox (Safety islands and the plausibility checker, R320 to R345 but for the self-test of gloves).
-/

namespace Sys2Proof.Machine

open Host (Outcome)

/-! ### The voted core (R320 to R325) -/

/-- Sources of an island's collector. -/
def isrc (i idx : Nat) : Nat := i * 0x400 + idx

/-- Both islands run in split mode. -/
def bothSplit (s : State) : Bool := s.isl.a.vote == .split && s.isl.b.vote == .split

/-- The island that hosts what island `i` owns: itself when voted, else the other when that one is (R324, R325). -/
def hostIsland (i : Nat) (s : State) : Option Nat :=
  if islandVoted i s then some i else if islandVoted (1 - i) s then some (1 - i) else none

/-- Empty the windows of the checks that island `i` judges (R324). -/
def emptyWindows (i : Nat) (s : State) : State :=
  let f := fun (c : Check) => if hostIsland c.owner s = some i then { c with window := [], raised := false } else c
  { s with isl := { s.isl with checks := tmapAll {} (fun _ => f) s.isl.checks } }

/-- An island goes SILENT (R324): its cores in reset, its SAFE pin asserted, its functions with the other island. -/
def goSilent (i : Nat) (s : State) : State :=
  if !islandRuns i s then s
  else
    let s1 := modIsland i (fun x => { x with vote := .silent, testing := false, due := none, asm := none, msg := none })
      (emptyWindows i s)
    settle (latch (isrc i 0x1AB) 0 (modColl i (fun c => { c with pinLow := true }) s1))

/-- ISLAND_HEARTBEAT_CHECK (R320): the peer's heartbeat is read; missing for 300 µs it raises the peer-lost source. -/
def heartbeatCheck (i : Nat) (s : State) : State :=
  if !islandRuns i s ∨ !s.power.on then s
  else if islandRuns (1 - i) s then modIsland i (fun x => { x with peerLost := false, peerBeat := s.time.now }) s
  else if max (island i s).peerBeat s.sec.pgoodAt + 300000 ≤ s.time.now ∧ !(island i s).peerLost then
    latch (isrc i 0x1A8) 0 (modIsland i (fun x => { x with peerLost := true }) s)
  else s

def execIslandHeartbeatCheck (t island : Nat) (s : State) : Outcome State Fault Refusal :=
  .next (heartbeatCheck island (advanceTo t s))

/-- VOTER_MISMATCH (R322, R323): a 2-to-1 majority of TRIPLE continues with a core test due; no majority, PAIR, or a core
test running ends in SILENT. Split mode has no voter (R325). -/
def voterMismatch (i : Nat) (minority : Option Nat) (s : State) : State :=
  let s1 := latch (isrc i 0x1A9) 0 s
  match (island i s).vote, minority with
  | .triple, some m =>
    if (island i s).testing then goSilent i s1
    else modIsland i (fun x => { x with due := some (x.due.getD (m, s.time.now)) }) s1
  | .triple, none => goSilent i s1
  | .pair, _ => goSilent i s1
  | _, _ => s

def execVoterMismatch (t island : Nat) (minority : Option Nat) (s : State) : Outcome State Fault Refusal :=
  .next (voterMismatch island minority (advanceTo t s))

/-- CORE_TEST_START (R323). -/
def coreTestStart (i : Nat) (s : State) : State :=
  if islandVoted i s then modIsland i (fun x => { x with testing := true }) s else s

def execCoreTestStart (t island : Nat) (s : State) : Outcome State Fault Refusal :=
  .next (coreTestStart island (advanceTo t s))

/-- MOD_ISL_STATUS.RETIRED for a core (0 A, 1 B, 2 C). -/
def retiredCode (core : Nat) : Nat := if core = 0 then 3 else core

/-- CORE_TEST_DONE (R322, R323): which core failed, if one did. -/
def coreTestDone (i : Nat) (failed : Option Nat) (s : State) : State :=
  let x := island i s
  if !x.testing then s
  else
    let s1 := modIsland i (fun y => { y with testing := false, due := none, tests := satAdd 16 y.tests 1 }) s
    match x.vote, failed with
    | .triple, none => modIsland i (fun y => { y with transient := if x.due.isSome then satAdd 16 y.transient 1 else y.transient }) s1
    | .triple, some c =>
      let odd : Bool := (match x.due with
        | none => false
        | some d => d.1 != c)
      latch (isrc i 0x1AA) c (modIsland i (fun y => { y with
        vote := .pair, retired := retiredCode c, unexplained := if odd then y.unexplained + 1 else y.unexplained }) s1)
    | .pair, some _ => goSilent i s1
    | _, _ => s1

def execCoreTestDone (t island : Nat) (failed : Option Nat) (s : State) : Outcome State Fault Refusal :=
  .next (coreTestDone island failed (advanceTo t s))

/-- ISLAND_MONITOR_TRIP (R322, last row). -/
def execIslandMonitorTrip (t island : Nat) (s : State) : Outcome State Fault Refusal :=
  .next (goSilent island (advanceTo t s))

/-- VOTER_INJECTION (R345): a miss makes the island SILENT. -/
def voterInjection (i : Nat) (ok : Bool) (s : State) : State := if ok ∨ !islandVoted i s then s else goSilent i s

def execVoterInjection (t island : Nat) (ok : Bool) (s : State) : Outcome State Fault Refusal :=
  .next (voterInjection island ok (advanceTo t s))

/-- CHECKER_INJECTION (R345): an injected failing frame of a check kind that is not caught is a checker fault. -/
def checkerInjection (i kind : Nat) (caught : Bool) (s : State) : State :=
  if caught ∨ !islandVoted i s then s else goSilent i (latch (isrc i 0x1AD) kind s)

def execCheckerInjection (t island kind : Nat) (caught : Bool) (s : State) : Outcome State Fault Refusal :=
  .next (checkerInjection island kind caught (advanceTo t s))

/-! ### Checks (R327 to R332) -/

/-- A check, and a change of one. -/
def check (c : Nat) (s : State) : Check := tget {} c s.isl.checks
def modCheck (c : Nat) (f : Check → Check) (s : State) : State :=
  { s with isl := { s.isl with checks := tmod {} c f s.isl.checks } }

/-- The check of a CHECK stitch. -/
def checkOf (id : Nat) (s : State) : Option Nat := (s.isl.checks.find? (fun c => c.2.declared && c.2.id == id)).map (·.1)

/-- The edges into a check's tap. -/
def tapEdges (c : Nat) (s : State) : List GEdge := edgesTo 6 (check c s).id s

/-- Put a token into the first open frame that lacks its sub-port, or into a new frame (R328). -/
def addToken (c : Check) (sub : Nat) (k : Token) (st now : Nat) : List ChkFrame → List ChkFrame
  | [] => [{ toks := [(sub, k.data)], tags := k.tags, quad := if sub = 0 then k.quad else 0xFFFF, firstStamp := st
             lastAt := now, number := c.nextFrame, samples := c.samples, verdictUs := c.verdictUs, p := c.p }]
  | f :: r =>
    if f.toks.any (fun x => x.1 == sub) then f :: addToken c sub k st now r
    else { f with toks := f.toks ++ [(sub, k.data)], tags := (f.tags ++ k.tags).eraseDups
                  quad := if sub = 0 then k.quad else f.quad, lastAt := now } :: r

/-- CHECK_TOKEN_RX (R328): the token of an edge into a check tap opens or completes a frame; its credit stays with the
frame until the verdict. No frame opens while a seam of the CHECK parameters is TAKING (R112). -/
def checkToken (e : Nat) (s : State) : State :=
  match gEdgeOf e s, arriving e s with
  | some g, some k =>
    match (if g.dstKind = 6 then checkOf g.dst s else none) with
    | none => s
    | some c =>
      match hostIsland (check c s).owner s with
      | none => s
      | some i =>
        let x := check c s
        let fr := addToken x g.dstPort k (stamp i s) s.time.now x.frames
        let opens := decide (fr.length ≠ x.frames.length)
        if opens ∧ heldGroup 0x060 s then s
        else
          modCheck c (fun y => { y with frames := fr, nextFrame := if opens then y.nextFrame + 1 else y.nextFrame })
            (modEdge e (fun y => { y with flight := y.flight.drop 1, inUse := y.inUse + 1 }) s)
  | _, _ => s

def execCheckTokenRx (t edge : Nat) (s : State) : Outcome State Fault Refusal := .next (checkToken edge (advanceTo t s))

/-- A frame holds a token of every edge of its tap. -/
def frameFull (c : Nat) (f : ChkFrame) (s : State) : Bool :=
  (tapEdges c s).all (fun e => f.toks.any (fun x => x.1 == e.dstPort))

/-- The oldest full frame of a check. -/
def fullFrame (c : Nat) (s : State) : Option ChkFrame := (check c s).frames.find? (fun f => frameFull c f s)

/-- The bytes of a sub-port of a frame. -/
def frameTok (f : ChkFrame) (sub : Nat) : List Byte := ((f.toks.find? (fun x => x.1 == sub)).map (·.2)).getD []

/-- The indices sampled (R329): all of them, or the first distinct values of the generator. -/
def sampled (i c : Nat) (f : ChkFrame) (n : Nat) : List Nat :=
  if f.samples = 0 ∨ n ≤ f.samples then List.range n
  else distinctMod (Config.checkSeed i c) f.number n f.samples (64 * n) 0 []

/-- The smallest of a list of numbers, with the rest. -/
def insertNat (x : Nat) : List Nat → List Nat
  | [] => [x]
  | y :: r => if x ≤ y then x :: y :: r else y :: insertNat x r

/-- Ascending order. -/
def sortNat (xs : List Nat) : List Nat := xs.foldr insertNat []

/-- Elements the checker can judge within VERDICT_US: 1.6 G a second (R329). -/
def judgeLimit (f : ChkFrame) : Nat := 1600 * f.verdictUs

/-- The indices that are judged, in index order, and whether they are a prefix only. -/
def judged (i c : Nat) (f : ChkFrame) (n : Nat) : List Nat × Bool :=
  let ix := sortNat (sampled i c f n)
  (ix.take (judgeLimit f), decide (judgeLimit f < ix.length))

/-- Parameter `k` of a frame as a value. -/
def frameP (f : ChkFrame) (k : Nat) : FVal := f32 (f.p.getD k 0)

/-- |a − b| in FP64. -/
def dist64 (a b : FVal) : FVal := (fp64.sub a b).abs

/-- An element passes (R329). `y` is the judged element, `o` the one of sub-port 1, `prev` that of the previous frame. -/
def elemPass (kind : Nat) (f : ChkFrame) (y o : FVal) (prev : Option FVal) (dt : FVal) : Bool :=
  match kind with
  | 1 => FVal.le (frameP f 0) y && FVal.le y (frameP f 1)
  | 2 => decide (y ≠ .nan) && (match prev with
      | none => true
      | some z => FVal.le (dist64 y z) (fp64.add (fp64.mul (frameP f 0) dt) (frameP f 1)))
  | 3 => FVal.le (dist64 o (fp64.add (fp64.mul (frameP f 2) y) (frameP f 3))) (fp64.add (frameP f 0) (fp64.mul (frameP f 1) o.abs))
  | _ => FVal.le (dist64 y o) (fp64.add (frameP f 0) (fp64.mul (frameP f 1) o.abs))

/-- Seconds between two stamps in ns, in FP64. -/
def seconds (a b : Nat) : FVal := fp64.div (.ofInt ((b : Int) - a)) (.ofInt 1000000000)

/-- Every judged element of a frame of kind 1 to 4 passes (R329). -/
def framePass (i c : Nat) (f : ChkFrame) (s : State) : Bool :=
  let x := check c s
  match (curImage s).tensor x.tensor with
  | none => true
  | some g =>
    let o := (((tapEdges c s).find? (fun e => e.dstPort == 1)).bind (fun e => (curImage s).tensor e.tensor)).getD g
    let dt := match x.prev with
      | none => .fin false 0 0
      | some p => seconds p.2 f.firstStamp
    (judged i c f g.elems).1.all (fun j =>
      elemPass x.kind f (fp64.round (realAt g (frameTok f 0) j s)) (fp64.round (realAt o (frameTok f 1) j s))
        (x.prev.map (fun p => fp64.round (realAt g p.1 j s))) dt)

/-! Where a spot recompute runs (R330) -/

/-- A stack holds a glove of a mitten. -/
def stackOfMitten (m k : Nat) (s : State) : Bool := (mitten m s).every.any (fun g => g / 336 == k)

/-- The mitten a glove belongs to. -/
def mittenOfGlove (g : Nat) (s : State) : Option Nat := (boundMittens s).find? (fun m => (mitten m s).gloves.contains g)

/-- A glove can recompute for an operator (R330): PARKED, or of a mitten idle between firings; for the secure world, of a
secure mitten, or PARKED in a quad without a non-secure mitten. -/
def gloveCan (secure : Bool) (g : Nat) (s : State) : Bool :=
  quadAvail (g / 4) s &&
    (match mittenOfGlove g s with
     | some m => (mitten (leadOf m s) s).firing.isNone && (!secure || (mitten m s).secure)
     | none => (tget {} g s.fab.gloves).test == .none
        && (!secure || (mittensOnQuad (g / 4) s).all (fun m => (mitten m s).secure)))

/-- A stack may recompute for a check's operator: in service, no glove of the operator's mitten on it. -/
def stackFree (c k : Nat) (s : State) : Bool :=
  stackAvail k s && (match mittenOf (check c s).op s with
    | none => true
    | some m => !stackOfMitten m k s)

/-- The recompute stack of the next frame: the next in rotation that is free. -/
def spotStack (c : Nat) (s : State) : Option Nat :=
  ((List.range 4).map (fun d => ((check c s).rot + 1 + d) % 4)).find? (fun k => stackFree c k s)

/-- Some glove of a stack qualifies. -/
def stackQualifies (c k : Nat) (s : State) : Bool :=
  (List.range 336).any (fun g => gloveCan (check c s).secure (336 * k + g) s)

/-! Verdicts (R331, R332, R343) -/

/-- A verdict. -/
inductive Verdict where
  | pass
  | fail (charges : List (Nat × Nat))
  | unchecked
  deriving DecidableEq, Repr

/-- VERDICT_US has passed since the last token of a frame. -/
def frameLate (f : ChkFrame) (s : State) : Bool := decide (f.lastAt + f.verdictUs * 1000 < s.time.now)

/-- The verdict of a full frame; none while a spot recompute is still to come. -/
def frameVerdict (i c : Nat) (f : ChkFrame) (s : State) : Option Verdict :=
  let x := check c s
  if frameLate f s ∨ (f.quad < 336 ∧ !quadAvail f.quad s) then some .unchecked
  else if x.kind ≠ 5 then some (if framePass i c f s then .pass else .fail [])
  else
    match f.spot with
    | some [] => some .pass
    | some ds => if ds.any (fun d => !quadAvail d.1 s) then some .unchecked else some (.fail ds)
    | none =>
      match spotStack c s with
      | none => some .unchecked
      | some k => if stackQualifies c k s then none else some .unchecked

/-- Mark the tickets of a HOLD frame as SUSPECT, keeping the lowest CHECK stitch ID (R331). -/
def suspectTags (id : Nat) (tags : List Tag) (s : State) : State :=
  mapTickets (fun k => if ticketOpen k ∧ tags.any (fun g => g.stream == k.stream && g.seq == k.seq) then
    { k with suspectBy := some (match k.suspectBy with
      | none => id
      | some o => min o id) } else k) s

/-- How often a quad is charged in a window. -/
def chargeCount (w : List ChkEntry) (q : Nat) : Nat := ((w.flatMap (·.charges)).filter (fun d => d.1 == q || d.2 == q)).length

/-- The quad that R332 isolates: the one charged most, when at least twice; else none. -/
def chargedQuad (w : List ChkEntry) : Option Nat :=
  let qs := ((w.flatMap (·.charges)).flatMap (fun d => [d.1, d.2])).eraseDups
  qs.foldl (fun a q =>
    if chargeCount w q < 2 then a
    else match a with
      | none => some q
      | some p => if chargeCount w p < chargeCount w q then some q else a) none

/-- Command the isolation of a quad for a source, unless it is isolated already (R332, R343). -/
def isolateQuad (q : Nat) (src : Option Nat) (s : State) : State :=
  if q < 336 ∧ quadAvail q s then
    { s with fault := { s.fault with isoPend := s.fault.isoPend ++ [⟨quadPart q, src, 3, s.time.now⟩] } }
  else s

/-- Ask for the withdrawal of a quad (R332, R338). -/
def requestWithdraw (q : Nat) (s : State) : State :=
  if s.isl.withdrawReq.any (fun r => r.1 == q) ∨ s.isl.withdrawnQuads.any (fun w => w.1 == q) then s
  else { s with isl := { s.isl with withdrawReq := s.isl.withdrawReq ++ [(q, s.time.now)] } }

/-- K of N reached (R332): the source in the judging island's collector, and for SPOT the isolation. -/
def reachK (i c : Nat) (s : State) : State :=
  let x := check c s
  let id := isrc i (0x1C0 + c)
  let s1 := modSrc id (fun y => { y with secure := x.secure }) (latch id x.op s)
  if x.kind ≠ 5 then s1
  else
    match chargedQuad x.window with
    | some q => isolateQuad q (some id) s1
    | none =>
      match (x.window.findSome? (·.charges.getLast?)) with
      | none => s1
      | some d => requestWithdraw d.2 (isolateQuad d.1 (some id) s1)

/-- FAIL verdicts in a check's window. -/
def winFail (x : Check) : Nat := (x.window.filter (·.fail)).length

/-- Enter a PASS or FAIL into a check's window. -/
def pushWindow (i c : Nat) (e : ChkEntry) (s : State) : State :=
  let s1 := modCheck c (fun y => { y with
    window := (e :: y.window).take y.n, judged := satAdd 20 y.judged 1
    failed := if e.fail then satAdd 12 y.failed 1 else y.failed }) s
  let x := check c s1
  let above := decide (x.k ≤ winFail x)
  let s2 := modCheck c (fun y => { y with raised := above }) s1
  if above ∧ !x.raised then reachK i c s2 else s2

/-- A frame ends: its tokens return their credits (R328). -/
def freeFrame (c : Nat) (f : ChkFrame) (s : State) : State :=
  let s1 := ((tapEdges c s).filter (fun e => f.toks.any (fun k => k.1 == e.dstPort))).foldl
    (fun a e => modEdge e.id (fun y => { y with inUse := y.inUse - 1, creditFlight := y.creditFlight + 1 }) a) s
  modCheck c (fun y => { y with frames := y.frames.filter (fun z => z.number != f.number) }) s1

/-- Close a judged frame: its judged tensor becomes the previous one (R329). -/
def closeFrame (c : Nat) (f : ChkFrame) (s : State) : State :=
  modCheck c (fun y => { y with prev := some (frameTok f 0, f.firstStamp) }) (freeFrame c f s)

/-- Fix a verdict. -/
def applyVerdict (i c : Nat) (f : ChkFrame) (v : Verdict) (s : State) : State :=
  let x := check c s
  let cut := decide (x.kind ≠ 5) && (((curImage s).tensor x.tensor).map (fun g => (judged i c f g.elems).2)).getD false
  let s1 := closeFrame c f s
  match v with
  | .pass => pushWindow i c { fail := false } (modCheck c (fun y => { y with partial_ := if cut then satAdd 8 y.partial_ 1 else y.partial_ }) s1)
  | .fail ds =>
    let s2 := if x.hold then suspectTags x.id f.tags s1 else s1
    pushWindow i c { fail := true, charges := ds }
      (modCheck c (fun y => { y with partial_ := if cut then satAdd 8 y.partial_ 1 else y.partial_ }) s2)
  | .unchecked =>
    if x.hold then suspectTags x.id f.tags (modCheck c (fun y => { y with unchecked := satAdd 16 y.unchecked 1 }) s1) else s1

/-- CHECK_VERDICT (R331): the verdict of the oldest full frame is fixed. -/
def checkVerdict (c : Nat) (s : State) : State :=
  match hostIsland (check c s).owner s, fullFrame c s with
  | some i, some f =>
    match frameVerdict i c f s with
    | none => s
    | some v => applyVerdict i c f v s
  | _, _ => s

def execCheckVerdict (t chk : Nat) (s : State) : Outcome State Fault Refusal := .next (checkVerdict chk (advanceTo t s))

/-- CHECK_VERDICT_TIMEOUT (R331): VERDICT_US after the last token the frame is UNCHECKED. -/
def verdictTimeout (c : Nat) (s : State) : State :=
  match hostIsland (check c s).owner s, fullFrame c s with
  | some i, some f => if frameLate f s then applyVerdict i c f .unchecked s else s
  | _, _ => s

def execCheckVerdictTimeout (t chk : Nat) (s : State) : Outcome State Fault Refusal :=
  .next (verdictTimeout chk (advanceTo t s))

/-! ### The minimal-risk trajectory (R334, R335) -/

/-- The value is finite. -/
def FVal.finite : FVal → Bool
  | .fin _ _ _ => true
  | _ => false

/-- FP32 field `k` of pose `j` of an MRT token. -/
def mrtField (bs : List Byte) (j k : Nat) : FVal := f32 (fieldLe bs (64 + 16 * j + 4 * k) 4)

/-- An MRT token is accepted (R335). -/
def mrtOk (bs : List Byte) : Bool :=
  let n := fieldLe bs 8 1
  decide (1 ≤ n ∧ n ≤ 64)
    && (List.range n).all (fun j => (List.range 4).all (fun k => (mrtField bs j k).finite))
    && (List.range (n - 1)).all (fun j => FVal.lt (mrtField bs j 3) (mrtField bs (j + 1) 3))

/-- Store an MRT in an island that hosts it. -/
def putMrt (bs : List Byte) (i : Nat) (s : State) : State :=
  if islandVoted i s then modIsland i (fun x => { x with mrt := some bs, mrtAged := false }) s else s

/-- The edge leads to the tap of the MRT stitch. -/
def isMrtEdge (e : Nat) (s : State) : Bool :=
  match gEdgeOf e s with
  | none => false
  | some g => g.dstKind == 6 && ((curImage s).find 0x0A 3 g.dst).isSome

/-- MRT_TOKEN (R328, R334, R335): the credit returns at once; an accepted token replaces the MRT in both islands. -/
def mrtToken (e : Nat) (s : State) : State :=
  match arriving e s, hostIsland 0 s with
  | some k, some i =>
    if !isMrtEdge e s then s
    else
      let s1 := takeArriving e s
      if mrtOk k.data then putMrt k.data 0 (putMrt k.data 1 s1)
      else modIsland i (fun x => { x with mrtRejected := x.mrtRejected + 1 }) s1
  | _, _ => s

def execMrtToken (t edge : Nat) (s : State) : Outcome State Fault Refusal := .next (mrtToken edge (advanceTo t s))

/-- The stored MRT of an island is more than MAX_AGE_US old (R335). -/
def mrtOld (i : Nat) (s : State) : Bool :=
  match (island i s).mrt, s.isl.mrtMaxAgeUs with
  | some bs, some a => decide (fieldLe bs 0 8 + a * 1000 < stamp i s)
  | _, _ => false

/-- MRT_AGED (R335): the MRT is marked; the source is raised by the island that owns the MRT. -/
def mrtAged (i : Nat) (s : State) : State :=
  if islandVoted i s ∧ mrtOld i s ∧ !(island i s).mrtAged then
    let s1 := modIsland i (fun x => { x with mrtAged := true }) s
    if hostIsland 0 s = some i then latch (isrc i 0x1AE) 0 s1 else s1
  else s

def execMrtAged (t island : Nat) (s : State) : Outcome State Fault Refusal := .next (mrtAged island (advanceTo t s))

/-! ### Deadline watches (R336) -/

/-- A ticket was not ENDED at its deadline stamp. -/
def missedDeadline (k : Ticket) (now : Nat) : Bool :=
  match k.deadline with
  | none => false
  | some d => if ticketOpen k then decide (d ≤ now) else decide (d < k.endStamp)

/-- DEADLINE_MISS (R336). -/
def deadlineMiss (st q : Nat) (s : State) : State :=
  match ticket st q s, hostIsland (homeOf st s) s with
  | some k, some i =>
    if !(watch st s).declared ∨ k.missed ∨ !missedDeadline k (stamp (liveDie (homeOf st s) s) s) then s
    else
      let s1 := watchPush st true (modTicket st q (fun y => { y with missed := true }) s)
      let s2 := latch (isrc i (0x200 + st)) q (traceEv i (0x50 + i) 0x20 (isrc i (0x200 + st)) s1)
      let w := watch st s2
      if w.k ≤ (w.win.filter id).length then latch (isrc i (0x300 + st)) 0 s2 else s2
  | _, _ => s

def execDeadlineMiss (t stream seq : Nat) (s : State) : Outcome State Fault Refusal :=
  .next (deadlineMiss stream seq (advanceTo t s))

/-! ### Registers that the STATUS command returns -/

/-- MOD_ISL_STATUS.STATE. -/
def Vote.code : Vote → Nat
  | .triple => 0
  | .pair => 1
  | .silent => 2
  | .split => 3

/-- MOD_ISL_STATUS. -/
def islStatus (i : Nat) (s : State) : Nat :=
  let x := island i s
  x.vote.code + 4 * b2n (x.vote == .split) + 8 * x.retired + 32 * b2n x.peerLost + 64 * b2n x.mrt.isSome
    + 128 * b2n x.mrtAged

/-- MOD_ISL_VOTE. -/
def islVote (i : Nat) (s : State) : Nat := (island i s).transient + 65536 * (island i s).tests

/-- A glove has gone 60 s without a full pass, counted from power-good before its first (R337). -/
def gloveOverdue (g : Nat) (s : State) : Bool :=
  quadAvail (g / 4) s && decide (max (tget {} g s.fab.gloves).passAt s.sec.pgoodAt + 60000000000 ≤ s.time.now)

/-- MOD_ISL_TEST. -/
def islTest (i : Nat) (s : State) : Nat :=
  let n := ((List.range 672).filter (fun g => gloveOverdue (672 * i + g) s)).length
  (island i s).deferred + 65536 * (island i s).withdrawn + 2 ^ 24 * satU 8 n

/-! ### The mailbox (R339 to R342) -/

/-- Change a mailbox. -/
def modMbx (i : Nat) (f : Mailbox → Mailbox) (s : State) : State := modIsland i (fun x => { x with mbx := f x.mbx }) s

/-- The message in the inbound buffer. -/
def mbxMsg (i : Nat) (s : State) : List Byte :=
  let m := (island i s).mbx.inBuf
  rdBytes m 0 (16 + min 4080 (rdLe m 2 2))

/-- Write a response: the outbound buffer, DONE, the vector. -/
def mbxAnswer (i : Nat) (m : List Byte) (r : Option Seal × Answer) : State :=
  let s := r.2.2.2
  let bs := response m r.2.1 r.2.2.1 r.1 (stamp i s) s
  let s1 := modMbx i (fun x => { x with busy := false, done := true, outBuf := wrBytes [] 0 (bs.take 4096) }) s
  let x := (island i s1).mbx
  if x.irq then sendVec x.port x.vector s1 else s1

/-- The commands of R341. -/
def mbxCodes : List Nat := [0x01, 0x02, 0x10, 0x11, 0x12, 0x20, 0x21, 0x30]

/-- SEND (R340): a message in BUSY or DONE is not taken; an unknown command is answered BAD_CMD. -/
def mbxSend (i : Nat) (s : State) : State :=
  let x := (island i s).mbx
  if x.busy ∨ x.done then modMbx i (fun y => { y with sendErr := true }) s
  else
    let m := mbxMsg i s
    if islandRuns i s ∧ !mbxCodes.contains (msgCmd m) then mbxAnswer i m (none, stBadCmd, [], s)
    else modMbx i (fun y => { y with busy := true }) s

/-- Carry out a command that waits in the mailbox of an island that runs. -/
def mbxDo (i cmd : Nat) (s : State) (f : List Byte → State → Option Seal × Answer) : State :=
  let m := mbxMsg i s
  if (island i s).mbx.busy ∧ islandRuns i s ∧ msgCmd m = cmd then mbxAnswer i m (f m s) else s

/-- A sealed command: an island in split mode refuses it, but for TICKET and PATTERN_AUTH with both in split (R325). -/
def mbxSealed (i cmd body : Nat) (s : State) (f : List Byte → State → Answer) : State :=
  mbxDo i cmd s (fun m z =>
    if islandVoted i z ∨ (bothSplit z ∧ (cmd = 0x10 ∨ cmd = 0x30)) then sealedRun 2 body m z f
    else (none, stRefused, [], z))

/-- The island that owns an object of a home: the home's own, else the one that took over (R324, R342). -/
def ownsHome (i home : Nat) (s : State) : Bool := hostIsland home s == some i || (bothSplit s && i == home)

/-- MBX_STATUS. -/
def mbxStatus (i : Nat) (s : State) : State :=
  mbxDo i 0x01 s (fun m z => plainRun 0 m z (fun _ y =>
    (stOk, leBytes 4 (islStatus i y) ++ leBytes 4 (islVote i y) ++ leBytes 4 (islTest i y), y)))

def execMbxStatus (t island : Nat) (s : State) : Outcome State Fault Refusal := .next (mbxStatus island (advanceTo t s))

/-- MBX_MRT_GET: without a stored MRT the state forbids the command. -/
def mbxMrtGet (i : Nat) (s : State) : State :=
  mbxDo i 0x02 s (fun m z => plainRun 0 m z (fun _ y =>
    match (island i y).mrt with
    | none => (stRefused, [], y)
    | some bs => (stOk, bs ++ leBytes 1 (b2n (island i y).mrtAged), y)))

def execMbxMrtGet (t island : Nat) (s : State) : Outcome State Fault Refusal := .next (mbxMrtGet island (advanceTo t s))

/-- A sealed ticket: judged, and entered in both journals before its receipt (R200, R203). -/
def sealedTicket (i : Nat) (b : List Byte) (s : State) : Answer :=
  let w := fieldLe b 32 1
  let seq := fieldLe b 0 8
  if !ownsHome i (homeOf w s) s then (stWrongIsland, [], s)
  else
    let land := shortStamp (liveDie (homeOf w s) s) s
    let v := if (strm w s).secure then verdictOf w none b s else 5
    if v = 0 then
      let s1 := ackTicket w seq (modTicket w seq (fun y => if s.led.mirrorOk then { y with inJ0 := true, inJ1 := true } else y)
        (acceptTicket w b land true s))
      (stOk, receiptBytes seq land 0 0 w (avail (strm w s1)), s1)
    else
      let s1 := modStrm w (fun x => { x with rejects := satAdd 16 x.rejects 1 }) s
      (stOk, receiptBytes seq land v 0 w (avail (strm w s1)), s1)

/-- MBX_TICKET. -/
def mbxTicket (i : Nat) (s : State) : State := mbxSealed i 0x10 128 s (sealedTicket i)

def execMbxTicket (t island : Nat) (s : State) : Outcome State Fault Refusal := .next (mbxTicket island (advanceTo t s))

/-- Take up to `n` held outcomes of a secure stream, oldest first. -/
def takeOutcomes (st : Nat) : Nat → List (Nat × SecureOutcome) → List SecureOutcome × List (Nat × SecureOutcome)
  | _, [] => ([], [])
  | 0, l => ([], l)
  | n + 1, o :: l =>
    if o.1 = st then
      let r := takeOutcomes st n l
      (o.2 :: r.1, r.2)
    else
      let r := takeOutcomes st (n + 1) l
      (r.1, o :: r.2)

/-- OUTCOME_GET: up to 25 outcomes, each counted as consumed (R212). -/
def outcomeGet (i : Nat) (b : List Byte) (s : State) : Answer :=
  let st := fieldLe b 0 1
  if !ownsHome i (homeOf st s) s then (stWrongIsland, [], s)
  else
    let r := takeOutcomes st 25 s.led.secureOut
    let n := r.1.length
    let s1 := modStrm st (fun x => { x with cons := wrapAdd 16 x.cons n })
      (consumeOutcomes st n { s with led := { s.led with secureOut := r.2 } })
    (stOk, r.1.flatten, settle s1)

/-- MBX_OUTCOME_GET. -/
def mbxOutcomeGet (i : Nat) (s : State) : State := mbxSealed i 0x11 1 s (outcomeGet i)

def execMbxOutcomeGet (t island : Nat) (s : State) : Outcome State Fault Refusal :=
  .next (mbxOutcomeGet island (advanceTo t s))

/-- LOOP_MODE: a mode request for a secure slot; the answer says whether it was refused (R292). -/
def loopMode (b : List Byte) (s : State) : Answer :=
  let n := fieldLe b 0 1
  let r := fieldLe b 1 1
  if !(lslot n s).declared ∨ !(lslot n s).secure then (stRefused, [], s)
  else (stOk, leBytes 1 (b2n (!engineUp n s || (reqTarget n r s).isNone)), loopReq n r s)

/-- MBX_LOOP_MODE. -/
def mbxLoopMode (i : Nat) (s : State) : State := mbxSealed i 0x12 2 s loopMode

def execMbxLoopMode (t island : Nat) (s : State) : Outcome State Fault Refusal := .next (mbxLoopMode island (advanceTo t s))

/-- MBX_UNBLOCK (R254). -/
def mbxUnblock (i : Nat) (s : State) : State :=
  mbxSealed i 0x20 2 s (fun b z =>
    if (group (fieldLe b 0 1) z).declared then (stOk, [], unblockMember (fieldLe b 0 1) (fieldLe b 1 1) z) else (stRefused, [], z))

def execMbxUnblock (t island : Nat) (s : State) : Outcome State Fault Refusal := .next (mbxUnblock island (advanceTo t s))

/-- CHECK_CLEAR: the check's window is emptied. -/
def checkClear (i : Nat) (b : List Byte) (s : State) : Answer :=
  match checkOf (fieldLe b 0 4) s with
  | none => (stRefused, [], s)
  | some c =>
    if hostIsland (check c s).owner s ≠ some i then (stWrongIsland, [], s)
    else (stOk, [], modCheck c (fun x => { x with window := [], raised := false }) s)

/-- MBX_CHECK_CLEAR. -/
def mbxCheckClear (i : Nat) (s : State) : State := mbxSealed i 0x21 4 s (checkClear i)

def execMbxCheckClear (t island : Nat) (s : State) : Outcome State Fault Refusal :=
  .next (mbxCheckClear island (advanceTo t s))

/-- PATTERN_AUTH: authorizes one load or patch for 10 s (R342). -/
def patternAuth (b : List Byte) (s : State) : Answer :=
  (stOk, [], { s with pat := { s.pat with auth := some (fieldLe b 0 8, fieldLe b 8 4, s.time.now + 10000000000) } })

/-- MBX_PATTERN_AUTH. -/
def mbxPatternAuth (i : Nat) (s : State) : State := mbxSealed i 0x30 12 s patternAuth

def execMbxPatternAuth (t island : Nat) (s : State) : Outcome State Fault Refusal :=
  .next (mbxPatternAuth island (advanceTo t s))

/-- MBX_DONE_CLEAR (R340). -/
def execMbxDoneClear (t island : Nat) (s : State) : Outcome State Fault Refusal :=
  .next (modMbx island (fun x => { x with done := false }) (advanceTo t s))

/-- PATTERN_AUTH_EXPIRE (R342). -/
def authExpire (s : State) : State :=
  match s.pat.auth with
  | none => s
  | some a => if a.2.2 ≤ s.time.now then { s with pat := { s.pat with auth := none } } else s

def execPatternAuthExpire (t : Nat) (s : State) : Outcome State Fault Refusal := .next (authExpire (advanceTo t s))

end Sys2Proof.Machine
end

