-- ==== Sys2Proof/Machine/Install.lean ====
section
/-!
DEFINITION. What a full load installs when its pattern becomes LOADED: streams, sensors, fusion groups, planner, loop
slots, checks, scene memories, envelope, guards, mittens, edges and route tables (R100, R117, and the stitch layouts of the
chapters R84 names).
-/

namespace Sys2Proof.Machine

/-! ### Ticket streams (R190 to R192) -/

/-- The stream edges of a STREAM stitch. -/
def streamEdges (im : Image) (id : Nat) : List StreamEdge :=
  let size := fun (e : GEdge) => ((im.tensor e.tensor).map GTen.size).getD 0
  (im.edges.filter (fun e => e.srcKind == 1 && e.src == id)).map (fun e => ⟨e.srcPort, e.id, size e⟩)
    ++ (im.edges.filter (fun e => e.dstKind == 1 && e.dst == id)).map (fun e => ⟨e.dstPort, e.id, size e⟩)

/-- A stream's register record under its STREAM stitch. -/
def streamFrom (im : Image) (t : Stitch) (x : Strm) : Strm :=
  { x with
    declared := true, disabled := false
    pipelined := t.u8 9 == 1, limit := t.u16 10, home := t.u8 12 % 2
    voidFollow := bit (t.u8 13) 0, allowHost := bit (t.u8 13) 1, budgetUs := t.u32 16
    secure := im.secure 2 t.id, edges := streamEdges im t.id }

/-- Declare the streams of a pattern; sequence numbers and rings stay (R117, R198). -/
def installStreams (im : Image) (s : State) : State :=
  let s1 := { s with led := { s.led with strm := tmapAll {} (fun _ x =>
    { x with declared := false, disabled := false, edges := [] }) s.led.strm } }
  (im.of 0x02 1).foldl (fun a t => modStrm (t.u8 8) (streamFrom im t) a) s1

/-! ### Sensors and fusion (R221, R232, R233, R248) -/

/-- A sensor stream with an empty ring. -/
def sensorFrom (im : Image) (now : Nat) (t : Stitch) : SensStream :=
  { declared := true, id := t.id, secure := im.secure 3 t.id
    eth := t.u8 9 == 1, port := t.u8 10, vc := t.u8 11, dt := t.u8 12, pixFmt := t.u8 13
    pointsOn := bit (t.u8 14) 0, intensityOn := bit (t.u8 14) 1, width := t.u16 16, height := t.u16 18
    offsetNs := t.u32 20, periodUs := t.u32 24, ring := t.u16 28, inBuffer := t.u8 30 == 1
    vid := t.u16 32 % 4096, tagged := bit (t.u16 32) 12, match_ := t.u8 34, matchVal := t.u16 36
    ptStride := t.u8 38, ptFmt := t.u8 39, xOff := t.u8 40, yOff := t.u8 41, zOff := t.u8 42, iOff := t.u8 43
    tOff := t.u8 44, skip := t.u8 45, pointsMax := t.u16 46, ptScale := t.u32 48, compAt := now }

/-- The members of a group, in index order. -/
def membersFrom (im : Image) (grp : Nat) : List Member :=
  let ts := (im.of 0x07 2).filter (fun t => t.u32 8 == grp)
  (List.range 32).filterMap (fun i =>
    (ts.find? (fun t => t.u8 16 == i)).map (fun t =>
      { index := i, stream := ((im.find 0x03 1 (t.u32 12)).map (·.u8 8)).getD 0, all := t.u8 17 == 1
        project := bit (t.u8 18) 0, before := t.u32 20, after := t.u32 24, weight := t.u32 28 }))

/-- A fusion group with nothing open. -/
def groupFrom (im : Image) (t : Stitch) : FuseGroup :=
  let k := (im.of 0x07 4).find? (fun k => k.u32 8 == t.id)
  let f := fun (o : Nat) => (k.map (·.u32 o)).getD 0
  { declared := true, id := t.id, secure := im.secure 4 t.id, home := t.u8 9 % 2, slots := t.u8 10
    retro := bit (t.u8 11) 0, raw := bit (t.u8 11) 1, object := bit (t.u8 11) 2
    periodUs := t.u32 12, phaseNs := t.u32 16, waitUs := t.u32 20
    penMiss := t.u32 24, penConflict := t.u32 28, recover := t.u32 32, confMin := t.u32 36
    conflictK := t.u8 40, conflictN := t.u8 41, members := membersFrom im t.id
    maxTracks := (k.map (·.u16 12)).getD 0, confirmM := (k.map (·.u8 14)).getD 0, confirmN := (k.map (·.u8 15)).getD 0
    missMax := (k.map (·.u8 16)).getD 0, qAcc := f 20, assocGate := f 24, conflictGate := f 28, initVstd := f 32 }

/-- Put entries into a table. -/
def tputs {α : Type} [DecidableEq α] (d : α) (es : List (Nat × α)) : Tbl α := es.foldl (fun a e => tset d e.1 e.2 a) []

/-- Declare the sensor streams and groups. -/
def installSensors (im : Image) (s : State) : State :=
  { s with sense := { s.sense with
      streams := tputs {} ((im.of 0x03 1).map (fun t => (t.u8 8, sensorFrom im s.time.now t)))
      groups := tputs {} ((im.of 0x07 1).map (fun t => (t.u8 8, groupFrom im t))) } }

/-! ### Planner (R264, R265) -/

/-- Configure the planner, with epoch 0 and no request. -/
def installPlanner (im : Image) (s : State) : State :=
  match (im.of 0x08 1).head? with
  | none => { s with plan := {} }
  | some t =>
    planEpoch0 { s with plan := {
      enabled := true, secure := im.secure 6 0
      cfg := { outside := t.u8 12, cost := t.u8 13 == 1, search := t.u8 14, chain := t.u8 15, recheck := t.u8 16 == 1 }
      budgetUs := t.u32 20 } }

/-! ### Loop slots (R280, R281) -/

/-- The stitches of a kind that name a slot, by INDEX or WHICH at offset 12. -/
def slotParts (im : Image) (kind slot n : Nat) : List Stitch :=
  let ts := (im.of 0x09 kind).filter (fun t => t.u32 8 == slot)
  (List.range n).filterMap (fun i => ts.find? (fun t => t.u8 12 == i))

/-- A feedback channel of a CHANNEL stitch. -/
def chanFrom (t : Stitch) : LoopChan :=
  { edgeSrc := t.u8 13 == 1, fmt := t.u8 14, big := bit (t.u8 15) 0, stream := t.u32 16, offset := t.u16 20
    scale := t.u32 24, bias := t.u32 28, maxAgeUs := t.u32 32, vmax := t.u32 36, amax := t.u32 40, jmax := t.u32 44
    profTc := t.u32 48, resBound := t.u32 52 }

/-- An output of an OUTPUT stitch. -/
def outFrom (t : Stitch) : LoopOut :=
  { ofmt := t.u8 13, big := bit (t.u8 14) 0, safeMode := t.u8 14 / 2 % 4, offset := t.u16 16
    umin := t.u32 20, umax := t.u32 24, urate := t.u32 28, safeValue := t.u32 32, oscale := t.u32 36 }

/-- The entries of a MATRIX stitch. -/
def matFrom (t : Stitch) : List Nat := (List.range (t.u8 13 * t.u8 14)).map (fun i => t.u32 (16 + 4 * i))

/-- A slot, STOPPED, with zero states (R292). -/
def slotFrom (im : Image) (now : Nat) (t : Stitch) : LoopSlot :=
  let fr := (im.of 0x09 5).find? (fun k => k.u32 8 == t.id)
  { declared := true, id := t.id, secure := im.secure 5 t.id, law := t.u8 9, sample := t.u8 10 == 1
    spTrack := bit (t.u8 11) 0, resHold := bit (t.u8 11) 1, periodUs := t.u32 12, phaseNs := t.u32 16
    m := t.u8 20, p := t.u8 21, n := t.u8 22, q := t.u8 23, outer := t.u8 24, divider := t.u8 25
    port := t.u8 26, tc := t.u8 27, spDtUs := t.u32 28, spStaleUs := t.u32 32, resK := t.u8 36, resN := t.u8 37
    fbLossN := t.u16 38, kp := t.u32 40, ki := t.u32 44, kd := t.u32 48, tfY := t.u32 52, tdF := t.u32 56
    bW := t.u32 60, cW := t.u32 64
    mats := tputs [] ((slotParts im 2 t.id 9).map (fun k => (k.u8 12, matFrom k)))
    chans := (slotParts im 3 t.id (t.u8 20)).map chanFrom
    outs := (slotParts im 4 t.id (t.u8 21)).map outFrom
    frame := fr.map (fun k => (k.u8 13, k.u8 14, k.u8 15))
    template := (fr.map (fun k => slice k.bytes 16 (k.u8 12))).getD []
    x := List.replicate (t.u8 22) 0, w := List.replicate (t.u8 21) 0, xm := List.replicate (t.u8 23) 0
    spAt := now }

/-- Declare the loop slots; the gate lists of the ports stay. -/
def installLoops (im : Image) (s : State) : State :=
  { s with loop := { s.loop with
      slots := tputs {} ((im.of 0x09 1).map (fun t => (t.u8 8, slotFrom im s.time.now t)))
      evals0 := 0, evals1 := 0 } }

/-! ### Checks (R327) -/

/-- A check with an empty window. -/
def checkFrom (im : Image) (t : Stitch) : Check :=
  { declared := true, id := t.id, kind := t.u8 8, hold := bit (t.u8 9) 0, owner := b2n (bit (t.u8 9) 1)
    secure := im.secure 0 (t.u32 12), k := t.u8 10, n := t.u8 11, op := t.u32 12, tensor := t.u32 16
    samples := t.u16 20, verdictUs := t.u32 24, p := (List.range 4).map (fun i => t.u32 (28 + 4 * i)) }

/-- Number a list from 0. -/
def numbered {α : Type} (xs : List α) : List (Nat × α) := (List.range xs.length).zip xs

/-- The reserved windows of a pattern. -/
def reservesOf (im : Image) : List Reserve :=
  (im.of 0x0A 2).map (fun t => ⟨t.id, t.u32 8, t.u32 12, t.u32 16, t.u32 20⟩)

/-- Stored trajectories are dropped. -/
def dropMrt (x : Island) : Island := { x with mrt := none, mrtAged := false }

/-- Declare checks, watches, reserved windows and the MRT; windows and the MRT start empty (R343). -/
def installChecks (im : Image) (s : State) : State :=
  { s with isl := { s.isl with
      a := dropMrt s.isl.a, b := dropMrt s.isl.b
      checks := tputs {} (numbered ((im.of 0x0A 1).map (checkFrom im)))
      watch := tputs {} ((im.of 0x0A 4).filterMap (fun t =>
        (im.find 0x02 1 (t.u32 8)).map (fun k => (k.u8 8, { declared := true, k := t.u8 12, n := t.u8 13 }))))
      reserves := reservesOf im
      mrtMaxAgeUs := ((im.of 0x0A 3).head?).map (·.u32 8) } }

/-! ### Scene memories (R159 to R163) -/

/-- Operators that read a scene memory. -/
def sceneReaders (im : Image) (ten : Nat) : List GOp := im.ops.filter (fun o => o.opcode == 0x0201 && o.ins.getD 1 noneId == ten)

/-- A scene memory, empty. -/
def sceneFrom (im : Image) (m : Nat) (x : GTen) : SceneMem :=
  let w := im.ops.find? (fun o => o.opcode == 0x0202 && o.outs.head? == some x.id)
  let p := (w.map (·.params)).getD []
  let f := fun (o n : Nat) => fieldLe p o n
  let rs := sceneReaders im x.id
  { declared := true, tensor := x.id, writer := (w.map (·.id)).getD 0
    scorer := ((rs.find? (fun o => bit (fieldLe o.params 32 1) 0)).map (·.id)).getD 0
    readers := rs.map (·.id), secure := im.secure 1 x.id, pageLog2 := f 0 1, lookahead := f 1 1, reserved := f 1 1, protect := f 2 2
    quota := [f 4 4, f 8 4, f 12 4, f 16 4], decay := f 20 4, init := f 24 4
    tableAt := Config.pageTableAt im.patternId m % (Config.traceRing 1 / 64) * 64
    pages := List.replicate (x.dims.getD 1 0 / 2 ^ f 0 1) {} }

/-- Declare the scene memories, numbered in ascending tensor ID. -/
def installScenes (im : Image) (s : State) : State :=
  { s with scene := tputs {} ((numbered (im.tensors.filter (fun x => x.role == 5))).map (fun e => (e.1, sceneFrom im e.1 e.2))) }

/-! ### Envelope (R92) -/

/-- The envelope of a pattern: RUN_W, SHORT_W, SHORT_MS. -/
def envelopeOf (im : Image) : Nat × Nat × Nat :=
  match (im.of 0x0B 1).head? with
  | none => (520, 640, 10)
  | some t => (t.u16 8, t.u16 10, t.u16 12)

/-- Put an envelope in force. -/
def installEnvelope (im : Image) (s : State) : State :=
  let e := envelopeOf im
  { s with crown := { s.crown with runW := e.1, shortW := e.2.1, shortMs := e.2.2 } }

/-! ### Guards (R420) -/

/-- Order guards by base. -/
def guardBefore (a b : DdrGuard) : Bool := decide (a.base ≤ b.base)

/-- Merge adjacent guards of equal attributes. -/
def mergeGuards : List DdrGuard → List DdrGuard
  | [] => []
  | g :: r =>
    match mergeGuards r with
    | [] => [g]
    | h :: t =>
      if h.base ≤ g.base + g.size ∧ g.secure = h.secure ∧ g.host = h.host then
        { g with size := max (g.base + g.size) (h.base + h.size) - g.base } :: t
      else g :: h :: t

/-- A range rounded outward to 64 KiB: base and size. -/
def outward (a n : Nat) : Nat × Nat :=
  let b := a / 65536 * 65536
  (b, (a + n + 65535) / 65536 * 65536 - b)

/-- The REGION guards. -/
def regionGuards (im : Image) : List DdrGuard :=
  (im.of 0x0C 2).map (fun t => ⟨t.u64 8, t.u64 16, t.u8 24 == 1, t.u8 25⟩)

/-- Size of the tensor a BUFFER stitch places. -/
def bufferSize (im : Image) (b : Stitch) : Nat := ((im.tensor b.id).map GTen.size).getD 0

/-- The page-table buffers of secure scene memories (R162): base and size. -/
def secureTables (im : Image) : List (Nat × Nat) :=
  ((numbered (im.tensors.filter (fun x => x.role == 5))).filter (fun e => im.secure 1 e.2.id)).map (fun e =>
    let x := sceneFrom im e.1 e.2
    (x.tableAt, 32 * x.pages.length))

/-- The DDR guards of a placement. -/
def ddrGuardsOf (im : Image) (fit : List Stitch) : List DdrGuard :=
  let regs := regionGuards im
  let bufs := ((fitBuffers fit).filter (fun b => b.u8 8 == 2 && im.secure 1 b.id)).map (fun b => (b.u64 16, bufferSize im b))
  let open_ := (bufs ++ secureTables im).filter (fun b => !regs.any (fun g => decide (g.base ≤ b.1 ∧ b.1 + b.2 ≤ g.base + g.size)))
  mergeGuards (orderBy guardBefore (regs ++ open_.map (fun b =>
    let r := outward b.1 b.2
    ⟨r.1, r.2, true, 0⟩)))

/-- The lining addresses that a T1 buffer of `n` bytes takes, 2 MiB a bank (R49): base and size of its run in every bank of its
set. PINNED is one bank; INTERLEAVED spreads units of 256 B over the set, unit u of the set on bank FIRST_BANK + u mod BANKS. -/
def liningRuns (b : Stitch) (n : Nat) : List (Nat × Nat) :=
  let o := b.u64 16
  let k := max 1 (b.u8 12)
  if n = 0 then []
  else if b.u8 10 = 1 ∨ k = 1 then [(b.u8 11 * 2 ^ 21 + o, n)]
  else
    let a := o / 256
    let z := (o + n - 1) / 256
    (List.range k).filterMap (fun j =>
      let first := a + (j + k - a % k) % k
      if z < first then none
      else some ((b.u8 11 + j) * 2 ^ 21 + first / k * 256, ((z - first) / k + 1) * 256))

/-- Merge adjacent lining guards of a stack. -/
def mergeLin : List LinGuard → List LinGuard
  | [] => []
  | g :: r =>
    match mergeLin r with
    | [] => [g]
    | h :: t =>
      if h.stack = g.stack ∧ h.base ≤ g.base + g.size then
        { g with size := max (g.base + g.size) (h.base + h.size) - g.base } :: t
      else g :: h :: t

/-- The lining guards of a placement. -/
def linGuardsOf (im : Image) (fit : List Stitch) : List LinGuard :=
  let bufs := (fitBuffers fit).filter (fun b => b.u8 8 == 1 && im.secure 1 b.id)
  mergeLin (orderBy (fun a b => decide (a.stack < b.stack ∨ (a.stack = b.stack ∧ a.base ≤ b.base))) (bufs.flatMap (fun b =>
    (liningRuns b (bufferSize im b)).map (fun r =>
      let g := outward r.1 r.2
      ⟨b.u8 9, g.1 / 65536, g.2 / 65536⟩))))

/-- Put the guards of a placement in force. -/
def installGuards (im : Image) (fit : List Stitch) (s : State) : State :=
  { s with sec := { s.sec with ddrGuards := ddrGuardsOf im fit, linGuards := linGuardsOf im fit } }

/-! ### Placement -/

/-- Bind the mittens, reset the edges and the state tensors, install the route tables (R90, R100). -/
def installFit (im : Image) (fit : List Stitch) (s : State) : State :=
  let s1 := { s with fab := { s.fab with
    mittens := tputs {} ((fitMittens fit).map (fun (t : Stitch) => (t.id - 1, bindMitten im fit s.time.now t)))
    edges := [], tensors := [], draining := [], dma := fitDma fit, routes := tputs none ((fitRoutes fit).flatMap routeEntries) } }
  { s1 with fab := { s1.fab with edges := tputs {} ((tokenEdges im).map (fun (e : GEdge) => (e.id, initEdge e s1))) } }

/-- The pattern is installed block by block (R100, last two rows). -/
def installBlocks (im : Image) (fit : List Stitch) (s : State) : State :=
  installFit im fit (installGuards im fit (installEnvelope im (installScenes im (installChecks im (installLoops im
    (installPlanner im (installSensors im (installStreams im s))))))))

/-! ### Return from RETAIN (R102, R168, R256, R278, R292, R343) -/

/-- A stream's ring, a group's slots, tables and confidences start empty. -/
def restartSens (x : SensStream) (now : Nat) : SensStream :=
  { x with entries := [], inFrame := false, noEntry := false, bad := false, compAt := now }
def restartGroup (g : FuseGroup) : FuseGroup :=
  { g with
    members := g.members.map (fun m => { m with conf := if m.blocked then 0 else 0x3F800000 })
    open_ := [], opening := [], past := [], lastT := none, tracks := [], nextTrack := 1, tableFseq := 0, frames := []
    penalized := [], history := [], persistent := [] }

/-- Every slot is STOPPED with zero states. -/
def restartSlot (x : LoopSlot) (now : Nat) : LoopSlot :=
  { x with
    st := .stopped, req := 0, iState := 0, dState := 0, yf := 0, rPrev := 0, yfPrev := 0
    x := List.replicate x.n 0, w := List.replicate x.p 0, xm := List.replicate x.q 0, seq := none, spAt := now
    waiting := none, resWin := [], resRaised := false, fbRun := 0
    chans := x.chans.map (fun c => { c with value := 0, at_ := none, r := 0, v := 0, a := 0, y := 0 }) }

/-- A scene memory is cleared. -/
def clearScene (x : SceneMem) : SceneMem :=
  { x with
    pages := x.pages.map (fun _ => {}), nextSeq := 0, prefetch := [], taken := [], clears := satAdd 16 x.clears 1 }

/-- What restarts when the module returns from RETAIN to STANDBY. -/
def restartBlocks (s : State) : State :=
  let now := s.time.now
  let streams := tmapAll {} (fun _ x => restartSens x now) s.sense.streams
  let groups := tmapAll {} (fun _ g => restartGroup g) s.sense.groups
  let slots := tmapAll {} (fun _ x => restartSlot x now) s.loop.slots
  let checks := tmapAll {} (fun _ (c : Check) => { c with window := [], raised := false, frames := [], prev := none }) s.isl.checks
  let watch := tmapAll {} (fun _ (w : Watch) => { w with win := [] }) s.isl.watch
  let scenes := tmapAll {} (fun _ (x : SceneMem) => if x.declared then clearScene x else x) s.scene
  let s1 := { s with
    sense := { s.sense with streams := streams, groups := groups }
    loop := { s.loop with slots := slots }
    isl := { s.isl with a := dropMrt s.isl.a, b := dropMrt s.isl.b, checks := checks, watch := watch }
    scene := scenes
    crown := { s.crown with
      level := 0, hardCap := false, sumMw := 0, sumN := 0, overShort := 0, overRunAt := none, lowSince := none, hotHist := []
      bins := [0, 0, 0, 0, 0] } }
  let s2 := mapMittens (fun _ m =>
    { m with waitConst := m.bound && needsRefill (curImage s) s.pat.fit m.op, gated := false, halfNext := false }) s1
  if s2.plan.enabled then planEpoch0 s2 else s2

end Sys2Proof.Machine
end

