-- ==== Sys2Proof/Machine/SceneOps.lean ====
section
/-!
DEFINITION. Scene memories while they run: appending pages with spilling and eviction, scores, prefetch copies and the
bytes of a page table (R160 to R168).
-/

namespace Sys2Proof.Machine

/-! ### Page tables (R162) -/

/-- STATE of an entry. -/
def PageSt.code : PageSt → Nat
  | .free => 0
  | .valid => 1
  | .lost => 2

/-- The 32 bytes of an entry. -/
def pageBytes (g : ScenePage) : List Byte :=
  leBytes 4 g.seq ++ leBytes 1 (g.st.code + 4 * g.tier) ++ leBytes 1 g.place ++ zeroBytes 2 ++ leBytes 8 g.addr
    ++ leBytes 4 g.score ++ leBytes 4 g.stamp ++ leBytes 4 g.reads ++ zeroBytes 4

/-- The bytes of a page table. -/
def tableBytes (x : SceneMem) : List Byte := x.pages.flatMap pageBytes

/-! ### Append (R164) -/

/-- A slot that a new page may take. -/
def slotFree (g : ScenePage) : Bool := g.st != .valid

/-- VALID pages of a tier. -/
def inTier (x : SceneMem) (t : Nat) : Nat := (x.pages.filter (fun g => g.st == .valid && g.tier == t)).length

/-- Tiers with a quota, ascending. -/
def quotaTiers (x : SceneMem) : List Nat := (List.range 4).filter (fun t => decide (x.quota.getD t 0 ≠ 0))

/-- The page evicted when the memory is full: the lowest score outside the newest PROTECT pages, counting the new one; ties
go to the lowest PAGE_SEQ. -/
def victimOf (x : SceneMem) : Option ScenePage :=
  let vs := validPages x
  match vs.take (vs.length - (x.protect - 1)) with
  | [] => none
  | v :: r => some (r.foldl (fun b g => if FVal.lt (f32 g.score) (f32 b.score) then g else b) v)

/-- What places a page: the stack of the home mitten, the port of T3, and the draw of its addresses. -/
structure Placing where
  stack : Nat
  port : Nat
  draw : Nat
  deriving DecidableEq, Repr

/-- WHERE of a tier (R162). -/
def Placing.at_ (p : Placing) (tier : Nat) : Nat := if tier < 2 then p.stack else if tier = 3 then p.port else 0

/-- A page address, coded as a DMA address (R94, R162): tier, stack or port, and a byte offset that the fitter chooses. -/
def Placing.addr (p : Placing) (tier seq : Nat) : Nat :=
  tier * 2 ^ 60 + p.at_ tier % 16 * 2 ^ 56 + Config.freeAt p.draw (2 ^ 50 + seq * 4 + tier) % 2 ^ 56

/-- Change the page with a number. -/
def modPage (seq : Nat) (f : ScenePage → ScenePage) (x : SceneMem) : SceneMem :=
  { x with pages := x.pages.map (fun g => if g.st == .valid && g.seq == seq then f g else g) }

/-- Move the oldest VALID page of tier `i` to tier `j` (a spill). -/
def spill (p : Placing) (i j : Nat) (x : SceneMem) : SceneMem :=
  match (validPages x).find? (fun g => g.tier == i) with
  | none => x
  | some g => modPage g.seq (fun y => { y with
      tier := j, place := p.at_ j, addr := p.addr j g.seq }) x

/-- Spill from each quota tier below `j` into the one above it, from the highest down. -/
def spillDown (p : Placing) (x : SceneMem) : List Nat → SceneMem
  | i :: j :: r => spill p i j (spillDown p x (j :: r))
  | _ => x

/-- Place one new page. -/
def placePage (p : Placing) (st : Nat) (data : List Byte) (x : SceneMem) : SceneMem :=
  let x1 := if x.pages.any slotFree then x
    else match victimOf x with
      | none => x
      | some v => { modPage v.seq (fun _ => {}) x with evict := satAdd 32 x.evict 1 }
  let ts := quotaTiers x1
  let upto := ts.takeWhile (fun t => decide (x1.quota.getD t 0 ≤ inTier x1 t))
  let x2 := spillDown p x1 (ts.take (upto.length + 1))
  let t0 := ts.headD 0
  let n := x2.pages.findIdx slotFree
  let g : ScenePage := {
    seq := x2.nextSeq, st := .valid, tier := t0, place := p.at_ t0, score := x2.init, stamp := st, data := data
    addr := p.addr t0 x2.nextSeq }
  { x2 with pages := x2.pages.set n g, nextSeq := x2.nextSeq + 1 }

/-- The contents of page `i` of an append firing, token by token, head by head, key then value (R159). -/
def newPage (k v : TVal) (log2 i : Nat) : List Byte :=
  let dk := tdim k.ten 0
  let dv := tdim v.ten 0
  let hs := tdim k.ten 2
  packElems k.ten.fmt ((List.range (2 ^ log2)).flatMap (fun j =>
    let tok := i * 2 ^ log2 + j
    (List.range hs).flatMap (fun h =>
      (List.range dk).map (fun e => k.raw (flatOf (tdims k.ten) [e, tok, h]))
        ++ (List.range dv).map (fun e => v.raw (flatOf (tdims v.ten) [e, tok, h])))))

/-- The values a patch changed take effect with the append operator's next firing (R168). -/
def SceneMem.takePar (x : SceneMem) : SceneMem :=
  match x.nextPar with
  | none => x
  | some p => { x with lookahead := p.1, decay := p.2.1, init := p.2.2, nextPar := none }

/-- An append firing on a memory: a CLEAR first, or the sequence limit, then the pages in token order. -/
def appendScene (p : Placing) (st : Nat) (ins : List (Option TVal)) (x : SceneMem) : SceneMem :=
  let k := inp ins 0
  let x := x.takePar
  let n := tdim k.ten 1 / 2 ^ x.pageLog2
  let clear := hasIn ins 2 && decide ((inp ins 2).raw 0 ≠ 0)
  let x1 := if clear || decide (2 ^ 32 < x.nextSeq + n) then clearScene x else x
  (List.range n).foldl (fun a i => placePage p st (newPage k (inp ins 1) x.pageLog2 i) a) x1

/-! ### Scores (R165) -/

/-- The scores and read counts after a reader's firing; `scorer` updates every VALID page, a page read adding its attention
mass. -/
def scored (scorer : Bool) (mass : List (Nat × Nat)) (read : List Nat) (x : SceneMem) : SceneMem :=
  { x with pages := x.pages.map (fun g =>
    if g.st != .valid then g
    else
      let hit := read.contains g.seq
      let m := f32 (((mass.find? (fun e => e.1 == g.seq)).map (·.2)).getD 0)
      let sc := if !scorer then g.score
        else if hit then toF32 (((f32 x.decay).mul (f32 g.score)).add m)
        else toF32 ((f32 x.decay).mul (f32 g.score))
      { g with score := sc, reads := if hit then satAdd 32 g.reads 1 else g.reads }) }

/-! ### Prefetch (R167) -/

/-- The T2 and T3 pages a reader copies, ascending. -/
def pfNeeded (o : GOp) (x : SceneMem) : List Nat := ((readPages o x).filter (fun g => decide (2 ≤ g.tier))).map (·.seq)

/-- Windows of a reader: LOOKAHEAD, or one on demand while it fires. -/
def pfWindows (x : SceneMem) (busy : Bool) : Nat := if x.lookahead = 0 then b2n busy else x.lookahead

/-- Start copies into the free windows of a reader. -/
def pfRefill (o : GOp) (busy : Bool) (x : SceneMem) : SceneMem :=
  let mine := x.prefetch.filter (fun c => c.reader == o.id)
  let next := (pfNeeded o x).filter (fun q => !(mine.any (fun c => c.seq == q)) && !x.taken.contains (o.id, q))
  { x with prefetch := x.prefetch ++ (next.take (pfWindows x busy - mine.length)).map (fun q => ⟨o.id, q, false⟩) }

/-- A reader's firing takes the copies that are complete; their windows are refilled. -/
def pfTake (o : GOp) (x : SceneMem) : SceneMem :=
  let got := x.prefetch.filter (fun c => c.reader == o.id && c.ready)
  pfRefill o true { x with
    prefetch := x.prefetch.filter (fun c => !(c.reader == o.id && c.ready))
    taken := x.taken ++ got.map (fun c => (o.id, c.seq)) }

/-- A reader's firing starts: what an abandoned firing had taken is copied again. -/
def pfStart (o : GOp) (x : SceneMem) : SceneMem := pfTake o { x with taken := x.taken.filter (fun c => c.1 != o.id) }

/-- Every page of a reader's firing has been copied. -/
def pfDone (o : GOp) (x : SceneMem) : Bool := (pfNeeded o x).all (fun q => x.taken.contains (o.id, q))

/-- A new version is committed: every reader starts its copies anew. -/
def pfCommit (readers : List GOp) (x : SceneMem) : SceneMem :=
  readers.foldl (fun a o => pfRefill o false a) { x with prefetch := [], taken := [] }

end Sys2Proof.Machine
end

