-- ==== Sys2Proof/Machine/Matrix.lean ====
section
/-!
DEFINITION. Small dense matrices: exact products, factorizations and substitutions in the working precision, and the
backward bounds of R78 (Scientific operators, R171 to R175).
-/

namespace Sys2Proof.Machine

/-- A matrix by rows. -/
abbrev Mat := List (List FVal)

/-- An element, and a matrix from its elements. -/
def mget (a : Mat) (r c : Nat) : FVal := (a.getD r []).getD c zeroV
def mk (rows cols : Nat) (f : Nat → Nat → FVal) : Mat := (List.range rows).map (fun r => (List.range cols).map (f r))

/-- Rows, columns. -/
def mrows (a : Mat) : Nat := a.length
def mcols (a : Mat) : Nat := (a.getD 0 []).length

/-- Exact product, sum, difference, magnitudes, transpose, scaling; a column vector from a list. -/
def mmul (a b : Mat) : Mat :=
  mk (mrows a) (mcols b) (fun r c => fsum ((List.range (mcols a)).map (fun k => (mget a r k).mul (mget b k c))))
def madd (a b : Mat) : Mat := mk (mrows a) (mcols a) (fun r c => (mget a r c).add (mget b r c))
def msub (a b : Mat) : Mat := mk (mrows a) (mcols a) (fun r c => (mget a r c).add (mget b r c).neg)
def mabs (a : Mat) : Mat := a.map (fun r => r.map FVal.abs)
def mtr (a : Mat) : Mat := mk (mcols a) (mrows a) (fun r c => mget a c r)
def mscale (v : FVal) (a : Mat) : Mat := a.map (fun r => r.map (fun x => v.mul x))
def mid (n : Nat) : Mat := mk n n (fun r c => if r = c then oneV else zeroV)

/-- Every element of `a` is at most that of `b`. -/
def mle (a b : Mat) : Bool := (a.zip b).all (fun p => (p.1.zip p.2).all (fun q => FVal.le q.1 q.2))

/-- Every element is finite. -/
def mfin (a : Mat) : Bool := a.all (fun r => r.all isFin)

/-- Round every element once. -/
def mround (f : Fmt) (a : Mat) : Mat := a.map (fun r => r.map f.round)

/-- γ_k for the roundoff 2^u (R78). -/
def gam (k : Nat) (u : Int) : FVal := wide.div (unitN k u) (oneV.add (unitN k u).neg)

/-- Free elements of a format from place `i` of draw `k`. -/
def mfree (f : Fmt) (k i rows cols : Nat) : Mat :=
  mk rows cols (fun r c => f.decode (Config.freeAt k (i + r * cols + c) % 2 ^ f.width))

/-- The matrix `b` of an operand, with a batch extent of 1 broadcast (R171). -/
def matOf (x : TVal) (b : Nat) (s : State) : Mat :=
  mk (tdim x.ten 1) (tdim x.ten 0) (fun r c => x.val (castIx x.ten [c, r, b]) s)

/-- The vector `b` of an operand, as a column. -/
def vecOf (x : TVal) (b : Nat) (s : State) : Mat := mk (tdim x.ten 0) 1 (fun r _ => x.val (castIx x.ten [r, b]) s)

/-! ### Triangular systems -/

/-- Forward substitution in the working precision: the unknowns so far, then the rest. -/
def forwardGo (t : Mat) (b : Mat) : Nat → Nat → List FVal → List FVal
  | 0, _, ys => ys
  | fuel + 1, i, ys =>
    let acc := (List.range i).foldl (fun a j => wide.sub a (wide.mul (mget t i j) (ys.getD j zeroV))) (mget b i 0)
    forwardGo t b fuel (i + 1) (ys ++ [wide.div acc (mget t i i)])

/-- Solve a lower triangular system. -/
def forward (t b : Mat) : Mat := (forwardGo t b (mrows t) 0 []).map (fun y => [y])

/-- Reverse rows and columns: an upper triangle becomes a lower one. -/
def flip2 (a : Mat) : Mat := (a.map List.reverse).reverse

/-- Solve an upper triangular system. -/
def backward (t b : Mat) : Mat := (forward (flip2 t) b.reverse).reverse

/-- The columns of a right-hand side. -/
def columns (b : Mat) : List Mat := (List.range (mcols b)).map (fun c => mk (mrows b) 1 (fun r _ => mget b r c))

/-- A matrix from its columns. -/
def fromColumns (n : Nat) (cs : List Mat) : Mat := mk n cs.length (fun r c => mget (cs.getD c []) r 0)

/-- A solution: the free candidate where |b − a·y| ≤ bound(|y|), which is what a componentwise backward bound says; otherwise
the accurate solution rounded. -/
def solvePick (f : Fmt) (cand good a b : Mat) (bound : Mat → Mat) : Mat :=
  if mfin cand && mle (mabs (msub b (mmul a cand))) (bound (mabs cand)) then cand else mround f good

/-! ### LU with partial pivoting (R174) -/

/-- The rows during elimination with their original numbers; multipliers stand below the diagonal. -/
abbrev LuRows := List (Nat × List FVal)

/-- The row at or below `k` with the largest candidate, the lowest on a tie. -/
def pivotRow (rows : LuRows) (k : Nat) : Nat :=
  ((List.range rows.length).filter (fun i => decide (k ≤ i))).foldl (fun p i =>
    let v := fun (j : Nat) => ((rows.getD j (0, [])).2.getD k zeroV).abs
    if FVal.lt (v p) (v i) then i else p) k

/-- Eliminate column `k` from a row. -/
def eliminate (piv : List FVal) (k : Nat) (row : List FVal) : List FVal :=
  let m := wide.div (row.getD k zeroV) (piv.getD k zeroV)
  row.mapIdx (fun j v => if j < k then v else if j = k then m else wide.sub v (wide.mul m (piv.getD j zeroV)))

/-- The elimination: rows at the end, or the failing step counted from 1. -/
def luGo (tiny : FVal) : Nat → Nat → LuRows → LuRows × Nat
  | 0, _, rows => (rows, 0)
  | fuel + 1, k, rows =>
    let p := pivotRow rows k
    let piv := rows.getD p (0, [])
    if (piv.2.getD k zeroV).abs.le tiny then (rows, k + 1)
    else
      let sw := (rows.set p (rows.getD k (0, []))).set k piv
      luGo tiny fuel (k + 1) (sw.mapIdx (fun i r => if k < i then (r.1, eliminate piv.2 k r.2) else r))

/-- The unit lower and the upper factor of rows kept in place. -/
def lowerOf (a : Mat) : Mat := mk (mrows a) (mrows a) (fun r c => if c < r then mget a r c else if c = r then oneV else zeroV)
def upperOf (a : Mat) : Mat := mk (mrows a) (mrows a) (fun r c => if r ≤ c then mget a r c else zeroV)

/-- A factorization: INFO, pivot rows and the factors in place. -/
structure Factor where
  info : Int
  perm : List Nat := []
  lu : Mat := []
  deriving DecidableEq, Repr

/-- Rows of a matrix in the order of a permutation. -/
def permute (p : List Nat) (a : Mat) : Mat := p.map (fun i => a.getD i [])

/-- The first `j` columns of a partial elimination as multipliers below a unit diagonal, its first `j` rows as the upper
part, and what remains of the rest. -/
def lowerPart (j : Nat) (a : Mat) : Mat :=
  mk (mrows a) j (fun r c => if c < r then mget a r c else if c = r then oneV else zeroV)
def upperPart (j : Nat) (a : Mat) : Mat := mk j (mrows a) (fun r c => if r ≤ c then mget a r c else zeroV)
def restPart (j : Nat) (a : Mat) : Mat := mk (mrows a) (mrows a) (fun r c => if j ≤ r ∧ j ≤ c then mget a r c else zeroV)

/-- Rows in place after `j` steps that a run of R174 may have computed: the first pivot is the exact one, every pivot lies
above the threshold, multipliers are at most 1, and the product with the rest lies within the backward error of the
elimination. With `j` = n these are the factors. -/
def partOk (tiny : FVal) (u : Int) (a : Mat) (j : Nat) (x : Factor) : Bool :=
  let n := mrows a
  let l := lowerPart j x.lu
  let up := upperPart j x.lu
  let rest := restPart j x.lu
  decide ((x.perm.filter (fun i => decide (i < n))).eraseDups.length = n) && decide (x.perm.length = n) && mfin x.lu
    && decide (x.perm.headD n = pivotRow (a.mapIdx (fun i r => (i, r))) 0)
    && (List.range j).all (fun i => FVal.lt tiny (mget x.lu i i).abs)
    && l.all (fun r => r.all (fun v => v.abs.le oneV))
    && mle (mabs (msub (permute x.perm a) (madd (mmul l up) rest)))
      (mscale (gam n u) (madd (mmul (mabs l) (mabs up)) (mabs rest)))

/-- The candidates of step `j` are all at most the threshold. -/
def pivotFails (tiny : FVal) (j : Nat) (lu : Mat) : Bool :=
  (List.range (mrows lu)).all (fun r => decide (r < j) || (mget lu r j).abs.le tiny)

/-- LU of a finite matrix. The first pivot is exact; the others are taken on computed values, so a run delivers any factors
within the backward error, and fails at a later step where values within it leave no candidate above the threshold (R174,
R175, R78). -/
def luFactor (f : Fmt) (u : Int) (tiny : FVal) (k base : Nat) (a : Mat) : Factor :=
  let n := mrows a
  let good := luGo tiny n 0 (a.mapIdx (fun i r => (i, r)))
  let j := Config.freeAt k base % (n + 1)
  let c : Factor := ⟨0, (List.range n).map (fun i => Config.freeAt k (base + 1 + i) % max 1 n), mfree f k (base + 128) n n⟩
  if (a.map (fun r => (r.getD 0 zeroV).abs)).all (fun v => v.le tiny) then { info := 1 }
  else if 0 < j ∧ j < n ∧ partOk tiny u a j c ∧ pivotFails tiny j c.lu then { info := j + 1 }
  else if partOk tiny u a n c then c
  else if good.2 = 0 then ⟨0, good.1.map (·.1), mround f (good.1.map (·.2))⟩
  else { info := good.2 }

/-- Solve with LU factors, one right-hand side: `k` and `base` place its free candidate, `bound` is the backward bound on the
residual for |y|. -/
def luSolve (f : Fmt) (k base : Nat) (x : Factor) (a b : Mat) (bound : Mat → Mat) : Mat :=
  let n := mrows a
  let good := backward (upperOf x.lu) (forward (lowerOf x.lu) (permute x.perm b))
  solvePick f (mfree f k base n 1) good a b bound

/-! ### Cholesky (R174) -/

/-- The symmetric matrix of an upper triangle. -/
def symUpper (a : Mat) : Mat := mk (mrows a) (mrows a) (fun r c => if r ≤ c then mget a r c else mget a c r)

/-- The rows of R̂ in the working precision, or the failing step. -/
def cholGo (tiny : FVal) (a : Mat) : Nat → Nat → Mat → Mat × Nat
  | 0, _, rows => (rows, 0)
  | fuel + 1, k, rows =>
    let red := fun (c : Nat) => (List.range k).foldl (fun acc j =>
      wide.sub acc (wide.mul (mget rows j k) (mget rows j c))) (mget a k c)
    let d := red k
    if d.le tiny then (rows, k + 1)
    else
      let r := wide.sqrt d
      cholGo tiny a fuel (k + 1) (rows ++ [(List.range (mrows a)).map (fun c =>
        if c < k then zeroV else if c = k then r else wide.div (red c) r)])

/-- The first `j` rows of R̂ and what remains, as a run may have computed them within `slack`: each diagonal value before its
square root lies above the threshold, and R̂ᵀR̂ with the rest lies within the backward error of the factorization. -/
def cholPartOk (f : Fmt) (u : Int) (tiny : FVal) (slack a : Mat) (j : Nat) (c : Mat) : Bool :=
  let n := mrows a
  let r := upperPart j c
  let rest := symUpper (restPart j c)
  mfin c && (List.range j).all (fun i => FVal.lt zeroV (mget c i i) && (f.sqrt tiny).le (mget c i i))
    && mle (mabs (msub a (madd (mmul (mtr r) r) rest)))
      (madd slack (mscale (gam (2 * n) u) (madd (mmul (mabs (mtr r)) (mabs r)) (mabs rest))))

/-- Cholesky of a finite symmetric matrix known within `slack`, with R̂ in `lu`; it fails at a step whose diagonal value before
the square root is at most the threshold for values within the backward error (R174, R175, R78). -/
def cholFactor (f : Fmt) (u : Int) (tiny : FVal) (k base : Nat) (slack a : Mat) : Factor :=
  let n := mrows a
  let good := cholGo tiny a n 0 []
  let j := Config.freeAt k base % (n + 1)
  let c := upperOf (mfree f k (base + 128) n n)
  let exact := slack.all (fun r => r.all FVal.isZero)
  if exact ∧ (mget a 0 0).le tiny then { info := 1 }
  else if j < n ∧ (0 < j ∨ !exact) ∧ cholPartOk f u tiny slack a j c ∧ (mget c j j).le tiny then { info := j + 1 }
  else if cholPartOk f u tiny slack a n c then { info := 0, lu := c }
  else if good.2 = 0 then { info := 0, lu := mround f good.1 }
  else { info := good.2 }

/-! ### A run of the procedures in the operator's format

For a system with a NaN or an infinity: every operation rounds into the format, so that both propagate (R67, R175). -/

/-- Forward substitution with every operation rounded. -/
def runForwardGo (f : Fmt) (t b : Mat) : Nat → Nat → List FVal → List FVal
  | 0, _, ys => ys
  | fuel + 1, i, ys =>
    let acc := (List.range i).foldl (fun a j => f.sub a (f.mul (mget t i j) (ys.getD j zeroV))) (mget b i 0)
    runForwardGo f t b fuel (i + 1) (ys ++ [f.div acc (mget t i i)])

def runForward (f : Fmt) (t b : Mat) : Mat := (runForwardGo f t b (mrows t) 0 []).map (fun y => [y])
def runBackward (f : Fmt) (t b : Mat) : Mat := (runForward f (flip2 t) b.reverse).reverse

/-- Elimination with every operation rounded; the pivot is the largest candidate that is not a NaN. -/
def runLu (f : Fmt) : Nat → Nat → LuRows → LuRows
  | 0, _, rows => rows
  | fuel + 1, k, rows =>
    let p := pivotRow rows k
    let piv := rows.getD p (0, [])
    let sw := (rows.set p (rows.getD k (0, []))).set k piv
    runLu f fuel (k + 1) (sw.mapIdx (fun i r => if k < i then
      (r.1, let m := f.div (r.2.getD k zeroV) (piv.2.getD k zeroV)
            r.2.mapIdx (fun j v => if j < k then v else if j = k then m else f.sub v (f.mul m (piv.2.getD j zeroV)))) else r))

/-- Cholesky with every operation rounded. -/
def runChol (f : Fmt) (a : Mat) : Nat → Nat → Mat → Mat
  | 0, _, rows => rows
  | fuel + 1, k, rows =>
    let red := fun (c : Nat) => (List.range k).foldl (fun acc j =>
      f.sub acc (f.mul (mget rows j k) (mget rows j c))) (mget a k c)
    let r := f.sqrt (red k)
    runChol f a fuel (k + 1) (rows ++ [(List.range (mrows a)).map (fun c =>
      if c < k then zeroV else if c = k then r else f.div (red c) r)])

/-- The NaNs and infinities of a run, its finite elements free: R78 bounds no system with INFO −1. -/
def oddValues (f : Fmt) (k base : Nat) (run : Mat) : Mat :=
  mk (mrows run) (mcols run) (fun r c =>
    let v := mget run r c
    let w := f.decode (Config.freeAt k (base + r * mcols run + c) % 2 ^ f.width)
    if isFin v ∧ isFin w then w else v)

end Sys2Proof.Machine
end

