-- ==== Sys2Proof/Machine/Sci.lean ====
section
/-!
DEFINITION. Scientific operators on thumbs: dense solves, products, stencils, integrators and Kalman filters (R170 to R185).
-/

namespace Sys2Proof.Machine

/-! ### Shared -/

/-- Bytes of matrices, one per system (R171). -/
def matBytes (out : GTen) (ms : List Mat) (s : State) : List Byte := (encodeOut out (ms.flatMap (fun m => m.flatten)) s).1

/-- Bytes of an INFO vector. -/
def infoBytes (is : List Int) : List Byte := packElems 0x03 (is.map (uenc 32))

/-- INFO values that are failures. -/
def fails (is : List Int) : Nat := (is.filter (fun i => decide (0 < i))).length

/-- The events of each system: one NaN event for a failure (R175). -/
def failParts (is : List Int) : List (Nat × Nat) := is.map (fun i => (0, b2n (decide (0 < i))))

/-- An all-NaN matrix. -/
def nanMat (rows cols : Nat) : Mat := mk rows cols (fun _ _ => .nan)

/-- A matrix result as elements, row by row. -/
def matEls (v y b : Mat) : List El :=
  (v.flatten.zip (y.flatten.zip b.flatten)).map (fun p => ⟨p.1, 0, p.2.1, p.2.2⟩)

/-- Results within elementwise bounds. -/
def pickMat (f : Fmt) (k base : Nat) (yhat bound : Mat) : Mat :=
  mk (mrows yhat) (mcols yhat) (fun r c => pick f k (base + r * mcols yhat + c) (mget yhat r c) (mget bound r c))

/-- (C + Cᵀ) / 2 with one rounding. -/
def symmetrize (f : Fmt) (c : Mat) : Mat :=
  mk (mrows c) (mrows c) (fun i j => f.round (((mget c i j).add (mget c j i)).scale2 (-1)))

/-- The bound of a symmetrized matrix: that of its elements, and half an ulp. -/
def symBound (f : Fmt) (y b : Mat) : Mat := madd (symmetrize wide b) ((symmetrize wide y).map (fun r => r.map f.half))

/-- A matrix's row, column. -/
def mrow (a : Mat) (r : Nat) : List FVal := a.getD r []
def mcol (a : Mat) (c : Nat) : List FVal := a.map (fun r => r.getD c zeroV)

/-- NaNs made in a matrix result: elements that are NaN though none of their own operands is (R73). -/
def madeNans (ops : Nat → Nat → List FVal) (r : Mat) : Nat :=
  ((List.range (mrows r)).map (fun i => ((List.range (mcols r)).filter (fun j => nanMade (ops i j) (mget r i j))).length)).foldl
    (· + ·) 0

/-- NaNs made by (C + Cᵀ) / 2. -/
def symNans (c z : Mat) : Nat := madeNans (fun i j => [mget c i j, mget c j i]) z

/-! ### Dense solves (R173 to R175) -/

/-- What a solve makes of one system. -/
structure Solved where
  info : Int
  y : Mat
  lu : Mat
  piv : List Nat
  deriving DecidableEq, Repr

/-- The pivot row of each step, from the order of rows that the exchanges leave. -/
def exchanges (n : Nat) (perm : List Nat) : List Nat :=
  ((List.range n).foldl (fun (a : List Nat × List Nat) k =>
    let p := a.1.findIdx (fun x => x == perm.getD k 0)
    ((a.1.set p (a.1.getD k 0)).set k (a.1.getD p 0), a.2 ++ [p])) (List.range n, [])).2

/-- A system whose matrix or right-hand side is not finite: INFO −1, and the NaNs and infinities of a run of the procedure. -/
def oddSystem (f : Fmt) (k base : Nat) (y lu : Mat) (piv : List Nat) : Solved :=
  ⟨-1, oddValues f k base y, oddValues f k (base + 2 ^ 20) lu, piv⟩

/-- A failed system: INFO, all NaN; nothing is stated of the factors. -/
def failedSystem (f : Fmt) (k base n nrhs : Nat) (info : Int) : Solved :=
  ⟨info, nanMat n nrhs, mfree f k (base + 2 ^ 20) n n, (List.range n).map (fun i => Config.freeAt k (base + 2 ^ 21 + i) % max 1 n)⟩

/-- Solve each right-hand side. -/
def eachRhs (b : Mat) (g : Nat → Mat → Mat) : Mat := fromColumns (mrows b) ((columns b).mapIdx g)

/-- LU_SOLVE on one system. -/
def luSystem (f : Fmt) (u : Int) (tiny : FVal) (k base : Nat) (a b : Mat) : Solved :=
  let n := mrows a
  if !mfin a || !mfin b then
    let rows := runLu f n 0 (a.mapIdx (fun i r => (i, r)))
    let lu := rows.map (·.2)
    let perm := rows.map (·.1)
    oddSystem f k base (eachRhs b (fun _ v => runBackward f (upperOf lu) (runForward f (lowerOf lu) (permute perm v)))) lu
      (exchanges n perm)
  else
    let x := luFactor f u tiny k base a
    if x.info ≠ 0 then failedSystem f k base n (mcols b) x.info
    else
      let lim := mscale (gam (3 * n) u) (mmul (mabs (lowerOf x.lu)) (mabs (upperOf x.lu)))
      ⟨0, eachRhs b (fun c v => luSolve f k (base + 2 ^ 20 + 64 * c) x a v (mmul lim)), x.lu, exchanges n x.perm⟩

/-- CHOL_SOLVE on one system. -/
def cholSystem (f : Fmt) (u : Int) (tiny : FVal) (k base : Nat) (a0 b : Mat) : Solved :=
  let a := symUpper a0
  let n := mrows a
  if !mfin a || !mfin b then
    let r := runChol f a n 0 []
    oddSystem f k base (eachRhs b (fun _ v => runBackward f r (runForward f (mtr r) v))) r []
  else
    let x := cholFactor f u tiny k base (mscale zeroV a) a
    if x.info ≠ 0 then failedSystem f k base n (mcols b) x.info
    else
      let lim := mscale (gam (3 * n + 1) u) (mmul (mabs (mtr x.lu)) (mabs x.lu))
      ⟨0, eachRhs b (fun c v => solvePick f (mfree f k (base + 2 ^ 20 + 64 * c) n 1)
        (backward x.lu (forward (mtr x.lu) v)) a v (mmul lim)), x.lu, []⟩

/-- The triangle TRI_SOLVE reads, with its unit diagonal and transpose (R173). -/
def triOf (flags : Nat) (a0 : Mat) : Mat :=
  let tri := mk (mrows a0) (mrows a0) (fun r c =>
    if r = c then (if bit flags 2 then oneV else mget a0 r c)
    else if (r < c) = (bit flags 0 = true) then mget a0 r c else zeroV)
  if bit flags 1 then mtr tri else tri

/-- TRI_SOLVE on one system; its steps are counted in the order of the substitution. -/
def triSystem (f : Fmt) (u : Int) (tiny : FVal) (flags k base : Nat) (a0 b0 : Mat) : Solved :=
  let n := mrows a0
  let up := bit flags 0
  let t0 := triOf flags a0
  let flip : Bool := up != bit flags 1
  let t := if flip then flip2 t0 else t0
  let b := if flip then b0.reverse else b0
  if !mfin t || !mfin b then
    let y := eachRhs b (fun _ v => runForward f t v)
    oddSystem f k base (if flip then y.reverse else y) [] []
  else
    match (List.range n).find? (fun i => !bit flags 2 && (mget t i i).abs.le tiny) with
    | some i => failedSystem f k base n (mcols b) (i + 1)
    | none =>
      let lim := mscale (gam n u) (mabs t)
      let y := eachRhs b (fun c v => solvePick f (mfree f k (base + 64 * c) n 1) (forward t v) t v (mmul lim))
      ⟨0, if flip then y.reverse else y, [], []⟩

/-- LU_SOLVE, CHOL_SOLVE (`kind` 1), TRI_SOLVE (`kind` 2). -/
def opSolve (kind k : Nat) (o : GOp) (ins : List (Option TVal)) (out : GTen) (s : State) : OpRes :=
  let f := laneFmt out
  let u := lanU out
  let tiny := fp64.decode (o.p64 8)
  let one := fun (b : Nat) =>
    let a := matOf (inp ins 0) b s
    let r := matOf (inp ins 1) b s
    let base := b * 2 ^ 24
    if kind = 0 then luSystem f u tiny k base a r
    else if kind = 1 then cholSystem f u tiny k base a r
    else triSystem f u tiny (o.p8 2) k base a r
  let rs := (List.range (tdim out 2)).map one
  let infos := rs.map (·.info)
  { outs := [matBytes out (rs.map (·.y)) s, infoBytes infos, matBytes out (rs.map (·.lu)) s,
      infoBytes (rs.flatMap (fun r => r.piv.map Int.ofNat))]
    parts := [failParts infos]
    fatal := bit (o.p8 2) 3 && decide (fails infos ≠ 0) }

/-! ### Products and stencils (R176 to R178) -/

/-- THUMB_MATMUL. -/
def opThumbMatmul (k : Nat) (o : GOp) (ins : List (Option TVal)) (out : GTen) (s : State) : OpRes :=
  let f := laneFmt out
  let u := lanU out
  let fl := o.p8 0
  let alpha := f.round (fp64.decode (o.p64 8))
  let one := fun (b : Nat) =>
    let a0 := matOf (inp ins 0) b s
    let b0 := matOf (inp ins 1) b s
    let a := if bit fl 0 then mtr a0 else a0
    let w := if bit fl 1 then mtr b0 else b0
    let c := if bit fl 2 then matOf (inp ins 2) b s else []
    let n := mcols a + b2n (!(alpha.add oneV.neg).isZero) + b2n (bit fl 2)
    let ab := mscale alpha (mmul a w)
    let mag := mscale alpha.abs (mmul (mabs a) (mabs w))
    let yhat := if bit fl 2 then madd ab c else ab
    let lim := if bit fl 2 then madd mag (mabs c) else mag
    let bound := mscale (unitN n u) lim
    let y := pickMat f k (b * 2 ^ 24) yhat bound
    let z := if bit fl 3 then symmetrize f y else y
    let made := madeNans (fun i j => alpha :: mget c i j :: mrow a i ++ mcol w j) y
    (z, made + (if bit fl 3 then symNans y z else 0), if bit fl 3 then symmetrize wide yhat else yhat,
      if bit fl 3 then symBound f yhat bound else bound)
  let rs := (List.range (tdim out 2)).map one
  { outs := [matBytes out (rs.map (·.1)) s], parts := [rs.map (fun r => (0, r.2.1))]
    els := rs.flatMap (fun r => matEls r.1 r.2.2.1 r.2.2.2) }

/-- One application of a stencil to the values of a feature map. -/
def stencilOnce (f : Fmt) (u : Int) (k base : Nat) (o : GOp) (w src : Option TVal) (x : GTen) (vs : List FVal) (s : State) :
    List El :=
  let rh := o.p8 0
  let rw := o.p8 1
  let kw := 2 * rw + 1
  let taps := (2 * rh + 1) * kw
  (List.range vs.length).map (fun i =>
    match coordsOf (tdims x) i with
    | c :: wo :: ho :: b :: _ =>
      let ps := (List.range taps).map (fun t =>
        let v := match mapIndex x (o.p8 2) c ((wo + t % kw : Nat) - (rw : Int)) ((ho + t / kw : Nat) - (rh : Int)) b with
          | some j => vs.getD j zeroV
          | none => zeroV
        (v, (w.map (fun q => q.val (c * taps + t) s)).getD zeroV))
      let add := (src.map (fun q => [q.val i s])).getD []
      let terms := prods ps ++ add
      sumEl f k (base + i) (taps + 1) u zeroV (ps.flatMap (fun p => [p.1, p.2]) ++ add) terms
    | _ => El.sure zeroV)

/-- ITER applications, each rounded once to the format; the elements of each, in order. -/
def stencilGo (f g : Fmt) (u : Int) (k : Nat) (o : GOp) (w src : Option TVal) (x : GTen) (s : State) :
    Nat → Nat → List FVal → List (List El)
  | 0, _, _ => []
  | n + 1, j, vs =>
    let rs := stencilOnce f u k (j * 2 ^ 40) o w src x vs s
    rs :: stencilGo f g u k o w src x s n (j + 1) (rs.map (fun e => g.round e.v))

/-- STENCIL: a layer for each application (R178). -/
def opStencil (k : Nat) (o : GOp) (ins : List (Option TVal)) (out : GTen) (s : State) : OpRes :=
  let x := inp ins 0
  let f := laneFmt out
  let g := (elemFmt out.fmt).getD fp32
  let layers := stencilGo f g (lanU out) k o (some (inp ins 1)) (ins.getD 2 none) x.ten s (o.p8 3) 0
    ((List.range out.elems).map (fun i => x.val i s))
  let r := emit out (layers.getLastD []) s
  { r with parts := layers.dropLast.map (fun l => l.map (fun e => (0, e.ev))) ++ r.parts }

/-! ### Integrators (R179 to R181) -/

/-- The system x' = Ax + Bu + c of a firing: A, the constant part Bu + c of a step with the magnitudes, h, n + m. -/
structure Affine where
  a : Mat
  g : Mat
  gmag : Mat
  h : FVal
  nm : Nat
  deriving DecidableEq, Repr

/-- x + h (A x + g). -/
def eulerOf (q : Affine) (x base : Mat) (h : FVal) : Mat := madd base (mscale h (madd (mmul q.a x) q.g))

/-- EULER: the formula on x, and its bound. -/
def eulerStep (u : Int) (q : Affine) (x : Mat) : Mat × Mat :=
  let lim := madd (mabs x) (mscale q.h (madd (mmul (mabs q.a) (mabs x)) q.gmag))
  (eulerOf q x x q.h, mscale (unitN (q.nm + 3) u) lim)

/-- RK4: the formula on x, and its bound; the stage arguments are those the computing side forms, each rounded to the format
(R181). -/
def rk4Step (f : Fmt) (u : Int) (q : Affine) (x : Mat) : Mat × Mat :=
  let h2 := q.h.scale2 (-1)
  let fx := fun (v : Mat) => madd (mmul q.a v) q.g
  let x2 := mround f (eulerOf q x x h2)
  let x3 := mround f (eulerOf q x2 x h2)
  let x4 := mround f (eulerOf q x3 x q.h)
  let six := madd (madd (fx x) (mscale (unitN 2 0) (fx x2))) (madd (mscale (unitN 2 0) (fx x3)) (fx x4))
  let yhat := madd x (mscale (wide.div q.h (unitN 6 0)) six)
  let mag := fun (v : Mat) => madd (mmul (mabs q.a) (mabs v)) q.gmag
  let lim := madd (mabs x) (mscale q.h (madd (madd (mag x) (mag x2)) (madd (mag x3) (mag x4))))
  (yhat, mscale (unitN (4 * q.nm + 12) u) lim)

/-- M = I - θhA of the implicit methods. -/
def implicitMat (q : Affine) (th : FVal) : Mat := msub (mid (mrows q.a)) (mscale (th.mul q.h) q.a)

/-- The right-hand side of an implicit step from x, and its backward bound for |y| with the factors of M. -/
def implicitSide (u : Int) (q : Affine) (th : FVal) (x lu : Mat) : Mat × (Mat → Mat) :=
  let n := mrows q.a
  let rest := q.h.mul (oneV.add th.neg)
  let r := madd (madd x (mscale rest (mmul q.a x))) (mscale q.h q.g)
  let dm := madd (mscale (gam (3 * n) u) (mmul (mabs (lowerOf lu)) (mabs (upperOf lu))))
    (mscale (unitN 1 u) (madd (mid n) (mscale (th.mul q.h) (mabs q.a))))
  let dr := mscale (gam (q.nm + 3) u) (madd (madd (mabs x) (mscale rest (mmul (mabs q.a) (mabs x)))) (mscale q.h q.gmag))
  (r, fun y => madd (mmul dm y) dr)

/-- An implicit step with the factors of M, within its backward bound. -/
def implicitStep (f : Fmt) (u : Int) (k i : Nat) (q : Affine) (th : FVal) (x : Mat) (lu : Factor) : Mat :=
  let r := implicitSide u q th x lu.lu
  luSolve f k i lu (implicitMat q th) r.1 r.2

/-- An implicit step of a system with a NaN or an infinity: a run with the factors of M, every operation rounded. -/
def oddStep (f : Fmt) (k i : Nat) (q : Affine) (th : FVal) (x : Mat) : Mat :=
  let m := mround f (implicitMat q th)
  let r := mround f (madd (madd x (mscale (q.h.mul (oneV.add th.neg)) (mmul q.a x))) (mscale q.h q.g))
  let rows := runLu f (mrows m) 0 (m.mapIdx (fun i r => (i, r)))
  let lu := rows.map (·.2)
  oddValues f k i (runBackward f (upperOf lu) (runForward f (lowerOf lu) (permute (rows.map (·.1)) r)))

/-- The trajectory of a system from x, oldest first. -/
def trajectory (step : Nat → Mat → Mat) : Nat → Nat → Mat → List Mat
  | 0, _, _ => []
  | n + 1, i, x =>
    let y := step i x
    y :: trajectory step n (i + 1) y

/-- θ of an implicit method. -/
def methodTheta (o : GOp) : FVal := if o.p8 0 = 2 then oneV else unitN 1 (-1)

/-- The system of step `j` of batch `b` (R179). -/
def affineOf (f : Fmt) (o : GOp) (ins : List (Option TVal)) (b j : Nat) (s : State) : Affine :=
  let n := o.p8 4
  let m := o.p8 5
  let bm := if m = 0 then [] else matOf (inp ins 2) b s
  let cv := if bit (o.p8 1) 3 then vecOf (inp ins 4) b s else mk n 1 (fun _ _ => zeroV)
  let uv :=
    if m = 0 then []
    else if bit (o.p8 1) 1 then mk m 1 (fun r _ => (inp ins 3).val (castIx (inp ins 3).ten [r, j, b]) s)
    else vecOf (inp ins 3) b s
  let bu := if m = 0 then mk n 1 (fun _ _ => zeroV) else mmul bm uv
  let bum := if m = 0 then mk n 1 (fun _ _ => zeroV) else mmul (mabs bm) (mabs uv)
  ⟨matOf (inp ins 1) b s, madd bu cv, madd bum (mabs cv), f.round (fp64.decode (o.p64 8)), n + m⟩

/-- INTEGRATE. -/
def opIntegrate (k : Nat) (o : GOp) (ins : List (Option TVal)) (out : GTen) (s : State) : OpRes :=
  let f := laneFmt out
  let u := lanU out
  let fl := o.p8 1
  let steps := o.p16 2
  let meth := o.p8 0
  let th := methodTheta o
  let batch := if bit fl 0 then tdim out 2 else tdim out 1
  let one := fun (b : Nat) =>
    let x0 := vecOf (inp ins 0) b s
    let sys := fun (j : Nat) => affineOf f o ins b j s
    let odd := !(mfin x0 && (List.range steps).all (fun j => mfin (sys j).a && mfin (sys j).g && mfin (sys j).gmag))
    let base := b * 2 ^ 32
    let lu := luFactor f u zeroV k base (implicitMat (sys 0) th)
    let step := fun (j : Nat) (x : Mat) =>
      let i := base + 2 ^ 20 + 64 * j
      let near := fun (e : Mat × Mat) => pickMat f k i e.1 e.2
      if meth = 0 then near (eulerStep u (sys j) x)
      else if meth = 1 then near (rk4Step f u (sys j) x)
      else if odd then oddStep f k i (sys j) th x
      else implicitStep f u k i (sys j) th x lu
    let xs := trajectory step steps 0 x0
    let info : Int := if odd then -1 else if meth < 2 then 0 else lu.info
    let res : Mat := if bit fl 0 then xs.map (fun x => x.flatten) else xs.getLastD []
    if 0 < info then (nanMat (mrows res) (mcols res), info) else (res, info)
  let rs := (List.range batch).map one
  let infos := rs.map (·.2)
  { outs := [matBytes out (rs.map (·.1)) s, infoBytes infos]
    parts := [failParts infos]
    fatal := bit fl 2 && decide (fails infos ≠ 0) }

/-! ### Kalman filtering (R182 to R185) -/

/-- KALMAN_PREDICT. -/
def opKalmanPredict (k : Nat) (o : GOp) (ins : List (Option TVal)) (outs : List GTen) (s : State) : OpRes :=
  let x0 := outs.getD 0 (gten ⟨4, 1, 0, []⟩)
  let f := laneFmt x0
  let u := lanU x0
  let n := o.p8 0
  let m := o.p8 1
  let one := fun (b : Nat) =>
    let x := vecOf (inp ins 0) b s
    let p := matOf (inp ins 1) b s
    let fm := matOf (inp ins 2) b s
    let q := matOf (inp ins 3) b s
    let bm := if m = 0 then [] else matOf (inp ins 4) b s
    let uv := if m = 0 then [] else vecOf (inp ins 5) b s
    let xe := if m = 0 then mmul fm x else madd (mmul fm x) (mmul bm uv)
    let xl := if m = 0 then mmul (mabs fm) (mabs x) else madd (mmul (mabs fm) (mabs x)) (mmul (mabs bm) (mabs uv))
    let xb := mscale (unitN (n + m) u) xl
    let xp := pickMat f k (b * 2 ^ 24) xe xb
    let pe := madd (mmul fm (mmul p (mtr fm))) q
    let pl := madd (mmul (mabs fm) (mmul (mabs p) (mabs (mtr fm)))) (mabs q)
    let pb := mscale (gam (2 * n + 1) u) pl
    let p1 := pickMat f k (b * 2 ^ 24 + 64) pe pb
    let pp := symmetrize f p1
    ((matEls xp xe xb, matEls pp (symmetrize wide pe) (symBound f pe pb)), xp, pp, madeNans (fun i j => mrow fm i ++ mcol x j ++ (if m = 0 then [] else mrow bm i ++ mcol uv j)) xp
      + madeNans (fun i j => mget q i j :: mrow fm i ++ p.flatten ++ mrow fm j) p1 + symNans p1 pp)
  let rs := (List.range (tdim x0 1)).map one
  { outs := [matBytes x0 (rs.map (·.2.1)) s, matBytes (outs.getD 1 x0) (rs.map (·.2.2.1)) s]
    parts := [rs.map (fun r => (0, r.2.2.2))], els := rs.flatMap (·.1.1), els1 := rs.flatMap (·.1.2) }

/-- What an update makes of one system: x, P, INFO, d². -/
abbrev Updated := Mat × Mat × Int × FVal

/-- The matrices of an update and its factor of S. -/
structure Update where
  x : Mat
  p : Mat
  z : Mat
  h : Mat
  zz : Mat
  r : Mat
  deriving DecidableEq, Repr

/-- S, and the slack of R185 on K̃(S) - PHᵀ for a gain. -/
def Update.sm (q : Update) : Mat := madd (mmul q.h (mmul q.p (mtr q.h))) q.zz
def Update.slack (u : Int) (q : Update) (g : Mat) : Mat :=
  let n := mrows q.x
  let m := mrows q.z
  let ht := mtr q.h
  let ds := madd (mscale (gam (3 * m + 1) u) (mmul (mabs (mtr q.r)) (mabs q.r)))
    (mscale (gam (n + 1) u) (madd (mmul (mabs q.h) (mmul (mabs q.p) (mabs ht))) (mabs q.zz)))
  madd (mmul (mabs g) ds) (mscale (gam n u) (mmul (mabs q.p) (mabs ht)))

/-- x⁺ of a gain, and its bound. -/
def Update.next (u : Int) (q : Update) (g : Mat) : Mat × Mat :=
  (madd q.x (mmul g (msub q.z (mmul q.h q.x))), mscale (gam (mrows q.z + mrows q.x + 2) u)
    (madd (mabs q.x) (mmul (mabs g) (madd (mabs q.z) (mmul (mabs q.h) (mabs q.x))))))

/-- P⁺ of a gain before symmetrization, and its bound. -/
def Update.cov (u : Int) (joseph : Bool) (q : Update) (g : Mat) : Mat × Mat :=
  let n := mrows q.x
  let ikh := msub (mid n) (mmul g q.h)
  if joseph then
    (madd (mmul ikh (mmul q.p (mtr ikh))) (mmul g (mmul q.zz (mtr g))),
      mscale (gam (3 * n + mrows q.z + 2) u) (madd (mmul (mabs ikh) (mmul (mabs q.p) (mabs (mtr ikh))))
        (mmul (mabs g) (mmul (mabs q.zz) (mabs (mtr g))))))
  else (msub q.p (mmul g (mmul q.h q.p)),
    mscale (gam (n + 1) u) (madd (mabs q.p) (mmul (mabs g) (mmul (mabs q.h) (mabs q.p)))))

/-- The update of one system with a factor of S (R184, R185). -/
def kalmanApply (f : Fmt) (u : Int) (joseph : Bool) (k base : Nat) (q : Update) (d2 : FVal) : Updated :=
  let hp := mmul q.h q.p
  let good := mtr (eachRhs hp (fun _ v => backward q.r (forward (mtr q.r) v)))
  let cand := mfree f k base (mrows q.x) (mrows q.z)
  let g := if mfin cand && mle (mabs (msub (mmul cand q.sm) (mmul q.p (mtr q.h)))) (q.slack u cand) then cand else mround f good
  let x := q.next u g
  let p := q.cov u joseph g
  (pickMat f k (base + 2 ^ 13) x.1 x.2, symmetrize f (pickMat f k (base + 2 ^ 14) p.1 p.2), 0, d2)

/-- An update whose x or P holds a NaN or an infinity: the NaNs and infinities of a run with every operation rounded, under
INFO 0 (R67, R184). -/
def kalmanOdd (f : Fmt) (joseph : Bool) (k base : Nat) (x p z h zz : Mat) (d2 : FVal) : Updated :=
  let mm := fun (a b : Mat) => mk (mrows a) (mcols b) (fun r c =>
    ((List.range (mcols a)).map (fun i => f.mul (mget a r i) (mget b i c))).foldl f.add zeroV)
  let rnd := mround f
  let hp := mm h p
  let ht := mtr h
  let r := runChol f (symUpper (rnd (madd (mm hp ht) zz))) (mrows z) 0 []
  let g := mtr (eachRhs hp (fun _ v => runBackward f r (runForward f (mtr r) v)))
  let xp := rnd (madd x (mm g (rnd (msub z (mm h x)))))
  let ikh := rnd (msub (mid (mrows x)) (mm g h))
  let pp := if joseph then rnd (madd (mm ikh (mm p (mtr ikh))) (mm g (mm zz (mtr g)))) else rnd (msub p (mm g hp))
  (oddValues f k (base + 2) xp, symmetrize f (oddValues f k (base + 2 ^ 13) pp), 0, d2)

/-- One system of KALMAN_UPDATE: S is known within γ_{n+1} · (|H||P||Hᵀ| + |Z|) (R185), so its factorization fails where
values within that leave a diagonal value at or below 0; d² is not bounded by the spec and is free. -/
def kalmanSystem (f : Fmt) (u : Int) (fl k base : Nat) (gate : FVal) (x p z h zz : Mat) : Updated :=
  let d2 := (f.decode (Config.freeAt k base % 2 ^ f.width)).abs
  if !(mfin z && mfin h && mfin zz) then (x, p, -1, d2)
  else if !(mfin x && mfin p) then
    kalmanOdd f (bit fl 0) k base x p z h zz d2
  else
    let sm := symmetrize wide (madd (mmul h (mmul p (mtr h))) zz)
    let slack := mscale (gam (mrows x + 1) u) (madd (mmul (mabs h) (mmul (mabs p) (mabs (mtr h)))) (mabs zz))
    let r := cholFactor f u zeroV k (base + 2 ^ 16) slack sm
    if r.info ≠ 0 then (x, p, r.info, d2)
    else if bit fl 1 ∧ FVal.lt gate d2 then (x, p, -2, d2)
    else kalmanApply f u (bit fl 0) k (base + 128) ⟨x, p, z, h, zz, r.lu⟩ d2

/-- KALMAN_UPDATE. -/
def opKalmanUpdate (k : Nat) (o : GOp) (ins : List (Option TVal)) (outs : List GTen) (s : State) : OpRes :=
  let x0 := outs.getD 0 (gten ⟨4, 1, 0, []⟩)
  let f := laneFmt x0
  let one := fun (b : Nat) => kalmanSystem f (lanU x0) (o.p8 2) k (b * 2 ^ 24) (fp64.decode (o.p64 8))
    (vecOf (inp ins 0) b s) (matOf (inp ins 1) b s) (vecOf (inp ins 2) b s) (matOf (inp ins 3) b s) (matOf (inp ins 4) b s)
  let rs := (List.range (tdim x0 1)).map one
  let infos := rs.map (·.2.2.1)
  { outs := [matBytes x0 (rs.map (·.1)) s, matBytes (outs.getD 1 x0) (rs.map (·.2.1)) s, infoBytes infos,
      matBytes x0 (rs.map (fun r => [[r.2.2.2]])) s]
    fatal := bit (o.p8 2) 2 && decide (fails infos ≠ 0) }

end Sys2Proof.Machine
end

