-- ==== Sys2Proof/Machine/Tiling.lean ====
section
/-!
DEFINITION. How the fitter maps operators onto fingers and cuts fused groups into tiles: chained arrays and mappings (R55,
R126, R130 to R132, R178), tiling units, working sets, tile sizes and the part of every layer that a tile computes (R143 to
R147).
-/

namespace Sys2Proof.Machine

/-! ### Chained arrays (R55, R94) -/

/-- A legal chained array: its CHAIN code, rows and columns of cells, and whether it takes a quad. -/
structure Arr where
  code : Nat
  rows : Nat
  cols : Nat
  quad : Bool
  deriving DecidableEq, Repr

/-- The arrays of R55, in the order in which ties are decided: glove scope first, then fewer rows (R126, R132), then the lower
CHAIN code (assumption 152). -/
def arrays : List Arr :=
  [⟨0, 16, 16, false⟩, ⟨1, 16, 32, false⟩, ⟨4, 16, 64, false⟩, ⟨2, 32, 16, false⟩, ⟨3, 32, 32, false⟩, ⟨5, 64, 16, false⟩,
   ⟨8, 16, 128, true⟩, ⟨6, 32, 64, true⟩, ⟨11, 32, 128, true⟩, ⟨7, 64, 32, true⟩, ⟨10, 64, 64, true⟩,
   ⟨9, 128, 16, true⟩, ⟨12, 128, 32, true⟩]

/-- The arrays of an array scope: those of a glove, or of a glove and a quad (R126). -/
def arraysOf (quad : Bool) : List Arr := arrays.filter (fun a => quad || !a.quad)

/-- ⌈a / b⌉. -/
def ceilDiv (a b : Nat) : Nat := (a + b - 1) / max 1 b

/-! ### Mappings (R126, R130 to R132) -/

/-- A mapping on an array with its useful MACs per cycle, U × R × C, as a fraction. -/
structure Mapped where
  /-- 1 dense, 2 block-diagonal, 3 tap-diagonal -/
  map : Nat
  arr : Arr
  num : Nat
  den : Nat
  deriving DecidableEq, Repr

/-- Dense mapping of a product with reduction `k` and `n` columns (R126): U × R × C = K · N / (⌈K/R⌉ · ⌈N/C⌉). -/
def denseOn (k n : Nat) (a : Arr) : Mapped := ⟨1, a, k * n, ceilDiv k a.rows * ceilDiv n a.cols⟩

/-- The grouped-convolution shape that the mappings depend on. -/
structure ConvShape where
  ci : Nat
  co : Nat
  kh : Nat
  kw : Nat
  groups : Nat
  deriving DecidableEq, Repr

def ConvShape.ciG (c : ConvShape) : Nat := c.ci / max 1 c.groups
def ConvShape.coG (c : ConvShape) : Nat := c.co / max 1 c.groups
def ConvShape.taps (c : ConvShape) : Nat := c.kh * c.kw

/-- Groups that block-diagonal mapping holds at once (R130). -/
def ConvShape.blocks (c : ConvShape) (a : Arr) : Nat := min (a.rows / max 1 c.ciG) (a.cols / max 1 c.coG)

/-- A mapping of a convolution on an array; none where it is not legal for the shape (R130, R131). -/
def convOn (c : ConvShape) (map : Nat) (a : Arr) : Option Mapped :=
  match map with
  | 1 => some (denseOn (c.ciG * c.taps) c.coG a)
  | 2 =>
    if c.ciG ≤ a.rows ∧ c.coG ≤ a.cols then some ⟨2, a, c.ciG * c.coG * c.groups, ceilDiv c.groups (c.blocks a)⟩ else none
  | 3 =>
    if c.ciG = 1 ∧ c.taps ≤ a.rows then some ⟨3, a, a.rows / max 1 c.taps * c.taps * c.co, ceilDiv c.co a.cols⟩ else none
  | _ => none

/-- The mapping with the greatest U × R × C, the earlier on a tie. -/
def bestMapped (ms : List Mapped) : Option Mapped :=
  ms.foldl (fun b m =>
    match b with
    | none => some m
    | some x => if x.num * m.den < m.num * x.den then some m else some x) none

/-- The mapping of a convolution for an array scope: the fitter's choice with MAP 0, the forced one otherwise; none where the
forced one is legal on no array of the scope (R132). -/
def convMap (c : ConvShape) (map : Nat) (quad : Bool) : Option Mapped :=
  bestMapped ((if map = 0 then [1, 2, 3] else [map]).flatMap (fun k => (arraysOf quad).filterMap (convOn c k)))

/-- A tensor of an image, by ID. -/
def tenOf (im : Image) (id : Nat) : GTen := (im.tensor id).getD (gten ⟨4, 1, 0, []⟩)

/-- Input and output tensors of an operator. -/
def inTen (im : Image) (o : GOp) (j : Nat) : GTen := tenOf im (o.ins.getD j noneId)
def outTen (im : Image) (o : GOp) (j : Nat) : GTen := tenOf im (o.outs.getD j noneId)

/-- The convolution shape of a CONV2D, or of one application of a STENCIL (R178). -/
def convShape (im : Image) (o : GOp) : ConvShape :=
  let x := inTen im o 0
  if o.opcode = 0x0310 then ⟨tdim x 0, tdim x 0, 2 * o.p8 0 + 1, 2 * o.p8 1 + 1, tdim x 0⟩
  else ⟨tdim x 0, tdim (outTen im o 0) 0, o.p8 16, o.p8 17, o.p32 28⟩

/-- The operator runs on fingers and takes a chained array: products, convolutions, and FP16 and BF16 stencils. -/
def onFingers (im : Image) (o : GOp) : Bool :=
  [0x0100, 0x0101, 0x0110].contains o.opcode || (o.opcode == 0x0310 && [0x09, 0x0A].contains (inTen im o 0).fmt)

/-- MAP of an operator: a STENCIL is tap-diagonal (R178), a 2:4 weight dense (R134). -/
def mapField (im : Image) (o : GOp) : Nat :=
  if o.opcode = 0x0310 then 3
  else if o.opcode = 0x0110 ∧ o.p8 32 = 0 ∧ (inTen im o 1).sparse then 1
  else if o.opcode = 0x0110 then o.p8 32
  else 1

/-- The mapping of an operator for an array scope. -/
def mapOf (im : Image) (quad : Bool) (o : GOp) : Option Mapped :=
  if o.opcode = 0x0110 ∨ o.opcode = 0x0310 then convMap (convShape im o) (mapField im o) quad
  else bestMapped ((arraysOf quad).map (denseOn (tdim (inTen im o 0) 0) (tdim (outTen im o 0) 0)))

/-! ### Fused groups and their tiles (R143 to R145) -/

/-- Opcodes of a sliding-window group. -/
def slidingOps : List Nat := [0x0110, 0x0120, 0x0130, 0x0131, 0x0142, 0x0154, 0x0155, 0x0310]

/-- A unit runs one tile at a time: a fused group of sliding-window operators, or a STENCIL, which the fitter lowers into
one (R178). -/
def isSliding (ops : List GOp) : Bool :=
  !ops.isEmpty && ops.all (fun o => slidingOps.contains o.opcode)
    && (ops.any (fun o => o.fuse != noneId) || ops.all (fun o => o.opcode == 0x0310))

/-- Operators in graph order: each after the operators whose outputs reach it over internal edges (R89). -/
def graphOrder (im : Image) (ops : List GOp) : Nat → List GOp → List GOp
  | 0, done => done
  | n + 1, done =>
    let ready := fun (o : GOp) => !(done.any (fun d => d.id == o.id)) &&
      im.edges.all (fun e => !(im.isInternal e && e.dst == o.id) || done.any (fun d => d.id == e.src))
    match ops.find? ready with
    | none => done
    | some o => graphOrder im ops n (done ++ [o])

/-- Stride and effective extent of a layer along an axis (0 = H, 1 = W): those of its kernel, 1 and 1 without one. -/
def strideOf (o : GOp) (axis : Nat) : Nat :=
  match o.opcode with
  | 0x0110 => o.p8 (18 + axis)
  | 0x0120 => o.p8 (3 + axis)
  | _ => 1
def extentOf (o : GOp) (axis : Nat) : Nat :=
  match o.opcode with
  | 0x0110 => (o.p8 (16 + axis) - 1) * o.p8 (20 + axis) + 1
  | 0x0120 => o.p8 (1 + axis)
  | 0x0310 => 2 * o.p8 axis * o.p8 3 + 1
  | _ => 1

/-- Positions padded before index 0 along an axis. -/
def padOf (o : GOp) (axis : Nat) : Nat :=
  match o.opcode with
  | 0x0110 => o.p8 (24 + 2 * axis)
  | 0x0120 => o.p8 (5 + 2 * axis)
  | 0x0154 => o.p8 (1 + 2 * axis)
  | 0x0310 => o.p8 axis * o.p8 3
  | _ => 0

/-- The extent of a feature map along H or W. -/
def mapExt (x : GTen) (axis : Nat) : Nat := tdim x (2 - axis)

/-- Input positions that `h` output positions need (R144), before clipping. -/
def needOf (o : GOp) (axis h : Nat) : Nat :=
  if o.opcode = 0x0155 then ceilDiv h (o.p8 axis) else (h - 1) * strideOf o axis + extentOf o axis

/-- Heights and widths needed of tensors, by tensor ID. -/
abbrev Needs := List (Nat × Nat × Nat)

/-- The need of a tensor. -/
def needAt (ns : Needs) (id : Nat) : Nat × Nat := ((ns.find? (fun e => e.1 == id)).map (·.2)).getD (0, 0)

/-- Add a need, clipped to the tensor (R144). -/
def addNeed (im : Image) (ns : Needs) (id h w : Nat) : Needs :=
  let x := tenOf im id
  let old := needAt ns id
  ns.filter (fun e => e.1 != id) ++ [(id, max old.1 (min h (mapExt x 0)), max old.2 (min w (mapExt x 1)))]

/-- The operands of a layer that are no constants. -/
def liveIns (im : Image) (o : GOp) : List Nat := o.ins.filter (fun t => t != noneId && (tenOf im t).role != 1)

/-- What a tile of t × t positions of the last layer needs of every tensor, from the last layer backward. -/
def tileNeeds (im : Image) (order : List GOp) (t : Nat) : Needs :=
  let last := (order.getLast?.bind (fun o => o.outs.head?)).getD noneId
  order.reverse.foldl (fun ns o =>
    let n := needAt ns (o.outs.headD noneId)
    if n = (0, 0) then ns
    else (liveIns im o).foldl (fun a t => addNeed im a t (needOf o 0 n.1) (needOf o 1 n.2)) ns)
    (addNeed im [] last t t)

/-- Packed bytes of a tile of a tensor. -/
def tileBytes (x : GTen) (h w : Nat) : Nat := (tdim x 0 * h * w * fmtBits x.fmt + 7) / 8

/-- Tensors made inside a group and used nowhere else. -/
def innerTensors (im : Image) (order : List GOp) : List Nat :=
  let outs := order.flatMap (·.outs)
  (outs.filter (fun t => im.edges.any (fun e => e.tensor == t && im.isInternal e)
    && im.edges.all (fun e => e.tensor != t || im.isInternal e))).eraseDups

/-- The group's inputs and outputs. -/
def groupIns (im : Image) (order : List GOp) : List Nat :=
  let outs := order.flatMap (·.outs)
  ((order.flatMap (liveIns im)).filter (fun t => !outs.contains t)).eraseDups
def groupOuts (im : Image) (order : List GOp) : List Nat :=
  ((order.flatMap (·.outs)).filter (fun t => !(innerTensors im order).contains t)).eraseDups

/-- The constant tensors of a group, per-channel scales among them (R145). -/
def groupConsts (im : Image) (order : List GOp) : List Nat :=
  let ids := (order.flatMap (·.ins)).filter (fun t => t != noneId && (tenOf im t).role == 1)
  (ids ++ (ids.filter (fun t => (tenOf im t).scaleT != noneId && (im.tensor (tenOf im t).scaleT).isSome)).map
    (fun t => (tenOf im t).scaleT)).eraseDups

/-- Bytes of the tiles between the applications of a STENCIL whose output tile is `n` (R178). -/
def stencilBytes (im : Image) (o : GOp) (n : Nat × Nat) : Nat :=
  if o.opcode ≠ 0x0310 then 0
  else
    let x := inTen im o 0
    ((List.range (o.p8 3 - 1)).map (fun j =>
      tileBytes x (min (n.1 + 2 * o.p8 0 * (j + 1)) (mapExt x 0)) (min (n.2 + 2 * o.p8 1 * (j + 1)) (mapExt x 1)))).foldl (· + ·) 0

/-- The largest array-sized weight block of a group (R145). -/
def largestBlock (im : Image) (quad : Bool) (order : List GOp) : Nat :=
  (order.map (fun o =>
    if !onFingers im o then 0
    else match mapOf im quad o with
      | none => 0
      | some m => (m.arr.rows * m.arr.cols * fmtBits (inTen im o 1).fmt + 7) / 8)).foldl max 0

/-- The working set of a tile of t × t positions (R145): constants when resident, else two of the largest weight blocks; twice
the input and the output tiles; and every intermediate tile that stays in the palms. -/
def workingSet (im : Image) (quad : Bool) (order : List GOp) (resident : Bool) (spilled : List Nat) (t : Nat) : Nat :=
  let ns := tileNeeds im order t
  let of := fun (ids : List Nat) => (ids.map (fun id => tileBytes (tenOf im id) (needAt ns id).1 (needAt ns id).2)).foldl (· + ·) 0
  (if resident then ((groupConsts im order).map (fun id => (tenOf im id).size)).foldl (· + ·) 0
   else 2 * largestBlock im quad order)
    + 2 * of (groupIns im order) + 2 * of (groupOuts im order)
    + of ((innerTensors im order).filter (fun id => !spilled.contains id))
    + (order.map (fun o => stencilBytes im o (needAt ns (o.outs.headD noneId)))).foldl (· + ·) 0

/-- The palm budget of a tiling unit (R143). -/
def unitBudget (quad : Bool) : Nat := if quad then 983040 else gloveBudget

/-- A layer's mapping is fixed and legal only at quad scope (R143). -/
def onlyQuad (im : Image) (o : GOp) : Bool :=
  onFingers im o && mapField im o != 0 && (mapOf im false o).isNone && (mapOf im true o).isSome

/-- The tiling unit of a group is a quad (R143). -/
def unitIsQuad (im : Image) (order : List GOp) : Bool :=
  order.any (onlyQuad im) || decide (gloveBudget < workingSet im false order false [] 1)

/-- The intermediate tensor with the largest tile at t = 1 that still lies in the palms, the lowest ID on a tie. -/
def largestInner (im : Image) (order : List GOp) (spilled : List Nat) : Option Nat :=
  let ns := tileNeeds im order 1
  let size := fun (id : Nat) => tileBytes (tenOf im id) (needAt ns id).1 (needAt ns id).2
  ((innerTensors im order).filter (fun id => !spilled.contains id)).foldl (fun b id =>
    match b with
    | none => some id
    | some x => if size x < size id ∨ (size x = size id ∧ id < x) then some id else some x) none

/-- The intermediate tensors that become T1 buffers until t = 1 fits (R147). -/
def spillsGo (im : Image) (quad resident : Bool) (order : List GOp) : Nat → List Nat → List Nat
  | 0, sp => sp
  | n + 1, sp =>
    if workingSet im quad order resident sp 1 ≤ unitBudget quad then sp
    else match largestInner im order sp with
      | none => sp
      | some id => spillsGo im quad resident order n (sp ++ [id])

/-- How a fused group is tiled. -/
structure TilePlan where
  quad : Bool
  resident : Bool
  spilled : List Nat
  t : Nat
  /-- the layers in graph order -/
  order : List GOp
  deriving DecidableEq, Repr

/-- The tiling of a group from its shapes alone (R143 to R147). -/
def tilePlan (im : Image) (ops : List GOp) : TilePlan :=
  let order := graphOrder im ops ops.length []
  let quad := unitIsQuad im order
  let resident := decide (workingSet im quad order true [] 8 ≤ unitBudget quad)
  let sp := spillsGo im quad resident order (innerTensors im order).length []
  let out := tenOf im ((order.getLast?.bind (fun o => o.outs.head?)).getD noneId)
  let top := min 64 (min (mapExt out 0) (mapExt out 1))
  let t := (((List.range top).reverse.map (· + 1)).find? (fun t => decide (workingSet im quad order resident sp t ≤ unitBudget quad))).getD 1
  ⟨quad, resident, sp, t, order⟩

/-! ### Which part of every layer a tile computes (R144, R146) -/

/-- Rows [y0, y1) and columns [x0, x1) of one batch. -/
structure Box where
  y0 : Nat
  y1 : Nat
  x0 : Nat
  x1 : Nat
  deriving DecidableEq, Repr

/-- The smallest box around two. -/
def Box.join (a b : Box) : Box := ⟨min a.y0 b.y0, max a.y1 b.y1, min a.x0 b.x0, max a.x1 b.x1⟩

/-- A box widened and clipped to a feature map. -/
def Box.grow (b : Box) (h w : Nat) (x : GTen) : Box :=
  ⟨b.y0 - h, min (b.y1 + h) (mapExt x 0), b.x0 - w, min (b.x1 + w) (mapExt x 1)⟩

/-- The input range of a layer along one axis for the output range [a, b), clipped to `n`. -/
def rangeIn (o : GOp) (axis a b n : Nat) : Nat × Nat :=
  if o.opcode = 0x0155 then (a / max 1 (o.p8 axis), min n ((b - 1) / max 1 (o.p8 axis) + 1))
  else
    let p := padOf o axis
    let s := strideOf o axis
    (min n (a * s - p), min n ((b - 1) * s + extentOf o axis - p))

/-- Boxes by tensor ID. -/
abbrev Boxes := List (Nat × Box)

/-- The box of a tensor. -/
def boxAt (bs : Boxes) (id : Nat) : Option Box := (bs.find? (fun e => e.1 == id)).map (·.2)

/-- The boxes of every tensor of a group for a box of its last layer's output. -/
def tileBoxes (im : Image) (order : List GOp) (b : Box) : Boxes :=
  let last := (order.getLast?.bind (fun o => o.outs.head?)).getD noneId
  order.reverse.foldl (fun bs o =>
    match boxAt bs (o.outs.headD noneId) with
    | none => bs
    | some q => (liveIns im o).foldl (fun a t =>
        let x := tenOf im t
        let ry := rangeIn o 0 q.y0 q.y1 (mapExt x 0)
        let rx := rangeIn o 1 q.x0 q.x1 (mapExt x 1)
        let n : Box := ⟨ry.1, ry.2, rx.1, rx.2⟩
        let m := match boxAt a t with
          | none => n
          | some old => old.join n
        a.filter (fun e => e.1 != t) ++ [(t, m)]) bs)
    [(last, b)]

/-- The tiles of a group in raster order (R146): batch index and box of the output. -/
def tilesOf (im : Image) (p : TilePlan) : List (Nat × Box) :=
  let out := tenOf im ((p.order.getLast?.bind (fun o => o.outs.head?)).getD noneId)
  let t := max 1 p.t
  let h := mapExt out 0
  let w := mapExt out 1
  (List.range (tdim out 3)).flatMap (fun b => (List.range (ceilDiv h t)).flatMap (fun y => (List.range (ceilDiv w t)).map (fun x =>
    (b, ⟨y * t, min h (y * t + t), x * t, min w (x * t + t)⟩))))

/-- Events of the elements of a layer inside a box of batch `b`. -/
def boxEvents (x : GTen) (b : Nat) (q : Box) (es : List (Nat × Nat)) : Nat × Nat :=
  (es.zipIdx.filter (fun e =>
    match coordsOf (tdims x) e.2 with
    | _ :: c :: r :: n :: _ => decide (n = b ∧ q.y0 ≤ r ∧ r < q.y1 ∧ q.x0 ≤ c ∧ c < q.x1)
    | _ => false)).foldl (fun a e => (a.1 + e.1.1, a.2 + e.1.2)) (0, 0)

/-- Events of an operator's layers in a tile: a STENCIL's applications widen by its radii from the last one backward. -/
def opEvents (im : Image) (o : GOp) (b : Nat) (q : Box) (parts : List (List (Nat × Nat))) : Nat × Nat :=
  let x := outTen im o 0
  (parts.reverse.zipIdx).foldl (fun a l =>
    let e := boxEvents x b (if o.opcode = 0x0310 then q.grow (l.2 * o.p8 0) (l.2 * o.p8 1) x else q) l.1
    (a.1 + e.1, a.2 + e.2)) (0, 0)

end Sys2Proof.Machine
end

