-- ==== Sys2Proof/Machine/Shapes.lean ====
section
/-!
DEFINITION. The limits of the operators: PARAM lengths, operands, parameter ranges, formats and shapes, with the load code of
each violation (R65, R71, R118 to R142, R150 to R166, R170 to R187, R246, R247). Where a rule states no code, a format or shape
is a reference of the wrong type (REFERENCE) and any other value is out of range (STITCH) (assumption 153).
-/

namespace Sys2Proof.Machine

/-! ### Codes -/

def codeStitch : Nat := 0x07
def codeReference : Nat := 0x08
def codeReduction : Nat := 0x0C

/-- A condition with the code of its violation. -/
abbrev Cond := Bool × Nat

/-- The code of the first condition that does not hold. -/
def firstCode (cs : List Cond) : Option Nat := (cs.find? (fun c => !c.1)).map (·.2)

/-- Conditions on values, and on formats and shapes. -/
def inRange (b : Bool) : Cond := (b, codeStitch)
def fits (b : Bool) : Cond := (b, codeReference)

/-- `lo ≤ v ≤ hi`. -/
def inSpan (lo hi v : Nat) : Bool := decide (lo ≤ v ∧ v ≤ hi)

/-- The PARAM length of an opcode; none for a reserved one (R118, R150, R170, R246, R247). -/
def paramLen (op : Nat) : Option Nat :=
  match op with
  | 0x0100 | 0x0101 | 0x0120 | 0x0131 | 0x0300 | 0x0301 | 0x0302 | 0x0308 | 0x0320 | 0x0331 => some 16
  | 0x0110 | 0x0153 => some 48
  | 0x0121 | 0x0140 | 0x0141 | 0x0142 | 0x0150 | 0x0151 | 0x0152 | 0x0154 | 0x0155 | 0x0156 | 0x0210 | 0x0310 | 0x0330 => some 8
  | 0x0130 | 0x0401 => some 24
  | 0x0200 | 0x0202 | 0x0400 => some 32
  | 0x0201 => some 40
  | _ => none

/-- PARAM bytes that are reserved, as offset and size, by opcode. -/
def paramRsvd (op : Nat) : List (Nat × Nat) :=
  match op with
  | 0x0100 | 0x0101 | 0x0131 => [(2, 2), (12, 4)]
  | 0x0110 => [(2, 2), (12, 4), (23, 1), (33, 15)]
  | 0x0120 => [(10, 6)]
  | 0x0121 | 0x0152 | 0x0210 => [(1, 7)]
  | 0x0130 => [(1, 7), (10, 2), (20, 4)]
  | 0x0140 | 0x0141 | 0x0142 => [(5, 3)]
  | 0x0150 | 0x0156 => [(0, 8)]
  | 0x0151 => [(6, 2)]
  | 0x0154 => [(5, 3)]
  | 0x0155 => [(2, 6)]
  | 0x0200 => [(14, 2), (24, 8)]
  | 0x0201 => [(14, 2), (24, 8), (33, 1), (36, 4)]
  | 0x0202 => [(28, 4)]
  | 0x0300 | 0x0301 | 0x0302 | 0x0331 => [(3, 5)]
  | 0x0308 => [(1, 7)]
  | 0x0310 => [(4, 4)]
  | 0x0320 => [(6, 2)]
  | 0x0330 => [(2, 6)]
  | 0x0400 => [(17, 3)]
  | 0x0401 => [(9, 3)]
  | _ => []

/-- The reserved bytes of PARAM are 0. -/
def rsvdZero (o : GOp) : Bool := (paramRsvd o.opcode).all (fun r => fieldLe o.params r.1 r.2 == 0)

/-! ### Operands -/

/-- Operand `j` is named. -/
def named (o : GOp) (j : Nat) : Bool := o.ins.getD j noneId != noneId

/-- The epilogue operands that EFLAGS name (R121). -/
def epiIns (fl : Nat) : List Nat :=
  (if bit fl 0 then [2] else []) ++ (if bit fl 1 then [3] else []) ++ (if bit fl 2 then [4, 5] else [])

/-- The operands an operator needs, those it may have, and the range of its output count. -/
structure Ports where
  req : List Nat
  opt : List Nat := []
  outs : Nat × Nat := (1, 1)

/-- The ports of an operator. -/
def ports (o : GOp) : Ports :=
  match o.opcode with
  | 0x0100 | 0x0101 | 0x0110 => { req := [0, 1] ++ epiIns (o.p8 1) }
  | 0x0130 => { req := [0, 1] }
  | 0x0140 | 0x0141 | 0x0142 => { req := [0] ++ (if bit (o.p8 4) 0 then [1] else []) ++ (if bit (o.p8 4) 1 then [2] else []) }
  | 0x0152 => { req := List.range o.nIn }
  | 0x0200 => { req := [0, 1, 2] ++ (if o.p8 12 = 3 then [3] else []) }
  | 0x0201 => { req := [0, 1] ++ (if bit (o.p8 32) 1 then [2, 3] else []) }
  | 0x0202 => { req := [0, 1], opt := [2], outs := (1, 2) }
  | 0x0300 => { req := [0, 1], outs := if bit (o.p8 2) 4 then (4, 4) else (2, 2) }
  | 0x0301 => { req := [0, 1], outs := if bit (o.p8 2) 4 then (3, 3) else (2, 2) }
  | 0x0302 => { req := [0, 1], outs := (2, 2) }
  | 0x0308 => { req := [0, 1] ++ (if bit (o.p8 0) 2 then [2] else []) }
  | 0x0310 => { req := [0, 1], opt := [2] }
  | 0x0320 => { req := [0, 1] ++ (if o.p8 5 = 0 then [] else [2, 3]) ++ (if bit (o.p8 1) 3 then [4] else []), outs := (2, 2) }
  | 0x0330 => { req := [0, 1, 2, 3] ++ (if o.p8 1 = 0 then [] else [4, 5]), outs := (2, 2) }
  | 0x0331 => { req := [0, 1, 2, 3, 4], outs := (3, 4) }
  | 0x0400 => { req := [0], outs := (2, 2) }
  | 0x0401 => { req := List.range (o.p8 0 + 1), outs := (3, 3) }
  | _ => { req := [0] }

/-- The operands an operator names are those its PARAM asks for. -/
def portsOk (o : GOp) : List Cond :=
  let p := ports o
  [inRange ((List.range 8).all (fun j => !named o j || p.req.contains j || p.opt.contains j)),
   inRange (inSpan p.outs.1 p.outs.2 o.nOut),
   fits (p.req.all (named o) && o.outs.all (· != noneId))]

/-! ### Tensors -/

/-- A tensor has these extents, the rest 1. -/
def dimsAre (x : GTen) (ds : List Nat) : Bool := (List.range 6).all (fun a => tdim x a == ds.getD a 1)

/-- Two tensors have the same extents. -/
def sameDims (x y : GTen) : Bool := tdims x == tdims y

/-- Two tensors share format, scale and zero point. -/
def sameScale (x y : GTen) : Bool := x.scale == y.scale && x.zp == y.zp && x.perChannel == y.perChannel && (!x.perChannel || x.scaleT == y.scaleT)
def sameQuant (x y : GTen) : Bool := x.fmt == y.fmt && (!isIntFmt x.fmt && x.fmt != 0x04 && x.fmt != 0x05 || sameScale x y)

/-- Formats of a finger operation (R65). -/
def fingerFmts : List Nat := [0x01, 0x02, 0x04, 0x05, 0x06, 0x07, 0x08, 0x09, 0x0A]

/-- Two operands share one finger format; the two FP8 encodings may be mixed (R65, R125). -/
def fingerPair (a b : Nat) : Bool :=
  fingerFmts.contains a && (a == b || [(0x04, 0x05), (0x05, 0x04), (0x06, 0x07), (0x07, 0x06)].contains (a, b))

/-- FP16, BF16, FP32; and every format that holds real numbers. -/
def half32 (f : Nat) : Bool := [0x09, 0x0A, 0x0B].contains f
def floatFmt (f : Nat) : Bool := (elemFmt f).isSome

/-- A vector of `n` channels in a format. -/
def channels (x : GTen) (n fmt : Nat) : Bool := x.fmt == fmt && dimsAre x [n]

/-- An FP32 value that is finite and positive or zero of either sign is excluded: positive and normal. -/
def posNormal32 (v : Nat) : Bool := inSpan 0x00800000 0x7F7FFFFF v
def posNormal64 (v : Nat) : Bool := inSpan (2 ^ 52) (0x7FF0000000000000 - 1) v
def finite32 (v : Nat) : Bool := decide (v / 2 ^ 23 % 256 ≠ 255)
def finite64 (v : Nat) : Bool := decide (v / 2 ^ 52 % 2048 ≠ 2047)
def nonNeg32 (v : Nat) : Bool := finite32 v && (v < 2 ^ 31 || v == 2 ^ 31)
def nonNeg64 (v : Nat) : Bool := finite64 v && (v < 2 ^ 63 || v == 2 ^ 63)

/-! ### The epilogue (R121 to R124) -/

/-- The EPI block at a PARAM offset: `flags` may be set, and an integer operator takes codes 0 to 2 and neither BN nor
RESIDUAL. -/
def epiOk (o : GOp) (at_ : Nat) (flags isInt : Bool) : List Cond :=
  let act := o.p8 at_
  let fl := o.p8 (at_ + 1)
  let used := act = 2 ∨ act = 3
  [inRange (decide (act ≤ 16) && decide (fl ≤ (if flags then 7 else 0))),
   inRange (!isInt || (decide (act ≤ 2) && decide (fl ≤ 1))),
   inRange (act != 2 || !FVal.lt (f32 (o.p32 (at_ + 8))) (f32 (o.p32 (at_ + 4)))),
   inRange (decide used || o.p32 (at_ + 4) == 0), inRange (act == 2 || o.p32 (at_ + 8) == 0)]

/-- The tensors of the epilogue of a product with `n` output channels. -/
def epiTensors (im : Image) (o : GOp) (n : Nat) (isInt : Bool) : List Cond :=
  let fl := o.p8 1
  let t := inTen im o
  let r := t 3
  [fits (!bit fl 0 || channels (t 2) n (if isInt then 0x03 else 0x0B)),
   fits (!bit fl 1 || (floatFmt r.fmt && r.fmt != 0x0C && sameDims r (outTen im o 0))),
   fits (!bit fl 2 || (channels (t 4) n 0x0B && channels (t 5) n 0x0B))]

/-- Weights of a product: the axis of a per-channel scale, the zero point of constants (R68, R119), 2:4 sparsity with the
reduction length `k` (R134). -/
def weightOk (w : GTen) (axis k : Nat) : List Cond :=
  [inRange (!w.perChannel || !isIntFmt w.fmt || w.qaxis == axis), inRange (w.role != 1 || w.zp == 0),
   inRange (!w.sparse || k % 8 == 0)]

/-- The reduction lengths of R71, R125 and R128. -/
def reductionOk (isInt : Bool) (k : Nat) : List Cond :=
  if isInt then [(decide (k ≤ 2 ^ 24), codeReduction)] else [inRange (decide (k ≤ 2 ^ 22))]

/-! ### Products and convolutions (R125, R127 to R132) -/

def matmulOk (im : Image) (o : GOp) : List Cond :=
  let a := inTen im o 0
  let b := inTen im o 1
  let out := outTen im o 0
  let k := tdim a 0
  let isInt := isIntFmt a.fmt
  [fits (fingerPair a.fmt b.fmt)] ++ epiOk o 0 true isInt ++ weightOk b 1 k ++ reductionOk isInt k
    ++ [inRange (decide (tdim a 1 ≤ 2 ^ 20 ∧ tdim b 1 ≤ 2 ^ 20)), fits (tdim b 0 == k),
        fits (dimsAre out ([tdim b 1, tdim a 1] ++ (tdims a).drop 2)),
        fits (((tdims a).zip (tdims b)).drop 2 |>.all (fun p => p.2 == p.1 || p.2 == 1)),
        fits (o.opcode != 0x0101 || (b.role == 1 && b.rank == 2 && a.rank == 2)), fits (out.fmt != 0x0D)]
    ++ epiTensors im o (tdim b 1) isInt

/-- One padded axis: the padding amounts below the effective extent, inSpan the mode's limit (R128, R129). -/
def padOk (mode n before after most : Nat) : Bool :=
  decide (before ≤ most ∧ after ≤ most) && (mode != 2 || decide (before + 1 ≤ n ∧ after + 1 ≤ n))
    && (mode != 3 || decide (before ≤ n ∧ after ≤ n))

/-- The output extent of a window along an axis (R128). -/
def windowOut (n before after e stride : Nat) : Nat := if n + before + after < e then 0 else (n + before + after - e) / stride + 1

/-- Extents and paddings along an axis of a feature map: at least one output position, equal to the output's extent. -/
def windowOk (mode n before after e stride out : Nat) : List Cond :=
  let w := windowOut n before after e (max 1 stride)
  [inRange (padOk mode n before after (e - 1)), inRange (decide (1 ≤ w)), fits (w == out)]

def convOk (im : Image) (o : GOp) : List Cond :=
  let x := inTen im o 0
  let w := inTen im o 1
  let out := outTen im o 0
  let g := o.p32 28
  let ci := tdim x 0 / max 1 g
  let k := ci * o.p8 16 * o.p8 17
  let isInt := isIntFmt x.fmt
  let eh := extentOf o 0
  let ew := extentOf o 1
  [inRange ([16, 17, 18, 19, 20, 21].all (fun i => inSpan 1 16 (o.p8 i))), inRange (decide (o.p8 22 ≤ 3 ∧ o.p8 32 ≤ 3)),
   inRange (inSpan 1 65535 g), inRange (decide (eh ≤ 64 ∧ ew ≤ 64)),
   inRange (decide (tdim x 1 ≤ 16384 ∧ tdim x 2 ≤ 16384 ∧ tdim x 0 ≤ 65535 ∧ tdim out 0 ≤ 65535 ∧ tdim x 3 ≤ 4096)),
   inRange (decide (tdim x 0 % max 1 g = 0 ∧ tdim out 0 % max 1 g = 0)), fits (fingerPair x.fmt w.fmt),
   fits (dimsAre w [ci, o.p8 17, o.p8 16, tdim out 0]), fits (dimsAre out [tdim out 0, tdim out 1, tdim out 2, tdim x 3]),
   fits (dimsAre x ((tdims x).take 4))]
    ++ windowOk (o.p8 22) (tdim x 2) (o.p8 24) (o.p8 25) eh (o.p8 18) (tdim out 2)
    ++ windowOk (o.p8 22) (tdim x 1) (o.p8 26) (o.p8 27) ew (o.p8 19) (tdim out 1)
    ++ epiOk o 0 true isInt ++ weightOk w 3 k ++ reductionOk isInt k
    ++ [inRange (!w.sparse || decide (o.p8 32 ≤ 1)), inRange ((mapOf im true o).isSome)]
    ++ epiTensors im o (tdim out 0) isInt

/-! ### Pooling, element-wise, normalization, data movement (R135 to R142) -/

def poolOk (im : Image) (o : GOp) : List Cond :=
  let x := inTen im o 0
  let out := outTen im o 0
  let free := isIntFmt x.fmt && (o.p8 0 == 2 || o.p8 0 == 3) && out.fmt == x.fmt
  let quant := fits (sameQuant x out || free)
  if o.opcode = 0x0121 then
    [inRange (o.p8 0 == 0 || o.p8 0 == 2), quant, fits (dimsAre out [tdim x 0, 1, 1, tdim x 3])]
  else
    [inRange (decide (o.p8 0 ≤ 3 ∧ o.p8 9 ≤ 1)), inRange ([1, 2, 3, 4].all (fun i => inSpan 1 32 (o.p8 i))), quant,
     fits (dimsAre out [tdim x 0, tdim out 1, tdim out 2, tdim x 3])]
      ++ windowOk 0 (tdim x 2) (o.p8 5) (o.p8 6) (o.p8 1) (o.p8 3) (tdim out 2)
      ++ windowOk 0 (tdim x 1) (o.p8 7) (o.p8 8) (o.p8 2) (o.p8 4) (tdim out 1)

/-- Each extent of an input equals the output's or is 1 (R137). -/
def broadcasts (x out : GTen) : Bool := ((tdims x).zip (tdims out)).all (fun p => p.1 == p.2 || p.1 == 1)

def elementwiseOk (im : Image) (o : GOp) : List Cond :=
  let a := inTen im o 0
  let b := inTen im o 1
  let out := outTen im o 0
  let fn := o.p8 0
  let isInt := isIntFmt a.fmt
  [inRange (decide (fn ≤ 5)), inRange (!isInt || decide (fn ≤ 4))] ++ epiOk o 8 false isInt
    ++ [fits (if isInt then a.fmt == 2 && b.fmt == 2 && out.fmt == 2 else floatFmt a.fmt && floatFmt b.fmt && floatFmt out.fmt),
        fits (broadcasts a out && broadcasts b out),
        inRange (!isInt || !(fn == 3 || fn == 4) || (sameScale a b && sameScale a out))]

def activationOk (im : Image) (o : GOp) : List Cond :=
  let x := inTen im o 0
  let out := outTen im o 0
  epiOk o 0 false false
    ++ [fits (if isIntFmt x.fmt then x.fmt == 2 && out.fmt == 2 else floatFmt x.fmt && floatFmt out.fmt), fits (sameDims x out)]

def normOk (im : Image) (o : GOp) : List Cond :=
  let x := inTen im o 0
  let out := outTen im o 0
  let bn := o.opcode == 0x0142
  let n := tdim x 0
  let vec := fun (j : Nat) => dimsAre (inTen im o j) [n] && (if bn then (inTen im o j).fmt == 0x0B else half32 (inTen im o j).fmt)
  [inRange (!isIntFmt x.fmt), inRange (bn || posNormal32 (o.p32 0)), inRange (if bn then o.p8 4 == 3 else decide (o.p8 4 ≤ 3)),
   inRange (bn || inSpan 2 65536 n), fits (half32 x.fmt && half32 out.fmt), fits (sameDims x out),
   fits ((!bit (o.p8 4) 0 || vec 1) && (!bit (o.p8 4) 1 || vec 2))]

def moveOk (im : Image) (o : GOp) : List Cond :=
  let x := inTen im o 0
  let out := outTen im o 0
  let mx := isMx x.fmt
  match o.opcode with
  | 0x0150 => [fits (sameDims x out && x.fmt != 0x0D && out.fmt != 0x0D)]
  | 0x0151 =>
    let perm := (List.range 6).map o.p8
    [inRange ((List.range 6).all (fun a => if a < x.rank then decide (perm.getD a 6 < x.rank) else perm.getD a 6 == a)),
     inRange (perm.eraseDups.length == 6), inRange (!mx || perm.getD 0 6 == 0), fits (sameQuant x out),
     fits (dimsAre out (perm.map (tdim x)))]
  | 0x0152 =>
    let xs := (List.range o.nIn).map (inTen im o)
    let ax := o.p8 0
    [inRange (decide (ax < 6) && (!mx || ax != 0)), inRange (inSpan 2 8 o.nIn), fits (xs.all (fun y => sameQuant y out)),
     fits (xs.all (fun y => (List.range 6).all (fun a => a == ax || tdim y a == tdim out a))),
     fits ((xs.map (fun y => tdim y ax)).foldl (· + ·) 0 == tdim out ax)]
  | 0x0153 =>
    let start := fun (a : Nat) => o.p32 (4 * a)
    let step := fun (a : Nat) => o.p32 (24 + 4 * a)
    [inRange ((List.range 6).all (fun a => inSpan 1 16 (step a))),
     inRange ((List.range 6).all (fun a => decide (start a + (tdim out a - 1) * step a < tdim x a))),
     inRange (!mx || (start 0 % 32 == 0 && step 0 == 1)), fits (sameQuant x out)]
  | 0x0154 =>
    [inRange (decide (o.p8 0 ≤ 3)), inRange (padOk (o.p8 0) (tdim x 2) (o.p8 1) (o.p8 2) 63),
     inRange (padOk (o.p8 0) (tdim x 1) (o.p8 3) (o.p8 4) 63), fits (sameQuant x out),
     fits (dimsAre out ([tdim x 0, tdim x 1 + o.p8 3 + o.p8 4, tdim x 2 + o.p8 1 + o.p8 2] ++ (tdims x).drop 3))]
  | 0x0155 =>
    [inRange (inSpan 1 8 (o.p8 0) && inSpan 1 8 (o.p8 1)), fits (sameQuant x out),
     fits (dimsAre out ([tdim x 0, tdim x 1 * o.p8 1, tdim x 2 * o.p8 0] ++ (tdims x).drop 3))]
  | _ => [fits (sameQuant x out), fits (x.elems == out.elems), fits (!mx || tdim x 0 == tdim out 0)]

/-! ### Attention and scene memory (R151 to R153, R157, R159 to R166) -/

/-- The fields of R151, with BLOCK_LOG2 checked apart. -/
def attnParOk (o : GOp) (mx : Bool) : List Cond :=
  let hs := o.p16 0
  let kv := o.p16 2
  let d := o.p16 4
  let dv := o.p16 6
  [inRange (inSpan 1 256 hs && inSpan 1 hs kv && hs % max 1 kv == 0),
   inRange (inSpan 16 256 d && d % (if mx then 32 else 16) == 0 && inSpan 16 256 dv && dv % 16 == 0),
   inRange (finite32 (o.p32 8) && o.p32 8 % 2 ^ 31 != 0), inRange (decide (o.p8 12 ≤ 3)),
   inRange (if o.p8 12 = 2 then inSpan 1 (2 ^ 20) (o.p32 16) else o.p32 16 == 0), inRange (decide (o.p32 20 ≤ 2 ^ 20))]

/-- Formats of Q, K and V (R152). -/
def attnFmts (q k v : GTen) : List Cond :=
  let bad := fun (x : GTen) => [0x01, 0x08, 0x0B].contains x.fmt
  [inRange (!bad q && !bad k && !bad v), inRange (q.zp == 0 && k.zp == 0 && v.zp == 0),
   fits (fingerPair q.fmt k.fmt), fits ([0x02, 0x04, 0x05, 0x09, 0x0A].contains v.fmt)]

/-- Output formats of an attention. -/
def attnOut (out : GTen) : Cond := fits ([0x04, 0x05, 0x09, 0x0A, 0x0B].contains out.fmt)

def attentionOk (im : Image) (o : GOp) : List Cond :=
  let q := inTen im o 0
  let k := inTen im o 1
  let v := inTen im o 2
  let out := outTen im o 0
  let lq := tdim q 1
  let lk := tdim k 1
  let m := inTen im o 3
  attnParOk o (isMx q.fmt) ++ attnFmts q k v
    ++ [inRange (o.p8 13 == 0 || inSpan 4 12 (o.p8 13)), inRange ((attnTileOf o q.fmt k.fmt v.fmt (o.p8 13)).isSome),
        inRange (decide (lq ≤ 2 ^ 20 ∧ lk ≤ 2 ^ 20 ∧ tdim q 3 ≤ 4096)), attnOut out,
        fits (dimsAre q [o.p16 4, lq, o.p16 0, tdim q 3]), fits (dimsAre k [o.p16 4, lk, o.p16 2, tdim q 3]),
        fits (dimsAre v [o.p16 6, lk, o.p16 2, tdim q 3]), fits (dimsAre out [o.p16 6, lq, o.p16 0, tdim q 3]),
        fits (o.p8 12 != 3 || (m.fmt == 2 && dimsAre m [lk, lq, tdim m 2] && (tdim m 2 == 1 || tdim m 2 == o.p16 0)))]

/-- The operator that writes a scene memory. -/
def writerOf (im : Image) (tensor : Nat) : Option GOp :=
  im.ops.find? (fun o => o.opcode == 0x0202 && o.outs.headD noneId == tensor)

def memAttentionOk (im : Image) (o : GOp) : List Cond :=
  let q := inTen im o 0
  let mem := inTen im o 1
  let out := outTen im o 0
  let lq := tdim q 1
  let cur := bit (o.p8 32) 1
  let k := inTen im o 2
  let v := inTen im o 3
  let wr := writerOf im mem.id
  attnParOk o (isMx q.fmt) ++ attnFmts q mem mem
    ++ [inRange (o.p8 13 == 0), inRange (decide (o.p8 32 ≤ 3)), inRange (decide (lq ≤ 2 ^ 20 ∧ tdim q 3 ≤ 4096)), attnOut out,
        fits (mem.role == 5), fits (tdim mem 2 == o.p16 2 && tdim mem 0 == o.p16 4 + o.p16 6),
        fits ((wr.map (fun w => tdim (inTen im w 0) 0 == o.p16 4 && tdim (inTen im w 1) 0 == o.p16 6)).getD true),
        fits (dimsAre q [o.p16 4, lq, o.p16 0, tdim q 3]), fits (dimsAre out [o.p16 6, lq, o.p16 0, tdim q 3])]
    ++ (if cur then
          attnFmts q k v ++ [inRange (decide (tdim k 1 ≤ 2 ^ 20)), fits (dimsAre k [o.p16 4, tdim k 1, o.p16 2, tdim q 3]),
            fits (dimsAre v [o.p16 6, tdim k 1, o.p16 2, tdim q 3])]
        else [])

def memAppendOk (im : Image) (o : GOp) : List Cond :=
  let k := inTen im o 0
  let v := inTen im o 1
  let mem := outTen im o 0
  let p := 2 ^ o.p8 0
  let n := tdim mem 1 / p
  let quotas := [4, 8, 12, 16].map o.p32
  let t := tdim k 1
  let tab := outTen im o 1
  [inRange (inSpan 4 12 (o.p8 0) && decide (o.p8 1 ≤ 64)), inRange (inSpan 1 (max 1 (n - 1)) (o.p16 2)),
   inRange (o.p32 16 == 0 || mem.hostAllowed), inRange (quotas.foldl (· + ·) 0 == n),
   inRange (FVal.lt zeroV (f32 (o.p32 20)) && FVal.le (f32 (o.p32 20)) (unitN 1 0)), inRange (nonNeg32 (o.p32 24)),
   inRange (t % p == 0 && inSpan 1 16 (t / p)), fits (mem.role == 5),
   fits (k.fmt == mem.fmt && v.fmt == mem.fmt && k.scale == mem.scale && v.scale == mem.scale && k.zp == mem.zp && v.zp == mem.zp),
   fits (dimsAre k [tdim k 0, t, tdim mem 2] && dimsAre v [tdim v 0, t, tdim mem 2] && tdim k 0 + tdim v 0 == tdim mem 0),
   fits (!named o 2 || ((inTen im o 2).fmt == 3 && (inTen im o 2).elems == 1)),
   fits (decide (o.nOut < 2) || (tab.fmt == 3 && dimsAre tab [8, n]))]

def softmaxOk (im : Image) (o : GOp) : List Cond :=
  let x := inTen im o 0
  let out := outTen im o 0
  [inRange (o.p8 0 == 0 || inSpan 4 12 (o.p8 0)), inRange (decide (tdim x 0 ≤ 2 ^ 20)), fits (half32 x.fmt && half32 out.fmt),
   fits (sameDims x out)]

/-- Readers of a scene memory. -/
def readersOfMem (im : Image) (tensor : Nat) : List GOp :=
  im.ops.filter (fun o => o.opcode == 0x0201 && o.ins.getD 1 noneId == tensor)

/-- A scene memory (R159, R165): one writer, one to four readers, one of them the scorer, capacity in whole pages. -/
def sceneOk (im : Image) (x : GTen) : Bool :=
  let ws := im.ops.filter (fun o => o.outs.contains x.id)
  let rs := readersOfMem im x.id
  let p := (ws.head?.map (fun o => 2 ^ o.p8 0)).getD 1
  decide (ws.length = 1) && ws.all (fun o => o.opcode == 0x0202 && o.outs.headD noneId == x.id)
    && inSpan 1 4 rs.length && decide ((rs.filter (fun o => bit (o.p8 32) 0)).length = 1)
    && (im.ops.filter (fun o => o.ins.contains x.id)).all (fun o => o.opcode == 0x0201)
    && [0x02, 0x04, 0x05, 0x09, 0x0A].contains x.fmt && x.zp == 0 && dimsAre x ((tdims x).take 3)
    && tdim x 1 % p == 0 && inSpan 1 4096 (tdim x 1 / p)

/-! ### Scientific operators (R171, R173, R176, R177, R179, R183, R184) -/

/-- FP32 and FP64. -/
def sciFmt (f : Nat) : Bool := f == 0x0B || f == 0x0C

/-- A matrix of `r` rows and `c` columns, or a vector of `n`, for `b` systems; one of batch 1 broadcasts as an input. -/
def matrixIs (x : GTen) (f r c b : Nat) (input : Bool) : Bool :=
  x.fmt == f && dimsAre x [c, r, tdim x 2] && (tdim x 2 == b || (input && tdim x 2 == 1))
def vectorIs (x : GTen) (f n b : Nat) (input : Bool) : Bool :=
  x.fmt == f && dimsAre x [n, tdim x 1] && (tdim x 1 == b || (input && tdim x 1 == 1))

def solveOk (im : Image) (o : GOp) : List Cond :=
  let x := inTen im o
  let y := outTen im o
  let n := o.p8 0
  let r := o.p8 1
  let f := (x 0).fmt
  let b := tdim (y 0) 2
  let fl := o.p8 2
  [inRange (inSpan 1 64 n && inSpan 1 64 r), inRange (decide (fl < 32)), inRange (o.opcode == 0x0302 || fl % 8 == 0),
   inRange (o.opcode != 0x0302 || !bit fl 4), inRange (nonNeg64 (o.p64 8)), inRange (decide (b ≤ 65536)), fits (sciFmt f),
   fits (matrixIs (x 0) f n n b true && matrixIs (x 1) f n r b true && matrixIs (y 0) f n r b false),
   fits (vectorIs (y 1) 0x03 1 b false || dimsAre (y 1) [b] && (y 1).fmt == 3),
   fits (!bit fl 4 || matrixIs (y 2) f n n b false), fits (!(bit fl 4 && o.opcode == 0x0300) || vectorIs (y 3) 0x03 n b false)]

def thumbOk (im : Image) (o : GOp) : List Cond :=
  let x := inTen im o
  let y := outTen im o 0
  let f := (x 0).fmt
  let fl := o.p8 0
  let m := tdim y 1
  let n := tdim y 0
  let k := if bit fl 0 then tdim (x 0) 1 else tdim (x 0) 0
  let b := tdim y 2
  [inRange (decide (fl < 16)), inRange (finite64 (o.p64 8)), inRange (inSpan 1 256 m && inSpan 1 256 n && inSpan 1 256 k),
   inRange (decide (b ≤ 65536)), inRange (!bit fl 3 || m == n), fits (sciFmt f && matrixIs y f m n b false),
   fits (if bit fl 0 then matrixIs (x 0) f k m b true else matrixIs (x 0) f m k b true),
   fits (if bit fl 1 then matrixIs (x 1) f n k b true else matrixIs (x 1) f k n b true),
   fits (!bit fl 2 || matrixIs (x 2) f m n b true)]

def stencilOk (im : Image) (o : GOp) : List Cond :=
  let x := inTen im o 0
  let c := inTen im o 1
  let out := outTen im o 0
  let rh := o.p8 0
  let rw := o.p8 1
  [inRange (decide (rh ≤ 4 ∧ rw ≤ 4 ∧ 1 ≤ rh + rw)), inRange (decide (o.p8 2 ≤ 3)), inRange (inSpan 1 16 (o.p8 3)),
   inRange (padOk (o.p8 2) (tdim x 2) rh rh 4 && padOk (o.p8 2) (tdim x 1) rw rw 4),
   fits ([0x09, 0x0A, 0x0B, 0x0C].contains x.fmt && c.role == 1 && c.fmt == x.fmt && out.fmt == x.fmt),
   fits (dimsAre c [1, 2 * rw + 1, 2 * rh + 1, tdim x 0]), fits (sameDims x out && dimsAre x ((tdims x).take 4)),
   fits (!named o 2 || ((inTen im o 2).fmt == x.fmt && sameDims (inTen im o 2) x))]

def integrateOk (im : Image) (o : GOp) : List Cond :=
  let x := inTen im o
  let y := outTen im o 0
  let f := (x 0).fmt
  let fl := o.p8 1
  let st := o.p16 2
  let n := o.p8 4
  let m := o.p8 5
  let b := if bit fl 0 then tdim y 2 else tdim y 1
  [inRange (decide (o.p8 0 ≤ 3 ∧ fl < 16)), inRange (inSpan 1 1024 st && inSpan 1 64 n && decide (m ≤ 64)),
   inRange (posNormal64 (o.p64 8)), inRange (decide (b ≤ 65536)), fits (sciFmt f),
   fits (vectorIs (x 0) f n b true && matrixIs (x 1) f n n b true),
   fits (if bit fl 0 then y.fmt == f && dimsAre y [n, st, b] else vectorIs y f n b false),
   fits (m == 0 || (matrixIs (x 2) f n m b true && (if bit fl 1 then (x 3).fmt == f && dimsAre (x 3) [m, st, tdim (x 3) 2]
      && (tdim (x 3) 2 == b || tdim (x 3) 2 == 1) else vectorIs (x 3) f m b true))),
   fits (!bit fl 3 || vectorIs (x 4) f n b true),
   fits ((outTen im o 1).fmt == 3 && (outTen im o 1).elems == b)]

/-- The state of a Kalman operator: x and P, of ROLE 4, are inputs and outputs at once (R182). -/
def kalmanState (im : Image) (o : GOp) (n b : Nat) (f : Nat) : List Cond :=
  let x := inTen im o 0
  let p := inTen im o 1
  [fits (x.role == 4 && p.role == 4 && o.outs.getD 0 noneId == x.id && o.outs.getD 1 noneId == p.id),
   fits (sciFmt f && vectorIs x f n b false && matrixIs p f n n b false)]

def predictOk (im : Image) (o : GOp) : List Cond :=
  let x := inTen im o
  let n := o.p8 0
  let m := o.p8 1
  let b := tdim (x 0) 1
  let f := (x 0).fmt
  [inRange (inSpan 1 64 n && decide (m ≤ 64)), inRange (decide (b ≤ 65536))] ++ kalmanState im o n b f
    ++ [fits (matrixIs (x 2) f n n b true && matrixIs (x 3) f n n b true),
        fits (m == 0 || (matrixIs (x 4) f n m b true && vectorIs (x 5) f m b true))]

def updateOk (im : Image) (o : GOp) : List Cond :=
  let x := inTen im o
  let n := o.p8 0
  let m := o.p8 1
  let b := tdim (x 0) 1
  let f := (x 0).fmt
  [inRange (inSpan 1 64 n && inSpan 1 64 m), inRange (decide (o.p8 2 < 8)),
   inRange (finite64 (o.p64 8) && FVal.lt zeroV (fp64.decode (o.p64 8))), inRange (decide (b ≤ 65536))] ++ kalmanState im o n b f
    ++ [fits (vectorIs (x 2) f m b true && matrixIs (x 3) f m n b true && matrixIs (x 4) f m m b true),
        fits ((outTen im o 2).fmt == 3 && (outTen im o 2).elems == b),
        fits (decide (o.nOut < 4) || ((outTen im o 3).fmt == f && (outTen im o 3).elems == b))]

/-! ### Feature fusion (R246, R247) -/

def gridSampleOk (im : Image) (o : GOp) : List Cond :=
  let x := inTen im o 0
  let y := outTen im o 0
  let cnt := outTen im o 1
  let cam := im.find 0x07 3 (o.p32 28)
  let strides := fun (t : Stitch) => t.u16 16 % tdim x 1 == 0 && t.u16 18 % tdim x 2 == 0 && t.u16 16 / tdim x 1 == t.u16 18 / tdim x 2
  [inRange (inSpan 1 1024 (o.p16 0) && inSpan 1 1024 (o.p16 2)), inRange (FVal.lt zeroV (f32 (o.p32 4)) && finite32 (o.p32 4)),
   inRange (inSpan 1 8 (o.p8 16)), fits cam.isSome, fits (half32 x.fmt && half32 y.fmt),
   fits ((cam.map strides).getD true), fits (dimsAre y [tdim x 0, o.p16 0, o.p16 2]),
   fits (cnt.fmt == 2 && cnt.zp == 0 && dimsAre cnt [1, o.p16 0, o.p16 2])]

def gridFuseOk (im : Image) (o : GOp) : List Cond :=
  let n := o.p8 0
  let x := inTen im o
  let y := outTen im o 0
  let fl := outTen im o 1
  let ct := outTen im o 2
  let unit := fun (v : Nat) => FVal.le zeroV (f32 v) && FVal.le (f32 v) (unitN 1 0)
  [inRange (inSpan 2 7 n), inRange (decide (o.p8 1 ≤ 1)), inRange ((List.range 7).all (fun i => decide (i < n) || o.p8 (2 + i) == 0xFF)),
   inRange (unit (o.p32 12) && unit (o.p32 16)), fits (im.find 0x07 1 (o.p32 20)).isSome,
   fits ((List.range n).all (fun i => floatFmt (x i).fmt && sameDims (x i) y)), fits (floatFmt y.fmt),
   fits (fl.fmt == 2 && fl.zp == 0 && dimsAre fl [1, tdim y 1, tdim y 2]), fits (ct.fmt == 3 && dimsAre ct [n * n + 2])]

/-! ### All operators -/

/-- The conditions of an operator. -/
def opConds (im : Image) (o : GOp) : List Cond :=
  match o.opcode with
  | 0x0100 | 0x0101 => matmulOk im o
  | 0x0110 => convOk im o
  | 0x0120 | 0x0121 => poolOk im o
  | 0x0130 => elementwiseOk im o
  | 0x0131 => activationOk im o
  | 0x0140 | 0x0141 | 0x0142 => normOk im o
  | 0x0150 | 0x0151 | 0x0152 | 0x0153 | 0x0154 | 0x0155 | 0x0156 => moveOk im o
  | 0x0200 => attentionOk im o
  | 0x0201 => memAttentionOk im o
  | 0x0202 => memAppendOk im o
  | 0x0210 => softmaxOk im o
  | 0x0300 | 0x0301 | 0x0302 => solveOk im o
  | 0x0308 => thumbOk im o
  | 0x0310 => stencilOk im o
  | 0x0320 => integrateOk im o
  | 0x0330 => predictOk im o
  | 0x0331 => updateOk im o
  | 0x0400 => gridSampleOk im o
  | 0x0401 => gridFuseOk im o
  | _ => [inRange false]

/-- A 2:4-compressed tensor is only the weight operand of a product (R134). -/
def sparseOk (im : Image) (o : GOp) : Bool :=
  (List.range 8).all (fun j => !named o j || !(inTen im o j).sparse || (j == 1 && [0x0100, 0x0101, 0x0110].contains o.opcode))

/-- The first violation of an operator. -/
def opError (im : Image) (o : GOp) : Option Nat :=
  firstCode ([inRange (rsvdZero o)] ++ portsOk o ++ [inRange (sparseOk im o)] ++ opConds im o)

/-! ### Mixtures in a fused group (R186) -/

/-- What a group with scientific operators may hold besides them. -/
def sciPartners : List Nat := [0x0100, 0x0101, 0x0130, 0x0131, 0x0150, 0x0156]

/-- The outermost batch extent of an operator's output. -/
def systemBatch (im : Image) (o : GOp) : Nat :=
  let y := outTen im o 0
  match o.opcode with
  | 0x0320 => if bit (o.p8 1) 0 then tdim y 2 else tdim y 1
  | 0x0330 | 0x0331 => tdim y 1
  | 0x0300 | 0x0301 | 0x0302 | 0x0308 => tdim y 2
  | _ => ((tdims y).take y.rank).getLastD 1

/-- Operators of the scientific range that run system by system (R171). -/
def perSystem (o : GOp) : Bool := decide (0x0300 ≤ o.opcode ∧ o.opcode < 0x0400) && o.opcode != 0x0310

/-- A group of operators is a permitted mixture. -/
def mixtureOk (im : Image) (ops : List GOp) : Bool :=
  let sys := ops.find? perSystem
  match sys with
  | some o => ops.all (fun p => (perSystem p || sciPartners.contains p.opcode) && systemBatch im p == systemBatch im o)
  | none => !ops.any (fun p => p.opcode == 0x0310) || ops.all (fun p => slidingOps.contains p.opcode)

/-! ### 2:4 index bytes (R133, R134) -/

/-- Every group of a META byte has its first index below its second. -/
def metaOk (x : GTen) (bs : List Byte) : Bool :=
  !x.sparse || (bs.drop ((x.elems / 2 * fmtBits x.fmt + 7) / 8)).all (fun b =>
    let v := b.toNat
    decide (v % 4 < v / 4 % 4 ∧ v / 16 % 4 < v / 64 % 4))

end Sys2Proof.Machine
end

