-- ==== Sys2Proof/Machine/Fire.lean ====
section
/-!
DEFINITION. Dataflow firing: tokens and credits on edges, the start and the end of a firing with what its operators compute,
mitten wake and clock gating, prefetch copies (R56 to R59, R73 to R75, R89, R161 to R168, R182, R205, R206, R393, R395).
-/

namespace Sys2Proof.Machine

open Host (Outcome)

/-! ### Operators -/

/-- What an operator computes from its operands; `k` is its draw of free values, `app` the memory an append leaves, `single` a
split count of 1 for attention and softmax (R81). -/
def evalOp (single : Bool) (k : Nat) (o : GOp) (ins : List (Option TVal)) (outs : List GTen) (app : SceneMem) (s : State) : OpRes :=
  let out := outs.getD 0 (gten ⟨4, 1, 0, []⟩)
  match o.opcode with
  | 0x0100 | 0x0101 => opMatmul k o ins out s
  | 0x0110 => opConv k o ins out s
  | 0x0120 => opPool k o ins out s
  | 0x0121 => opGlobalPool k o ins out s
  | 0x0130 => opElementwise k o ins out s
  | 0x0131 => opActivation k o ins out s
  | 0x0140 => opNorm true k o ins out s
  | 0x0141 => opNorm false k o ins out s
  | 0x0142 => opBatchNorm ins out s
  | 0x0150 => opConvert ins out s
  | 0x0151 => opTranspose o ins out s
  | 0x0152 => opConcat o ins out s
  | 0x0153 => opSlice o ins out s
  | 0x0154 => opPad o ins out s
  | 0x0155 => opUpsample o ins out s
  | 0x0156 => opReshape ins out s
  | 0x0200 => opAttention single k o ins out s
  | 0x0201 => opMemAttention single k o ins out s
  | 0x0202 => { outs := [[], tableBytes app] }
  | 0x0210 => opSoftmax single k o ins out s
  | 0x0300 => opSolve 0 k o ins out s
  | 0x0301 => opSolve 1 k o ins out s
  | 0x0302 => opSolve 2 k o ins out s
  | 0x0308 => opThumbMatmul k o ins out s
  | 0x0310 => opStencil k o ins out s
  | 0x0320 => opIntegrate k o ins out s
  | 0x0330 => opKalmanPredict k o ins outs s
  | 0x0331 => opKalmanUpdate k o ins outs s
  | 0x0400 => opGridSample k o outs s
  | 0x0401 => opGridFuse k o ins outs s
  | _ => { outs := outs.mapIdx (fun j x => freeBytes k j x.size) }

/-- Operand `j` of an operator in a firing: the token of an input edge (free contents where an operator takes several tokens
at once, which R58 gives no order), a value made in the firing, a state tensor as it stood at the start unless an internal edge carries it (R182), or a
constant. -/
def operandOf (k : Nat) (o : GOp) (f : Firing) (es : List GEdge) (env : List (Nat × List Byte)) (j : Nat) (s : State) :
    Option TVal :=
  let id := o.ins.getD j noneId
  match (curImage s).tensor id with
  | none => none
  | some x =>
    match es.find? (fun e => e.dst == o.id && e.dstPort == j) with
    | some e =>
      let toks := ((f.inputs.find? (fun i => i.1 == e.id)).map (·.2)).getD []
      match toks with
      | [t] => some ⟨x, t.data⟩
      | _ => some ⟨x, freeBytes k (2 ^ 8 + j) x.size⟩
    | none =>
      let inner := x.role != 4 || (curImage s).edges.any (fun e => (curImage s).isInternal e && e.dst == o.id && e.dstPort == j)
      match (if inner then env.find? (fun v => v.1 == id) else none) with
      | some v => some ⟨x, v.2⟩
      | none =>
        match f.states.find? (fun v => v.1 == id) with
        | some v => some ⟨x, v.2⟩
        | none => some ⟨x, if x.role = 4 then stateOf id s else masterOf id s⟩

/-- One operator of a firing, evaluated. -/
structure Evaluated where
  op : GOp
  res : OpRes
  app : SceneMem := {}
  draw : Nat := 0
  deriving DecidableEq, Repr

/-- The memory an append operator leaves. -/
def appendOf (k : Nat) (o : GOp) (f : Firing) (ins : List (Option TVal)) (s : State) : SceneMem :=
  match (if o.opcode = 0x0202 then sceneOf (o.outs.headD noneId) s else none) with
  | none => {}
  | some (_, x) =>
    let home := ((homeMitten x s).map (fun m => (mitten m s).stack)).getD 0
    let port := (((curImage s).of 0x01 1).head?.map (·.u8 64)).getD 0
    appendScene ⟨home, port, k⟩ f.stamp ins x

/-- Evaluate the operators of a firing in graph order. -/
def evalUnit (m : Nat) (f : Firing) (s : State) : List Evaluated :=
  let im := curImage s
  let ops := unitOf m s
  let es := inEdges m s
  ((graphOrder im ops ops.length []).foldl (fun (a : List Evaluated × List (Nat × List Byte)) o =>
    let k := s.fab.fresh + a.1.length
    let ins := (List.range o.ins.length).map (fun j => operandOf k o f es a.2 j s)
    let app := appendOf k o f ins s
    let r := evalOp false k o ins (o.outs.filterMap im.tensor) app s
    (a.1 ++ [⟨o, r, app, k⟩], a.2 ++ o.outs.zip r.outs)) ([], [])).1

/-! ### Conditions of a start (R58, R182, R393, R395, R396, R402, R407) -/

/-- Every input edge holds its tokens and every output edge has its credits. -/
def fireReady (m : Nat) (s : State) : Bool :=
  (inEdges m s).all (fun e => decide (e.consume ≤ (edge e.id s).held.length))
    && (outEdges m s).all (fun e => decide (e.produce ≤ (edge e.id s).credits))

/-- The state tensors a mitten's operators write. -/
def writesStates (m : Nat) (s : State) : List Nat :=
  ((unitOf m s).flatMap (·.outs)).filter (fun t => (((curImage s).tensor t).map (fun x => x.role == 4)).getD false)

/-- The mitten may start a firing, its tokens apart: an armed block seam of it goes first (R59), and a lost glove or quad router
keeps it idle until the switch; the parts of a split node fire with its lowest mitten (R54). -/
def fireFree (m : Nat) (s : State) : Bool :=
  let x := mitten m s
  x.bound && x.lead.isNone && x.firing.isNone && !x.gated && !x.waitConst && !heldGroup (0x400 + m) s && s.power.on && !s.power.fenced
    && !s.power.safe && !s.power.fastStopped && !s.power.inRetain && !s.crown.hardCap && !s.crown.coolHold
    && !(governing m s).any (·.held)
    && x.every.all (fun g => (tget {} g s.fab.gloves).test != .selftest && quadAvail (g / 4) s && stackAvail (g / 336) s)

/-- Another mitten that writes one of the same state tensors is firing, or could start now with a lower operator ID. -/
def writerBusy (m : Nat) (s : State) : Bool :=
  let w := writesStates m s
  (boundMittens s).any (fun o => o != m && (writesStates o s).any (w.contains ·)
    && ((mitten o s).firing.isSome || (decide ((mitten o s).op < (mitten m s).op) && fireFree o s && fireReady o s)))

/-- The rate a mitten's next firing runs at is 300 MHz. -/
def wantsHalf (m : Nat) (s : State) : Bool :=
  s.crown.hardCap || decide (2 ≤ s.crown.level) || (decide (s.crown.level = 1) && (mitten m s).halfNext)
    || (governing m s).any (·.halfRate)

/-- The rate a mitten runs at: that of its firing, and between firings the rate in force, which an idle mitten takes at an
internal block seam within 1 µs (R56, R108, R111). -/
def runsHalf (m : Nat) (s : State) : Bool := if (mitten m s).firing.isSome then (mitten m s).half else wantsHalf m s

/-! ### FIRING_START -/

/-- The scene-memory readers of a mitten with their memories. -/
def readersOf (m : Nat) (s : State) : List (GOp × Nat) :=
  (unitOf m s).filterMap (fun o =>
    if o.opcode = 0x0201 then (sceneOf (o.ins.getD 1 noneId) s).map (fun e => (o, e.1)) else none)

/-- Take the tokens and the credits of a firing. -/
def takeFiring (m : Nat) (s : State) : State :=
  let ins := inEdges m s
  let outs := outEdges m s
  let toks := ins.map (fun e => (e.id, (edge e.id s).held.take e.consume))
  let lost := (readersOf m s).any (fun r => (scene r.2 s).pages.any (fun g => g.st == .lost))
  let states := ((unitOf m s).flatMap (·.ins)).filter (fun t => (((curImage s).tensor t).map (fun x => x.role == 4)).getD false)
  let ts := toks.flatMap (·.2)
  let f : Firing := {
    inputs := toks, outs := outs.map (fun e => (e.id, e.produce)), at_ := s.time.now
    stamp := shortStamp ((mitten m s).stack / 2) s
    tags := (ts.flatMap (·.tags)).eraseDups, states := states.eraseDups.map (fun t => (t, stateOf t s))
    degraded := lost || ts.any (·.degraded), stale := ts.any (·.stale) }
  let s1 := ins.foldl (fun a e => modEdge e.id (fun x => { x with
    held := x.held.drop e.consume, inUse := x.inUse + e.consume }) a) s
  let s2 := outs.foldl (fun a e => modEdge e.id (fun x => { x with
    credits := x.credits - e.produce, taken := x.taken + e.produce }) a) s1
  let s3 := (readersOf m s).foldl (fun a r => modScene r.2 (pfStart r.1) a) s2
  modMitten m (fun x => { x with firing := some f, half := wantsHalf m s }) s3

/-- A T3 buffer or page that a mitten's firing needs through a HOST port that is down: the port. -/
def t3Down (m : Nat) (s : State) : Option Nat :=
  let port := (((curImage s).of 0x01 1).head?.map (·.u8 64)).getD 0
  let bufs := (unitOf m s).any (fun o => o.ins.any (fun t => ((bufferOf t s.pat.fit).map (fun b => b.u8 8 == 3)).getD false))
  let pages := (readersOf m s).any (fun r => (readPages r.1 (scene r.2 s)).any (fun g => g.tier == 3))
  if (bufs || pages) && !carried port s then some port else none

/-- The T3 pages that a mitten's readers read become LOST (R168). -/
def loseT3 (rs : List (GOp × Nat)) (s : State) : State :=
  rs.foldl (fun a r =>
    let seqs := (readPages r.1 (scene r.2 s)).map (·.seq)
    modScene r.2 (losePages (fun g => g.tier == 3 && seqs.contains g.seq)) a) s

/-- FIRING_START: `allow` is the crown's forecast at throttle level 3. A firing that needs T3 data of a port that is down ends
at once as a completion timeout would (R451). -/
def firingStart (m : Nat) (allow : Bool) (s : State) : State :=
  if !fireFree m s ∨ !fireReady m s ∨ writerBusy m s ∨ (s.crown.level = 3 ∧ !allow) then s
  else
    let s1 := takeFiring m s
    match t3Down m s with
    | none => s1
    | some p => settle (loseT3 (readersOf m s) (voidFiring true m 1 (0x48 + p) 0xFFFF 0 (latch (srcHost p 2) 0 s1)))

def execFiringStart (t mitten : Nat) (allow : Bool) (s : State) : Outcome State Fault Refusal :=
  .next (firingStart mitten allow (advanceTo t s))

/-! ### FIRING_COMPLETE -/

/-- Saturations and NaN events of each glove of a mitten, in ascending glove number. -/
abbrev Shares := List (Nat × Nat)

/-- Saturations and NaN events of several parts. -/
def sumEvents (es : List (Nat × Nat)) : Nat × Nat := es.foldl (fun a e => (a.1 + e.1, a.2 + e.2)) (0, 0)

/-- The events of two runs of the same gloves. -/
def addShares (a b : Shares) : Shares := (a.zip b).map (fun e => sumEvents [e.1, e.2])

/-- Events that any of `n` gloves may have produced: each takes a free share of what is left, the last one the rest
(assumption 112). -/
def freeShares (k : Nat) : Nat → Nat × Nat → Shares
  | 0, _ => []
  | 1, e => [e]
  | n + 2, e =>
    let a := Config.freeAt k (2 * n) % (e.1 + 1)
    let b := Config.freeAt k (2 * n + 1) % (e.2 + 1)
    (a, b) :: freeShares k (n + 1) (e.1 - a, e.2 - b)

/-- Work items on `u` units: item n on unit n mod u (R146, R171). -/
def unitShares (u : Nat) (items : List (Nat × Nat)) : Shares :=
  (List.range u).map (fun j => sumEvents ((items.zipIdx.filter (fun e => e.2 % u == j)).map (·.1)))

/-- The events of the tiles of a sliding-window group: each tile counts what it computes, overlaps included (R144, R146). -/
def tileEvents (im : Image) (p : TilePlan) (evs : List Evaluated) : List (Nat × Nat) :=
  (tilesOf im p).map (fun t =>
    let bs := tileBoxes im p.order t.2
    sumEvents (evs.map (fun v =>
      match boxAt bs (v.op.outs.headD noneId) with
      | none => (0, 0)
      | some q => opEvents im v.op t.1 q v.res.parts)))

/-- The events of a layer system by system: each of `n` systems has an equal run of its parts. -/
def systemItems (n : Nat) (l : List (Nat × Nat)) : List (Nat × Nat) :=
  (List.range n).map (fun k => sumEvents ((l.drop (k * (l.length / max 1 n))).take (l.length / max 1 n)))

/-- The events of a firing by glove: tile by tile in a sliding-window group, a quad's among its four gloves; system by
system in a group with scientific operators (R186); free for the other operators. -/
def eventShares (k : Nat) (m : Nat) (evs : List Evaluated) (s : State) : Shares :=
  let im := curImage s
  let n := (mitten m s).every.length
  let ops := unitOf m s
  if isSliding ops then
    let p := tilePlan im ops
    let items := tileEvents im p evs
    if p.quad ∧ 4 ≤ n then ((unitShares (n / 4) items).zipIdx.flatMap (fun e => freeShares (k + e.2) 4 e.1))
    else unitShares n items
  else
    let zero := List.replicate n (0, 0)
    match ops.find? perSystem with
    | some o => (evs.flatMap (·.res.parts)).foldl (fun a l => addShares a (unitShares n (systemItems (systemBatch im o) l))) zero
    | none => evs.foldl (fun a v => addShares a (freeShares v.draw n (v.res.sat, v.res.nan))) zero

/-- A glove counts the events of a completed firing; those of this instant are kept apart for R75. -/
def countGlove (now : Nat) (e : Nat × Nat) (x : Glove) : Glove :=
  { x with
    fires := satAdd 64 x.fires 1, sat := satAdd 16 x.sat e.1, nan := satAdd 14 x.nan e.2, evAt := now
    evSat := (if x.evAt = now then x.evSat else 0) + e.1, evNan := (if x.evAt = now then x.evNan else 0) + e.2 }

/-- The gloves of a mitten count the events of a firing (R74). -/
def countEvents (gs : List Nat) (es : Shares) (s : State) : State :=
  { s with fab := { s.fab with
      gloves := (gs.zip es).foldl (fun a e => tmod {} e.1 (countGlove s.time.now e.2) a) s.fab.gloves } }

/-- The tickets of a firing take its events and failures (R74, R75, R175, R206). -/
def countTickets (tags : List Tag) (sat nan : Nat) (failed : Option (Nat × Nat)) (s : State) : State :=
  mapTickets (fun k =>
    if ticketOpen k ∧ tags.any (fun g => g.stream == k.stream && g.seq == k.seq) then
      { k with
        numSat := satAdd 16 k.numSat sat
        numNan := satAdd 16 k.numNan nan
        failed := if k.failed.isSome then k.failed else failed }
    else k) s

/-- The tokens a firing sends on an output edge. -/
def outTokens (e : GEdge) (evs : List Evaluated) (f : Firing) (quad : Nat) (s : State) : List Token :=
  let ev := evs.find? (fun v => v.op.id == e.src)
  let data := (ev.bind (fun v => v.res.outs[e.srcPort]?)).getD []
  let k := (ev.map (·.draw)).getD 0
  (List.range e.produce).map (fun i => {
    tags := f.tags, quad := quad
    data := if e.produce = 1 then data else freeBytes k (2 ^ 9 + e.srcPort * 64 + i) (edgeSize e s) })

/-- Commit the state tensors that an operator of a firing writes (R182), and the scale arrays of its MX outputs (R64). -/
def commitTensors (m : Nat) (v : Evaluated) (s : State) : State :=
  (v.op.outs.zip v.res.outs).foldl (fun a o =>
    match (curImage s).tensor o.1 with
    | none => a
    | some x =>
      let b := if (writesStates m s).contains o.1 then setStateTensor o.1 (o.2.take (elemBytes x)) a else a
      if isMx x.fmt then setStateTensor x.scaleT (o.2.drop (elemBytes x)) b else b) s

/-- The page table that MEM_APPEND leaves: its append, with the copies it starts. -/
def committedScene (v : Evaluated) (s : State) : SceneMem := pfCommit (sceneReaders (curImage s) v.app.tensor) v.app

/-- Commit what an operator of a firing writes: its tensors, and what it does to scene memories. -/
def commitOp (m : Nat) (s : State) (v : Evaluated) : State :=
  let s1 := commitTensors m v s
  match v.op.opcode with
  | 0x0201 =>
    match sceneOf (v.op.ins.getD 1 noneId) s with
    | none => s1
    | some (n, x) => modScene n (scored (x.scorer == v.op.id) v.res.mass ((readPages v.op x).map (·.seq))) s1
  | 0x0202 =>
    match sceneOf (v.op.outs.headD noneId) s with
    | none => s1
    | some (n, _) =>
      let x := committedScene v s
      devWr x.tableAt (tableBytes x) (modScene n (fun _ => x) s1)
  | _ => s1

/-- The firing may end: its stack is not draining (R59) and its pages are copied (R167). -/
def fireMayEnd (m : Nat) (s : State) : Bool :=
  !s.fab.draining.any (fun d => d.1 == (mitten m s).stack) && (readersOf m s).all (fun r => pfDone r.1 (scene r.2 s))

/-- The failure that a firing's operators give its tickets. -/
def firingFailure (evs : List Evaluated) : Option (Nat × Nat) :=
  evs.findSome? (fun v =>
    if v.res.fatal then some (0x11, v.op.id) else if v.op.satFatal ∧ v.res.sat ≠ 0 then some (0x10, v.op.id) else none)

/-- FIRING_COMPLETE. -/
def firingComplete (m : Nat) (s : State) : State :=
  match (mitten m s).firing with
  | none => s
  | some f =>
    if !fireMayEnd m s then s
    else
      let evs := evalUnit m f s
      let k := s.fab.fresh + evs.length
      let es := eventShares k m evs s
      let e := sumEvents es
      let quad := ((mitten m s).gloves.headD 0) / 4
      let s1 := { s with fab := { s.fab with fresh := k + (mitten m s).every.length + 1 } }
      let s2 := evs.foldl (commitOp m) s1
      let s3 := (outEdges m s).foldl (fun a e => modEdge e.id (fun x => { x with
        taken := x.taken - e.produce, flight := x.flight ++ outTokens e evs f quad s }) a) s2
      let s4 := f.inputs.foldl (fun a i => modEdge i.1 (fun x => { x with
        inUse := x.inUse - i.2.length, creditFlight := x.creditFlight + i.2.length }) a) s3
      let s5 := modMitten m (fun x => { x with firing := none, lastFire := s.time.now, fires := x.fires + 1 }) s4
      markTags f.degraded f.stale f.tags
        (countTickets f.tags e.1 e.2 (firingFailure evs) (countEvents (mitten m s).every es s5))

def execFiringComplete (t mitten : Nat) (s : State) : Outcome State Fault Refusal :=
  .next (firingComplete mitten (advanceTo t s))

/-! ### MITTEN_WAKE, GLOVE_CLOCK_GATE (R393) -/

/-- A gated mitten whose conditions are true is woken. -/
def mittenWake (m : Nat) (s : State) : State :=
  if (mitten m s).gated ∧ fireReady m s ∧ fireFree m (modMitten m (fun x => { x with gated := false }) s) then
    modMitten m (fun x => { x with gated := false }) s
  else s

def execMittenWake (t mitten : Nat) (s : State) : Outcome State Fault Refusal := .next (mittenWake mitten (advanceTo t s))

/-- The mitten that holds a glove. -/
def mittenWithGlove (g : Nat) (s : State) : Option Nat := (boundMittens s).find? (fun m => (mitten m s).gloves.contains g)

/-- GLOVE_CLOCK_GATE: the glove's mitten has not fired for PARK_US. -/
def gloveGate (g : Nat) (s : State) : State :=
  match mittenWithGlove g s with
  | none => s
  | some k =>
    let m := leadOf k s
    if (mitten m s).firing.isNone ∧ (mitten m s).lastFire + s.crown.parkUs * 1000 ≤ s.time.now then
      modMitten m (fun x => { x with gated := true }) s
    else s

def execGloveClockGate (t glove : Nat) (s : State) : Outcome State Fault Refusal := .next (gloveGate glove (advanceTo t s))

/-! ### PREFETCH_COPY_DONE (R167) -/

/-- A copy completes; a reader in its firing takes it at once, counting the wait when a unit waited for it, and its window is
refilled. -/
def prefetchDone (n reader seq : Nat) (stalled : Bool) (s : State) : State :=
  let x := scene n s
  match (curImage s).op reader, mittenOf reader s with
  | some o, some m =>
    if !(x.prefetch.any (fun c => c.reader == reader && c.seq == seq && !c.ready)) then s
    else
      let f := fun (y : SceneMem) =>
        let y1 := { y with
          prefetch := y.prefetch.map (fun c => if c.reader == reader && c.seq == seq then { c with ready := true } else c)
          pfStall := if stalled ∧ (mitten m s).firing.isSome then satAdd 16 y.pfStall 1 else y.pfStall }
        if (mitten m s).firing.isSome then pfTake o y1 else y1
      modScene n f s
  | _, _ => s

def execPrefetchCopyDone (t mem reader seq : Nat) (stalled : Bool) (s : State) : Outcome State Fault Refusal :=
  .next (prefetchDone mem reader seq stalled (advanceTo t s))

/-! ### TOKEN_ARRIVE, CREDIT_RETURN (R57, R205, R206) -/

/-- What stops the write of an output descriptor: an isolated channel voids (R387); a host write waits for its port. -/
inductive OutWrite where
  | ok | waits
  | voids (part : Nat)
  deriving DecidableEq, Repr

/-- The tickets a result token serves on a stream edge, with the descriptor of each. -/
def resultDescs (st sub : Nat) (k : Token) (s : State) : List (Ticket × Desc) :=
  (s.led.tickets.filter (fun q => ticketOpen q && k.tags.any (fun g => g.stream == st && q.stream == st && g.seq == q.seq))).filterMap
    (fun q => (q.descs.find? (fun d => d.sub == sub)).map (fun d => (q, d)))

/-- Judge the write of a descriptor. -/
def outWrite (x : Strm) (d : Desc) (s : State) : OutWrite :=
  if d.space = 1 then (if carried x.port s then .ok else .waits)
  else match (chansOfRange d.addr d.len).find? (fun ch => !chanUp ch s) with
    | some ch => .voids (0x10 + ch)
    | none => .ok

/-- Write a result to a descriptor of a ticket. -/
def writeResult (st sub : Nat) (data : List Byte) (s : State) (q : Ticket × Desc) : State :=
  let d := q.2
  let x := strm st s
  match outWrite x d s with
  | .waits => s
  | .voids p => settle (voidTags [⟨st, q.1.seq⟩] 1 p 0xFFFF 0 s)
  | .ok =>
    let bs := data.take d.len
    let s1 := if d.space = 1 then hostWr x.port d.addr bs s else devWr d.addr bs s
    modTicket st q.1.seq (fun y => { y with outputs := y.outputs ++ [sub] }) s1

/-- A token arrives at a ticket stream: it is written to the descriptor of each ticket it serves. -/
def resultToken (g : GEdge) (k : Token) (s : State) : State :=
  match streamNumber g.dst s with
  | none => takeArriving g.id s
  | some st =>
    let qs := resultDescs st g.dstPort k s
    if qs.any (fun q => outWrite (strm st s) q.2 s == .waits) then s
    else qs.foldl (writeResult st g.dstPort k.data) (takeArriving g.id s)

/-- TOKEN_ARRIVE at an operator, a ticket stream or the planner; the other endpoints take their tokens in rows of their
own. -/
def tokenArrive (e : Nat) (s : State) : State :=
  match gEdgeOf e s, arriving e s with
  | some g, some k =>
    match g.dstKind with
    | 0 => modEdge e (fun x => { x with flight := x.flight.drop 1, held := x.held ++ [k] }) s
    | 1 => resultToken g k s
    | 4 => planToken g k s
    | _ => s
  | _, _ => s

def execTokenArrive (t edge : Nat) (s : State) : Outcome State Fault Refusal := .next (tokenArrive edge (advanceTo t s))

/-- CREDIT_RETURN: a credit in flight reaches the producer. -/
def creditReturn (e : Nat) (s : State) : State :=
  if (edge e s).creditFlight = 0 then s
  else modEdge e (fun x => { x with creditFlight := x.creditFlight - 1, credits := x.credits + 1 }) s

def execCreditReturn (t edge : Nat) (s : State) : Outcome State Fault Refusal := .next (creditReturn edge (advanceTo t s))

end Sys2Proof.Machine
end

