-- ==== Sys2Proof/Machine/Stitches.lean ====
section
/-!
DEFINITION. The checks of single stitches and of stitches against one another: ranges and counts (code STITCH), references
(code REFERENCE), each naming the stitch at fault (R85 to R93, R105, R190, R221, R225, R231 to R233, R241 to R248, R265, R266,
R280 to R285, R327, R328). Reserved bytes are 0 (assumption 153).
-/

namespace Sys2Proof.Machine

/-! ### Ranges (code STITCH) -/

/-- Length and field ranges of a stitch kind: section, kind, length (0 = variable), fields as offset, size, low, high. -/
structure RangeRow where
  sec : Nat
  kind : Nat
  len : Nat
  fields : List (Nat × Nat × Nat × Nat)

/-- The ranges that the stitch tables state (R86 to R93, R190, R221, R232, R233, R243, R248, R265, R280, R281, R327). -/
def rangeRows : List RangeRow :=
  [⟨0x01, 1, 128, [(64, 1, 0, 1)]⟩,
   ⟨0x02, 1, 24, [(9, 1, 0, 1), (10, 2, 1, 512), (12, 1, 0, 1), (13, 1, 0, 3), (16, 4, 0, 10000000)]⟩,
   ⟨0x03, 1, 64, [(8, 1, 0, 47), (9, 1, 0, 1), (10, 1, 0, 7), (11, 1, 0, 3), (13, 1, 0, 2), (14, 1, 0, 3), (20, 4, 0, 100000000),
     (24, 4, 50, 1000000), (28, 2, 2, 1024), (30, 1, 0, 1), (34, 1, 0, 2), (39, 1, 0, 2)]⟩,
   ⟨0x04, 1, 96, [(8, 1, 1, 13), (9, 1, 1, 6), (10, 1, 0, 5), (11, 1, 0, 15), (14, 1, 0, 5)]⟩,
   ⟨0x05, 1, 0, [(10, 1, 0, 8), (11, 1, 1, 4), (12, 2, 0, 1), (68, 2, 0, 4096)]⟩,
   ⟨0x06, 1, 32, [(20, 1, 0, 4), (22, 1, 0, 6), (24, 1, 1, 64)]⟩,
   ⟨0x07, 1, 48, [(8, 1, 0, 15), (9, 1, 0, 1), (10, 1, 2, 8), (11, 1, 0, 7), (12, 4, 1000, 1000000), (20, 4, 0, 100000),
     (40, 1, 1, 64), (41, 1, 1, 64), (42, 1, 1, 32)]⟩,
   ⟨0x07, 2, 32, [(16, 1, 0, 31), (17, 1, 0, 1), (18, 1, 0, 1), (20, 4, 0, 1000000), (24, 4, 0, 100000)]⟩,
   ⟨0x07, 3, 128, [(12, 1, 0, 1), (13, 1, 1, 16), (16, 2, 1, 8192), (18, 2, 1, 8192)]⟩,
   ⟨0x07, 4, 40, [(12, 2, 1, 512), (14, 1, 1, 8), (15, 1, 1, 8), (16, 1, 1, 255)]⟩,
   ⟨0x07, 5, 64, []⟩,
   ⟨0x08, 1, 32, [(12, 1, 0, 2), (13, 1, 0, 1), (14, 1, 1, 2), (15, 1, 1, 8), (16, 1, 0, 1), (20, 4, 100, 1000000)]⟩,
   ⟨0x08, 2, 0, [(8, 1, 16, 64), (9, 1, 1, 64)]⟩,
   ⟨0x08, 3, 0, [(8, 1, 1, 64)]⟩,
   ⟨0x09, 1, 96, [(8, 1, 0, 15), (9, 1, 0, 1), (10, 1, 0, 1), (11, 1, 0, 3), (12, 4, 50, 1000000), (20, 1, 1, 8), (21, 1, 1, 8),
     (22, 1, 0, 16), (23, 1, 0, 8), (26, 1, 0, 3), (27, 1, 0, 7), (28, 4, 1000, 1000000), (36, 1, 1, 64), (37, 1, 1, 64),
     (38, 2, 1, 65535)]⟩,
   ⟨0x09, 2, 0, [(12, 1, 0, 8)]⟩,
   ⟨0x09, 3, 56, [(12, 1, 0, 7), (13, 1, 0, 1), (14, 1, 0, 3), (15, 1, 0, 1), (32, 4, 50, 10000000)]⟩,
   ⟨0x09, 4, 40, [(12, 1, 0, 7), (13, 1, 0, 2), (14, 1, 0, 5)]⟩,
   ⟨0x09, 5, 0, [(12, 1, 60, 252)]⟩,
   ⟨0x0A, 1, 48, [(8, 1, 1, 5), (9, 1, 0, 3), (10, 1, 1, 64), (11, 1, 1, 64), (24, 4, 10, 50000)]⟩,
   ⟨0x0A, 2, 24, [(12, 4, 50, 1000000), (20, 4, 1, 1000000)]⟩,
   ⟨0x0A, 3, 16, [(8, 4, 1000, 10000000)]⟩,
   ⟨0x0A, 4, 16, [(12, 1, 1, 64), (13, 1, 1, 64)]⟩,
   ⟨0x0B, 1, 16, []⟩,
   ⟨0x0B, 2, 16, [(8, 1, 0, 4)]⟩,
   ⟨0x0C, 1, 16, [(8, 1, 0, 6), (9, 1, 0, 1)]⟩,
   ⟨0x0C, 2, 32, [(24, 1, 0, 1), (25, 1, 0, 2)]⟩,
   ⟨0x0D, 1, 0, []⟩]

/-- Reserved bytes of a stitch kind, as offset and size, beside byte 1 of its header. -/
def stitchRsvd (sec kind : Nat) : List (Nat × Nat) :=
  match sec, kind with
  | 0x01, 1 => [(65, 63)]
  | 0x02, 1 => [(14, 2), (20, 4)]
  | 0x03, 1 => [(15, 1), (31, 1), (35, 1), (52, 12)]
  | 0x05, 1 => [(70, 2)]
  | 0x06, 1 => [(28, 4)]
  | 0x07, 1 => [(43, 5)]
  | 0x07, 2 => [(19, 1)]
  | 0x07, 3 => [(14, 2), (120, 8)]
  | 0x07, 4 => [(17, 3), (36, 4)]
  | 0x07, 5 => [(60, 4)]
  | 0x08, 1 => [(17, 3), (24, 8)]
  | 0x08, 2 => [(10, 6)]
  | 0x08, 3 => [(9, 7)]
  | 0x09, 1 => [(68, 28)]
  | 0x09, 2 => [(15, 1)]
  | 0x09, 3 => [(22, 2)]
  | 0x09, 4 => [(15, 1), (18, 2)]
  | 0x0A, 1 => [(22, 2), (44, 4)]
  | 0x0A, 3 => [(12, 4)]
  | 0x0A, 4 => [(14, 2)]
  | 0x0B, 1 => [(14, 2)]
  | 0x0B, 2 => [(9, 1)]
  | 0x0C, 1 => [(10, 2)]
  | 0x0C, 2 => [(26, 6)]
  | _, _ => []

/-- FP32 values in (0, 1], in [0, 1], positive (+∞ allowed), positive or zero. -/
def unitPos (v : Nat) : Bool := FVal.lt zeroV (f32 v) && FVal.le (f32 v) (unitN 1 0)
def unitOpen (v : Nat) : Bool := FVal.le zeroV (f32 v) && FVal.le (f32 v) (unitN 1 0)
def posF (v : Nat) : Bool := FVal.lt zeroV (f32 v)
def nonNegF (v : Nat) : Bool := FVal.le zeroV (f32 v)

/-- Conditions of a SENSOR stitch between its fields (R221, R223, R224). -/
def sensorOk (t : Stitch) : Bool :=
  let zero := fun (o n : Nat) => fieldLe t.bytes o n == 0
  if t.u8 9 = 0 then
    [0x2A, 0x2B, 0x2C, 0x2D, 0x2E, 0x1E, 0x24].contains (t.u8 12) && inSpan 1 8192 (t.u16 16) && inSpan 1 8192 (t.u16 18)
      && zero 32 20
  else
    decide (t.u8 10 ≤ 3) && zero 11 3 && t.u16 18 == 0 && inSpan 64 9000 (t.u16 16) && decide (t.u16 32 < 2 ^ 13)
      && (if bit (t.u8 14) 0 then
            inSpan 4 64 (t.u8 38) && inSpan 1 1024 (t.u16 46) && (t.u8 39 != 2 || t.u32 48 == 0x3F800000)
          else zero 38 14)

/-- Conditions between the fields of one stitch. -/
def crossOk (t : Stitch) : Bool :=
  match t.sec, t.kind with
  | 0x03, 1 => sensorOk t
  | 0x04, 1 =>
    let x := gten t
    let scaled := [1, 2, 4, 5].contains x.fmt
    (x.zp == 0 || x.fmt == 2) && (!isMx x.fmt || (x.dims.getD 0 0 % 32 == 0 && x.qaxis == 0))
      && (!x.sparse || scaled) && (!x.perChannel || isIntFmt x.fmt && x.fmt != 3)
      && (if scaled then posNormal32 x.scale else x.scale == 0x3F800000)
      && x.dims.all (fun d => d != 0) && (x.dims.drop x.rank).all (fun d => d == 1)
      && (if x.role = 1 then x.len == x.size else x.len == 0 || (x.role == 4 && x.len == x.size))
      && (x.role == 1 || x.len != 0 || x.ref == 0) && (x.len != 0 || x.digest.all (· == 0))
  | 0x05, 1 =>
    decide (t.bytes.length = (72 + t.u16 68 + 7) / 8 * 8) && paramLen (t.u16 8) == some (t.u16 68)
      && (List.range 8).all (fun j => decide (j < t.u8 10) || t.u32 (20 + 4 * j) == noneId)
      && (List.range 4).all (fun j => decide (j < t.u8 11) || t.u32 (52 + 4 * j) == noneId)
  | 0x06, 1 =>
    decide (t.u8 25 ≤ t.u8 24 ∧ 1 ≤ t.u8 26 ∧ t.u8 26 ≤ t.u8 24 ∧ 1 ≤ t.u8 27 ∧ t.u8 27 ≤ t.u8 24) && t.u8 22 != 2
  | 0x07, 1 =>
    decide (t.u32 16 < t.u32 12 * 1000 ∧ t.u8 40 ≤ t.u8 41) && unitPos (t.u32 24) && unitPos (t.u32 28) && unitOpen (t.u32 32)
      && unitOpen (t.u32 36)
  | 0x07, 2 => posF (t.u32 28) && finite32 (t.u32 28)
  | 0x07, 4 => decide (t.u8 14 ≤ t.u8 15)
  | 0x07, 3 =>
    [1, 2, 4, 8, 16].contains (t.u8 13) && posF (t.u32 20)
      && (t.u8 12 == 0 || [56, 60, 64, 68].all (fun o => t.u32 o % 2 ^ 31 == 0))
  | 0x08, 1 => [1, 2, 4, 8].contains (t.u8 15)
  | 0x08, 2 => [16, 32, 64].contains (t.u8 8) && decide (t.bytes.length = 16 + 4 * t.u8 8 * t.u8 9)
      && (List.range (t.u8 8 * t.u8 9)).all (fun i =>
        decide (t.u8 (18 + 4 * i) % 16 ≤ t.u8 (18 + 4 * i) / 16) && t.u8 (19 + 4 * i) == 0)
  | 0x08, 3 => decide (t.bytes.length = 16 + 16 * t.u8 8)
      && (List.range (t.u8 8)).all (fun i => inSpan 1 16 (t.u8 (24 + 16 * i)) && fieldLe t.bytes (25 + 16 * i) 7 == 0)
  | 0x09, 1 => (if t.u8 10 = 1 then t.u32 16 == 0 else decide (t.u32 16 < t.u32 12 * 1000))
      && (t.u8 9 != 0 || (t.u8 20 == 1 && t.u8 21 == 1 && t.u8 22 == 0 && nonNegF (t.u32 52) && nonNegF (t.u32 56)))
      && (if t.u8 24 = 0xFF then t.u8 25 == 0 else decide (t.u8 24 ≤ 15) && inSpan 2 64 (t.u8 25)) && decide (t.u8 36 ≤ t.u8 37)
      && (t.u32 32 == 0 || inSpan 1000 10000000 (t.u32 32))
  | 0x09, 2 => decide (t.bytes.length = (16 + 4 * t.u8 13 * t.u8 14 + 7) / 8 * 8)
      && (t.u8 13 * t.u8 14 % 2 == 0 || t.u32 (t.bytes.length - 4) == 0)
  | 0x09, 3 => (t.u8 13 == 0 || (t.u8 14 == 2 && t.u32 16 == noneId)) && [36, 40, 44, 52].all (fun o => posF (t.u32 o))
  | 0x09, 4 => FVal.le (f32 (t.u32 20)) (f32 (t.u32 32)) && FVal.le (f32 (t.u32 32)) (f32 (t.u32 24)) && posF (t.u32 28)
  | 0x09, 5 => decide (t.bytes.length = (16 + t.u8 12 + 7) / 8 * 8)
  | 0x0A, 1 => decide (t.u8 10 ≤ t.u8 11) && (t.u8 8 != 5 || (t.u16 20 != 0 && t.u32 12 != noneId))
  | 0x0A, 2 => decide (t.u32 16 < t.u32 12 * 1000 ∧ t.u32 20 ≤ t.u32 12)
  | 0x0A, 4 => decide (t.u8 12 ≤ t.u8 13)
  | 0x0C, 2 => decide (t.u64 8 % 65536 = 0 ∧ t.u64 16 % 65536 = 0 ∧ t.u64 16 ≠ 0) && (t.u8 24 == 0 || t.u8 25 == 0)
  | _, _ => true

/-- A stitch of a portable section lies in the ranges of its layout. -/
def stitchOk (t : Stitch) : Bool :=
  match rangeRows.find? (fun r => r.sec == t.sec && r.kind == t.kind) with
  | none => false
  | some r =>
    (r.len == 0 || t.bytes.length == r.len) && t.u8 1 == 0 && (stitchRsvd t.sec t.kind).all (fun f => fieldLe t.bytes f.1 f.2 == 0)
      && r.fields.all (fun f => inSpan f.2.2.1 f.2.2.2 (fieldLe t.bytes f.1 f.2.1)) && crossOk t

/-- Kinds of sections by layer (R84). -/
def layerOf (kind : Nat) : Option Nat :=
  if 1 ≤ kind ∧ kind ≤ 0x0D then some 0
  else if kind = 0x10 ∨ kind = 0x11 then some 1
  else if kind = 0x1F then some 2
  else none

/-- The portable stitches. -/
def portable (im : Image) : List Stitch := im.stitches.filter (fun t => layerOf t.sec == some 0)

/-! ### Counts and fields against other stitches (code STITCH) -/

/-- Stitches of the same kind with a lower ID that a test selects. -/
def before (im : Image) (t : Stitch) (p : Stitch → Bool) : Nat :=
  ((im.of t.sec t.kind).filter (fun o => decide (o.id < t.id) && p o)).length

/-- Stitches of a section. -/
def secCount (im : Image) (sec : Nat) : Nat := ((im.secs.find? (fun e => e.1 == sec)).map (·.2.2.2.2)).getD 0

/-- The counts of IDENT equal those of the section table (R86). -/
def identOk (im : Image) (t : Stitch) : Bool :=
  let n := secCount im
  t.u32 44 == n 5 && t.u32 48 == n 4 && t.u32 52 == n 6 && t.u16 56 == n 2 && t.u16 58 == n 3 && t.u16 60 == n 7 && t.u16 62 == n 9

/-- Rows and columns that a matrix of a slot has by WHICH (R281). -/
def matrixShape (k : Stitch) (which : Nat) : Nat × Nat :=
  let m := k.u8 20
  let p := k.u8 21
  let n := k.u8 22
  let q := k.u8 23
  match which with
  | 0 => (n, n)
  | 1 => (n, m)
  | 2 => (p, n)
  | 3 => (p, m)
  | 4 => (p, m)
  | 5 => (q, q)
  | 6 => (q, p)
  | 7 => (m, q)
  | _ => (q, m)

/-- T of a slot, rounded once to FP32 (R283). -/
def slotPeriod (k : Stitch) : FVal := f32 (toF32 (fp32.div (FVal.ofInt (k.u32 12)) (FVal.ofInt 1000000)))

/-- Counts, unique numbers and fields that other stitches bound. -/
def countOk (im : Image) (t : Stitch) : Bool :=
  let same := fun (o n : Nat) => before im t (fun x => fieldLe x.bytes o n == fieldLe t.bytes o n) == 0
  match t.sec, t.kind with
  | 0x01, 1 => before im t (fun _ => true) == 0 && identOk im t
  | 0x02, 1 | 0x03, 1 | 0x09, 1 => same 8 1
  | 0x04, 1 => t.u8 10 != 5 || (decide (before im t (fun x => x.u8 10 == 5) < 16) && sceneOk im (gten t))
  | 0x07, 1 => same 8 1 && (!bit (t.u8 11) 2 || decide (((im.of 7 4).filter (fun k => k.u32 8 == t.id)).length = 1))
  | 0x07, 2 =>
    before im t (fun x => x.u32 8 == t.u32 8 && x.u8 16 == t.u8 16) == 0
      && (match im.find 7 1 (t.u32 8) with
          | none => true
          | some g => decide (t.u8 16 < g.u8 42))
      && (!bit (t.u8 18) 0 || (t.u8 17 == 1 && decide (((im.of 7 5).filter (fun k => k.u32 8 == t.id)).length = 1)
          && (match im.find 3 1 (t.u32 12) with
              | none => true
              | some x => bit (x.u8 14) 0)))
  | 0x07, 3 =>
    let grp := fun (x : Stitch) => (im.find 7 2 (x.u32 8)).map (·.u32 8)
    decide (before im t (fun x => grp x == grp t) < 16)
      && (match (grp t).bind (im.find 7 1) with
          | none => true
          | some g => !bit (g.u8 11) 1 || (t.u16 16 % t.u8 13 == 0 && t.u16 18 % t.u8 13 == 0))
  | 0x08, 1 => before im t (fun _ => true) == 0
  | 0x08, _ => decide (before im t (fun _ => true) < 8) && !(im.of 8 1).isEmpty
  | 0x09, 2 =>
    (match im.find 9 1 (t.u32 8) with
     | none => true
     | some k => (t.u8 13, t.u8 14) == matrixShape k (t.u8 12))
  | 0x09, 3 =>
    (match im.find 9 1 (t.u32 8) with
     | none => true
     | some k => decide (t.u8 12 < k.u8 20) && FVal.le (slotPeriod k) (f32 (t.u32 48)))
  | 0x09, 4 =>
    (match im.find 9 1 (t.u32 8) with
     | none => true
     | some k => decide (t.u8 12 < k.u8 21))
  | 0x0A, 1 => decide (before im t (fun _ => true) < 64)
  | 0x0A, 3 | 0x0B, 1 => before im t (fun _ => true) == 0
  | 0x0A, 4 => same 8 4
  | _, _ => true

/-- A PLAN section holds a PLANNER stitch, an IDENT section its one stitch; a section without stitches names none (R86, R265). -/
def sectionsOk (im : Image) : Bool := !(im.of 1 1).isEmpty && (!im.has 8 || !(im.of 8 1).isEmpty)

/-! ### References (code REFERENCE) -/

/-- Section and kind of the object behind an endpoint kind (R90). -/
def endpoint (kind : Nat) : Option (Nat × Nat) :=
  match kind with
  | 0 => some (5, 1)
  | 1 => some (2, 1)
  | 2 => some (3, 1)
  | 3 => some (7, 1)
  | 4 => some (8, 1)
  | 5 => some (9, 1)
  | _ => none

/-- The object of an endpoint exists; a check tap names a CHECK or MRT stitch. -/
def endpointOk (im : Image) (kind id : Nat) : Bool :=
  match endpoint kind with
  | some (a, b) => (im.find a b id).isSome
  | none => (im.find 0x0A 1 id).isSome || (im.find 0x0A 3 id).isSome

/-- The tensor is INT8 with these extents. -/
def bytesOf (x : GTen) (ds : List Nat) : Bool := x.fmt == 2 && dimsAre x ds

/-- Bits of a pixel of a data type, and its channels (R223, R224). -/
def pixelBits (dt : Nat) : Nat :=
  match dt with
  | 0x2B => 10
  | 0x2C => 12
  | 0x2D => 14
  | 0x2E => 16
  | _ => 8
def pixelChannels (dt : Nat) : Nat := if dt = 0x24 then 3 else if dt = 0x1E then 2 else 1

/-- The FP32 encoding of 2^k. -/
def pow32 (k : Nat) : Nat := (127 + k) * 2 ^ 23

/-- The tensor of a sensor stream's sub-port (R224, R227, R231). -/
def sensorPort (t : Stitch) (x : GTen) (port : Nat) : Bool :=
  let pts := bit (t.u8 14) 0
  match port with
  | 0 =>
    if t.u8 9 = 0 then
      dimsAre x [pixelChannels (t.u8 12), t.u16 16, t.u16 18]
        && (match t.u8 13 with
            | 0 => x.fmt == 2 && x.scale == pow32 (pixelBits (t.u8 12) - 8) && x.zp == -128
            | 1 => x.fmt == 9
            | _ => x.fmt == 0x0B)
    else true
  | 1 => pts && x.fmt == 0x0B && dimsAre x [4, t.u16 46]
  | 2 => pts && bit (t.u8 14) 1 && bytesOf x [1, t.u16 46] && x.zp == -128
  | 3 => bytesOf x [32]
  | _ => false

/-- The CAMERA stitches of a group. -/
def groupCameras (im : Image) (grp : Nat) : List Stitch :=
  (im.of 7 3).filter (fun c => (im.find 7 2 (c.u32 8)).map (·.u32 8) == some grp)

/-- The tensor of a fusion group's sub-port (R241, R245, R249, R250). -/
def fusionPort (im : Image) (t : Stitch) (x : GTen) (port : Nat) (producer : Bool) : Bool :=
  if producer then
    if port = 0 then bytesOf x [256]
    else if port = 1 then
      match (im.of 7 4).find? (fun k => k.u32 8 == t.id) with
      | none => false
      | some k => bit (t.u8 11) 2 && bytesOf x [96, k.u16 12]
    else if 8 ≤ port ∧ port ≤ 23 then
      match (groupCameras im t.id)[port - 8]? with
      | none => false
      | some c => bit (t.u8 11) 1 && x.fmt == 9 && dimsAre x [1, c.u16 16 / c.u8 13, c.u16 18 / c.u8 13]
    else decide (32 ≤ port ∧ port < 32 + t.u8 42)
  else if port = 4 then bit (t.u8 11) 2 && x.fmt == 2 && dimsAre x [32, tdim x 1] && inSpan 2 4097 (tdim x 1)
  else port == 5 && x.fmt == 3

/-- The sub-port of a check tap (R328). -/
def tapPort (im : Image) (id : Nat) (x : GTen) (port : Nat) : Bool :=
  match im.find 0x0A 1 id with
  | none => port == 0 && bytesOf x [1088]
  | some t =>
    if port = 0 then x.id == t.u32 16
    else if port = 1 then (t.u8 8 == 3 || t.u8 8 == 4) && ((im.tensor (t.u32 16)).map (sameDims x)).getD false
    else
      t.u8 8 == 5 && decide (port ≤ 9) && ((im.op (t.u32 12)).map (fun o => o.ins.getD (port - 2) noneId == x.id)).getD false

/-- An endpoint has the sub-port, and its tensor has the form the port takes (R89, R192, R231, R241, R266, R282, R285, R328). -/
def portOk (im : Image) (kind id port : Nat) (x : GTen) (producer : Bool) : Bool :=
  match kind with
  | 0 =>
    (match im.op id with
     | none => false
     | some o => (if producer then o.outs else o.ins).getD port noneId == x.id)
  | 2 => ((im.find 3 1 id).map (fun t => producer && sensorPort t x port)).getD false
  | 3 => ((im.find 7 1 id).map (fun t => fusionPort im t x port producer)).getD false
  | 4 =>
    if producer then inSpan 5 7 port && bytesOf x [16704]
    else port == 0 || (decide (port ≤ 3) && bytesOf x [tdim x 0])
  | 5 =>
    ((im.find 9 1 id).map (fun k =>
      if port = 0 then x.fmt == 0x0B && dimsAre x [k.u8 20, tdim x 1] && inSpan 1 64 (tdim x 1)
      else decide (8 ≤ port ∧ port < 8 + k.u8 20)
        && (im.of 9 3).any (fun c => c.u32 8 == id && c.u8 12 == port - 8 && c.u8 13 == 1 && decide (c.u16 20 < x.elems)))).getD false
  | 6 => tapPort im id x port
  | _ => true

/-- The bytes a frame's fields take: the outputs by INDEX, the counter, the trigger stamp, the status (R281, R290). -/
def frameFields (im : Image) (slot : Nat) (f : Stitch) : List (Nat × Nat) :=
  ((im.of 9 4).filter (fun o => o.u32 8 == slot)).map (fun o => (o.u16 16, if o.u8 13 = 0 then 2 else 4))
    ++ [(f.u8 13, 2), (f.u8 14, 8), (f.u8 15, 1)].filter (fun p => p.1 != 0xFF)

/-- Fields lie inside a frame of `len` bytes and do not overlap. -/
def fieldsApart (len : Nat) : List (Nat × Nat) → Bool
  | [] => true
  | a :: r => decide (a.1 + a.2 ≤ len) && r.all (fun b => decide (a.1 + a.2 ≤ b.1 ∨ b.1 + b.2 ≤ a.1)) && fieldsApart len r

/-- The parts of a slot, and its place in a cascade (R282). -/
def slotOk (im : Image) (t : Stitch) : Bool :=
  let n := fun (kind : Nat) => ((im.of 9 kind).filter (fun p => p.u32 8 == t.id)).length
  let fr := (im.of 9 5).filter (fun p => p.u32 8 == t.id)
  let isOuter := (im.of 9 1).any (fun k => k.u8 24 == t.u8 8)
  decide ((slotParts im 3 t.id (t.u8 20)).length = t.u8 20 ∧ n 3 = t.u8 20)
    && decide ((slotParts im 4 t.id (t.u8 21)).length = t.u8 21 ∧ n 4 = t.u8 21)
    && decide ((slotParts im 2 t.id 9).length = n 2)
    && (if isOuter then decide (fr.length ≤ 1) else decide (fr.length = 1))
    && fr.all (fun f => fieldsApart (f.u8 12) (frameFields im t.id f))
    && (t.u8 24 == 0xFF ||
        (match (im.of 9 1).find? (fun k => k.u8 8 == t.u8 24) with
         | none => false
         | some k => t.u8 10 == 0 && k.u8 10 == 0 && k.u8 8 / 8 == t.u8 8 / 8 && k.u32 16 == t.u32 16
             && k.u32 12 == t.u8 25 * t.u32 12 && k.u8 21 == t.u8 20 && k.u8 24 == 0xFF
             && decide (((im.of 9 1).filter (fun j => j.u8 24 == k.u8 8)).length = 1)))

/-- A STREAM channel reads a field inside the payload of an ETH stream (R282). -/
def channelOk (im : Image) (t : Stitch) : Bool :=
  t.u8 13 == 1 ||
    (match im.find 3 1 (t.u32 16) with
     | none => false
     | some x => x.u8 9 == 1 && decide (t.u16 20 + (if t.u8 14 = 0 ∨ t.u8 14 = 3 then 2 else 4) ≤ x.u16 16))

/-- The scale tensor of a descriptor: FP32 per channel of QAXIS, or the block scales of an MX tensor; none otherwise
(R64, R87). -/
def scaleTensorOk (im : Image) (x : GTen) : Bool :=
  if x.perChannel then
    ((im.tensor x.scaleT).map (fun y => y.fmt == 0x0B && dimsAre y [tdim x x.qaxis])).getD false && decide (x.qaxis < x.rank)
  else if isMx x.fmt then
    ((im.tensor x.scaleT).map (fun y => y.fmt == 0x0D && dimsAre y ([tdim x 0 / 32] ++ (tdims x).drop 1))).getD false
  else x.scaleT == noneId

/-- Section and kind of the objects of WORLD OBJECT stitches, and of BUDGET stitches (R92, R93); the planner has no ID. -/
def worldObject (kind : Nat) : Nat × Nat :=
  match kind with
  | 0 => (5, 1)
  | 1 => (4, 1)
  | 2 => (2, 1)
  | 3 => (3, 1)
  | 4 => (7, 1)
  | 5 => (9, 1)
  | _ => (8, 0)
def budgetObject (kind : Nat) : Nat × Nat :=
  match kind with
  | 0 => (5, 1)
  | 1 => (2, 1)
  | 2 => (7, 1)
  | 3 => (8, 0)
  | _ => (9, 1)

/-- The objects a stitch names exist and have the right type and shape (R85, R90, R92, R93, R233, R282, R327). -/
def refsOk (im : Image) (t : Stitch) : Bool :=
  let has := fun (sec kind o : Nat) => (im.find sec kind (t.u32 o)).isSome
  match t.sec, t.kind with
  | 0x04, 1 => scaleTensorOk im (gten t)
  | 0x05, 1 =>
    (gop t).ins.all (fun x => x == noneId || (im.tensor x).isSome) && (gop t).outs.all (fun x => (im.tensor x).isSome)
  | 0x06, 1 =>
    let e := gedge t
    endpointOk im e.srcKind e.src && endpointOk im e.dstKind e.dst
      && (match im.tensor e.tensor with
          | none => false
          | some x => portOk im e.srcKind e.src e.srcPort x true && portOk im e.dstKind e.dst e.dstPort x false)
  | 0x07, 2 => has 7 1 8 && has 3 1 12
  | 0x07, 3 | 0x07, 5 => has 7 2 8
  | 0x07, 4 => has 7 1 8
  | 0x07, 1 => decide (((im.of 7 2).filter (fun m => m.u32 8 == t.id)).length = t.u8 42)
  | 0x09, 1 => slotOk im t
  | 0x09, 2 | 0x09, 4 | 0x09, 5 => has 9 1 8
  | 0x09, 3 => has 9 1 8 && channelOk im t
  | 0x0A, 1 => has 4 1 16 && (t.u32 12 == noneId || has 5 1 12)
  | 0x0A, 2 => has 5 1 8 && im.naming (t.u32 8) == t.u32 8
  | 0x0A, 4 => has 2 1 8
  | 0x0B, 2 => t.u8 8 == 3 && im.has 8 || has (budgetObject (t.u8 8)).1 (budgetObject (t.u8 8)).2 12
  | 0x0C, 1 => t.u8 8 == 6 && im.has 8 || has (worldObject (t.u8 8)).1 (worldObject (t.u8 8)).2 12
  | _, _ => true

end Sys2Proof.Machine
end

