-- ==== Sys2Proof/Machine/Verify.lean ====
section
/-!
DEFINITION. The checks of an image before it is placed: header, section table, signatures, operators, the graph, intake limits,
worlds and envelope (R82 to R97, R105, R416), and the contents of its tensors (R87, R98, R134).
-/

namespace Sys2Proof.Machine

/-! ### Header and sections (R82 to R85, code FORMAT) -/

/-- The section table is well formed: ascending kinds, layers, offsets that follow one another, SIGNATURE last (R83). -/
def tableOk (total : Nat) : Nat → Nat → List (Nat × Nat × Nat × Nat × Nat) → Bool
  | _, at_, [] => at_ == total
  | prev, at_, (k, l, o, n, _) :: r =>
    decide (prev < k) && layerOf k == some l && decide (o = at_) && decide (n % 8 = 0)
      && (k != 0x1F || r.isEmpty) && tableOk total k (o + n) r

/-- The stitches of a section are packed, ascending, and as many as its entry says (R85). -/
def sectionOk (raw : List Byte) (e : Nat × Nat × Nat × Nat × Nat) : Bool :=
  let bs := slice raw e.2.2.1 e.2.2.2.1
  let ts := parseStitches e.1 (e.2.2.2.1 / 8 + 1) bs
  let ord := fun (a b : Stitch) =>
    if e.1 = 0x11 then true
    else if e.1 = 0x10 then decide (a.kind < b.kind ∨ (a.kind = b.kind ∧ a.id < b.id))
    else decide (a.id < b.id)
  decide ((ts.map (fun t => t.bytes.length)).foldl (· + ·) 0 = bs.length) && ts.length == e.2.2.2.2
    && ts.all (fun t => decide (t.id ≠ 0 ∧ t.bytes.length % 8 = 0 ∧ t.bytes.length ≤ 65528))
    && (ts.zip (ts.drop 1)).all (fun p => ord p.1 p.2)

/-- The header and table of an image are well formed, for a load in the mode given (R82 to R85, R114). Reserved bytes of header
and table, TARGET_MEMBER and STEPPING_MASK are not judged (assumption 145); a PATTERN_ID or GENERATION of 0, and a
BASE_GENERATION in a full image, are a matter of format (assumption 146). -/
def formatOk (raw : List Byte) (patch : Bool) : Bool :=
  let im := parseImage raw
  let n := fieldLe raw 12 2
  let first := (64 + 16 * n + 7) / 8 * 8
  fieldLe raw 0 4 == 0x5441504B && fieldLe raw 4 2 == 1 && decide (im.totalLen = raw.length)
    && decide (0x80 ≤ im.totalLen ∧ im.totalLen ≤ 0x01000000 ∧ im.totalLen % 8 = 0) && decide (2 ≤ n ∧ n ≤ 16)
    && tableOk im.totalLen 0 first im.secs && im.has 0x1F && im.has 0x01
    && (patch || (im.has 0x04 && im.has 0x05 && im.has 0x06))
    && im.isPatch == patch && (!patch || (!im.fitted && !im.stackAlts))
    && im.fitted == im.has 0x10 && (!im.has 0x11 || im.has 0x10)
    && im.secs.all (sectionOk raw)
    && decide (im.patternId ≠ 0 ∧ im.generation ≠ 0) && (patch || im.baseGen == 0)

/-! ### Signatures (R96, R97) -/

/-- The SIGNATURE stitch of a scope. -/
def sigOf (im : Image) (scope : Nat) : Option Stitch := (im.find 0x1F 1 (scope + 1)).filter (fun t => t.u8 8 == scope)

/-- The bytes a scope covers. -/
def covered (raw : List Byte) (im : Image) (scope : Nat) : List Byte :=
  if scope = 0 then raw.take im.sigOffset else slice raw 16 16 ++ secBytes raw im 0x0C

/-- A signature's digest and signature verify. -/
def sigOk (raw : List Byte) (im : Image) (scope : Nat) (t : Stitch) (s : State) : Bool :=
  let c := covered raw im scope
  let d := slice t.bytes 16 32
  decide (t.bytes.length = 2472) && t.u32 12 == c.length && Config.sha3 c == d
    && Config.mldsaVerify (keySlot (t.u8 9) s).key d (slice t.bytes 48 2420)

/-- A SIGNATURE stitch is the image-scope one, with ID 1, or the world-scope one, with ID 2 (R96). -/
def sigStitchOk (t : Stitch) : Bool :=
  t.kind == 1 && decide (t.bytes.length = 2472) && ((t.id == 1 && t.u8 8 == 0) || (t.id == 2 && t.u8 8 == 1))
    && t.u8 1 == 0 && t.u16 10 == 0 && t.u32 2468 == 0

/-- The code of verification (R100, second row): 0 when the image passes. -/
def verifyCode (raw : List Byte) (patch : Bool) (s : State) : Nat :=
  let im := parseImage raw
  if !formatOk raw patch then 0x01
  else if im.portableVer = 0 ∨ Config.portableVer < im.portableVer then 0x02
  else
    match sigOf im 0, sigOf im 1 with
    | none, _ => 0x03
    | some a, w =>
      if !hasKind (a.u8 9) 0 s then 0x05
      else if !sigOk raw im 0 a s then 0x03
      else if w.isSome ≠ im.has 0x0C then 0x04
      else if (match w with
          | none => false
          | some b => !hasKind (b.u8 9) 1 s || !sigOk raw im 1 b s) then 0x04
      else if im.secVersion < (keyStore s).patFloor then 0x06
      else 0

/-! ### The graph (code GRAPH) -/

/-- Operators reached from a set over the edges that a predicate selects. -/
def reach (edges : List GEdge) : Nat → List Nat → List Nat
  | 0, ids => ids
  | n + 1, ids => reach edges n (grow edges true ids)

/-- No cycle of operators uses only edges of a list. -/
def acyclic (im : Image) (edges : List GEdge) : Bool :=
  im.ops.all (fun o =>
    let next := ((edges.filter (fun e => e.srcKind == 0 && e.dstKind == 0 && e.src == o.id)).map (·.dst)).eraseDups
    !(reach edges im.ops.length next).contains o.id)

/-- Every input that is not a constant or state tensor is fed by exactly one edge (R90). -/
def inputsFed (im : Image) : Bool :=
  im.ops.all (fun o => (numbered o.ins).all (fun i =>
    match im.tensor i.2 with
    | none => true
    | some x => x.role == 1 || x.role == 4
        || (im.edges.any (fun e => e.dstKind == 0 && e.dst == o.id && e.dstPort == i.1))))

/-- The stream rules of R192. -/
def streamsOk (im : Image) : Bool :=
  (im.of 2 1).all (fun t =>
    let es := im.edges.filter (fun e => (e.srcKind == 1 && e.src == t.id) || (e.dstKind == 1 && e.dst == t.id))
    let subs := es.map (fun e => if e.srcKind = 1 ∧ e.src = t.id then e.srcPort else e.dstPort)
    es.all (fun e => e.consume == 1 && e.produce == 1
        && (if e.srcKind = 1 ∧ e.src = t.id then decide (e.srcPort < 4) else decide (4 ≤ e.dstPort ∧ e.dstPort < 8)))
      && decide (subs.eraseDups.length = subs.length) && subs.any (fun p => decide (4 ≤ p)))

/-- Fused groups are connected and have no initial token inside (R89). -/
def fusedOk (im : Image) : Bool :=
  im.ops.all (fun o =>
    let ids := (im.unit o.id).map (·.id)
    let inner := im.edges.filter (fun e => e.srcKind == 0 && e.dstKind == 0 && ids.contains e.src && ids.contains e.dst)
    let both := inner ++ inner.map (fun e => { e with src := e.dst, dst := e.src })
    ids.all (fun i => (reach both ids.length [o.id]).contains i))
    && im.edges.all (fun e => !im.isInternal e || e.init == 0)

/-- An edge of a scene-memory tensor runs from its MEM_APPEND to a reader, with one token buffer and none at load (R161). -/
def versionEdge (im : Image) (e : GEdge) : Bool :=
  e.depth == 1 && e.init == 0 && e.srcKind == 0 && e.dstKind == 0
    && ((im.op e.src).map (fun o => o.opcode == 0x0202 && e.srcPort == 0)).getD false
    && ((im.op e.dst).map (fun o => o.opcode == 0x0201 && e.dstPort == 1)).getD false

/-- The edges of checks, requests and scene memories (R161, R266, R328). -/
def tapsOk (im : Image) : Bool :=
  (im.of 0x0A 1).all (fun t =>
      let subs := (im.edges.filter (fun e => e.dstKind == 6 && e.dst == t.id)).map (·.dstPort)
      subs.contains 0 && (if t.u8 8 = 3 ∨ t.u8 8 = 4 then subs.contains 1 else true)
        && subs.all (fun p => decide (p ≤ 1) || t.u8 8 == 5) && (!subs.contains 1 || t.u8 8 == 3 || t.u8 8 == 4)
        && (t.u8 8 != 5 || (match im.op (t.u32 12) with
          | none => true
          | some o => (numbered o.ins).all (fun i =>
              ((im.tensor i.2).map (fun x => x.role == 1)).getD true || subs.contains (2 + i.1)))))
    && im.edges.all (fun e => e.dstKind != 6 || (e.consume == 1 && e.produce == 1))
    && im.edges.all (fun e => !(e.dstKind == 4 && decide (1 ≤ e.dstPort))
        || im.edges.any (fun r => r.srcKind == 4 && r.srcPort == e.dstPort + 4))
    && im.edges.all (fun e => ((im.tensor e.tensor).map (fun x => x.role != 5)).getD true || versionEdge im e)

/-- The graph is admissible. -/
def graphOk (im : Image) : Bool :=
  acyclic im (im.edges.filter (fun e => e.init == 0)) && acyclic im (im.edges.filter im.isInternal)
    && inputsFed im && streamsOk im && fusedOk im && tapsOk im

/-! ### Intake, worlds, envelope, checks -/

/-- The ring condition of a member (R229). -/
def ringOk (im : Image) (m : Stitch) : Bool :=
  match im.find 7 1 (m.u32 8), im.find 3 1 (m.u32 12) with
  | some g, some x => decide (ceilDiv (m.u32 20 + g.u32 20) (x.u32 24) + 2 ≤ x.u16 28)
  | _, _ => true

/-- The limits of code INTAKE (R191, R222, R229, R282). -/
def intakeOk (im : Image) (s : State) : Bool :=
  let sens := im.of 3 1
  let csi := sens.filter (fun t => t.u8 9 == 0)
  let eth := sens.filter (fun t => t.u8 9 == 1)
  let uniq := fun (xs : List (List Nat)) => decide (xs.eraseDups.length = xs.length)
  let bpp := fun (dt : Nat) => if dt = 0x24 then 24 else if dt = 0x1E then 16 else if dt = 0x2A then 8 else if dt = 0x2B then 10
    else if dt = 0x2C then 12 else if dt = 0x2D then 14 else 16
  let rate : Nat → Nat := fun p => ((csi.filter (fun t => t.u8 10 == p)).map (fun t =>
    t.u16 16 * t.u16 18 * bpp (t.u8 12) * 1000000 / max 1 (t.u32 24))).foldl (· + ·) 0
  let evals : Nat → Nat := fun e => (((im.of 9 1).filter (fun t => t.u8 8 / 8 == e)).map (fun t => 1000000 / max 1 (t.u32 12))).foldl (· + ·) 0
  decide (sens.length ≤ 48 ∧ (im.of 7 1).length ≤ 16 ∧ (im.of 9 1).length ≤ 16 ∧ eth.length ≤ 16 ∧ (im.of 2 1).length ≤ 256)
    && uniq (csi.map (fun t => [t.u8 10, t.u8 11, t.u8 12])) && uniq (eth.map (fun t => [t.u8 10, t.u16 32, t.u8 34, t.u16 36]))
    && (List.range 8).all (fun p => decide (rate p * 4 ≤ 10000000000 * (tget {} p s.sense.csi).lanes))
    && sens.all (fun t => decide (((im.of 7 2).filter (fun m => m.u32 12 == t.id)).length ≤ 4))
    && (im.of 7 2).all (ringOk im) && decide (((im.of 2 1).map (·.u16 10)).foldl (· + ·) 0 ≤ 16384)
    && decide (evals 0 ≤ 160000 ∧ evals 1 ≤ 160000 ∧ evals 0 + evals 1 ≤ 320000)

/-- The world of an endpoint: check taps belong to the islands, which are secure (R415). -/
def endSecure (im : Image) (kind id : Nat) : Bool :=
  match kind with
  | 0 => im.secure 0 id
  | 1 => im.secure 2 id
  | 2 => im.secure 3 id
  | 3 => im.secure 4 id
  | 4 => im.secure 6 0
  | 5 => im.secure 5 id
  | _ => true

/-- The world rules of R416 that the portable layer decides, stitch by stitch. -/
def worldOk (im : Image) (t : Stitch) : Bool :=
  match t.sec, t.kind with
  | 0x05, 1 =>
    let o := gop t
    let w := im.secure 0 o.id
    (im.unit o.id).all (fun p => im.secure 0 p.id == w) && o.outs.all (fun x => im.secure 1 x == w)
      && (w || o.ins.all (fun x => !im.secure 1 x))
  | 0x06, 1 =>
    let e := gedge t
    let src := endSecure im e.srcKind e.src
    let dst := endSecure im e.dstKind e.dst
    (!src || dst) && im.secure 1 e.tensor == src && (dst || !im.secure 1 e.tensor)
  | 0x0C, 2 =>
    (im.of 0x0C 2).all (fun o => o.id == t.id
      || decide (t.u64 8 + t.u64 16 ≤ o.u64 8 ∨ o.u64 8 + o.u64 16 ≤ t.u64 8))
  | _, _ => true

/-- The envelope lies within the module limits (R92). -/
def powerOk (im : Image) : Bool := let e := envelopeOf im; decide (e.1 ≤ 520 ∧ e.2.1 ≤ 640 ∧ e.2.2 ≤ 10)

/-- A refusal: its code, and the stitch that PATTERN_DETAIL names. -/
abbrev Refused := Nat × Option Stitch

/-- The first stitch that a test rejects, with a code. -/
def firstBad (code : Nat) (ok : Stitch → Bool) (ts : List Stitch) : Option Refused := (ts.find? (fun t => !ok t)).map (fun t => (code, some t))

/-- The first check that refuses. -/
def firstOf (cs : List (Option Refused)) : Option Refused := cs.findSome? id

/-- A check of the whole image. -/
def whole (code : Nat) (ok : Bool) : Option Refused := if ok then none else some (code, none)

/-- The first operator outside its limits, with the code of the violation; a mixture that a fused group may not hold is
refused with STITCH (R186). -/
def badOp (im : Image) (ts : List Stitch) : Option Refused :=
  (ts.filter (fun t => t.sec == 5)).findSome? (fun t =>
    match opError im (gop t) with
    | some c => some (c, some t)
    | none => if mixtureOk im (im.unit t.id) then none else some (codeStitch, some t))

/-- A spot recompute cannot judge a STENCIL of several applications, or the end alone of several steps (R187). -/
def spotOk (im : Image) (t : Stitch) : Bool :=
  t.sec != 0x0A || t.kind != 1 || t.u8 8 != 5 ||
    (match im.op (t.u32 12) with
     | none => true
     | some o => !(o.opcode == 0x0310 && decide (1 < o.p8 3)) && !(o.opcode == 0x0320 && decide (1 < o.p16 2) && !bit (o.p8 1) 0))

/-- The checks of single stitches of an image, over the stitches given (codes STITCH, REFERENCE, REDUCTION). -/
def checkStitches (im : Image) (ts : List Stitch) : Option Refused :=
  firstOf [firstBad 0x07 stitchOk ts, firstBad 0x07 (countOk im) ts, firstBad 0x08 (refsOk im) ts, badOp im ts, firstBad 0x07 (spotOk im) ts]

/-- The code of the stitch and graph checks with the offending stitch (R100, third row); none when they pass. -/
def checkImage (im : Image) (s : State) : Option Refused :=
  firstOf [firstBad 0x07 sigStitchOk (im.stitches.filter (fun t => t.sec == 0x1F)), checkStitches im (portable im),
    whole 0x07 (sectionsOk im), whole 0x09 (graphOk im), whole 0x0D (intakeOk im s), firstBad 0x0E (worldOk im) (portable im),
    whole 0x0F (powerOk im), whole 0x10 (!(im.has 0x0A && bothSplit s))]

/-! ### Contents (code EXTERNAL) -/

/-- The contents DATA_REF names (R87); an inline reference of a patch counts from the DATA section of the patch (assumption
147). -/
def contentsOf (raw : List Byte) (im : Image) (x : GTen) (s : State) : List Byte :=
  if x.external then devRd x.ref x.len s else slice (secBytes raw im 0x0D) x.ref x.len

/-- Tensors with contents. -/
def withContents (im : Image) : List GTen := im.tensors.filter (fun x => x.len != 0)

/-- The first tensor whose contents do not match its DIGEST. -/
def badContents (raw : List Byte) (im : Image) (s : State) : Option GTen :=
  (withContents im).find? (fun x => Config.sha3 (contentsOf raw im x s) != x.digest)

/-- The first 2:4-compressed tensor with an index pair out of order (R134). -/
def badMeta (raw : List Byte) (im : Image) (s : State) : Option GTen :=
  (withContents im).find? (fun x => !metaOk x (contentsOf raw im x s))

/-- The code of the checks of contents: EXTERNAL for a digest, STITCH for 2:4 indices. -/
def contentError (raw : List Byte) (im : Image) (s : State) : Option Refused :=
  match badContents raw im s, badMeta raw im s with
  | some x, _ => some (0x17, im.find 4 1 x.id)
  | none, some x => some (codeStitch, im.find 4 1 x.id)
  | none, none => none

/-- Master copies and initial contents (R98). -/
def mastersOf (raw : List Byte) (im : Image) (s : State) : List (Nat × List Byte) :=
  (withContents im).map (fun x => (x.id, contentsOf raw im x s))

end Sys2Proof.Machine
end

