-- ==== Sys2Proof/Machine/FitCheck.lean ====
section
/-!
DEFINITION. The checks of a placement: ranges and references of its stitches (R94), mittens and chained arrays (R54, R55, R126,
R132, R143, R178), tiers and capacities (R49, R51 to R53, R98, R147, R163), route tables (R42), worlds (R104, R416, R420) and
alternates (R95, R101, R474).
-/

namespace Sys2Proof.Machine

/-! ### Mittens and chained arrays -/

/-- The operators on a mitten's fingers. -/
def fingerOps (im : Image) (ops : List GOp) : List GOp := ops.filter (onFingers im)

/-- The array scope of a mitten holds the quad-scope arrays (R126): rectangles, but not groups whose tiling unit is a glove. -/
def scopeQuad (im : Image) (ops : List GOp) (shape : Nat) : Bool := shape == 2 && !(isSliding ops && !(tilePlan im ops).quad)

/-- The array of a CHAIN code (R94). -/
def arrayOf (code : Nat) : Option Arr := arrays.find? (fun a => a.code == code)

/-- An operator has a legal mapping on an array (R126, R130, R131, R178). -/
def mapsOn (im : Image) (a : Arr) (o : GOp) : Bool :=
  if o.opcode = 0x0110 ∨ o.opcode = 0x0310 then
    (if mapField im o = 0 then [1, 2, 3] else [mapField im o]).any (fun k => (convOn (convShape im o) k a).isSome)
  else true

/-- CHAIN lies in the scope of the mitten, and one operator on its fingers at least maps onto it; every operator maps onto some
array of the scope (R55, R126, R132). -/
def chainLegal (im : Image) (t : Stitch) : Bool :=
  let ops := im.unit (t.u32 8)
  let fs := fingerOps im ops
  let q := scopeQuad im ops (t.u8 13)
  match arrayOf (t.u8 20) with
  | none => false
  | some a => (!a.quad || q) && (fs.isEmpty || fs.any (mapsOn im a)) && fs.all (fun o => (mapOf im q o).isSome)

/-- CHAIN is the array that the fitter chooses for an operator on the mitten's fingers (R126, R132, assumption 154). -/
def chainChosen (im : Image) (t : Stitch) : Bool :=
  let ops := im.unit (t.u32 8)
  let fs := fingerOps im ops
  fs.isEmpty || fs.any (fun o => ((mapOf im (scopeQuad im ops (t.u8 13)) o).map (·.arr.code)) == some (t.u8 20))

/-- A unit that tiles by quads is a rectangle of quads (R143). -/
def tilingOk (im : Image) (t : Stitch) : Bool :=
  let ops := im.unit (t.u32 8)
  !(isSliding ops && (tilePlan im ops).quad) || t.u8 13 == 2

/-- The ranges of a MITTEN stitch (R54, R94). -/
def mittenRanges (t : Stitch) : Bool :=
  decide (t.bytes.length = 32) && inSpan 1 1344 t.id && decide (t.u8 12 < 4 ∧ t.u8 13 ≤ 2 ∧ t.u8 14 ≤ 3 ∧ t.u8 20 ≤ 12)
    && decide (1 ≤ t.u8 18 ∧ t.u8 16 + t.u8 18 ≤ 7 ∧ 1 ≤ t.u8 19 ∧ t.u8 17 + t.u8 19 ≤ 12)
    && (t.u8 13 == 2 || (t.u8 18 == 1 && t.u8 19 == 1)) && (t.u8 13 != 1 || t.u8 14 % 2 == 0) && (t.u8 13 != 2 || t.u8 14 == 0)
    && t.u8 15 == 0 && fieldLe t.bytes 21 11 == 0

/-! ### Buffers -/

/-- Bytes of a lining bank, of a palm; the first device address of the reserve (R48, R51, R417). -/
def bankBytes : Nat := 2 ^ 21
def palmBytes : Nat := 2 ^ 18
def reserveAt : Nat := Config.traceRing 1

/-- The mittens that produce or consume a tensor (R53). -/
def usersOf (im : Image) (fit : List Stitch) (tensor : Nat) : List Stitch :=
  (fitMittens fit).filter (fun t => (im.unit (t.u32 8)).any (fun o => o.ins.contains tensor || o.outs.contains tensor))

/-- The ranges and references of a BUFFER stitch (R49, R53, R94, R98): a T1 buffer lies in the lining of a mitten that uses the
tensor, a T2 buffer outside the reserve and the pattern area, a T3 buffer behind T3_PORT. -/
def bufferRanges (im : Image) (fit : List Stitch) (t : Stitch) : Bool :=
  let n := bufferSize im t
  let users := usersOf im fit t.id
  decide (t.bytes.length = 32) && fieldLe t.bytes 13 3 == 0 && t.u32 28 == 0 && (im.tensor t.id).isSome
    && (t.u8 8 == 0 || t.u32 24 == noneId)
    && (match t.u8 8 with
        | 0 =>
          (match ownerStitch t fit with
           | none => false
           | some m => t.u8 9 == m.u8 12 && decide (t.u64 16 + n ≤ palmBytes * (mitGloves m).length))
        | 1 => decide (t.u8 9 < 4 ∧ t.u8 10 ≤ 1 ∧ 1 ≤ t.u8 12 ∧ t.u8 11 + t.u8 12 ≤ 48) && (t.u8 10 == 0 || t.u8 12 == 1)
            && decide (t.u64 16 + n ≤ bankBytes * t.u8 12) && (users.isEmpty || users.any (fun m => m.u8 12 == t.u8 9))
        | 2 => t.u8 9 == 0 && decide (t.u64 16 + n ≤ reserveAt)
        | 3 => t.u8 9 == (((im.of 1 1).head?).map (·.u8 64)).getD 0
        | _ => false)

/-- Bytes that the buffers of a tier take where a test holds of them. -/
def bytesIn (im : Image) (fit : List Stitch) (tier : Nat) (p : Stitch → Bool) : Nat :=
  (((fitBuffers fit).filter (fun b => b.u8 8 == tier && p b)).map (bufferSize im)).foldl (· + ·) 0

/-- The buffers beside a BUFFER stitch fit its tier: the owner's palms, the stack's lining, the device (R51). -/
def tierHolds (im : Image) (fit : List Stitch) (t : Stitch) : Bool :=
  match t.u8 8 with
  | 0 => ((ownerStitch t fit).map (fun m =>
      decide (bytesIn im fit 0 (fun b => b.u32 24 == t.u32 24) ≤ palmBytes * (mitGloves m).length))).getD false
  | 1 => decide (bytesIn im fit 1 (fun b => b.u8 9 == t.u8 9) ≤ 48 * bankBytes)
  | 2 => decide (bytesIn im fit 2 (fun _ => true) ≤ reserveAt)
  | _ => true

/-- A tensor that only connects operators of one fused group lives in the palms of its mitten and needs no buffer (R94). -/
def innerTensor (im : Image) (x : GTen) : Bool :=
  x.role == 0 && im.edges.any (fun e => e.tensor == x.id) && im.edges.all (fun e => e.tensor != x.id || im.isInternal e)

/-- The intermediate tensors that R147 turns into T1 buffers. -/
def spilledTensors (im : Image) : List Nat :=
  (im.ops.filter (fun o => im.naming o.id == o.id)).flatMap (fun o =>
    let ops := im.unit o.id
    if isSliding ops then (tilePlan im ops).spilled else [])

/-- A tensor has the buffer it needs: an inner one only where its tiles do not fit the palms, and then in T1 (R94, R147). -/
def tensorPlaced (im : Image) (fit : List Stitch) (x : GTen) : Bool :=
  match bufferOf x.id fit with
  | some b => !(spilledTensors im).contains x.id || b.u8 8 == 1
  | none => innerTensor im x && !(spilledTensors im).contains x.id

/-- A buffer in T3 without HOST_ALLOWED (R52). -/
def hostSpill (im : Image) (fit : List Stitch) : Bool :=
  (fitBuffers fit).any (fun b => b.u8 8 == 3 && ((im.tensor b.id).map (fun x => !x.hostAllowed)).getD false)

/-! ### Scene memories (R163) -/

/-- Packed bytes of a page of a scene memory (R159). -/
def scenePageBytes (x : GTen) (log2 : Nat) : Nat := (2 ^ log2 * tdim x 2 * tdim x 0 * fmtBits x.fmt + 7) / 8

/-- Palms of a unit's mittens in bytes, less its T0 buffers. -/
def palmRoom (im : Image) (fit : List Stitch) (op : Nat) : Nat :=
  ((mittensOfOp (im.naming op) fit).map (fun m =>
    palmBytes * (mitGloves m).length - bytesIn im fit 0 (fun b => b.u32 24 == m.id))).foldl (· + ·) 0

/-- The quotas and prefetch windows of a scene memory fit their tiers: T0 and the scorer's windows in the home mitten's palms,
T1 in its stack's lining, T2 in the device, and every other reader's windows in its palms. -/
def sceneFits (im : Image) (fit : List Stitch) (e : Nat × GTen) : Bool :=
  let x := sceneFrom im e.1 e.2
  let n := scenePageBytes e.2 x.pageLog2
  let q := fun (i : Nat) => x.quota.getD i 0 * n
  let win := x.lookahead * n
  let stack := ((leadStitch (im.naming x.scorer) fit).map (·.u8 12)).getD 0
  decide (q 0 + win ≤ palmRoom im fit x.scorer)
    && decide (q 1 + bytesIn im fit 1 (fun b => b.u8 9 == stack && b.id != x.tensor) ≤ 48 * bankBytes)
    && decide (q 2 + bytesIn im fit 2 (fun b => b.id != x.tensor) ≤ reserveAt)
    && x.readers.all (fun r => r == x.scorer || decide (win ≤ palmRoom im fit r))

/-- Every scene memory fits. -/
def scenesFit (im : Image) (fit : List Stitch) : Bool :=
  (numbered (im.tensors.filter (fun x => x.role == 5))).all (sceneFits im fit)

/-! ### DMA queues (R38, R94) -/

/-- A DMA address names a tier, and a stack or HOST port of it. -/
def dmaAddrOk (a : Nat) : Bool :=
  let tier := a / 2 ^ 60 % 16
  let w := a / 2 ^ 56 % 16
  match tier with
  | 0 | 1 => decide (w < 4)
  | 2 => w == 0
  | 3 => decide (w < 2)
  | _ => false

/-- The ranges of a DMA stitch. -/
def dmaRanges (t : Stitch) : Bool :=
  decide (1 ≤ t.u8 11 ∧ t.u8 11 ≤ 16 ∧ t.bytes.length = 16 + 32 * t.u8 11 ∧ t.u16 8 < 1344 ∧ t.u8 10 < 8
      ∧ t.id = t.u16 8 * 8 + t.u8 10 + 1)
    && t.u32 12 == 0
    && (List.range (t.u8 11)).all (fun i =>
      let o := 16 + 32 * i
      decide (1 ≤ t.u16 (o + 20) ∧ t.u32 (o + 16) * t.u16 (o + 20) ≤ 65536) && t.u16 (o + 22) == 0
        && dmaAddrOk (t.u64 o) && dmaAddrOk (t.u64 (o + 8)))

/-! ### Route tables (R42) -/

/-- The default entry for a destination: along the row, then along the column; exits go to their edge. Codes: 0 north, 1 south,
2 east, 3 west, 4 local, 5 cuff. -/
def defaultRoute (q dest : Nat) : Nat :=
  let col := if dest = 84 then 0 else if dest = 85 then 6 else dest % 7
  let row := if 84 ≤ dest then q / 7 else dest / 7
  if q % 7 < col then 2
  else if col < q % 7 then 3
  else if 84 ≤ dest then 5
  else if q / 7 < row then 0
  else if row < q / 7 then 1
  else 4

/-- The entry of a placement's table set of die `k`. -/
def placedRoute (fit : List Stitch) (k q dest : Nat) : Nat :=
  match (fitRoutes fit).find? (fun t => t.u8 8 == k && t.u8 9 == q) with
  | some t => t.u8 (16 + dest)
  | none => defaultRoute q dest

/-- The neighbour of a quad in a direction; none at the edge of the mesh. -/
def meshNext (q code : Nat) : Option Nat :=
  match code with
  | 0 => if q / 7 < 11 then some (q + 7) else none
  | 1 => if 0 < q / 7 then some (q - 7) else none
  | 2 => if q % 7 < 6 then some (q + 1) else none
  | 3 => if 0 < q % 7 then some (q - 1) else none
  | _ => none

/-- The mesh links a packet takes from a quad to a destination under a table, as (quad, direction): none where it leaves the mesh,
meets a quad that is not there, or does not arrive within `fuel` hops. -/
def routeWalk (table : Nat → Nat → Nat) (there : Nat → Bool) (dest : Nat) : Nat → Nat → Option (List (Nat × Nat))
  | 0, _ => none
  | n + 1, q =>
    let c := table q dest
    if c = 4 then (if q = dest then some [] else none)
    else if c = 5 then (if (dest = 84 ∧ q % 7 = 0) ∨ (dest = 85 ∧ q % 7 = 6) then some [] else none)
    else
      match meshNext q c with
      | none => none
      | some q' => if there q' then (routeWalk table there dest n q').map ((q, c) :: ·) else none

/-- Repeatedly drop the links that wait for no other link of the set. -/
def dropFree (deps : List ((Nat × Nat) × (Nat × Nat))) : Nat → List (Nat × Nat) → List (Nat × Nat)
  | 0, ls => ls
  | n + 1, ls =>
    let kept := ls.filter (fun l => deps.any (fun d => d.1 == l && ls.contains d.2))
    if kept.length = ls.length then ls else dropFree deps n kept

/-- A table set of a die carries every packet from the quads and cuff ports in use to the quads in use and the exits, and no link
waits for itself: it is free of deadlock, since every class has its own virtual channel (R41, R42, R45). -/
def tablesOk (table : Nat → Nat → Nat) (there : Nat → Bool) (used : List Nat) : Bool :=
  let from_ := fun (d : Nat) => used ++ (if d < 84 then [d / 7 * 7, d / 7 * 7 + 6].filter there else [])
  let walks := (used ++ [84, 85]).flatMap (fun d => (from_ d).map (fun q => routeWalk table there d 84 q))
  let paths := walks.filterMap id
  let deps := (paths.flatMap (fun p => p.zip (p.drop 1))).eraseDups
  walks.all Option.isSome && (dropFree deps 336 ((deps.map (·.1)).eraseDups)).isEmpty

/-- The route tables of a placement; a die without ROUTE stitches and without a lost quad keeps the defaults. -/
def routesOk (fit : List Stitch) (there : Nat → Bool) : Bool :=
  (List.range 4).all (fun k =>
    let here := fun (q : Nat) => there (k * 84 + q)
    let used := ((fitQuads fit).filter (fun q => q / 84 == k)).map (· % 84)
    (!(fitRoutes fit).any (fun t => t.u8 8 == k) && (List.range 84).all here)
      || used.isEmpty || tablesOk (placedRoute fit k) here used)

/-! ### A placement -/

/-- Ranges and references of one placement stitch (R94). -/
def fitStitchOk (im : Image) (fit : List Stitch) (t : Stitch) : Bool :=
  t.u8 1 == 0 &&
    (match t.kind with
     | 2 => mittenRanges t && (im.op (t.u32 8)).isSome && im.naming (t.u32 8) == t.u32 8 && chainLegal im t && tilingOk im t
     | 3 => bufferRanges im fit t
     | 4 => decide (t.bytes.length = 104 ∧ t.u8 8 < 4 ∧ t.u8 9 < 84 ∧ t.id = t.u8 8 * 84 + t.u8 9 + 1)
         && fieldLe t.bytes 10 6 == 0 && t.u16 102 == 0 && (List.range 86).all (fun i => decide (t.u8 (16 + i) ≤ 5))
     | 5 => dmaRanges t
     | _ => false)

/-- A unit has a mitten, or one for each of several dies (R54). -/
def unitPlaced (im : Image) (fit : List Stitch) (op : Nat) : Bool :=
  let ks := (mittensOfOp (im.naming op) fit).map (·.u8 12)
  !ks.isEmpty && decide (ks.eraseDups.length = ks.length)

/-- A glove of a mitten belongs to another one, with a lower number (R54). -/
def gloveTaken (fit : List Stitch) (t : Stitch) : Bool :=
  let gl := mitGloves t
  (fitMittens fit).any (fun o => decide (o.id < t.id) && (mitGloves o).any (gl.contains ·))

/-- Another mitten of a secure mitten's quads is non-secure (R104). -/
def worldMixed (im : Image) (fit : List Stitch) (t : Stitch) : Bool :=
  let qs := mitQuads t
  im.secure 0 (t.u32 8) && (fitMittens fit).any (fun o => !im.secure 0 (o.u32 8) && (mitQuads o).any (qs.contains ·))

/-- The guards of a placement exceed their counts (R416, R420): 64 DDR guards, 16 lining guards of a stack. -/
def guardsOver (im : Image) (fit : List Stitch) : Bool :=
  decide (64 < (ddrGuardsOf im fit).length)
    || (List.range 4).any (fun k => decide (16 < ((linGuardsOf im fit).filter (fun g => g.stack == k)).length))

/-- An operator that a spot recompute names is spread over all four stacks (R104, rule 5). -/
def spotSpread (im : Image) (fit : List Stitch) : Bool :=
  (im.of 0x0A 1).any (fun t => t.u8 8 == 5 && decide (((mittensOfOp (im.naming (t.u32 12)) fit).map (·.u8 12)).eraseDups.length = 4))

/-- The first error of a placement, on the quads that `there` gives. -/
def fitError (im : Image) (there : Nat → Bool) (fit : List Stitch) : Option Refused :=
  firstOf [firstBad 0x07 (fitStitchOk im fit) fit, firstBad 0x07 (fun t => unitPlaced im fit t.id) (im.of 5 1),
    firstBad 0x07 (fun t => tensorPlaced im fit (gten t)) (im.of 4 1), firstBad 0x07 (fun t => !gloveTaken fit t) (fitMittens fit),
    whole 0x0B (!hostSpill im fit), whole 0x0B (scenesFit im fit), firstBad 0x07 (tierHolds im fit) (fitBuffers fit),
    firstBad 0x0E (fun t => !worldMixed im fit t) (fitMittens fit), whole 0x0E (!guardsOver im fit),
    whole 0x10 (!spotSpread im fit), firstBad 0x07 (fun _ => routesOk fit there) (fitRoutes fit)]

/-- A result that the device fitter's rules give (R104): no error, the chosen arrays, and the default tables on every die without
an unavailable quad. Its other choices are the operands' (assumption 93). -/
def fitByRules (im : Image) (there : Nat → Bool) (fit : List Stitch) : Bool :=
  (fitError im there fit).isNone && (fitMittens fit).all (chainChosen im)
    && (fitRoutes fit).all (fun t => !(List.range 84).all (fun q => there (t.u8 8 * 84 + q))) && routesOk fit there

/-! ### Alternates (R95) -/

/-- The alternates of an ALT section's stitches (R95): heads with the deltas that follow, as FIT stitches. -/
def altsOf (ts : List Stitch) : List Alternate :=
  (ts.foldr (fun t (a : List Alternate × List Stitch) =>
    if t.kind = 1 then (⟨t.u8 8, t.u16 10, a.2⟩ :: a.1, [])
    else (a.1, { t with sec := 0x10 } :: a.2)) ([], [])).1

/-- Ranges of an ALT_HEAD and of a REMOVE; the other deltas are FIT stitches. -/
def altStitchOk (t : Stitch) : Bool :=
  t.u8 1 == 0 &&
    (match t.kind with
     | 1 => decide (t.bytes.length = 16) && t.u8 9 == 0
         && (if t.u8 8 = 1 then decide (t.u16 10 < 336) else t.u8 8 == 2 && decide (t.u16 10 < 4))
     | 6 => decide (t.bytes.length = 16) && inSpan 2 5 (t.u8 8) && fieldLe t.bytes 9 3 == 0
     | k => inSpan 2 5 k)

/-- The deltas that follow a head are as many as DELTAS says. -/
def deltasCounted : List Stitch → Bool
  | [] => true
  | t :: r => (t.kind != 1 || t.u32 12 == (r.takeWhile (fun d => d.kind != 1)).length) && deltasCounted r

/-- The quads that stay when a part is lost: 1 a quad, 2 a stack. -/
def withoutPart (loss index q : Nat) : Bool := if loss = 1 then q != index else q / 84 != index

/-- An alternate is a placement on what is left, in which a mitten keeps its number (R95, R474). -/
def altFits (im : Image) (fit : List Stitch) (a : Alternate) : Bool :=
  let f := applyDeltas fit a.fit
  (fitError im (withoutPart a.loss a.index) f).isNone
    && (fitQuads f).all (withoutPart a.loss a.index) && (a.loss != 2 || !(fitStacks f).contains a.index)
    && (fitMittens f).all (fun t => (fitMittens fit).all (fun o => o.id != t.id || o.u32 8 == t.u32 8))

/-- The first error of an ALT section: its stitches, its counts and order, an alternate for every quad in use and for no other, for
every stack in use with STACK_ALTS, each one a placement. -/
def altError (im : Image) (alsoStacks : Bool) (fit ts : List Stitch) : Option Refused :=
  let heads := ts.filter (fun t => t.kind == 1)
  let alts := altsOf ts
  let of := fun (loss : Nat) => (alts.filter (fun a => a.loss == loss)).map (·.index)
  let same := fun (xs ys : List Nat) => decide (xs.length = ys.length) && xs.all (ys.contains ·) && ys.all (xs.contains ·)
  let head := heads.head?
  firstOf [firstBad 0x07 altStitchOk ts, if deltasCounted ts then none else some (0x07, head),
    if (heads.zip (heads.drop 1)).all (fun p => decide (p.1.id < p.2.id))
        && (ts.isEmpty || (ts.head?.map (·.kind)) == some 1) then none else some (0x07, head),
    if same (of 1) (fitQuads fit) && same (of 2) (if alsoStacks then fitStacks fit else []) then none else some (0x07, head),
    (heads.zip alts).findSome? (fun p => if altFits im fit p.2 then none else some (0x07, some p.1))]

end Sys2Proof.Machine
end

