-- ==== Sys2Proof/Machine/Patch.lean ====
section
/-!
DEFINITION. What a patch may carry and change (R114, R115, R149, R169, R189, R220, R257, R279, R296, R344), and the loaded image
with a patch in place.
-/

namespace Sys2Proof.Machine

/-- Sections whose stitches a patch may carry (R114). -/
def patchSections : List Nat := [0x01, 0x02, 0x03, 0x04, 0x05, 0x07, 0x08, 0x09, 0x0A, 0x0B, 0x0D]

/-- Offset of the EPI block in PARAM (R121), and of EPS (R141). -/
def epiOffset (op : Nat) : Option Nat :=
  match op with
  | 0x0100 | 0x0101 | 0x0110 | 0x0131 => some 0
  | 0x0130 => some 8
  | _ => none

/-- PARAM fields of an opcode that a patch may change, as offset and size: ALPHA and BETA, and EPS (R149); SCALE, MAX_PAGES,
LOOKAHEAD, DECAY and INIT_SCORE (R169); TINY, H and GATE (R189); CONFLICT_TH and CONF_MIN (R257). -/
def paramRanges (op : Nat) : List (Nat × Nat) :=
  match epiOffset op with
  | some e => [(e + 4, 8)]
  | none =>
    match op with
    | 0x0140 | 0x0141 | 0x0142 => [(0, 4)]
    | 0x0200 => [(8, 4)]
    | 0x0201 => [(8, 4), (34, 2)]
    | 0x0202 => [(1, 1), (20, 8)]
    | 0x0300 | 0x0301 | 0x0302 | 0x0320 | 0x0331 => [(8, 8)]
    | 0x0401 => [(12, 8)]
    | _ => []

/-- The FAIL_FATAL bit of an opcode (R189): its byte in PARAM and its value. -/
def failFatalBit (op : Nat) : Option (Nat × Nat) :=
  match op with
  | 0x0300 | 0x0301 | 0x0302 => some (2, 8)
  | 0x0320 => some (1, 4)
  | 0x0331 => some (2, 4)
  | _ => none

/-- Byte ranges that a patch may change in a stitch, as offset and size. -/
def patchRanges (t : Stitch) : List (Nat × Nat) :=
  match t.sec, t.kind with
  | 0x02, 1 => [(10, 2), (16, 4)]
  | 0x03, 1 => [(20, 4), (24, 4)]
  | 0x04, 1 => [(48, 48)]
  | 0x05, 1 => (paramRanges (t.u16 8)).map (fun r => (72 + r.1, r.2))
  | 0x07, 1 => [(10, 1), (20, 4), (24, 16), (40, 2)]
  | 0x07, 2 => [(20, 12)]
  | 0x07, 3 => [(12, 108)]
  | 0x07, 4 => [(14, 3), (20, 16)]
  | 0x07, 5 => [(12, 48)]
  | 0x08, 1 => [(12, 5), (20, 4)]
  | 0x08, 2 | 0x08, 3 => [(16, t.bytes.length)]
  | 0x09, 1 => [(32, 4), (36, 4), (40, 28)]
  | 0x09, 2 => [(16, t.bytes.length)]
  | 0x09, 3 => [(24, 32)]
  | 0x09, 4 => [(20, 16)]
  | 0x0A, 1 => [(10, 2), (20, 2), (24, 20)]
  | 0x0A, 2 => [(12, 12)]
  | 0x0A, 3 => [(8, 4)]
  | 0x0A, 4 => [(12, 2)]
  | 0x0B, 1 => [(8, 6)]
  | 0x0B, 2 => [(10, 2)]
  | 0x0D, 1 => [(8, t.bytes.length)]
  | _, _ => []

/-- A byte with a bit, and the bits a patch may change in it: SAFE_MODE of an OUTPUT stitch (R296), FAIL_FATAL (R189). -/
def patchBits (t : Stitch) : Option (Nat × Nat) :=
  match t.sec, t.kind with
  | 0x09, 4 => some (14, 6)
  | 0x05, 1 => (failFatalBit (t.u16 8)).map (fun b => (72 + b.1, b.2))
  | _, _ => none

/-- Two bytes agree outside the bits of a mask. -/
def agreeBits (mask a b : Nat) : Bool := (List.range 8).all (fun i => bit mask i || bit a i == bit b i)

/-- Two stitches agree outside what a patch may change in the first. -/
def patchAgrees (a b : Stitch) : Bool :=
  (List.range a.bytes.length).all (fun i =>
    (patchRanges a).any (fun r => decide (r.1 ≤ i ∧ i < r.1 + r.2))
      || (match patchBits a with
          | some m => m.1 == i && agreeBits m.2 (a.u8 i) (b.u8 i)
          | none => false)
      || a.u8 i == b.u8 i)

/-- LOOKAHEAD fits the windows that the placement reserved at load (R169). -/
def windowsFit (t : Stitch) (s : State) : Bool :=
  t.u16 8 != 0x0202 || s.scene.all (fun e => e.2.writer != t.id || decide (t.u8 73 ≤ e.2.reserved))

/-- A patch stitch replaces a stitch of the loaded pattern, of the same length, with a permitted change (R114). -/
def patchStitchOk (im : Image) (s : State) (t : Stitch) : Bool :=
  patchSections.contains t.sec &&
    (match im.find t.sec t.kind t.id with
     | none => false
     | some o =>
       o.bytes.length == t.bytes.length && patchAgrees o t && (t.sec != 4 || o.u8 10 == 1) && (t.sec != 5 || windowsFit t s))

/-- The IDENT of a patch describes the loaded pattern (R114): NAME and VERSION are informational, every count and T3_PORT equal. -/
def patchIdentOk (im p : Image) : Bool :=
  match (im.of 1 1).head?, (p.of 1 1).head? with
  | some a, some b => slice a.bytes 44 21 == slice b.bytes 44 21
  | _, _ => false

/-- The loaded image with a patch's stitches in place. -/
def applyPatch (im p : Image) : Image :=
  let ps := (portable p).filter (fun t => t.sec != 1)
  { im with
    generation := p.generation
    stitches := im.stitches.map (fun o =>
      (ps.find? (fun t => t.sec == o.sec && t.kind == o.kind && t.id == o.id)).getD o) }

/-- The patched values lie in their ranges, and the patched pattern in the limits that do not depend on placement; a change
that breaks the ring condition is one a patch may not make (R229, R257). -/
def patchedOk (im p : Image) (s : State) : Option Refused :=
  let new := applyPatch im p
  let ts := (portable p).filter (fun t => t.sec != 1)
  let grown := new.stitches.filter (fun t => ts.any (fun o => o.sec == t.sec && o.kind == t.kind && o.id == t.id))
  firstOf [checkStitches new grown, firstBad 0x14 (fun t => t.sec != 7 || (new.of 7 2).all (ringOk new)) ts,
    whole 0x0D (intakeOk new s), whole 0x0F (powerOk new)]

/-- The code of a patch's checks with the offending stitch. -/
def checkPatch (p : Image) (s : State) : Option Refused :=
  let im := curImage s
  let ts := (portable p).filter (fun t => t.sec != 1)
  if p.patternId ≠ im.patternId ∨ p.baseGen ≠ s.pat.gen ∨ p.generation ≤ s.pat.gen then some (0x13, none)
  else
    firstOf [firstBad 0x07 sigStitchOk (p.stitches.filter (fun t => t.sec == 0x1F)),
      firstBad 0x07 stitchOk (p.of 1 1), firstBad 0x07 (fun _ => patchIdentOk im p) (p.of 1 1),
      firstBad 0x14 (patchStitchOk im s) ts, patchedOk im p s]

/-! ### Secure objects (R115) -/

/-- The group of a FUSION stitch: GROUP itself, the GROUP of a MEMBER or TRACKS, the group of the member of a CAMERA or POSE. -/
def fusionGroupOf (im : Image) (t : Stitch) : Nat :=
  match t.kind with
  | 1 => t.id
  | 2 | 4 => t.u32 8
  | _ => ((im.find 7 2 (t.u32 8)).map (·.u32 8)).getD noneId

/-- WORLD OBJECT kind of a BUDGET kind (R92, R93). -/
def budgetWorld (kind : Nat) : Nat :=
  match kind with
  | 0 => 0
  | 1 => 2
  | 2 => 4
  | 3 => 6
  | _ => 5

/-- A stitch belongs to an object of the secure world (R115); a check to the operator and the tensor it judges. -/
def stitchSecure (im : Image) (t : Stitch) : Bool :=
  match t.sec, t.kind with
  | 2, _ => im.secure 2 t.id
  | 3, _ => im.secure 3 t.id
  | 7, _ => im.secure 4 (fusionGroupOf im t)
  | 8, _ => im.secure 6 0
  | 9, 1 => im.secure 5 t.id
  | 9, _ => im.secure 5 (t.u32 8)
  | 5, _ => im.secure 0 t.id
  | 4, _ => im.secure 1 t.id
  | 10, 1 => im.secure 0 (t.u32 12) || im.secure 1 (t.u32 16)
  | 10, 2 => im.secure 0 (t.u32 8)
  | 10, 4 => im.secure 2 (t.u32 8)
  | 11, 2 => im.secure (budgetWorld (t.u8 8)) (t.u32 12)
  | _, _ => false

end Sys2Proof.Machine
end

