-- ==== Sys2Proof/Machine/SeamOps.lean ====
section
/-!
DEFINITION. Shared operations of seams: seam groups, engines, pending values of RWS fields and their application,
the work items of a group's blocks (R108 to R113).
-/

namespace Sys2Proof.Machine

/-! ### Engines -/

/-- Change the PATTERN block. -/
def modPat (f : PatternState → PatternState) (s : State) : State := { s with pat := f s.pat }

/-- A seam engine. -/
def engine (e : Nat) (s : State) : SeamEngine :=
  if e = 0 then s.pat.e0 else if e = 1 then s.pat.e1 else if e = 2 then s.pat.e2 else s.pat.e3

/-- Change a seam engine. -/
def modEngine (e : Nat) (f : SeamEngine → SeamEngine) (s : State) : State :=
  if e = 0 then modPat (fun p => { p with e0 := f p.e0 }) s
  else if e = 1 then modPat (fun p => { p with e1 := f p.e1 }) s
  else if e = 2 then modPat (fun p => { p with e2 := f p.e2 }) s
  else modPat (fun p => { p with e3 := f p.e3 }) s

/-- The whole microsecond that the timebase reaches in the present cycle, at which a global seam switches (R112, assumption
97): a cycle of 600 MHz counts at most 2 ns, a reference tick 40 ns. -/
def wholeMicro (s : State) : Option Nat :=
  let d := liveDie 0 s
  let past := stamp d s % 1000
  if past < (if fineClock d s then 2 else 40) then some (stamp d s - past) else none

/-! ### Groups (R108) -/

/-- Group numbers that are not reserved. -/
def groupKnown (g : Nat) : Bool :=
  decide (g < 4) || decide (g = 0x010) || (decide (0x020 ≤ g) && decide (g ≤ 0x02F)) || (decide (0x040 ≤ g) && decide (g ≤ 0x04F))
    || decide (g = 0x050) || decide (g = 0x060) || (decide (0x080 ≤ g) && decide (g ≤ 0x0AF))
    || (decide (0x100 ≤ g) && decide (g ≤ 0x1FF)) || (decide (0x400 ≤ g) && decide (g ≤ 0x93F))

/-- Groups with a global seam only. -/
def groupGlobal (g : Nat) : Bool := decide (g < 4) || decide (g = 0x010) || decide (g = 0x050) || decide (g = 0x060)

/-- A group has a pending value. -/
def hasPending (g : Nat) (s : State) : Bool := s.pat.shadow.any (fun e => decide (e.1 / 8 = g))

/-- Drop the pending values of a group. -/
def dropPending (g : Nat) (s : State) : State :=
  modPat (fun p => { p with shadow := p.shadow.filter (fun e => decide (e.1 / 8 ≠ g)) }) s

/-- A group is listed by an ARMED or TAKING engine that `p` selects. -/
def groupArmed (p : Nat → Bool) (g : Nat) (s : State) : Bool :=
  (List.range 4).any (fun e => p e && engBusy (engine e s) && (engine e s).groups.contains g)

/-- A group is touched by an armed patch. -/
def groupPatched (g : Nat) (s : State) : Bool :=
  match s.pat.job with
  | none => false
  | some j => j.patch && decide (3 ≤ j.stage) && j.groups.contains g

/-! ### Pending values (R109) -/

/-- Change a sensor stream or group, the planner, a loop slot: the switch of one field of a group. -/
def applyField (key v : Nat) (s : State) : State :=
  let g := key / 8
  let f := key % 8
  if g = 0x010 then { s with crown := { s.crown with parkUs := v } }
  else if 0x020 ≤ g ∧ g ≤ 0x02F then modLoop (g - 0x020) (fun x => { x with spStaleUs := v * 1000 }) s
  else if 0x040 ≤ g ∧ g ≤ 0x04F then
    { s with sense := { s.sense with groups := tmod {} (g - 0x040) (fun x =>
        if f = 0 then { x with slots := v } else { x with waitUs := v }) s.sense.groups } }
  else if g = 0x050 then
    let c := s.plan.cfg
    let c1 : PlanCfg := if f = 0 then { c with outside := v } else if f = 1 then { c with cost := v == 1 }
      else if f = 2 then { c with recheck := v == 1 } else if f = 3 then { c with search := v }
      else if f = 4 then { c with chain := v } else c
    { s with plan := { s.plan with cfg := c1, budgetUs := if f = 5 then v else s.plan.budgetUs } }
  else if 0x080 ≤ g ∧ g ≤ 0x0AF then
    { s with sense := { s.sense with streams := tmod {} (g - 0x080) (fun x => { x with offsetNs := v }) s.sense.streams } }
  else if 0x100 ≤ g ∧ g ≤ 0x1FF then modStrm (g - 0x100) (fun x => { x with limit := v }) s
  else s

/-- A group switches to its pending values. -/
def switchGroup (g : Nat) (s : State) : State :=
  let ps := s.pat.shadow.filter (fun e => decide (e.1 / 8 = g))
  dropPending g (ps.foldl (fun a e =>
    match e.2 with
    | none => a
    | some v => applyField e.1 v a) s)

/-! ### Work items -/

/-- A block of the group has a work item in progress (R108): a firing, a check request, a checked frame. The verdict of a
ticket and the evaluation of a slot are single steps of this model; sensor and fusion groups never hold (R112). -/
def groupWorks (g : Nat) (s : State) : Bool :=
  if 0x400 ≤ g then (mitten (leadOf (g - 0x400) s) s).firing.isSome
  else if g = 0x050 then s.plan.reqs.any (fun r => r.cfg.isSome && r.result.isNone)
  else if g = 0x060 then s.isl.checks.any (fun c => !c.2.frames.isEmpty)
  else if g < 4 then s.fab.draining.any (fun d => d.1 == g)
  else false

/-- Abandon the work items of a group at SEAM_LIMIT (R112): the void carries `detail`; the count of items abandoned. A drain
is not subject to withdrawal. -/
def withdrawGroup (g detail : Nat) (s : State) : State × Nat :=
  if 0x400 ≤ g then
    let m := leadOf (g - 0x400) s
    if (mitten m s).firing.isSome then (voidFiring true m 3 0xFF 0xFFFF detail s, 1) else (s, 0)
  else if g = 0x050 then
    let run := s.plan.reqs.filter (fun r => r.cfg.isSome && r.result.isNone)
    let s1 := { s with plan := { s.plan with reqs := s.plan.reqs.filter (fun r => !(r.cfg.isSome && r.result.isNone)) } }
    (voidTags (run.flatMap (·.tags)) 3 0xFF 0xFFFF detail (run.foldl (fun a r => releaseToken r.edge a) s1), run.length)
  else if g = 0x060 then
    let run := s.isl.checks.flatMap (fun c => c.2.frames.map (fun f => (c.1, f)))
    (voidTags (run.flatMap (·.2.tags)) 3 0xFF 0xFFFF detail (run.foldl (fun a f => freeFrame f.1 f.2 a) s), run.length)
  else (s, 0)

/-- Abandon the work items of several groups. -/
def withdrawGroups (detail : Nat) : List Nat → State → State × Nat
  | [], s => (s, 0)
  | g :: r, s =>
    let a := withdrawGroup g detail s
    let b := withdrawGroups detail r a.1
    (b.1, a.2 + b.2)

/-- The route tables that a die keeps: it drains for a route-table seam without new tables (R42). -/
def drainDie (k : Nat) (s : State) : State :=
  if s.fab.draining.any (fun d => d.1 == k) then s
  else { s with fab := { s.fab with draining := s.fab.draining ++ [(k, routesOfDie k (routesOf s.pat.fit))] } }

/-- A global seam is TAKING: an engine, a patch or a withdrawal. -/
def anyTaking (s : State) : Bool :=
  (engines s).any (fun e => e.st == 2) || s.pat.testSeam.isSome
    || (match s.pat.job with
        | none => false
        | some j => decide (j.stage = 4))

/-- The withdrawal limit in force: 10 to 100,000 µs. -/
def clampLimit (us : Nat) : Nat := max 10 (min 100000 us)

end Sys2Proof.Machine
end

