-- ==== Sys2Proof/Machine/Load.lean ====
section
/-!
DEFINITION. Full loads and patches up to LOADED: the judgement of GO, verification, fitting, installation
(R97 to R105, R114 to R117, R473, R475), and the pattern store's read (R439).
-/

namespace Sys2Proof.Machine

open Host (Outcome)

/-! ### GO (R99, R115, R473) -/

/-- An authorization in force names a pattern and a generation (R99, R342). -/
def authNames (id gen : Nat) (s : State) : Bool :=
  match s.pat.auth with
  | none => false
  | some a => a.1 == id && a.2.1 == gen && decide (s.time.now < a.2.2)

/-- An authorization ends when the load or patch it names reaches LOADED or FAILED (R342). -/
def dropAuth (id gen : Nat) (s : State) : State :=
  match s.pat.auth with
  | none => s
  | some a => if a.1 = id ∧ a.2.1 = gen then modPat (fun p => { p with auth := none }) s else s

/-- A pattern assigns an object to the secure world. -/
def hasSecure (im : Image) : Bool := (im.of 0x0C 1).any (fun t => t.u8 9 == 1)

/-- An entry of the pattern store, as the first island that runs reads it. -/
def storeEntry (n : Nat) (s : State) : StoreSlot := tget {} n (flash (if islandRuns 0 s then 0 else 1) s).store

/-- A ticket lacks its outcome. -/
def outcomeOwed (s : State) : Bool := s.led.tickets.any (fun k => k.phase != .delivered)

/-- The BUSY conditions of a full load (R99); one that runs already is one more (assumption 12). -/
def fullBusy (s : State) : Bool :=
  !(s.power.st == .boot || s.power.st == .standby || s.power.st == .degraded) || outcomeOwed s || (engines s).any engBusy
    || s.pat.job.isSome || s.pat.dieLost

/-- The BUSY conditions of a patch (R115, R357). -/
def patchBusy (s : State) : Bool := s.pat.job.isSome || s.pat.dieLost

/-- The image a GO names, as it stands in device memory or in the store. -/
def goImage (v : Nat) (s : State) : List Byte :=
  if bit v 3 then (storeEntry (bits v 7 4) s).raw else devRd s.pat.addr s.pat.len s

/-- The code of a GO, 0 when it is accepted (R473), from the value written to PATTERN_LOAD_CTRL. -/
def goCode (v : Nat) (s : State) : Nat :=
  let mode := bits v 2 1
  if 2 ≤ mode then 0x01
  else if !bit v 3 ∧ (s.pat.len = 0 ∨ 0x01000000 < s.pat.len ∨ s.pat.len % 8 ≠ 0 ∨ s.pat.addr % 8 ≠ 0) then 0x01
  else if bit v 3 ∧ !(storeEntry (bits v 7 4) s).valid then 0x01
  else if mode = 1 ∧ s.pat.image.isNone then 0x13
  else if (mode = 0 ∧ fullBusy s) ∨ (mode = 1 ∧ patchBusy s) then 0x11
  else if mode = 0 ∧ hasSecure (curImage s) ∧ !authNames (fieldLe (goImage v s) 16 8) (fieldLe (goImage v s) 24 4) s then 0x12
  else if mode = 1 ∧ s.pat.loadStamp < stamp (liveDie 0 s) s + 50000000 then 0x16
  else 0

/-- The loader is busy: a load, a patch or a re-fit. -/
def loaderBusy (s : State) : Bool := s.pat.job.isSome || s.pat.refitAt.isSome

/-- PATTERN_STATUS.CFG_BUSY is set. -/
def patCfgBusy (s : State) : State := modPat (fun q => { q with cfgBusy := true }) s

/-- The RW fields of a PATTERN_LOAD_CTRL write (R11, R12). -/
def loadCtrlFields (v : Nat) (s : State) : State :=
  rwWrite (!loaderBusy s) 0x0004000C patCfgBusy
    (modPat (fun q => { q with mode := bits v 2 1, src := bit v 3, flashEntry := bits v 7 4
                               forcePortable := bit v 8, stackAltsReq := bit v 9 })) s

/-- Start a job: a full load stops the ledger. An image in device memory is read at GO (assumption 13); one in the store
comes with PATTERN_STORE_READ. -/
def startJob (v : Nat) (boot : Bool) (s : State) : State :=
  let patch := decide (bits v 2 1 = 1)
  let job : LoadJob := {
    patch := patch, goAt := s.time.now
    raw := if bit v 3 then [] else devRd s.pat.addr s.pat.len s
    loadStamp := s.pat.loadStamp, forcePortable := bit v 8, stackAlts := bit v 9, boot := boot }
  let s1 := modPat (fun p => { p with job := some job, st := .verifying }) s
  if patch then s1 else { s1 with led := { s1.led with stopLoad := true } }

/-- A GO: refused with a code, or a job starts. -/
def goWrite (v : Nat) (s : State) : State :=
  let c := goCode v s
  let s1 := loadCtrlFields v s
  if c ≠ 0 then modPat (fun p => { p with code := c }) s1 else startJob v false s1

/-- LOAD_FULL_GO (R99, R473): a write with GO = 1 and MODE full, or a reserved MODE. -/
def loadFullGo (v : Nat) (s : State) : State := if bit v 0 ∧ bits v 2 1 ≠ 1 ∧ !offBlocked 0x0004000C s then goWrite v s else s

def execLoadFullGo (t value : Nat) (s : State) : Outcome State Fault Refusal := .next (loadFullGo value (advanceTo t s))

/-- PATCH_GO (R114, R473): a write with GO = 1 and MODE patch. -/
def patchGo (v : Nat) (s : State) : State := if bit v 0 ∧ bits v 2 1 = 1 ∧ !offBlocked 0x0004000C s then goWrite v s else s

def execPatchGo (t value : Nat) (s : State) : Outcome State Fault Refusal := .next (patchGo value (advanceTo t s))

/-- PATTERN_STORE_READ (R439): the image of the store has been read. -/
def storeRead (s : State) : State :=
  match s.pat.job with
  | none => s
  | some j =>
    if j.stage ≠ 0 ∨ !j.raw.isEmpty then s
    else
      let raw := (storeEntry (if j.boot then s.sec.bootEntry else s.pat.flashEntry) s).raw
      modPat (fun p => { p with job := some { j with raw := raw } }) s

def execPatternStoreRead (t : Nat) (s : State) : Outcome State Fault Refusal := .next (storeRead (advanceTo t s))

/-! ### The end of a job -/

/-- A job ends FAILED (R100, R116): the code, the offending stitch of the codes that name one, and the ledger accepts
again; in the boot chain R440 decides. -/
def failJob (code : Nat) (bad : Option Stitch) (s : State) : State :=
  match s.pat.job with
  | none => s
  | some j =>
    let s1 := dropAuth (fieldLe j.raw 16 8) (fieldLe j.raw 24 4) s
    let s2 := modPat (fun p => { p with job := none, st := .failed, code := code }) s1
    let s3 := match bad with
      | none => s2
      | some t => modPat (fun p => { p with detailSec := t.sec, detailKind := t.kind, detailId := t.id }) s2
    let s4 := settle (if j.patch then s3 else { s3 with led := { s3.led with stopLoad := false } })
    if !j.boot then s4 else if partnerPos s4 then stopStart 0x08 s4 else bootDone s4

/-- LOAD_VERIFY_DONE (R97, R100). -/
def verifyDone (s : State) : State :=
  match s.pat.job with
  | none => s
  | some j =>
    if j.stage ≠ 0 ∨ j.raw.isEmpty ∨ (!islandRuns 0 s ∧ !islandRuns 1 s) then s
    else
      let c := verifyCode j.raw j.patch s
      if c ≠ 0 then failJob c none s
      else modPat (fun p => { p with
        job := some { j with stage := 1, image := parseImage j.raw }, st := if j.patch then .verifying else .fitting }) s

def execLoadVerifyDone (t : Nat) (s : State) : Outcome State Fault Refusal := .next (verifyDone (advanceTo t s))

/-! ### Fitting (R94, R95, R101, R103) -/

/-- A placement as a fitting decides it. -/
structure Placement where
  fit : List Stitch
  primary : List Stitch
  alts : List Alternate
  /-- 1 fitted layer, 2 device fitter -/
  source : Nat
  altKind : Nat := 0
  altIndex : Nat := 0

/-- How a fitting ends; `odd` is no result a fitter gives. -/
inductive Fitting where
  | placed (p : Placement)
  | refused (code : Nat) (bad : Option Stitch)
  | odd

/-- The FIT_HEAD of an image. -/
def fitHead (im : Image) : Option Stitch := (im.of 0x10 1).head?

/-- The bytes of all LAYER-0 sections in table order (R94). -/
def portableBytes (raw : List Byte) (im : Image) : List Byte :=
  (im.secs.filter (fun e => e.2.1 == 0)).flatMap (fun e => slice raw e.2.2.1 e.2.2.2.1)

/-- R101 apart from the masks. -/
def fitMeant (raw : List Byte) (im : Image) (force : Bool) (h : Stitch) (s : State) : Bool :=
  !force && decide (im.targetMember % 4096 = Config.member ∧ h.u16 40 % 4096 = Config.member)
    && bit im.steppingMask s.power.stepping && slice h.bytes 8 32 == Config.sha3 (portableBytes raw im)

/-- Quads and stacks assumed available that are not (R101). -/
def lostQuads (h : Stitch) (s : State) : List Nat :=
  (List.range 336).filter (fun q => bit (fieldLe h.bytes 48 42) q && !quadAvail q s)
def lostStacks (h : Stitch) (s : State) : List Nat := (List.range 4).filter (fun k => bit (h.u8 90) k && !stackAvail k s)

/-- The alternate for a loss (1 quad, 2 stack). -/
def altFor (alts : List Alternate) (loss index : Nat) : Option Alternate :=
  alts.find? (fun a => a.loss == loss && a.index == index)

/-- The FIT section holds exactly one FIT_HEAD, with ID 1, the count of its mittens and the header's STEPPING_MASK (R94). -/
def headOk (im : Image) (fit : List Stitch) (h : Stitch) : Bool :=
  (im.of 0x10 1).length == 1 && h.id == 1 && decide (h.bytes.length = 96) && h.u8 1 == 0 && h.u8 42 == im.steppingMask && h.u8 43 == 0
    && fieldLe h.bytes 91 5 == 0 && h.u32 44 == (fitMittens fit).length

/-- The first error of a fitted layer: its head, its placement, its alternates (R101). -/
def fittedError (im : Image) (h : Stitch) (fit f : List Stitch) (s : State) : Option Refused :=
  firstOf [firstBad 0x07 (headOk im fit) [h], fitError im (fun q => quadAvail q s) f,
    if im.has 0x11 then altError im im.stackAlts fit (im.stitches.filter (fun t => t.sec == 0x11)) else none]

/-- The placement of an admitted fitted layer; none when the device fitter must place the portable layer (R101). -/
def fittedPlacement (j : LoadJob) (s : State) : Option Fitting :=
  match fitHead j.image with
  | none => none
  | some h =>
    if !j.image.fitted ∨ !fitMeant j.raw j.image j.forcePortable h s then none
    else
      let fit := j.image.stitches.filter (fun t => t.sec == 0x10 && t.kind != 1)
      let alts := altsOf (j.image.stitches.filter (fun t => t.sec == 0x11))
      let decided := fun (k i : Nat) (f : List Stitch) =>
        match fittedError j.image h fit f s with
        | some e => Fitting.refused e.1 e.2
        | none => Fitting.placed { fit := f, primary := fit, alts := alts, source := 1, altKind := k, altIndex := i }
      let viaAlt := fun (k i : Nat) =>
        match altFor alts k i with
        | none => none
        | some a => let f := applyDeltas fit a.fit; if fitAvailable f s then some (decided k i f) else none
      match lostQuads h s, lostStacks h s with
      | [], [] => some (decided 0 0 fit)
      | [q], [] => viaAlt 1 q
      | [], [k] => viaAlt 2 k
      | _, _ => none

/-- The result of one fitter: its code, and the stitches of the FIT section it made. -/
def fitterStitches (bs : List Byte) : List Stitch := (parseStitches 0x10 (bs.length / 8 + 1) bs).filter (fun t => t.kind != 1)

/-- Both fitters' results compared (R103): the code, or the placement. -/
def fitterResult (im : Image) (c0 : Nat) (f0 : List Byte) (c1 : Nat) (f1 : List Byte) (s : State) : Fitting :=
  let both := dieUp 0 s && dieUp 1 s
  let c := if dieUp 0 s then c0 else c1
  let fit := fitterStitches (if dieUp 0 s then f0 else f1)
  if both ∧ (c0 ≠ c1 ∨ f0 ≠ f1) then .refused 0x18 none
  else if c ≠ 0 then .refused c none
  else if !fitByRules im (fun q => quadAvail q s) fit ∨ !fitAvailable fit s then .odd
  else .placed { fit := fit, primary := fit, alts := [], source := 2 }

/-- The fitter-disagreement source of both collectors (R103). -/
def fitterSource (c : Nat) (s : State) : State := if c = 0x18 then latchBoth 0x19D 0 s else s

/-- LOAD_FIT_DONE (R100, R101, R103): the checks of stitches and graph, then the fitted layer or the device fitters'
results. -/
def fitDone (c0 : Nat) (f0 : List Byte) (c1 : Nat) (f1 : List Byte) (s : State) : State :=
  match s.pat.job with
  | none => s
  | some j =>
    if j.stage ≠ 1 ∨ j.patch then s
    else
      match checkImage j.image s with
      | some e => failJob e.1 e.2 s
      | none =>
        match (fittedPlacement j s).getD (fitterResult j.image c0 f0 c1 f1 s) with
        | .odd => s
        | .refused c b => failJob c b (fitterSource c s)
        | .placed p => modPat (fun x => { x with
            st := .loading
            job := some { j with stage := 2, fit := p.fit, primary := p.primary, alts := p.alts, source := p.source
                                 altKind := p.altKind, altIndex := p.altIndex } }) s

def execLoadFitDone (t code0 : Nat) (fit0 : List Byte) (code1 : Nat) (fit1 : List Byte) (s : State) : Outcome State Fault Refusal :=
  .next (fitDone code0 fit0 code1 fit1 (advanceTo t s))

/-! ### LOADED (R100, R113, R117) -/

/-- The image-scope digest of an image (R96). -/
def imageDigest (im : Image) : List Byte := ((sigOf im 0).map (fun t => slice t.bytes 16 32)).getD []

/-- The PATTERN block once a full load is done: pending values and engine settings are discarded. -/
def patLoaded (j : LoadJob) (now : Nat) (p : PatternState) : PatternState :=
  { p with
    job := none, st := .loaded, code := 0, source := j.source
    stackAlts := j.alts.any (fun a => a.loss == 2) || (j.source == 2 && (j.stackAlts || j.image.stackAlts))
    patternId := j.image.patternId, gen := j.image.generation, altKind := j.altKind, altIndex := j.altIndex, switches := 0
    altReady := j.source == 1, fitUs := satU 32 ((now - j.goAt) / 1000), fit := j.fit, primary := j.primary, alts := j.alts
    e0 := {}, e1 := {}, e2 := {}, e3 := {}, shadow := [], testSeam := none, testAlt := false, refitAt := none }

/-- LOAD_COMPLETE (R98, R100): contents checked and copied, the old pattern torn down, the new one installed. -/
def loadComplete (s : State) : State :=
  match s.pat.job with
  | none => s
  | some j =>
    if j.stage ≠ 2 ∨ j.patch then s
    else
      match contentError j.raw j.image s with
      | some e => failJob e.1 e.2 s
      | none =>
        let ms := mastersOf j.raw j.image s
        let s1 := modPat (fun p => { p with image := some j.image, masters := ms }) s
        let s2 := installBlocks j.image j.fit s1
        let s3 := modPat (patLoaded j s.time.now) s2
        let s4 := dropAuth j.image.patternId j.image.generation { s3 with
          sec := { s3.sec with patDigest := imageDigest j.image, patchDigest := [] }
          led := { s3.led with stopLoad := false } }
        if j.boot then bootDone s4 else settle s4

def execLoadComplete (t : Nat) (s : State) : Outcome State Fault Refusal := .next (loadComplete (advanceTo t s))

/-! ### Patches (R114 to R116, R475) -/

/-- An operator reads a constant: as an operand, or as the scales of one (R145). -/
def readsConst (im : Image) (o : GOp) (id : Nat) : Bool :=
  o.ins.any (fun t => t == id || ((im.tensor t).map (fun x => x.scaleT == id)).getD false)

/-- Seam groups whose blocks a stitch of a patch touches. -/
def stitchGroups (im : Image) (t : Stitch) (s : State) : List Nat :=
  let slot := fun (id : Nat) => ((im.find 9 1 id).map (fun k => 0x020 + k.u8 8)).toList
  let grp := fun (id : Nat) => ((im.find 7 1 id).map (fun k => 0x040 + k.u8 8)).toList
  let mit := fun (op : Nat) => ((mittenOf op s).map (0x400 + ·)).toList
  match t.sec, t.kind with
  | 2, _ => [0x100 + t.u8 8]
  | 3, _ => [0x080 + t.u8 8]
  | 7, _ => grp (fusionGroupOf im t)
  | 8, _ => [0x050]
  | 9, 1 => slot t.id
  | 9, _ => slot (t.u32 8)
  | 10, _ => [0x060]
  | 11, _ => [0x010]
  | 5, _ => mit t.id
  | 4, _ => (im.ops.filter (fun o => readsConst im o t.id)).flatMap (fun o => mit o.id)
  | _, _ => []

/-- The seam groups a patch touches. -/
def patchGroups (p : Image) (s : State) : List Nat :=
  ((portable p).flatMap (fun t => stitchGroups (curImage s) t s)).eraseDups

/-- The code of a patch's checks with the offending stitch (R114 to R116), in the order the model takes them
(assumption 14). -/
def patchError (j : LoadJob) (s : State) : Option (Nat × Option Stitch) :=
  let p := j.image
  let im := curImage s
  match checkPatch p s with
  | some e => some e
  | none =>
    if (portable p).any (stitchSecure im) ∧ !authNames p.patternId p.generation s then some (0x12, none)
    else
      match contentError j.raw p s with
      | some e => some e
      | none =>
        let gs := patchGroups p s
        if gs.any (fun g => hasPending g s || groupArmed (fun _ => true) g s) then some (0x15, none)
        else if j.loadStamp ≤ stamp (liveDie 0 s) s then some (0x16, none)
        else none

/-- PATCH_STAGED (R116): the checks end; the patch is armed or FAILED. -/
def patchStaged (s : State) : State :=
  match s.pat.job with
  | none => s
  | some j =>
    if j.stage ≠ 1 ∨ !j.patch then s
    else
      match patchError j s with
      | some e => failJob e.1 e.2 s
      | none => modPat (fun p => { p with
          st := .patchArmed, job := some { j with stage := 3, groups := patchGroups j.image s } }) s

def execPatchStaged (t : Nat) (s : State) : Outcome State Fault Refusal := .next (patchStaged (advanceTo t s))

/-- PATCH_SEAM (R116, R475): LOAD_STAMP is reached; the blocks of the touched groups start no new work item. The rest of
the seam runs as an engine's, under the number 4. -/
def patchSeam (s : State) : State :=
  match s.pat.job with
  | none => s
  | some j =>
    if j.stage ≠ 3 ∨ stamp (liveDie 0 s) s < j.loadStamp then s
    else modPat (fun p => { p with job := some { j with stage := 4, takingAt := s.time.now }, withdrawn := 0 }) s

def execPatchSeam (t : Nat) (s : State) : Outcome State Fault Refusal := .next (patchSeam (advanceTo t s))

/-! ### What a patch's seam changes -/

/-- Streams: CREDIT_LIMIT and BUDGET_US (R220). -/
def patchStream (p : Image) (s : State) : State :=
  (p.of 2 1).foldl (fun a t => modStrm (t.u8 8) (fun x => { x with limit := t.u16 10, budgetUs := t.u32 16 }) a) s

/-- The fields of a GROUP, MEMBER or TRACKS stitch (R257). -/
def patchGroup (t : Stitch) (x : FuseGroup) : FuseGroup :=
  match t.kind with
  | 1 => { x with
      slots := t.u8 10, waitUs := t.u32 20, penMiss := t.u32 24, penConflict := t.u32 28, recover := t.u32 32
      confMin := t.u32 36, conflictK := t.u8 40, conflictN := t.u8 41 }
  | 2 => { x with members := x.members.map (fun m =>
      if m.index = t.u8 16 then { m with before := t.u32 20, after := t.u32 24, weight := t.u32 28 } else m) }
  | 4 => { x with
      confirmM := t.u8 14, confirmN := t.u8 15, missMax := t.u8 16, qAcc := t.u32 20, assocGate := t.u32 24
      conflictGate := t.u32 28, initVstd := t.u32 32 }
  | _ => x

/-- Sensors and groups; CAMERA and POSE are read from the pattern in force. -/
def patchSense (im p : Image) (s : State) : State :=
  let st := (p.of 3 1).foldl (fun (a : Tbl SensStream) t =>
    tmod {} (t.u8 8) (fun x => { x with offsetNs := t.u32 20, periodUs := t.u32 24 }) a) s.sense.streams
  let gr := ((portable p).filter (fun t => t.sec == 7)).foldl (fun (a : Tbl FuseGroup) t =>
    match im.find 7 1 (fusionGroupOf im t) with
    | none => a
    | some g => tmod {} (g.u8 8) (patchGroup t) a) s.sense.groups
  { s with sense := { s.sense with streams := st, groups := gr } }

/-- The planner's parameters (R279). -/
def patchPlan (p : Image) (s : State) : State :=
  match (p.of 8 1).head? with
  | none => s
  | some t => { s with plan := { s.plan with
      cfg := { outside := t.u8 12, cost := t.u8 13 == 1, search := t.u8 14, chain := t.u8 15, recheck := t.u8 16 == 1 }
      budgetUs := t.u32 20 } }

/-- The fields of one LOOP stitch in its slot, the slot's states kept (R296). -/
def patchSlot (t : Stitch) (x : LoopSlot) : LoopSlot :=
  match t.kind with
  | 1 => { x with
      spStaleUs := t.u32 32, resK := t.u8 36, resN := t.u8 37, fbLossN := t.u16 38, kp := t.u32 40, ki := t.u32 44, kd := t.u32 48
      tfY := t.u32 52, tdF := t.u32 56, bW := t.u32 60, cW := t.u32 64 }
  | 2 => { x with mats := tset [] (t.u8 12) (matFrom t) x.mats }
  | 3 =>
    let n := chanFrom t
    { x with chans := x.chans.modify (t.u8 12) (fun c => { c with
        scale := n.scale, bias := n.bias, maxAgeUs := n.maxAgeUs, vmax := n.vmax, amax := n.amax, jmax := n.jmax
        profTc := n.profTc, resBound := n.resBound }) }
  | 4 =>
    let n := outFrom t
    { x with outs := x.outs.modify (t.u8 12) (fun o => { o with
        safeMode := n.safeMode, umin := n.umin, umax := n.umax, urate := n.urate, safeValue := n.safeValue }) }
  | _ => x

/-- Loop slots. -/
def patchLoops (im p : Image) (s : State) : State :=
  ((portable p).filter (fun t => t.sec == 9)).foldl (fun a t =>
    match im.find 9 1 (if t.kind = 1 then t.id else t.u32 8) with
    | none => a
    | some k => modLoop (k.u8 8) (patchSlot t) a) s

/-- A check's patched fields: a change to K or N clears the window (R344). -/
def patchCheck (n x : Check) : Check :=
  let y := { x with k := n.k, n := n.n, samples := n.samples, verdictUs := n.verdictUs, p := n.p }
  if n.k = x.k ∧ n.n = x.n then y else { y with window := [], raised := false }

/-- Checks, reserved windows, the MRT and the watches. -/
def patchChecks (im p : Image) (s : State) : State :=
  let cs := (numbered ((im.of 10 1).map (checkFrom im))).filter (fun e => (p.find 10 1 e.2.id).isSome)
  let ck := cs.foldl (fun (a : Tbl Check) e => tmod {} e.1 (patchCheck e.2) a) s.isl.checks
  let w := (p.of 10 4).foldl (fun (a : Tbl Watch) t =>
    match im.find 2 1 (t.u32 8) with
    | none => a
    | some k => tmod {} (k.u8 8) (fun x => { x with k := t.u8 12, n := t.u8 13, win := x.win.take (t.u8 13) }) a) s.isl.watch
  { s with isl := { s.isl with
      checks := ck, watch := w, reserves := reservesOf im, mrtMaxAgeUs := ((im.of 10 3).head?).map (·.u32 8) } }

/-- Parameters of the scene memories that a patch changes take effect at the next append firing (R168, R169). -/
def patchScenes (p : Image) (s : State) : State :=
  let f := fun (_ : Nat) (x : SceneMem) =>
    match p.op x.writer with
    | none => x
    | some o => { x with nextPar := some (o.p8 1, o.p32 20, o.p32 24) }
  { s with scene := tmapAll {} f s.scene }

/-- The envelope, when the patch carries it (R92). -/
def patchEnvelope (p : Image) (s : State) : State := if (p.of 0x0B 1).isEmpty then s else installEnvelope p s

/-- Mittens that consume a changed constant in lining or palms wait for its refill (R116). -/
def patchRefills (p : Image) (s : State) : State :=
  let ids := (p.tensors.filter (fun x => x.len != 0)).map (·.id)
  let held := ids.filter (fun t =>
    match bufferOf t s.pat.fit with
    | none => false
    | some b => decide (b.u8 8 < 2))
  let hit := fun (m : Nat) => (unitOf m s).any (fun o => held.any (readsConst (curImage s) o))
  mapMittens (fun m x => { x with waitConst := x.waitConst || hit m }) s

/-- The switch of a patch: every touched group takes the values of the stitches it carries, and no other group changes;
PATTERN_GEN becomes GENERATION (R116). -/
def patchSwitch (j : LoadJob) (s : State) : State :=
  let im := applyPatch (curImage s) j.image
  let new := mastersOf j.raw j.image s
  let ms := s.pat.masters.filter (fun e => !new.any (fun n => n.1 == e.1)) ++ new
  let s1 := modPat (fun p => { p with image := some im, masters := ms }) s
  let q := j.image
  let s2 := patchEnvelope q (patchScenes q (patchChecks im q (patchLoops im q (patchPlan q (patchSense im q (patchStream q s1))))))
  let s3 := patchRefills j.image s2
  dropAuth j.image.patternId j.image.generation
    { modPat (fun p => { p with job := none, st := .loaded, code := 0, gen := j.image.generation, seamEnd := s.time.now }) s3 with
      sec := { s3.sec with patchDigest := imageDigest j.image } }

/-! ### Constants (R102) -/

/-- CONSTANT_REFILL_DONE (R102): the mitten's constants are in place. -/
def refillDone (m : Nat) (s : State) : State :=
  match s.power.st with
  | .standby | .active | .degraded | .boot => modMitten m (fun x => { x with waitConst := false }) s
  | _ => s

def execConstantRefillDone (t mitten : Nat) (s : State) : Outcome State Fault Refusal := .next (refillDone mitten (advanceTo t s))

/-! ### Return from RETAIN (R102, R391) -/

/-- The placement is reinstalled: edges hold their initial tokens, and state tensors that lay in palms or lining their
initial contents (assumption 15). -/
def reinstall (s : State) : State :=
  let im := curImage s
  let kept := s.fab.tensors.filter (fun e =>
    match bufferOf e.1 s.pat.fit with
    | none => false
    | some b => decide (2 ≤ b.u8 8))
  let es := tputs {} ((tokenEdges im).map (fun (e : GEdge) => (e.id, initEdge e s)))
  { s with fab := { s.fab with edges := es, tensors := kept } }

/-- RETAIN_EXIT_DONE (R391): the channels leave self-refresh, the ledger accepts again, and the blocks restart. -/
def retainExitDone (s : State) : State :=
  if !s.power.retainExit then s
  else
    let ch := tmapAll {} (fun _ (c : DdrChan) => if c.st = .selfRefresh then { c with st := .active } else c) s.ddr.ch
    let s1 := { s with
      power := { s.power with retainExit := false }
      led := { s.led with stopRetain := false }
      ddr := { s.ddr with ch := ch } }
    settle (restartBlocks (if s1.pat.image.isSome then reinstall s1 else s1))

def execRetainExitDone (t : Nat) (s : State) : Outcome State Fault Refusal := .next (retainExitDone (advanceTo t s))

end Sys2Proof.Machine
end

