-- ==== Sys2Proof/Machine/Replace.lean ====
section
/-!
DEFINITION. Re-placement after the loss of a quad or a stack: alternates, switches and device re-fits (R104, R106, R107,
R113, R362, R474).
-/

namespace Sys2Proof.Machine

open Host (Outcome)

/-- ALT_COMPUTE_DONE (R104): the device fitter has computed the alternates of the placement in force; `alts` are the bytes
of an ALT section, with an alternate for every quad in use, and for every stack when asked for (R104, rule 8). -/
def altComputeDone (bs : List Byte) (s : State) : State :=
  let ts := parseStitches 0x11 (bs.length / 8 + 1) bs
  if s.pat.st = .loaded ∧ s.pat.source = 2 ∧ s.pat.altKind = 0 ∧ !s.pat.altReady
      ∧ altError (curImage s) s.pat.stackAlts s.pat.primary ts = none then
    modPat (fun p => { p with alts := altsOf ts, altReady := true }) s
  else s

def execAltComputeDone (t : Nat) (alts : List Byte) (s : State) : Outcome State Fault Refusal :=
  .next (altComputeDone alts (advanceTo t s))

/-- How long the re-placement that began at `conf` waited for a TAKING seam (R362). -/
def seamWait (conf : Nat) (s : State) : Nat := s.pat.seamEnd - conf

/-- A re-placement ends: its entry leaves the list; a wait above 350 µs writes the third record with BUDGET_EXT (R351,
R362); the measured fault takes the time. -/
def endReplace (src conf : Nat) (s : State) : State :=
  let ext := decide (350000 < seamWait conf s)
  let b := match s.fault.budget with
    | none => none
    | some (i, since, rec, cf, rp) => some (i, since, rec, cf, if cf = conf ∧ rp = 0 then s.time.now else rp)
  let s1 := { s with fault := { s.fault with replace := s.fault.replace.drop 1, budget := b, budgetExt := ext } }
  let s2 := if ext ∧ src ≠ noneId then
      writeRec (src / 0x400) { raiseRec src 3 s1 with
        done := shortStamp (src / 0x400) s1, budgetExt := true
        action := (((coll (src / 0x400) s1).ring.filter (fun e => e.2.source == src && e.2.done != 0)).getLast?.map
          (·.2.action)).getD 3 } s1
    else s1
  settle s2

/-- The alternate of the primary placement for a lost part, when it is matching now (R474). -/
def matchingAlt (part : Nat) (s : State) : Option (Nat × Nat × List Stitch) :=
  let kind := if 0x100 ≤ part then 1 else 2
  let idx := if 0x100 ≤ part then part - 0x100 else part
  if s.pat.altKind ≠ 0 ∨ !s.pat.altReady then none
  else
    match altFor s.pat.alts kind idx with
    | none => none
    | some a => let f := applyDeltas s.pat.primary a.fit; if fitAvailable f s then some (kind, idx, f) else none

/-- Streams whose graphs hold a mitten or a lining buffer on an unavailable quad or stack. -/
def unplacedStreams (s : State) : List Nat :=
  let im := curImage s
  let bad := (fitMittens s.pat.fit).filter (fun t =>
    !stackAvail (t.u8 12) s || (mitQuads t).any (fun q => !quadAvail q s))
  let lin := ((fitBuffers s.pat.fit).filter (fun b => b.u8 8 == 1 && !stackAvail (b.u8 9) s)).map (·.id)
  let ops := bad.flatMap (fun t => (im.unit (t.u32 8)).map (·.id))
    ++ (im.ops.filter (fun o => (o.ins ++ o.outs).any (lin.contains ·))).map (·.id)
  streamsWithOps ops s

/-- Streams with a mitten that waits for constants: after the loss of an I/O die none comes (R357). -/
def starvedStreams (s : State) : List Nat :=
  ((boundMittens s).filter (fun m => (mitten m s).waitConst)).flatMap (fun m => streamsOfMitten m s)

/-- ALTERNATE_SWITCH (R106, R107, R113): the oldest re-placement that waits, with no seam TAKING: the matching alternate is
installed, or a device re-fit starts when there is none. After the loss of an I/O die no re-fit runs (R357): streams that
cannot be placed, or that wait for constants, are disabled. -/
def alternateSwitch (s : State) : State :=
  match s.fault.replace with
  | [] => s
  | (part, src, conf) :: _ =>
    if anyTaking s ∨ s.pat.refitAt.isSome ∨ s.pat.image.isNone then s
    else
      match matchingAlt part s with
      | some (k, i, f) =>
        let s1 := switchFit f part s
        let s2 := installGuards (curImage s1) f (modPat (fun p => { p with altKind := k, altIndex := i }) s1)
        endReplace src conf (if s.pat.dieLost then disableStreams (starvedStreams s2) 1 (partId part) (partQuad part) s2 else s2)
      | none =>
        if s.pat.dieLost then
          endReplace src conf (disableStreams (unplacedStreams s) 1 (partId part) (partQuad part) (loseScenes s.pat.fit [] part s))
        else modPat (fun p => { p with refitAt := some conf, st := if p.job.isNone then .refitting else p.st }) s

def execAlternateSwitch (t : Nat) (s : State) : Outcome State Fault Refusal := .next (alternateSwitch (advanceTo t s))

/-- The state a pattern returns to when a re-fit ends. -/
def patRest (p : PatternState) : PatternState := if p.st = .refitting then { p with st := .loaded } else p

/-- The mitten groups whose pending values a re-fit discards: all but those of operators that keep a single mitten (R107). -/
def shadowDropped (old new : List Stitch) : List Nat :=
  let kept := fun (m : Nat) =>
    match mitStitch m old, mitStitch m new with
    | some a, some b => a.u32 8 == b.u32 8 && (mittensOfOp (a.u32 8) old).length == 1 && (mittensOfOp (b.u32 8) new).length == 1
    | _, _ => false
  ((List.range 1344).filter (fun m => !kept m)).map (0x400 + ·)

/-- Discard pending values, setting SHADOW_LOST when a group held one (R107). -/
def dropShadows (gs : List Nat) (s : State) : State :=
  if gs.any (fun g => hasPending g s) then
    modPat (fun p => { p with shadow := p.shadow.filter (fun e => !gs.contains (e.1 / 8)), shadowLost := true }) s
  else s

/-- DEVICE_REFIT_DONE (R103, R106, R107): the re-fit's placement is installed, or the streams that cannot be placed are
disabled and CODE holds the fit code. -/
def deviceRefitDone (c0 : Nat) (f0 : List Byte) (c1 : Nat) (f1 : List Byte) (s : State) : State :=
  match s.pat.refitAt, s.fault.replace with
  | some conf, (part, src, _) :: _ =>
    if anyTaking s ∨ s.pat.dieLost then s
    else
      match fitterResult (curImage s) c0 f0 c1 f1 s with
      | .odd => s
      | .refused c _ =>
        let s1 := disableStreams (unplacedStreams s) 1 (partId part) (partQuad part)
          (loseScenes s.pat.fit [] part (fitterSource c s))
        endReplace src conf (modPat (fun p => { patRest p with refitAt := none, code := c }) s1)
      | .placed p =>
        let s1 := installGuards (curImage s) p.fit (switchFit p.fit part (dropShadows (shadowDropped s.pat.fit p.fit) s))
        endReplace src conf (modPat (fun x => { patRest x with
          refitAt := none, altKind := 3, altIndex := 0, altReady := false, alts := [], stackAlts := false, source := 2, code := 0
          fitUs := satU 32 ((s.time.now - conf) / 1000) }) s1)
  | _, _ => s

def execDeviceRefitDone (t code0 : Nat) (fit0 : List Byte) (code1 : Nat) (fit1 : List Byte) (s : State) :
    Outcome State Fault Refusal :=
  .next (deviceRefitDone code0 fit0 code1 fit1 (advanceTo t s))

end Sys2Proof.Machine
end

