-- ==== Sys2Proof/Machine/SelfTest.lean ====
section
/-!
DEFINITION. Self-test of gloves: slices, deferral, withdrawal of a quad and its return (R337, R338).
-/

namespace Sys2Proof.Machine

open Host (Outcome)

/-- A glove. -/
def glove (g : Nat) (s : State) : Glove := tget {} g s.fab.gloves

/-- Change a glove. -/
def modGlove (g : Nat) (f : Glove → Glove) (s : State) : State :=
  { s with fab := { s.fab with gloves := tmod {} g f s.fab.gloves } }

/-- The half of a glove. -/
def gloveHalf (g : Nat) : Nat := g / 672

/-- A quad is withdrawn. -/
def isWithdrawn (q : Nat) (s : State) : Bool := s.isl.withdrawnQuads.any (fun w => w.1 == q)

/-- Self-test is scheduled for a half (R325, R337). -/
def testsRun (h : Nat) (s : State) : Bool := bothSplit s || (hostIsland h s).isSome

/-- The island that schedules a half's tests. -/
def testIsland (h : Nat) (s : State) : Nat := (hostIsland h s).getD h

/-- A glove may be tested: in service, and parked or in an idle mitten. -/
def gloveIdle (g : Nat) (s : State) : Bool :=
  decide (g < 1344) && quadAvail (g / 4) s && stackAvail (g / 336) s
    && (match mittenOfGlove g s with
        | none => true
        | some m => (mitten (leadOf m s) s).firing.isNone)

/-- A slice started now could not complete before the next reserved window of its glove (R338): 40 µs. -/
def reservedSoon (g : Nat) (s : State) : Bool :=
  match mittenOfGlove g s with
  | none => false
  | some m => s.isl.reserves.any (fun r => (unitOf m s).any (fun o => o.id == r.op)
      && (let p := r.periodUs * 1000
          let st := stamp (liveDie (gloveHalf g) s) s
          let into := (st + p - r.phaseNs % max 1 p) % max 1 p
          decide (into < r.windowUs * 1000) || decide (p < into + 40000)))

/-- A slice deferred is counted. -/
def defer (h : Nat) (s : State) : State := modIsland (testIsland h s) (fun x => { x with deferred := satAdd 16 x.deferred 1 }) s

/-- GLOVE_TEST_SLICE (R337, R338). -/
def testSlice (g : Nat) (s : State) : State :=
  if !testsRun (gloveHalf g) s ∨ !serving s ∨ !gloveIdle g s ∨ (glove g s).test = .selftest then s
  else if !bothSplit s ∧ !isWithdrawn (g / 4) s ∧ reservedSoon g s then defer (gloveHalf g) s
  else modGlove g (fun x => { x with test := .selftest }) s

def execGloveTestSlice (t glove : Nat) (s : State) : Outcome State Fault Refusal := .next (testSlice glove (advanceTo t s))

/-- What a glove reads between slices. -/
def restTest (q : Nat) (s : State) : GloveTest := if isWithdrawn q s then .withdrawn else .none

/-- GLOVE_TEST_SLICE_DONE (R337, R343): twelve slices passed are a full pass; a failure isolates the quad. -/
def sliceDone (g : Nat) (ok : Bool) (s : State) : State :=
  let q := g / 4
  let rest := restTest q s
  if (glove g s).test ≠ .selftest then s
  else if !ok then
    isolateQuad q (some (srcQuad q)) (latch (srcQuad q) 0 (modGlove g (fun x => { x with test := rest, slices := 0 }) s))
  else if (glove g s).slices < 11 then modGlove g (fun x => { x with test := rest, slices := x.slices + 1 }) s
  else modGlove g (fun x => { x with
    test := rest, slices := 0, overdue := false, passAt := s.time.now
    lastPass := shortStamp (liveDie (gloveHalf g) s) s }) s

def execGloveTestSliceDone (t glove : Nat) (ok : Bool) (s : State) : Outcome State Fault Refusal :=
  .next (sliceDone glove ok (advanceTo t s))

/-- Nanoseconds since a glove's last full pass, counted from power-good before its first. -/
def sincePass (g : Nat) (s : State) : Nat := s.time.now - max (glove g s).passAt s.sec.pgoodAt

/-- The placement in force is primary and has a matching alternate for a quad. -/
def hasAlternate (q : Nat) (s : State) : Bool := (matchingAlt (quadPart q) s).isSome

/-- GLOVE_WITHDRAW_REQUEST (R338): at 55 s the quad's withdrawal is requested, or the test deferred. -/
def withdrawRequest (g : Nat) (s : State) : State :=
  if 1344 ≤ g ∨ !testsRun (gloveHalf g) s ∨ !quadAvail (g / 4) s ∨ sincePass g s < 55000000000 then s
  else if hasAlternate (g / 4) s then requestWithdraw (g / 4) s
  else defer (gloveHalf g) s

def execGloveWithdrawRequest (t glove : Nat) (s : State) : Outcome State Fault Refusal :=
  .next (withdrawRequest glove (advanceTo t s))

/-- TEST_INTERVAL_PASSED (R338): 60 s passed without a full pass in a placement without the quad's alternate. -/
def testInterval (g : Nat) (s : State) : State :=
  if g < 1344 ∧ gloveOverdue g s ∧ !(glove g s).overdue ∧ !hasAlternate (g / 4) s ∧ testsRun (gloveHalf g) s then
    latch (isrc (testIsland (gloveHalf g) s) 0x1AF) g (modGlove g (fun x => { x with overdue := true }) s)
  else s

def execTestIntervalPassed (t glove : Nat) (s : State) : Outcome State Fault Refusal := .next (testInterval glove (advanceTo t s))

/-! ### Withdrawal and return -/

/-- The gloves of a quad. -/
def quadGloves (q : Nat) : List Nat := (List.range 4).map (q * 4 + ·)

/-- Install another placement at a seam: mittens whose stitch changed move with their tokens and their counts. -/
def moveFit (new : List Stitch) (s : State) : State :=
  let old := s.pat.fit
  let s1 := (changedMittens old new).foldl (fun a m =>
    match mitStitch m new with
    | none => modMitten m (fun _ => {}) a
    | some t => modMitten m (fun x => { bindMitten (curImage a) new a.time.now t with
        fires := x.fires, lastFire := x.lastFire, half := x.half, halfNext := x.halfNext, waitConst := x.waitConst }) a) s
  let s2 := mapMittens (fun _ x => { x with
    waitConst := x.waitConst || (x.bound && x.lead.isNone && constMoved (curImage s1) old new x.op) }) s1
  installGuards (curImage s) new (startDrains old new (modPat (fun p => { p with
    fit := new, switches := satAdd 16 p.switches 1, testSeam := none, seamEnd := s.time.now })
    { s2 with fab := { s2.fab with dma := fitDma new } }))

/-- The seam of a withdrawal or return: it holds the changed mittens' groups until they are idle, or abandons their work
items at the default SEAM_LIMIT; `done` is what the switch adds. The void's DETAIL is a free value: the spec gives this
seam no number. -/
def testSeamStep (q : Nat) (back : Bool) (new : List Stitch) (done : State → State) (s : State) : State :=
  let gs := (changedMittens s.pat.fit new).map (0x400 + ·)
  let busy := gs.any (fun g => groupWorks g s)
  match s.pat.testSeam with
  | none =>
    if anyTaking s ∨ s.pat.refitAt.isSome then s
    else if busy then modPat (fun p => { p with testSeam := some (q, back, gs, s.time.now) }) s
    else done (moveFit new s)
  | some (q', b, _, at_) =>
    if q' ≠ q ∨ b ≠ back then s
    else if !busy then done (moveFit new s)
    else if s.time.now < at_ + 1000000 then s
    else
      let d := drawFree s
      done (moveFit new (withdrawGroups (d.1 % 2 ^ 32) gs d.2).1)

/-- The next whole millisecond after a time, plus 1 ms (R338). -/
def wholeMs (t : Nat) : Nat := (t / 1000000 + 2) * 1000000

/-- QUAD_WITHDRAW_SEAM (R338). -/
def quadWithdraw (q : Nat) (s : State) : State :=
  match s.isl.withdrawReq.find? (fun r => r.1 == q), matchingAlt (quadPart q) s with
  | some (_, at_), some (_, _, f) =>
    if s.time.now < wholeMs at_ ∨ !quadAvail q s then s
    else
      let h := testIsland (q / 168) s
      testSeamStep q false f (fun z =>
        let z1 := modPat (fun p => { p with altKind := 1, altIndex := q, testAlt := true }) z
        let z2 := (quadGloves q).foldl (fun a g => modGlove g (fun x => { x with test := .withdrawn, slices := 0 }) a) z1
        modIsland h (fun x => { x with withdrawn := satAdd 8 x.withdrawn 1 }) { z2 with isl := { z2.isl with
          withdrawReq := z2.isl.withdrawReq.filter (fun r => r.1 != q)
          withdrawnQuads := z2.isl.withdrawnQuads ++ [(q, s.time.now)] } }) s
  | _, _ => s

def execQuadWithdrawSeam (t quad : Nat) (s : State) : Outcome State Fault Refusal := .next (quadWithdraw quad (advanceTo t s))

/-- QUAD_RETURN_SEAM (R338): every glove of the quad has passed since the withdrawal. -/
def quadReturn (q : Nat) (s : State) : State :=
  match s.isl.withdrawnQuads.find? (fun w => w.1 == q) with
  | none => s
  | some (_, at_) =>
    if !s.pat.testAlt ∨ (quadGloves q).any (fun g => decide ((glove g s).passAt ≤ at_) || (glove g s).test == .selftest)
        ∨ !fitAvailable s.pat.primary s then s
    else
      testSeamStep q true s.pat.primary (fun z =>
        let z1 := modPat (fun p => { p with altKind := 0, altIndex := 0, testAlt := false }) z
        let z2 := (quadGloves q).foldl (fun a g => modGlove g (fun x => { x with test := .none }) a) z1
        { z2 with isl := { z2.isl with withdrawnQuads := z2.isl.withdrawnQuads.filter (fun w => w.1 != q) } }) s

def execQuadReturnSeam (t quad : Nat) (s : State) : Outcome State Fault Refusal := .next (quadReturn quad (advanceTo t s))

end Sys2Proof.Machine
end

