-- ==== Sys2Proof/Machine/Isolate.lean ====
section
/-!
DEFINITION. What follows an isolation, the entry into the module safe state, the thermal trip and the end of the start-up
sweep (R356 to R358, R364, R365, R408), and FAULT_RAISE with what an outside error does at its detector (R50, R256, R278,
R295).
-/

namespace Sys2Proof.Machine

open Host (Outcome)

/-! ### Consequences of an isolation (R356, R357) -/

/-- Packets of lost routers and crossbars are lost. -/
def dropPackets (lost : Place → Bool) (s : State) : State :=
  { s with fab := { s.fab with queued := s.fab.queued.filter (fun q => !lost q.place) } }

/-- A router of a quad. -/
def atQuad (q : Nat) : Place → Bool
  | .router k i => k * 84 + i == q
  | _ => false

/-- A router of a stack. -/
def atStack (k : Nat) : Place → Bool
  | .router j _ => j == k
  | _ => false

/-- A router, crossbar or brim stop of a half. -/
def atHalf (d : Nat) : Place → Bool
  | .router j _ => j / 2 == d
  | .crossbar i => i == d
  | .brim i _ => i == d

/-- A used quad or stack waits for its re-placement; for any other part nothing moves (R106, R361). -/
def noteLoss (part : Nat) (src : Option Nat) (used : Bool) (s : State) : State :=
  if used then
    { s with fault := { s.fault with replace := s.fault.replace ++ [(part, src.getD noneId, s.time.now)] } }
  else
    match s.fault.budget with
    | some (i, since, rec, conf, 0) => { s with fault := { s.fault with budget := some (i, since, rec, conf, s.time.now) } }
    | _ => s

/-- A quad or stack is used by the placement in force or by the load in progress. -/
def partUsed (part : Nat) (s : State) : Bool :=
  let uses := fun (f : List Stitch) =>
    if 0x100 ≤ part then (fitQuads f).contains (part - 0x100) else (fitStacks f).contains part
  uses s.pat.fit || (match s.pat.job with
    | none => false
    | some j => uses j.fit)

/-- The quad's consequences (R106, R107, R338). -/
def loseQuad (q : Nat) (src : Option Nat) (s : State) : State :=
  let p := quadPart q
  let s1 := (mittensOnQuad q s).foldl (fun a m => voidFiring false m 1 (partId p) q 0 a) (dropPackets (atQuad q) s)
  let was := isWithdrawn q s1
  let s2 := { s1 with
    isl := { s1.isl with withdrawnQuads := s1.isl.withdrawnQuads.filter (fun w => w.1 != q)
                         withdrawReq := s1.isl.withdrawReq.filter (fun w => w.1 != q) }
    pat := { s1.pat with testAlt := s1.pat.testAlt && !was } }
  noteLoss p src (partUsed p s) s2

/-- The stack's consequences. -/
def loseStack (k : Nat) (src : Option Nat) (s : State) : State :=
  noteLoss k src (partUsed k s)
    ((mittensOnStack k s).foldl (fun a m => voidFiring false m 1 k 0xFFFF 0 a) (dropPackets (atStack k) s))

/-- In-flight samples of lost ports are discarded (R256). -/
def dropSamples (lost : SensStream → Bool) (s : State) : State :=
  (declaredSens s).foldl (fun a n =>
    if !(lost (sens n a) && (sens n a).inFrame) then a
    else if (sens n a).noEntry then modSens n (fun x => { x with inFrame := false, noEntry := false }) a
    else discardSample n (sens n a).last a) s

/-- A CSI port is held in reset. -/
def loseCsi (p : Nat) (s : State) : State :=
  modCsi p (fun x => { x with link := false }) (dropSamples (fun x => !x.eth && x.port == p) s)

/-- The slots whose frames wait at a port. -/
def waitingSlots (e : Nat) (s : State) : List Nat :=
  (eport e s).queued.filterMap (fun q => match q.2.2 with
    | .loop n => some n
    | _ => none)

/-- An Ethernet port is held in reset: its frames are discarded, those of slots counted (R295). -/
def loseEth (e : Nat) (s : State) : State :=
  let s1 := (waitingSlots e s).foldl (fun a n => modLoop n (fun x => { x with dropped := satAdd 11 x.dropped 1 }) a) s
  modEth e (fun x => { x with link := false, queued := [] }) s1

/-- Tensors a graph keeps in device memory: placed in T2, scene memories and their page tables (R357). -/
def tensorsInT2 (im : Image) (fit : List Stitch) : List Nat :=
  ((fitBuffers fit).filter (fun b => decide (2 ≤ b.u8 8))).map (·.id) ++ (im.tensors.filter (fun x => x.role == 5)).map (·.id)

/-- Sensor streams with their ring in DDR4, and the groups that have one as a member. -/
def ringsInT2 (s : State) : List Nat := (declaredSens s).filter (fun n => !(sens n s).inBuffer)

/-- The object of an edge's producer keeps its tokens in DDR4. -/
def fedFromT2 (e : GEdge) (s : State) : Bool :=
  let rs := ringsInT2 s
  (e.srcKind == 2 && rs.any (fun n => (sens n s).id == e.src))
    || (e.srcKind == 3 && (declaredGroups s).any (fun g => (group g s).id == e.src && (group g s).members.any (fun m => rs.contains m.stream)))

/-- Streams that the loss of an I/O die disables (R357). -/
def dieStreams (d : Nat) (s : State) : List Nat :=
  let im := curImage s
  let t2 := tensorsInT2 im s.pat.fit
  let lost := ((boundMittens s).filter (fun m => (mitten m s).stack / 2 == d || (mitten m s).waitConst)).flatMap
    (fun m => (unitOf m s).map (·.id))
  let mem := (im.ops.filter (fun o => (o.ins ++ o.outs).any (t2.contains ·))).map (·.id)
  let fed := (im.edges.filter (fun e => e.dstKind == 0 && (t2.contains e.tensor || fedFromT2 e s))).map (·.dst)
  let made := (im.edges.filter (fun e => e.srcKind == 0 && t2.contains e.tensor)).map (·.src)
  streamsWithOps (lost ++ mem ++ fed ++ made) s

/-- The PATTERN block without a die: no re-fit goes on. -/
def patDieLost (p : PatternState) : PatternState := { patRest p with dieLost := true, refitAt := none }

/-- A full load, or a patch whose seam is not taken, ends FAILED with code BUSY. -/
def failOnLoss (s : State) : State := if s.pat.job.isSome then failJob 0x11 none s else s

/-- The I/O die's consequences (R357); its landings without a verdict are lost (R201). -/
def loseDie (d : Nat) (s : State) : State :=
  let part := 4 + d
  let sts := dieStreams d s
  let ms := (boundMittens s).filter (fun m => (mitten m s).stack / 2 == d)
  let s1 := ms.foldl (fun a m => voidFiring false m 1 part 0xFFFF 0 a) (dropPackets (atHalf d) s)
  let s2 := (List.range 6).foldl (fun a c => isolateChannel (6 * d + c) a) s1
  let s3 := (List.range 4).foldl (fun a p => loseCsi (4 * d + p) a) s2
  let s4 := (List.range 2).foldl (fun a e => loseEth (2 * d + e) a) s3
  let s5 := planDieLost d (goDown d true [] s4)
  let s6 := { s5 with led := { s5.led with intake := s5.led.intake.filter (fun l => l.die != d) } }
  noteLoss part none false (disableStreams sts 1 part 0xFFFF (modPat patDieLost (failOnLoss s6)))

/-- The consequences of the isolation of a part. -/
def loseEffects (part : Nat) (src : Option Nat) (s : State) : State :=
  if 0x100 ≤ part then loseQuad (part - 0x100) src s
  else if part < 4 then loseStack part src s
  else if part = 4 ∨ part = 5 then loseDie (part - 4) s
  else
    let s1 :=
      if 0x10 ≤ part ∧ part ≤ 0x1B then isolateChannel (part - 0x10) s
      else if 0x20 ≤ part ∧ part ≤ 0x27 then loseCsi (part - 0x20) s
      else if 0x28 ≤ part ∧ part ≤ 0x2B then loseEth (part - 0x28) s
      else if 0x30 ≤ part ∧ part ≤ 0x3F then slicesLost [part - 0x30] s
      else if part = 0x48 ∨ part = 0x49 then goDown (part - 0x48) true [] s
      else if part = 0x50 ∨ part = 0x51 then goSilent (part - 0x50) s
      else s
    noteLoss part src false s1

/-- A part that can be isolated. -/
def partKnown (part : Nat) : Bool :=
  decide (part < 6) || (decide (0x10 ≤ part) && decide (part ≤ 0x1B)) || (decide (0x20 ≤ part) && decide (part ≤ 0x2B))
    || (decide (0x30 ≤ part) && decide (part ≤ 0x41)) || part == 0x48 || part == 0x49 || part == 0x50 || part == 0x51
    || (decide (0x100 ≤ part) && decide (part < 0x100 + 336))

/-- The trace data of an isolation (R316). -/
def isoData (part : Nat) : Nat := partId part + 256 * (if 0x100 ≤ part then (part - 0x100) % 256 else 0xFF)

/-- The confirmation time of the fault whose budget is measured. -/
def budgetConf (src : Option Nat) (s : State) : State :=
  match s.fault.budget with
  | some (i, since, rec, 0, repl) =>
    if src = some i then { s with fault := { s.fault with budget := some (i, since, rec, s.time.now, repl) } } else s
  | _ => s

/-- The reactions that the isolation of a part completes (R351, R354). -/
def completeFor (cmds : List IsoCmd) (s : State) : State :=
  cmds.foldl (fun a c =>
    match c.src with
    | none => a
    | some id => if (fsrc id a).active then completeSrc id c.action a else a) s

/-- A part, and every part behind it, is cut off: the trace event, then the consequences. -/
def cutOff (part : Nat) (src : Option Nat) (s : State) : State :=
  let s1 := { s with fault := { s.fault with isolated := (s.fault.isolated ++ partsBehind part).eraseDups } }
  loseEffects part src (traceEv (partHalf part) (0x50 + partHalf part) 0x70 (isoData part) s1)

/-- ISOLATION_CONFIRM (R354, R356): the gate reports closed within 5 µs of the command. -/
def isolationConfirm (part : Nat) (s : State) : State :=
  match isoCmd part s with
  | none => s
  | some x =>
    if x.at_ + 5000 < s.time.now ∨ !partKnown part then s
    else
      let cmds := s.fault.isoPend.filter (fun c => c.part == part)
      let s1 := budgetConf x.src (dropIso part s)
      let s2 := if isIso part s1 then s1 else cutOff part x.src s1
      settle (completeFor cmds s2)

def execIsolationConfirm (t part : Nat) (s : State) : Outcome State Fault Refusal :=
  .next (isolationConfirm part (advanceTo t s))

/-! ### The module safe state (R358) -/

/-- FAULT_SAFE and its stamp. -/
def noteSafe (id cause st : Nat) (s : State) : State :=
  { s with
    fault := { s.fault with safeReq := none, safeSource := id, safeValid := true, safeCause := cause, safeStamp := st }
    power := { s.power with safe := true } }

/-- The other collector's peer-safe-request record (R358, R359). -/
def peerRecord (c : Nat) (s : State) : State :=
  let id := (1 - c) * 0x400 + 0x1BE
  let s1 := modSrc id (fun x => { x with count := satAdd 16 x.count 1, latched := true, active := true }) s
  faultVec (writeRec (1 - c) (raiseRec id 9 s1) s1)

/-- Start-up that SAFE interrupts stops with the code of its cause (R440). -/
def safeStart (cause : Nat) (s : State) : State :=
  if booting s then stopStart (if cause = 1 then 0x09 else 0x0B) s else s

/-- Carry out the safe request (R358): both pins, the records, the safe frames, the voids, the fast domains. -/
def safeEnter (col : Nat) (s : State) : State :=
  match s.fault.safeReq with
  | none => s
  | some (id, cause, st) =>
    if id / 0x400 ≠ col then s
    else
      let s1 := assertPins (safeStart cause s)
      let s2 := voidAll 6 0xFF (safeOutAll (peerRecord col (noteSafe id cause st s1)))
      settle { s2 with power := { s2.power with fastStopped := true } }

def execSafeEnter (t col : Nat) (s : State) : Outcome State Fault Refusal := .next (safeEnter col (advanceTo t s))

/-- THERMAL_TRIP (R408): an unmasked sensor reads 115 °C or more, corrected with the offsets of BOOT; `raw` in 1/128 °C. -/
def thermalTrip (pair : Nat) (ring : Bool) (raw : Int) (s : State) : State :=
  let p := tpair pair s
  let off := tget 0 pair (if ring then s.crown.offR else s.crown.offD)
  let masked := if ring then p.maskR else p.maskD
  if 344 ≤ pair ∨ masked ∨ raw + off < 115 * 128 ∨ !s.power.on then s
  else
    let id := pairHalf pair * 0x400 + 0x1B9
    safeEnter (pairHalf pair) (recognize true id (latch id pair s))

def execThermalTrip (t pair : Nat) (ring : Bool) (raw : Int) (s : State) : Outcome State Fault Refusal :=
  .next (thermalTrip pair ring raw (advanceTo t s))

/-! ### The start-up sweep (R364, R365) -/

/-- The boot chain after the sweep (R439, R440): the stored pattern is loaded, or the chain is complete. -/
def bootPattern (s : State) : State :=
  if !s.sec.bootLoad then bootDone s
  else if !(storeEntry s.sec.bootEntry s).valid then
    (if partnerPos s then stopStart 0x08 s else bootDone (modPat (fun p => { p with code := 0x01 }) s))
  else startJob (8 + s.sec.bootEntry * 16) true { s with sec := { s.sec with stage := 5 } }

/-- Duration of the running sweep in µs. -/
def sweepLen (a : Nat) (s : State) : Nat := (s.time.now - a) / 1000

/-- SWEEP_DONE: a pass, or the first miss by its class and item. -/
def sweepDone (miss : Option (Nat × Nat)) (s : State) : State :=
  match s.fault.sweepAt with
  | none => s
  | some a =>
    let s1 := { s with fault := { s.fault with sweepAt := none, sweepUs := satU 32 (sweepLen a s) } }
    match miss with
    | some (c, i) =>
      stopStart 0x07 { s1 with fault := { s1.fault with sweepResult := 2, sweepClass := c % 8, sweepItem := i % 65536 } }
    | none =>
      let ok := fun (x : Collector) => { x with sweepOk := true }
      bootPattern (modColl 0 ok (modColl 1 ok { s1 with fault := { s1.fault with sweepResult := 1, sweepClass := 0, sweepItem := 0 } }))

def execSweepDone (t : Nat) (miss : Option (Nat × Nat)) (s : State) : Outcome State Fault Refusal :=
  .next (sweepDone miss (advanceTo t s))

/-- SWEEP_TIMEOUT: the sweep exceeds 100 ms. -/
def sweepTimeout (s : State) : State :=
  match s.fault.sweepAt with
  | none => s
  | some a =>
    if s.time.now ≤ a + 100000000 then s
    else stopStart 0x07 { s with fault := { s.fault with sweepUs := satU 32 (sweepLen a s) } }

def execSweepTimeout (t : Nat) (s : State) : Outcome State Fault Refusal := .next (sweepTimeout (advanceTo t s))

/-! ### Raises from outside (R346, R348) -/

/-- A lining bank's record: stack × 48 + bank. -/
def modBank (k : Nat) (f : Bank → Bank) (s : State) : State :=
  { s with fab := { s.fab with banks := tmod {} k f s.fab.banks } }

/-- The pages of a tier that an uncorrectable error may have hit: memory and page slot. -/
def pagesAt (tier : Nat) (p : SceneMem → ScenePage → Bool) (s : State) : List (Nat × Nat) :=
  s.scene.flatMap (fun e => (e.2.pages.zipIdx.filter (fun g => g.1.st == .valid && g.1.tier == tier && p e.2 g.1)).map (fun g => (e.1, g.2)))

/-- An uncorrectable error in a page read makes its entry LOST (R168); whether the word lay in a page, and in which, is free
(assumption 156). -/
def losePageOf (cands : List (Nat × Nat)) (s : State) : State :=
  if cands.isEmpty then s
  else
    let d := drawFree s
    match cands[d.1 % (cands.length + 1)]? with
    | none => d.2
    | some (m, i) => modScene m (fun x => { x with pages := x.pages.modify i (fun g => { g with st := .lost }) }) d.2

/-- A palm or lining error of local stack `k` of half `h` (R50): DETAIL names the glove (palm), or the bank in [7:0] and the
reading mitten plus 1 above (lining). -/
def storageError (k off detail : Nat) (s : State) : State :=
  let q := detail / 4
  let bank := k * 48 + detail % 256 % 48
  match off with
  | 0 => modGlove detail (fun x => { x with ce := satAdd 16 x.ce 1 }) s
  | 1 =>
    let s1 := modGlove detail (fun x => { x with ue := true }) s
    (match mittenOfGlove detail s with
     | none => s1
     | some m => losePageOf (pagesAt 0 (fun x _ => homeMitten x s1 == some (leadOf m s1)) s1)
         (voidFiring true (leadOf m s1) 2 (partId (quadPart q)) q 0 s1))
  | 2 => modBank bank (fun x => { x with ce := satAdd 16 x.ce 1 }) s
  | 3 =>
    let s1 := modBank bank (fun x => { x with ue := true }) s
    if detail / 256 = 0 then s1
    else losePageOf (pagesAt 1 (fun _ g => g.place == k) s1) (voidFiring true (detail / 256 - 1) 2 k 0xFFFF 0 s1)
  | _ => s

/-- What an outside error does at its detector besides its line: half `c`, index `i`. -/
def raiseEffect (c i detail : Nat) (s : State) : State :=
  if 0x0A8 ≤ i ∧ i < 0x0C0 then storageError (2 * c + (i - 0x0A8) / 12) ((i - 0x0A8) % 12) detail s
  else if 0x130 ≤ i ∧ i < 0x140 then (if i % 2 = 1 then heapError (8 * c + (i - 0x130) / 2) s else s)
  else if i = 0x141 then poisonMap c (detail / 65536) (detail / 256 % 256) (detail % 256) s
  else if 0x149 ≤ i ∧ i ≤ 0x14C then
    let u := 4 * c + (i - 0x149)
    if s.sense.unitsOut.contains u then s
    else { s with sense := { s.sense with unitsOut := s.sense.unitsOut ++ [u] } }
  else if i = 0x14D then modGroup (detail % 16) (fun g => { g with tracks := [], tableLost := true }) s
  else if i = 0x14E then ringError (detail / 2 ^ 20 % 64) (detail % 2 ^ 20) s
  else if 0x150 ≤ i ∧ i < 0x180 then
    (if (i - 0x150) % 6 = 4 ∧ (lslot (8 * c + (i - 0x150) / 6) s).declared then slotSafe (8 * c + (i - 0x150) / 6) s else s)
  else s

/-- Latch the sources that an outside error raises in this sample, each with its effect. -/
def latchExt (c : Nat) : List (Nat × Nat) → State → State
  | [], s => s
  | (i, d) :: r, s => latchExt c r (latch (c * 0x400 + i % 0x400) d (raiseEffect c (i % 0x400) d s))

/-- FAULT_RAISE (R346, R351, R353): outside errors latch, and the collector recognizes its sample. -/
def faultRaise (c : Nat) (ext : List (Nat × Nat)) (s : State) : State := recognizeAll c (latchExt c ext s)

def execFaultRaise (t col : Nat) (ext : List (Nat × Nat)) (s : State) : Outcome State Fault Refusal :=
  .next (faultRaise (col % 2) ext (advanceTo t s))

end Sys2Proof.Machine
end

