-- ==== Sys2Proof/Machine/Mesh.lean ====
section
/-!
DEFINITION. Packets on the mesh, the cuffs and the brims, route-table seams, lining scrub, and the clearing of the fabric's
counters (R39 to R50, R61, R62, R74, R418, R419).
-/

namespace Sys2Proof.Machine

open Host (Outcome)

/-! ### Packets (R44) -/

/-- DEST and SRC. -/
def pktDest (p : Packet) : Nat := fieldLe p.header 0 2
def pktSrc (p : Packet) : Nat := fieldLe p.header 2 2

/-- Traffic class, world of the source, flits with the header flit. -/
def pktClass (p : Packet) : Nat := fieldLe p.header 4 1 % 4
def pktSecure (p : Packet) : Bool := bit (fieldLe p.header 4 1) 2
def pktFlits (p : Packet) : Nat := fieldLe p.header 5 1 + 1
def pktLen (p : Packet) : Nat := fieldLe p.header 6 2 % 2048
def pktTag (p : Packet) : Nat := fieldLe p.header 12 2

/-- HCHK is right. -/
def pktOk (p : Packet) : Bool := fieldLe p.header 14 2 == crc16 (p.header.take 14)

/-- A target of R44 in a compute die: stack, quad, port; none for one in an I/O die. -/
def quadTarget (d : Nat) : Option (Nat × Nat × Nat) :=
  if bit d 15 then none else some (bits d 14 13, bits d 12 6, bits d 5 3)

/-- The I/O die and brim stop of a target. -/
def ioDie (d : Nat) : Nat := bits d 14 14
def ioStop (d : Nat) : Nat := d % 256

/-- Brim stops that have a block (R47). -/
def stopUsed (n : Nat) : Bool :=
  decide (n ≤ 0x05) || [0x08, 0x09, 0x10, 0x11, 0x12, 0x13, 0x14, 0x15, 0x18, 0x19, 0x1A, 0x1C, 0x1D, 0x1E].contains n

/-! ### Routes (R42, R45, R46) -/

/-- The route-table entry of a router. -/
def routeEntry (k q dest : Nat) (s : State) : Nat :=
  (tget none ((k * 84 + q) * 86 + dest) s.fab.routes).getD (defaultRoute q dest)

/-- The output of an entry. -/
def outOfCode (code dest : Nat) : OutPort :=
  match code with
  | 0 => .north
  | 1 => .south
  | 2 => .east
  | 3 => .west
  | _ => if dest = 85 then .sibCuff else .ioCuff

/-- The local port of a quad router that a target names; 6 and 7 are reserved. -/
def localPort (port : Nat) : Option OutPort :=
  if port < 4 then some (.wrist port) else if port = 4 then some .lining else if port = 5 then some .control else none

/-- The output a packet takes at a place; none where it names a reserved port. A die has no quad 84 to 127: such a DEST is
looked up like any other number, so that 84 and 85 take the entries of the cuff exits (DESIGN CHOICE, log entry 140). -/
def outPortAt (pl : Place) (p : Packet) (s : State) : Option OutPort :=
  let d := pktDest p
  match pl with
  | .router k q =>
    match quadTarget d with
    | some (k', q', port) =>
      if k' = k ∧ q' = q then localPort port
      else
        let e := if k' = k then q' else if k' / 2 = k / 2 then 85 else 84
        some (outOfCode (routeEntry k q e s) e)
    | none => some (outOfCode (routeEntry k q 84 s) 84)
  | .crossbar die =>
    match quadTarget d with
    | some (k', _, _) => some (if k' / 2 = die then .stackCuff k' else .bridge)
    | none => some (if ioDie d = die then .toBrim else .bridge)
  | .brim die stop =>
    match quadTarget d with
    | some _ => some (if stop = 0x09 then .toCrossbar else .ring)
    | none =>
      if ioDie d = die then some (if stop = ioStop d then .block else .ring)
      else some (if stop = 0x09 then .toCrossbar else .ring)

/-- The place that an output leads a packet to; none where it leaves the fabric. A packet enters a die at the cuff port of its
destination quad's row (R45). -/
def nextPlace (pl : Place) (o : OutPort) (p : Packet) : Option Place :=
  let d := pktDest p
  let row := bits d 12 6 / 7
  match pl, o with
  | .router k q, .north => some (.router k (q + 7))
  | .router k q, .south => some (.router k (q - 7))
  | .router k q, .east => some (.router k (q + 1))
  | .router k q, .west => some (.router k (q - 1))
  | .router k _, .ioCuff => some (.crossbar (k / 2))
  | .router k _, .sibCuff => some (.router (if k % 2 = 0 then k + 1 else k - 1) (row * 7 + 6))
  | .crossbar _, .stackCuff k => some (.router k (row * 7))
  | .crossbar die, .bridge => some (.crossbar (1 - die))
  | .crossbar die, .toBrim => some (.brim die 0x09)
  | .brim die _, .toCrossbar => some (.crossbar die)
  | .brim die _, .ring => some (.brim die (if (quadTarget d).isNone && ioDie d == die then ioStop d else 0x09))
  | _, _ => none

/-! ### Output service (R43) -/

/-- A number for an output. -/
def outCode (pl : Place) (o : OutPort) : Nat :=
  let b := match pl with
    | .router k q => k * 84 + q
    | .crossbar die => 336 + die
    | .brim die stop => 338 + die * 256 + stop
  let c := match o with
    | .north => 0
    | .south => 1
    | .east => 2
    | .west => 3
    | .ioCuff => 4
    | .sibCuff => 5
    | .bridge => 6
    | .toBrim => 7
    | .toCrossbar => 8
    | .ring => 9
    | .block => 10
    | .lining => 11
    | .control => 12
    | .wrist n => 16 + n
    | .stackCuff k => 24 + k
  b * 32 + c

/-- The packets waiting at an output. -/
def waitingAt (pl : Place) (o : OutPort) (s : State) : List Queued :=
  s.fab.queued.filter (fun q => decide (q.place = pl ∧ q.out = o))

/-- The input at which the link of an output ends; local ports have the numbers below 6. -/
def linkInput (pl : Place) (o : OutPort) : Nat := 6 + outCode pl o

/-- The input of a packet injected at a place: the wrist, lining or control port of its source; a stop has one. -/
def localInput (pl : Place) (p : Packet) : Nat :=
  match pl with
  | .router _ _ => bits (pktSrc p) 5 3
  | _ => 0

/-- Flits that one virtual channel of a link buffers (R41). -/
def channelFlits : Nat := 8

/-- The links with credits: mesh links and cuffs (R41, R46); the ring of a brim has none. -/
def credited : OutPort → Bool
  | .north | .south | .east | .west | .ioCuff | .sibCuff | .stackCuff _ | .bridge => true
  | _ => false

/-- The credit of a packet's class on its link: the virtual channel at the far end has room for a flit. -/
def hasCredit (q : Queued) (s : State) : Bool :=
  match nextPlace q.place q.out q.pkt with
  | none => true
  | some pl =>
    !credited q.out ||
      decide (((s.fab.queued.filter (fun w => decide (w.place = pl ∧ w.input = linkInput q.place q.out ∧ w.cls = q.cls))).map
        (fun w => pktFlits w.pkt)).sum < channelFlits)

/-- Where the rotation of a class at an output stands. -/
def turnKey (pl : Place) (o : OutPort) (cls : Nat) : Nat := 4 * outCode pl o + cls

/-- The packet of a class that an output takes next among `ws`: inputs in rotating order by number, beginning after the one
served last (log entry 110), and the oldest packet of that input. -/
def classNext (turn cls : Nat) (ws : List Queued) : Option Queued :=
  let cs := ws.filter (fun q => q.cls == cls)
  let ahead := (cs.filter (fun q => decide (turn ≤ q.input))).map (·.input)
  match (if ahead.isEmpty then cs.map (·.input) else ahead).min? with
  | none => none
  | some i => cs.find? (fun q => q.input == i)

/-- The packet an output serves next among those that hold a credit: strict priority, inputs of a class in rotating order;
class 3 goes first where another packet would keep it from its flit in every 32. -/
def servedNext (pl : Place) (o : OutPort) (s : State) : Option Queued :=
  let ws := (waitingAt pl o s).filter (fun q => hasCredit q s)
  let take := fun c => classNext (tget 0 (turnKey pl o c) s.fab.turn) c ws
  match (List.range 4).findSome? take with
  | none => none
  | some q =>
    match take 3 with
    | none => some q
    | some t => if 31 < tget 0 (outCode pl o) s.fab.since3 + pktFlits q.pkt then some t else some q

/-- Take a packet from an output. -/
def serve (q : Queued) (s : State) : State :=
  let key := outCode q.place q.out
  let more := (waitingAt q.place q.out s).any (fun w => w.cls == 3)
  let n := if q.cls = 3 ∨ !more then 0 else tget 0 key s.fab.since3 + pktFlits q.pkt
  { s with fab := { s.fab with
      queued := s.fab.queued.erase q, since3 := tset 0 key n s.fab.since3
      turn := tset 0 (turnKey q.place q.out q.cls) (q.input + 1) s.fab.turn } }

/-! ### PACKET_ARRIVE -/

/-- A router whose ports are closed, or a cuff, crossbar or stop of an isolated die. -/
def placeClosed (pl : Place) (s : State) : Bool :=
  match pl with
  | .router k q => !quadAvail (k * 84 + q) s || !stackAvail k s
  | .crossbar die => !dieUp die s
  | .brim die _ => !dieUp die s

/-- A place of the module. -/
def placeExists (pl : Place) : Bool :=
  match pl with
  | .router k q => decide (k < 4 ∧ q < 84)
  | .crossbar die => decide (die < 2)
  | .brim die stop => decide (die < 2 ∧ stop < 256)

/-- The gloves of a quad that belong to the secure world. -/
def secureGlove (g : Nat) (s : State) : Bool := ((mittenWithGlove g s).map (fun m => (mitten m s).secure)).getD false

/-- The world of a packet's source does not permit its target port (R418). -/
def portRefuses (pl : Place) (o : OutPort) (p : Packet) (s : State) : Bool :=
  match pl, o with
  | .router k q, .wrist n => !pktSecure p && secureGlove ((k * 84 + q) * 4 + n) s
  | .router k q, .control => !pktSecure p && (List.range 4).any (fun n => secureGlove ((k * 84 + q) * 4 + n) s)
  | _, _ => false

/-- A refused packet (R419): counted, its source kept, the target quad's source raised, the work of its source voided. -/
def refusePacket (q : Nat) (p : Packet) (s : State) : State :=
  let src := pktSrc p
  let s1 := { s with sec := { s.sec with violInt := satAdd 16 s.sec.violInt 1, lastSrc := src } }
  let s2 := match quadTarget src with
    | some (k', q', port) =>
      match (if port < 4 then mittenWithGlove ((k' * 84 + q') * 4 + port) s1 else none) with
      | some m => voidFiring true (leadOf m s1) 1 (0x80 + q') (k' * 84 + q') 0 s1
      | none => s1
    | none => s1
  settle (latch (srcQuad q) 0 s2)

/-- A packet that came by an input of a place is discarded and reported, refused, handed to the port it names, or waits at its
output. -/
def packetAt (pl : Place) (input : Nat) (p : Packet) (s : State) : State :=
  let put := fun (o : OutPort) =>
    if (nextPlace pl o p).isNone then { s with fab := { s.fab with delivered := s.fab.delivered ++ [(pl, o, p)] } }
    else { s with fab := { s.fab with queued := s.fab.queued ++ [⟨pl, o, pktClass p, p, input⟩] } }
  if placeClosed pl s then s
  else match pl with
    | .router k q =>
      if !pktOk p then latch (srcStack k 7) 0 s
      else match outPortAt pl p s with
        | none => s
        | some o => if portRefuses pl o p s then refusePacket (k * 84 + q) p s else put o
    | .brim die stop =>
      if (quadTarget (pktDest p)).isNone && ioDie (pktDest p) == die && !stopUsed (ioStop (pktDest p)) then
        latch (die * 0x400 + 0x143) (ioStop (pktDest p) + 256 * die) s
      else match (if stopUsed stop then outPortAt pl p s else none) with
        | none => s
        | some o => put o
    | .crossbar _ =>
      match outPortAt pl p s with
      | none => s
      | some o => put o

/-- The die of a place drains for a route-table seam. -/
def placeDrains (pl : Place) (s : State) : Bool :=
  match pl with
  | .router k _ => s.fab.draining.any (fun d => d.1 == k)
  | _ => false

/-- The half of a place. -/
def placeHalf : Place → Nat
  | .router k _ => k / 2
  | .crossbar die => die
  | .brim die _ => die

/-- A packet as R44 forms one: a whole header, FLITS and LEN in their ranges, LEN bytes of payload, which the flits hold. -/
def pktWhole (p : Packet) : Bool :=
  decide (p.header.length = 16 ∧ pktFlits p ≤ 17 ∧ p.payload.length = pktLen p ∧ pktLen p ≤ 48 + 64 * (pktFlits p - 1))

/-- A packet as its source injects it: STAMP is the short stamp of the source's half, HCHK follows. One that a router finds
spoilt stands as it is. -/
def stamped (pl : Place) (p : Packet) (s : State) : Packet :=
  if pktOk p then
    let b := p.header.take 8 ++ leBytes 4 (shortStamp (placeHalf pl) s) ++ slice p.header 12 2
    { p with header := b ++ leBytes 2 (crc16 b) }
  else p

/-- A request that was handed over at a place and that a response answers: it carries the tag of its request to the request's
source. -/
def answers (pl : Place) (p : Packet) (d : Place × OutPort × Packet) : Bool :=
  decide (d.1 = pl) && pktClass d.2.2 == 2 && pktSrc d.2.2 == pktDest p && pktTag d.2.2 == pktTag p

/-- Inject a packet at a place. A response needs its request, which is then answered. -/
def inject (pl : Place) (p : Packet) (s : State) : State :=
  if pktOk p && !pktWhole p then s
  else if pktOk p && pktClass p == 1 then
    match s.fab.delivered.find? (answers pl p) with
    | none => s
    | some d => packetAt pl (localInput pl p) (stamped pl p s) { s with fab := { s.fab with delivered := s.fab.delivered.erase d } }
  else packetAt pl (localInput pl p) (stamped pl p s) s

/-- PACKET_ARRIVE: with `via`, the packet that output serves next; otherwise one injected at the place, which a draining die
does not take. -/
def packetArrive (pl : Place) (via : Option (Place × OutPort)) (header payload : List Byte) (s : State) : State :=
  match via with
  | none => if placeExists pl ∧ !placeDrains pl s ∧ !placeClosed pl s then inject pl ⟨header, payload⟩ s else s
  | some (p0, o) =>
    match servedNext p0 o s with
    | none => s
    | some q => if nextPlace p0 o q.pkt = some pl then packetAt pl (linkInput p0 o) q.pkt (serve q s) else s

def execPacketArrive (t : Nat) (place : Place) (via : Option (Place × OutPort)) (header payload : List Byte) (s : State) :
    Outcome State Fault Refusal :=
  .next (packetArrive place via header payload (advanceTo t s))

/-! ### ROUTE_TABLE_SWAP (R42) -/

/-- Packets still stand in a die. -/
def dieHolds (k : Nat) (s : State) : Bool :=
  s.fab.queued.any (fun q => match q.place with
    | .router k' _ => k' == k
    | _ => false)

/-- A drained die takes its new tables at once. -/
def routeSwap (k : Nat) (s : State) : State :=
  match s.fab.draining.find? (fun d => d.1 == k) with
  | none => s
  | some d =>
    if dieHolds k s then s
    else
      let kept := s.fab.routes.filter (fun e => e.1 / (84 * 86) != k)
      let rs := d.2.foldl (fun a e => tset none e.1 (some e.2) a) kept
      { s with fab := { s.fab with
          routes := rs, rtGen := tmod 0 k (fun g => (g + 1) % 256) s.fab.rtGen
          draining := s.fab.draining.filter (fun x => x.1 != k) } }

def execRouteTableSwap (t stack : Nat) (s : State) : Outcome State Fault Refusal := .next (routeSwap stack (advanceTo t s))

/-! ### LINING_SCRUB_READ (R50, R62) -/

/-- Words of a bank: 2 MiB of 64-bit words. -/
def bankWords : Nat := 262144

/-- A lining bank's record. -/
def liningBank (k b : Nat) (s : State) : Bank := tget {} (k * 48 + b) s.fab.banks
def modLining (k b : Nat) (f : Bank → Bank) (s : State) : State :=
  { s with fab := { s.fab with banks := tmod {} (k * 48 + b) f s.fab.banks } }

/-- The scrub reads the next word of a bank; `err` is 0 clean, 1 corrected and written back, 2 uncorrectable. -/
def liningScrub (k b err : Nat) (s : State) : State :=
  if 4 ≤ k ∨ 48 ≤ b ∨ !stackAvail k s ∨ fastDown s then s
  else
    let n := (liningBank k b s).pos + 1
    let done : Bool := decide (bankWords ≤ n)
    let s1 := modLining k b (fun x => { x with
      pos := if done then 0 else n
      lastPass := if done then shortStamp (k / 2) s else x.lastPass
      ce := if err = 1 then satAdd 16 x.ce 1 else x.ce
      ue := x.ue || decide (err = 2) }) s
    if err = 1 then latch (srcStack k 2) b s1 else if err = 2 then latch (srcStack k 3) b s1 else s1

def execLiningScrubRead (t stack bank err : Nat) (s : State) : Outcome State Fault Refusal :=
  .next (liningScrub stack bank err (advanceTo t s))

/-! ### Counters (R61, R62, R74) -/

/-- GLOVE_NUM_CLR: a write of GLOVE_NUM. The events of a firing that completes at the same instant are counted afterwards
(R75). -/
def gloveNumClr (g v : Nat) (s : State) : State :=
  if bit v 31 ∧ g < Config.gloves ∧ !offBlocked (0x00400028 + g * 0x100) s then
    modGlove g (fun x => { x with
      sat := if x.evAt = s.time.now then satU 16 x.evSat else 0
      nan := if x.evAt = s.time.now then satU 14 x.evNan else 0 }) s
  else s

def execGloveNumClr (t glove value : Nat) (s : State) : Outcome State Fault Refusal := .next (gloveNumClr glove value (advanceTo t s))

/-- PALM_CE_CLR: a write of GLOVE_PALM; UE is W1C. -/
def palmClr (g v : Nat) (s : State) : State :=
  if g < Config.gloves ∧ !offBlocked (0x00400008 + g * 0x100) s then
    modGlove g (fun x => { x with ce := if bit v 31 then 0 else x.ce, ue := x.ue && !bit v 16 }) s
  else s

def execPalmCeClr (t glove value : Nat) (s : State) : Outcome State Fault Refusal := .next (palmClr glove value (advanceTo t s))

/-- LINING_CE_CLR: a write of LINING_BANK; UE is W1C. -/
def liningClr (k b v : Nat) (s : State) : State :=
  if k < 4 ∧ b < 48 ∧ !offBlocked (0x00460000 + k * 0x1000 + b * 0x40) s then
    modLining k b (fun x => { x with ce := if bit v 31 then 0 else x.ce, ue := x.ue && !bit v 16 }) s
  else s

def execLiningCeClr (t stack bank value : Nat) (s : State) : Outcome State Fault Refusal :=
  .next (liningClr stack bank value (advanceTo t s))

end Sys2Proof.Machine
end

