-- ==== Sys2Proof/Machine/Partner.lean ====
section
/-!
DEFINITION. Partner heartbeats, beacons, leases and the fault manager's frames (R460 to R465).
-/

namespace Sys2Proof.Machine

open Host (Outcome)

/-- The 32-byte header of a partner, beacon or lease frame. -/
def p88Header (kind len ctr st module : Nat) : List Byte :=
  leBytes 1 kind ++ leBytes 1 1 ++ leBytes 2 len ++ leBytes 4 (ctr % 2 ^ 32) ++ leBytes 8 st ++ leBytes 16 module

/-- Streams selected in ATTACH_HB_MASK, the 32 lowest. -/
def hbStreams (s : State) : List Nat :=
  ((List.range 256).filter (fun n => bit (tget 0 (n / 32) s.host.hbMask) (n % 32))).take 32

/-- HFLAGS of R460. -/
def hFlags (s : State) : Nat :=
  b2n s.fault.c0.pinLow + 2 * b2n s.fault.c1.pinLow + 4 * b2n s.host.joined + 8 * b2n s.host.quiesced

/-- The heartbeat's bytes after the Ethernet header. -/
def heartbeatBytes (s : State) : List Byte :=
  let sts := hbStreams s
  p88Header 1 (8 + 12 * sts.length) s.host.hbCtr (stamp 1 s) s.host.moduleId
    ++ leBytes 1 s.power.st.code ++ leBytes 1 (hFlags s) ++ leBytes 2 s.power.jepoch ++ leBytes 1 sts.length ++ zeroBytes 3
    ++ sts.flatMap (fun n => leBytes 1 n ++ zeroBytes 3 ++ leBytes 8 (strm n s).watermark)

/-- HEARTBEAT_SEND (R460). -/
def heartbeatSend (s : State) : State :=
  if !s.power.on ∨ !partnerPos s ∨ !ethUp 3 s then s
  else
    let f : EthFrame := { dst := s.host.peerMac, src := portMac 3 s, etherType := 0x88B6, payload := heartbeatBytes s }
    ethSend 3 5 f .plain { s with host := { s.host with hbCtr := wrapAdd 32 s.host.hbCtr 1 } }

def execHeartbeatSend (t : Nat) (s : State) : Outcome State Fault Refusal := .next (heartbeatSend (advanceTo t s))

/-- Entry `i` of a received heartbeat. -/
def peerEntry (bs : List Byte) (i : Nat) : PeerWm :=
  if i < fieldLe bs 36 1 then { wm := fieldLe bs (44 + 12 * i) 8, stream := fieldLe bs (40 + 12 * i) 1, valid := true } else {}

/-- HEARTBEAT_RX (R460, R461): `bytes` follow the Ethernet header of a frame received on ETH3. -/
def heartbeatRx (bs : List Byte) (s : State) : State :=
  if !ethUp 3 s ∨ fieldLe bs 0 1 ≠ 1 ∨ fieldLe bs 1 1 ≠ 1 ∨ 32 < fieldLe bs 36 1 ∨ bs.length < 40 + 12 * fieldLe bs 36 1 then s
  else { s with host := { s.host with
    peerState := fieldLe bs 32 1 % 16, peerFlags := fieldLe bs 33 1 % 16, peerJepoch := fieldLe bs 34 2
    peerLast := stamp 1 s, peerAt := some s.time.now, peerLost := false
    peerWm := (List.range 32).foldl (fun t i => tset {} i (peerEntry bs i) t) s.host.peerWm } }

def execHeartbeatRx (t : Nat) (bytes : List Byte) (s : State) : Outcome State Fault Refusal :=
  .next (heartbeatRx bytes (advanceTo t s))

/-- PEER_HEARTBEAT_TIMEOUT (R461). -/
def peerTimeout (s : State) : State :=
  let late : Bool := match s.host.peerAt with
    | none => true
    | some a => decide (a + peerTo s ≤ s.time.now)
  if s.host.joined ∧ partnerPos s ∧ !s.host.peerLost ∧ late then attachVec { s with host := { s.host with peerLost := true } }
  else s

def execPeerHeartbeatTimeout (t : Nat) (s : State) : Outcome State Fault Refusal := .next (peerTimeout (advanceTo t s))

/-! ### Farm (R462 to R464) -/

/-- The farm position. -/
def farmPos (s : State) : Bool := s.power.position == 2

/-- Milliseconds until the lease fence; 0 without a lease. -/
def leftMs (s : State) : Nat := if s.host.leaseHeld then (s.host.renewAt + 3000000000 - s.time.now) / 1000000 else 0

/-- The beacon's bytes after the Ethernet header. -/
def beaconBytes (i : Nat) (s : State) : List Byte :=
  let flags := b2n s.host.joined + 2 * b2n s.host.leaseHeld + 4 * b2n s.host.grace + 8 * b2n s.host.quiesced
  p88Header 2 24 (if i = 0 then s.host.beaconCtrA else s.host.beaconCtrB) (stamp i s) s.host.moduleId
    ++ leBytes 1 s.power.st.code ++ leBytes 1 flags ++ leBytes 2 s.power.jepoch ++ leBytes 2 (leftMs s) ++ zeroBytes 2
    ++ leBytes 8 (if s.host.joined then s.host.jobId else 0) ++ leBytes 4 s.host.jobEpoch
    ++ leBytes 4 (satU 32 (s.fault.c0.faults + s.fault.c1.faults))

/-- BEACON_SEND (R462). -/
def beaconSend (i : Nat) (s : State) : State :=
  if !mgmtUp i s ∨ !farmPos s then s
  else
    let f := beBytes 6 s.host.fmMac ++ beBytes 6 (mgmtMac i s) ++ beBytes 2 0x88B6 ++ beaconBytes i s
    { s with host := { s.host with
      mgmtSent := (i, f) :: s.host.mgmtSent
      beaconCtrA := if i = 0 then wrapAdd 32 s.host.beaconCtrA 1 else s.host.beaconCtrA
      beaconCtrB := if i = 0 then s.host.beaconCtrB else wrapAdd 32 s.host.beaconCtrB 1 } }

def execBeaconSend (t island : Nat) (s : State) : Outcome State Fault Refusal := .next (beaconSend island (advanceTo t s))

/-- A frame of the fault manager is accepted by a management port: its address, VERSION, KIND, LEN and MODULE_ID (R462). -/
def fmFrame (i dst kind len : Nat) (bs : List Byte) (s : State) : Bool :=
  mgmtUp i s && dst == mgmtMac i s && fieldLe bs 0 1 == kind && fieldLe bs 1 1 == 1 && fieldLe bs 2 2 == len
    && fieldLe bs 16 16 == s.host.moduleId && decide (32 + len ≤ bs.length)

/-- The lease lapses: 3 s have passed since the last renewal. -/
def leaseOver (s : State) : Bool :=
  s.host.joined && s.host.leaseHeld && decide (s.host.renewAt + 3000000000 ≤ s.time.now)

/-- LEASE_EXPIRE (R463). -/
def leaseExpire (s : State) : State := if leaseOver s then fence 2 s else s

def execLeaseExpire (t : Nat) (s : State) : Outcome State Fault Refusal := .next (leaseExpire (advanceTo t s))

/-- LEASE_GRACE (R463). -/
def leaseGrace (s : State) : State :=
  if s.host.joined ∧ s.host.leaseHeld ∧ s.host.renewAt + 2000000000 ≤ s.time.now then { s with host := { s.host with grace := true } }
  else s

def execLeaseGrace (t : Nat) (s : State) : Outcome State Fault Refusal := .next (leaseGrace (advanceTo t s))

/-- Renew the lease for a job. -/
def renew (job epoch : Nat) (s : State) : State :=
  { s with host := { s.host with
    joined := true, leaseHeld := true, grace := false, renewAt := s.time.now, jobId := job, jobEpoch := epoch, lastJob := job } }

/-- LEASE (R463, R465): a lease that lapses in this tick is fenced first. -/
def lease (i dst : Nat) (bs : List Byte) (s0 : State) : State :=
  let s := leaseExpire s0
  let job := fieldLe bs 32 8
  let epoch := fieldLe bs 40 4
  let start := bit (fieldLe bs 44 1) 0
  if !fmFrame i dst 3 16 bs s ∨ !farmPos s then s
  else if start ∧ !s.power.fenced ∧ (if s.host.joined then decide (s.host.jobEpoch < epoch) else !s.host.accepted) then
    renew job epoch s
  else if s.host.joined ∧ s.host.jobId = job ∧ s.host.jobEpoch = epoch then renew job epoch s
  else s

def execLease (t island dst : Nat) (bytes : List Byte) (s : State) : Outcome State Fault Refusal :=
  .next (lease island dst bytes (advanceTo t s))

/-- FENCE_FRAME (R463). -/
def fenceFrame (i dst : Nat) (bs : List Byte) (s : State) : State :=
  if fmFrame i dst 4 16 bs s ∧ farmPos s ∧ s.host.joined ∧ s.host.jobId = fieldLe bs 32 8 then fence 3 s else s

def execFenceFrame (t island dst : Nat) (bytes : List Byte) (s : State) : Outcome State Fault Refusal :=
  .next (fenceFrame island dst bytes (advanceTo t s))

/-- RESTART_FRAME (R463, R458). -/
def restartFrame (i dst : Nat) (bs : List Byte) (s : State) : State :=
  if fmFrame i dst 6 16 bs s ∧ farmPos s ∧ s.power.fenced ∧ s.host.lastJob = fieldLe bs 32 8 then restartRequest s else s

def execRestartFrame (t island dst : Nat) (bytes : List Byte) (s : State) : Outcome State Fault Refusal :=
  .next (restartFrame island dst bytes (advanceTo t s))

/-- WAKE_FRAME (R462, R391): at any position. -/
def wakeFrame (i dst : Nat) (bs : List Byte) (s : State) : State := if fmFrame i dst 5 0 bs s then wake s else s

def execWakeFrame (t island dst : Nat) (bytes : List Byte) (s : State) : Outcome State Fault Refusal :=
  .next (wakeFrame island dst bytes (advanceTo t s))

end Sys2Proof.Machine
end

