-- ==== Sys2Proof/Machine/Power.lean ====
section
/-!
DEFINITION. Connector, power input and reference clocks: the meanings of their commands (R25, R28 to R33).
-/

namespace Sys2Proof.Machine

open Host (Outcome)

/-- MATE_STAGE (R32): one step of travel; contacts mate only with the couplings engaged (R33), and the couplings release
after the last contact. A loss of the VIN blades takes the input away. -/
def mateStage (stage : Nat) (coolant : Bool) (s : State) : State :=
  let p := s.power
  let oneStep := decide (stage = p.mate ∨ stage = p.mate + 1 ∨ p.mate = stage + 1)
  if 3 < stage ∨ !oneStep ∨ (stage ≠ 0 ∧ !coolant) then s
  else
    let s1 := { s with power := { p with
      mate := stage, coolant := coolant, prsnt := decide (1 ≤ stage), pwrEn := p.pwrEn && decide (stage = 3)
      biasHeld := decide (2 ≤ stage) && (p.biasHeld || decide (p.mate < 2)) } }
    if stage < 2 ∧ p.on then turnOff s1 else s1

def execMateStage (t stage : Nat) (coolant : Bool) (s : State) : Outcome State Fault Refusal :=
  .next (mateStage stage coolant (advanceTo t s))

/-- The bias network holds the SAFE pins while the VIN blades are mated and carry at least 9 V (R29). -/
def vinSeen (mv : Nat) (s : State) : State :=
  { s with power := { s.power with biasHeld := decide (2 ≤ s.power.mate ∧ 9000 ≤ mv) } }

/-- INPUT_QUALIFIED (R31): a mated module in OFF whose input is in range starts its power stage. -/
def inputQualified (mv : Nat) (s : State) : State :=
  if s.power.mate = 3 ∧ s.power.prsnt ∧ !s.power.on ∧ 36000 ≤ mv ∧ mv ≤ 60000 then
    { s with power := { s.power with on := true, pwrEn := true, biasHeld := true } }
  else s

def execInputQualified (t mv : Nat) (s : State) : Outcome State Fault Refusal :=
  .next (inputQualified mv (advanceTo t s))

/-- The old JEPOCH from its two copies (R8); none when neither passes its digest. -/
def oldJepoch (a b : Option Nat) : Option Nat :=
  match a, b with
  | none, none => none
  | some x, none => some x
  | none, some y => some y
  | some x, some y =>
    if y = (x + 1) % 65536 then some y
    else if x = (y + 1) % 65536 then some x
    else some (max x y)

/-- A start from full power loss (R8, R30, R31, R439): the always-on domains leave reset, BOOT begins, the straps are
sampled and JEPOCH is raised. Straps of 0b11 stop the start-up before JEPOCH is judged: R439 samples them first. -/
def coldStart (s : State) : State :=
  let s1 := { s with power := { s.power with
    pgood := true, main0 := true, main1 := true, aon0 := true, aon1 := true, position := s.power.strapPins % 4 } }
  match oldJepoch s.power.jepochA s.power.jepochB with
  | none =>
    if s1.power.position = 3 then stopStart 0x01 (latchBoth 0x1BC 0 (enterBoot s1)) else stopStart 0x0A (enterBoot s1)
  | some j =>
    let n := (j + 1) % 65536
    let s2 := enterBoot { s1 with power := { s1.power with jepoch := n, jepochA := some n, jepochB := some n } }
    if s2.power.position = 3 then stopStart 0x01 (latchBoth 0x1BC 0 s2) else s2

/-- PGOOD_RELEASE (R31): every rail is in regulation. With neither always-on domain powered this is a start; after a rail
fault that left one powered, PGOOD is released again and nothing starts anew (R8, assumption 137). -/
def pgoodRelease (s : State) : State :=
  if !s.power.on ∨ s.power.pgood then s
  else if !s.power.aon0 ∧ !s.power.aon1 then coldStart s
  else { s with power := { s.power with pgood := true, main0 := true, main1 := true, aon0 := true, aon1 := true } }

def execPgoodRelease (t : Nat) (s : State) : Outcome State Fault Refusal := .next (pgoodRelease (advanceTo t s))

/-- INPUT_VOLTAGE_WARN (R31): 33 V to 36 V, or 60 V to 63 V. -/
def inputWarn (mv : Nat) (s0 : State) : State :=
  let s := vinSeen mv s0
  if !s.power.on then s
  else if 33000 ≤ mv ∧ mv < 36000 then latchBoth 0x1B0 0 s
  else if 60000 < mv ∧ mv ≤ 63000 then latchBoth 0x1B0 1 s
  else s

def execInputVoltageWarn (t mv : Nat) (s : State) : Outcome State Fault Refusal := .next (inputWarn mv (advanceTo t s))

/-- INPUT_UNDERVOLTAGE_OFF (R31): below 33 V for more than 50 µs. -/
def inputUnder (mv ns : Nat) (s0 : State) : State :=
  let s := vinSeen mv s0
  if s.power.on ∧ mv < 33000 ∧ 50000 < ns then turnOff s else s

def execInputUndervoltageOff (t mv ns : Nat) (s : State) : Outcome State Fault Refusal :=
  .next (inputUnder mv ns (advanceTo t s))

/-- INPUT_OVERVOLTAGE_OFF (R31): above 63 V for more than 50 µs. Above 65 V the spec allows damage and gives no other
effect: the stage turns off (assumption 10). -/
def inputOver (mv ns : Nat) (s0 : State) : State :=
  let s := vinSeen mv s0
  if s.power.on ∧ 63000 < mv ∧ 50000 < ns then turnOff s else s

def execInputOvervoltageOff (t mv ns : Nat) (s : State) : Outcome State Fault Refusal :=
  .next (inputOver mv ns (advanceTo t s))

/-- PWR_EN_LOW_OFF (R31): low for more than 100 µs. -/
def pwrEnLow (ns : Nat) (s : State) : State :=
  let s1 := { s with power := { s.power with pwrEn := false } }
  if s.power.on ∧ 100000 < ns then turnOff s1 else s1

def execPwrEnLowOff (t ns : Nat) (s : State) : Outcome State Fault Refusal := .next (pwrEnLow ns (advanceTo t s))

/-- PRESENCE_LOSS_OFF (R33). -/
def presenceLoss (s : State) : State :=
  let s1 := { s with power := { s.power with prsnt := false } }
  if s.power.on then turnOff s1 else s1

def execPresenceLossOff (t : Nat) (s : State) : Outcome State Fault Refusal := .next (presenceLoss (advanceTo t s))

/-- Rails of a half: 0 VBUS, 1 and 2 VDD_IVR of its stacks, 3 VDD_IOD, 4 VDDQ, 5 VPP, 6 VAON. A VBUS fault is the main
converter's, a VAON fault is seen by the other half (R18, R348). -/
def railSource (half rail : Nat) : Nat :=
  if rail = 0 then half * 0x400 + 0x1B1
  else if rail = 6 then (1 - half) * 0x400 + 0x1B2
  else half * 0x400 + 0x1B3

/-- The loss of an always-on converter: the island it feeds is unpowered, so it is silent and its pin asserted (R28). With
both converters lost the module has lost all power, and the stage counts as off (assumption 137). -/
def aonLost (half : Nat) (s : State) : State :=
  let s1 := modColl half (fun c => { c with pinLow := true }) (modIsland half (fun i => { i with vote := .silent }) s)
  let s2 := if half = 0 then { s1 with power := { s1.power with aon0 := false } }
    else { s1 with power := { s1.power with aon1 := false } }
  if !s2.power.aon0 ∧ !s2.power.aon1 then turnOff s2 else settle s2

/-- RAIL_OUT_OF_REGULATION (R31, R18): PGOOD is pulled low and the fault reported. -/
def railOut (half rail : Nat) (s : State) : State :=
  if (!s.power.aon0 ∧ !s.power.aon1) ∨ 1 < half ∨ 6 < rail then s
  else
    let s1 := latch (railSource half rail) 0 { s with power := { s.power with pgood := false } }
    if rail = 0 then
      (if half = 0 then { s1 with power := { s1.power with main0 := false } }
       else { s1 with power := { s1.power with main1 := false } })
    else if rail = 6 then aonLost half s1
    else s1

def execRailOutOfRegulation (t half rail : Nat) (s : State) : Outcome State Fault Refusal :=
  .next (railOut half rail (advanceTo t s))

/-- REFCLK_LOSS (R25): the half `half` monitors the other half's reference: lost, or more than 1,000 ppm off. R25 does not say
whether a lost reference comes back: here it stays lost, across a power cycle too (DESIGN CHOICE, log entry 139). -/
def refclkLoss (half : Nat) (ppm : Option Int) (s : State) : State :=
  let off := match ppm with
    | none => true
    | some p => decide (1000 < p.natAbs)
  if !s.power.on ∨ !off ∨ 1 < half then s
  else
    let s1 := if half = 0 then { s with power := { s.power with refB := false } }
      else { s with power := { s.power with refA := false } }
    latch (half * 0x400 + 0x1A0) 0 s1

def execRefclkLoss (t half : Nat) (ppm : Option Int) (s : State) : Outcome State Fault Refusal :=
  .next (refclkLoss half ppm (advanceTo t s))

/-- The always-on domain of a half is powered. -/
def aonPowered (half : Nat) (s : State) : Bool := if half = 0 then s.power.aon0 else s.power.aon1

/-- A SAFE pin is low: it is asserted, and its island's driver or the bias network conducts. With neither it may rise or not
(R29): `stays` is that free choice (log entry 157). -/
def pinReadsLow (stays : Bool) (half : Nat) (s : State) : Bool :=
  (coll half s).pinLow && (aonPowered half s || s.power.biasHeld || stays)

/-- Each running island reads back both pins (R28): a level that differs from its command raises the read-back source of its
collector (R348). -/
def readBack (stays : Bool) (s : State) : State :=
  [0, 1].foldl (fun a i =>
    if aonPowered i s ∧ islandRuns i s ∧ [0, 1].any (fun h => pinReadsLow stays h s != (coll h s).pinLow) then
      latch (i * 0x400 + 0x1BD) 0 a
    else a) s

/-- BIAS_HOLD_LOSS (R29): below 9 V at the VIN blades the bias network holds the pins no more; at 9 V it holds them again. -/
def biasLoss (mv : Nat) (s : State) : State :=
  let v := vinSeen mv s
  if v.power.biasHeld then v
  else
    let d := drawFree v
    readBack (d.1 % 2 == 1) d.2

def execBiasHoldLoss (t mv : Nat) (s : State) : Outcome State Fault Refusal := .next (biasLoss mv (advanceTo t s))

end Sys2Proof.Machine
end

