-- ==== Sys2Proof/Machine/Seam.lean ====
section
/-!
DEFINITION. Seam commands: arm, cancel, discard, writes of RWS fields, block and global seams (R109 to R113).
-/

namespace Sys2Proof.Machine

open Host (Outcome)

/-! ### SEAM_CTRL (R110, R113) -/

/-- The valid entries of an engine. -/
def selected (x : SeamEngine) : List Nat := ((x.sel.filter (fun e => e.2.2)).map (fun e => e.2.1)).eraseDups

/-- The code of an ARM, 0 when accepted (R110). -/
def armCode (e : Nat) (s : State) : Nat :=
  let x := engine e s
  let gs := selected x
  if engBusy x then 1
  else if gs.isEmpty then 6
  else if gs.any (fun g => !groupKnown g) then 5
  else if gs.any (fun g => groupArmed (fun i => i != e) g s || groupPatched g s) then 2
  else if x.stamp = 0 ∧ gs.any groupGlobal then 4
  else if x.stamp ≠ 0 ∧ x.stamp < stamp (liveDie 0 s) s + 100000 then 3
  else 0

/-- The offset of SEAM_CTRL of an engine. -/
def seamCtrlOff (e : Nat) : Nat := 0x00040108 + e * 0x100

/-- More than one command in one SEAM_CTRL write: ignored as a whole with a NOTE (R113). -/
def manyBits (v : Nat) : Bool := decide (2 ≤ b2n (bit v 0) + b2n (bit v 1) + b2n (bit v 2))

/-- SEAM_ARM (R110). -/
def seamArm (e v : Nat) (s : State) : State :=
  if 4 ≤ e ∨ !bit v 0 ∨ offBlocked (seamCtrlOff e) s then s
  else if manyBits v then latchWrite 0 (seamCtrlOff e) s
  else
    let c := armCode e s
    if c = 1 then modEngine e (fun x => { x with code := 1 }) s
    else if c ≠ 0 then modEngine e (fun x => { x with code := c, st := 4 }) s
    else modEngine e (fun x => { x with
      code := 0, st := 1, groups := selected x, left := selected x }) s

def execSeamArm (t engine value : Nat) (s : State) : Outcome State Fault Refusal := .next (seamArm engine value (advanceTo t s))

/-- SEAM_CANCEL (R113): ARMED becomes CANCELLED; ignored otherwise. -/
def seamCancel (e v : Nat) (s : State) : State :=
  if 4 ≤ e ∨ !bit v 1 ∨ offBlocked (seamCtrlOff e) s then s
  else if manyBits v then latchWrite 0 (seamCtrlOff e) s
  else if (engine e s).st = 1 then modEngine e (fun x => { x with st := 5, groups := [], left := [] }) s
  else s

def execSeamCancel (t engine value : Nat) (s : State) : Outcome State Fault Refusal :=
  .next (seamCancel engine value (advanceTo t s))

/-- SEAM_DISCARD (R113): the pending values of the listed groups are dropped. -/
def seamDiscard (e v : Nat) (s : State) : State :=
  if 4 ≤ e ∨ !bit v 2 ∨ offBlocked (seamCtrlOff e) s then s
  else if manyBits v then latchWrite 0 (seamCtrlOff e) s
  else if engBusy (engine e s) then s
  else (selected (engine e s)).foldl (fun a g => dropPending g a) s

def execSeamDiscard (t engine value : Nat) (s : State) : Outcome State Fault Refusal :=
  .next (seamDiscard engine value (advanceTo t s))

/-! ### RWS writes (R109, R113) -/

/-- One RWS field of a register: key, and the value to stage; none when the value is ignored. -/
abbrev RwsField := Nat × Option Nat

/-- The sum of the credit limits with a new one for stream `n` (R219): pending values count in place of current ones. -/
def limitSum (n v : Nat) (s : State) : Nat :=
  ((declaredStreams s).map (fun k =>
    if k = n then v else (tget none ((0x100 + k) * 8) s.pat.shadow).getD (strm k s).limit)).foldl (· + ·) 0

/-- The stream whose SENS record lies at an offset: CSI records by port and VC, ETH records by flow slot. -/
def sensAt (off : Nat) (s : State) : Option Nat :=
  let ks := s.sense.streams.filter (fun e => e.2.declared)
  if 0x000C0000 ≤ off ∧ off < 0x000D0000 then
    let p := (off - 0x000C0000) / 0x2000
    let r := (off - 0x000C0000) % 0x2000
    if r < 0x100 ∨ 0x300 ≤ r then none
    else (ks.find? (fun e => !e.2.eth && e.2.port == p && e.2.vc == (r - 0x100) / 0x20)).map (·.1)
  else if 0x000E0000 ≤ off ∧ off < 0x000F0000 then
    let e := (off - 0x000E0000) / 0x4000
    let r := (off - 0x000E0000) % 0x4000
    if r < 0x3000 ∨ 0x3200 ≤ r then none
    else ((ks.filter (fun k => k.2.eth && k.2.port == e))[(r - 0x3000) / 0x20]?).map (·.1)
  else none

/-- The offset of a register within its SENS record. -/
def sensReg (off : Nat) : Nat := off % 0x20

/-- The group and register of a fusion record on the home die. -/
def fuseAt (off : Nat) : Option (Nat × Nat × Nat) :=
  if 0x00101000 ≤ off ∧ off < 0x00102000 then some (0, (off - 0x00101000) / 0x100, off % 0x100)
  else if 0x00141000 ≤ off ∧ off < 0x00142000 then some (1, (off - 0x00141000) / 0x100, off % 0x100)
  else none

/-- A fusion group. -/
def fgroup (g : Nat) (s : State) : FuseGroup := tget {} g s.sense.groups

/-- The RWS fields of a register and their values; none for a register without one. -/
def rwsFields (off v : Nat) (s : State) : Option (List RwsField) :=
  if off = 0x0001000C then some [(0x010 * 8, some (max 10 (bits v 15 0)))]
  else if 0x00031000 ≤ off ∧ off < 0x00035000 ∧ off % 0x40 = 0 then
    let n := (off - 0x00031000) / 0x40
    let l := bits v 25 16
    let bad := l = 0 ∨ 512 < l ∨ ringSize (strm n s) < l ∨ 16384 < limitSum n l s
    some [((0x100 + n) * 8, if bad then none else some l)]
  else if off = 0x00180004 ∨ off = 0x001A0004 then
    some [(0x050 * 8, if bits v 1 0 = 3 then none else some (bits v 1 0)), (0x050 * 8 + 1, some (bits v 2 2)),
      (0x050 * 8 + 2, some (bits v 3 3)),
      (0x050 * 8 + 3, if bits v 5 4 = 1 ∨ bits v 5 4 = 2 then some (bits v 5 4) else none),
      (0x050 * 8 + 4, if [1, 2, 4, 8].contains (bits v 9 6) then some (bits v 9 6) else none)]
  else if off = 0x00180008 ∨ off = 0x001A0008 then some [(0x050 * 8 + 5, some (max 100 (min 1000000 (bits v 19 0))))]
  else if 0x001C1000 ≤ off ∧ off < 0x001C3000 ∧ off % 0x200 = 8 then
    some [((0x020 + (off - 0x001C1000) / 0x200) * 8, some (bits v 23 0))]
  else
    match fuseAt off with
    | some (d, g, r) =>
      if (fgroup g s).home ≠ d then none
      else if r = 0 then some [((0x040 + g) * 8, if 2 ≤ bits v 11 8 ∧ bits v 11 8 ≤ 8 then some (bits v 11 8) else none)]
      else if r = 4 then some [((0x040 + g) * 8 + 1, some (min 100000 (bits v 16 0)))]
      else none
    | none =>
      match sensAt off s with
      | some n => if sensReg off = 0x18 then some [((0x080 + n) * 8, some (min 100000000 (bits v 26 0)))] else none
      | none => none

/-- Stage one field. -/
def stageField (f : RwsField) (s : State) : State :=
  match f.2 with
  | none => s
  | some v => modPat (fun p => { p with shadow := tset none f.1 (some v) p.shadow }) s

/-- The group of a register's RWS fields. -/
def fieldsGroup (fs : List RwsField) : Nat := ((fs.head?).map (fun f => f.1 / 8)).getD 0

/-- The W1C bits of STRM_CFG, and LIMIT_REJ with its NOTE for a refused credit limit (R219). -/
def strmCfgBits (off v : Nat) (staged armed : Bool) (s : State) : State :=
  if off < 0x00031000 ∨ 0x00035000 ≤ off then s
  else
    let n := (off - 0x00031000) / 0x40
    let s1 := modStrm n (fun x => { x with
      cfgBusy := x.cfgBusy && !bit v 5, limitRej := x.limitRej && !bit v 6, consErr := x.consErr && !bit v 7 }) s
    if staged ∨ armed then s1 else latchWrite 0 off (modStrm n (fun x => { x with limitRej := true }) s1)

/-- RWS_WRITE (R109, R113): the value is staged, or ignored when its group is in an ARMED or TAKING engine. -/
def rwsWrite (off v : Nat) (s : State) : State :=
  match (if offBlocked off s then none else rwsFields off v s) with
  | none => s
  | some fs =>
    let g := fieldsGroup fs
    if groupArmed (fun _ => true) g s then
      let s1 := (List.range 4).foldl (fun a e =>
        if engBusy (engine e s) ∧ (engine e s).groups.contains g then modEngine e (fun x => { x with writeArmed := true }) a else a) s
      strmCfgBits off v false true (latchWrite (offHalf off) off s1)
    else strmCfgBits off v (fs.all (fun f => f.2.isSome)) false (fs.foldl (fun a f => stageField f a) s)

def execRwsWrite (t off value : Nat) (s : State) : Outcome State Fault Refusal := .next (rwsWrite off value (advanceTo t s))

/-! ### Block seams (R111) -/

/-- The block of a group that the pattern declares is isolated and not placed again. -/
def groupIsolated (g : Nat) (s : State) : Bool :=
  if 0x400 ≤ g then
    let m := mitten (g - 0x400) s
    m.bound && (!stackAvail m.stack s || m.every.any (fun k => !quadAvail (k / 4) s))
  else if 0x080 ≤ g ∧ g ≤ 0x0AF then
    let x := tget ({} : SensStream) (g - 0x080) s.sense.streams
    x.declared && isIso (if x.eth then 0x28 + x.port else 0x20 + x.port) s
  else if 0x020 ≤ g ∧ g ≤ 0x02F then (lslot (g - 0x020) s).declared && isIso (0x40 + (g - 0x020) / 8) s
  else if 0x040 ≤ g ∧ g ≤ 0x04F then (fgroup (g - 0x040) s).declared && !dieUp (fgroup (g - 0x040) s).home s
  else false

/-- The trace event of a switch (kind 0x30). -/
def traceSwitch (e : Nat) (s : State) : State := traceEv 0 0xE1 0x30 (e % 4) s

/-- Every group has taken its seam: the engine is DONE. -/
def finishBlocks (e : Nat) (s : State) : State :=
  if (engine e s).left.isEmpty then
    traceSwitch e (modEngine e (fun x => { x with st := 3, done := stamp (liveDie 0 s) s, groups := [] }) s)
  else s

/-- BLOCK_SEAM (R111): a block between work items takes its group's pending values. -/
def blockSeam (e g : Nat) (s : State) : State :=
  let x := engine e s
  if 4 ≤ e ∨ x.st ≠ 1 ∨ x.stamp ≠ 0 ∨ !x.left.contains g ∨ groupWorks g s ∨ groupIsolated g s then s
  else finishBlocks e (switchGroup g (modEngine e (fun y => { y with left := y.left.filter (· != g) }) s))

def execBlockSeam (t engine group : Nat) (s : State) : Outcome State Fault Refusal := .next (blockSeam engine group (advanceTo t s))

/-! ### Global seams (R112) -/

/-- Dies whose route tables are among the groups begin to drain (R42). -/
def drainGroups (gs : List Nat) (s : State) : State := (gs.filter (· < 4)).foldl (fun a k => drainDie k a) s

/-- GLOBAL_SEAM_STAMP (R112): the stamp is reached; no block of the groups starts a new work item. -/
def globalStamp (e : Nat) (s : State) : State :=
  let x := engine e s
  if 4 ≤ e ∨ x.st ≠ 1 ∨ x.stamp = 0 ∨ stamp (liveDie 0 s) s < x.stamp then s
  else drainGroups x.groups (modEngine e (fun y => { y with st := 2, takingAt := s.time.now, withdrawn := 0 }) s)

def execGlobalSeamStamp (t engine : Nat) (s : State) : Outcome State Fault Refusal := .next (globalStamp engine (advanceTo t s))

/-- The seam under a number: an engine's, or the patch's under 4: groups, beginning, limit in µs; none when not TAKING. -/
def takingSeam (e : Nat) (s : State) : Option (List Nat × Nat × Nat) :=
  if e < 4 then
    let x := engine e s
    if x.st = 2 then some (x.groups, x.takingAt, x.limitUs) else none
  else
    match s.pat.job with
    | none => none
    | some j => if j.stage = 4 then some (j.groups, j.takingAt, s.pat.limitUs) else none

/-- The count of withdrawn work items (SEAM_STATUS, PATTERN_PATCH). -/
def noteWithdrawn (e n : Nat) (s : State) : State :=
  if e < 4 then modEngine e (fun x => { x with withdrawn := satAdd 16 x.withdrawn n }) s
  else modPat (fun p => { p with withdrawn := satAdd 15 p.withdrawn n }) s

/-- SEAM_LIMIT_EXPIRE (R112, R475): the limit has passed; blocks still in a work item abandon it. -/
def seamExpire (e : Nat) (s : State) : State :=
  match takingSeam e s with
  | none => s
  | some (gs, at_, lim) =>
    if s.time.now < at_ + clampLimit lim * 1000 then s
    else
      let r := withdrawGroups e gs s
      noteWithdrawn e r.2 r.1

def execSeamLimitExpire (t engine : Nat) (s : State) : Outcome State Fault Refusal := .next (seamExpire engine (advanceTo t s))

/-- GLOBAL_SEAM_SWITCH (R112, R116): every block holds, and all groups switch at a whole microsecond; at any other instant
nothing switches yet. -/
def globalSwitch (e : Nat) (s : State) : State :=
  match takingSeam e s, wholeMicro s with
  | some (gs, _, _), some at_ =>
    if gs.any (fun g => groupWorks g s) then s
    else if e < 4 then
      let s1 := gs.foldl (fun a g => switchGroup g a) s
      traceSwitch e (modPat (fun p => { p with seamEnd := s.time.now })
        (modEngine e (fun x => { x with st := 3, done := at_, groups := [], left := [] }) s1))
    else
      match s.pat.job with
      | none => s
      | some j => patchSwitch j s
  | _, _ => s

def execGlobalSeamSwitch (t engine : Nat) (s : State) : Outcome State Fault Refusal :=
  .next (globalSwitch engine (advanceTo t s))

end Sys2Proof.Machine
end

