-- ==== Sys2Proof/Machine/Regs.lean ====
section
/-!
DEFINITION. Writes of BAR0 (R11 to R14, R469 to R471): REGISTER_WRITE writes any register, and the registers and fields that
have rows of their own through the operations of those rows.
-/

namespace Sys2Proof.Machine

open Host (Outcome)

/-! ### Conditions under which a block is idle (R12) -/

/-- A stream is idle: no landing awaits a verdict and OUTSTANDING = 0. -/
def strmIdle (n : Nat) (s : State) : Bool :=
  !s.led.intake.any (fun l => l.window == n) && decide ((strm n s).outstanding = 0)

/-- Every stream is idle. -/
def strmsIdle (s : State) : Bool :=
  s.led.intake.isEmpty && s.led.strm.all (fun e => decide (e.2.outstanding = 0))

/-- None of the streams of a CSI port is in a frame. -/
def csiIdle (p : Nat) (s : State) : Bool := (csiStreams p (fun x => x.inFrame) s).isEmpty

/-- Both queues of a channel are empty; a refresh is one step of this model. -/
def ddrIdle (ch : Nat) (s : State) : Bool :=
  let c := chan ch s
  c.reads.isEmpty && c.writes.isEmpty && c.flight.isEmpty

/-- A port has no BAR2 request in flight: no controller queues or reads one of its. -/
def bar2Idle (p : Nat) (s : State) : Bool :=
  s.ddr.ch.all (fun e => (e.2.reads ++ e.2.flight ++ e.2.writes.flatMap DdrWrite.waiters).all (fun r => r.who != .host p)
    && e.2.writes.all (fun w => w.who != .host p))

/-! ### 64-bit RW registers (R471) -/

/-- The RW registers that are 64 bits wide, with the instance they belong to. -/
inductive WideReg where
  | wakeStamp | calAddr | timeStep
  | traceCopy (die : Nat)
  | rcptBase
  | outBase (stream : Nat)
  | loadAddr | loadStamp
  | seamStamp (engine : Nat)
  | faultRing
  | evtBase (die : Nat)
  | wmBase | peerMac | fmMac
  | hrBase (port ring : Nat)
  deriving DecidableEq, Repr

/-- A register without a CFG_BUSY bit of its block keeps none: only the NOTE is raised. -/
def noBusyBit (s : State) : State := s

/-- STRM_CFG.CFG_BUSY. -/
def strmCfgBusy (n : Nat) (s : State) : State := modStrm n (fun x => { x with cfgBusy := true }) s

/-- One frame-path ring of a port: 0 transmit, 1 receive. -/
def hrRing (e r : Nat) (s : State) : HrRing := if r = 0 then (eport e s).tx else (eport e s).rx

/-- Change a frame-path ring. -/
def modRing (e r : Nat) (f : HrRing → HrRing) (s : State) : State :=
  modEth e (fun p => if r = 0 then { p with tx := f p.tx } else { p with rx := f p.rx }) s

/-- The port and register offset of an offset in the ETH blocks. -/
def ethAt (off : Nat) : Option (Nat × Nat) :=
  if 0x000E0000 ≤ off ∧ off < 0x000F0000 then some ((off - 0x000E0000) / 0x4000, off % 0x4000) else none

/-- The 64-bit RW register at an offset, if one begins there. -/
def wideReg (b : Nat) : Option WideReg :=
  if b = 0x00000038 then some .wakeStamp
  else if b = 0x00010068 then some .calAddr
  else if b = 0x00020010 then some .timeStep
  else if b = 0x00020108 ∨ b = 0x00020148 then some (.traceCopy ((b - 0x00020108) / 0x40))
  else if b = 0x00030008 then some .rcptBase
  else if 0x00031000 ≤ b ∧ b < 0x00035000 ∧ b % 0x40 = 0x18 then some (.outBase ((b - 0x00031000) / 0x40))
  else if b = 0x00040000 then some .loadAddr
  else if b = 0x00040010 then some .loadStamp
  else if 0x00040100 ≤ b ∧ b < 0x00040500 ∧ b % 0x100 = 0 then some (.seamStamp ((b - 0x00040100) / 0x100))
  else if b = 0x00050018 then some .faultRing
  else if b = 0x00100000 ∨ b = 0x00140000 then some (.evtBase ((b - 0x00100000) / 0x40000))
  else if b = 0x00200010 then some .wmBase
  else if b = 0x00200040 then some .peerMac
  else if b = 0x00200048 then some .fmMac
  else
    match ethAt b with
    | none => none
    | some (e, r) => if r = 0x300 ∨ r = 0x320 then some (.hrBase e ((r - 0x300) / 0x20)) else none

/-- The value a 64-bit RW register holds. -/
def wideCur (w : WideReg) (s : State) : Nat :=
  match w with
  | .wakeStamp => s.power.wakeStamp
  | .calAddr => s.crown.calAddr
  | .timeStep => uenc 64 s.time.stepDelta
  | .traceCopy d => (trace d s).copyAddr
  | .rcptBase => s.led.rcptBase
  | .outBase n => (strm n s).outBase
  | .loadAddr => s.pat.addr
  | .loadStamp => s.pat.loadStamp
  | .seamStamp e => (engine e s).stamp
  | .faultRing => s.fault.ringBase
  | .evtBase d => (evtRing d s).base
  | .wmBase => s.host.wmBase
  | .peerMac => s.host.peerMac
  | .fmMac => s.host.fmMac
  | .hrBase e r => (hrRing e r s).base

/-- A 64-bit RW register takes a value; `off` is the offset written (R12). -/
def wideSet (w : WideReg) (off v : Nat) (s : State) : State :=
  match w with
  | .wakeStamp => { s with power := { s.power with wakeStamp := v } }
  | .calAddr => rwWrite (!s.crown.calBusy) off crownCfgBusy (modCrown (fun c => { c with calAddr := v })) s
  | .timeStep => { s with time := { s.time with stepDelta := sext 64 v } }
  | .traceCopy d =>
    rwWrite (!(trace d s).busy) off timeCfgBusy (fun z => setTrace d { trace d z with copyAddr := v } z) s
  | .rcptBase => rwWrite (strmsIdle s) off noBusyBit (fun z => { z with led := { z.led with rcptBase := v } }) s
  | .outBase n => rwWrite (strmIdle n s) off (strmCfgBusy n) (modStrm n (fun x => { x with outBase := v })) s
  | .loadAddr => rwWrite (!loaderBusy s) off patCfgBusy (modPat (fun p => { p with addr := v })) s
  | .loadStamp => rwWrite (!loaderBusy s) off patCfgBusy (modPat (fun p => { p with loadStamp := v })) s
  | .seamStamp e => rwWrite (!engBusy (engine e s)) off patCfgBusy (modEngine e (fun x => { x with stamp := v })) s
  | .faultRing =>
    rwWrite (!s.fault.ringEnable) off noBusyBit (fun z => { z with fault := { z.fault with ringBase := v } }) s
  | .evtBase d => rwWrite (!(evtRing d s).enable) off noBusyBit (modEvt d (fun x => { x with base := v })) s
  | .wmBase => { s with host := { s.host with wmBase := v } }
  | .peerMac => { s with host := { s.host with peerMac := v % 2 ^ 48 } }
  | .fmMac => { s with host := { s.host with fmMac := v % 2 ^ 48 } }
  | .hrBase e r => rwWrite (!(hrRing e r s).enable) off noBusyBit (modRing e r (fun x => { x with base := v })) s

/-- A write of the half of a 64-bit register: the other half stays (R471). -/
def writeHalf (high : Bool) (off v : Nat) (w : WideReg) (s : State) : State :=
  wideSet w off (if high then wideCur w s % 2 ^ 32 + v * 2 ^ 32 else wideCur w s / 2 ^ 32 * 2 ^ 32 + v) s

/-! ### 32-bit registers, block by block -/

/-- W1C: a written 1 clears. -/
def w1c (old : Bool) (v i : Nat) : Bool := old && !bit v i

/-- The mailbox and control registers of the MOD block, and the mailbox buffers. -/
def writeMod (off v : Nat) (s : State) : State :=
  if off = 0x30 then pwrCtrlWrite v s
  else if off = 0x110 ∨ off = 0x150 then
    let i := (off - 0x110) / 0x40
    let s1 := modMbx i (fun m => { m with vector := bits v 5 1, port := bits v 6 6, irq := bit v 7 }) s
    if bit v 0 then mbxSend i s1 else s1
  else if off = 0x114 ∨ off = 0x154 then
    modMbx ((off - 0x114) / 0x40) (fun m => { m with done := w1c m.done v 1, sendErr := w1c m.sendErr v 2 }) s
  else if 0x4000 ≤ off ∧ off < 0x8000 ∧ off % 0x2000 < 0x1000 then
    modMbx ((off - 0x4000) / 0x2000) (fun m => { m with inBuf := wrLe m.inBuf (off % 0x1000) 4 v }) s
  else s

/-- The CROWN block. -/
def writeCrown (off v : Nat) (s : State) : State :=
  if off = 0x00010000 then modCrown (fun c => { c with cfgBusy := w1c c.cfgBusy v 6 }) s
  else if off = 0x0001000C then rwsWrite off v s
  else if off = 0x00010070 then calWrite v s
  else s

/-- TIME_CFG (R311): while AGENT = 1 a change of any field but AGENT falls under R12. -/
def timeCfgWrite (v : Nat) (s : State) : State :=
  let same := bit v 1 == s.time.source && bits v 3 2 == s.time.port && bits v 5 4 == s.time.altPort
  let s1 := if same then s
    else rwWrite (!s.time.agentOn) 0x00020024 timeCfgBusy
      (fun z => { z with time := { z.time with source := bit v 1, port := bits v 3 2, altPort := bits v 5 4 } }) s
  timeAgentWrite (bit v 0) s1

/-- The TIME block. -/
def writeTime (off v : Nat) (s : State) : State :=
  if off = 0x0002000C then
    { s with time := { s.time with
        stepRej := w1c s.time.stepRej v 4, stepBusy := w1c s.time.stepBusy v 5
        rateClamp := w1c s.time.rateClamp v 6, cfgBusy := w1c s.time.cfgBusy v 8 } }
  else if off = 0x00020018 then (if bit v 0 then timeStepRequest s else s)
  else if off = 0x0002001C then rateWrite v s
  else if off = 0x00020024 then timeCfgWrite v s
  else if off = 0x00020028 then
    rwWrite (!s.time.agentOn) off timeCfgBusy (fun z => { z with time := { z.time with stepTh := v } }) s
  else if off = 0x0002002C then
    rwWrite (!s.time.agentOn) off timeCfgBusy (fun z => { z with time := { z.time with limit := v } }) s
  else if off = 0x00020100 ∨ off = 0x00020140 then
    setTrace ((off - 0x00020100) / 0x40) { trace ((off - 0x00020100) / 0x40) s with mask := v % 256 } s
  else if off = 0x00020110 ∨ off = 0x00020150 then traceCopyGo ((off - 0x00020110) / 0x40) v s
  else s

/-- STRM_OUT_CFG: SIZE_LOG2 outside 4 to 12 is taken as 4. -/
def outCfgWrite (n off v : Nat) (s : State) : State :=
  let l := bits v 3 0
  rwWrite (strmIdle n s) off (strmCfgBusy n)
    (modStrm n (fun x => { x with
      sizeLog2 := if 4 ≤ l ∧ l ≤ 12 then l else 4, vector := bits v 8 4, port := bits v 9 9
      coalCnt := bits v 23 16, coalUs := bits v 31 24 })) s

/-- The LEDGER block. -/
def writeLedger (off v : Nat) (s : State) : State :=
  if off = 0x00030010 then
    rwWrite (strmsIdle s) off noBusyBit
      (fun z => { z with led := { z.led with
        rcptVector := bits v 4 0, irqRej := bit v 5, rcptPort := bits v 6 6, rcptEnable := bit v 7 } }) s
  else if 0x00031000 ≤ off ∧ off < 0x00035000 then
    let n := (off - 0x00031000) / 0x40
    if off % 0x40 = 0 then rwsWrite off v s
    else if off % 0x40 = 0x20 then outCfgWrite n off v s
    else if off % 0x40 = 0x28 then consWrite n v s
    else s
  else s

/-- A write of SEAM_CTRL: one command, or a NOTE for several (R113). -/
def seamCtrlWrite (e v : Nat) (s : State) : State :=
  if manyBits v then latchWrite 0 (seamCtrlOff e) s
  else if bit v 0 then seamArm e v s
  else if bit v 1 then seamCancel e v s
  else seamDiscard e v s

/-- The registers of seam engine `e` at offset `r` in its range. -/
def writeEngine (e r off v : Nat) (s : State) : State :=
  let set := fun (f : SeamEngine → SeamEngine) => rwWrite (!engBusy (engine e s)) off patCfgBusy (modEngine e f) s
  if r = 0x08 then seamCtrlWrite e v s
  else if r = 0x0C then modEngine e (fun x => { x with writeArmed := w1c x.writeArmed v 3 }) s
  else if r = 0x18 then set (fun x => { x with limitUs := clampLimit (bits v 16 0) })
  else if 0x40 ≤ r ∧ r < 0x80 then
    set (fun x => { x with sel := tset (0, false) ((r - 0x40) / 4) (bits v 11 0, bit v 31) x.sel })
  else s

/-- The PATTERN block. -/
def writePattern (off v : Nat) (s : State) : State :=
  let load := fun (f : PatternState → PatternState) => rwWrite (!loaderBusy s) off patCfgBusy (modPat f) s
  if off = 0x00040008 then load (fun p => { p with len := v })
  else if off = 0x0004000C then (if bit v 0 then goWrite v s else loadCtrlFields v s)
  else if off = 0x00040018 then load (fun p => { p with limitUs := clampLimit (bits v 16 0) })
  else if off = 0x00040020 then
    modPat (fun p => { p with cfgBusy := w1c p.cfgBusy v 4, shadowLost := w1c p.shadowLost v 6 }) s
  else if 0x00040100 ≤ off ∧ off < 0x00040500 then writeEngine ((off - 0x00040100) / 0x100) (off % 0x100) off v s
  else s

/-- The FAULT block. -/
def writeFault (off v : Nat) (s : State) : State :=
  if off = 0x00050020 then
    { s with fault := { s.fault with
        ringVector := bits v 4 0, ringPort := bits v 5 5, ringEnable := bit v 6, ringMinSev := bits v 8 7 } }
  else s

/-- DDR_CFG: watermarks that break their ranges leave the whole write without effect; WCRC_RETRY 0 is taken as 1. -/
def ddrCfgWrite (ch off v : Nat) (s : State) : State :=
  let hi := bits v 5 0
  let lo := bits v 11 6
  rwWrite (ddrIdle ch s) off (modChan ch (fun c => { c with cfgBusy := true }))
    (fun z => if hi < 8 ∨ hi ≤ lo then z
      else modChan ch (fun c => { c with
        wmHigh := hi, wmLow := lo, pdIdle := bits v 19 12, srIdle := bits v 27 20, wcrcRetry := max 1 (bits v 30 28) }) z) s

/-- The DDR blocks. -/
def writeDdr (off v : Nat) (s : State) : State :=
  let ch := (off - 0x00080000) / 0x4000
  let r := off % 0x4000
  if r = 0 then modChan ch (fun c => { c with cfgBusy := w1c c.cfgBusy v 4 }) s
  else if r = 4 then ddrCfgWrite ch off v s
  else if r = 8 then
    rwWrite (ddrIdle ch s) off (modChan ch (fun c => { c with cfgBusy := true }))
      (modChan ch (fun c => { c with periodH := max 1 (min 168 (bits v 7 0)), scrubOn := bit v 8 })) s
  else s

/-- CSI_CTRL; LANES 0b11 is reserved and leaves LANES as it stands. -/
def csiCtrlWrite (p off v : Nat) (s : State) : State :=
  rwWrite (csiIdle p s) off (modCsi p (fun c => { c with cfgBusy := true }))
    (modCsi p (fun c => { c with lanes := if bits v 1 0 = 3 then c.lanes else bits v 1 0, deskew := bit v 2 }))
    (modCsi p (fun c => { c with cfgBusy := w1c c.cfgBusy v 3 }) s)

/-- The CSI blocks. -/
def writeCsi (off v : Nat) (s : State) : State :=
  if off % 0x2000 = 0 then csiCtrlWrite ((off - 0x000C0000) / 0x2000) off v s else rwsWrite off v s

/-- ETH_HR_CFG: SIZE_LOG2 outside 4 to 12 is taken as 4; a transmit ring that comes into use is served. -/
def hrCfgWrite (e r v : Nat) (s : State) : State :=
  let l := bits v 3 0
  let s1 := modRing e r (fun x => { x with
    sizeLog2 := if 4 ≤ l ∧ l ≤ 12 then l else 4, vector := bits v 8 4, port := bits v 9 9, enable := bit v 10 }) s
  if r = 0 then hostServe e s1 else s1

/-- The registers of one ETH port. -/
def writeEthPort (e r off v : Nat) (s : State) : State :=
  if r = 0x214 then txtsPop e v s
  else if r = 0x218 then modEth e (fun p => { p with ovf := w1c p.ovf v 6 }) s
  else if r = 0x21C then
    rwWrite (!(eport e s).link) off noBusyBit (modEth e (fun p => { p with asym := sext 16 v })) s
  else if r = 0x308 ∨ r = 0x328 then hrCfgWrite e ((r - 0x308) / 0x20) v s
  else if r = 0x30C then ethTxProduce e v s
  else if r = 0x32C then modRing e 1 (fun x => { x with prod := v % 65536 }) s
  else rwsWrite off v s

/-- The ETH blocks. -/
def writeEth (off v : Nat) (s : State) : State :=
  match ethAt off with
  | none => s
  | some (e, r) => writeEthPort e r off v s

/-- The FUSE blocks: the event ring, and the records of groups on their home die. -/
def writeFuse (off v : Nat) (s : State) : State :=
  if off = 0x00100008 ∨ off = 0x00140008 then
    modEvt ((off - 0x00100008) / 0x40000) (fun x => { x with
      vector := bits v 4 0, port := bits v 5 5, enable := bit v 6, irq := bit v 7 }) s
  else
    match fuseAt off with
    | none => s
    | some (d, g, r) =>
      if r = 0x18 ∧ (fgroup g s).home = d then modGroup g (fun x => { x with tableLost := w1c x.tableLost v 10 }) s
      else rwsWrite off v s

/-- The PLAN blocks; the writes of a secure planner's registers are those of its shadow fields alone. -/
def writePlan (off v : Nat) (s : State) : State :=
  if off = 0x00180000 ∨ off = 0x001A0000 then
    (if s.plan.secure then s
     else modPdie ((off - 0x00180000) / 0x20000) (fun d => { d with cfgBusy := w1c d.cfgBusy v 1 }) s)
  else rwsWrite off v s

/-- LOOP_MODE: REFUSED is W1C, and REQ asks for a mode (R292). -/
def loopModeWrite (n v : Nat) (s : State) : State :=
  let s1 := modLoop n (fun x => { x with refused := w1c x.refused v 2 }) s
  if bits v 1 0 = 0 then s1 else loopHostReq n (bits v 1 0) s1

/-- The LOOP block; writes to a secure slot are ignored. -/
def writeLoop (off v : Nat) (s : State) : State :=
  if off < 0x001C1000 ∨ 0x001C3000 ≤ off then s
  else
    let n := (off - 0x001C1000) / 0x200
    let r := off % 0x200
    if (lslot n s).secure then s
    else if r = 0 then modLoop n (fun x => { x with cfgBusy := w1c x.cfgBusy v 7 }) s
    else if r = 4 then loopModeWrite n v s
    else if r = 8 then rwsWrite off v s
    else if 0x40 ≤ r ∧ r < 0x60 then loopMan n ((r - 0x40) / 4) v s
    else s

/-- One bit of ATTACH_CTRL. -/
def ctrlBit (v i : Nat) (f : State → State) (s : State) : State := if bit v i then f s else s

/-- ATTACH_CTRL: the commands of its bits, in bit order. -/
def attachCtrl (v : Nat) (s : State) : State :=
  ctrlBit v 5 (attachRestart (bits v 31 16)) (ctrlBit v 4 unredirect (ctrlBit v 3 join (ctrlBit v 2 (fence 1)
    (ctrlBit v 1 resume (ctrlBit v 0 quiesce s)))))

/-- The ATTACH block: its RW fields may be written at any time, but ATTACH_WIN, whose port must have no BAR2 request in flight
(R12). -/
def writeAttach (off v : Nat) (s : State) : State :=
  if off = 0x00200000 then
    { s with host := { s.host with cmdRej := w1c s.host.cmdRej v 11, cfgBusy := w1c s.host.cfgBusy v 12 } }
  else if off = 0x00200004 then attachCtrl v s
  else if off = 0x00200008 then
    { s with host := { s.host with
        vector := bits v 4 0, port := bits v 5 5, failover := bit v 6, irq := bit v 7
        foUs := bits v 23 8, peerToMs := max 2 (min 100 (bits v 31 24)) } }
  else if off = 0x0020000C then { s with host := { s.host with qlimitMs := max 1 (min 10000 (bits v 13 0)) } }
  else if 0x00200020 ≤ off ∧ off < 0x00200040 then
    { s with host := { s.host with hbMask := tset 0 ((off - 0x00200020) / 4) v s.host.hbMask } }
  else if 0x00201000 ≤ off ∧ off < 0x00201080 then
    let p := (off - 0x00201000) / 0x40
    rwWrite (bar2Idle p s) off (fun z => { z with host := { z.host with cfgBusy := true } })
      (modPort p (fun h => { h with win := tset (0, false) (off % 0x40 / 4) (bits v 21 0, bit v 31) h.win })) s
  else s

/-- The MSI-X table of the port written (R448): address, data and the mask bit of an entry. -/
def writeMsix (port off v : Nat) (s : State) : State :=
  let k := (off - 0x00210000) / 16
  let e := tget ({} : MsixEntry) k (hport port s).msix
  let put := fun (x : MsixEntry) => modPort port (fun h => { h with msix := tset {} k x h.msix }) s
  if 0x00210200 ≤ off then s
  else if off % 16 = 0 then put { e with addr := e.addr / 2 ^ 32 * 2 ^ 32 + v }
  else if off % 16 = 4 then put { e with addr := e.addr % 2 ^ 32 + v * 2 ^ 32 }
  else if off % 16 = 8 then put { e with data := v }
  else if bit v 0 then put { e with masked := true }
  else msixUnmask port k s

/-- GLOVE_STATE, GLOVE_PALM and GLOVE_NUM. -/
def writeGlove (off v : Nat) (s : State) : State :=
  let g := (off - 0x00400000) / 0x100
  if off % 0x100 = 0 then modGlove g (fun x => { x with cfgBusy := w1c x.cfgBusy v 5 }) s
  else if off % 0x100 = 0x08 then palmClr g v s
  else if off % 0x100 = 0x28 then gloveNumClr g v s
  else s

/-- LINING_BANK. -/
def writeLining (off v : Nat) (s : State) : State :=
  if off % 0x40 = 0 then liningClr ((off - 0x00460000) / 0x1000) (off % 0x1000 / 0x40) v s else s

/-- A write of the 32-bit register at an offset, by the block of R467. -/
def writeBlock (port off v : Nat) (s : State) : State :=
  if off < 0x00010000 then writeMod off v s
  else if off < 0x00020000 then writeCrown off v s
  else if off < 0x00030000 then writeTime off v s
  else if off < 0x00040000 then writeLedger off v s
  else if off < 0x00050000 then writePattern off v s
  else if off < 0x00060000 then writeFault off v s
  else if off < 0x00080000 then s
  else if off < 0x000B0000 then writeDdr off v s
  else if off < 0x000C0000 then s
  else if off < 0x000D0000 then writeCsi off v s
  else if off < 0x000E0000 then s
  else if off < 0x000F0000 then writeEth off v s
  else if off < 0x00100000 then s
  else if off < 0x00180000 then writeFuse off v s
  else if off < 0x001C0000 then writePlan off v s
  else if off < 0x00200000 then writeLoop off v s
  else if off < 0x00210000 then writeAttach off v s
  else if off < 0x00210800 then writeMsix port off v s
  else if off < 0x00400000 then s
  else if off < 0x00454000 then writeGlove off v s
  else if off < 0x00460000 then s
  else if off < 0x00464000 then writeLining off v s
  else s

/-- A 32-bit write: a half of a 64-bit register, or a 32-bit register; an isolated or stopped block ignores it (R469). -/
def write32 (port off v : Nat) (s : State) : State :=
  if offBlocked off s then s
  else
    match wideReg off, wideReg (off - 4) with
    | some w, _ => writeHalf false off v w s
    | none, some w => writeHalf true off v w s
    | none, none => writeBlock port off v s

/-- A 64-bit write: one 64-bit register, or two 32-bit registers, the lower-addressed first (R14, R471). -/
def write64 (port off v : Nat) (s : State) : State :=
  if offBlocked off s then s
  else
    match wideReg off with
    | some w => wideSet w off v s
    | none => write32 port (off + 4) (v / 2 ^ 32) (write32 port off (v % 2 ^ 32) s)

/-- REGISTER_WRITE (R11 to R14): a BAR0 write of `size` bits through a port; a write that is not a naturally aligned 32-bit or
64-bit access is discarded. -/
def regWrite (port off size v : Nat) (s : State) : State :=
  if !portUp port s ∨ 0x04000000 ≤ off then s
  else if size = 32 ∧ off % 4 = 0 then write32 port off (v % 2 ^ 32) s
  else if size = 64 ∧ off % 8 = 0 then write64 port off (v % 2 ^ 64) s
  else s

def execRegisterWrite (t port off size value : Nat) (s : State) : Outcome State Fault Refusal :=
  .next (regWrite port off size value (advanceTo t s))

end Sys2Proof.Machine
end

