-- ==== Sys2Proof/Machine/Spot.lean ====
section
/-!
DEFINITION. Spot recompute: sampled elements of a frame are recomputed from the frame's inputs on another stack and compared
(R66, R80, R81, R158, R187, R330).
-/

namespace Sys2Proof.Machine

open Host (Outcome)

/-- The operands of a check's operator: constants from their master copies, the others from the frame (R328). -/
def spotIns (o : GOp) (f : ChkFrame) (s : State) : List (Option TVal) :=
  o.ins.mapIdx (fun j t => ((curImage s).tensor t).map (fun x => ⟨x, if x.role = 1 then masterOf t s else frameTok f (2 + j)⟩))

/-- The working format: FP64 for an FP64 output, FP32 otherwise (R80). -/
def spotFmt (g : GTen) : Fmt := laneFmt g

/-- A delivered value matches a recomputed one within a tolerance: a NaN only a NaN, an infinity only one of its sign (R81). -/
def closeTo (y r tol : FVal) : Bool :=
  match y, r with
  | .nan, .nan => true
  | .inf a, .inf b => a == b
  | .fin _ _ _, .fin _ _ _ => FVal.le (y.add r.neg).abs tol
  | _, _ => false

/-- The recomputed value: what a sound recompute forms in the working format, or what a fault put in its place. -/
def spotValue (w : Fmt) (it : SpotItem) (v : FVal) : FVal := (it.again.map w.decode).getD (w.round v)

/-- The recomputed encoding of an output that is exact as encoded. -/
def spotRaw (g : GTen) (it : SpotItem) (bs : List Byte) : Nat :=
  (it.again.map (· % 2 ^ fmtBits g.fmt)).getD (rawElem g.fmt bs it.index)

/-- R80 and R81 for an element: exact equality of an output that is exact as encoded; otherwise the bounds of both sides,
rounded upward (assumption 158), with the split count 1 on the recomputing one, and half an ulp of the output format. -/
def elemMatch (k port : Nat) (o : GOp) (g : GTen) (f : ChkFrame) (it : SpotItem) (s : State) : Bool :=
  let outs := o.outs.filterMap (curImage s).tensor
  let ins := spotIns o f s
  let ours := evalOp true k o ins outs {} s
  let theirs := evalOp false k o ins outs {} s
  let els := fun (r : OpRes) => if port = 0 then r.els else if port = 1 then r.els1 else []
  let w := spotFmt g
  match ours.exact, (els ours)[it.index]?, (els theirs)[it.index]? with
  | false, some e, some d =>
    closeTo (realAt g (frameTok f 0) it.index s) (spotValue w it e.v)
      (((w.up e.b).add (w.up d.b)).add (halfUlp g (frameTok f 0) it.index s))
  | _, _, _ => rawElem g.fmt (frameTok f 0) it.index == spotRaw g it (ours.outs.getD port [])

/-- A matrix handed over, from its encodings row by row. -/
def handed (w : Fmt) (rows cols : Nat) (xs : List Nat) : Mat := mk rows cols (fun r c => w.decode (xs.getD (r * cols + c) 0))

/-- Twice a bound. -/
def twice (m : Mat) : Mat := mscale (unitN 1 1) m

/-- The element of two matrices satisfies `|a| ≤ b`, a formed in FP64 and b rounded upward. -/
def elemLe (a b : Mat) (r c : Nat) : Bool := FVal.le (fp64.round (mget a r c)).abs (fp64.up (mget b r c))

/-- Row, column and system of an element of a batch of matrices. -/
def elemPlace (g : GTen) (i : Nat) : Nat × Nat × Nat := (i / tdim g 0 % tdim g 1, i % tdim g 0, i / (tdim g 0 * tdim g 1))

/-- The matrix and the factors' product that a factorization compares, and the magnitudes of the factors: LU by rows in the
order handed over, or Cholesky. -/
def factorSides (kind : Nat) (a lu : Mat) (rows : List Nat) : Mat × Mat × Mat :=
  if kind = 0 then
    (permute rows a, mmul (lowerOf lu) (upperOf lu), mmul (mabs (lowerOf lu)) (mabs (upperOf lu)))
  else (symUpper a, mmul (mtr (upperOf lu)) (upperOf lu), mmul (mabs (mtr (upperOf lu))) (mabs (upperOf lu)))

/-- LU_SOLVE, CHOL_SOLVE and TRI_SOLVE by residual and factors (R187). A system whose INFO is not 0 is not sampled. -/
def solveMatch (kind : Nat) (o : GOp) (g : GTen) (f : ChkFrame) (it : SpotItem) (s : State) : Bool :=
  let ins := spotIns o f s
  let n := o.p8 0
  let u := lanU g
  let p := elemPlace g it.index
  let a := matOf (inp ins 0) p.2.2 s
  let b := matOf (inp ins 1) p.2.2 s
  let y := matOf ⟨g, frameTok f 0⟩ p.2.2 s
  let m := if kind = 2 then triOf (o.p8 2) a else if kind = 0 then a else symUpper a
  let res := msub b (mmul m y)
  let dim := mscale (gam (n + 1) u) (madd (mabs b) (mmul (mabs m) (mabs y)))
  if it.info ≠ 0 then true
  else if kind = 2 then
    elemLe res (madd (twice (mscale (gam n u) (mmul (mabs m) (mabs y)))) dim) p.1 p.2.1
  else
    let x := factorSides kind a (handed (spotFmt g) n n it.factors) it.rows
    mle (mabs (msub x.1 x.2.1)) (twice (mscale (gam n u) x.2.2))
      && elemLe res (madd (twice (mscale (gam (if kind = 0 then 3 * n else 3 * n + 1) u) (mmul x.2.2 (mabs y)))) dim) p.1 p.2.1

/-- One step of INTEGRATE, recomputed from the delivered state before it (R181, R187). -/
def stepMatch (k : Nat) (o : GOp) (g : GTen) (f : ChkFrame) (it : SpotItem) (s : State) : Bool :=
  let ins := spotIns o f s
  let n := o.p8 4
  let w := spotFmt g
  let u := lanU g
  let c := it.index % n
  let traj := bit (o.p8 1) 0
  let j := if traj then it.index / n % o.p16 2 else 0
  let b := if traj then it.index / n / o.p16 2 else it.index / n
  let at_ := fun (i : Nat) => mk n 1 (fun r _ => realAt g (frameTok f 0) (r + n * (i + (if traj then b * o.p16 2 else b))) s)
  let x := if j = 0 then vecOf (inp ins 0) b s else at_ (j - 1)
  let y := at_ j
  let q := affineOf w o ins b j s
  let near := fun (e : Mat × Mat) =>
    let v := mget e.1 c 0
    let lim := mget e.2 c 0
    closeTo (mget y c 0) (spotValue w it (pick w k it.index v lim)) ((w.up lim).scale2 1)
  if it.info ≠ 0 then true
  else if o.p8 0 = 0 then near (eulerStep u q x)
  else if o.p8 0 = 1 then near (rk4Step w u q x)
  else
    let r := implicitSide u q (methodTheta o) x (handed w n n it.factors)
    elemLe (msub r.1 (mmul (implicitMat q (methodTheta o)) y)) (twice (r.2 (mabs y))) c 0

/-- KALMAN_UPDATE: the gain handed over satisfies R185 twice, and x⁺ or P⁺ is recomputed from it; a skipped update leaves x and
P exactly as they were (R187). -/
def updateMatch (k port : Nat) (o : GOp) (g : GTen) (f : ChkFrame) (it : SpotItem) (s : State) : Bool :=
  let ins := spotIns o f s
  let n := o.p8 0
  let m := o.p8 1
  let w := spotFmt g
  let u := lanU g
  let b := if port = 0 then it.index / n else it.index / (n * n)
  let q : Update := ⟨vecOf (inp ins 0) b s, matOf (inp ins 1) b s, vecOf (inp ins 2) b s, matOf (inp ins 3) b s, matOf (inp ins 4) b s,
    upperOf (handed w m m it.factors)⟩
  let gain := handed w n m it.gain
  let near := fun (e : Mat × Mat) (r c : Nat) =>
    let v := mget e.1 r c
    let lim := mget e.2 r c
    closeTo (realAt g (frameTok f 0) it.index s) (spotValue w it (pick w k it.index v lim)) ((w.up lim).scale2 1)
  if it.info ≠ 0 then rawElem g.fmt (frameTok f 0) it.index == rawElem g.fmt (inp ins port).bytes it.index
  else
    mle (mabs (msub (mmul gain q.sm) (mmul q.p (mtr q.h)))) (twice (q.slack u gain))
      && (if port = 0 then near (q.next u gain) (it.index % n) 0
          else
            let p := q.cov u (bit (o.p8 2) 0) gain
            near (symmetrize wide p.1, symBound w p.1 p.2) (it.index / n % n) (it.index % n))

/-- The delivered element matches its recomputation (R80, R81, R187); output `port` of the operator is judged. -/
def spotMatch (k : Nat) (o : GOp) (g : GTen) (f : ChkFrame) (it : SpotItem) (s : State) : Bool :=
  let port := o.outs.findIdx (fun t => t == g.id)
  match o.opcode with
  | 0x0300 => if port = 0 then solveMatch 0 o g f it s else elemMatch k port o g f it s
  | 0x0301 => if port = 0 then solveMatch 1 o g f it s else elemMatch k port o g f it s
  | 0x0302 => if port = 0 then solveMatch 2 o g f it s else elemMatch k port o g f it s
  | 0x0320 => if port = 0 then stepMatch k o g f it s else elemMatch k port o g f it s
  | 0x0331 => if port < 2 then updateMatch k port o g f it s else port == 3 || elemMatch k port o g f it s
  | _ => elemMatch k port o g f it s

/-- SPOT_RECOMPUTE_DONE (R330): the sampled elements of the oldest full frame were recomputed on the recompute stack, and
are compared; the frame keeps its disagreements. -/
def spotDone (c : Nat) (items : List SpotItem) (s : State) : State :=
  let x := check c s
  match fullFrame c s, spotStack c s, hostIsland x.owner s, (curImage s).tensor x.tensor, (curImage s).op x.op with
  | some f, some k, some i, some g, some o =>
    if x.kind ≠ 5 ∨ f.spot.isSome ∨ sortNat (items.map (·.index)) ≠ sortNat (sampled i c f g.elems)
        ∨ items.any (fun it => it.rquad / 84 != k) then s
    else
      let bad := items.filter (fun it => !spotMatch s.fab.fresh o g f it s)
      modCheck c (fun y => { y with
        rot := k
        frames := y.frames.map (fun z => if z.number = f.number then
          { z with spot := some (bad.map (fun it => (it.quad, it.rquad))) } else z)
        lastQuad := (bad.getLast?.map (·.quad)).getD y.lastQuad
        lastRquad := (bad.getLast?.map (·.rquad)).getD y.lastRquad }) (drawFree s).2
  | _, _, _, _, _ => s

def execSpotRecomputeDone (t chk : Nat) (items : List SpotItem) (s : State) : Outcome State Fault Refusal :=
  .next (spotDone chk items (advanceTo t s))

end Sys2Proof.Machine
end

