-- ==== Sys2Proof/Machine/Dispatch.lean ====
section
/-!
DEFINITION. The command dispatch: one arm per constructor, each one call of its meaning.
-/

namespace Sys2Proof.Machine

def exec (i : Instr) (s : State) : Host.Outcome State Fault Refusal :=
  match i with
  | .mateStage t stage coolant => Sys2Proof.Machine.execMateStage t stage coolant s
  | .inputQualified t mv => Sys2Proof.Machine.execInputQualified t mv s
  | .pgoodRelease t => Sys2Proof.Machine.execPgoodRelease t s
  | .inputVoltageWarn t mv => Sys2Proof.Machine.execInputVoltageWarn t mv s
  | .inputUndervoltageOff t mv ns => Sys2Proof.Machine.execInputUndervoltageOff t mv ns s
  | .inputOvervoltageOff t mv ns => Sys2Proof.Machine.execInputOvervoltageOff t mv ns s
  | .pwrEnLowOff t ns => Sys2Proof.Machine.execPwrEnLowOff t ns s
  | .presenceLossOff t => Sys2Proof.Machine.execPresenceLossOff t s
  | .railOutOfRegulation t half rail => Sys2Proof.Machine.execRailOutOfRegulation t half rail s
  | .refclkLoss t half ppm => Sys2Proof.Machine.execRefclkLoss t half ppm s
  | .ppsInEdge t => Sys2Proof.Machine.execPpsInEdge t s
  | .ppsOutRise t => Sys2Proof.Machine.execPpsOutRise t s
  | .ppsOutFall t => Sys2Proof.Machine.execPpsOutFall t s
  | .packetArrive t place via header payload => Sys2Proof.Machine.execPacketArrive t place via header payload s
  | .tokenArrive t edge => Sys2Proof.Machine.execTokenArrive t edge s
  | .creditReturn t edge => Sys2Proof.Machine.execCreditReturn t edge s
  | .mittenWake t mitten => Sys2Proof.Machine.execMittenWake t mitten s
  | .firingStart t mitten allow => Sys2Proof.Machine.execFiringStart t mitten allow s
  | .firingComplete t mitten => Sys2Proof.Machine.execFiringComplete t mitten s
  | .prefetchCopyDone t mem reader seq stalled => Sys2Proof.Machine.execPrefetchCopyDone t mem reader seq stalled s
  | .liningScrubRead t stack bank err => Sys2Proof.Machine.execLiningScrubRead t stack bank err s
  | .gloveClockGate t glove => Sys2Proof.Machine.execGloveClockGate t glove s
  | .routeTableSwap t stack => Sys2Proof.Machine.execRouteTableSwap t stack s
  | .loadFullGo t value => Sys2Proof.Machine.execLoadFullGo t value s
  | .patchGo t value => Sys2Proof.Machine.execPatchGo t value s
  | .loadVerifyDone t => Sys2Proof.Machine.execLoadVerifyDone t s
  | .loadFitDone t code0 fit0 code1 fit1 => Sys2Proof.Machine.execLoadFitDone t code0 fit0 code1 fit1 s
  | .loadComplete t => Sys2Proof.Machine.execLoadComplete t s
  | .patchStaged t => Sys2Proof.Machine.execPatchStaged t s
  | .patchSeam t => Sys2Proof.Machine.execPatchSeam t s
  | .constantRefillDone t mitten => Sys2Proof.Machine.execConstantRefillDone t mitten s
  | .altComputeDone t alts => Sys2Proof.Machine.execAltComputeDone t alts s
  | .alternateSwitch t => Sys2Proof.Machine.execAlternateSwitch t s
  | .deviceRefitDone t code0 fit0 code1 fit1 => Sys2Proof.Machine.execDeviceRefitDone t code0 fit0 code1 fit1 s
  | .seamArm t engine value => Sys2Proof.Machine.execSeamArm t engine value s
  | .seamCancel t engine value => Sys2Proof.Machine.execSeamCancel t engine value s
  | .seamDiscard t engine value => Sys2Proof.Machine.execSeamDiscard t engine value s
  | .rwsWrite t off value => Sys2Proof.Machine.execRwsWrite t off value s
  | .blockSeam t engine group => Sys2Proof.Machine.execBlockSeam t engine group s
  | .globalSeamStamp t engine => Sys2Proof.Machine.execGlobalSeamStamp t engine s
  | .seamLimitExpire t engine => Sys2Proof.Machine.execSeamLimitExpire t engine s
  | .globalSeamSwitch t engine => Sys2Proof.Machine.execGlobalSeamSwitch t engine s
  | .gloveNumClr t glove value => Sys2Proof.Machine.execGloveNumClr t glove value s
  | .palmCeClr t glove value => Sys2Proof.Machine.execPalmCeClr t glove value s
  | .liningCeClr t stack bank value => Sys2Proof.Machine.execLiningCeClr t stack bank value s
  | .bar4Write t port off bytes ok => Sys2Proof.Machine.execBar4Write t port off bytes ok s
  | .ticketVerdict t home => Sys2Proof.Machine.execTicketVerdict t home s
  | .journalMirrorAck t stream seq => Sys2Proof.Machine.execJournalMirrorAck t stream seq s
  | .ticketInject t stream => Sys2Proof.Machine.execTicketInject t stream s
  | .ticketDeadlineDrop t stream seq => Sys2Proof.Machine.execTicketDeadlineDrop t stream seq s
  | .ticketEnded t stream seq => Sys2Proof.Machine.execTicketEnded t stream seq s
  | .outcomeDeliver t stream => Sys2Proof.Machine.execOutcomeDeliver t stream s
  | .outcomeIrqTimer t stream => Sys2Proof.Machine.execOutcomeIrqTimer t stream s
  | .outcomeConsWrite t stream value => Sys2Proof.Machine.execOutcomeConsWrite t stream value s
  | .ledgerTakeover t die => Sys2Proof.Machine.execLedgerTakeover t die s
  | .csiPacketRx t port corrected pkt => Sys2Proof.Machine.execCsiPacketRx t port corrected pkt s
  | .ethFrameRx t port frame => Sys2Proof.Machine.execEthFrameRx t port frame s
  | .streamStall t stream => Sys2Proof.Machine.execStreamStall t stream s
  | .slotOpen t grp => Sys2Proof.Machine.execSlotOpen t grp s
  | .memberDecide t grp fseq member => Sys2Proof.Machine.execMemberDecide t grp fseq member s
  | .slotWaitLimit t grp fseq => Sys2Proof.Machine.execSlotWaitLimit t grp fseq s
  | .projectionDone t grp fseq => Sys2Proof.Machine.execProjectionDone t grp fseq s
  | .slotEmit t grp fseq => Sys2Proof.Machine.execSlotEmit t grp fseq s
  | .conflictSummaryRx t edge => Sys2Proof.Machine.execConflictSummaryRx t edge s
  | .detectionListRx t edge => Sys2Proof.Machine.execDetectionListRx t edge s
  | .fusionGroupMove t grp => Sys2Proof.Machine.execFusionGroupMove t grp s
  | .mapUpdateBuilt t die used => Sys2Proof.Machine.execMapUpdateBuilt t die used s
  | .mapCommit t die => Sys2Proof.Machine.execMapCommit t die s
  | .planRequestStart t => Sys2Proof.Machine.execPlanRequestStart t s
  | .planSearchEnd t req => Sys2Proof.Machine.execPlanSearchEnd t req s
  | .planDeadline t req done expansions => Sys2Proof.Machine.execPlanDeadline t req done expansions s
  | .planResultSend t chan => Sys2Proof.Machine.execPlanResultSend t chan s
  | .loopTimerTrigger t slot => Sys2Proof.Machine.execLoopTimerTrigger t slot s
  | .loopEval t slot => Sys2Proof.Machine.execLoopEval t slot s
  | .qbvGateEvent t port entry => Sys2Proof.Machine.execQbvGateEvent t port entry s
  | .setpointToken t edge => Sys2Proof.Machine.execSetpointToken t edge s
  | .feedbackToken t edge => Sys2Proof.Machine.execFeedbackToken t edge s
  | .setpointStale t slot => Sys2Proof.Machine.execSetpointStale t slot s
  | .loopTriggerWatchdog t slot => Sys2Proof.Machine.execLoopTriggerWatchdog t slot s
  | .loopReqManual t slot => Sys2Proof.Machine.execLoopReqManual t slot s
  | .loopReqAuto t slot => Sys2Proof.Machine.execLoopReqAuto t slot s
  | .loopReqStop t slot => Sys2Proof.Machine.execLoopReqStop t slot s
  | .loopManWrite t slot j value => Sys2Proof.Machine.execLoopManWrite t slot j value s
  | .islandLoopRecompute t slot ok => Sys2Proof.Machine.execIslandLoopRecompute t slot ok s
  | .timeStepRequest t => Sys2Proof.Machine.execTimeStepRequest t s
  | .alignmentExchange t ok trim => Sys2Proof.Machine.execAlignmentExchange t ok trim s
  | .rateWrite t value => Sys2Proof.Machine.execRateWrite t value s
  | .timeAgentWrite t on => Sys2Proof.Machine.execTimeAgentWrite t on s
  | .gptpSync t port seq twoStep => Sys2Proof.Machine.execGptpSync t port seq twoStep s
  | .gptpFollowUp t port seq origin => Sys2Proof.Machine.execGptpFollowUp t port seq origin s
  | .gptpPdelayReqSend t => Sys2Proof.Machine.execGptpPdelayReqSend t s
  | .gptpPdelayReqRx t port seq => Sys2Proof.Machine.execGptpPdelayReqRx t port seq s
  | .gptpPdelayRespRx t port seq followUp value => Sys2Proof.Machine.execGptpPdelayRespRx t port seq followUp value s
  | .gptpAnnounceRx t port identity priority => Sys2Proof.Machine.execGptpAnnounceRx t port identity priority s
  | .gptpSignalingRx t port => Sys2Proof.Machine.execGptpSignalingRx t port s
  | .gptpSyncTimeout t => Sys2Proof.Machine.execGptpSyncTimeout t s
  | .ethTxtsPop t port value => Sys2Proof.Machine.execEthTxtsPop t port value s
  | .traceCopyGo t die value => Sys2Proof.Machine.execTraceCopyGo t die value s
  | .traceCopyDone t die => Sys2Proof.Machine.execTraceCopyDone t die s
  | .islandHeartbeatCheck t island => Sys2Proof.Machine.execIslandHeartbeatCheck t island s
  | .voterMismatch t island minority => Sys2Proof.Machine.execVoterMismatch t island minority s
  | .coreTestStart t island => Sys2Proof.Machine.execCoreTestStart t island s
  | .coreTestDone t island failed => Sys2Proof.Machine.execCoreTestDone t island failed s
  | .islandMonitorTrip t island => Sys2Proof.Machine.execIslandMonitorTrip t island s
  | .voterInjection t island ok => Sys2Proof.Machine.execVoterInjection t island ok s
  | .checkerInjection t island kind caught => Sys2Proof.Machine.execCheckerInjection t island kind caught s
  | .checkTokenRx t edge => Sys2Proof.Machine.execCheckTokenRx t edge s
  | .spotRecomputeDone t chk items => Sys2Proof.Machine.execSpotRecomputeDone t chk items s
  | .checkVerdict t chk => Sys2Proof.Machine.execCheckVerdict t chk s
  | .checkVerdictTimeout t chk => Sys2Proof.Machine.execCheckVerdictTimeout t chk s
  | .mrtToken t edge => Sys2Proof.Machine.execMrtToken t edge s
  | .mrtAged t island => Sys2Proof.Machine.execMrtAged t island s
  | .deadlineMiss t stream seq => Sys2Proof.Machine.execDeadlineMiss t stream seq s
  | .gloveTestSlice t glove => Sys2Proof.Machine.execGloveTestSlice t glove s
  | .gloveTestSliceDone t glove ok => Sys2Proof.Machine.execGloveTestSliceDone t glove ok s
  | .gloveWithdrawRequest t glove => Sys2Proof.Machine.execGloveWithdrawRequest t glove s
  | .quadWithdrawSeam t quad => Sys2Proof.Machine.execQuadWithdrawSeam t quad s
  | .quadReturnSeam t quad => Sys2Proof.Machine.execQuadReturnSeam t quad s
  | .mbxStatus t island => Sys2Proof.Machine.execMbxStatus t island s
  | .mbxMrtGet t island => Sys2Proof.Machine.execMbxMrtGet t island s
  | .mbxTicket t island => Sys2Proof.Machine.execMbxTicket t island s
  | .mbxOutcomeGet t island => Sys2Proof.Machine.execMbxOutcomeGet t island s
  | .mbxLoopMode t island => Sys2Proof.Machine.execMbxLoopMode t island s
  | .mbxUnblock t island => Sys2Proof.Machine.execMbxUnblock t island s
  | .mbxCheckClear t island => Sys2Proof.Machine.execMbxCheckClear t island s
  | .mbxPatternAuth t island => Sys2Proof.Machine.execMbxPatternAuth t island s
  | .mbxDoneClear t island => Sys2Proof.Machine.execMbxDoneClear t island s
  | .patternAuthExpire t => Sys2Proof.Machine.execPatternAuthExpire t s
  | .faultRaise t col ext => Sys2Proof.Machine.execFaultRaise t col ext s
  | .faultLineBroken t id => Sys2Proof.Machine.execFaultLineBroken t id s
  | .fwFaultAck t src => Sys2Proof.Machine.execFwFaultAck t src s
  | .fwIsolateCmd t src part => Sys2Proof.Machine.execFwIsolateCmd t src part s
  | .reactionTimerExpire t src => Sys2Proof.Machine.execReactionTimerExpire t src s
  | .isolationConfirm t part => Sys2Proof.Machine.execIsolationConfirm t part s
  | .isolationUnconfirmed t part => Sys2Proof.Machine.execIsolationUnconfirmed t part s
  | .safeEnter t col => Sys2Proof.Machine.execSafeEnter t col s
  | .collectorParityError t col => Sys2Proof.Machine.execCollectorParityError t col s
  | .thermalTrip t pair ring raw => Sys2Proof.Machine.execThermalTrip t pair ring raw s
  | .sweepDone t miss => Sys2Proof.Machine.execSweepDone t miss s
  | .sweepTimeout t => Sys2Proof.Machine.execSweepTimeout t s
  | .ddrRequestEnter t addr write who secure => Sys2Proof.Machine.execDdrRequestEnter t addr write who secure s
  | .ddrCommandIssue t ch ready => Sys2Proof.Machine.execDdrCommandIssue t ch ready s
  | .ddrReadDecode t ch errs => Sys2Proof.Machine.execDdrReadDecode t ch errs s
  | .ddrScrubRead t ch errs => Sys2Proof.Machine.execDdrScrubRead t ch errs s
  | .ddrCaParityError t ch back => Sys2Proof.Machine.execDdrCaParityError t ch back s
  | .ddrWriteCrcError t ch line => Sys2Proof.Machine.execDdrWriteCrcError t ch line s
  | .ddrControllerParity t ch => Sys2Proof.Machine.execDdrControllerParity t ch s
  | .ddrRefreshDue t ch => Sys2Proof.Machine.execDdrRefreshDue t ch s
  | .ddrRefreshWatchdog t ch => Sys2Proof.Machine.execDdrRefreshWatchdog t ch s
  | .ddrTempRead t ch deg => Sys2Proof.Machine.execDdrTempRead t ch deg s
  | .ddrZqcs t ch => Sys2Proof.Machine.execDdrZqcs t ch s
  | .ddrPowerDownEnter t ch => Sys2Proof.Machine.execDdrPowerDownEnter t ch s
  | .ddrSelfRefreshEnter t ch => Sys2Proof.Machine.execDdrSelfRefreshEnter t ch s
  | .ddrTrainingDone t ch ok seeds step device us => Sys2Proof.Machine.execDdrTrainingDone t ch ok seeds step device us s
  | .retainRequest t value => Sys2Proof.Machine.execRetainRequest t value s
  | .retainEntered t => Sys2Proof.Machine.execRetainEntered t s
  | .retainWakeStamp t => Sys2Proof.Machine.execRetainWakeStamp t s
  | .retainExitDone t => Sys2Proof.Machine.execRetainExitDone t s
  | .stateHoldExpire t => Sys2Proof.Machine.execStateHoldExpire t s
  | .crownPowerSample t mw => Sys2Proof.Machine.execCrownPowerSample t mw s
  | .crownThrottleUpdate t above forecast => Sys2Proof.Machine.execCrownThrottleUpdate t above forecast s
  | .crownThermalRead t readings => Sys2Proof.Machine.execCrownThermalRead t readings s
  | .shadowCrownTakeover t => Sys2Proof.Machine.execShadowCrownTakeover t s
  | .trayI3cRead t ack bytes => Sys2Proof.Machine.execTrayI3cRead t ack bytes s
  | .trayI3cWrite t ok => Sys2Proof.Machine.execTrayI3cWrite t ok s
  | .trayStale t => Sys2Proof.Machine.execTrayStale t s
  | .coolHoldQuiesced t => Sys2Proof.Machine.execCoolHoldQuiesced t s
  | .coolHoldExit t => Sys2Proof.Machine.execCoolHoldExit t s
  | .coolantLowClear t => Sys2Proof.Machine.execCoolantLowClear t s
  | .lifeMinute t => Sys2Proof.Machine.execLifeMinute t s
  | .lifeLogWrite t => Sys2Proof.Machine.execLifeLogWrite t s
  | .ageingRead t die degrade => Sys2Proof.Machine.execAgeingRead t die degrade s
  | .calWrite t value => Sys2Proof.Machine.execCalWrite t value s
  | .calWriteDone t ok => Sys2Proof.Machine.execCalWriteDone t ok s
  | .bootRomDone t => Sys2Proof.Machine.execBootRomDone t s
  | .firmwareSelect t repairOk => Sys2Proof.Machine.execFirmwareSelect t repairOk s
  | .mgmtFragmentRx t island src dst bytes => Sys2Proof.Machine.execMgmtFragmentRx t island src dst bytes s
  | .mgmtReassemblyTimeout t island => Sys2Proof.Machine.execMgmtReassemblyTimeout t island s
  | .mgmtIdentity t island => Sys2Proof.Machine.execMgmtIdentity t island s
  | .mgmtAttest t island => Sys2Proof.Machine.execMgmtAttest t island s
  | .mgmtEnroll t island => Sys2Proof.Machine.execMgmtEnroll t island s
  | .mgmtRevoke t island => Sys2Proof.Machine.execMgmtRevoke t island s
  | .mgmtSetFloor t island => Sys2Proof.Machine.execMgmtSetFloor t island s
  | .mgmtFirmware t island => Sys2Proof.Machine.execMgmtFirmware t island s
  | .mgmtStore t island => Sys2Proof.Machine.execMgmtStore t island s
  | .flashWriteDone t ok => Sys2Proof.Machine.execFlashWriteDone t ok s
  | .hostLinkUp t port => Sys2Proof.Machine.execHostLinkUp t port s
  | .hostLinkDown t port orderly flight => Sys2Proof.Machine.execHostLinkDown t port orderly flight s
  | .portFailover t port => Sys2Proof.Machine.execPortFailover t port s
  | .perstAssert t port flight => Sys2Proof.Machine.execPerstAssert t port flight s
  | .perstDeassert t port => Sys2Proof.Machine.execPerstDeassert t port s
  | .bar2Access t port off write len ok => Sys2Proof.Machine.execBar2Access t port off write len ok s
  | .hostReadCompletion t port who status => Sys2Proof.Machine.execHostReadCompletion t port who status s
  | .hostCompletionTimeout t port who => Sys2Proof.Machine.execHostCompletionTimeout t port who s
  | .msixUnmask t port vector => Sys2Proof.Machine.execMsixUnmask t port vector s
  | .ethTxProduce t port prod => Sys2Proof.Machine.execEthTxProduce t port prod s
  | .attachQuiesce t => Sys2Proof.Machine.execAttachQuiesce t s
  | .quiesceLimit t => Sys2Proof.Machine.execQuiesceLimit t s
  | .quiesceComplete t => Sys2Proof.Machine.execQuiesceComplete t s
  | .attachResume t => Sys2Proof.Machine.execAttachResume t s
  | .attachFence t => Sys2Proof.Machine.execAttachFence t s
  | .attachJoin t => Sys2Proof.Machine.execAttachJoin t s
  | .attachUnredirect t => Sys2Proof.Machine.execAttachUnredirect t s
  | .attachRestart t key => Sys2Proof.Machine.execAttachRestart t key s
  | .heartbeatSend t => Sys2Proof.Machine.execHeartbeatSend t s
  | .heartbeatRx t bytes => Sys2Proof.Machine.execHeartbeatRx t bytes s
  | .peerHeartbeatTimeout t => Sys2Proof.Machine.execPeerHeartbeatTimeout t s
  | .beaconSend t island => Sys2Proof.Machine.execBeaconSend t island s
  | .lease t island dst bytes => Sys2Proof.Machine.execLease t island dst bytes s
  | .fenceFrame t island dst bytes => Sys2Proof.Machine.execFenceFrame t island dst bytes s
  | .restartFrame t island dst bytes => Sys2Proof.Machine.execRestartFrame t island dst bytes s
  | .wakeFrame t island dst bytes => Sys2Proof.Machine.execWakeFrame t island dst bytes s
  | .leaseGrace t => Sys2Proof.Machine.execLeaseGrace t s
  | .leaseExpire t => Sys2Proof.Machine.execLeaseExpire t s
  | .registerWrite t port off size value => Sys2Proof.Machine.execRegisterWrite t port off size value s
  | .ethLinkDown t port => Sys2Proof.Machine.execEthLinkDown t port s
  | .ethLinkUp t port fast => Sys2Proof.Machine.execEthLinkUp t port fast s
  | .csiLinkLost t port => Sys2Proof.Machine.execCsiLinkLost t port s
  | .d3hotEntry t port flight => Sys2Proof.Machine.execD3hotEntry t port flight s
  | .d3hotExit t port => Sys2Proof.Machine.execD3hotExit t port s
  | .adminBaseTime t port base cycle list => Sys2Proof.Machine.execAdminBaseTime t port base cycle list s
  | .testIntervalPassed t glove => Sys2Proof.Machine.execTestIntervalPassed t glove s
  | .plannerTestInjection t unit ok => Sys2Proof.Machine.execPlannerTestInjection t unit ok s
  | .projectionRecompute t unit ok => Sys2Proof.Machine.execProjectionRecompute t unit ok s
  | .rateDriftCheck t island ok => Sys2Proof.Machine.execRateDriftCheck t island ok s
  | .patternStoreRead t => Sys2Proof.Machine.execPatternStoreRead t s
  | .biasHoldLoss t mv => Sys2Proof.Machine.execBiasHoldLoss t mv s

end Sys2Proof.Machine
end

