-- ==== Sys2Proof/Machine/Read.lean ====
section
/-!
DEFINITION. Reads of BAR0 from the non-secure world (R11, R13, R14, R61, R469, R471): the value of every register.
The table of commands has no read; a read changes nothing but the latch of TIME_NOW.
-/

namespace Sys2Proof.Machine

/-! ### Packing -/

/-- A field of `w` bits at bit `lo`. -/
def fld (lo w v : Nat) : Nat := v % 2 ^ w * 2 ^ lo

/-- A signed field. -/
def sfld (lo w : Nat) (v : Int) : Nat := fld lo w (uenc w v)

/-- A flag. -/
def flg (lo : Nat) (b : Bool) : Nat := fld lo 1 (b2n b)

/-- A register whose fields other than those kept read 0 from the non-secure world. -/
def hideFor (secure : Bool) (kept all : Nat) : Nat := if secure then kept else all

/-- The staged value of an RWS field if one is pending, else the current value (R11, R109). -/
def staged (key cur : Nat) (s : State) : Nat := (tget none key s.pat.shadow).getD cur

/-- The bits of the numbers below `n` that satisfy `p`. -/
def bitSet (n : Nat) (p : Nat → Bool) : Nat := ((List.range n).filter p).foldl (fun a i => a + 2 ^ i) 0

/-- A half of a 64-bit value. -/
def halfOf (high : Bool) (v : Nat) : Nat := if high then v / 2 ^ 32 % 2 ^ 32 else v % 2 ^ 32

/-! ### Codes -/

/-- PATTERN_STATUS.STATE. -/
def patCode (p : PatSt) : Nat :=
  match p with
  | .empty => 0
  | .verifying => 1
  | .fitting => 2
  | .loading => 3
  | .loaded => 4
  | .patchArmed => 5
  | .refitting => 6
  | .failed => 7

/-- DDR_STATUS.STATE. -/
def ddrCode (d : DdrSt) : Nat :=
  match d with
  | .reset => 0
  | .training => 1
  | .active => 2
  | .powerDown => 3
  | .selfRefresh => 4
  | .isolated => 5
  | .trainFailed => 6

/-! ### MOD -/

/-- A record of a check; those of a check in the secure world read 0. -/
def readCheck (c r : Nat) (s : State) : Nat :=
  let x := check c s
  if x.secure then 0
  else if r = 0 then
    fld 0 7 ((x.window.filter (·.fail)).length) + fld 7 1 x.owner + fld 8 8 x.partial_ + fld 16 16 x.unchecked
  else if r = 4 then fld 0 20 x.judged + fld 20 12 x.failed
  else if r = 8 then fld 0 9 x.lastQuad + fld 9 9 x.lastRquad
  else 0

/-- An island's registers. -/
def readIsl (i r : Nat) (s : State) : Nat :=
  let m := (island i s).mbx
  if r = 0x00 then islStatus i s
  else if r = 0x04 then islVote i s
  else if r = 0x08 then islTest i s
  else if r = 0x10 then fld 1 5 m.vector + fld 6 1 m.port + flg 7 m.irq
  else if r = 0x14 then flg 0 m.busy + flg 1 m.done + flg 2 m.sendErr
  else 0

/-- The MOD block. -/
def readMod (off : Nat) (s : State) : Nat :=
  if off = 0x00 then modId s
  else if off = 0x08 then fld 0 12 Config.gloves + fld 12 4 4 + fld 16 4 12 + fld 20 4 8 + fld 24 4 4 + fld 28 4 2
  else if off = 0x0C then fld 0 12 0x180 + fld 12 12 0x0C0 + fld 24 5 0x10
  else if off = 0x10 then fld 0 5 0x10 + fld 5 5 0x10 + fld 10 6 0x30 + fld 16 4 8 + fld 24 8 Config.portableVer
  else if off = 0x20 then fld 0 4 s.power.st.code + fld 4 4 s.power.prev.code + fld 16 16 s.power.jepoch
  else if off = 0x30 then flg 2 s.power.refused + flg 3 s.power.wakeEn + flg 4 s.power.pwrCfgBusy + fld 8 8 s.power.holdMs
  else if off = 0x40 then
    fld 0 4 s.sec.stage + fld 4 8 s.sec.code + flg 12 s.sec.stopped + fld 13 1 s.sec.fwSlot + flg 14 s.sec.repaired
      + fld 15 8 s.sec.boots
  else if off = 0x44 then fld 0 32 s.sec.bootUs
  else if off = 0x48 then
    fld 0 16 (bitSet 16 (fun n => !(keySlot n s).key.isEmpty)) + flg 16 s.sec.ownerSet + fld 17 7 (keyStore s).revoked.length
      + fld 24 8 (keyStore s).gen
  else if off = 0x4C then fld 0 16 (keyStore s).patFloor + fld 16 16 (keyStore s).fwFloor
  else if 0x100 ≤ off ∧ off < 0x180 then readIsl ((off - 0x100) / 0x40) (off % 0x40) s
  else if 0x4000 ≤ off ∧ off < 0x8000 then
    let m := (island ((off - 0x4000) / 0x2000) s).mbx
    rdLe (if off % 0x2000 < 0x1000 then m.inBuf else m.outBuf) (off % 0x1000) 4
  else if 0x8000 ≤ off ∧ off < 0x8400 then readCheck ((off - 0x8000) / 0x10) (off % 0x10) s
  else 0

/-! ### CROWN -/

/-- A fraction below 1. -/
def belowOne (f : Nat × Nat) : Bool := decide (f.1 < f.2)

/-- A sensor pair: corrected readings, or flags. -/
def readSensePair (q : Nat) (flags : Bool) (s : State) : Nat :=
  let x := tget ({} : SensePair) q s.crown.pairs
  if flags then flg 0 x.maskD + flg 1 x.maskR + flg 2 x.disagree + flg 3 x.halfRate + flg 4 x.held
  else sfld 0 16 x.diode + sfld 16 16 x.ring

/-- Age of the last good tray read in ms, 0xFF before the first. -/
def trayAge (s : State) : Nat :=
  match s.crown.goodAt with
  | none => 0xFF
  | some a => satU 8 ((s.time.now - a) / 1000000)

/-- The calibration classes that are valid, in bit order. -/
def calValid (s : State) : Nat :=
  b2n s.crown.calThermal + 2 * b2n s.crown.calVreg + 4 * b2n s.crown.calDphy + 8 * b2n s.crown.calClock + 16 * b2n s.crown.calDdr

/-- The CROWN block. -/
def readCrown (o : Nat) (s : State) : Nat :=
  let c := s.crown
  if o = 0x00 then
    fld 0 2 c.level + flg 2 c.acting + flg 3 c.trayOk + flg 4 c.coolHold + flg 5 (envLow s) + flg 6 c.cfgBusy + flg 7 c.hardCap
  else if o = 0x04 then
    fld 0 10 (eRunMw s / 1000) + fld 10 10 (eShortMw s / 1000) + flg 20 (belowOne (fFlow s)) + flg 21 (belowOne (fInlet s))
      + flg 22 (belowOne (fTray s)) + flg 23 (belowOne (fDdr s)) + flg 24 (belowOne (fCal s))
  else if o = 0x08 then fld 0 10 c.nowW + fld 10 10 c.peakW + fld 20 12 c.excursions
  else if o = 0x0C then fld 0 16 (staged (0x010 * 8) c.parkUs s)
  else if o = 0x18 then sfld 0 16 c.inlet + sfld 16 16 c.outlet
  else if o = 0x1C then fld 0 16 c.flow + fld 16 8 (trayAge s) + flg 24 c.inletLow + flg 25 c.inletHigh
  else if o = 0x20 then sfld 0 16 c.hotTemp + fld 16 9 c.hotWhere
  else if o = 0x24 then fld 0 16 c.changes + fld 16 16 c.heldMs
  else if o = 0x28 then fld 0 32 c.lifeH
  else if o = 0x2C then fld 0 32 c.lifeUsed
  else if 0x40 ≤ o ∧ o < 0x58 then
    let a := tget ({} : AgeReg) ((o - 0x40) / 4) c.age
    fld 0 16 a.degrade + fld 16 6 a.trimMv + flg 22 a.limit
  else if o = 0x60 then fld 0 2 c.calOrigin + fld 2 5 (calValid s) + flg 7 c.calBusy + fld 8 3 c.calResult
  else if o = 0x70 then fld 0 17 c.calLen
  else if 0x1000 ≤ o ∧ o < 0x1AC0 then readSensePair ((o - 0x1000) / 8) (decide (o % 8 = 4)) s
  else 0

/-! ### TIME, LEDGER, PATTERN, FAULT, GUARD -/

/-- The TIME block. -/
def readTime (o : Nat) (s : State) : Nat :=
  let t := s.time
  if o = 0x08 then fld 0 16 t.latFrac
  else if o = 0x0C then
    fld 0 3 t.agent.code + flg 3 t.stepUsed + flg 4 t.stepRej + flg 5 t.stepBusy + flg 6 t.rateClamp + flg 7 t.skewValid
      + flg 8 t.cfgBusy + fld 9 1 t.agentDie
  else if o = 0x20 then sfld 0 32 t.rate
  else if o = 0x24 then flg 0 t.agentOn + flg 1 t.source + fld 2 2 t.port + fld 4 2 t.altPort
  else if o = 0x28 then fld 0 32 t.stepTh
  else if o = 0x2C then fld 0 32 t.limit
  else if o = 0x30 then sfld 0 32 t.offset
  else if o = 0x34 then sfld 0 16 (satS 16 t.skewNs) + fld 16 16 t.skewFails
  else if o = 0x50 then fld 0 16 t.gptpSync + fld 16 16 t.gptpOneStep
  else if 0x100 ≤ o ∧ o < 0x180 then
    let u := trace ((o - 0x100) / 0x40) s
    if o % 0x40 = 0 then fld 0 8 u.mask
    else if o % 0x40 = 4 then fld 0 32 u.wr
    else if o % 0x40 = 0x10 then fld 1 1 u.copyPort + flg 2 u.busy
    else 0
  else 0

/-- A stream's registers; a secure stream shows ENABLED and WORLD alone. -/
def readStrm (n r : Nat) (s : State) : Nat :=
  let x := strm n s
  let kept := if r = 0 then flg 0 (x.declared && !x.disabled) + flg 3 x.secure else 0
  hideFor x.secure kept
    (if r = 0x00 then
      kept + flg 1 x.pipelined + fld 2 1 x.home + flg 4 x.voidFollow + flg 5 x.cfgBusy + flg 6 x.limitRej + flg 7 x.consErr
        + fld 16 10 (staged ((0x100 + n) * 8) x.limit s)
    else if r = 0x04 then fld 0 10 (avail x) + fld 16 10 x.outstanding
    else if r = 0x20 then
      fld 0 4 x.sizeLog2 + fld 4 5 x.vector + fld 9 1 x.port + fld 16 8 x.coalCnt + fld 24 8 x.coalUs
    else if r = 0x24 then fld 0 16 x.prod + fld 16 16 x.cons
    else if r = 0x2C then fld 0 16 x.rejects + fld 16 16 x.voids
    else if r = 0x30 then fld 0 16 x.late + fld 16 16 x.suspect
    else 0)

/-- The sum of the credit limits, current or with pending limits in their place. -/
def sumLimits (pend : Bool) (s : State) : Nat :=
  (List.range 256).foldl (fun a n => a + (if pend then staged ((0x100 + n) * 8) (strm n s).limit s else (strm n s).limit)) 0

/-- The LEDGER block. -/
def readLedger (o : Nat) (s : State) : Nat :=
  let l := s.led
  if o = 0x00 then flg 0 l.up0 + flg 1 l.up1 + flg 2 l.mirrorOk + fld 4 15 l.tickets.length
  else if o = 0x04 then fld 0 16 (sumLimits false s) + fld 16 16 (sumLimits true s)
  else if o = 0x10 then fld 0 5 l.rcptVector + flg 5 l.irqRej + fld 6 1 l.rcptPort + flg 7 l.rcptEnable
  else if o = 0x14 then fld 0 16 l.rcptWr
  else if 0x1000 ≤ o ∧ o < 0x5000 then readStrm ((o - 0x1000) / 0x40) (o % 0x40) s
  else 0

/-- A seam engine's registers. -/
def readEngine (e r : Nat) (s : State) : Nat :=
  let x := engine e s
  if r = 0x0C then fld 0 3 x.st + flg 3 x.writeArmed + fld 8 8 x.code + fld 16 16 (satU 16 x.withdrawn)
  else if r = 0x18 then fld 0 17 x.limitUs
  else if 0x40 ≤ r ∧ r < 0x80 then
    let y := tget (0, false) ((r - 0x40) / 4) x.sel
    fld 0 12 y.1 + flg 31 y.2
  else 0

/-- The PATTERN block. -/
def readPattern (o : Nat) (s : State) : Nat :=
  let p := s.pat
  if o = 0x08 then fld 0 32 p.len
  else if o = 0x0C then
    fld 1 2 p.mode + flg 3 p.src + fld 4 4 p.flashEntry + flg 8 p.forcePortable + flg 9 p.stackAltsReq
  else if o = 0x18 then fld 0 17 p.limitUs + fld 17 15 (satU 15 p.withdrawn)
  else if o = 0x20 then
    fld 0 4 (patCode p.st) + flg 4 p.cfgBusy + flg 5 p.altReady + flg 6 p.shadowLost + fld 8 8 p.code + fld 16 2 p.source
      + flg 18 p.stackAlts
  else if o = 0x24 then fld 0 8 p.detailSec + fld 8 8 p.detailKind
  else if o = 0x28 then fld 0 32 p.detailId
  else if o = 0x38 then fld 0 32 p.gen
  else if o = 0x40 then fld 0 2 p.altKind + fld 2 9 p.altIndex + fld 16 16 p.switches
  else if o = 0x44 then fld 0 32 p.fitUs
  else if 0x80 ≤ o ∧ o < 0xAC then
    bitSet 32 (fun i => decide (32 * ((o - 0x80) / 4) + i < Config.quads) && quadAvail (32 * ((o - 0x80) / 4) + i) s)
  else if o = 0xB0 then bitSet 4 (fun k => stackAvail k s)
  else if 0x100 ≤ o ∧ o < 0x500 then readEngine ((o - 0x100) / 0x100) (o % 0x100) s
  else 0

/-- FAULT_STATUS of a collector. -/
def readCollector (c : Nat) (s : State) : Nat :=
  let x := if c = 0 then s.fault.c0 else s.fault.c1
  let own := s.fault.src.filter (fun e => e.1 / 0x400 == c)
  fld 0 6 ((own.filter (fun e => e.2.timer.isSome)).length) + flg 6 x.grave + flg 7 x.merge + flg 8 x.sweepOk
    + flg 9 (own.any (fun e => e.2.wire)) + fld 16 16 (x.rseq - 1)

/-- FAULT_SRC. -/
def readSource (id : Nat) (s : State) : Nat :=
  let x := fsrc id s
  fld 0 2 (sevOf id s) + flg 2 x.active + flg 3 x.wire + flg 4 x.timer.isSome
    + fld 8 8 (if srcPart id = 0xFF then 0xFF else partId (srcPart id)) + fld 16 16 x.count

/-- The FAULT block. -/
def readFault (o : Nat) (s : State) : Nat :=
  let f := s.fault
  if o = 0x00 then readCollector 0 s
  else if o = 0x04 then readCollector 1 s
  else if o = 0x08 then fld 0 11 f.safeSource + flg 11 f.safeValid + fld 12 2 f.safeCause
  else if o = 0x20 then fld 0 5 f.ringVector + fld 5 1 f.ringPort + flg 6 f.ringEnable + fld 7 2 f.ringMinSev
  else if o = 0x24 then fld 0 16 f.ringWr
  else if o = 0x28 then fld 0 16 f.detectUs + fld 16 16 f.handleUs
  else if o = 0x2C then fld 0 16 f.replaceUs + fld 16 16 f.voidUs
  else if o = 0x30 then fld 0 16 f.totalUs + flg 16 f.budgetExt
  else if o = 0x34 then fld 0 2 f.sweepResult + fld 2 3 f.sweepClass + fld 16 16 f.sweepItem
  else if o = 0x38 then fld 0 32 f.sweepUs
  else if 0x40 ≤ o ∧ o < 0x60 then
    bitSet 32 (fun i => decide (32 * ((o - 0x40) / 4) + i < 0x80) && isIso (32 * ((o - 0x40) / 4) + i) s)
  else if 0x1000 ≤ o ∧ o < 0x3000 then readSource ((o - 0x1000) / 4) s
  else 0

/-- Lining guards of a stack. -/
def linOf (k : Nat) (s : State) : List LinGuard := s.sec.linGuards.filter (fun g => g.stack == k)

/-- A guard of DDR as the non-secure world sees it. -/
def readDdrGuard (g : Option DdrGuard) (base : Bool) : Nat :=
  match g with
  | none => 0
  | some g =>
    if base then (if g.secure then 0 else g.base)
    else (if g.secure then 0 else fld 0 22 (g.size / 0x10000)) + flg 22 g.secure + fld 23 2 g.host + flg 25 true

/-- The GUARD block. -/
def readGuard (o : Nat) (s : State) : Nat :=
  if o = 0x00 then
    fld 0 7 s.sec.ddrGuards.length + fld 8 5 (linOf 0 s).length + fld 13 5 (linOf 1 s).length + fld 18 5 (linOf 2 s).length
      + fld 23 5 (linOf 3 s).length
  else if o = 0x08 then fld 0 16 s.sec.violHost + fld 16 16 s.sec.violInt
  else if o = 0x18 then fld 0 16 s.sec.lastSrc + flg 16 s.sec.lastWrite + fld 17 1 s.sec.lastPort
  else if 0x100 ≤ o ∧ o < 0x500 ∧ o % 0x10 = 8 then readDdrGuard (s.sec.ddrGuards[(o - 0x100) / 0x10]?) false
  else if 0x800 ≤ o ∧ o < 0xC00 ∧ o % 0x10 = 0 then
    flg 22 (decide ((o % 0x100) / 0x10 < (linOf ((o - 0x800) / 0x100) s).length))
  else 0

/-! ### DDR, CSI, ETH, FUSE -/

/-- The 32 bytes of an error-log entry; the address of a secure line reads 0 (R381). -/
def logEntry (x : DdrLog) : List Byte :=
  leBytes 8 x.stamp ++ leBytes 8 (if x.secure then 0 else x.addr) ++ leBytes 4 x.detail ++ leBytes 1 x.kind ++ leBytes 1 x.symbols
    ++ leBytes 1 (b2n x.secure) ++ leBytes 1 x.req ++ leBytes 8 x.syndrome

/-- The registers of a channel. -/
def readDdr (ch r : Nat) (s : State) : Nat :=
  let c := chan ch s
  if r = 0x00 then
    fld 0 3 (if chanUp ch s then ddrCode c.st else 5) + flg 3 c.ref2x + flg 4 c.cfgBusy + flg 5 c.tempHigh + flg 6 c.drain
      + fld 8 8 (0x10 + ch)
  else if r = 0x04 then
    fld 0 6 c.wmHigh + fld 6 6 c.wmLow + fld 12 8 c.pdIdle + fld 20 8 c.srIdle + fld 28 3 c.wcrcRetry
  else if r = 0x08 then fld 0 8 c.periodH + flg 8 c.scrubOn
  else if r = 0x0C then fld 0 28 c.scrubLine
  else if r = 0x18 then fld 0 16 c.ce + fld 16 16 c.ue
  else if r = 0x1C then fld 0 16 c.caPar + fld 16 16 c.wcrc
  else if r = 0x20 then fld 0 3 c.postponed + fld 3 3 c.postMax
  else if r = 0x24 then fld 0 8 (c.reads.length + c.flight.length) + fld 8 7 c.writes.length + fld 16 16 c.forwards
  else if r = 0x28 then fld 0 16 c.poisoned + fld 16 16 c.discarded
  else if 0x40 ≤ r ∧ r < 0x64 then fld 0 16 (tget 0 ((r - 0x40) / 4) c.devCe)
  else if r = 0x80 then fld 0 2 c.trainResult + fld 2 3 c.trainStep + fld 5 4 c.trainDevice
  else if r = 0x84 then fld 0 32 c.trainUs
  else if r = 0xFC then fld 0 16 c.elogWr
  else if 0x100 ≤ r ∧ r < 0x300 then fieldLe (logEntry (tget {} ((r - 0x100) / 0x20) c.elog)) (r % 0x20) 4
  else 0

/-- A sensor stream's record; a secure stream shows STREAM and ENABLED alone. -/
def readSens (n r : Nat) (s : State) : Nat :=
  let x := tget ({} : SensStream) n s.sense.streams
  let kept := if r = 0 then fld 0 6 n + flg 6 x.declared else 0
  hideFor x.secure kept
    (if r = 0x00 then kept + flg 7 x.stall + fld 8 6 (if x.eth then 0 else x.dt)
    else if r = 0x04 then fld 0 32 x.count
    else if r = 0x08 then fld 0 16 x.err + fld 16 16 x.drop
    else if r = 0x18 then fld 0 27 (staged ((0x080 + n) * 8) x.offsetNs s)
    else 0)

/-- The register of a stream's record at an offset, 0 for a stream that is not declared. -/
def readSensAt (off : Nat) (s : State) : Nat :=
  match sensAt off s with
  | none => 0
  | some n => readSens n (off % 0x20) s

/-- The CSI blocks. -/
def readCsi (off : Nat) (s : State) : Nat :=
  let c := csi ((off - 0x000C0000) / 0x2000) s
  if off % 0x2000 = 0 then fld 0 2 c.lanes + flg 2 c.deskew + flg 3 c.cfgBusy + flg 4 c.link
  else if off % 0x2000 = 8 then fld 0 16 c.eccCorr + fld 16 16 c.unmatched
  else readSensAt off s

/-- The registers of a frame-path ring. -/
def readRing (e k r : Nat) (s : State) : Nat :=
  let x := hrRing e k s
  if r = 0x08 then fld 0 4 x.sizeLog2 + fld 4 5 x.vector + fld 9 1 x.port + flg 10 x.enable
  else if r = 0x0C then fld 0 16 x.prod + fld 16 16 x.done
  else if r = 0x10 then (if k = 1 then fld 0 16 (eport e s).drop else 0)
  else 0

/-- The ETH blocks. -/
def readEth (off : Nat) (s : State) : Nat :=
  let e := (off - 0x000E0000) / 0x4000
  let r := off % 0x4000
  let p := eport e s
  if r = 0x200 then
    (match p.txts with
     | [] => 0
     | x :: _ => fld 0 16 x.1 + flg 16 true + flg 17 x.2.2.2)
  else if r = 0x210 then
    (match p.txts with
     | [] => 0
     | x :: _ => fld 0 16 x.2.2.1)
  else if r = 0x218 then fld 0 6 p.txts.length + flg 6 p.ovf + fld 16 16 p.lost
  else if r = 0x21C then sfld 0 16 p.asym
  else if 0x300 ≤ r ∧ r < 0x340 then readRing e ((r - 0x300) / 0x20) (r % 0x20) s
  else readSensAt off s

/-- FUSE_G_M of a member. -/
def readMember (x : FuseGroup) (m : Nat) : Nat :=
  match x.members.find? (fun k => k.index == m) with
  | none => 0
  | some k => fld 0 16 k.late + fld 16 12 k.missed + flg 28 k.blocked

/-- The confidence of a member as FP16. -/
def confOf (x : FuseGroup) (m : Nat) : Nat :=
  match x.members.find? (fun k => k.index == m) with
  | none => 0x3C00
  | some k => half16 k.conf

/-- A group's record on die `d`: live on the home die, HOME alone on the other. -/
def readGroup (d g r : Nat) (s : State) : Nat :=
  let x := fgroup g s
  if x.home ≠ d then (if r = 0 then fld 1 1 x.home else 0)
  else if r = 0x00 then flg 0 x.declared + fld 1 1 x.home + fld 8 4 (staged ((0x040 + g) * 8) x.slots s)
  else if r = 0x04 then fld 0 17 (staged ((0x040 + g) * 8 + 1) x.waitUs s)
  else if r = 0x10 then
    fld 0 4 ((x.open_.filter (fun f => !f.emitting)).length) + fld 4 4 ((x.open_.filter (·.emitting)).length)
      + fld 8 4 (x.slots - x.open_.length) + fld 12 10 x.forced + fld 22 10 x.skipped
  else if r = 0x14 then fld 0 16 x.degraded + fld 16 16 x.conflicts
  else if r = 0x18 then fld 0 10 ((x.tracks.filter (fun t => decide (t.st ≠ 0))).length) + flg 10 x.tableLost + fld 16 16 x.full
  else if 0x40 ≤ r ∧ r < 0xC0 then readMember x ((r - 0x40) / 4)
  else if 0xC0 ≤ r then fld 0 16 (confOf x (2 * ((r - 0xC0) / 4))) + fld 16 16 (confOf x (2 * ((r - 0xC0) / 4) + 1))
  else 0

/-- The FUSE blocks. -/
def readFuse (off : Nat) (s : State) : Nat :=
  let d := (off - 0x00100000) / 0x40000
  let x := evtRing d s
  if off % 0x40000 = 0x08 then fld 0 5 x.vector + fld 5 1 x.port + flg 6 x.enable + flg 7 x.irq
  else if off % 0x40000 = 0x0C then fld 0 16 x.wr
  else
    match fuseAt off with
    | none => 0
    | some (d', g, r) => readGroup d' g r s

/-! ### PLAN, LOOP, ATTACH, MSI-X -/

/-- Slices of a die that a heap chain holds. -/
def heapHeld (d : Nat) (s : State) : Nat :=
  bitSet 8 (fun k => s.plan.reqs.any (fun r =>
    r.result.isNone && (r.cfg.map (fun c => c.search == 2)).getD false && r.slices.contains (d * 8 + k)))

/-- A slice's registers. -/
def readSlice (d k r : Nat) (s : State) : Nat :=
  let x := tget ({} : PlanSlice) k (pdie d s).slices
  let used := s.plan.reqs.any (fun q => q.result.isNone && q.cfg.isSome && q.slices.contains (d * 8 + k))
  if r = 0 then
    fld 0 2 (if isIso (0x30 + 8 * d + k) s then 3 else if bit (heapHeld d s) k then 2 else b2n used) + fld 8 8 (0x30 + 8 * d + k)
  else if r = 0x10 then fld 16 16 x.drops
  else 0

/-- The PLAN blocks; a secure planner shows ENABLED alone. -/
def readPlan (off : Nat) (s : State) : Nat :=
  let d := (off - 0x00180000) / 0x20000
  let o := off % 0x20000
  let p := pdie d s
  let c := s.plan.cfg
  let kept := if o = 0 then flg 0 s.plan.enabled else 0
  hideFor s.plan.secure kept
    (if o = 0x00 then
      kept + flg 1 p.cfgBusy + fld 8 8 (bitSet 8 (fun k => !isIso (0x30 + 8 * d + k) s)) + fld 16 8 (heapHeld d s)
    else if o = 0x04 then
      fld 0 2 (staged (0x050 * 8) c.outside s) + fld 2 1 (staged (0x050 * 8 + 1) (b2n c.cost) s)
        + fld 3 1 (staged (0x050 * 8 + 2) (b2n c.recheck) s) + fld 4 2 (staged (0x050 * 8 + 3) c.search s)
        + fld 6 4 (staged (0x050 * 8 + 4) c.chain s)
    else if o = 0x08 then fld 0 20 (staged (0x050 * 8 + 5) s.plan.budgetUs s)
    else if o = 0x0C then fld 0 16 p.cur.epoch + fld 16 16 ((p.old.map (·.epoch)).getD p.cur.epoch)
    else if o = 0x20 then fld 0 15 p.used + fld 16 8 p.refused + fld 24 8 p.overflow
    else if o = 0x24 then fld 0 16 p.commits + fld 16 16 p.deferred
    else if o = 0x28 then fld 0 16 p.done + fld 16 16 p.stale
    else if o = 0x2C then fld 0 16 p.noPath + fld 16 16 p.timeout
    else if 0x1000 ≤ o ∧ o < 0x1800 then readSlice d ((o - 0x1000) / 0x100) (o % 0x100) s
    else 0)

/-- A slot's registers; a secure slot shows ENABLED and WORLD alone. -/
def readSlot (n r : Nat) (s : State) : Nat :=
  let x := lslot n s
  let kept := if r = 0 then flg 8 x.secure + flg 9 x.declared else 0
  hideFor x.secure kept
    (if r = 0x00 then
      kept + fld 0 3 x.st.code + flg 3 x.track + flg 4 x.spStale + flg 5 x.fbStale + flg 6 x.implausible + flg 7 x.cfgBusy
        + fld 16 7 ((x.resWin.filter (fun b => b)).length)
    else if r = 0x04 then flg 2 x.refused
    else if r = 0x08 then fld 0 24 (staged ((0x020 + n) * 8) ((x.spStaleUs + 999) / 1000) s)
    else if r = 0x18 then fld 0 16 x.latLast + fld 16 16 x.latMax
    else if r = 0x1C then fld 0 16 x.cImpl + fld 16 16 x.cFb
    else if r = 0x20 then fld 0 10 x.early + fld 10 11 x.replaced + fld 21 11 x.dropped
    else if 0x60 ≤ r ∧ r < 0x80 then ((x.outs[(r - 0x60) / 4]?).map (·.u)).getD 0
    else if 0x80 ≤ r ∧ r < 0xA0 then ((x.chans[(r - 0x80) / 4]?).map (·.r)).getD 0
    else if 0xA0 ≤ r ∧ r < 0xC0 then ((x.chans[(r - 0xA0) / 4]?).map (·.y)).getD 0
    else 0)

/-- The LOOP block. -/
def readLoop (off : Nat) (s : State) : Nat :=
  if off = 0x001C0000 ∨ off = 0x001C0100 then
    let d := (off - 0x001C0000) / 0x100
    flg 0 (!isIso (0x40 + d) s) + fld 8 8 (bitSet 8 (fun k => (lslot (8 * d + k) s).st != .stopped))
  else if 0x001C1000 ≤ off ∧ off < 0x001C3000 then readSlot ((off - 0x001C1000) / 0x200) (off % 0x200) s
  else 0

/-- ATTACH_STATUS.STATE (R454). -/
def attachCode (s : State) : Nat :=
  if !s.host.p0.link && !s.host.p1.link then 2 else if s.host.joined then 4 else 3

/-- The ATTACH block. -/
def readAttach (o : Nat) (s : State) : Nat :=
  let h := s.host
  if o = 0x00 then
    fld 0 3 (attachCode s) + flg 3 h.p0.link + flg 4 h.p1.link + flg 5 h.p0.redirect + flg 6 h.p1.redirect + flg 7 h.quiescing
      + flg 8 h.quiesced + flg 9 h.peerLost + flg 10 h.grace + flg 11 h.cmdRej + flg 12 h.cfgBusy + fld 13 2 h.fenceCause
  else if o = 0x08 then
    fld 0 5 h.vector + fld 5 1 h.port + flg 6 h.failover + flg 7 h.irq + fld 8 16 h.foUs + fld 24 8 h.peerToMs
  else if o = 0x0C then fld 0 14 h.qlimitMs
  else if 0x20 ≤ o ∧ o < 0x40 then fld 0 32 (tget 0 ((o - 0x20) / 4) h.hbMask)
  else if o = 0x50 then fld 0 4 h.peerState + fld 4 4 h.peerFlags + fld 16 16 h.peerJepoch
  else if o = 0x88 then fld 0 16 (leftMs s) + flg 16 h.leaseHeld
  else if o = 0x8C then fld 0 32 h.jobEpoch
  else if 0x100 ≤ o ∧ o < 0x300 ∧ o % 0x10 = 8 then
    let w := tget ({} : PeerWm) ((o - 0x100) / 0x10) h.peerWm
    fld 0 8 w.stream + flg 8 w.valid
  else if 0x1000 ≤ o ∧ o < 0x1080 then
    let w := tget (0, false) (o % 0x40 / 4) (hport ((o - 0x1000) / 0x40) s).win
    fld 0 22 w.1 + flg 31 w.2
  else 0

/-- The MSI-X table and PBA of the port read (R448). -/
def readMsix (port o : Nat) (s : State) : Nat :=
  let t := (hport port s).msix
  if o < 0x200 then
    let e := tget ({} : MsixEntry) (o / 16) t
    if o % 16 = 0 then e.addr % 2 ^ 32
    else if o % 16 = 4 then e.addr / 2 ^ 32
    else if o % 16 = 8 then e.data
    else b2n e.masked
  else if o = 0x800 then bitSet 32 (fun v => (tget ({} : MsixEntry) v t).pba)
  else 0

/-! ### GLOVE, lining and scene memories -/

/-- GLOVE_STATE.STATE. -/
def gloveCode (g : Nat) (s : State) : Nat :=
  if !quadAvail (g / 4) s ∨ !stackAvail (g / 336) s then 5
  else
    match (glove g s).test with
    | .selftest => 3
    | .withdrawn => 4
    | .none =>
      match mittenOfGlove g s with
      | none => 0
      | some m => if (mitten (leadOf m s) s).firing.isSome then 2 else 1

/-- GLOVE_QUAD, in the entry with slot 0. -/
def readQuad (q : Nat) (s : State) : Nat :=
  fld 0 3 (if !quadAvail q s then 2 else b2n (s.fab.draining.any (fun d => d.1 == q / 84))) + fld 8 8 (0x80 + q % 84)
    + fld 16 8 (tget 0 (q / 84) s.fab.rtGen)

/-- A glove's entry; that of a glove in the secure world shows STATE, WORLD and MITTEN alone (R61). -/
def readGlove (g r : Nat) (s : State) : Nat :=
  let x := glove g s
  let m := mittenOfGlove g s
  let rec_ := (m.map (fun k => mitten k s)).getD {}
  let kept := if r = 0 then fld 0 3 (gloveCode g s) + flg 4 rec_.secure + fld 16 11 (m.getD 0x7FF) else 0
  hideFor rec_.secure kept
    (if r = 0x00 then kept + flg 3 ((m.map (fun k => runsHalf (leadOf k s) s)).getD false) + flg 5 x.cfgBusy
    else if r = 0x08 then fld 0 16 x.ce + flg 16 x.ue
    else if r = 0x18 then fld 0 32 x.lastPass
    else if r = 0x20 then (if g % 4 = 0 then readQuad (g / 4) s else 0)
    else if r = 0x28 then fld 0 16 x.sat + fld 16 14 x.nan
    else 0)

/-- A secure region guard covers part of a bank: 2 MiB, 32 units of 64 KiB (R48). -/
def bankSecure (k b : Nat) (s : State) : Bool :=
  (linOf k s).any (fun g => decide (g.base < (b + 1) * 32) && decide (b * 32 < g.base + g.size))

/-- A lining bank's record; those of banks 48 to 63 read 0 (R62). -/
def readLining (k b r : Nat) (s : State) : Nat :=
  let x := liningBank k b s
  if 48 ≤ b then 0
  else if r = 0 then fld 0 16 x.ce + flg 16 x.ue + flg 17 (bankSecure k b s)
  else if r = 8 then fld 0 32 x.lastPass
  else 0

/-- VALID pages of a memory in a tier. -/
def pagesIn (x : SceneMem) (t : Nat) : Nat := (x.pages.filter (fun p => p.st == .valid && p.tier == t)).length

/-- A scene memory's record; 0 for one in the secure world or not declared. -/
def readScene (m r : Nat) (s : State) : Nat :=
  let x := tget ({} : SceneMem) m s.scene
  if x.secure ∨ !x.declared then 0
  else if r = 0x00 then fld 0 16 (pagesIn x 0) + fld 16 16 (pagesIn x 1)
  else if r = 0x04 then fld 0 16 (pagesIn x 2) + fld 16 16 (pagesIn x 3)
  else if r = 0x08 then fld 0 13 ((x.pages.filter (fun p => p.st == .lost)).length) + fld 16 4 x.pageLog2
  else if r = 0x0C then fld 0 32 ((x.pages.filter (fun p => p.st == .valid)).foldl (fun a p => max a p.seq) 0)
  else if r = 0x10 then fld 0 32 x.evict
  else if r = 0x14 then fld 0 16 x.pfStall + fld 16 16 x.clears
  else 0

/-! ### 64-bit read-only registers -/

/-- The 64-bit read-only registers below 0x0008_0000. -/
def wideRoLow (b : Nat) (s : State) : Option Nat :=
  if b = 0x00010010 then some ((s.crown.bins.zipIdx).foldl (fun a x => a + fld (10 * x.2) 10 x.1) 0)
  else if b = 0x00020000 then some (stamp 0 s)
  else if b = 0x00020038 then some s.time.ppsIn0
  else if b = 0x00020040 then some s.time.ppsIn1
  else if b = 0x00020048 then some (uenc 64 s.time.stepLog)
  else if 0x00031000 ≤ b ∧ b < 0x00035000 ∧ b % 0x40 = 0x08 then
    some (if (strm ((b - 0x00031000) / 0x40) s).secure then 0 else (strm ((b - 0x00031000) / 0x40) s).nextSeq)
  else if 0x00031000 ≤ b ∧ b < 0x00035000 ∧ b % 0x40 = 0x10 then
    some (if (strm ((b - 0x00031000) / 0x40) s).secure then 0 else (strm ((b - 0x00031000) / 0x40) s).watermark)
  else if b = 0x00040030 then some s.pat.patternId
  else if 0x00040100 ≤ b ∧ b < 0x00040500 ∧ b % 0x100 = 0x10 then some (engine ((b - 0x00040100) / 0x100) s).done
  else if b = 0x00050010 then some s.fault.safeStamp
  else if b = 0x00060010 then some s.sec.lastAddr
  else if 0x00060100 ≤ b ∧ b < 0x00060500 ∧ b % 0x10 = 0 then
    some (readDdrGuard (s.sec.ddrGuards[(b - 0x00060100) / 0x10]?) true)
  else none

/-- The 64-bit read-only registers of the DDR, sensor, ETH and FUSE blocks. -/
def wideRoMid (b : Nat) (s : State) : Option Nat :=
  if 0x00080000 ≤ b ∧ b < 0x000B0000 ∧ b % 0x4000 = 0x10 then some (chan ((b - 0x00080000) / 0x4000) s).scrubLast
  else if 0x000E0000 ≤ b ∧ b < 0x000F0000 ∧ b % 0x4000 = 0 then some (portMac ((b - 0x000E0000) / 0x4000) s)
  else if 0x000E0000 ≤ b ∧ b < 0x000F0000 ∧ b % 0x4000 = 0x208 then
    some (((eport ((b - 0x000E0000) / 0x4000) s).txts.head?.map (·.2.1)).getD 0)
  else
    match fuseAt b with
    | some (d, g, r) => if r = 0x08 then some (if (fgroup g s).home = d then (fgroup g s).lastFseq else 0) else none
    | none =>
      match sensAt b s with
      | none => none
      | some n =>
        let x := tget ({} : SensStream) n s.sense.streams
        if b % 0x20 = 0x10 then some (if x.secure then 0 else x.last) else none

/-- The 64-bit read-only registers of the PLAN, LOOP, ATTACH and GLOVE blocks. -/
def wideRoHigh (b : Nat) (s : State) : Option Nat :=
  if 0x00180000 ≤ b ∧ b < 0x001C0000 then
    let p := pdie ((b - 0x00180000) / 0x20000) s
    let o := b % 0x20000
    let v := fun (x : Nat) => some (if s.plan.secure then 0 else x)
    if o = 0x10 then v p.cur.t0
    else if o = 0x18 then v (uenc 32 p.cur.originX + uenc 32 p.cur.originY * 2 ^ 32)
    else if 0x1000 ≤ o ∧ o < 0x1800 ∧ o % 0x100 = 8 then v (tget ({} : PlanSlice) ((o - 0x1000) / 0x100) p.slices).tests
    else none
  else if b = 0x001C0008 then some s.loop.evals0
  else if b = 0x001C0108 then some s.loop.evals1
  else if 0x001C1000 ≤ b ∧ b < 0x001C3000 ∧ b % 0x200 = 0x10 then
    let x := lslot ((b - 0x001C1000) / 0x200) s
    some (if x.secure then 0 else x.trigStamp)
  else if b = 0x00200058 then some s.host.peerLast
  else if b = 0x00200080 then some s.host.jobId
  else if 0x00200100 ≤ b ∧ b < 0x00200300 ∧ b % 0x10 = 0 then
    some (tget ({} : PeerWm) ((b - 0x00200100) / 0x10) s.host.peerWm).wm
  else if 0x00400000 ≤ b ∧ b < 0x00454000 ∧ b % 0x100 = 0x10 then
    let g := (b - 0x00400000) / 0x100
    some (if ((mittenOfGlove g s).map (fun k => (mitten k s).secure)).getD false then 0 else (glove g s).fires)
  else none

/-- The 64-bit RW register as read: STRM_OUT_BASE of a secure stream reads 0. -/
def wideRw (w : WideReg) (s : State) : Nat :=
  match w with
  | .outBase n => if (strm n s).secure then 0 else wideCur w s
  | _ => wideCur w s

/-- The 64-bit register at an offset, read-only or RW. -/
def wideVal (b : Nat) (s : State) : Option Nat :=
  match wideReg b with
  | some w => some (wideRw w s)
  | none => if b < 0x00080000 then wideRoLow b s else if b < 0x00180000 then wideRoMid b s else wideRoHigh b s

/-! ### Reads -/

/-- The 32-bit register at an offset, by the block of R467; an unimplemented offset reads 0 (R14). -/
def readBlock (port off : Nat) (s : State) : Nat :=
  if off < 0x00010000 then readMod off s
  else if off < 0x00020000 then readCrown (off - 0x00010000) s
  else if off < 0x00030000 then readTime (off - 0x00020000) s
  else if off < 0x00040000 then readLedger (off - 0x00030000) s
  else if off < 0x00050000 then readPattern (off - 0x00040000) s
  else if off < 0x00060000 then readFault (off - 0x00050000) s
  else if off < 0x00070000 then readGuard (off - 0x00060000) s
  else if off < 0x00080000 then 0
  else if off < 0x000B0000 then readDdr ((off - 0x00080000) / 0x4000) (off % 0x4000) s
  else if off < 0x000C0000 then 0
  else if off < 0x000D0000 then readCsi off s
  else if off < 0x000E0000 then 0
  else if off < 0x000F0000 then readEth off s
  else if off < 0x00100000 then 0
  else if off < 0x00180000 then readFuse off s
  else if off < 0x001C0000 then readPlan off s
  else if off < 0x00200000 then readLoop off s
  else if off < 0x00210000 then readAttach (off - 0x00200000) s
  else if off < 0x00211000 then readMsix port (off - 0x00210000) s
  else if off < 0x00400000 then 0
  else if off < 0x00454000 then readGlove ((off - 0x00400000) / 0x100) (off % 0x100) s
  else if off < 0x00460000 then 0
  else if off < 0x00464000 then readLining ((off - 0x00460000) / 0x1000) (off % 0x1000 / 0x40) (off % 0x40) s
  else if 0x00470000 ≤ off ∧ off < 0x00470400 then readScene ((off - 0x00470000) / 0x40) (off % 0x40) s
  else 0

/-- A 32-bit read: a half of a 64-bit register, or a 32-bit register. -/
def read32 (port off : Nat) (s : State) : Nat :=
  if off = 0x00020004 then s.time.latHigh
  else
    match wideVal off s, wideVal (off - 4) s with
    | some v, _ => halfOf false v
    | none, some v => halfOf true v
    | none, none => readBlock port off s

/-- A 64-bit read: one 64-bit register, or two 32-bit registers. -/
def read64 (port off : Nat) (s : State) : Nat :=
  match wideVal off s with
  | some v => v
  | none => read32 port off s + read32 port (off + 4) s * 2 ^ 32

/-- The latch of TIME_NOW: a read of its low word latches the high word and TIME_NOW_FRAC. -/
def latchNow (off : Nat) (s : State) : State :=
  if off = 0x00020000 then
    { s with time := { s.time with latHigh := stamp 0 s / 2 ^ 32 % 2 ^ 32, latFrac := stampFrac 0 s } }
  else s

/-- A read of the intake window BAR4: every byte is 0 (R193). -/
def bar4Read (len : Nat) : List Byte := zeroBytes len

/-- A read of BAR0 through a port: the value returned, and the state after it. -/
def regRead (port off size : Nat) (s : State) : Nat × State :=
  if size = 32 ∧ off % 4 = 0 then (read32 port off s, latchNow off s)
  else if size = 64 ∧ off % 8 = 0 then (read64 port off s, latchNow off s)
  else (2 ^ (32 * ((off % 4 + (size + 7) / 8 + 3) / 4)) - 1, s)

end Sys2Proof.Machine
end

