-- ==== Sys2Proof/WellFormed.lean ====
section
/-!
DEFINITION. Well-formed commands: every operand names a thing the module has (R1, R40, R190, R348, R467).
The outside can send no other command.
-/

namespace Sys2Proof

/-! ### Ranges -/

/-- One of two: a half, an I/O die, an island, a collector, a home ledger. -/
def isDie (n : Nat) : Bool := decide (n < 2)
/-- HOST0 or HOST1. -/
def isHostPort (n : Nat) : Bool := decide (n < 2)
/-- ETH0 to ETH3. -/
def isEthPort (n : Nat) : Bool := decide (n < 4)
/-- CSI0 to CSI7. -/
def isCsiPort (n : Nat) : Bool := decide (n < 8)
/-- A compute stack. -/
def isStack (n : Nat) : Bool := decide (n < 4)
/-- A lining bank of a stack (R48). -/
def isBank (n : Nat) : Bool := decide (n < 48)
/-- A glove (R38). -/
def isGlove (n : Nat) : Bool := decide (n < 1344)
/-- A mitten number (R54). -/
def isMitten (n : Nat) : Bool := decide (n < 1344)
/-- A global quad (R39). -/
def isQuad (n : Nat) : Bool := decide (n < 336)
/-- A sensor pair: 336 quads and 8 hot spots of the I/O dies. -/
def isPair (n : Nat) : Bool := decide (n < 344)
/-- A seam engine. -/
def isEngine (n : Nat) : Bool := decide (n < 4)
/-- A seam group (R108). -/
def isSeamGroup (n : Nat) : Bool := decide (n < 0x940)
/-- A ticket stream (R190). -/
def isStream (n : Nat) : Bool := decide (n < 256)
/-- A sensor stream (R221). -/
def isSensor (n : Nat) : Bool := decide (n < 48)
/-- A loop slot; a planner slice of the module. -/
def isSlot (n : Nat) : Bool := decide (n < 16)
/-- A projection unit of the module. -/
def isUnit (n : Nat) : Bool := decide (n < 8)
/-- A manual value of a slot. -/
def isManual (n : Nat) : Bool := decide (n < 8)
/-- A fusion group; a scene memory. -/
def isGroup (n : Nat) : Bool := decide (n < 16)
/-- A member of a fusion group. -/
def isMember (n : Nat) : Bool := decide (n < 32)
/-- A check. -/
def isCheck (n : Nat) : Bool := decide (n < 64)
/-- A DDR4 channel. -/
def isChan (n : Nat) : Bool := decide (n < 12)
/-- An MSI-X vector (R448). -/
def isVector (n : Nat) : Bool := decide (n < 32)
/-- A fault source ID of 11 bits (R348). -/
def isSource (n : Nat) : Bool := decide (n < 2048)
/-- A part in the model's numbering: an identifier below 0x80, or 0x100 and a global quad. -/
def isPart (n : Nat) : Bool := decide (n < 0x80) || (decide (0x100 ≤ n) && decide (n < 0x250))
/-- A rail of a half (R31). -/
def isRail (n : Nat) : Bool := decide (n < 7)
/-- A stage of the connector (R32). -/
def isStage (n : Nat) : Bool := decide (n < 4)
/-- A die with an ageing monitor: four compute stacks and two I/O dies (R410). -/
def isAgeDie (n : Nat) : Bool := decide (n < 6)
/-- A 32-bit value written. -/
def isWord (n : Nat) : Bool := decide (n < 2 ^ 32)
/-- A 16-bit value written. -/
def isHalfWord (n : Nat) : Bool := decide (n < 2 ^ 16)
/-- An offset in BAR0 (R443). -/
def isBar0 (n : Nat) : Bool := decide (n < 0x04000000)
/-- An offset in BAR4 (R193, R443). -/
def isBar4 (n : Nat) : Bool := decide (n < 0x01000000)

/-- A well-formed command. -/
def Instr.wf (i : Instr) : Bool :=
  match i with
  | .mateStage _ stage _ => isStage stage
  | .inputQualified _ _ => true
  | .pgoodRelease _ => true
  | .inputVoltageWarn _ _ => true
  | .inputUndervoltageOff _ _ _ => true
  | .inputOvervoltageOff _ _ _ => true
  | .pwrEnLowOff _ _ => true
  | .presenceLossOff _ => true
  | .railOutOfRegulation _ half rail => isDie half && isRail rail
  | .refclkLoss _ half _ => isDie half
  | .ppsInEdge _ => true
  | .ppsOutRise _ => true
  | .ppsOutFall _ => true
  | .packetArrive _ _ _ _ _ => true
  | .tokenArrive _ _ => true
  | .creditReturn _ _ => true
  | .mittenWake _ mitten => isMitten mitten
  | .firingStart _ mitten _ => isMitten mitten
  | .firingComplete _ mitten => isMitten mitten
  | .prefetchCopyDone _ mem _ _ _ => isGroup mem
  | .liningScrubRead _ stack bank _ => isStack stack && isBank bank
  | .gloveClockGate _ glove => isGlove glove
  | .routeTableSwap _ stack => isStack stack
  | .loadFullGo _ value => isWord value
  | .patchGo _ value => isWord value
  | .loadVerifyDone _ => true
  | .loadFitDone _ _ _ _ _ => true
  | .loadComplete _ => true
  | .patchStaged _ => true
  | .patchSeam _ => true
  | .constantRefillDone _ mitten => isMitten mitten
  | .altComputeDone _ _ => true
  | .alternateSwitch _ => true
  | .deviceRefitDone _ _ _ _ _ => true
  | .seamArm _ engine value => isEngine engine && isWord value
  | .seamCancel _ engine value => isEngine engine && isWord value
  | .seamDiscard _ engine value => isEngine engine && isWord value
  | .rwsWrite _ off value => isBar0 off && isWord value
  | .blockSeam _ engine group => isEngine engine && isSeamGroup group
  | .globalSeamStamp _ engine => isEngine engine
  | .seamLimitExpire _ engine => isEngine engine
  | .globalSeamSwitch _ engine => isEngine engine
  | .gloveNumClr _ glove value => isGlove glove && isWord value
  | .palmCeClr _ glove value => isGlove glove && isWord value
  | .liningCeClr _ stack bank value => isStack stack && isBank bank && isWord value
  | .bar4Write _ port off _ _ => isHostPort port && isBar4 off
  | .ticketVerdict _ home => isDie home
  | .journalMirrorAck _ stream _ => isStream stream
  | .ticketInject _ stream => isStream stream
  | .ticketDeadlineDrop _ stream _ => isStream stream
  | .ticketEnded _ stream _ => isStream stream
  | .outcomeDeliver _ stream => isStream stream
  | .outcomeIrqTimer _ stream => isStream stream
  | .outcomeConsWrite _ stream value => isStream stream && isWord value
  | .ledgerTakeover _ die => isDie die
  | .csiPacketRx _ port _ _ => isCsiPort port
  | .ethFrameRx _ port _ => isEthPort port
  | .streamStall _ stream => isSensor stream
  | .slotOpen _ grp => isGroup grp
  | .memberDecide _ grp _ member => isGroup grp && isMember member
  | .slotWaitLimit _ grp _ => isGroup grp
  | .projectionDone _ grp _ => isGroup grp
  | .slotEmit _ grp _ => isGroup grp
  | .conflictSummaryRx _ _ => true
  | .detectionListRx _ _ => true
  | .fusionGroupMove _ grp => isGroup grp
  | .mapUpdateBuilt _ die _ => isDie die
  | .mapCommit _ die => isDie die
  | .planRequestStart _ => true
  | .planSearchEnd _ _ => true
  | .planDeadline _ _ _ _ => true
  | .planResultSend _ _ => true
  | .loopTimerTrigger _ slot => isSlot slot
  | .loopEval _ slot => isSlot slot
  | .qbvGateEvent _ port _ => isEthPort port
  | .setpointToken _ _ => true
  | .feedbackToken _ _ => true
  | .setpointStale _ slot => isSlot slot
  | .loopTriggerWatchdog _ slot => isSlot slot
  | .loopReqManual _ slot => isSlot slot
  | .loopReqAuto _ slot => isSlot slot
  | .loopReqStop _ slot => isSlot slot
  | .loopManWrite _ slot j value => isSlot slot && isManual j && isWord value
  | .islandLoopRecompute _ slot _ => isSlot slot
  | .timeStepRequest _ => true
  | .alignmentExchange _ _ _ => true
  | .rateWrite _ value => isWord value
  | .timeAgentWrite _ _ => true
  | .gptpSync _ port _ _ => isEthPort port
  | .gptpFollowUp _ port _ _ => isEthPort port
  | .gptpPdelayReqSend _ => true
  | .gptpPdelayReqRx _ port _ => isEthPort port
  | .gptpPdelayRespRx _ port _ _ _ => isEthPort port
  | .gptpAnnounceRx _ port _ _ => isEthPort port
  | .gptpSignalingRx _ port => isEthPort port
  | .gptpSyncTimeout _ => true
  | .ethTxtsPop _ port value => isEthPort port && isWord value
  | .traceCopyGo _ die value => isDie die && isWord value
  | .traceCopyDone _ die => isDie die
  | .islandHeartbeatCheck _ island => isDie island
  | .voterMismatch _ island _ => isDie island
  | .coreTestStart _ island => isDie island
  | .coreTestDone _ island _ => isDie island
  | .islandMonitorTrip _ island => isDie island
  | .voterInjection _ island _ => isDie island
  | .checkerInjection _ island _ _ => isDie island
  | .checkTokenRx _ _ => true
  | .spotRecomputeDone _ chk _ => isCheck chk
  | .checkVerdict _ chk => isCheck chk
  | .checkVerdictTimeout _ chk => isCheck chk
  | .mrtToken _ _ => true
  | .mrtAged _ island => isDie island
  | .deadlineMiss _ stream _ => isStream stream
  | .gloveTestSlice _ glove => isGlove glove
  | .gloveTestSliceDone _ glove _ => isGlove glove
  | .gloveWithdrawRequest _ glove => isGlove glove
  | .quadWithdrawSeam _ quad => isQuad quad
  | .quadReturnSeam _ quad => isQuad quad
  | .mbxStatus _ island => isDie island
  | .mbxMrtGet _ island => isDie island
  | .mbxTicket _ island => isDie island
  | .mbxOutcomeGet _ island => isDie island
  | .mbxLoopMode _ island => isDie island
  | .mbxUnblock _ island => isDie island
  | .mbxCheckClear _ island => isDie island
  | .mbxPatternAuth _ island => isDie island
  | .mbxDoneClear _ island => isDie island
  | .patternAuthExpire _ => true
  | .faultRaise _ col _ => isDie col
  | .faultLineBroken _ id => isSource id
  | .fwFaultAck _ src => isSource src
  | .fwIsolateCmd _ src part => isSource src && isPart part
  | .reactionTimerExpire _ src => isSource src
  | .isolationConfirm _ part => isPart part
  | .isolationUnconfirmed _ part => isPart part
  | .safeEnter _ col => isDie col
  | .collectorParityError _ col => isDie col
  | .thermalTrip _ pair _ _ => isPair pair
  | .sweepDone _ _ => true
  | .sweepTimeout _ => true
  | .ddrRequestEnter _ _ _ _ _ => true
  | .ddrCommandIssue _ ch _ => isChan ch
  | .ddrReadDecode _ ch _ => isChan ch
  | .ddrScrubRead _ ch _ => isChan ch
  | .ddrCaParityError _ ch _ => isChan ch
  | .ddrWriteCrcError _ ch _ => isChan ch
  | .ddrControllerParity _ ch => isChan ch
  | .ddrRefreshDue _ ch => isChan ch
  | .ddrRefreshWatchdog _ ch => isChan ch
  | .ddrTempRead _ ch _ => isChan ch
  | .ddrZqcs _ ch => isChan ch
  | .ddrPowerDownEnter _ ch => isChan ch
  | .ddrSelfRefreshEnter _ ch => isChan ch
  | .ddrTrainingDone _ ch _ _ _ _ _ => isChan ch
  | .retainRequest _ value => isWord value
  | .retainEntered _ => true
  | .retainWakeStamp _ => true
  | .retainExitDone _ => true
  | .stateHoldExpire _ => true
  | .crownPowerSample _ _ => true
  | .crownThrottleUpdate _ _ _ => true
  | .crownThermalRead _ _ => true
  | .shadowCrownTakeover _ => true
  | .trayI3cRead _ _ _ => true
  | .trayI3cWrite _ _ => true
  | .trayStale _ => true
  | .coolHoldQuiesced _ => true
  | .coolHoldExit _ => true
  | .coolantLowClear _ => true
  | .lifeMinute _ => true
  | .lifeLogWrite _ => true
  | .ageingRead _ die _ => isAgeDie die
  | .calWrite _ value => isWord value
  | .calWriteDone _ _ => true
  | .bootRomDone _ => true
  | .firmwareSelect _ _ => true
  | .mgmtFragmentRx _ island _ _ _ => isDie island
  | .mgmtReassemblyTimeout _ island => isDie island
  | .mgmtIdentity _ island => isDie island
  | .mgmtAttest _ island => isDie island
  | .mgmtEnroll _ island => isDie island
  | .mgmtRevoke _ island => isDie island
  | .mgmtSetFloor _ island => isDie island
  | .mgmtFirmware _ island => isDie island
  | .mgmtStore _ island => isDie island
  | .flashWriteDone _ _ => true
  | .hostLinkUp _ port => isHostPort port
  | .hostLinkDown _ port _ _ => isHostPort port
  | .portFailover _ port => isHostPort port
  | .perstAssert _ port _ => isHostPort port
  | .perstDeassert _ port => isHostPort port
  | .bar2Access _ port _ _ _ _ => isHostPort port
  | .hostReadCompletion _ port _ _ => isHostPort port
  | .hostCompletionTimeout _ port _ => isHostPort port
  | .msixUnmask _ port vector => isHostPort port && isVector vector
  | .ethTxProduce _ port prod => isEthPort port && isHalfWord prod
  | .attachQuiesce _ => true
  | .quiesceLimit _ => true
  | .quiesceComplete _ => true
  | .attachResume _ => true
  | .attachFence _ => true
  | .attachJoin _ => true
  | .attachUnredirect _ => true
  | .attachRestart _ key => isHalfWord key
  | .heartbeatSend _ => true
  | .heartbeatRx _ _ => true
  | .peerHeartbeatTimeout _ => true
  | .beaconSend _ island => isDie island
  | .lease _ island _ _ => isDie island
  | .fenceFrame _ island _ _ => isDie island
  | .restartFrame _ island _ _ => isDie island
  | .wakeFrame _ island _ _ => isDie island
  | .leaseGrace _ => true
  | .leaseExpire _ => true
  | .registerWrite _ port off _ _ => isHostPort port && isBar0 off
  | .ethLinkDown _ port => isEthPort port
  | .ethLinkUp _ port _ => isEthPort port
  | .csiLinkLost _ port => isCsiPort port
  | .d3hotEntry _ port _ => isHostPort port
  | .d3hotExit _ port => isHostPort port
  | .adminBaseTime _ port _ _ _ => isEthPort port
  | .testIntervalPassed _ glove => isGlove glove
  | .plannerTestInjection _ unit _ => isSlot unit
  | .projectionRecompute _ unit _ => isUnit unit
  | .rateDriftCheck _ island _ => isDie island
  | .patternStoreRead _ => true
  | .biasHoldLoss _ _ => true

end Sys2Proof
end

