-- ==== Sys2Proof/Safety.lean ====
section
/-!
DEFINITION. What a safe run is, in the terms statements use: canonical memories and tables, edges that balance, and the
outputs the module holds safe.
-/

namespace Sys2Proof

open Sys2Proof.Machine

/-- Every byte memory of the module is in canonical form. -/
def MemWf (s : State) : Prop :=
  Memory.wf s.ddr.mem = true ∧ Memory.wf s.host.mem = true
    ∧ Memory.wf s.isl.a.mbx.inBuf = true ∧ Memory.wf s.isl.a.mbx.outBuf = true
    ∧ Memory.wf s.isl.b.mbx.inBuf = true ∧ Memory.wf s.isl.b.mbx.outBuf = true

/-- An edge balances (R57, R218): every buffer of its depth is a free credit, a credit taken by a firing, a token in flight,
held or in use, or a credit on its way back. -/
def Balanced (e : Edge) : Prop :=
  e.credits + e.taken + e.flight.length + e.held.length + e.inUse + e.creditFlight = e.depth

/-- Device memory reads as before wherever `P` does not hold, and of the channels only the data of queued writes may differ
(R369, R373). -/
def DeviceKept (P : Nat → Prop) (s u : State) : Prop :=
  (∀ a, ¬ P a → devRd8 a u = devRd8 a s)
    ∧ (∀ ch, { chan ch u with writes := (chan ch u).writes.map (fun w : DdrWrite => { w with bytes := [] }) }
        = { chan ch s with writes := (chan ch s).writes.map (fun w : DdrWrite => { w with bytes := [] }) })

/-- An address of one of the two trace rings (R315). -/
def InTraceRing (a : Nat) : Prop := ∃ d, d < 2 ∧ Config.traceRing d ≤ a ∧ a < Config.traceRing d + 2 ^ 22

/-- Between `s` and `u`, collector `c` wrote the record `r` (R351, R352): into its ring and, at or above MIN_SEV, into the host
copy where the port carries it; a trace event goes with it. Of the other state only what the record's source, the commands
and the request for the safe state hold may differ. -/
def Recorded (c : Nat) (r : FaultRec) (s u : State) : Prop :=
  let n := (coll c s).rseq
  let k := s.fault.ringWr
  let at_ := s.fault.ringBase + k % 1024 * 32
  let phase := if k / 1024 % 2 = 0 then 1 else 0
  let copied := s.fault.ringEnable = true ∧ s.fault.ringMinSev ≤ r.sev
  tget {} (n % 4096) (coll c u).ring = { r with rseq := n, jepoch := s.power.jepoch }
    ∧ (∀ j, j ≠ n % 4096 → tget {} j (coll c u).ring = tget {} j (coll c s).ring)
    ∧ coll c u = { coll c s with
        ring := (coll c u).ring, open_ := (coll c u).open_, rseq := wrapAdd 32 n 1
        faults := if r.sev = 0 then (coll c s).faults else satAdd 32 (coll c s).faults 1 }
    ∧ coll (1 - c) u = coll (1 - c) s
    ∧ (copied → u.fault.ringWr = wrapAdd 16 k 1
        ∧ (carried s.fault.ringPort s = true → u.host = { s.host with
            mem := wrBytes s.host.mem at_ (recBytes { r with rseq := n, jepoch := s.power.jepoch } phase) })
        ∧ (carried s.fault.ringPort s = false → u.host = s.host))
    ∧ (¬ copied → u.fault.ringWr = k ∧ u.host = s.host)
    ∧ DeviceKept InTraceRing s u
    ∧ u = { s with
        time := { s.time with trace0 := u.time.trace0, trace1 := u.time.trace1 }
        ddr := u.ddr, host := u.host
        fault := { s.fault with
          src := u.fault.src, c0 := u.fault.c0, c1 := u.fault.c1, ringWr := u.fault.ringWr
          isoPend := u.fault.isoPend, safeReq := u.fault.safeReq } }

/-- Between `s` and `u` every ticket that `p` selects and a void can reach was voided with a cause and a part, and in a VOID_FOLLOW
stream every later open ticket with it (R209, R211, R216, R219); no other ticket changed. -/
def TicketsVoided (p : Ticket → Prop) (cause part : Nat) (s u : State) : Prop :=
  let hit := fun (k : Ticket) => (canVoid s k = true ∧ p k) ∨ (ticketOpen k = true ∧ (strm k.stream s).voidFollow = true
    ∧ ∃ h ∈ s.led.tickets, canVoid s h = true ∧ p h ∧ h.stream = k.stream ∧ h.seq < k.seq)
  u.led.tickets.length = s.led.tickets.length
    ∧ ∀ (i : Nat) (k : Ticket), s.led.tickets[i]? = some k →
      (hit k → u.led.tickets[i]? = some (k.voided cause part 0xFFFF 0 (stamp (liveDie (homeOf k.stream s) s) s)))
      ∧ (¬ hit k → u.led.tickets[i]? = some k)

/-- Both SAFE pins are low (R358). -/
def PinsLow (s : State) : Prop := s.fault.c0.pinLow = true ∧ s.fault.c1.pinLow = true

/-- R467's reserved ranges, and the gaps its table leaves between the listed ones. -/
abbrev ReservedOffset (off : Nat) : Prop :=
  (0x00070000 ≤ off ∧ off < 0x00080000) ∨ (0x000B0000 ≤ off ∧ off < 0x000C0000) ∨ (0x000D0000 ≤ off ∧ off < 0x000E0000)
    ∨ (0x000F0000 ≤ off ∧ off < 0x00100000) ∨ (0x00211000 ≤ off ∧ off < 0x00400000) ∨ (0x00454000 ≤ off ∧ off < 0x00460000)
    ∨ (0x00464000 ≤ off ∧ off < 0x00470000) ∨ 0x00470400 ≤ off

end Sys2Proof
end

