-- ==== Sys2Proof/Certificates/Slice0/Obligations.lean ====
section
/-!
DEFINITION. The statements for the provers, one definition each: what every command does when it is carried out, what it
leaves alone, and what holds of the whole module.
-/

open Sys2Proof Sys2Proof.Machine

/-- A step is `exec` of the front command; an idle step changes nothing (the model's choice, log entry 5). -/
def Obligations.StepRunsTheFrontCommand : Prop :=
  (∀ (c : Instr) (rest : List Instr) (s : State),
    Machine.step { s with pending := c :: rest } = Machine.exec c { s with pending := rest })
  ∧ ∀ s : State, s.pending = [] → Machine.step s = .next s

/-- No command touches the rest of the queue or turns time back (log entries 1 and 5). -/
def Obligations.EveryStepTakesOneCommandAndTimeNeverTurnsBack : Prop :=
  ∀ (s t : State) (c : Instr) (rest : List Instr), s.pending = c :: rest → Machine.step s = .next t →
    t.pending = rest ∧ s.time.now ≤ t.time.now

/-- The canonical form of every byte memory is kept by every step. -/
def Obligations.EveryMemoryStaysCanonical : Prop :=
  ∀ s t : State, MemWf s → Machine.step s = .next t → MemWf t

/-- The invariant of the memories holds after reset. -/
def Obligations.ResetMemoriesAreCanonical : Prop := MemWf State.reset ∧ State.reset.pending = []

/-- Reset values of the register tables (the fields whose reset the spec leaves open are not mentioned). -/
def Obligations.ResetRegistersReadAsTheTablesSay : Prop :=
  ∀ p : Nat, p < 2 →
    read32 p 0x08 State.reset = 0x540 + 4 * 2 ^ 12 + 12 * 2 ^ 16 + 8 * 2 ^ 20 + 4 * 2 ^ 24 + 2 * 2 ^ 28
    ∧ read32 p 0x0C State.reset = 0x180 + 0xC0 * 2 ^ 12 + 16 * 2 ^ 24
    ∧ read32 p 0x10 State.reset = 16 + 16 * 2 ^ 5 + 48 * 2 ^ 10 + 8 * 2 ^ 16 + 1 * 2 ^ 24
    ∧ read32 p 0x20 State.reset % 2 ^ 16 = 2
    ∧ read32 p 0x30 State.reset = 10 * 2 ^ 8
    ∧ read32 p 0x40 State.reset = 0
    ∧ read32 p 0x00010000 State.reset = 0
    ∧ read32 p 0x00010004 State.reset = 520 + 640 * 2 ^ 10
    ∧ read32 p 0x00010008 State.reset = 0
    ∧ read32 p 0x00020028 State.reset = 1000000
    ∧ read32 p 0x0002002C State.reset = 1000

/-- R4: capabilities do not move with isolation; the glove array and the fitter's registers do. -/
def Obligations.CapabilitiesStayAsBuilt : Prop :=
  ∀ (p : Nat) (s : State),
    read32 p 0x08 s = read32 p 0x08 State.reset ∧ read32 p 0x0C s = read32 p 0x0C State.reset
    ∧ read32 p 0x10 s = read32 p 0x10 State.reset
    ∧ ∀ g : Nat, g < 1344 → quadAvail (g / 4) s = false →
        read32 p (0x00400000 + g * 0x100) s % 8 = 5
        ∧ bit (read32 p (0x00040080 + g / 4 / 32 * 4) s) (g / 4 % 32) = false

/-- R14, for every port, offset, size, value and state. -/
def Obligations.UnalignedAndUnimplementedAccessesOfRegisters : Prop :=
  (∀ (p off size : Nat) (s : State), 0 < size → ¬ (size = 32 ∧ off % 4 = 0) → ¬ (size = 64 ∧ off % 8 = 0) →
    (regRead p off size s).2 = s
    ∧ (regRead p off size s).1 = 2 ^ (32 * ((off + (size + 7) / 8 - 1) / 4 - off / 4 + 1)) - 1
    ∧ ∀ t v : Nat, Machine.exec (.registerWrite t p off size v) s = .next (advanceTo t s))
  ∧ (∀ (p off : Nat) (s : State), ReservedOffset off → off % 4 = 0 →
    (regRead p off 32 s).1 = 0
    ∧ ∀ t v : Nat, Machine.exec (.registerWrite t p off 32 v) s = .next (advanceTo t s))
  ∧ (∀ (t p off v : Nat) (s : State), off % 8 = 0 → off < 0x04000000 → portUp p (advanceTo t s) = true →
    offBlocked off (advanceTo t s) = false → wideReg off = none →
    Machine.exec (.registerWrite t p off 64 v) s
      = .next (write32 p (off + 4) (v / 2 ^ 32 % 2 ^ 32) (write32 p off (v % 2 ^ 32) (advanceTo t s))))
  ∧ (∀ (p off : Nat) (s : State), off % 8 = 0 → wideVal off s = none →
    (regRead p off 64 s).1 = read32 p off s + read32 p (off + 4) s * 2 ^ 32)

/-- MATE_STAGE and BIAS_HOLD_LOSS (R29, R32, R33): result, frame and completion. -/
def Obligations.ConnectorMatesInOrderAndBiasHoldsThePins : Prop :=
  (∀ (t stage : Nat) (cool : Bool) (s : State), stage ≤ 3 → (stage = s.power.mate + 1 ∨ s.power.mate = stage + 1) →
    (stage ≠ 0 → cool = true) →
    ∃ u, Machine.exec (.mateStage t stage cool) s = .next u ∧ u.power.mate = stage ∧ u.power.coolant = cool
      ∧ u.power.prsnt = decide (1 ≤ stage) ∧ (stage < 3 → u.power.pwrEn = false) ∧ (stage < 2 → u.power.biasHeld = false)
      ∧ (stage < 2 → s.power.on = true → u.power.on = false ∧ u.power.st = .off)
      ∧ (2 ≤ stage ∨ s.power.on = false → u = { advanceTo t s with power := { s.power with
          mate := stage, coolant := cool, prsnt := u.power.prsnt, pwrEn := u.power.pwrEn, biasHeld := u.power.biasHeld } }))
  ∧ (∀ (t stage : Nat) (cool : Bool) (s : State), (stage + 1 < s.power.mate ∨ s.power.mate + 1 < stage ∨ (stage ≠ 0 ∧ cool = false)) →
    Machine.exec (.mateStage t stage cool) s = .next (advanceTo t s))
  ∧ (∀ (t mv : Nat) (s : State),
    let lost := { advanceTo t s with power := { s.power with biasHeld := false }, fab := { s.fab with fresh := s.fab.fresh + 1 } }
    (2 ≤ s.power.mate → 9000 ≤ mv →
      Machine.exec (.biasHoldLoss t mv) s = .next { advanceTo t s with power := { s.power with biasHeld := true } })
    ∧ (s.power.mate < 2 ∨ mv < 9000 →
        (s.power.aon0 = s.power.aon1 ∨ (s.fault.c0.pinLow = false ∧ s.fault.c1.pinLow = false) →
          Machine.exec (.biasHoldLoss t mv) s = .next lost)
        ∧ ∃ u, Machine.exec (.biasHoldLoss t mv) s = .next u ∧ u = { lost with fault := { s.fault with src := u.fault.src } }
            ∧ ∀ id, id ≠ 0x1BD → id ≠ 0x5BD → fsrc id u = fsrc id s))

/-- The turn-offs of R31 and R33. -/
def Obligations.PowerStageTurnsOffAtItsLimits : Prop :=
  ∀ (t mv ns : Nat) (s : State), s.power.on = true →
    let held := { advanceTo t s with power := { s.power with biasHeld := decide (2 ≤ s.power.mate ∧ 9000 ≤ mv) } }
    let off := fun (u : State) => u.power.on = false ∧ u.power.st = .off ∧ (s.power.st ≠ .off → u.power.prev = s.power.st)
      ∧ u.power.aon0 = false ∧ u.power.aon1 = false ∧ u.power.pgood = false
      ∧ u.power.jepoch = s.power.jepoch ∧ u.power.jepochA = s.power.jepochA ∧ u.power.jepochB = s.power.jepochB
      ∧ u.sec.storeA = s.sec.storeA ∧ u.sec.storeB = s.sec.storeB ∧ u.sec.seed = s.sec.seed ∧ u.sec.ownerSet = s.sec.ownerSet
    (mv < 33000 → 50000 < ns → ∃ u, Machine.exec (.inputUndervoltageOff t mv ns) s = .next u ∧ off u)
    ∧ (63000 < mv → 50000 < ns → ∃ u, Machine.exec (.inputOvervoltageOff t mv ns) s = .next u ∧ off u)
    ∧ (100000 < ns → ∃ u, Machine.exec (.pwrEnLowOff t ns) s = .next u ∧ off u ∧ u.power.pwrEn = false)
    ∧ (∃ u, Machine.exec (.presenceLossOff t) s = .next u ∧ off u ∧ u.power.prsnt = false)
    ∧ (33000 ≤ mv ∨ ns ≤ 50000 → Machine.exec (.inputUndervoltageOff t mv ns) s = .next held)
    ∧ (mv ≤ 63000 ∨ ns ≤ 50000 → Machine.exec (.inputOvervoltageOff t mv ns) s = .next held)
    ∧ (ns ≤ 100000 → Machine.exec (.pwrEnLowOff t ns) s
        = .next { advanceTo t s with power := { s.power with pwrEn := false } })

/-- INPUT_QUALIFIED and PGOOD_RELEASE (R8, R30, R31). -/
def Obligations.StartFromFullPowerLossRaisesJepoch : Prop :=
  (∀ (t mv : Nat) (s : State), s.power.mate = 3 → s.power.prsnt = true → s.power.on = false → 36000 ≤ mv → mv ≤ 60000 →
    ∃ u, Machine.exec (.inputQualified t mv) s = .next u ∧ u.power.on = true
      ∧ u = { advanceTo t s with power := { s.power with on := true, pwrEn := true, biasHeld := true } })
  ∧ (∀ (t : Nat) (s : State), s.power.on = true → s.power.pgood = false → s.power.aon0 = false → s.power.aon1 = false →
    ∃ u, Machine.exec (.pgoodRelease t) s = .next u
      ∧ u.power.pgood = true ∧ u.power.aon0 = true ∧ u.power.aon1 = true
      ∧ u.power.st = .boot ∧ (s.power.st ≠ .boot → u.power.prev = s.power.st) ∧ u.power.position = s.power.strapPins % 4
      ∧ PinsLow u
      ∧ (∀ v : Nat, (s.power.jepochA = some v ∧ s.power.jepochB = some v)
            ∨ (s.power.jepochA = some v ∧ s.power.jepochB = none) ∨ (s.power.jepochA = none ∧ s.power.jepochB = some v)
            ∨ (∃ w, v = (w + 1) % 65536 ∧ w ≠ (v + 1) % 65536
                ∧ ((s.power.jepochA = some w ∧ s.power.jepochB = some v) ∨ (s.power.jepochA = some v ∧ s.power.jepochB = some w)))
            ∨ (∃ w, w < v ∧ v ≠ (w + 1) % 65536 ∧ w ≠ (v + 1) % 65536
                ∧ ((s.power.jepochA = some w ∧ s.power.jepochB = some v) ∨ (s.power.jepochA = some v ∧ s.power.jepochB = some w))) →
          u.power.jepoch = (v + 1) % 65536 ∧ u.power.jepochA = some u.power.jepoch ∧ u.power.jepochB = some u.power.jepoch)
      ∧ (s.power.jepochA = none ∧ s.power.jepochB = none → u.sec.stopped = true ∧ u.power.jepoch = s.power.jepoch
          ∧ (s.power.strapPins % 4 ≠ 3 → u.sec.code = 0x0A))
      ∧ (s.power.strapPins % 4 = 3 → u.sec.stopped = true ∧ u.sec.code = 0x01 ∧ (fsrc 0x1BC u).latched = true ∧ (fsrc 0x5BC u).latched = true
          ∧ (fsrc 0x1BC u).detail = 0 ∧ (fsrc 0x5BC u).detail = 0))

/-- R8's "and only then" over every command, and the one-time programmable OWNER_SET and identity seed. -/
def Obligations.JournalEpochChangesOnlyAtAColdStart : Prop :=
  ∀ (c : Instr) (s u : State), Machine.exec c s = .next u →
    ((∀ t : Nat, c ≠ .pgoodRelease t) ∨ s.power.aon0 = true ∨ s.power.aon1 = true →
      u.power.jepoch = s.power.jepoch ∧ u.power.jepochA = s.power.jepochA ∧ u.power.jepochB = s.power.jepochB)
    ∧ (s.sec.ownerSet = true → u.sec.ownerSet = true) ∧ u.sec.seed = s.sec.seed

/-- INPUT_VOLTAGE_WARN, RAIL_OUT_OF_REGULATION and REFCLK_LOSS (R18, R25, R31). -/
def Obligations.InputRailAndClockFaultsAreLatched : Prop :=
  (∀ (t mv : Nat) (s : State), s.power.on = true → (33000 ≤ mv ∧ mv < 36000) ∨ (60000 < mv ∧ mv ≤ 63000) →
    ∃ u, Machine.exec (.inputVoltageWarn t mv) s = .next u
      ∧ (∀ id, id = 0x1B0 ∨ id = 0x5B0 → (fsrc id u).latched = true ∧ (fsrc id u).detail = if mv < 36000 then 0 else 1)
      ∧ u = { advanceTo t s with fault := { s.fault with src := u.fault.src },
                                 power := { s.power with biasHeld := decide (2 ≤ s.power.mate) } }
      ∧ ∀ id, id ≠ 0x1B0 → id ≠ 0x5B0 → fsrc id u = fsrc id s)
  ∧ (∀ (t half rail : Nat) (s : State), half < 2 → rail < 7 → s.power.aon0 = true → s.power.aon1 = true →
    ∃ u, Machine.exec (.railOutOfRegulation t half rail) s = .next u
      ∧ u.power.pgood = false ∧ (fsrc (railSource half rail) u).latched = true
      ∧ (rail = 0 → u.power.aon0 = true ∧ u.power.aon1 = true
          ∧ (if half = 0 then u.power.main0 = false else u.power.main1 = false))
      ∧ (rail = 6 → half = 0 → u.power.aon0 = false ∧ u.power.aon1 = true ∧ u.fault.c0.pinLow = true)
      ∧ (rail = 6 → half = 1 → u.power.aon0 = true ∧ u.power.aon1 = false ∧ u.fault.c1.pinLow = true)
      ∧ u = { advanceTo t s with power := u.power, fault := u.fault, isl := u.isl })
  ∧ (∀ (t half : Nat) (ppm : Option Int) (s : State), s.power.on = true → half < 2 →
    ((∀ p, ppm = some p → 1000 < p.natAbs) →
      ∃ u, Machine.exec (.refclkLoss t half ppm) s = .next u ∧ (fsrc (half * 0x400 + 0x1A0) u).latched = true
        ∧ (if half = 0 then u.power.refB = false else u.power.refA = false)
        ∧ u = { advanceTo t s with power := u.power, fault := { s.fault with src := u.fault.src } })
    ∧ ∀ p, ppm = some p → p.natAbs ≤ 1000 → Machine.exec (.refclkLoss t half ppm) s = .next (advanceTo t s))

/-- RETAIN_REQUEST, RETAIN_ENTERED, RETAIN_WAKE_STAMP and STATE_HOLD_EXPIRE (R390, R391, R413, R472). -/
def Obligations.RetainIsRequestedEnteredAndLeft : Prop :=
  (∀ (t v : Nat) (s : State), bits v 1 0 = 1 → s.power.retainEntry = false →
    ∃ u, Machine.exec (.retainRequest t v) s = .next u
      ∧ ((s.power.st ≠ .standby ∧ s.power.st ≠ .degraded) ∨ anyOpen s = true ∨ loopActive s = true ∨ s.pat.job.isSome = true
            ∨ (engines s).any engBusy = true ∨ s.crown.calBusy = true →
          u.power.refused = true ∧ u.power.retainEntry = false ∧ u.led = s.led)
      ∧ (¬ ((s.power.st ≠ .standby ∧ s.power.st ≠ .degraded) ∨ anyOpen s = true ∨ loopActive s = true ∨ s.pat.job.isSome = true
            ∨ (engines s).any engBusy = true ∨ s.crown.calBusy = true) →
          u.power.retainEntry = true ∧ u.led = { s.led with stopRetain := true })
      ∧ u.power.wakeEn = bit v 3
      ∧ u.power.holdMs = (if s.power.st = .standby then bits v 15 8 else s.power.holdMs)
      ∧ (s.power.st ≠ .standby → bits v 15 8 ≠ s.power.holdMs →
          u.power.pwrCfgBusy = true ∧ (fsrc 0x142 u).latched = true ∧ (fsrc 0x142 u).detail = 0x30)
      ∧ u = { advanceTo t s with power := u.power, led := u.led, fault := u.fault })
  ∧ (∀ (t : Nat) (s : State), s.power.retainEntry = true → ddrAsleep s = true →
    ∃ u, Machine.exec (.retainEntered t) s = .next u ∧ u.power.retainEntry = false
      ∧ u.host.p0.link = false ∧ u.host.p1.link = false ∧ u.fab.queued = []
      ∧ (s.power.wakePend = false → u.power.inRetain = true) ∧ (s.power.wakePend = true → u.power.retainExit = true)
      ∧ (s.power.on = true → islandRuns 0 s = true → s.sec.flashA.ok = true →
          u.sec.flashA = { s.sec.flashA with lifeLog := (s.crown.lifeH, s.crown.lifeUsed) })
      ∧ u = { advanceTo t s with
          power := u.power, host := u.host, fab := u.fab, sec := { s.sec with flashA := u.sec.flashA } })
  ∧ (∀ (t : Nat) (s : State), s.power.wakeEn = true → s.power.inRetain = true → s.power.retainEntry = false →
      s.power.wakeStamp ≤ stamp (liveDie 0 s) (advanceTo t s) →
    ∃ u, Machine.exec (.retainWakeStamp t) s = .next u ∧ u.power.inRetain = false ∧ u.power.retainExit = true
      ∧ u = { advanceTo t s with power := u.power })
  ∧ (∀ (t : Nat) (s : State), ∃ u, Machine.exec (.stateHoldExpire t) s = .next u ∧ u.power.st = modStateOf (advanceTo t s)
      ∧ (u.power.st ≠ s.power.st → u.power.prev = s.power.st)
      ∧ u = { advanceTo t s with power := { s.power with st := u.power.st, prev := u.power.prev } })

/-- CROWN_POWER_SAMPLE and CROWN_THROTTLE_UPDATE (R394 to R398). -/
def Obligations.PowerSamplesDriveTheBackstopAndTheLevels : Prop :=
  (∀ (t mw : Nat) (s : State), s.power.on = true →
    ∃ u, Machine.exec (.crownPowerSample t mw) s = .next u
      ∧ u.crown.sumMw = s.crown.sumMw + mw ∧ u.crown.sumN = s.crown.sumN + 1
      ∧ u.crown.peakW = max s.crown.peakW (satU 10 (mw / 1000))
      ∧ (eShortMw s < mw → s.crown.overShort ≠ 0 → u.crown.hardCap = true)
      ∧ (eShortMw s < mw → s.crown.overShort ≠ 0 → s.crown.hardCap = false →
          u.crown.excursions = satAdd 12 s.crown.excursions 1 ∧ (fsrc (crownColl s * 0x400 + 0x1BB) u).latched = true)
      ∧ (mw ≤ eShortMw s → mw * 10 ≤ eRunMw s * 9 → u.crown.hardCap = false)
      ∧ u = { advanceTo t s with crown := u.crown, fault := u.fault })
  ∧ (∀ (t : Nat) (above forecast : List Nat) (s : State), crownUp s = true →
    let avg := if s.crown.sumN = 0 then 0 else s.crown.sumMw / s.crown.sumN
    ∃ u, Machine.exec (.crownThrottleUpdate t above forecast) s = .next u
      ∧ (eRunMw s < avg → u.crown.level = min 3 (s.crown.level + 1))
      ∧ (avg ≤ eRunMw s → eRunMw s * 9 ≤ avg * 10 → u.crown.level = s.crown.level)
      ∧ (avg ≤ eRunMw s → u.crown.level = s.crown.level ∨ u.crown.level = s.crown.level - 1)
      ∧ u.crown.nowW = satU 10 (avg / 1000) ∧ u.crown.sumMw = 0 ∧ u.crown.sumN = 0
      ∧ (twf {} s.fab.mittens = true → ∀ m, (mitten m s).bound = true → (mitten m u).halfNext = (above.contains m && budgeted m s))
      ∧ u = { advanceTo t s with crown := u.crown, fab := { s.fab with mittens := u.fab.mittens } })

/-- TRAY_I3C_READ, TRAY_I3C_WRITE, TRAY_STALE, COOLANT_LOW_CLEAR, COOL_HOLD_QUIESCED and COOL_HOLD_EXIT (R399 to R404). -/
def Obligations.CoolantFaultsHoldTheModule : Prop :=
  (∀ (t : Nat) (bs : List Byte) (s : State), s.power.on = true → dieUp 0 s = true → trayGood true bs = true →
    let inlet := sext 16 (fieldLe bs 0 2)
    let flow := fieldLe bs 4 2
    ∃ u, Machine.exec (.trayI3cRead t true bs) s = .next u
      ∧ u.crown.inlet = inlet ∧ u.crown.outlet = sext 16 (fieldLe bs 2 2) ∧ u.crown.flow = flow
      ∧ u.crown.trayOk = true ∧ u.crown.stale = false
      ∧ u.crown.inletLow = decide (inlet < 1000) ∧ u.crown.inletHigh = decide (6000 < inlet)
      ∧ (flow < 800 ∨ 7000 ≤ inlet → u.crown.coolHold = true ∧ (s.crown.coolHold = false → u.led.stopCool = true
          ∧ (fsrc (crownColl s * 0x400 + 0x1B5) u).latched = true))
      ∧ (flow < 3200 → s.crown.flowLow = false → (fsrc (crownColl s * 0x400 + 0x1B4) u).latched = true)
      ∧ u = { advanceTo t s with crown := u.crown, fault := u.fault, led := u.led, power := u.power })
  ∧ (∀ (t : Nat) (ack : Bool) (bs : List Byte) (s : State), trayGood ack bs = false →
    Machine.exec (.trayI3cRead t ack bs) s = .next (advanceTo t s))
  ∧ (∀ (t : Nat) (s : State), s.power.on = true → dieUp 0 s = true →
    ∃ u, Machine.exec (.trayI3cWrite t true) s = .next u
      ∧ u.crown.traySent = forecastBytes (advanceTo t s) :: s.crown.traySent
      ∧ u = { advanceTo t s with crown := { s.crown with traySent := u.crown.traySent } })
  ∧ (∀ (t a : Nat) (s : State), s.power.on = true → s.crown.stale = false → s.crown.goodAt = some a →
      a + 100000000 ≤ (advanceTo t s).time.now →
    ∃ u, Machine.exec (.trayStale t) s = .next u ∧ u.crown.stale = true ∧ u.crown.trayOk = false
      ∧ (fsrc (crownColl s * 0x400 + 0x1BA) u).latched = true
      ∧ u = { advanceTo t s with crown := u.crown, fault := u.fault, power := u.power })
  ∧ (∀ (t a : Nat) (s : State), s.crown.flowOkSince = some a → a + 10000000000 ≤ (advanceTo t s).time.now →
    ∃ u, Machine.exec (.coolantLowClear t) s = .next u ∧ u.crown.flowLow = false
      ∧ u = { advanceTo t s with crown := { s.crown with flowLow := false } })
  ∧ (∀ (t : Nat) (s : State), s.crown.coolHold = true → s.crown.coolGated = false → anyFiring s = false →
    ∃ u, Machine.exec (.coolHoldQuiesced t) s = .next u ∧ u.crown.coolGated = true ∧ u.crown.coolHold = true
      ∧ anyOpen u = false)
  ∧ (∀ (t a : Nat) (s : State), s.crown.coolHold = true → s.crown.coolSince = some a → coolOk s = true →
      a + 10000000000 ≤ (advanceTo t s).time.now →
    ∃ u, Machine.exec (.coolHoldExit t) s = .next u ∧ u.crown.coolHold = false ∧ u.led.stopCool = false
      ∧ u = { advanceTo t s with crown := u.crown, led := u.led, power := u.power })

/-- CROWN_THERMAL_READ and SHADOW_CROWN_TAKEOVER (R397, R405 to R407). -/
def Obligations.ThermalSensorsAreMaskedAndThrottle : Prop :=
  (∀ (t i : Nat) (rd rr : Int) (s : State), crownUp s = true → i < 344 → dieUp (pairHalf i) s = true →
    let d := rd + tget 0 i s.crown.offD
    let r := rr + tget 0 i s.crown.offR
    let mD := (tpair i s).maskD || outOfRange d
    let mR := (tpair i s).maskR || outOfRange r
    let limit := fun (c : Int) => (if s.crown.calRead = true ∧ s.crown.calThermal = false then c - 5 else c) * 128
    ∃ u, Machine.exec (.crownThermalRead t [(i, rd, rr)]) s = .next u
      ∧ (tpair i u).diode = d ∧ (tpair i u).ring = r ∧ (tpair i u).maskD = mD ∧ (tpair i u).maskR = mR
      ∧ (mD = false → mR = false → (d - r).natAbs ≤ 6 * 128 → (tpair i u).hot = some (max d r))
      ∧ (mD = true → mR = false → (tpair i u).hot = some (r + 3 * 128))
      ∧ (mD = false → mR = true → (tpair i u).hot = some (d + 3 * 128))
      ∧ (mD = true → mR = true → (tpair i u).hot = if i < 336 then none else some (105 * 128))
      ∧ (∀ h, (tpair i u).hot = some h →
          (limit 100 ≤ h → (tpair i u).halfRate = true) ∧ (limit 104 ≤ h → (tpair i u).held = true)
          ∧ (h < limit 97 → (tpair i u).halfRate = false) ∧ (h < limit 102 → (tpair i u).held = false))
      ∧ (∀ j, j ≠ i → tpair j u = tpair j s)
      ∧ u = { advanceTo t s with crown := u.crown, fault := u.fault, led := u.led, power := u.power })
  ∧ (∀ (t : Nat) (rs : List (Nat × Int × Int)) (s u : State), Machine.exec (.crownThermalRead t rs) s = .next u →
      ∀ i, ((tpair i s).maskD = true → (tpair i u).maskD = true) ∧ ((tpair i s).maskR = true → (tpair i u).maskR = true))
  ∧ (∀ (t : Nat) (s : State), dieUp 0 s = false → dieUp 1 s = true →
    ∃ u, Machine.exec (.shadowCrownTakeover t) s = .next u ∧ u.crown.acting = true
      ∧ u = { advanceTo t s with crown := { s.crown with acting := true }, power := u.power })

/-- LIFE_MINUTE, LIFE_LOG_WRITE, AGEING_READ, CAL_WRITE and CAL_WRITE_DONE (R409, R410, R412). -/
def Obligations.LifeCountersAgeingAndCalibrationWrites : Prop :=
  (∀ (t : Nat) (s : State), s.power.st ≠ .off → s.power.st ≠ .retain →
    ∃ u, Machine.exec (.lifeMinute t) s = .next u
      ∧ u.crown.lifeMin = (s.crown.lifeMin + 1) % 60
      ∧ u.crown.lifeH = (if s.crown.lifeMin = 59 then wrapAdd 32 s.crown.lifeH 1 else s.crown.lifeH)
      ∧ u.crown.lifeUsed = wrapAdd 32 s.crown.lifeUsed ((s.crown.lifeFrac + lifeAdd s.crown) / 2 ^ 32)
      ∧ u = { advanceTo t s with crown := u.crown })
  ∧ (∀ (t : Nat) (s : State), s.power.on = true → islandRuns 0 s = true → s.sec.flashA.ok = true →
    ∃ u, Machine.exec (.lifeLogWrite t) s = .next u
      ∧ u.sec.flashA = { s.sec.flashA with lifeLog := (s.crown.lifeH, s.crown.lifeUsed) }
      ∧ u = { advanceTo t s with sec := { s.sec with flashA := u.sec.flashA } })
  ∧ (∀ (t k d : Nat) (s : State), k < 6 → isIso k s = false → crownUp s = true →
    ∃ u, Machine.exec (.ageingRead t k d) s = .next u
      ∧ tget ({} : AgeReg) k u.crown.age
          = { degrade := satU 16 d, trimMv := min 40 (5 * (d / 100)), limit := decide (8 < d / 100) }
      ∧ (∀ j, j ≠ k → tget ({} : AgeReg) j u.crown.age = tget ({} : AgeReg) j s.crown.age)
      ∧ u = { advanceTo t s with crown := { s.crown with age := u.crown.age } })
  ∧ (∀ (t v : Nat) (s : State), bit v 31 = true →
    let busy := (s.power.st ≠ .standby ∧ s.power.st ≠ .degraded) ∨ s.pat.job.isSome = true ∨ s.power.retainEntry = true
      ∨ s.crown.calBusy = true
    let set := devRd s.crown.calAddr 10028 (advanceTo t s)
    ∃ u, Machine.exec (.calWrite t v) s = .next u
      ∧ (busy → u.crown.calResult = 2 ∧ u.crown.calBusy = s.crown.calBusy)
      ∧ (¬ busy → bits v 16 0 = 10028 → fieldLe set 6 1 = 2 → calVerifies set (advanceTo t s) = true →
          u.crown.calBusy = true ∧ u.crown.calNew = set)
      ∧ (¬ busy → calVerifies set (advanceTo t s) = false → u.crown.calResult = 3 ∧ u.crown.calBusy = false)
      ∧ u = { advanceTo t s with crown := u.crown, fault := u.fault })
  ∧ (∀ (t : Nat) (ok : Bool) (s : State), s.crown.calBusy = true →
    ∃ u, Machine.exec (.calWriteDone t ok) s = .next u ∧ u.crown.calBusy = false
      ∧ u.crown.calResult = (if ok then 1 else 4) ∧ u.sec.flashA.cal = (if ok then s.crown.calNew else [])
      ∧ u = { advanceTo t s with crown := u.crown, sec := { s.sec with flashA := u.sec.flashA } })

/-- FAULT_RAISE and FAULT_LINE_BROKEN (R346, R347, R351, R353, R354). -/
def Obligations.RaisesAreRecordedAndActedOnBySeverity : Prop :=
  (∀ (t c i d : Nat) (s : State), c < 2 → 0x198 ≤ i → i < 0x400 → twf {} s.fault.src = true → (∀ j, (fsrc j s).hits = 0) →
    s.power.safe = false → s.fault.sweepAt = none → (fsrc (c * 0x400 + i) s).active = false →
    (fsrc (c * 0x400 + i) s).lastRec = none → (coll c s).rseq < 2 ^ 32 →
    let id := c * 0x400 + i
    let p := if (fsrc id s).part = 0xFF then srcPart id else (fsrc id s).part
    let sev := sevOf id s
    ∃ u, Machine.exec (.faultRaise t c [(i, d)]) s = .next u
      ∧ (fsrc id u).count = satAdd 16 (fsrc id s).count 1 ∧ (fsrc id u).hits = 0
      ∧ (coll c u).rseq = ((coll c s).rseq + 1) % 2 ^ 32
      ∧ (∃ r, tget {} ((coll c s).rseq % 4096) (coll c u).ring = r ∧ r.source = id ∧ r.sev = sev ∧ r.detail = d
          ∧ r.rseq = (coll c s).rseq ∧ r.part = partId p ∧ r.count = (fsrc id u).count
          ∧ (sev = 0 → r.action = 0) ∧ (sev = 1 → r.action = 1) ∧ (3 ≤ sev → r.action = 5)
          ∧ (sev = 2 → r.action = if p ≠ 0xFF ∧ isIso p s = true then 8 else 1))
      ∧ (sev ≤ 1 → (fsrc id u).active = false ∧ (fsrc id u).latched = (fsrc id s).wire)
      ∧ (sev = 2 → (p = 0xFF ∨ isIso p s = false) → timersRunning c s < 32 →
          (fsrc id u).active = true ∧ (fsrc id u).timer = some (advanceTo t s).time.now)
      ∧ (3 ≤ sev → (fsrc id u).active = true
          ∧ (s.fault.safeReq = none → ∃ st, u.fault.safeReq = some (id, 1, st)))
      ∧ (∀ j, j ≠ id → fsrc j u = fsrc j s))
  ∧ (∀ (t id : Nat) (s : State), lineGated id s = false → id % 0x400 ≠ 0x1BF →
    ∃ u, Machine.exec (.faultLineBroken t id) s = .next u
      ∧ (fsrc id u).wire = true ∧ (fsrc id u).latched = true ∧ (fsrc id u).hits = (fsrc id s).hits + 1
      ∧ (fsrc (id / 0x400 * 0x400 + 0x1BF) u).latched = true
      ∧ (fsrc (id / 0x400 * 0x400 + 0x1BF) u).detail = id % 0x400
      ∧ u = { advanceTo t s with fault := { s.fault with src := u.fault.src } })

/-- FW_FAULT_ACK, FW_ISOLATE_CMD and REACTION_TIMER_EXPIRE (R354, R355, R366): each command completes from every state, for
every source. An acknowledgement or a command counts while the timer runs and some firmware answers the collector; at the
expiry, which comes first in its cycle, hardware isolates PART, or asks for the safe state where there is none. -/
def Obligations.ReactionTimersEndByFirmwareOrByIsolation : Prop :=
  ∀ (t id part : Nat) (s0 : State), id < 2048 →
    let s := advanceTo t s0
    let c := id / 0x400
    let x := fsrc id s
    let p := if x.part = 0xFF then srcPart id else x.part
    let ended := fun (action : Nat) (u : State) =>
      fsrc id u = { x with timer := none, active := false, latched := x.wire } ∧ (∀ j, j ≠ id → fsrc j u = fsrc j s)
      ∧ (coll c u).open_ = (coll c s).open_.filter (· != id) ∧ u.fault.isoPend = s.fault.isoPend
      ∧ Recorded c { raiseRec id action s with done := shortStamp c s } s u
    (timerDue id s = false → x.timer.isSome = true → fwHandles c s = true →
      (∃ u, Machine.exec (.fwFaultAck t id) s0 = .next u ∧ ended 2 u ∧ u.fault.safeReq = s.fault.safeReq)
      ∧ ∃ u, Machine.exec (.fwIsolateCmd t id part) s0 = .next u
        ∧ fsrc id u = { x with timer := none } ∧ (∀ j, j ≠ id → fsrc j u = fsrc j s)
        ∧ u = { s with fault := { s.fault with
            src := u.fault.src, isoPend := s.fault.isoPend ++ [⟨part, some id, 3, s.time.now⟩] } })
    ∧ (timerDue id s = false → x.timer = none ∨ fwHandles c s = false →
        Machine.exec (.fwFaultAck t id) s0 = .next s ∧ Machine.exec (.fwIsolateCmd t id part) s0 = .next s)
    ∧ (timerDue id s = false → Machine.exec (.reactionTimerExpire t id) s0 = .next s)
    ∧ (timerDue id s = true → ∃ u, Machine.exec (.reactionTimerExpire t id) s0 = .next u
        ∧ Machine.exec (.fwFaultAck t id) s0 = .next u ∧ Machine.exec (.fwIsolateCmd t id part) s0 = .next u
        ∧ (p ≠ 0xFF → fsrc id u = { x with timer := none } ∧ (∀ j, j ≠ id → fsrc j u = fsrc j s)
            ∧ u = { s with fault := { s.fault with
                src := u.fault.src, isoPend := s.fault.isoPend ++ [⟨p, some id, 4, s.time.now⟩] } })
        ∧ (p = 0xFF → ended 6 u
            ∧ (s.fault.safeReq = none → s.power.safe = false → u.fault.safeReq = some (id, 2, stamp c s))
            ∧ (s.fault.safeReq.isSome = true ∨ s.power.safe = true → u.fault.safeReq = s.fault.safeReq)))

/-- ISOLATION_CONFIRM and ISOLATION_UNCONFIRMED (R354, R356, R357). -/
def Obligations.IsolationsAreConfirmedOrEndInTheSafeState : Prop :=
  (∀ (t part : Nat) (x : IsoCmd) (s : State), isoCmd part s = some x → (advanceTo t s).time.now ≤ x.at_ + 5000 → partKnown part = true →
    ∃ u, Machine.exec (.isolationConfirm t part) s = .next u
      ∧ isIso part u = true ∧ (isIso part s = false → ∀ p ∈ partsBehind part, isIso p u = true)
      ∧ (∀ p, isIso p s = true → isIso p u = true) ∧ isoCmd part u = none)
  ∧ (∀ (t part : Nat) (x : IsoCmd) (s : State), isoCmd part s = some x → x.at_ + 5000 < (advanceTo t s).time.now →
      s.fault.safeReq = none → s.power.safe = false →
    ∃ u, Machine.exec (.isolationUnconfirmed t part) s = .next u
      ∧ (∃ id st, u.fault.safeReq = some (id, 2, st) ∧ id = x.src.getD (partHalf part * 0x400 + 0x1C0))
      ∧ isoCmd part u = none ∧ u.fault.isolated = s.fault.isolated)

/-- SAFE_ENTER and THERMAL_TRIP (R358, R408). -/
def Obligations.TheSafeStateAssertsBothPinsAndVoidsAll : Prop :=
  let isSafe := fun (u : State) (id cause : Nat) => PinsLow u ∧ u.power.st = .safe ∧ u.power.safe = true ∧ u.power.fastStopped = true
    ∧ u.fault.safeReq = none ∧ u.fault.safeValid = true ∧ u.fault.safeSource = id ∧ u.fault.safeCause = cause ∧ anyOpen u = false
  (∀ (t col id cause st : Nat) (s : State), s.fault.safeReq = some (id, cause, st) → id / 0x400 = col → s.power.on = true →
      (s.power.aon0 = true ∨ s.power.aon1 = true) →
    ∃ u, Machine.exec (.safeEnter t col) s = .next u ∧ isSafe u id cause ∧ u.fault.safeStamp = st
      ∧ ∀ n, (lslot n s).declared = true → engineUp n s = true → (lslot n u).st = .stopped ∨ (lslot n u).st = .safeOut)
  ∧ (∀ (t pair : Nat) (ring : Bool) (raw : Int) (s : State), pair < 344 → s.power.on = true →
      (s.power.aon0 = true ∨ s.power.aon1 = true) → s.power.safe = false → s.fault.safeReq = none →
      (if ring then (tpair pair s).maskR else (tpair pair s).maskD) = false →
      115 * 128 ≤ raw + tget 0 pair (if ring then s.crown.offR else s.crown.offD) →
      (fsrc (pairHalf pair * 0x400 + 0x1B9) s).active = false → s.fault.profile = [] →
    ∃ u, Machine.exec (.thermalTrip t pair ring raw) s = .next u ∧ isSafe u (pairHalf pair * 0x400 + 0x1B9) 1)

/-- COLLECTOR_PARITY_ERROR, SWEEP_DONE and SWEEP_TIMEOUT (R360, R364, R365). -/
def Obligations.CollectorParityAndTheStartUpSweep : Prop :=
  (∀ (t c : Nat) (s : State), c < 2 →
    ((coll c s).merge = false → s.fault.safeReq = none → s.power.safe = false →
      ∃ u, Machine.exec (.collectorParityError t c) s = .next u
        ∧ (∃ st, u.fault.safeReq = some (c * 0x400 + 0x144, 3, st))
        ∧ (tget {} ((coll c s).rseq % 4096) (coll c u).ring).action = 7
        ∧ (tget {} ((coll c s).rseq % 4096) (coll c u).ring).source = c * 0x400 + 0x144)
    ∧ (∀ o, (coll c s).merge = true → oldestOpen c s = some o → timerDue o (advanceTo t s) = false →
      ∃ u, Machine.exec (.collectorParityError t c) s = .next u
        ∧ (fsrc o u).timer = some ((fsrc o s).timer.getD (advanceTo t s).time.now)
        ∧ (tget {} ((coll c s).rseq % 4096) (coll c u).ring).merged = true
        ∧ 2 ≤ (tget {} ((coll c s).rseq % 4096) (coll c u).ring).sev))
  ∧ (∀ (t a k i : Nat) (s : State), s.fault.sweepAt = some a →
    (∃ u, Machine.exec (.sweepDone t (some (k, i))) s = .next u ∧ u.fault.sweepAt = none ∧ u.fault.sweepResult = 2
      ∧ u.fault.sweepClass = k % 8 ∧ u.fault.sweepItem = i % 65536 ∧ u.sec.stopped = true ∧ u.sec.code = 0x07 ∧ PinsLow u)
    ∧ (∃ u, Machine.exec (.sweepDone t none) s = .next u ∧ u.fault.sweepAt = none ∧ u.fault.sweepResult = 1
      ∧ u.fault.c0.sweepOk = true ∧ u.fault.c1.sweepOk = true)
    ∧ (a + 100000000 < (advanceTo t s).time.now →
      ∃ u, Machine.exec (.sweepTimeout t) s = .next u ∧ u.sec.stopped = true ∧ u.sec.code = 0x07 ∧ PinsLow u
        ∧ u.fault.sweepAt = none))

/-- DDR_REQUEST_ENTER (R372 to R374, R387, R418, R419). -/
def Obligations.DdrRequestsMeetTheGuardsThenTheQueues : Prop :=
  ∀ (t a : Nat) (w : Requester) (sec : Bool) (s0 : State), a < Config.deviceBytes →
    let s := advanceTo t s0
    let ch := chanOf a
    let line := localOf a / 64
    let c := chan ch s
    let only := fun (u : State) => (∀ j, j ≠ ch → chan j u = chan j s) ∧ u.ddr.mem = s.ddr.mem ∧ u = { s with ddr := u.ddr }
    (guardPasses a false sec w s = true → chanUp ch s = true → chanServes c = true →
      (queuedWrite ch line s = none → bankReads ch (bankIx line) s < 8 →
        ∃ u, Machine.exec (.ddrRequestEnter t a none w sec) s0 = .next u ∧ only u ∧ (chan ch u).st = .active
          ∧ (chan ch u).reads = c.reads ++ [{ line := line, who := w, secure := sec, ord := c.ord }] ∧ (chan ch u).ord = c.ord + 1
          ∧ (chan ch u).writes = c.writes ∧ (chan ch u).flight = c.flight ∧ (chan ch u).forwards = c.forwards)
      ∧ (queuedWrite ch line s = none → 8 ≤ bankReads ch (bankIx line) s →
        Machine.exec (.ddrRequestEnter t a none w sec) s0 = .next s)
      ∧ (∀ e, queuedWrite ch line s = some e → e.merge = false →
        ∃ u, Machine.exec (.ddrRequestEnter t a none w sec) s0 = .next u ∧ only u
          ∧ chan ch u = { c with forwards := satAdd 16 c.forwards 1, st := .active, lastUse := s.time.now }))
    ∧ (∀ bs : List (Nat × Byte), guardPasses a true sec w s = true → chanUp ch s = true → chanServes c = true →
      (queuedWrite ch line s = none → c.writes.length < 64 →
        ∃ u, Machine.exec (.ddrRequestEnter t a (some bs) w sec) s0 = .next u ∧ only u ∧ (chan ch u).st = .active
          ∧ (chan ch u).reads = c.reads ∧ (chan ch u).flight = c.flight
          ∧ ∃ e, (chan ch u).writes = c.writes ++ [e] ∧ e.line = line ∧ e.bytes = bs.map (fun b => (b.1 % 64, b.2))
            ∧ e.merge = !coversLine e.bytes ∧ e.who = w ∧ e.secure = sec)
      ∧ (queuedWrite ch line s = none → 64 ≤ c.writes.length →
        Machine.exec (.ddrRequestEnter t a (some bs) w sec) s0 = .next s)
      ∧ ((queuedWrite ch line s).isSome = true →
        ∃ u, Machine.exec (.ddrRequestEnter t a (some bs) w sec) s0 = .next u ∧ only u
          ∧ (chan ch u).reads = c.reads ∧ (chan ch u).writes.length = c.writes.length
          ∧ (∀ x ∈ c.writes, x.line ≠ line → x ∈ (chan ch u).writes)
          ∧ ∀ x ∈ c.writes, x.line = line → ∃ y ∈ (chan ch u).writes, y.line = line
              ∧ y.bytes = mergeBytes x.bytes (bs.map (fun b => (b.1 % 64, b.2)))))
    ∧ (chanUp ch s = false → ∀ p, w = .host p →
      (guardPasses a false sec w s = true → Machine.exec (.ddrRequestEnter t a none w sec) s0
        = .next { s with host := { s.host with resps := .poisoned p 64 :: s.host.resps } })
      ∧ ∀ bs, guardPasses a true sec w s = true → Machine.exec (.ddrRequestEnter t a (some bs) w sec) s0 = .next s)
    ∧ (∀ wr, guardPasses a wr.isSome sec w s = false →
      ∃ u, Machine.exec (.ddrRequestEnter t a wr w sec) s0 = .next u
        ∧ (∀ p, w = .host p → u.sec.violHost = satAdd 16 s.sec.violHost 1 ∧ u.sec.lastAddr = a ∧ u.sec.lastPort = p
            ∧ u.sec.lastWrite = wr.isSome ∧ (fsrc (srcHost p 5) u).latched = true
            ∧ (wr = none → u.host.resps = .unsupported p :: s.host.resps) ∧ (wr.isSome = true → (hport p u).aerUr = true)
            ∧ u = { s with sec := u.sec, host := u.host, fault := { s.fault with src := u.fault.src } })
        ∧ ((∀ p, w ≠ .host p) → (fsrc (srcDdr ch 7) u).latched = true))

/-- DDR_COMMAND_ISSUE, DDR_REFRESH_DUE, DDR_REFRESH_WATCHDOG, DDR_TEMP_READ and DDR_ZQCS (R375, R383). -/
def Obligations.DdrCommandsRefreshesAndTemperature : Prop :=
  ∀ (t ch : Nat) (s0 : State),
    let s := advanceTo t s0
    let c := chan ch s
    let d := drainMode c
    let only := fun (u : State) => (∀ j, j ≠ ch → chan j u = chan j s) ∧ u.ddr.mem = s.ddr.mem ∧ u = { s with ddr := u.ddr }
    (chanUp ch s = true → d.st = .active → ∀ ready : List Nat,
      (d.refDue = true → ∃ u, Machine.exec (.ddrCommandIssue t ch ready) s0 = .next u ∧ only u
        ∧ chan ch u = { d with st := .active, refDue := false, postponed := 0, lastRef := s.time.now, openRow := [], rowHits := [] })
      ∧ (d.refDue = false → d.zqDue = true → ∃ u, Machine.exec (.ddrCommandIssue t ch ready) s0 = .next u ∧ only u
        ∧ chan ch u = { d with zqDue := false })
      ∧ (∀ w, d.refDue = false → d.zqDue = false → mergeRead d = some w →
        ∃ u, Machine.exec (.ddrCommandIssue t ch ready) s0 = .next u ∧ only u ∧ (chan ch u).writes = c.writes ∧ (chan ch u).reads = c.reads
          ∧ (chan ch u).flight = c.flight ++
            [{ line := w.line, who := w.who, secure := w.secure, ord := w.ord, merge := true, poison := c.poison.contains w.line }])
      ∧ (d.refDue = false → d.zqDue = false → mergeRead d = none →
        (∀ b r, d.drain = false → firstBank ready DdrRead.line DdrRead.ord d d.reads = some (b, r) →
          ∃ u, Machine.exec (.ddrCommandIssue t ch ready) s0 = .next u ∧ only u ∧ r ∈ c.reads ∧ b ∈ ready ∧ bankIx r.line = b
            ∧ (chan ch u).flight = c.flight ++ [{ r with poison := c.poison.contains r.line }] ∧ (chan ch u).reads = c.reads.filter (fun x => x.ord != r.ord)
            ∧ (chan ch u).writes = c.writes)
        ∧ (∀ b w, d.drain = true → firstBank ready DdrWrite.line DdrWrite.ord d (writable d) = some (b, w) →
          ∃ u, Machine.exec (.ddrCommandIssue t ch ready) s0 = .next u ∧ w ∈ c.writes ∧ w.merge = false ∧ w.stuck = false
            ∧ b ∈ ready ∧ bankIx w.line = b
            ∧ (chan ch u).writes = c.writes.filter (fun x => x.line != w.line) ∧ w.line ∉ (chan ch u).poison
            ∧ (chan ch u).reads = c.reads ∧ (chan ch u).flight = c.flight
            ∧ ((w.bytes.map (·.1)).Nodup → ∀ x ∈ w.bytes, rd8 u.ddr.mem (lineAddr ch w.line + x.1) = x.2)
            ∧ (∀ a, (∀ x ∈ w.bytes, a ≠ lineAddr ch w.line + x.1) → rd8 u.ddr.mem a = rd8 s.ddr.mem a)
            ∧ (∀ j, j ≠ ch → chan j u = chan j s) ∧ u = { s with ddr := u.ddr })))
    ∧ (refreshes ch s = true → c.refDue = false → c.lastRef + (c.postponed + 1) * trefi c ≤ s.time.now →
      ∃ u, Machine.exec (.ddrRefreshDue t ch) s0 = .next u ∧ only u
        ∧ (c.reads = [] → chan ch u = { c with st := .active, refDue := false, postponed := 0, lastRef := s.time.now, openRow := [], rowHits := [] })
        ∧ (c.reads ≠ [] → c.postponed < 4 → chan ch u
            = { c with postponed := c.postponed + 1, postMax := max c.postMax (c.postponed + 1) })
        ∧ (c.reads ≠ [] → 4 ≤ c.postponed → chan ch u = { c with refDue := true }))
    ∧ (refreshes ch s = true → c.lastRef + 9 * trefi c ≤ s.time.now →
      ∃ u, Machine.exec (.ddrRefreshWatchdog t ch) s0 = .next u ∧ (fsrc (srcDdr ch 6) u).latched = true
        ∧ u = { s with fault := { s.fault with src := u.fault.src } })
    ∧ (s.time.now < c.lastRef + 9 * trefi c → Machine.exec (.ddrRefreshWatchdog t ch) s0 = .next s)
    ∧ (∀ deg : Int, refreshes ch s = true → ∃ u, Machine.exec (.ddrTempRead t ch deg) s0 = .next u
        ∧ chan ch u = { c with ref2x := decide (85 < deg), tempHigh := decide (95 < deg) }
        ∧ (∀ j, j ≠ ch → chan j u = chan j s) ∧ u.ddr.mem = s.ddr.mem
        ∧ u = { s with ddr := u.ddr, power := { s.power with st := u.power.st, prev := u.power.prev } })
    ∧ (refreshes ch s = true → c.refDue = true → ∃ u, Machine.exec (.ddrZqcs t ch) s0 = .next u ∧ only u
        ∧ chan ch u = { c with zqDue := true })
    ∧ (refreshes ch s = false ∨ c.refDue = false → Machine.exec (.ddrZqcs t ch) s0 = .next s)

/-- DDR_READ_DECODE and DDR_SCRUB_READ (R374, R376 to R381). -/
def Obligations.DdrReadsAreDecodedCountedAndLogged : Prop :=
  (∀ (t ch : Nat) (errs : List (Nat × Nat)) (r : DdrRead) (rest : List DdrRead) (s0 : State),
    let s := advanceTo t s0
    let c := chan ch s
    let es := seenErrs r.poison errs
    let entry := fun (v : State) => tget {} (c.elogWr % 16) (chan ch v).elog
    let only := fun (v : State) => (∀ j, j ≠ ch → chan j v = chan j s) ∧ v.ddr.mem = s.ddr.mem ∧ (chan ch v).flight = rest
      ∧ v = { s with ddr := v.ddr, fault := { s.fault with src := v.fault.src } }
    c.flight = r :: rest →
    (r.merge = false →
      (decodeLine es = .clean → ∃ u, Machine.exec (.ddrReadDecode t ch errs) s0 = .next u ∧ only u ∧ chan ch u = { c with flight := rest }
        ∧ u.fault = s.fault)
      ∧ (∀ n, decodeLine es = .corrected n → ∃ u, Machine.exec (.ddrReadDecode t ch errs) s0 = .next u ∧ only u
        ∧ (chan ch u).ce = satAdd 16 c.ce 1 ∧ (chan ch u).ue = c.ue ∧ (chan ch u).elogWr = wrapAdd 16 c.elogWr 1
        ∧ (entry u).kind = 1 ∧ (entry u).symbols = n ∧ (entry u).addr = lineAddr ch r.line
        ∧ (fsrc (srcDdr ch 0) u).latched = true ∧ (fsrc (srcDdr ch 0) u).detail = ddrDetail r.line es)
      ∧ (decodeLine es = .uncorrectable ∨ decodeLine es = .poisoned → ∃ v,
        Machine.exec (.ddrReadDecode t ch errs) s0 = .next (errorResponse r.who 64 2 (0x10 + ch) v) ∧ only v
        ∧ (chan ch v).ue = satAdd 16 c.ue 1 ∧ (chan ch v).ce = c.ce ∧ (chan ch v).poison = c.poison
        ∧ (entry v).kind = (if decodeLine es = .poisoned then 5 else 2) ∧ (entry v).addr = lineAddr ch r.line
        ∧ (fsrc (srcDdr ch 1) v).latched = true
        ∧ ∀ p, r.who = .host p → errorResponse r.who 64 2 (0x10 + ch) v
            = { v with host := { s.host with resps := .poisoned p 64 :: s.host.resps } }))
    ∧ (∀ w, r.merge = true → queuedWrite ch r.line s = some w → w.merge = true →
      (decodeLine es = .clean → ∃ u, Machine.exec (.ddrReadDecode t ch errs) s0 = .next u ∧ only u
        ∧ ∃ y, queuedWrite ch r.line u = some y ∧ y.merge = false ∧ y.waiters = [])
      ∧ (decodeLine es = .uncorrectable ∨ decodeLine es = .poisoned → ∃ u, Machine.exec (.ddrReadDecode t ch errs) s0 = .next u ∧ only u
        ∧ queuedWrite ch r.line u = none ∧ (chan ch u).reads = w.waiters ++ c.reads ∧ (entry u).kind = 4
        ∧ (chan ch u).poison = c.poison
        ∧ (decodeLine es = .poisoned → (chan ch u).discarded = satAdd 16 c.discarded 1))))
  ∧ (∀ (t ch : Nat) (errs : List (Nat × Nat)) (s0 : State),
    let s := advanceTo t s0
    let c := chan ch s
    let es := seenErrs (c.poison.contains c.scrubLine) errs
    let entry := fun (v : State) => tget {} (c.elogWr % 16) (chan ch v).elog
    chanUp ch s = true → c.scrubOn = true → chanIdle c = true → c.refDue = false → c.zqDue = false → (c.st = .active ∨ c.st = .powerDown) →
      (∀ m, decodeLine es ≠ .wrong m) →
    ∃ u, Machine.exec (.ddrScrubRead t ch errs) s0 = .next u
      ∧ (chan ch u).scrubLine = (if c.scrubLine + 1 = 2 ^ 28 then 0 else c.scrubLine + 1)
      ∧ (∀ j, j ≠ ch → chan j u = chan j s) ∧ u.ddr.mem = s.ddr.mem
      ∧ u = { s with ddr := u.ddr, fault := { s.fault with src := u.fault.src } }
      ∧ (decodeLine es = .clean → (chan ch u).elogWr = c.elogWr ∧ u.fault = s.fault)
      ∧ (∀ n, decodeLine es = .corrected n → (chan ch u).ce = satAdd 16 c.ce 1 ∧ (entry u).kind = 1 ∧ (entry u).req = 4
          ∧ (fsrc (srcDdr ch 0) u).latched = true)
      ∧ (decodeLine es = .uncorrectable → (chan ch u).ue = satAdd 16 c.ue 1 ∧ (entry u).kind = 3
          ∧ c.scrubLine ∈ (chan ch u).poison ∧ (fsrc (srcDdr ch 4) u).latched = true)
      ∧ (decodeLine es = .poisoned → (entry u).kind = 5 ∧ (chan ch u).poison = c.poison))
  ∧ (decodeLine (seenErrs true []) = .poisoned ∧ ∀ errs, decodeLine errs = .poisoned → errs = poisonErrs)

/-- Bus errors, low-power states and training (R382, R384 to R386). -/
def Obligations.DdrBusErrorsLowPowerStatesAndTraining : Prop :=
  ∀ (t ch : Nat) (s0 : State),
    let s := advanceTo t s0
    let c := chan ch s
    let only := fun (u : State) => (∀ j, j ≠ ch → chan j u = chan j s) ∧ u.ddr.mem = s.ddr.mem
      ∧ u = { s with ddr := u.ddr, fault := { s.fault with src := u.fault.src } }
    (chanRuns ch s = true →
      (∀ back, ∃ u, Machine.exec (.ddrCaParityError t ch back) s0 = .next u ∧ only u
        ∧ (chan ch u).caPar = satAdd 16 c.caPar 1
        ∧ (∀ b, tget none b (chan ch u).openRow
            = ((c.replay.take (back + 1)).find? (fun x => bankIx x.1 == b)).map (fun x => rowOf x.1))
        ∧ (tget {} (c.elogWr % 16) (chan ch u).elog).kind = 6 ∧ (fsrc (srcDdr ch 2) u).latched = true
        ∧ (chan ch u).reads = c.reads ∧ (chan ch u).writes = c.writes ∧ (chan ch u).flight = c.flight)
      ∧ (∀ line w, queuedWrite ch line s = some w → w.stuck = false →
        ∃ u, Machine.exec (.ddrWriteCrcError t ch line) s0 = .next u ∧ only u
          ∧ (w.retries < (if c.wcrcRetry = 0 then 1 else c.wcrcRetry) →
              (chan ch u).wcrc = satAdd 16 c.wcrc 1 ∧ u.fault = s.fault
              ∧ queuedWrite ch line u = some { w with retries := w.retries + 1 })
          ∧ ((if c.wcrcRetry = 0 then 1 else c.wcrcRetry) ≤ w.retries →
              queuedWrite ch line u = some { w with stuck := true }
              ∧ (tget {} (c.elogWr % 16) (chan ch u).elog).kind = 7 ∧ (fsrc (srcDdr ch 3) u).latched = true))
      ∧ (∃ u, Machine.exec (.ddrControllerParity t ch) s0 = .next u ∧ (fsrc (srcDdr ch 7) u).latched = true
          ∧ u = { s with fault := { s.fault with src := u.fault.src } }))
    ∧ (chanUp ch s = true → chanIdle c = true →
      (c.st = .active → c.refDue = false → c.pdIdle ≠ 0 → c.lastUse + c.pdIdle * 5 ≤ s.time.now →
        ∃ u, Machine.exec (.ddrPowerDownEnter t ch) s0 = .next u ∧ only u ∧ u.fault = s.fault ∧ chan ch u = { c with st := .powerDown })
      ∧ (c.st = .active ∨ c.st = .powerDown → (c.srIdle ≠ 0 ∧ c.lastUse + c.srIdle * 1000000 ≤ s.time.now) ∨ s.power.retainEntry = true →
        ∃ u, Machine.exec (.ddrSelfRefreshEnter t ch) s0 = .next u ∧ only u ∧ u.fault = s.fault ∧ (chan ch u).st = .selfRefresh
          ∧ (chan ch u).poison = c.poison))
    ∧ (chanIdle c = false → Machine.exec (.ddrPowerDownEnter t ch) s0 = .next s ∧ Machine.exec (.ddrSelfRefreshEnter t ch) s0 = .next s)
    ∧ (∀ (ok seeds : Bool) (step device us : Nat), booting s = true → s.sec.stage = 3 → ch < 12 → c.st ≠ .active →
      ∃ u, Machine.exec (.ddrTrainingDone t ch ok seeds step device us) s0 = .next u
        ∧ (ok = true → (chan ch u).st = .active ∧ (chan ch u).trainResult = (if s.crown.calDdr ∧ seeds then 1 else 2)
            ∧ ((∀ j, j < 12 → j ≠ ch → (chan j s).st = .active) → u.sec.stage = 4 ∧ u.fault.sweepAt = some s.time.now)
            ∧ ((∃ j, j < 12 ∧ j ≠ ch ∧ (chan j s).st ≠ .active) → u.sec = s.sec ∧ u.fault = s.fault)
            ∧ (∀ j, j ≠ ch → chan j u = chan j s))
        ∧ (ok = false → (chan ch u).st = .trainFailed ∧ (chan ch u).trainStep = step % 8 ∧ (chan ch u).trainDevice = device % 16
            ∧ u.sec.stopped = true ∧ u.sec.code = 0x06 ∧ PinsLow u ∧ (fsrc (srcDdr ch 5) u).latched = true))

/-- R417 over every state: the reserve guard does not depend on the pattern's guards (log entry 138 for the refill). -/
def Obligations.DeviceReserveAdmitsFixedAgentsOnly : Prop :=
  Config.deviceBytes - 0x2F7F800000 = 2 ^ 31 + 2 ^ 23
  ∧ (∀ a : Nat, a < Config.deviceBytes →
      (0x2F7F800000 ≤ a ↔ Config.patternArea ≤ a ∨ ∃ d, d < 2 ∧ Config.traceRing d ≤ a ∧ a < Config.traceRing d + 2 ^ 22))
  ∧ ∀ (a : Nat) (w : Requester) (wr sec : Bool) (s : State), 0x2F7F800000 ≤ a → a < Config.deviceBytes →
      (guardPasses a wr sec w s = true ↔
        w = .scrub ∨ w = .fitter ∨ (∃ m, w = .refill m) ∨ (∃ d, w = .trace d) ∨ ∃ i, w = .island i)
      ∧ ((∃ p, w = .host p) → ∀ (t : Nat) (data : Option (List (Nat × Byte))),
          ∃ u, Machine.exec (.ddrRequestEnter t a data w sec) s = .next u ∧ u.ddr = s.ddr)

/-- R301's range of RATE and R302's range of the trim, kept by every command. -/
def Obligations.RateAndTrimStayWithinTheirLimits : Prop :=
  (∀ (c : Instr) (s u : State), Machine.exec c s = .next u →
    (-2147483 ≤ s.time.rate ∧ s.time.rate ≤ 2147483 → -2147483 ≤ u.time.rate ∧ u.time.rate ≤ 2147483)
    ∧ (-858993 ≤ s.time.trim ∧ s.time.trim ≤ 858993 → -858993 ≤ u.time.trim ∧ u.time.trim ≤ 858993))
  ∧ State.reset.time.rate = 0 ∧ State.reset.time.trim = 0

/-- RATE_WRITE, TIME_STEP_REQUEST, TIME_AGENT_WRITE, ETH_TXTS_POP and RATE_DRIFT_CHECK. -/
def Obligations.RateStepAndAgentAreWrittenBySoftware : Prop :=
  ∀ (t : Nat) (s0 : State),
    let s := advanceTo t s0
    (s.time.agentOn = false →
      (∀ v, ∃ u, Machine.exec (.rateWrite t v) s0 = .next u
        ∧ u.time.rate = max (-2147483) (min 2147483 (sext 32 v))
        ∧ u.time.rateClamp = (s.time.rateClamp || decide (sext 32 v < -2147483 ∨ 2147483 < sext 32 v))
        ∧ u = { s with ddr := u.ddr, time := { s.time with
            rate := u.time.rate, rateClamp := u.time.rateClamp, trace0 := u.time.trace0, trace1 := u.time.trace1 } })
      ∧ (∃ u, Machine.exec (.timeStepRequest t) s0 = .next u
        ∧ (s.time.stepUsed = true → u.time = { s.time with stepRej := true } ∧ (fsrc 0x1A3 u).latched = true ∧ (fsrc 0x5A3 u).latched = true)
        ∧ (s.time.stepUsed = false → stepBlocked s = true → u.time = { s.time with stepBusy := true } ∧ u.fault = s.fault)
        ∧ (s.time.stepUsed = false → stepBlocked s = false → u.time = { s.time with stepPending := true } ∧ u.fault = s.fault)
        ∧ u = { s with time := u.time, fault := { s.fault with src := u.fault.src } }))
    ∧ (s.time.agentOn = true → (∀ v, Machine.exec (.rateWrite t v) s0 = .next s) ∧ Machine.exec (.timeStepRequest t) s0 = .next s)
    ∧ (∀ on : Bool, on ≠ s.time.agentOn → ∃ u, Machine.exec (.timeAgentWrite t on) s0 = .next u ∧ u.time.agentOn = on
        ∧ u.time.agent = (if on then .free else .host) ∧ u.time.rate = s.time.rate ∧ u.time.syncPend = none ∧ u.time.lastPair = none
        ∧ u.time.pdelayReq = none ∧ u.time.okRun = 0 ∧ u.time.tb0 = s.time.tb0 ∧ u.time.tb1 = s.time.tb1
        ∧ u = { s with time := u.time, ddr := u.ddr })
    ∧ Machine.exec (.timeAgentWrite t s.time.agentOn) s0 = .next s
    ∧ (∀ e v, bit v 0 = true → offBlocked (0x000E0214 + e * 0x4000) s = false →
        ∃ u, Machine.exec (.ethTxtsPop t e v) s0 = .next u ∧ (eport e u).txts = (eport e s).txts.drop 1
          ∧ (∀ j, j ≠ e → eport j u = eport j s) ∧ u = { s with host := { s.host with eth := u.host.eth } })
    ∧ (∀ e v, bit v 0 = false → Machine.exec (.ethTxtsPop t e v) s0 = .next s)
    ∧ (∀ i, ∃ u, Machine.exec (.rateDriftCheck t i false) s0 = .next u ∧ (fsrc (i * 0x400 + 0x1A4) u).latched = true
        ∧ u = { s with fault := { s.fault with src := u.fault.src } })
    ∧ ∀ i, Machine.exec (.rateDriftCheck t i true) s0 = .next s

/-- ALIGNMENT_EXCHANGE (R300, R302, R306, R307, R319). -/
def Obligations.AlignmentExchangesApplyTheStepAndTheTrim : Prop :=
  ∀ (t : Nat) (ok : Bool) (trim : Int) (s0 : State),
    let s := advanceTo t s0
    let d := s.time.agentDelta.getD s.time.stepDelta
    let applies := s.time.stepPending = true ∧ s.time.stepUsed = false ∧ stepBlocked s = false
    (dieUp 0 s = true → dieUp 1 s = true → ∃ u, Machine.exec (.alignmentExchange t ok trim) s0 = .next u
      ∧ (applies → u.time.tb0 = tbShift s.time.tb0 d ∧ u.time.stepUsed = true ∧ u.time.stepPending = false ∧ u.time.stepLog = d
          ∧ (ok = true → u.time.tb1 = tbShift s.time.tb1 d ∧ u.time.stepOwed = none)
          ∧ (ok = false → u.time.tb1 = s.time.tb1 ∧ u.time.stepOwed = some d ∧ u.time.skewed = true))
      ∧ (s.time.stepPending = true → s.time.stepUsed = false → stepBlocked s = true →
          u.time.stepBusy = true ∧ u.time.stepUsed = false ∧ u.time.stepPending = false ∧ u.time.tb0 = s.time.tb0)
      ∧ (ok = true → u.time.failRun = 0 ∧ u.time.trim = max (-858993) (min 858993 trim))
      ∧ (ok = false → u.time.trim = s.time.trim ∧ u.time.failRun = s.time.failRun + 1 ∧ u.time.skewFails = satAdd 16 s.time.skewFails 1
          ∧ (s.time.failRun = 3 → u.time.skewValid = false ∧ u.time.skewed = true ∧ (fsrc 0x5A5 u).latched = true)
          ∧ (s.time.failRun ≠ 3 → u.time.skewValid = s.time.skewValid))
      ∧ (applies → ok = true →
          (∀ n, (lslot n s).declared = true → n < 16 → lslot n u = steppedSlot d (lslot n s))
          ∧ (∀ g, (group g s).declared = true → (group g s).home < 2 →
              ∃ after, group g u = steppedGroup d (stamp (group g s).home s) after (group g s))
          ∧ ∀ n, (sens n s).declared = true → sensDie (sens n s) < 2 → sens n u = steppedStream d (sens n s))
      ∧ (¬applies → s.time.stepOwed = none → u.sense = s.sense ∧ u.loop = s.loop ∧ u.led = s.led)
      ∧ u.time.rate = s.time.rate
      ∧ u = { s with
          time := u.time, ddr := u.ddr, fault := { s.fault with src := u.fault.src }, led := { s.led with tickets := u.led.tickets }
          sense := { s.sense with streams := u.sense.streams, groups := u.sense.groups }, loop := { s.loop with slots := u.loop.slots } })
    ∧ (dieUp 0 s = false ∨ dieUp 1 s = false → ∃ u, Machine.exec (.alignmentExchange t ok trim) s0 = .next u
      ∧ u.time.trim = s.time.trim ∧ u.time.failRun = s.time.failRun
      ∧ (s.time.stepPending = false → u = s)
      ∧ (applies → u.time.stepUsed = true ∧ u.time.tb0 = (if dieUp 0 s = true then tbShift s.time.tb0 d else s.time.tb0)
          ∧ u.time.tb1 = (if dieUp 1 s = true then tbShift s.time.tb1 d else s.time.tb1)))

/-- The agent's messages and states (R308 to R311). -/
def Obligations.TheTimeAgentMeasuresAndSteers : Prop :=
  ∀ (t e q v : Nat) (s0 : State),
    let s := advanceTo t s0
    let only := fun (u : State) => u.time.tb0 = s.time.tb0 ∧ u.time.tb1 = s.time.tb1
      ∧ u = { s with time := u.time, ddr := u.ddr, fault := { s.fault with src := u.fault.src } }
    (agentHears e s = true →
      (∃ u, Machine.exec (.gptpSync t e q false) s0 = .next u ∧ u.time.gptpOneStep = satAdd 16 s.time.gptpOneStep 1
        ∧ u = { s with time := { s.time with gptpOneStep := u.time.gptpOneStep } })
      ∧ (∃ u, Machine.exec (.gptpSync t e q true) s0 = .next u ∧ u.time.lastSync = some s.time.now
        ∧ u.time.syncPend = some (q, ((stamp (e / 2) s : Int) + (eport e s).asym).toNat % 2 ^ 64)
        ∧ u = { s with time := { s.time with syncPend := u.time.syncPend, lastSync := u.time.lastSync } })
      ∧ (∀ loc, s.time.syncPend = some (q, loc) → s.time.source = true →
        ∃ u, Machine.exec (.gptpFollowUp t e q v) s0 = .next u
          ∧ u = { s with time := { s.time with syncPend := none, gptpSync := satAdd 16 s.time.gptpSync 1 } })
      ∧ (∀ loc, s.time.syncPend = some (q, loc) → s.time.source = false →
        let off : Int := (v : Int) + s.time.linkDelay - loc
        let within := off.natAbs ≤ s.time.limit
        ∃ u, Machine.exec (.gptpFollowUp t e q v) s0 = .next u ∧ only u
          ∧ u.time.gptpSync = satAdd 16 s.time.gptpSync 1 ∧ u.time.offset = satS 32 off
          ∧ (s.time.stepUsed = false → s.time.stepTh < off.natAbs → stepBlocked s = false →
              u.time.stepPending = true ∧ u.time.agentDelta = some off ∧ u.time.rate = s.time.rate)
          ∧ (s.time.stepUsed = true ∨ off.natAbs ≤ s.time.stepTh →
              u.time.rate = clampI (-2147483) 2147483 (ratioRate s ((v : Int) + s.time.linkDelay) loc + Config.phaseTerm off)
              ∧ u.time.stepPending = s.time.stepPending)
          ∧ (s.time.agent = .free ∨ s.time.agent = .holdover → u.time.agent = .acquiring)
          ∧ (s.time.agent = .acquiring → u.time.agent = if within ∧ 7 ≤ s.time.okRun then .locked else .acquiring)
          ∧ (s.time.agent = .locked → within → u.time.agent = .locked ∧ u.fault = s.fault)
          ∧ (s.time.agent = .locked → ¬ within → u.time.agent = .acquiring ∧ (fsrc 0x1A4 u).latched = true ∧ (fsrc 0x5A4 u).latched = true))
      ∧ (s.time.pdelayReq ≠ none → ∀ t1, s.time.pdelayReq = some (q, t1) →
        (∃ u, Machine.exec (.gptpPdelayRespRx t e q false v) s0 = .next u
          ∧ u = { s with time := { s.time with pdelayResp := some (q, v, ((stamp (e / 2) s : Int) + (eport e s).asym).toNat % 2 ^ 64) } })
        ∧ ∀ q2 t2 t4, s.time.pdelayResp = some (q2, t2, t4) → ∃ u, Machine.exec (.gptpPdelayRespRx t e q true v) s0 = .next u
          ∧ u = { s with time := { s.time with
              linkDelay := (((t4 : Int) - t1) - ((v : Int) - t2)) / 2, pdelayReq := none, pdelayResp := none } })
      ∧ (gateCtl e s = {} → bit (eport e s).gates 7 = true → (∀ x ∈ (eport e s).queued, x.1 ≠ 7) →
        (∃ u st f, Machine.exec (.gptpPdelayReqSend t) s0 = .next u ∧ (eport e u).sent = (st, f) :: (eport e s).sent
          ∧ f.etherType = 0x88F7 ∧ f.dst = 0x0180C200000E ∧ u.time.pdelayReq = some (s.time.pdelaySeq, stamp (e / 2) s)
          ∧ u.time.pdelaySeq = wrapAdd 16 s.time.pdelaySeq 1
          ∧ u = { s with time := u.time, host := { s.host with eth := u.host.eth } })
        ∧ (∃ u a b, Machine.exec (.gptpPdelayReqRx t e q) s0 = .next u ∧ (eport e u).sent = a :: b :: (eport e s).sent
          ∧ a.2.etherType = 0x88F7 ∧ b.2.etherType = 0x88F7 ∧ u = { s with host := { s.host with eth := u.host.eth } }))
      ∧ (s.time.gm = none → ∃ u, Machine.exec (.gptpAnnounceRx t e q v) s0 = .next u ∧ u.time.gm = some (q, v) ∧ only u ∧ u.fault = s.fault)
      ∧ (∀ i p, s.time.gm = some (i, p) → q ≠ i → (v < p ∨ (v = p ∧ q < i)) →
          ∃ u, Machine.exec (.gptpAnnounceRx t e q v) s0 = .next u ∧ u.time.gm = some (q, v) ∧ only u ∧ u.fault = s.fault)
      ∧ (∀ i p, s.time.gm = some (i, p) → q ≠ i → (p < v ∨ (v = p ∧ i < q)) → Machine.exec (.gptpAnnounceRx t e q v) s0 = .next s))
    ∧ (agentHears e s = false → (∀ two, Machine.exec (.gptpSync t e q two) s0 = .next s) ∧ Machine.exec (.gptpFollowUp t e q v) s0 = .next s
      ∧ Machine.exec (.gptpPdelayReqRx t e q) s0 = .next s ∧ (∀ fu, Machine.exec (.gptpPdelayRespRx t e q fu v) s0 = .next s)
      ∧ Machine.exec (.gptpAnnounceRx t e q v) s0 = .next s)
    ∧ Machine.exec (.gptpSignalingRx t e) s0 = .next s
    ∧ (∀ l, s.time.agent = .locked → s.time.lastSync = some l → l + 3000000000 ≤ s.time.now →
      ∃ u, Machine.exec (.gptpSyncTimeout t) s0 = .next u ∧ u.time.agent = .holdover ∧ u.time.rate = s.time.rate ∧ only u
        ∧ (fsrc 0x1A4 u).latched = true ∧ (fsrc 0x5A4 u).latched = true)

/-- PPS and trace copies (R26, R312, R313, R315). -/
def Obligations.PpsEdgesAndTraceCopies : Prop :=
  ∀ (t : Nat) (s0 : State),
    let s := advanceTo t s0
    (∃ u, Machine.exec (.ppsInEdge t) s0 = .next u ∧ u.time.ppsIn0 = stamp 0 s ∧ u.time.ppsIn1 = stamp 1 s ∧ u.time.ppsLast = some s.time.now
      ∧ (∀ l, s.time.ppsLast = some l → s.time.now < l + 500000000 →
          (fsrc 0x1A6 u).latched = true ∧ (fsrc 0x5A6 u).latched = true ∧ u.time.rate = s.time.rate ∧ u.time.agent = s.time.agent)
      ∧ ((s.time.ppsLast = none ∨ ∃ l, s.time.ppsLast = some l ∧ l + 500000000 ≤ s.time.now) → s.time.source = false → u.fault = s.fault ∧
          u.time = { s.time with ppsIn0 := stamp 0 s, ppsIn1 := stamp 1 s, ppsLast := some s.time.now, trace0 := u.time.trace0, trace1 := u.time.trace1 })
      ∧ u = { s with time := u.time, ddr := u.ddr, fault := { s.fault with src := u.fault.src } })
    ∧ (s.power.on = true → dieUp 1 s = true → s.time.ppsOut = false → stamp 1 s % 1000000000 < 10 →
      ∃ u, Machine.exec (.ppsOutRise t) s0 = .next u ∧ u.time.ppsOut = true
        ∧ u = { s with time := { s.time with ppsOut := true, ppsRise := u.time.ppsRise } })
    ∧ (10 ≤ stamp 1 s % 1000000000 ∨ dieUp 1 s = false → Machine.exec (.ppsOutRise t) s0 = .next s)
    ∧ (s.time.ppsOut = true → s.time.ppsRise + 100000000 * 2 ^ 48 ≤ tbNow 1 s →
      ∃ u, Machine.exec (.ppsOutFall t) s0 = .next u ∧ u = { s with time := { s.time with ppsOut := false } })
    ∧ (tbNow 1 s < s.time.ppsRise + 100000000 * 2 ^ 48 → Machine.exec (.ppsOutFall t) s0 = .next s)
    ∧ (∀ d v, d < 2 →
      ((trace d s).busy = false → ∃ u, Machine.exec (.traceCopyGo t d v) s0 = .next u ∧ (trace d u).copyPort = b2n (bit v 1)
          ∧ (trace d u).busy = bit v 0 ∧ (trace d u).copyAddr = (trace d s).copyAddr ∧ trace (1 - d) u = trace (1 - d) s
          ∧ u = { s with time := { s.time with trace0 := u.time.trace0, trace1 := u.time.trace1 } })
      ∧ ((trace d s).busy = true → ∃ u, Machine.exec (.traceCopyGo t d v) s0 = .next u
          ∧ u = { s with time := { s.time with cfgBusy := true }, fault := { s.fault with src := u.fault.src } }
          ∧ (fsrc 0x142 u).latched = true ∧ (fsrc 0x142 u).detail = 0x00020110 + d * 0x40)
      ∧ ((trace d s).busy = true → ∃ u, Machine.exec (.traceCopyDone t d) s0 = .next u ∧ (trace d u).busy = false
          ∧ (carried (trace d s).copyPort s = true →
              u.host.mem = wrBytes s.host.mem (trace d s).copyAddr (ringOldestFirst d s))
          ∧ (carried (trace d s).copyPort s = false → u.host = s.host)
          ∧ u = { s with time := { s.time with trace0 := u.time.trace0, trace1 := u.time.trace1 },
                         host := { s.host with mem := u.host.mem } })
      ∧ ((trace d s).busy = false → Machine.exec (.traceCopyDone t d) s0 = .next s))

/-- PACKET_ARRIVE and ROUTE_TABLE_SWAP (R39 to R48). -/
def Obligations.PacketsFollowTheRouteTablesOneHopAtATime : Prop :=
  (∀ (t k q : Nat) (h b : List Byte) (s0 : State), k < 4 → q < 84 →
    let s := advanceTo t s0
    let p : Packet := ⟨h, b⟩
    let pl : Place := .router k q
    let y := stamped pl p s
    (placeDrains pl s = false → placeClosed pl s = false →
      (pktOk p = true → pktWhole p = true → pktClass p ≠ 1 → ∀ o, outPortAt pl y s = some o → portRefuses pl o y s = false →
        pktOk y = true ∧ pktDest y = pktDest p ∧ pktSrc y = pktSrc p ∧ pktTag y = pktTag p ∧ y.payload = b
        ∧ fieldLe y.header 8 4 = shortStamp (k / 2) s
        ∧ ((nextPlace pl o y).isSome = true → Machine.exec (.packetArrive t pl none h b) s0
            = .next { s with fab := { s.fab with queued := s.fab.queued ++ [⟨pl, o, pktClass y, y, localInput pl p⟩] } })
        ∧ (nextPlace pl o y = none → Machine.exec (.packetArrive t pl none h b) s0
            = .next { s with fab := { s.fab with delivered := s.fab.delivered ++ [(pl, o, y)] } }))
      ∧ (pktOk p = true → pktWhole p = true → pktClass p = 1 → (∀ d ∈ s.fab.delivered, answers pl p d = false) →
          Machine.exec (.packetArrive t pl none h b) s0 = .next s)
      ∧ (pktOk p = false → ∃ u, Machine.exec (.packetArrive t pl none h b) s0 = .next u
          ∧ (fsrc (srcStack k 7) u).latched = true ∧ u = { s with fault := { s.fault with src := u.fault.src } }))
    ∧ (placeDrains pl s = true ∨ placeClosed pl s = true → Machine.exec (.packetArrive t pl none h b) s0 = .next s)
    ∧ (∀ p0 o, servedNext p0 o s = none → Machine.exec (.packetArrive t pl (some (p0, o)) h b) s0 = .next s)
    ∧ (∀ p0 o w o', servedNext p0 o s = some w → nextPlace p0 o w.pkt = some pl →
        placeClosed pl (serve w s) = false → pktOk w.pkt = true → outPortAt pl w.pkt (serve w s) = some o' →
        portRefuses pl o' w.pkt (serve w s) = false →
      ∃ u, Machine.exec (.packetArrive t pl (some (p0, o)) h b) s0 = .next u ∧ w ∈ s.fab.queued ∧ hasCredit w s = true
        ∧ ((nextPlace pl o' w.pkt).isSome = true →
            u.fab.queued = s.fab.queued.erase w ++ [⟨pl, o', pktClass w.pkt, w.pkt, linkInput p0 o⟩] ∧ u.fab.delivered = s.fab.delivered)
        ∧ (nextPlace pl o' w.pkt = none →
            u.fab.queued = s.fab.queued.erase w ∧ u.fab.delivered = s.fab.delivered ++ [(pl, o', w.pkt)])
        ∧ u = { s with fab := { s.fab with queued := u.fab.queued, delivered := u.fab.delivered, since3 := u.fab.since3,
                                           turn := u.fab.turn } }))
  ∧ (∀ (t die stop : Nat) (h b : List Byte) (s0 : State), die < 2 → stop < 256 →
    let s := advanceTo t s0
    let p : Packet := ⟨h, b⟩
    dieUp die s = true → bit (pktDest p) 15 = true → ioDie (pktDest p) = die → stopUsed (ioStop (pktDest p)) = false →
        (pktOk p = true → pktWhole p = true ∧ pktClass p ≠ 1) →
    ∃ u, Machine.exec (.packetArrive t (.brim die stop) none h b) s0 = .next u
      ∧ (fsrc (die * 0x400 + 0x143) u).latched = true ∧ (fsrc (die * 0x400 + 0x143) u).detail = ioStop (pktDest p) + 256 * die
      ∧ u = { s with fault := { s.fault with src := u.fault.src } })
  ∧ (∀ q dest : Nat, q < 84 → dest < 84 →
    let far := fun x : Nat => ((x % 7 : Int) - (dest % 7 : Nat)).natAbs + ((x / 7 : Int) - (dest / 7 : Nat)).natAbs
    let next := match defaultRoute q dest with
      | 0 => q + 7
      | 1 => q - 7
      | 2 => q + 1
      | _ => q - 1
    (q = dest ∧ defaultRoute q dest = 4) ∨ (q ≠ dest ∧ defaultRoute q dest < 4 ∧ next < 84 ∧ far next + 1 = far q))
  ∧ (∀ (t k : Nat) (new : List (Nat × Nat)) (s0 : State),
    let s := advanceTo t s0
    s.fab.draining.find? (fun d => d.1 == k) = some (k, new) →
    (dieHolds k s = false → ∃ u, Machine.exec (.routeTableSwap t k) s0 = .next u
      ∧ tget 0 k u.fab.rtGen = (tget 0 k s.fab.rtGen + 1) % 256 ∧ (∀ j, j ≠ k → tget 0 j u.fab.rtGen = tget 0 j s.fab.rtGen)
      ∧ (∀ d ∈ u.fab.draining, d.1 ≠ k) ∧ (∀ x y, new = [(x, y)] → tget none x u.fab.routes = some y)
      ∧ u = { s with fab := { s.fab with routes := u.fab.routes, rtGen := u.fab.rtGen, draining := u.fab.draining } })
    ∧ (dieHolds k s = true → Machine.exec (.routeTableSwap t k) s0 = .next s))

/-- FIRING_START, FIRING_COMPLETE, TOKEN_ARRIVE and CREDIT_RETURN (R57 to R59, R168, R182, R205, R206, R451): each completes from
every state, with what it changes and all that it leaves. The split of a firing's events over several gloves is the model's
choice (log entry 112). -/
def Obligations.FiringsTakeAndGiveTokensAndCredits : Prop :=
  (∀ (t m : Nat) (allow : Bool) (s0 : State),
    let s := advanceTo t s0
    let ins := inEdges m s
    let outs := outEdges m s
    let toks := ins.map (fun e => (e.id, (edge e.id s).held.take e.consume))
    let takes := fun (x : Nat) => ((ins.filter (fun e => e.id == x)).map (·.consume)).sum
    let gives := fun (x : Nat) => ((outs.filter (fun e => e.id == x)).map (·.produce)).sum
    let starts := fireFree m s = true ∧ fireReady m s = true ∧ writerBusy m s = false ∧ (s.crown.level = 3 → allow = true)
    (starts →
      (t3Down m s = none → ∃ u f, Machine.exec (.firingStart t m allow) s0 = .next u
        ∧ mitten m u = { mitten m s with firing := some f, half := wantsHalf m s } ∧ (∀ j, j ≠ m → mitten j u = mitten j s)
        ∧ f.inputs = toks ∧ f.outs = outs.map (fun e => (e.id, e.produce)) ∧ f.at_ = s.time.now
        ∧ f.stamp = shortStamp ((mitten m s).stack / 2) s
        ∧ (∀ g, g ∈ f.tags ↔ ∃ i ∈ toks, ∃ k ∈ i.2, g ∈ k.tags)
        ∧ (∀ id bs, (id, bs) ∈ f.states ↔ bs = stateOf id s ∧ (∃ o ∈ unitOf m s, id ∈ o.ins)
            ∧ ∃ x, (curImage s).tensor id = some x ∧ x.role = 4)
        ∧ (f.degraded = true ↔ (∃ i ∈ toks, ∃ k ∈ i.2, k.degraded = true)
            ∨ ∃ r ∈ readersOf m s, ∃ g ∈ (scene r.2 s).pages, g.st = .lost)
        ∧ (f.stale = true ↔ ∃ i ∈ toks, ∃ k ∈ i.2, k.stale = true)
        ∧ (∀ x, edge x u = { edge x s with
            held := (edge x s).held.drop (takes x), inUse := (edge x s).inUse + takes x
            credits := (edge x s).credits - gives x, taken := (edge x s).taken + gives x })
        ∧ ((ins.map (·.id)).Nodup → (outs.map (·.id)).Nodup → ∀ x, Balanced (edge x s) → Balanced (edge x u))
        ∧ (∀ n, scene n u = { scene n s with prefetch := (scene n u).prefetch, taken := (scene n u).taken })
        ∧ (∀ n, (∀ r ∈ readersOf m s, r.2 ≠ n) → scene n u = scene n s)
        ∧ u = { s with fab := { s.fab with mittens := u.fab.mittens, edges := u.fab.edges }, scene := u.scene })
      ∧ (∀ p, t3Down m s = some p → ∃ u, Machine.exec (.firingStart t m allow) s0 = .next u
        ∧ mitten m u = { mitten m s with firing := none, half := wantsHalf m s } ∧ (∀ j, j ≠ m → mitten j u = mitten j s)
        ∧ (fsrc (srcHost p 2) u).latched = true ∧ (∀ j, j ≠ srcHost p 2 → fsrc j u = fsrc j s)
        ∧ ((ins.map (·.id)).Nodup → (outs.map (·.id)).Nodup → ∀ x, edge x u = { edge x s with
            held := (edge x s).held.drop (takes x), creditFlight := (edge x s).creditFlight + takes x })
        ∧ (∀ k ∈ s.led.tickets, ticketOpen k = true → (∃ i ∈ toks, ∃ y ∈ i.2, ∃ g ∈ y.tags, g.stream = k.stream ∧ g.seq = k.seq) →
            k.voided 1 (0x48 + p) 0xFFFF 0 (stamp (liveDie (homeOf k.stream s) s) s) ∈ u.led.tickets)
        ∧ (∀ r ∈ readersOf m s, ∀ g ∈ (scene r.2 u).pages, g.st = .valid → g.tier = 3 →
            g.seq ∉ (readPages r.1 (scene r.2 s)).map (·.seq))
        ∧ (∀ n, (∀ r ∈ readersOf m s, r.2 ≠ n) → scene n u = scene n s)
        ∧ u = { s with
            fab := { s.fab with mittens := u.fab.mittens, edges := u.fab.edges }, scene := u.scene
            fault := { s.fault with src := u.fault.src }, led := { s.led with tickets := u.led.tickets, lastEnd := u.led.lastEnd }
            isl := { s.isl with watch := u.isl.watch }, power := { s.power with st := u.power.st, prev := u.power.prev } }))
    ∧ (¬ starts → Machine.exec (.firingStart t m allow) s0 = .next s))
  ∧ (∀ (t m : Nat) (s0 : State),
    let s := advanceTo t s0
    ((mitten m s).firing = none ∨ fireMayEnd m s = false → Machine.exec (.firingComplete t m) s0 = .next s)
    ∧ (∀ f, (mitten m s).firing = some f → fireMayEnd m s = true →
      let evs := evalUnit m f s
      let outs := outEdges m s
      let every := (mitten m s).every
      let e := sumEvents (eventShares (s.fab.fresh + evs.length) m evs s)
      let frees := fun (x : Nat) => ((f.inputs.filter (fun i => i.1 == x)).map (·.2.length)).sum
      let gives := fun (x : Nat) => ((outs.filter (fun o => o.id == x)).map (·.produce)).sum
      let serves := fun (k : Ticket) => ticketOpen k = true ∧ ∃ g ∈ f.tags, g.stream = k.stream ∧ g.seq = k.seq
      let table := fun (v : Evaluated) => committedScene v s
      ∃ u, Machine.exec (.firingComplete t m) s0 = .next u
        ∧ mitten m u = { mitten m s with firing := none, lastFire := s.time.now, fires := (mitten m s).fires + 1 }
        ∧ (∀ j, j ≠ m → mitten j u = mitten j s)
        ∧ (∀ x, ∃ ks, edge x u = { edge x s with
              taken := (edge x s).taken - gives x, flight := (edge x s).flight ++ ks
              inUse := (edge x s).inUse - frees x, creditFlight := (edge x s).creditFlight + frees x }
            ∧ ks.length = gives x ∧ (∀ k ∈ ks, k.tags = f.tags ∧ k.quad = (mitten m s).gloves.headD 0 / 4)
            ∧ ∀ o v bs, outs.filter (fun o => o.id == x) = [o] → o.produce = 1 → evs.find? (fun v => v.op.id == o.src) = some v →
                v.res.outs[o.srcPort]? = some bs → ks.map (·.data) = [bs])
        ∧ (∀ x, gives x ≤ (edge x s).taken → frees x ≤ (edge x s).inUse → Balanced (edge x s) → Balanced (edge x u))
        ∧ u.led.tickets.length = s.led.tickets.length
        ∧ (∀ (i : Nat) (k : Ticket), s.led.tickets[i]? = some k →
            (¬ serves k → u.led.tickets[i]? = some k)
            ∧ (serves k → u.led.tickets[i]? = some { k with
                numSat := satAdd 16 k.numSat e.1, numNan := satAdd 16 k.numNan e.2
                failed := if k.failed.isSome then k.failed else firingFailure evs
                degraded := k.degraded || f.degraded, stale := k.stale || f.stale }))
        ∧ (∀ g, g ∉ every → glove g u = glove g s)
        ∧ (∀ g, every = [g] → glove g u = { glove g s with
            fires := satAdd 64 (glove g s).fires 1, sat := satAdd 16 (glove g s).sat e.1, nan := satAdd 14 (glove g s).nan e.2
            evAt := s.time.now, evSat := (if (glove g s).evAt = s.time.now then (glove g s).evSat else 0) + e.1
            evNan := (if (glove g s).evAt = s.time.now then (glove g s).evNan else 0) + e.2 })
        ∧ (∀ id, (∀ v ∈ evs, id ∉ v.op.outs ∧ ∀ y ∈ v.op.outs, ∀ z, (curImage s).tensor y = some z → z.scaleT ≠ id) →
            stateOf id u = stateOf id s)
        ∧ (∀ v ∈ evs, ∀ id bs x, evs = [v] → v.op.outs = [id] → v.res.outs = [bs] → (curImage s).tensor id = some x → x.role = 4 →
            isMx x.fmt = false → stateOf id u = bs.take (elemBytes x))
        ∧ ((∀ v ∈ evs, v.op.opcode ≠ 0x0201 ∧ v.op.opcode ≠ 0x0202) → u.scene = s.scene)
        ∧ ((∀ v ∈ evs, v.op.opcode ≠ 0x0202) → u.ddr = s.ddr)
        ∧ DeviceKept (fun a => ∃ v ∈ evs, v.op.opcode = 0x0202 ∧ (table v).tableAt ≤ a
            ∧ a < (table v).tableAt + (tableBytes (table v)).length) s u
        ∧ u = { s with
            fab := { s.fab with
              mittens := u.fab.mittens, edges := u.fab.edges, gloves := u.fab.gloves, tensors := u.fab.tensors
              fresh := s.fab.fresh + evs.length + every.length + 1 }
            scene := u.scene, ddr := u.ddr, led := { s.led with tickets := u.led.tickets } }))
  ∧ (∀ (t e : Nat) (s0 : State),
    let s := advanceTo t s0
    let took := fun (u : State) =>
      edge e u = { edge e s with flight := (edge e s).flight.drop 1, creditFlight := (edge e s).creditFlight + 1 }
      ∧ (∀ j, j ≠ e → edge j u = edge j s)
    (gEdgeOf e s = none ∨ arriving e s = none → Machine.exec (.tokenArrive t e) s0 = .next s)
    ∧ (∀ g k, gEdgeOf e s = some g → arriving e s = some k →
      (g.dstKind ≠ 0 → g.dstKind ≠ 1 → g.dstKind ≠ 4 → Machine.exec (.tokenArrive t e) s0 = .next s)
      ∧ (g.dstKind = 0 → ∃ u, Machine.exec (.tokenArrive t e) s0 = .next u
        ∧ edge e u = { edge e s with flight := (edge e s).flight.drop 1, held := (edge e s).held ++ [k] }
        ∧ (Balanced (edge e s) → Balanced (edge e u)) ∧ (∀ j, j ≠ e → edge j u = edge j s)
        ∧ u = { s with fab := { s.fab with edges := u.fab.edges } })
      ∧ (g.dstKind = 1 → streamNumber g.dst s = none → ∃ u, Machine.exec (.tokenArrive t e) s0 = .next u ∧ took u
        ∧ u = { s with fab := { s.fab with edges := u.fab.edges } })
      ∧ (∀ st, g.dstKind = 1 → streamNumber g.dst s = some st →
        let qs := resultDescs st g.dstPort k s
        ((∃ q ∈ qs, q.2.space = 1) → carried (strm st s).port s = false → Machine.exec (.tokenArrive t e) s0 = .next s)
        ∧ ((∀ q ∈ qs, q.2.space = 1 → carried (strm st s).port s = true) →
          ∃ u, Machine.exec (.tokenArrive t e) s0 = .next u ∧ took u ∧ (Balanced (edge e s) → Balanced (edge e u))
            ∧ (∀ a, (∀ q ∈ qs, q.2.space = 1 → a < q.2.addr ∨ q.2.addr + q.2.len ≤ a) → rd8 u.host.mem a = rd8 s.host.mem a)
            ∧ DeviceKept (fun a => ∃ q ∈ qs, q.2.space ≠ 1 ∧ q.2.addr ≤ a ∧ a < q.2.addr + q.2.len) s u
            ∧ (qs = [] → u.led = s.led ∧ u.ddr = s.ddr ∧ u.host = s.host)
            ∧ (∀ q d, qs = [(q, d)] →
              let served := u.led.tickets = s.led.tickets.map (fun y =>
                if y.stream = st ∧ y.seq = q.seq then { y with outputs := y.outputs ++ [g.dstPort] } else y)
              (d.space = 1 → served ∧ u.ddr = s.ddr ∧ u.host.mem = wrBytes s.host.mem d.addr (k.data.take d.len))
              ∧ (d.space ≠ 1 → (∀ c ∈ chansOfRange d.addr d.len, chanUp c s = true) → served ∧ u.host = s.host
                  ∧ ∀ i, i < d.len → i < k.data.length → devRd8 (d.addr + i) u = k.data.getD i 0)
              ∧ (∀ c, d.space ≠ 1 → (chansOfRange d.addr d.len).find? (fun c => !chanUp c s) = some c → u.ddr = s.ddr ∧ u.host = s.host
                  ∧ q.voided 1 (0x10 + c) 0xFFFF 0 (stamp (liveDie (homeOf st s) s) s) ∈ u.led.tickets))
            ∧ u = { s with
                fab := { s.fab with edges := u.fab.edges }, host := { s.host with mem := u.host.mem }, ddr := u.ddr
                led := { s.led with tickets := u.led.tickets, lastEnd := u.led.lastEnd }
                isl := { s.isl with watch := u.isl.watch }, power := { s.power with st := u.power.st, prev := u.power.prev } }))
      ∧ (g.dstKind = 4 → ∃ u, Machine.exec (.tokenArrive t e) s0 = .next u
        ∧ edge e u = { edge e s with flight := (edge e s).flight.drop 1, inUse := (edge e s).inUse + 1 }
        ∧ (Balanced (edge e s) → Balanced (edge e u)) ∧ (∀ j, j ≠ e → edge j u = edge j s)
        ∧ (g.dstPort = 0 → (∀ d, d < 2 → pdie d u = if dieUp d s = true then
              { pdie d s with updates := (pdie d s).updates ++ [(e, k.data, k.tags)] } else pdie d s)
            ∧ u = { s with fab := { s.fab with edges := u.fab.edges }, plan := { s.plan with d0 := u.plan.d0, d1 := u.plan.d1 } })
        ∧ (g.dstPort ≠ 0 → u = { s with fab := { s.fab with edges := u.fab.edges }, plan := { s.plan with
              reqs := insertReq (PlanReq.mk g.dstPort e k.data k.tags (stamp (liveDie 0 s) s) none {} 0 [] false none)
                s.plan.reqs } }))))
  ∧ (∀ (t e : Nat) (s0 : State),
    let s := advanceTo t s0
    ((edge e s).creditFlight ≠ 0 → ∃ u, Machine.exec (.creditReturn t e) s0 = .next u
      ∧ edge e u = { edge e s with credits := (edge e s).credits + 1, creditFlight := (edge e s).creditFlight - 1 }
      ∧ (Balanced (edge e s) → Balanced (edge e u)) ∧ (∀ j, j ≠ e → edge j u = edge j s)
      ∧ u = { s with fab := { s.fab with edges := u.fab.edges } })
    ∧ ((edge e s).creditFlight = 0 → Machine.exec (.creditReturn t e) s0 = .next s))

/-- MITTEN_WAKE, GLOVE_CLOCK_GATE, LINING_SCRUB_READ, PREFETCH_COPY_DONE and the counters. -/
def Obligations.ClocksScrubsPrefetchesAndCountersOfTheFabric : Prop :=
  (∀ (t m : Nat) (s0 : State),
    let s := advanceTo t s0
    let woken := modMitten m (fun x => { x with gated := false }) s
    ((mitten m s).gated = true → fireReady m s = true → fireFree m woken = true →
      ∃ u, Machine.exec (.mittenWake t m) s0 = .next u ∧ mitten m u = { mitten m s with gated := false }
        ∧ (∀ j, j ≠ m → mitten j u = mitten j s) ∧ u = { s with fab := { s.fab with mittens := u.fab.mittens } })
    ∧ ((mitten m s).gated = false ∨ fireReady m s = false ∨ fireFree m woken = false → Machine.exec (.mittenWake t m) s0 = .next s)
    ∧ (∀ g k, mittenWithGlove g s = some k → leadOf k s = m → (mitten m s).firing = none → (mitten m s).lastFire + s.crown.parkUs * 1000 ≤ s.time.now →
      ∃ u, Machine.exec (.gloveClockGate t g) s0 = .next u ∧ mitten m u = { mitten m s with gated := true }
        ∧ (∀ j, j ≠ m → mitten j u = mitten j s) ∧ u = { s with fab := { s.fab with mittens := u.fab.mittens } })
    ∧ (∀ g k, mittenWithGlove g s = some k → leadOf k s = m →
      (mitten m s).firing ≠ none ∨ s.time.now < (mitten m s).lastFire + s.crown.parkUs * 1000 →
      Machine.exec (.gloveClockGate t g) s0 = .next s)
    ∧ (∀ g, mittenWithGlove g s = none → Machine.exec (.gloveClockGate t g) s0 = .next s))
  ∧ (∀ (t k b err : Nat) (s0 : State), k < 4 → b < 48 →
    let s := advanceTo t s0
    let x := tget {} (k * 48 + b) s.fab.banks
    (stackAvail k s = true → fastDown s = false → ∃ u, Machine.exec (.liningScrubRead t k b err) s0 = .next u
      ∧ (let y := tget {} (k * 48 + b) u.fab.banks
         y.pos = (if x.pos + 1 < 262144 then x.pos + 1 else 0)
         ∧ y.ce = (if err = 1 then satAdd 16 x.ce 1 else x.ce) ∧ y.ue = (x.ue || decide (err = 2))
         ∧ y.lastPass = (if x.pos + 1 < 262144 then x.lastPass else shortStamp (k / 2) s))
      ∧ (∀ j, j ≠ k * 48 + b → tget {} j u.fab.banks = tget {} j s.fab.banks)
      ∧ (err = 1 → (fsrc (srcStack k 2) u).latched = true ∧ (fsrc (srcStack k 2) u).detail = b ∧ ∀ j, j ≠ srcStack k 2 → fsrc j u = fsrc j s)
      ∧ (err = 2 → (fsrc (srcStack k 3) u).latched = true ∧ (fsrc (srcStack k 3) u).detail = b ∧ ∀ j, j ≠ srcStack k 3 → fsrc j u = fsrc j s)
      ∧ (err ≠ 1 → err ≠ 2 → u.fault = s.fault)
      ∧ u = { s with fab := { s.fab with banks := u.fab.banks }, fault := { s.fault with src := u.fault.src } })
    ∧ (stackAvail k s = false ∨ fastDown s = true → Machine.exec (.liningScrubRead t k b err) s0 = .next s)
    ∧ (∀ v, offBlocked (0x00460000 + k * 0x1000 + b * 0x40) s = false → ∃ u, Machine.exec (.liningCeClr t k b v) s0 = .next u
      ∧ tget {} (k * 48 + b) u.fab.banks = { x with ce := if bit v 31 = true then 0 else x.ce, ue := x.ue && !bit v 16 }
      ∧ (∀ j, j ≠ k * 48 + b → tget {} j u.fab.banks = tget {} j s.fab.banks)
      ∧ u = { s with fab := { s.fab with banks := u.fab.banks } })
    ∧ (∀ v, offBlocked (0x00460000 + k * 0x1000 + b * 0x40) s = true → Machine.exec (.liningCeClr t k b v) s0 = .next s))
  ∧ (∀ (t g v : Nat) (s0 : State), g < 1344 →
    let s := advanceTo t s0
    (offBlocked (0x00400028 + g * 0x100) s = false → bit v 31 = true → ∃ u, Machine.exec (.gloveNumClr t g v) s0 = .next u
      ∧ glove g u = { glove g s with
          sat := if (glove g s).evAt = s.time.now then satU 16 (glove g s).evSat else 0
          nan := if (glove g s).evAt = s.time.now then satU 14 (glove g s).evNan else 0 } ∧ (∀ j, j ≠ g → glove j u = glove j s)
      ∧ u = { s with fab := { s.fab with gloves := u.fab.gloves } })
    ∧ (bit v 31 = false ∨ offBlocked (0x00400028 + g * 0x100) s = true → Machine.exec (.gloveNumClr t g v) s0 = .next s)
    ∧ (offBlocked (0x00400008 + g * 0x100) s = false → ∃ u, Machine.exec (.palmCeClr t g v) s0 = .next u
      ∧ glove g u = { glove g s with ce := if bit v 31 = true then 0 else (glove g s).ce, ue := (glove g s).ue && !bit v 16 }
      ∧ (∀ j, j ≠ g → glove j u = glove j s) ∧ u = { s with fab := { s.fab with gloves := u.fab.gloves } })
    ∧ (offBlocked (0x00400008 + g * 0x100) s = true → Machine.exec (.palmCeClr t g v) s0 = .next s))
  ∧ (∀ (t n reader seq m : Nat) (stalled : Bool) (o : GOp) (s0 : State),
    let s := advanceTo t s0
    let waits := ∃ c ∈ (scene n s).prefetch, c.reader = reader ∧ c.seq = seq ∧ c.ready = false
    (curImage s).op reader = some o → mittenOf reader s = some m →
    (¬ waits → Machine.exec (.prefetchCopyDone t n reader seq stalled) s0 = .next s)
    ∧ (waits → ∃ u, Machine.exec (.prefetchCopyDone t n reader seq stalled) s0 = .next u
      ∧ ((mitten m s).firing = none →
        (∀ c ∈ (scene n u).prefetch, c.reader = reader → c.seq = seq → c.ready = true)
        ∧ (scene n u).prefetch.length = (scene n s).prefetch.length
        ∧ scene n u = { scene n s with prefetch := (scene n u).prefetch })
      ∧ ((mitten m s).firing ≠ none →
        (reader, seq) ∈ (scene n u).taken ∧ (∀ c ∈ (scene n u).prefetch, c.reader = reader → c.seq ≠ seq)
        ∧ (∀ q, q ∈ (scene n s).taken → q ∈ (scene n u).taken)
        ∧ (scene n u).pfStall = (if stalled = true then satAdd 16 (scene n s).pfStall 1 else (scene n s).pfStall)
        ∧ scene n u = { scene n s with
            prefetch := (scene n u).prefetch, taken := (scene n u).taken, pfStall := (scene n u).pfStall })
      ∧ (∀ c, c.reader ≠ reader → (c ∈ (scene n u).prefetch ↔ c ∈ (scene n s).prefetch))
      ∧ (∀ j, j ≠ n → scene j u = scene j s) ∧ u = { s with scene := u.scene }))

/-- R61, for each word of the 0x100 bytes of the entry. -/
def Obligations.SecureGloveEntriesShowStateWorldAndMittenOnly : Prop :=
  ∀ (p g r m : Nat) (s : State), g < 1344 → r < 0x100 → r % 4 = 0 → mittenOfGlove g s = some m → (mitten m s).secure = true →
    (r = 0 → (regRead p (0x00400000 + g * 0x100 + r) 32 s).1 = gloveCode g s + 2 ^ 4 + m % 2 ^ 11 * 2 ^ 16)
    ∧ (r ≠ 0 → (regRead p (0x00400000 + g * 0x100 + r) 32 s).1 = 0)
    ∧ (r ≠ 0 → r % 8 = 0 → (regRead p (0x00400000 + g * 0x100 + r) 64 s).1 = 0)

/-- R62, for each word of the 0x40 bytes of each record; a guard counts in units of 64 KiB, 32 to a bank. -/
def Obligations.LiningRecordsOf48BanksAndNoMore : Prop :=
  ∀ (p k b r : Nat) (s : State), k < 4 → b < 64 → r < 0x40 → r % 4 = 0 →
    let v := (regRead p (0x00460000 + k * 0x1000 + b * 0x40 + r) 32 s).1
    let x := liningBank k b s
    (48 ≤ b → v = 0)
    ∧ (b < 48 → r = 0 → v % 2 ^ 16 = x.ce % 2 ^ 16 ∧ bit v 16 = x.ue ∧ v < 2 ^ 18
        ∧ (bit v 17 = true ↔ ∃ g ∈ s.sec.linGuards, g.stack = k ∧ g.base < (b + 1) * 32 ∧ b * 32 < g.base + g.size))
    ∧ (b < 48 → r = 8 → v = x.lastPass % 2 ^ 32)
    ∧ (b < 48 → r ≠ 0 → r ≠ 8 → v = 0)

/-- SEAM_ARM, SEAM_CANCEL, SEAM_DISCARD and RWS_WRITE (R109, R110, R113). -/
def Obligations.SeamEnginesAreArmedCancelledAndFed : Prop :=
  (∀ (t e v : Nat) (s0 : State), e < 4 →
    let s := advanceTo t s0
    let x := engine e s
    let gs := selected x
    let others := fun (u : State) => ∀ j, j < 4 → j ≠ e → engine j u = engine j s
    offBlocked (0x00040108 + e * 0x100) s = false →
    (bit v 0 = true → bit v 1 = false → bit v 2 = false → ∃ u, Machine.exec (.seamArm t e v) s0 = .next u
      ∧ others u ∧ u.pat.shadow = s.pat.shadow ∧ u = { s with pat := u.pat }
      ∧ (engBusy x = true → engine e u = { x with code := 1 })
      ∧ (engBusy x = false → gs = [] → engine e u = { x with code := 6, st := 4 })
      ∧ (engBusy x = false → (∃ g ∈ gs, groupKnown g = false) → engine e u = { x with code := 5, st := 4 })
      ∧ (engBusy x = false → gs ≠ [] → (∀ g ∈ gs, groupKnown g = true) →
          ((∃ g ∈ gs, groupArmed (fun i => i != e) g s = true ∨ groupPatched g s = true) → engine e u = { x with code := 2, st := 4 })
          ∧ ((∀ g ∈ gs, groupArmed (fun i => i != e) g s = false ∧ groupPatched g s = false) →
              (x.stamp = 0 → (∃ g ∈ gs, groupGlobal g = true) → engine e u = { x with code := 4, st := 4 })
              ∧ (x.stamp ≠ 0 → x.stamp < stamp (liveDie 0 s) s + 100000 → engine e u = { x with code := 3, st := 4 })
              ∧ ((x.stamp = 0 ∧ ∀ g ∈ gs, groupGlobal g = false) ∨ stamp (liveDie 0 s) s + 100000 ≤ x.stamp →
                  engine e u = { x with code := 0, st := 1, groups := gs, left := gs }))))
    ∧ (bit v 1 = true → bit v 0 = false → bit v 2 = false →
      (x.st = 1 → ∃ u, Machine.exec (.seamCancel t e v) s0 = .next u ∧ engine e u = { x with st := 5, groups := [], left := [] }
        ∧ others u ∧ u.pat.shadow = s.pat.shadow ∧ u = { s with pat := u.pat })
      ∧ (x.st ≠ 1 → Machine.exec (.seamCancel t e v) s0 = .next s))
    ∧ (bit v 2 = true → bit v 0 = false → bit v 1 = false →
      (engBusy x = false → ∃ u, Machine.exec (.seamDiscard t e v) s0 = .next u
        ∧ u.pat.shadow = s.pat.shadow.filter (fun p => decide (p.1 / 8 ∉ gs))
        ∧ u = { s with pat := { s.pat with shadow := u.pat.shadow } })
      ∧ (engBusy x = true → Machine.exec (.seamDiscard t e v) s0 = .next s))
    ∧ (bit v 0 = true → bit v 1 = true ∨ bit v 2 = true → ∃ u, Machine.exec (.seamArm t e v) s0 = .next u
        ∧ (fsrc 0x142 u).latched = true ∧ (fsrc 0x142 u).detail = 0x00040108 + e * 0x100
        ∧ u = { s with fault := { s.fault with src := u.fault.src } }))
  ∧ (∀ (t off v : Nat) (fs : List (Nat × Option Nat)) (s0 : State),
    let s := advanceTo t s0
    let g := fieldsGroup fs
    offBlocked off s = false → rwsFields off v s = some fs → (off < 0x00031000 ∨ 0x00035000 ≤ off) →
    (groupArmed (fun _ => true) g s = false → ∃ u, Machine.exec (.rwsWrite t off v) s0 = .next u
      ∧ (∀ k w, fs = [(k, some w)] → tget none k u.pat.shadow = some w)
      ∧ (∀ k, (∀ f ∈ fs, f.1 ≠ k ∨ f.2 = none) → tget none k u.pat.shadow = tget none k s.pat.shadow)
      ∧ u = { s with pat := { s.pat with shadow := u.pat.shadow } })
    ∧ (groupArmed (fun _ => true) g s = true → ∃ u, Machine.exec (.rwsWrite t off v) s0 = .next u
      ∧ u.pat.shadow = s.pat.shadow ∧ (fsrc (offHalf off * 0x400 + 0x142) u).latched = true
      ∧ (fsrc (offHalf off * 0x400 + 0x142) u).detail = off
      ∧ (∀ e, e < 4 → engBusy (engine e s) = true → g ∈ (engine e s).groups → (engine e u).writeArmed = true)
      ∧ u = { s with pat := u.pat, fault := { s.fault with src := u.fault.src } }))
  ∧ (∀ (t n v : Nat) (s0 : State), n < 256 →
    let s := advanceTo t s0
    let off := 0x00031000 + n * 0x40
    let l := bits v 25 16
    let key := (0x100 + n) * 8
    let bad := l = 0 ∨ 512 < l ∨ ringSize (strm n s) < l ∨ 16384 < limitSum n l s
    offBlocked off s = false → ∃ u, Machine.exec (.rwsWrite t off v) s0 = .next u
      ∧ (strm n u).limit = (strm n s).limit ∧ (strm n u).cfgBusy = ((strm n s).cfgBusy && !bit v 5)
      ∧ (strm n u).consErr = ((strm n s).consErr && !bit v 7)
      ∧ (groupArmed (fun _ => true) (0x100 + n) s = true → u.pat.shadow = s.pat.shadow)
      ∧ (groupArmed (fun _ => true) (0x100 + n) s = false →
          (¬ bad → tget none key u.pat.shadow = some l ∧ (∀ k, k ≠ key → tget none k u.pat.shadow = tget none k s.pat.shadow)
            ∧ (strm n u).limitRej = ((strm n s).limitRej && !bit v 6) ∧ u.fault = s.fault)
          ∧ (bad → u.pat.shadow = s.pat.shadow ∧ (strm n u).limitRej = true ∧ (fsrc 0x142 u).latched = true ∧ (fsrc 0x142 u).detail = off))
      ∧ (∀ j, j ≠ n → strm j u = strm j s)
      ∧ u = { s with pat := u.pat, led := { s.led with strm := u.led.strm }, fault := { s.fault with src := u.fault.src } })

/-- BLOCK_SEAM, GLOBAL_SEAM_STAMP, SEAM_LIMIT_EXPIRE and GLOBAL_SEAM_SWITCH (R111, R112). -/
def Obligations.BlockSeamsAndGlobalSeamsSwitchTheirGroups : Prop :=
  ∀ (t e : Nat) (s0 : State), e < 4 →
    let s := advanceTo t s0
    let x := engine e s
    (∀ g, x.st = 1 → x.stamp = 0 → x.left.contains g = true → groupWorks g s = false → groupIsolated g s = false →
      ∃ u, Machine.exec (.blockSeam t e g) s0 = .next u ∧ (engine e u).left = x.left.filter (· != g)
        ∧ (∀ p ∈ u.pat.shadow, p.1 / 8 ≠ g) ∧ (∀ p ∈ s.pat.shadow, p.1 / 8 ≠ g → p ∈ u.pat.shadow)
        ∧ ((∃ j ∈ x.left, j ≠ g) → (engine e u).st = 1) ∧ ((∀ j ∈ x.left, j = g) → (engine e u).st = 3)
        ∧ (∀ j, j < 4 → j ≠ e → engine j u = engine j s)
        ∧ (∀ n w, g = 0x020 + n → n < 16 → s.pat.shadow = [(g * 8, some w)] → lslot n u = { lslot n s with spStaleUs := w * 1000 }))
    ∧ (∀ g, groupWorks g s = true ∨ groupIsolated g s = true ∨ x.left.contains g = false → Machine.exec (.blockSeam t e g) s0 = .next s)
    ∧ (x.st = 1 → x.stamp ≠ 0 →
      (x.stamp ≤ stamp (liveDie 0 s) s → ∃ u, Machine.exec (.globalSeamStamp t e) s0 = .next u
        ∧ engine e u = { x with st := 2, takingAt := s.time.now, withdrawn := 0 } ∧ u.pat.shadow = s.pat.shadow
        ∧ (∀ j, j < 4 → j ≠ e → engine j u = engine j s)
        ∧ u = { s with pat := u.pat, fab := { s.fab with draining := u.fab.draining } })
      ∧ (stamp (liveDie 0 s) s < x.stamp → Machine.exec (.globalSeamStamp t e) s0 = .next s))
    ∧ (x.st = 2 →
      (∀ m, x.groups = [0x400 + m] → leadOf m s = m → (mitten m s).firing.isSome = true → x.takingAt + max 10 (min 100000 x.limitUs) * 1000 ≤ s.time.now →
        ∃ u, Machine.exec (.seamLimitExpire t e) s0 = .next u ∧ (mitten m u).firing = none ∧ (engine e u).withdrawn = satAdd 16 x.withdrawn 1
          ∧ (engine e u).st = 2)
      ∧ (s.time.now < x.takingAt + max 10 (min 100000 x.limitUs) * 1000 → Machine.exec (.seamLimitExpire t e) s0 = .next s)
      ∧ (∀ at_, (∀ g ∈ x.groups, groupWorks g s = false) → wholeMicro s = some at_ →
        ∃ u, Machine.exec (.globalSeamSwitch t e) s0 = .next u
        ∧ at_ % 1000 = 0 ∧ at_ ≤ stamp (liveDie 0 s) s
        ∧ engine e u = { x with st := 3, done := at_, groups := [], left := [] }
        ∧ (∀ p ∈ u.pat.shadow, p.1 / 8 ∉ x.groups) ∧ (∀ j, j < 4 → j ≠ e → engine j u = engine j s)
        ∧ u.fab.mittens = s.fab.mittens)
      ∧ ((∃ g ∈ x.groups, groupWorks g s = true) ∨ wholeMicro s = none → Machine.exec (.globalSeamSwitch t e) s0 = .next s))
    ∧ (x.st ≠ 2 → Machine.exec (.seamLimitExpire t e) s0 = .next s ∧ Machine.exec (.globalSeamSwitch t e) s0 = .next s)

/-- From GO to LOADED (R97 to R102, R114 to R116, R342, R439, R473). -/
def Obligations.LoadsAndPatchesAreJudgedVerifiedAndInstalled : Prop :=
  ∀ (t v : Nat) (s0 : State),
    let s := advanceTo t s0
    let judged := fun (u : State) (patch : Bool) =>
      (goCode v s ≠ 0 → u.pat.code = goCode v s ∧ u.pat.job = s.pat.job ∧ u.pat.st = s.pat.st ∧ u.led = s.led)
      ∧ (goCode v s = 0 → u.pat.st = .verifying ∧ (u.led.stopLoad = true ∨ patch = true)
          ∧ ∃ j, u.pat.job = some j ∧ j.patch = patch ∧ j.goAt = s.time.now ∧ j.stage = 0)
      ∧ u.pat.image = s.pat.image ∧ u.pat.fit = s.pat.fit
      ∧ u = { s with pat := u.pat, led := { s.led with stopLoad := u.led.stopLoad }, fault := { s.fault with src := u.fault.src } }
    (bit v 0 = true → offBlocked 0x0004000C s = false →
      (bits v 2 1 ≠ 1 → ∃ u, Machine.exec (.loadFullGo t v) s0 = .next u ∧ judged u false)
      ∧ (bits v 2 1 = 1 → ∃ u, Machine.exec (.patchGo t v) s0 = .next u ∧ judged u true))
    ∧ (bit v 0 = false → Machine.exec (.loadFullGo t v) s0 = .next s ∧ Machine.exec (.patchGo t v) s0 = .next s)
    ∧ (bits v 2 1 = 0 → bit v 3 = false → s.pat.len % 8 = 0 → s.pat.addr % 8 = 0 → 0 < s.pat.len → s.pat.len ≤ 0x01000000 →
        (outcomeOwed s = true ∨ s.pat.job.isSome = true) → goCode v s = 0x11)
    ∧ (bits v 2 1 = 1 → bit v 3 = false → s.pat.len % 8 = 0 → s.pat.addr % 8 = 0 → 0 < s.pat.len → s.pat.len ≤ 0x01000000 →
        s.pat.image = none → goCode v s = 0x13)
    ∧ (∀ j, s.pat.job = some j → j.boot = false →
      (j.stage = 0 → j.raw = [] → ∃ u, Machine.exec (.patternStoreRead t) s0 = .next u
        ∧ u = { s with pat := { s.pat with job := some { j with raw := (storeEntry s.pat.flashEntry s).raw } } })
      ∧ (j.stage = 0 → j.raw ≠ [] → (islandRuns 0 s = true ∨ islandRuns 1 s = true) →
        ∃ u, Machine.exec (.loadVerifyDone t) s0 = .next u
          ∧ (verifyCode j.raw j.patch s = 0 → u = { s with pat := { s.pat with
              job := some { j with stage := 1, image := parseImage j.raw }, st := if j.patch then .verifying else .fitting } })
          ∧ (verifyCode j.raw j.patch s ≠ 0 → u.pat.st = .failed ∧ u.pat.code = verifyCode j.raw j.patch s ∧ u.pat.job = none
              ∧ u.pat.image = s.pat.image ∧ (j.patch = false → u.led.stopLoad = false)))
      ∧ (j.stage = 1 → j.patch = false → checkImage j.image s = none → ∀ c0 f0 c1 f1,
        (∀ p, (fittedPlacement j s).getD (fitterResult j.image c0 f0 c1 f1 s) = .placed p →
          ∃ u j', Machine.exec (.loadFitDone t c0 f0 c1 f1) s0 = .next u ∧ u.pat.st = .loading ∧ u.pat.job = some j' ∧ j'.stage = 2
            ∧ j'.fit = p.fit ∧ j'.image = j.image ∧ u = { s with pat := u.pat })
        ∧ (∀ c b, (fittedPlacement j s).getD (fitterResult j.image c0 f0 c1 f1 s) = .refused c b →
          ∃ u, Machine.exec (.loadFitDone t c0 f0 c1 f1) s0 = .next u ∧ u.pat.st = .failed ∧ u.pat.code = c ∧ u.pat.job = none))
      ∧ (j.stage = 2 → j.patch = false → contentError j.raw j.image s = none →
        ∃ u, Machine.exec (.loadComplete t) s0 = .next u ∧ u.pat.st = .loaded ∧ u.pat.code = 0 ∧ u.pat.job = none
          ∧ u.pat.image = some j.image ∧ u.pat.patternId = j.image.patternId ∧ u.pat.gen = j.image.generation ∧ u.pat.fit = j.fit
          ∧ u.pat.shadow = [] ∧ (∀ e, e < 4 → engine e u = {}) ∧ u.led.stopLoad = false)
      ∧ (j.stage = 2 → j.patch = false → ∀ x, badContents j.raw j.image s = some x →
        ∃ u, Machine.exec (.loadComplete t) s0 = .next u ∧ u.pat.st = .failed ∧ u.pat.code = 0x17 ∧ u.pat.image = s.pat.image)
      ∧ (j.stage = 2 → j.patch = false → ∀ e, contentError j.raw j.image s = some e →
        ∃ u, Machine.exec (.loadComplete t) s0 = .next u ∧ u.pat.st = .failed ∧ u.pat.code = e.1 ∧ u.pat.image = s.pat.image)
      ∧ (j.stage = 1 → j.patch = true →
        (patchError j s = none → ∃ u, Machine.exec (.patchStaged t) s0 = .next u ∧ u = { s with pat := { s.pat with
            st := .patchArmed, job := some { j with stage := 3, groups := patchGroups j.image s } } })
        ∧ ∀ c b, patchError j s = some (c, b) → ∃ u, Machine.exec (.patchStaged t) s0 = .next u ∧ u.pat.st = .failed ∧ u.pat.code = c
            ∧ u.pat.image = s.pat.image ∧ u.pat.gen = s.pat.gen)
      ∧ (j.stage = 3 →
        (j.loadStamp ≤ stamp (liveDie 0 s) s → ∃ u, Machine.exec (.patchSeam t) s0 = .next u ∧ u = { s with pat := { s.pat with
            job := some { j with stage := 4, takingAt := s.time.now }, withdrawn := 0 } })
        ∧ (stamp (liveDie 0 s) s < j.loadStamp → Machine.exec (.patchSeam t) s0 = .next s)))
    ∧ (∀ m, s.power.st = .standby ∨ s.power.st = .active ∨ s.power.st = .degraded ∨ s.power.st = .boot →
      ∃ u, Machine.exec (.constantRefillDone t m) s0 = .next u ∧ mitten m u = { mitten m s with waitConst := false }
        ∧ (∀ j, j ≠ m → mitten j u = mitten j s) ∧ u = { s with fab := { s.fab with mittens := u.fab.mittens } })
    ∧ (∀ a, s.pat.auth = some a →
      (a.2.2 ≤ s.time.now → ∃ u, Machine.exec (.patternAuthExpire t) s0 = .next u ∧ u = { s with pat := { s.pat with auth := none } })
      ∧ (s.time.now < a.2.2 → Machine.exec (.patternAuthExpire t) s0 = .next s))

/-- ALT_COMPUTE_DONE, ALTERNATE_SWITCH, DEVICE_REFIT_DONE and RETAIN_EXIT_DONE. -/
def Obligations.LossesAreReplacedByAlternatesOrRefits : Prop :=
  ∀ (t : Nat) (s0 : State),
    let s := advanceTo t s0
    (∀ bs, let ts := parseStitches 0x11 (bs.length / 8 + 1) bs
      s.pat.st = .loaded → s.pat.source = 2 → s.pat.altKind = 0 → s.pat.altReady = false →
      (altError (curImage s) s.pat.stackAlts s.pat.primary ts = none → ∃ u, Machine.exec (.altComputeDone t bs) s0 = .next u
        ∧ u = { s with pat := { s.pat with altReady := true, alts := altsOf ts } })
      ∧ (altError (curImage s) s.pat.stackAlts s.pat.primary ts ≠ none → Machine.exec (.altComputeDone t bs) s0 = .next s))
    ∧ (∀ bs, s.pat.altReady = true ∨ s.pat.altKind ≠ 0 ∨ s.pat.source ≠ 2 → Machine.exec (.altComputeDone t bs) s0 = .next s)
    ∧ (∀ part src conf rest, s.fault.replace = (part, src, conf) :: rest → s.pat.refitAt = none → s.pat.image.isSome = true →
      (anyTaking s = true → Machine.exec (.alternateSwitch t) s0 = .next s)
      ∧ (anyTaking s = false → s.pat.dieLost = false →
        (∀ k i f, matchingAlt part s = some (k, i, f) → ∃ u, Machine.exec (.alternateSwitch t) s0 = .next u ∧ u.pat.fit = f
          ∧ u.pat.altKind = k ∧ u.pat.altIndex = i ∧ u.pat.switches = satAdd 16 s.pat.switches 1 ∧ u.fault.replace = rest
          ∧ u.pat.image = s.pat.image ∧ u.pat.shadow = s.pat.shadow)
        ∧ (matchingAlt part s = none → ∃ u, Machine.exec (.alternateSwitch t) s0 = .next u ∧ u = { s with pat := { s.pat with
            refitAt := some conf, st := if s.pat.job.isNone then .refitting else s.pat.st } })))
    ∧ (∀ cf part src conf rest c0 f0 c1 f1, s.pat.refitAt = some cf → s.fault.replace = (part, src, conf) :: rest → s.pat.dieLost = false →
      (anyTaking s = true → Machine.exec (.deviceRefitDone t c0 f0 c1 f1) s0 = .next s)
      ∧ (anyTaking s = false →
        (∀ p, fitterResult (curImage s) c0 f0 c1 f1 s = .placed p → ∃ u, Machine.exec (.deviceRefitDone t c0 f0 c1 f1) s0 = .next u
          ∧ u.pat.fit = p.fit ∧ u.pat.altKind = 3 ∧ u.pat.source = 2 ∧ u.pat.refitAt = none ∧ u.fault.replace = rest)
        ∧ (∀ c b, fitterResult (curImage s) c0 f0 c1 f1 s = .refused c b → ∃ u, Machine.exec (.deviceRefitDone t c0 f0 c1 f1) s0 = .next u
          ∧ u.pat.fit = s.pat.fit ∧ u.pat.code = c ∧ u.pat.refitAt = none ∧ u.fault.replace = rest)))
    ∧ (s.power.retainExit = true → twf {} s.ddr.ch = true → ∃ u, Machine.exec (.retainExitDone t) s0 = .next u ∧ u.power.retainExit = false
        ∧ u.led.stopRetain = false ∧ (∀ ch, (chan ch s).st = .selfRefresh → (chan ch u).st = .active)
        ∧ (∀ ch, (chan ch s).st ≠ .selfRefresh → chan ch u = chan ch s) ∧ u.pat = s.pat ∧ u.sec = s.sec)
    ∧ (s.power.retainExit = false → Machine.exec (.retainExitDone t) s0 = .next s)

/-- BAR4_WRITE, TICKET_VERDICT and JOURNAL_MIRROR_ACK (R193, R197 to R203). -/
def Obligations.TicketsLandAreJudgedAndReceipted : Prop :=
  (∀ (t port w slot : Nat) (bytes : List Byte) (s0 : State), w < 256 → slot < 512 →
    let s := advanceTo t s0
    let off := w * 65536 + slot * 128
    let d := liveDie port s
    (portUp port s = false → ∀ ok, Machine.exec (.bar4Write t port off bytes ok) s0 = .next s)
    ∧ (portUp port s = true →
      (∃ u, Machine.exec (.bar4Write t port off bytes false) s0 = .next u ∧ (fsrc (srcHost port 4) u).latched = true
        ∧ u = { s with fault := { s.fault with src := u.fault.src } })
      ∧ (s.led.intakeDepth ≤ queuedAt d s → ∃ u, Machine.exec (.bar4Write t port off bytes true) s0 = .next u
        ∧ u = { s with led := { s.led with heldWrites := s.led.heldWrites ++ [(port, off, bytes)] } })
      ∧ (queuedAt d s < s.led.intakeDepth → s.led.heldWrites = [] →
        (bytes.length = 128 → (tget ({} : Slot) (w * 512 + slot) s.led.slots).tail = [] →
          (tget ({} : Slot) (w * 512 + slot) s.led.slots).bytes.length ≤ 128 →
          ∃ u, Machine.exec (.bar4Write t port off bytes true) s0 = .next u
            ∧ u.led.intake = s.led.intake ++ [{ window := w, slot := slot, die := d, bytes := bytes, stamp := shortStamp d s }]
            ∧ u = { s with led := { s.led with slots := u.led.slots, intake := u.led.intake } })
        ∧ (bytes.length ≤ 120 → ∃ u, Machine.exec (.bar4Write t port off bytes true) s0 = .next u
            ∧ (∀ j, j ≠ w * 512 + slot → tget ({} : Slot) j u.led.slots = tget ({} : Slot) j s.led.slots)
            ∧ ((tget ({} : Slot) (w * 512 + slot) s.led.slots).tail.length < 8 → u.led.intake = s.led.intake)))))
  ∧ (∀ (t home : Nat) (l : Landing) (r : List Landing) (s0 : State),
    let s := advanceTo t s0
    let x := strm l.window s
    let v := verdictOf l.window (some l.slot) l.bytes { s with led := { s.led with intake := r } }
    takeLanding home s s.led.intake = some (l, r) → s.led.heldWrites = [] →
    (heldGroup (0x100 + l.window) s = false → dieUp home s = true →
      (v = 0 → s.led.mirrorOk = true → ∃ u k, Machine.exec (.ticketVerdict t home) s0 = .next u ∧ u.led.intake = r
        ∧ (strm l.window u).nextSeq = x.nextSeq + 1 ∧ (strm l.window u).outstanding = x.outstanding + 1
        ∧ u.led.tickets = s.led.tickets ++ [k] ∧ k.stream = l.window ∧ k.seq = fieldLe l.bytes 0 8 ∧ k.phase = .accepted
        ∧ k.rcptPending = true ∧ k.landing = l.stamp ∧ u.led.rcptWr = s.led.rcptWr ∧ u.host.mem = s.host.mem
        ∧ (∀ n, n ≠ l.window → strm n u = strm n s))
      ∧ (v ≠ 0 → s.led.rcptEnable = true → carried s.led.rcptPort s = true → ∃ u, Machine.exec (.ticketVerdict t home) s0 = .next u
        ∧ u.led.intake = r ∧ u.led.tickets = s.led.tickets ∧ strm l.window u = { x with rejects := satAdd 16 x.rejects 1 }
        ∧ u.led.rcptWr = (s.led.rcptWr + 1) % 65536
        ∧ u.host.mem = wrBytes s.host.mem (s.led.rcptBase + s.led.rcptWr % 1024 * 16)
            (receiptBytes (fieldLe l.bytes 0 8) l.stamp v (if s.led.rcptWr / 1024 % 2 = 0 then 1 else 0) l.window (avail x))
        ∧ (∀ n, n ≠ l.window → strm n u = strm n s)))
    ∧ (heldGroup (0x100 + l.window) s = true ∨ dieUp home s = false → Machine.exec (.ticketVerdict t home) s0 = .next s))
  ∧ (∀ (t st q : Nat) (k : Ticket) (s0 : State),
    let s := advanceTo t s0
    ticket st q s = some k → k.rcptPending = true → s.led.mirrorOk = true → dieUp 0 s = true → dieUp 1 s = true →
      k.sealed_ = false → s.led.rcptEnable = true → carried s.led.rcptPort s = true →
    ∃ u, Machine.exec (.journalMirrorAck t st q) s0 = .next u
      ∧ ticket st q u = some { k with inJ0 := true, inJ1 := true, rcptPending := false }
      ∧ u.led.rcptWr = (s.led.rcptWr + 1) % 65536 ∧ u.led.strm = s.led.strm
      ∧ u.host.mem = wrBytes s.host.mem (s.led.rcptBase + s.led.rcptWr % 1024 * 16)
          (receiptBytes q k.landing 0 (if s.led.rcptWr / 1024 % 2 = 0 then 1 else 0) st (avail (strm st s)))
      ∧ u = { s with led := { s.led with tickets := u.led.tickets, rcptWr := u.led.rcptWr }, host := { s.host with mem := u.host.mem } })

/-- TICKET_INJECT to LEDGER_TAKEOVER (R204 to R213, R217). -/
def Obligations.TicketsRunEndAndAreConsumed : Prop :=
  ∀ (t st : Nat) (s0 : State),
    let s := advanceTo t s0
    let x := strm st s
    let now := stamp (liveDie x.home s) s
    (∀ k, nextToInject st s = some k → ticket st k.seq s = some k →
      (dieUp x.home s = true → k.rcptPending = false → tooLate k now s = false → orderAllows x k s = true → (∀ d ∈ inputDescs k, ∀ e, edgeOfSub x d.sub = some e → (edge e s).credits ≠ 0) →
          (∀ d ∈ inputDescs k, descError x d s = none) →
        ∃ u, Machine.exec (.ticketInject t st) s0 = .next u
          ∧ ticket st k.seq u = some { k with
              phase := .running, injected := (inputDescs k).map (·.sub), injectAt := some (stamp (liveDie x.home s) s) }
          ∧ (∀ d e, inputDescs k = [d] → edgeOfSub x d.sub = some e → ∃ tk, (edge e u).flight = (edge e s).flight ++ [tk]
              ∧ tk.tags = [⟨st, k.seq⟩] ∧ tk.data = descData d s ∧ (edge e u).credits + 1 = (edge e s).credits
              ∧ (Balanced (edge e s) → Balanced (edge e u)) ∧ ∀ j, j ≠ e → edge j u = edge j s)
          ∧ u = { s with led := { s.led with tickets := u.led.tickets }, fab := { s.fab with edges := u.fab.edges } })
      ∧ (orderAllows x k s = false ∨ k.rcptPending = true ∨ dieUp x.home s = false → Machine.exec (.ticketInject t st) s0 = .next s)
      ∧ (∀ d, k.dropLate = true → k.deadline = some d → d < now → Machine.exec (.ticketInject t st) s0 = .next s))
    ∧ (∀ q k d, ticket st q s = some k → k.phase = .accepted → k.deadline = some d →
      (k.dropLate = true → dieUp x.home s = true →
          d < now ∨ (d = now ∧ ((nextToInject st s).map (·.seq) ≠ some q ∨ mayInject k s = false)) →
        ∃ u, Machine.exec (.ticketDeadlineDrop t st q) s0 = .next u
        ∧ ticket st q u = some { k with phase := .ended, status := 3, cause := 0x12, lateFlag := true, endStamp := d }
        ∧ u.led.lastEnd = some s.time.now ∧ u.led.strm = s.led.strm)
      ∧ (k.dropLate = false ∨ now < d ∨ (d = now ∧ (nextToInject st s).map (·.seq) = some q ∧ mayInject k s = true) → Machine.exec (.ticketDeadlineDrop t st q) s0 = .next s))
    ∧ (∀ q k, ticket st q s = some k →
      (k.phase = .running → dieUp x.home s = true → (∀ n ∈ outSubs x, n ∈ k.outputs) → checkPending ⟨st, q⟩ s = false →
        ∃ u k', Machine.exec (.ticketEnded t st q) s0 = .next u ∧ ticket st q u = some k' ∧ k'.phase = .ended
          ∧ k'.endStamp = stamp (liveDie x.home s) s ∧ k'.outputs = k.outputs
          ∧ (k.failed = none → k.suspectBy = none → k'.status = 0)
          ∧ (k.failed = none → ∀ c, k.suspectBy = some c → k'.status = 1 ∧ k'.detail = c)
          ∧ (∀ c op, k.failed = some (c, op) → k'.status = 3 ∧ k'.cause = c ∧ k'.detail = op))
      ∧ (k.phase ≠ .running → Machine.exec (.ticketEnded t st q) s0 = .next s))
    ∧ (∀ k, nextToDeliver st s = some k →
      (k.phase = .ended → k.rcptPending = false → x.secure = false → carried x.port s = true → dieUp x.home s = true →
        ∃ u, Machine.exec (.outcomeDeliver t st) s0 = .next u ∧ (strm st u).prod = (x.prod + 1) % 65536 ∧ (strm st u).watermark = k.seq
          ∧ (strm st u).outstanding = x.outstanding ∧ (strm st u).voids = (if k.status = 2 then satAdd 16 x.voids 1 else x.voids)
          ∧ u.host.mem = wrBytes s.host.mem (x.outBase + x.prod % ringSize x * 64)
              (outcomeBytes k (if x.prod / ringSize x % 2 = 0 then 1 else 0) s.power.jepoch)
          ∧ (∀ y, ticket st k.seq s = some y → ticket st k.seq u = some { y with phase := .delivered }))
      ∧ (k.phase ≠ .ended → Machine.exec (.outcomeDeliver t st) s0 = .next s))
    ∧ (x.unsig ≠ 0 → x.coalUs ≠ 0 → x.unsigAt + x.coalUs * 1000 ≤ s.time.now → portUp (carrier x.port s) s = true →
        (tget ({} : MsixEntry) x.vector (hport (carrier x.port s) s).msix).masked = false →
      ∃ u, Machine.exec (.outcomeIrqTimer t st) s0 = .next u ∧ (strm st u).unsig = 0
        ∧ u.host.msgs = ⟨carrier x.port s, x.vector⟩ :: s.host.msgs
        ∧ u = { s with led := { s.led with strm := u.led.strm }, host := { s.host with msgs := u.host.msgs } })
    ∧ (x.unsig = 0 ∨ s.time.now < x.unsigAt + x.coalUs * 1000 → Machine.exec (.outcomeIrqTimer t st) s0 = .next s)
    ∧ (∀ v,
      let n := (v % 65536 + 65536 - x.cons) % 65536
      (n ≤ (x.prod + 65536 - x.cons) % 65536 → ∃ u, Machine.exec (.outcomeConsWrite t st v) s0 = .next u
        ∧ strm st u = { x with cons := v % 65536, outstanding := x.outstanding - n }
        ∧ u.led.tickets = freeDelivered st n s.led.tickets ∧ (∀ j, j ≠ st → strm j u = strm j s)
        ∧ u = { s with led := { s.led with strm := u.led.strm, tickets := u.led.tickets } })
      ∧ ((x.prod + 65536 - x.cons) % 65536 < n → ∃ u, Machine.exec (.outcomeConsWrite t st v) s0 = .next u
        ∧ strm st u = { x with consErr := true } ∧ u.led.tickets = s.led.tickets ∧ (fsrc 0x142 u).latched = true
        ∧ (fsrc 0x142 u).detail = 0x00031028 + st * 0x40
        ∧ u = { s with led := { s.led with strm := u.led.strm }, fault := { s.fault with src := u.fault.src } }))
    ∧ (∀ d, d < 2 → (dieUp d s = true → Machine.exec (.ledgerTakeover t d) s0 = .next s)
      ∧ (dieUp d s = false → ∃ u, Machine.exec (.ledgerTakeover t d) s0 = .next u ∧ u.led.mirrorOk = false
        ∧ u.led.tickets.length = (s.led.tickets.filter (fun k => !unmirrored d s k)).length
        ∧ (∀ k ∈ u.led.tickets, k.rcptPending = false) ∧ (if d = 0 then u.led.up0 = false else u.led.up1 = false) ∧ (∀ l ∈ u.led.intake, l.die ≠ d)
        ∧ (∀ n ∈ declaredStreams s, homeOf n s = d → homeOf n u = 1 - d
            ∧ ∀ k ∈ u.led.tickets, k.stream = n → ticketOpen k = false)
        ∧ (∀ n, homeOf n s ≠ d → homeOf n u = homeOf n s)))

/-- CSI_PACKET_RX, ETH_FRAME_RX, STREAM_STALL and the link events (R223 to R231, R309, R348). -/
def Obligations.SensorPacketsAndFramesBecomeSamples : Prop :=
  (∀ (t p : Nat) (c : Bool) (s0 : State), p < 8 →
    let s := advanceTo t s0
    let counted := if c then satAdd 16 (csi p s).eccCorr 1 else (csi p s).eccCorr
    (isIso (0x20 + p) s = true ∨ dieUp (p / 4) s = false → ∀ k, Machine.exec (.csiPacketRx t p c k) s0 = .next s)
    ∧ (isIso (0x20 + p) s = false → dieUp (p / 4) s = true →
      (∀ vc n, csiStreams p (fun x => x.vc == vc) s = [n] →
        let x := sens n s
        (x.inFrame = false → x.entries.length < x.ring → ∃ u, Machine.exec (.csiPacketRx t p c (.frameStart vc)) s0 = .next u
          ∧ sens n u = { x with
              last := x.last + 1, inFrame := true, noEntry := false, bad := false
              entries := x.entries ++ [{ seq := x.last + 1, arrival := stamp (sensDie x) s, meas := stamp (sensDie x) s - x.offsetNs }] }
          ∧ (csi p u).link = true ∧ (csi p u).eccCorr = counted ∧ (∀ j, j ≠ n → sens j u = sens j s)
          ∧ u = { s with sense := { s.sense with csi := u.sense.csi, streams := u.sense.streams } })
        ∧ (∀ q, x.inFrame = true → x.noEntry = false → current n s = some q →
          (x.bad = true ∨ q.count ≠ x.height → ∃ u, Machine.exec (.csiPacketRx t p c (.frameEnd vc)) s0 = .next u
            ∧ sens n u = { x with
                entries := x.entries.filter (fun y => y.seq != q.seq), inFrame := false, bad := false, err := satAdd 16 x.err 1 }
            ∧ u = { s with sense := { s.sense with csi := u.sense.csi, streams := u.sense.streams } })
          ∧ (x.bad = false → q.count = x.height → x.eth = false → ∃ u, Machine.exec (.csiPacketRx t p c (.frameEnd vc)) s0 = .next u
            ∧ (sens n u).count = wrapAdd 32 x.count 1 ∧ (sens n u).inFrame = false ∧ (sens n u).stall = false
            ∧ (sens n u).compAt = s.time.now ∧ (sens n u).err = x.err
            ∧ (sens n u).entries = x.entries.map (fun y =>
                if y.seq = q.seq then { q with complete := true, compStamp := shortStamp (sensDie x) s } else y))))
      ∧ (∀ vc dt px ok n, csiStreams p (fun x => x.vc == vc && x.dt == dt) s = [n] → (sens n s).inFrame = true →
          ∃ u, Machine.exec (.csiPacketRx t p c (.long vc dt px ok)) s0 = .next u
            ∧ (sens n u).bad = ((sens n s).bad || !ok || decide (px.length ≠ (sens n s).width * dtChannels dt))
            ∧ (∀ q r, (sens n s).entries = r ++ [q] → q.seq = (sens n s).last → q.complete = false → (∀ y ∈ r, y.seq ≠ q.seq) →
                (sens n u).entries = r ++ [{ q with
                  data := q.data ++ px.flatMap (pixelBytes (sens n s).pixFmt dt), count := q.count + 1 }]))
      ∧ (∀ vc dt px ok, csiStreams p (fun x => x.vc == vc && x.dt == dt) s = [] →
          ∃ u, Machine.exec (.csiPacketRx t p c (.long vc dt px ok)) s0 = .next u
            ∧ csi p u = { csi p s with
                link := true, seenAt := s.time.now, eccCorr := counted
                unmatched := if dt = 0x12 then (csi p s).unmatched else satAdd 16 (csi p s).unmatched 1 }
            ∧ u = { s with sense := { s.sense with csi := u.sense.csi } })
      ∧ (∃ u, Machine.exec (.csiPacketRx t p c .badHeader) s0 = .next u ∧ (fsrc (srcCsi p 1) u).latched = true
            ∧ (fsrc (srcCsi p 1) u).detail = p
            ∧ (∀ n, csiStreams p (fun x => x.inFrame) s = [n] → sens n u = { sens n s with bad := true }))))
  ∧ (∀ (t e : Nat) (f : EthFrame) (s0 : State),
    let s := advanceTo t s0
    let mine := (declaredSens s).filter (fun n => (sens n s).eth && (sens n s).port == e && (flowMatch (sens n s) f).isSome)
    (ethUp e s = false ∨ f.fcsOk = false → Machine.exec (.ethFrameRx t e f) s0 = .next s)
    ∧ (ethUp e s = true → f.fcsOk = true → (ethBytes f).length ≤ 9216 →
      (∀ n r pl, mine = n :: r → flowMatch (sens n s) f = some (pl, false) → (sens n s).entries.length < (sens n s).ring →
          (∀ y ∈ (sens n s).entries, y.seq ≤ (sens n s).last) →
        ∃ u, Machine.exec (.ethFrameRx t e f) s0 = .next u
          ∧ (sens n u).last = (sens n s).last + 1 ∧ (sens n u).count = wrapAdd 32 (sens n s).count 1
          ∧ (sens n u).err = (if (sens n s).width < pl.length then satAdd 16 (sens n s).err 1 else (sens n s).err)
          ∧ ∃ q, (sens n u).entries = (sens n s).entries ++ [q] ∧ q.complete = true ∧ q.seq = (sens n s).last + 1
              ∧ q.arrival = ingressStamp e s ∧ q.meas = ingressStamp e s - (sens n s).offsetNs
              ∧ q.data = pl.take (sens n s).width)
      ∧ (∀ n r pl, mine = n :: r → flowMatch (sens n s) f = some (pl, true) → ∃ u, Machine.exec (.ethFrameRx t e f) s0 = .next u
          ∧ sens n u = { sens n s with err := satAdd 16 (sens n s).err 1 }
          ∧ u = { s with sense := { s.sense with streams := u.sense.streams } })
      ∧ (mine = [] → ownFrame f = true → Machine.exec (.ethFrameRx t e f) s0 = .next s)
      ∧ (mine = [] → ownFrame f = false → (eport e s).rx.enable = false → ∃ u, Machine.exec (.ethFrameRx t e f) s0 = .next u
          ∧ eport e u = { eport e s with drop := satAdd 16 (eport e s).drop 1 }
          ∧ u = { s with host := { s.host with eth := u.host.eth } })))
  ∧ (∀ (t n e p : Nat) (fast : Bool) (s0 : State),
    let s := advanceTo t s0
    let x := sens n s
    let due := x.compAt + 3 * x.periodUs * 1000
    (x.declared = true → x.stall = false → due ≤ s.time.now → ∃ u, Machine.exec (.streamStall t n) s0 = .next u
      ∧ sens n u = { x with stall := true } ∧ (fsrc (sensDie x * 0x400 + 0x100 + n) u).latched = true
      ∧ (fsrc (sensDie x * 0x400 + 0x100 + n) u).detail = n ∧ (∀ j, j ≠ n → sens j u = sens j s)
      ∧ u = { s with sense := { s.sense with streams := u.sense.streams }, fault := { s.fault with src := u.fault.src } })
    ∧ (s.time.now < due ∨ x.stall = true → Machine.exec (.streamStall t n) s0 = .next s)
    ∧ (∃ u, Machine.exec (.csiLinkLost t p) s0 = .next u
      ∧ (csi p u).link = ((csi p s).link && decide (s.time.now < (csi p s).seenAt + 1000000))
      ∧ u = { s with sense := { s.sense with csi := u.sense.csi } })
    ∧ ((eport e s).link = true → ∃ u, Machine.exec (.ethLinkDown t e) s0 = .next u ∧ eport e u = { eport e s with link := false }
      ∧ (fsrc (srcEth e 0) u).latched = true ∧ (∀ j, j ≠ e → eport j u = eport j s)
      ∧ u = { s with host := { s.host with eth := u.host.eth }, fault := { s.fault with src := u.fault.src } })
    ∧ ((eport e s).link = false → Machine.exec (.ethLinkDown t e) s0 = .next s)
    ∧ (isIso (0x28 + e) s = false → dieUp (e / 2) s = true → ∃ u, Machine.exec (.ethLinkUp t e fast) s0 = .next u
      ∧ eport e u = { eport e s with link := true, fast := fast } ∧ (∀ j, j ≠ e → eport j u = eport j s)
      ∧ u = { s with host := { s.host with eth := u.host.eth } })
    ∧ (isIso (0x28 + e) s = true ∨ dieUp (e / 2) s = false → Machine.exec (.ethLinkUp t e fast) s0 = .next s))

/-- SLOT_OPEN, MEMBER_DECIDE, SLOT_WAIT_LIMIT, PROJECTION_DONE, PROJECTION_RECOMPUTE and SLOT_EMIT (R234 to R245, R367). -/
def Obligations.FusionSlotsOpenAreDecidedAndEmitted : Prop :=
  ∀ (t g k i : Nat) (s0 : State),
    let s := advanceTo t s0
    let x := group g s
    let others := fun (u : State) => ∀ j, j ≠ g → group j u = group j s
    let fixedAs := fun (u : State) (forced : Bool) => ∀ y ∈ (group g u).open_, y.fseq = k →
      y.emitting = true ∧ y.forced = forced ∧ y.decided = shortStamp x.home s ∧ y.frame ≠ []
    let waits := fun (f : FuseSlot) => x.open_.find? (fun y => y.fseq == k && !y.emitting) = some f
    (∀ tau, x.declared = true → dieUp x.home s = true → gridNow x.home (x.periodUs * 1000) x.phaseNs s = some tau →
      (x.lastT = some tau → Machine.exec (.slotOpen t g) s0 = .next s)
      ∧ (x.lastT ≠ some tau → fseqUsed x (tau / (x.periodUs * 1000)) = true → ∃ u, Machine.exec (.slotOpen t g) s0 = .next u
          ∧ group g u = { x with lastT := some tau }
          ∧ others u ∧ u = { s with sense := { s.sense with groups := u.sense.groups } })
      ∧ (x.lastT ≠ some tau → fseqUsed x (tau / (x.periodUs * 1000)) = false →
        (x.open_.length < x.slots → ∃ u, Machine.exec (.slotOpen t g) s0 = .next u
          ∧ group g u = { x with
              lastT := some tau
              open_ := x.open_ ++ [{ fseq := tau / (x.periodUs * 1000), tov := tau, waitUs := x.waitUs,
                                     penMiss := x.penMiss, recover := x.recover, members := x.members.map (bindMember s) }] }
          ∧ others u ∧ u = { s with sense := { s.sense with groups := u.sense.groups } })
        ∧ (∀ f, x.slots ≤ x.open_.length → x.open_.find? (fun y => !y.emitting) = some f → f.fseq = k →
          ∃ u, Machine.exec (.slotOpen t g) s0 = .next u ∧ fixedAs u true ∧ others u
            ∧ (group g u).opening = x.opening ++ [(tau / (x.periodUs * 1000), tau)]
            ∧ (group g u).forced = satAdd 10 x.forced 1 ∧ (group g u).degraded = satAdd 16 x.degraded 1
            ∧ (group g u).skipped = x.skipped)
        ∧ (x.slots ≤ x.open_.length → (∀ y ∈ x.open_, y.emitting = true) → ∃ u, Machine.exec (.slotOpen t g) s0 = .next u
          ∧ group g u = { x with lastT := some tau, skipped := satAdd 10 x.skipped 1 }
          ∧ others u ∧ u = { s with sense := { s.sense with groups := u.sense.groups } })))
    ∧ (∀ f, waits f →
      (stamp x.home s < f.tov + f.waitUs * 1000 → Machine.exec (.slotWaitLimit t g k) s0 = .next s)
      ∧ (f.tov + f.waitUs * 1000 ≤ stamp x.home s → ∃ u, Machine.exec (.slotWaitLimit t g k) s0 = .next u
        ∧ fixedAs u false ∧ others u ∧ (group g u).forced = x.forced
        ∧ (∀ y ∈ (group g u).open_, y.fseq = k → y.members = f.members.map (decideMember g f.tov true s)
            ∧ ∀ m ∈ y.members, m.st ≠ .undecided))
      ∧ (∀ m, f.members.find? (fun y => y.index == i) = some m →
        (stamp x.home s < f.tov + m.after * 1000 + m.offsetNs ∨ windowInFlight m f.tov s = true →
          Machine.exec (.memberDecide t g k i) s0 = .next s)
        ∧ (f.tov + m.after * 1000 + m.offsetNs ≤ stamp x.home s → windowInFlight m f.tov s = false →
          ((∃ y ∈ f.members, y.index ≠ i ∧ y.st = .undecided) → ∃ u, Machine.exec (.memberDecide t g k i) s0 = .next u
            ∧ group g u = { x with open_ := x.open_.map (fun y => if y.fseq = k then { y with
                members := f.members.map (fun z => if z.index = i then decideMember g f.tov false s z else z) } else y) }
            ∧ others u ∧ u = { s with sense := { s.sense with groups := u.sense.groups } })
          ∧ ((∀ y ∈ f.members, y.index ≠ i → y.st ≠ .undecided) → ∃ u, Machine.exec (.memberDecide t g k i) s0 = .next u
            ∧ fixedAs u false ∧ others u))))
    ∧ (x.raw = true → 0 < unitsUp x.home s → ∃ u, Machine.exec (.projectionDone t g k) s0 = .next u
      ∧ group g u = { x with open_ := x.open_.map (fun f => if f.fseq = k ∧ f.emitting = true then { f with projDone := true } else f) }
      ∧ others u ∧ u = { s with sense := { s.sense with groups := u.sense.groups } })
    ∧ (x.raw = false ∨ unitsUp x.home s = 0 → Machine.exec (.projectionDone t g k) s0 = .next s)
    ∧ (i ∉ s.sense.unitsOut → ∃ u, Machine.exec (.projectionRecompute t i false) s0 = .next u
      ∧ u.sense.unitsOut = s.sense.unitsOut ++ [i] ∧ (fsrc (i / 4 * 0x400 + 0x149 + i % 4) u).latched = true
      ∧ u = { s with sense := { s.sense with unitsOut := u.sense.unitsOut }, fault := { s.fault with src := u.fault.src } })
    ∧ Machine.exec (.projectionRecompute t i true) s0 = .next s
    ∧ (∀ f, x.open_.find? (fun y => y.fseq == k && y.emitting) = some f →
      let es := (edgesFrom 3 x.id s).filter (fun e => e.srcPort != 1)
      (x.raw = true ∧ f.projDone = false ∨ (∃ e ∈ es, (edge e.id s).credits = 0) ∨ dieUp x.home s = false →
        Machine.exec (.slotEmit t g k) s0 = .next s)
      ∧ (x.raw = false ∨ f.projDone = true → (∀ e ∈ es, (edge e.id s).credits ≠ 0) → dieUp x.home s = true → x.opening = [] →
        ∃ u, Machine.exec (.slotEmit t g k) s0 = .next u
          ∧ (group g u).open_ = x.open_.filter (fun z => z.fseq != k) ∧ (group g u).lastFseq = k
          ∧ (group g u).past = f :: x.past.take 2047 ∧ others u ∧ u.sense.streams = s.sense.streams
          ∧ (∀ e tk, es = [e] → slotToken f e s = some tk → (edge e.id u).flight = (edge e.id s).flight ++ [tk]
              ∧ (edge e.id u).credits + 1 = (edge e.id s).credits ∧ ∀ j, j ≠ e.id → edge j u = edge j s)))

/-- CONFLICT_SUMMARY_RX, DETECTION_LIST_RX and FUSION_GROUP_MOVE (R247, R250 to R252, R256). -/
def Obligations.ReportsToTheFusionEngineAndTheMoveOfAGroup : Prop :=
  (∀ (t e : Nat) (s0 : State),
    let s := advanceTo t s0
    (arriving e s = none → Machine.exec (.conflictSummaryRx t e) s0 = .next s ∧ Machine.exec (.detectionListRx t e) s0 = .next s)
    ∧ (∀ tk g a b, arriving e s = some tk → groupOfEdge e s = some (g, 5) → gridMembers e s = [a, b] →
      ∃ u, Machine.exec (.conflictSummaryRx t e) s0 = .next u
        ∧ edge e u = { edge e s with flight := (edge e s).flight.drop 1, creditFlight := (edge e s).creditFlight + 1 }
        ∧ (Balanced (edge e s) → Balanced (edge e u))
        ∧ (fieldLe tk.data 4 4 = 0 → u = { s with fab := { s.fab with edges := u.fab.edges } })
        ∧ (fieldLe tk.data 4 4 ≠ 0 → (group g u).conflicts = satAdd 16 (group g s).conflicts 1
            ∧ (group g u).open_ = (group g s).open_ ∧ (group g u).tracks = (group g s).tracks
            ∧ ∀ j, j ≠ g → group j u = group j s))
    ∧ (∀ tk g, arriving e s = some tk → groupOfEdge e s = some (g, 4) →
      let x := group g s
      let q := fieldLe tk.data 0 8
      (x.object = false → ∃ u, Machine.exec (.detectionListRx t e) s0 = .next u
        ∧ edge e u = { edge e s with flight := (edge e s).flight.drop 1, creditFlight := (edge e s).creditFlight + 1 }
        ∧ u = { s with fab := { s.fab with edges := u.fab.edges } })
      ∧ (x.object = true → q ≤ x.tableFseq → ∃ u, Machine.exec (.detectionListRx t e) s0 = .next u
        ∧ u = { s with fab := { s.fab with edges := u.fab.edges } })
      ∧ (x.object = true → x.tableFseq < q → ∃ u, Machine.exec (.detectionListRx t e) s0 = .next u
        ∧ (group g u).tableFseq = q ∧ (group g u).tracks.length = x.maxTracks ∧ (∀ j, j ≠ g → group j u = group j s)
        ∧ (fieldLe tk.data 8 4 = 0 → ∀ (n : Nat) r, (tableOf x)[n]? = some r →
            ∃ r', (group g u).tracks[n]? = some r'
              ∧ (r.st = 0 → r' = r)
              ∧ (r.st ≠ 0 → x.missMax ≤ satAdd 8 r.misses 1 → r' = {})
              ∧ (r.st ≠ 0 → satAdd 8 r.misses 1 < x.missMax → r'.id = r.id ∧ r'.misses = satAdd 8 r.misses 1
                  ∧ r'.hits = r.hits * 2 % 256 ∧ r'.fseq = q)))))
  ∧ (∀ (t g : Nat) (s0 : State),
    let s := advanceTo t s0
    let x := group g s
    (x.declared = true → dieUp x.home s = false → dieUp (1 - x.home) s = true → ∃ u, Machine.exec (.fusionGroupMove t g) s0 = .next u
      ∧ group g u = { x with
          home := 1 - x.home, open_ := [], opening := [], past := [], tracks := [], tableLost := x.tableLost || x.object
          members := x.members.map (fun m => { m with portLost := m.portLost || !sensUp (sens m.stream s) s }) }
      ∧ (∀ j, j ≠ g → group j u = group j s) ∧ u = { s with sense := { s.sense with groups := u.sense.groups } })
    ∧ (x.declared = false ∨ dieUp x.home s = true ∨ dieUp (1 - x.home) s = false →
      Machine.exec (.fusionGroupMove t g) s0 = .next s))

/-- MAP_UPDATE_BUILT and MAP_COMMIT (R262 to R264). -/
def Obligations.MapUpdatesAreBuiltAndCommittedAsEpochs : Prop :=
  ∀ (t d : Nat) (s0 : State), d < 2 →
    let s := advanceTo t s0
    let p := pdie d s
    let other := fun (u : State) => pdie (1 - d) u = pdie (1 - d) s
    (∀ e bs tags r used, p.updates = (e, bs, tags) :: r → p.built = none →
      (s.plan.enabled = false ∨ dieUp d s = false → Machine.exec (.mapUpdateBuilt t d used) s0 = .next s)
      ∧ (s.plan.enabled = true → dieUp d s = true →
        (∀ v n, buildMap p.cur bs = some v → ∃ u, Machine.exec (.mapUpdateBuilt t d (some n)) s0 = .next u
          ∧ pdie d u = { p with updates := r, built := some v, used := n } ∧ other u ∧ u.led = s.led ∧ u.fault = s.fault)
        ∧ (buildMap p.cur bs = none ∨ used = none → ∃ u, Machine.exec (.mapUpdateBuilt t d used) s0 = .next u
          ∧ (fsrc (d * 0x400 + 0x140) u).latched = true ∧ other u
          ∧ (buildMap p.cur bs = none → pdie d u = { p with updates := r, refused := satAdd 8 p.refused 1 })
          ∧ (buildMap p.cur bs ≠ none → pdie d u = { p with updates := r, overflow := satAdd 8 p.overflow 1 })
          ∧ (∀ k ∈ u.led.tickets, ticketOpen k = true → (∃ g ∈ tags, g.stream = k.stream ∧ g.seq = k.seq) → k.degraded = true)
          ∧ u.led.tickets.length = s.led.tickets.length)))
    ∧ (∀ v, p.built = some v →
      (dieUp d s = false → Machine.exec (.mapCommit t d) s0 = .next s)
      ∧ (dieUp d s = true → p.old.isSome = true → p.held = true → Machine.exec (.mapCommit t d) s0 = .next s)
      ∧ (dieUp d s = true → p.old.isSome = true → p.held = false → ∃ u, Machine.exec (.mapCommit t d) s0 = .next u
          ∧ pdie d u = { p with held := true, deferred := satAdd 16 p.deferred 1 } ∧ other u ∧ u = { s with plan := u.plan })
      ∧ (dieUp d s = true → p.old = none → ∃ u, Machine.exec (.mapCommit t d) s0 = .next u
          ∧ pdie d u = { p with
              cur := { v with epoch := (p.cur.epoch + 1) % 65536 }, old := if pinned p.cur.epoch s then some p.cur else none
              built := none, held := false, commits := satAdd 16 p.commits 1 }
          ∧ other u ∧ u.plan.reqs = s.plan.reqs ∧ u = { s with plan := u.plan, time := u.time, ddr := u.ddr }))
    ∧ (p.built = none → Machine.exec (.mapCommit t d) s0 = .next s)

/-- PLAN_REQUEST_START, PLAN_SEARCH_END, PLAN_DEADLINE, PLAN_RESULT_SEND and PLANNER_TEST_INJECTION (R266 to R276, R367). -/
def Obligations.PlanRequestsStartAreSearchedAndAnswered : Prop :=
  ∀ (t i : Nat) (s0 : State),
    let s := advanceTo t s0
    (nextReq s = none → Machine.exec (.planRequestStart t) s0 = .next s)
    ∧ (∀ r, nextReq s = some (i, r) →
      let b := r.bytes
      let v := newestCommon s
      let r1 := { r with
        cfg := some s.plan.cfg, pin := v
        deadline := if fieldLe b 16 8 = 0 then r.arrival + s.plan.budgetUs * 1000 else fieldLe b 16 8 }
      (s.plan.enabled = false ∨ heldGroup 0x050 s = true → Machine.exec (.planRequestStart t) s0 = .next s)
      ∧ (s.plan.enabled = true → heldGroup 0x050 s = false →
        (rqReason b s.plan.cfg s ≠ 0 → ∃ u x, Machine.exec (.planRequestStart t) s0 = .next u
          ∧ u.plan.reqs = s.plan.reqs.set i { r1 with result := some x } ∧ x.status = 3 ∧ x.reason = rqReason b s.plan.cfg s
          ∧ x.list = [] ∧ x.checked = 0 ∧ u = { s with plan := u.plan })
        ∧ (rqReason b s.plan.cfg s = 0 → rqSearch b s.plan.cfg ≠ 2 → (∀ q ∈ s.plan.reqs, q.slices = []) → slicesUp s ≠ [] →
          ∃ u, Machine.exec (.planRequestStart t) s0 = .next u
            ∧ u.plan.reqs = s.plan.reqs.set i { r1 with slices := slicesUp s } ∧ u = { s with plan := u.plan })))
    ∧ (∀ r c, running i s = some (r, c) →
      (pastDeadline r s = true → Machine.exec (.planSearchEnd t i) s0 = .next s)
      ∧ (pastDeadline r s = false → rqSearch r.bytes c ≠ 2 → (epochNow s).epoch = r.pin.epoch ∨ c.recheck = false →
        ∃ u x, Machine.exec (.planSearchEnd t i) s0 = .next u ∧ u.plan.reqs = s.plan.reqs.set i { r with result := some x }
          ∧ x.checked = candCount r.bytes ∧ x.list.length ≤ rq8 r.bytes 26 ∧ x.epoch = r.pin.epoch
          ∧ (x.status = 0 ∨ x.status = 1) ∧ (x.status = 0 ↔ x.found ≠ 0)
          ∧ (x.status = 0 → x.found = x.list.length ∧ ∀ k ∈ x.list, k.firstHit = 0xFF)
          ∧ u = { s with plan := u.plan })
      ∧ (pastDeadline r s = false → rqSearch r.bytes c = 2 → ∃ u x, Machine.exec (.planSearchEnd t i) s0 = .next u
          ∧ u.plan.reqs = s.plan.reqs.set i { r with result := some x } ∧ u = { s with plan := u.plan })
      ∧ (∀ done n, pastDeadline r s = false → Machine.exec (.planDeadline t i done n) s0 = .next s)
      ∧ (∀ done n, pastDeadline r s = true → rqSearch r.bytes c ≠ 2 → ∃ u x, Machine.exec (.planDeadline t i done n) s0 = .next u
          ∧ u.plan.reqs = s.plan.reqs.set i { r with result := some x } ∧ x.status = 2 ∧ x.checked ≤ candCount r.bytes
          ∧ u = { s with plan := u.plan }))
    ∧ (∀ r, s.plan.reqs[i]? = some r → r.cfg.isSome = true → r.result.isSome = true → ∀ done n,
        Machine.exec (.planSearchEnd t i) s0 = .next s ∧ Machine.exec (.planDeadline t i done n) s0 = .next s)
    ∧ (∀ ch r, chanHead ch s = some (i, r) →
      let es := resultEdges ch s
      (r.result = none ∨ (∃ e ∈ es, (edge e.id s).credits = 0) → Machine.exec (.planResultSend t ch) s0 = .next s)
      ∧ (∀ x, r.result = some x → (∀ e ∈ es, (edge e.id s).credits ≠ 0) → ∃ u, Machine.exec (.planResultSend t ch) s0 = .next u
        ∧ u.plan.reqs = s.plan.reqs.eraseIdx i
        ∧ (pdie (liveDie 0 s) u).done = satAdd 16 (pdie (liveDie 0 s) s).done 1
        ∧ (pdie (liveDie 0 s) u).noPath = (if x.status = 1 then satAdd 16 (pdie (liveDie 0 s) s).noPath 1 else (pdie (liveDie 0 s) s).noPath)
        ∧ (pdie (liveDie 0 s) u).timeout = (if x.status = 2 then satAdd 16 (pdie (liveDie 0 s) s).timeout 1 else (pdie (liveDie 0 s) s).timeout)
        ∧ (∀ e, es = [e] → e.id ≠ r.edge → ∃ tk, (edge e.id u).flight = (edge e.id s).flight ++ [tk] ∧ tk.tags = r.tags
            ∧ (edge e.id u).credits + 1 = (edge e.id s).credits)))
    ∧ (∀ n, n < 16 →
      (sliceUp n s = true → ∃ u, Machine.exec (.plannerTestInjection t n false) s0 = .next u
        ∧ (fsrc (srcSlice (n / 8) (n % 8) 0) u).latched = true ∧ u = { s with fault := { s.fault with src := u.fault.src } })
      ∧ (sliceUp n s = false → Machine.exec (.plannerTestInjection t n false) s0 = .next s)
      ∧ Machine.exec (.plannerTestInjection t n true) s0 = .next s)

/-- LOOP_TIMER_TRIGGER to ISLAND_LOOP_RECOMPUTE (R282, R283, R286, R294, R297). -/
def Obligations.LoopSlotsAreTriggeredFedAndWatched : Prop :=
  (∀ (t n : Nat) (s0 : State),
    let s := advanceTo t s0
    let x := lslot n s
    let others := fun (u : State) => ∀ j, j ≠ n → lslot j u = lslot j s
    let only := fun (u : State) => u = { s with loop := { s.loop with slots := u.loop.slots } }
    (x.declared = false ∨ engineUp n s = false ∨ loopsRun s = false → Machine.exec (.loopTimerTrigger t n) s0 = .next s)
    ∧ (x.declared = true → engineUp n s = true → loopsRun s = true → x.sample = false →
      (gridNow (n / 8) (x.periodUs * 1000) x.phaseNs s = none → Machine.exec (.loopTimerTrigger t n) s0 = .next s)
      ∧ (∀ g, gridNow (n / 8) (x.periodUs * 1000) x.phaseNs s = some g →
        (x.lastTrig = some g → Machine.exec (.loopTimerTrigger t n) s0 = .next s)
        ∧ (x.lastTrig ≠ some g → x.st ≠ .safeOut ∨ (x.req = 1 ∧ notSafe s = true) →
          ∃ u, Machine.exec (.loopTimerTrigger t n) s0 = .next u
            ∧ lslot n u = { x with lastTrig := some g, trigAt := s.time.now, stepSum := 0, waiting := some g } ∧ others u ∧ only u)
        ∧ (x.lastTrig ≠ some g → x.st = .safeOut → x.req ≠ 1 ∨ notSafe s = false →
          ∃ u, Machine.exec (.loopTimerTrigger t n) s0 = .next u
            ∧ (lslot n u).outs = x.outs.map (safeStep (fsec x.periodUs)) ∧ (lslot n u).lastTrig = some g
            ∧ (lslot n u).waiting = none ∧ (lslot n u).st = .safeOut ∧ others u
            ∧ (x.frame.isSome = true → (lslot n u).ctr = (x.ctr + 1) % 65536))))
    ∧ (x.st = .manual ∨ x.st = .auto → x.trigAt + 2 * x.periodUs * 1000 ≤ s.time.now → engineUp n s = true →
      ∃ u, Machine.exec (.loopTriggerWatchdog t n) s0 = .next u ∧ (lslot n u).st = .safeOut ∧ (lslot n u).req = 0
        ∧ (fsrc (srcLoop n 3) u).latched = true
        ∧ (∀ k, k ≠ n → k ∉ innersOf n s → lslot k u = lslot k s)
        ∧ (∀ k ∈ innersOf n s, (lslot k u).st ≠ .manual ∧ (lslot k u).st ≠ .auto))
    ∧ ((x.st = .stopped ∨ x.st = .safeOut) ∨ s.time.now < x.trigAt + 2 * x.periodUs * 1000 ∨ engineUp n s = false →
      Machine.exec (.loopTriggerWatchdog t n) s0 = .next s)
    ∧ (x.declared = true → x.spStaleUs ≠ 0 → x.spStale = false → x.spAt + x.spStaleUs * 1000 ≤ s.time.now →
      ∃ u, Machine.exec (.setpointStale t n) s0 = .next u ∧ lslot n u = { x with spStale := true } ∧ others u
        ∧ (fsrc (srcLoop n 2) u).latched = true
        ∧ u = { s with loop := { s.loop with slots := u.loop.slots }, fault := { s.fault with src := u.fault.src } })
    ∧ (x.spStaleUs = 0 ∨ x.spStale = true ∨ s.time.now < x.spAt + x.spStaleUs * 1000 →
      Machine.exec (.setpointStale t n) s0 = .next s)
    ∧ (x.declared = true → ∃ u, Machine.exec (.islandLoopRecompute t n false) s0 = .next u
      ∧ (fsrc (srcLoop n 0) u).latched = true ∧ u = { s with fault := { s.fault with src := u.fault.src } })
    ∧ Machine.exec (.islandLoopRecompute t n true) s0 = .next s)
  ∧ (∀ (t e n p : Nat) (tk : Token) (s0 : State),
    let s := advanceTo t s0
    let x := lslot n s
    arriving e s = some tk → loopOfEdge e s = some (n, p) →
    (p = 0 → ∃ u, Machine.exec (.setpointToken t e) s0 = .next u
      ∧ lslot n u = { x with
          seq := some (stamp (n / 8) s, rowsOf x.m 64 (f32List tk.data (tk.data.length / 4))), spAt := s.time.now, spStale := false }
      ∧ edge e u = { edge e s with flight := (edge e s).flight.drop 1, creditFlight := (edge e s).creditFlight + 1 }
      ∧ (Balanced (edge e s) → Balanced (edge e u))
      ∧ u = { s with loop := { s.loop with slots := u.loop.slots }, fab := { s.fab with edges := u.fab.edges } })
    ∧ (p ≠ 0 → Machine.exec (.setpointToken t e) s0 = .next s)
    ∧ (8 ≤ p → ∃ u, Machine.exec (.feedbackToken t e) s0 = .next u
      ∧ (∀ i, i ≠ p - 8 → (lslot n u).chans[i]? = x.chans[i]?)
      ∧ (∀ c, x.chans[p - 8]? = some c → c.edgeSrc = true → (lslot n u).chans[p - 8]? = some { c with
          value := chanY c (fieldLe tk.data (4 * c.offset) 4), at_ := some (stamp (n / 8) s) })
      ∧ edge e u = { edge e s with flight := (edge e s).flight.drop 1, creditFlight := (edge e s).creditFlight + 1 }
      ∧ u = { s with loop := { s.loop with slots := u.loop.slots }, fab := { s.fab with edges := u.fab.edges } })
    ∧ (p < 8 → Machine.exec (.feedbackToken t e) s0 = .next s))

/-- The requests, LOOP_MAN_WRITE, LOOP_EVAL, QBV_GATE_EVENT and ADMIN_BASE_TIME (R284 to R295). -/
def Obligations.LoopRequestsWaitAndEvaluationsApplyThem : Prop :=
  (∀ (t n j v : Nat) (s0 : State),
    let s := advanceTo t s0
    let x := lslot n s
    let others := fun (u : State) => ∀ k, k ≠ n → lslot k u = lslot k s
    let only := fun (u : State) => u = { s with loop := { s.loop with slots := u.loop.slots } }
    let judged := fun (c : Instr) (r : Nat) (ok : Prop) =>
      (x.secure = true → Machine.exec c s0 = .next s)
      ∧ (x.secure = false → x.declared = true → engineUp n s = true → offBlocked (0x001C1004 + n * 0x200) s = false →
        ∃ u, Machine.exec c s0 = .next u ∧ others u ∧ only u
          ∧ (ok → lslot n u = { x with req := r }) ∧ (¬ok → lslot n u = { x with refused := true }))
    judged (.loopReqManual t n) 1 (x.st = .stopped ∨ x.st = .auto ∨ (x.st = .safeOut ∧ notSafe s = true))
    ∧ judged (.loopReqAuto t n) 2 (x.st = .manual ∧ (x.outer = 0xFF ∨ (lslot x.outer s).st ≠ .stopped))
    ∧ judged (.loopReqStop t n) 3
        ((x.st = .manual ∨ x.st = .auto) ∧ notSafe s = true ∧ ∀ k ∈ innersOf n s, (lslot k s).st ≠ .auto)
    ∧ (x.secure = true → Machine.exec (.loopManWrite t n j v) s0 = .next s)
    ∧ (x.secure = false → x.declared = true → offBlocked (0x001C1040 + n * 0x200) s = false →
      ∃ u, Machine.exec (.loopManWrite t n j v) s0 = .next u ∧ others u ∧ only u
        ∧ lslot n u = { x with outs := x.outs.modify j (fun o => { o with man := v % 2 ^ 32 }) }))
  ∧ (∀ (t n : Nat) (s0 : State),
    let s := advanceTo t s0
    let x := lslot n s
    (x.waiting = none → Machine.exec (.loopEval t n) s0 = .next s)
    ∧ (∀ w, x.waiting = some w →
      (engineUp n s = false ∨ 4 ≤ aheadOf n w s ∨ outerDone n w s = false ∨ heldGroup (0x020 + n) s = true →
        Machine.exec (.loopEval t n) s0 = .next s)
      ∧ (engineUp n s = true → aheadOf n w s < 4 → outerDone n w s = true → heldGroup (0x020 + n) s = false →
        (x.st = .stopped → x.req = 0 → ∃ u, Machine.exec (.loopEval t n) s0 = .next u ∧ lslot n u = { x with waiting := none }
          ∧ (∀ k, k ≠ n → lslot k u = lslot k s) ∧ u = { s with loop := { s.loop with slots := u.loop.slots } })
        ∧ (x.st = .stopped → x.req = 1 → (∀ c ∈ x.chans, chanStale w x.stepSum c = false) →
          ∃ u, Machine.exec (.loopEval t n) s0 = .next u ∧ (lslot n u).st = .manual ∧ (lslot n u).req = 0
            ∧ (lslot n u).waiting = none ∧ ∀ k, k ≠ n → lslot k u = lslot k s)
        ∧ (x.st = .auto → x.req = 3 → notSafe s = true → innersOf n s = [] →
          ∃ u, Machine.exec (.loopEval t n) s0 = .next u ∧ (lslot n u).st = .stopped ∧ (lslot n u).req = 0
            ∧ (lslot n u).waiting = none ∧ (lslot n u).outs = x.outs ∧ ∀ k, k ≠ n → lslot k u = lslot k s)
        ∧ (x.st = .manual → x.req = 0 → (∀ c ∈ x.chans, chanStale w x.stepSum c = false) → x.law ≠ 0 ∨ x.outs.length = 1 →
          ∃ u, Machine.exec (.loopEval t n) s0 = .next u
            ∧ (lslot n u).outs = x.outs.map (fun o => { o with u := limitOut (fsec x.periodUs) o o.man })
            ∧ (lslot n u).st = .manual ∧ (lslot n u).waiting = none ∧ (lslot n u).trigStamp = w ∧ (lslot n u).fbStale = false
            ∧ (lslot n u).fbRun = 0 ∧ ∀ k, k ≠ n → lslot k u = lslot k s)
        ∧ (x.st = .manual ∨ x.st = .auto → x.req = 0 → (∃ c ∈ x.chans, chanStale w x.stepSum c = true) → x.fbLossN ≤ x.fbRun + 1 →
          ∃ u, Machine.exec (.loopEval t n) s0 = .next u ∧ (lslot n u).st = .safeOut ∧ (fsrc (srcLoop n 1) u).latched = true
            ∧ (lslot n u).cFb = satAdd 16 x.cFb 1 ∧ (lslot n u).waiting = none)
        ∧ (x.st = .safeOut → x.req = 0 → ∃ u, Machine.exec (.loopEval t n) s0 = .next u
          ∧ (lslot n u).outs = x.outs.map (safeStep (fsec x.periodUs)) ∧ (lslot n u).st = .safeOut ∧ (lslot n u).waiting = none
          ∧ ∀ k, k ≠ n → lslot k u = lslot k s))))
  ∧ (∀ (t e i base cycle : Nat) (l : List (Nat × Nat)) (s0 : State),
    let s := advanceTo t s0
    ((gateCtl e s).oper[i]? = none → Machine.exec (.qbvGateEvent t e i) s0 = .next s)
    ∧ (∀ g, (gateCtl e s).oper[i]? = some g → ∃ u, Machine.exec (.qbvGateEvent t e i) s0 = .next u
      ∧ (eport e u).gates = g.gates % 256 ∧ gateCtl e u = { gateCtl e s with idx := i, at_ := s.time.now }
      ∧ (∀ j, j ≠ e → eport j u = eport j s ∧ gateCtl j u = gateCtl j s)
      ∧ ((eport e s).queued = [] → eport e u = { eport e s with gates := g.gates % 256 }))
    ∧ (gateListOk cycle l = false → Machine.exec (.adminBaseTime t e base cycle l) s0 = .next s)
    ∧ (∀ g r, l = g :: r → gateListOk cycle l = true → ∃ u, Machine.exec (.adminBaseTime t e base cycle l) s0 = .next u
      ∧ (gateCtl e u).oper = l.map (fun y => { gates := y.1 % 256, ns := y.2 }) ∧ (gateCtl e u).admin = (gateCtl e u).oper
      ∧ (gateCtl e u).operBase = base ∧ (gateCtl e u).operCycle = cycle ∧ (gateCtl e u).idx = 0
      ∧ (gateCtl e u).at_ = s.time.now ∧ (eport e u).gates = g.1 % 256
      ∧ ∀ j, j ≠ e → eport j u = eport j s ∧ gateCtl j u = gateCtl j s))

/-- The commands of the voted core (R320 to R325, R345). -/
def Obligations.IslandCoresAreVotedTestedAndSilenced : Prop :=
  ∀ (t i : Nat) (s0 : State), i < 2 →
    let s := advanceTo t s0
    let x := island i s
    let peer := fun (u : State) => island (1 - i) u = island (1 - i) s
    let only := fun (u : State) => u = { s with isl := u.isl }
    let silenced := fun (u : State) (y : Island) =>
      island i u = { y with vote := .silent, testing := false, due := none, asm := none, msg := none } ∧ peer u
        ∧ (coll i u).pinLow = true ∧ (fsrc (isrc i 0x1AB) u).latched = true
        ∧ u = { s with isl := u.isl, fault := u.fault, power := u.power }
    (x.vote = .silent ∨ s.power.on = false → Machine.exec (.islandHeartbeatCheck t i) s0 = .next s)
    ∧ (x.vote ≠ .silent → s.power.on = true →
      ((island (1 - i) s).vote ≠ .silent → ∃ u, Machine.exec (.islandHeartbeatCheck t i) s0 = .next u
        ∧ island i u = { x with peerLost := false, peerBeat := s.time.now } ∧ peer u ∧ only u)
      ∧ ((island (1 - i) s).vote = .silent → x.peerLost = false → max x.peerBeat s.sec.pgoodAt + 300000 ≤ s.time.now →
        ∃ u, Machine.exec (.islandHeartbeatCheck t i) s0 = .next u ∧ island i u = { x with peerLost := true } ∧ peer u
          ∧ (fsrc (isrc i 0x1A8) u).latched = true)
      ∧ ((island (1 - i) s).vote = .silent → x.peerLost = true ∨ s.time.now < max x.peerBeat s.sec.pgoodAt + 300000 →
        Machine.exec (.islandHeartbeatCheck t i) s0 = .next s))
    ∧ (∀ m, x.vote = .triple → x.testing = false → ∃ u, Machine.exec (.voterMismatch t i (some m)) s0 = .next u
        ∧ island i u = { x with due := some (x.due.getD (m, s.time.now)) } ∧ peer u ∧ (fsrc (isrc i 0x1A9) u).latched = true)
    ∧ (∀ o, (x.vote = .triple ∧ (o = none ∨ x.testing = true)) ∨ x.vote = .pair →
        ∃ u, Machine.exec (.voterMismatch t i o) s0 = .next u ∧ silenced u x ∧ (fsrc (isrc i 0x1A9) u).latched = true)
    ∧ (∀ o, x.vote = .silent ∨ x.vote = .split → Machine.exec (.voterMismatch t i o) s0 = .next s)
    ∧ (islandVoted i s = true → ∃ u, Machine.exec (.coreTestStart t i) s0 = .next u
        ∧ island i u = { x with testing := true } ∧ peer u ∧ only u)
    ∧ (islandVoted i s = false → Machine.exec (.coreTestStart t i) s0 = .next s)
    ∧ (∀ o, x.testing = false → Machine.exec (.coreTestDone t i o) s0 = .next s)
    ∧ (x.testing = true →
      (x.vote = .triple → ∃ u, Machine.exec (.coreTestDone t i none) s0 = .next u ∧ peer u ∧ only u
        ∧ island i u = { x with
            testing := false, due := none, tests := satAdd 16 x.tests 1
            transient := if x.due.isSome then satAdd 16 x.transient 1 else x.transient })
      ∧ (∀ c, x.vote = .triple → c < 3 → ∃ u, Machine.exec (.coreTestDone t i (some c)) s0 = .next u ∧ peer u
        ∧ (island i u).vote = .pair ∧ (island i u).retired = (if c = 0 then 3 else c) ∧ (island i u).testing = false
        ∧ (island i u).tests = satAdd 16 x.tests 1 ∧ (fsrc (isrc i 0x1AA) u).latched = true ∧ (fsrc (isrc i 0x1AA) u).detail = c)
      ∧ (x.vote = .pair → ∃ u, Machine.exec (.coreTestDone t i none) s0 = .next u ∧ peer u ∧ only u
        ∧ island i u = { x with testing := false, due := none, tests := satAdd 16 x.tests 1 })
      ∧ (∀ c, x.vote = .pair → ∃ u, Machine.exec (.coreTestDone t i (some c)) s0 = .next u
        ∧ silenced u { x with tests := satAdd 16 x.tests 1 }))
    ∧ (x.vote ≠ .silent → ∃ u, Machine.exec (.islandMonitorTrip t i) s0 = .next u ∧ silenced u x)
    ∧ (x.vote = .silent → Machine.exec (.islandMonitorTrip t i) s0 = .next s)
    ∧ (islandVoted i s = true → (∃ u, Machine.exec (.voterInjection t i false) s0 = .next u ∧ silenced u x)
      ∧ ∀ k, ∃ u, Machine.exec (.checkerInjection t i k false) s0 = .next u ∧ silenced u x
        ∧ (fsrc (isrc i 0x1AD) u).latched = true ∧ (fsrc (isrc i 0x1AD) u).detail = k)
    ∧ Machine.exec (.voterInjection t i true) s0 = .next s
    ∧ ∀ k, Machine.exec (.checkerInjection t i k true) s0 = .next s

/-- CHECK_TOKEN_RX to DEADLINE_MISS (R328 to R336). -/
def Obligations.ChecksJudgeFramesAndTheMrtIsKept : Prop :=
  (∀ (t e c i : Nat) (g : GEdge) (k : Token) (s0 : State),
    let s := advanceTo t s0
    let x := check c s
    gEdgeOf e s = some g → arriving e s = some k → g.dstKind = 6 → checkOf g.dst s = some c →
    (hostIsland x.owner s = none → Machine.exec (.checkTokenRx t e) s0 = .next s)
    ∧ (hostIsland x.owner s = some i → ∃ u, Machine.exec (.checkTokenRx t e) s0 = .next u
      ∧ edge e u = { edge e s with flight := (edge e s).flight.drop 1, inUse := (edge e s).inUse + 1 }
      ∧ (Balanced (edge e s) → Balanced (edge e u)) ∧ (∀ j, j ≠ c → check j u = check j s)
      ∧ (x.frames = [] → (check c u).nextFrame = x.nextFrame + 1 ∧ ∃ f, (check c u).frames = [f]
          ∧ f.toks = [(g.dstPort, k.data)] ∧ f.number = x.nextFrame ∧ f.firstStamp = stamp i s ∧ f.lastAt = s.time.now)
      ∧ (∀ f r, x.frames = f :: r → (∀ y ∈ f.toks, y.1 ≠ g.dstPort) → (check c u).nextFrame = x.nextFrame
          ∧ ∃ f', (check c u).frames = f' :: r ∧ f'.toks = f.toks ++ [(g.dstPort, k.data)] ∧ f'.number = f.number
            ∧ f'.lastAt = s.time.now)
      ∧ u = { s with isl := { s.isl with checks := u.isl.checks }, fab := { s.fab with edges := u.fab.edges } }))
  ∧ (∀ (t c i k : Nat) (f : ChkFrame) (g : GTen) (o : GOp) (items : List SpotItem) (s0 : State),
    let s := advanceTo t s0
    let x := check c s
    fullFrame c s = some f → spotStack c s = some k → hostIsland x.owner s = some i → (curImage s).tensor x.tensor = some g →
        (curImage s).op x.op = some o →
    (x.kind ≠ 5 ∨ f.spot.isSome = true ∨ sortNat (items.map (·.index)) ≠ sortNat (sampled i c f g.elems) →
      Machine.exec (.spotRecomputeDone t c items) s0 = .next s)
    ∧ (x.kind = 5 → f.spot = none → sortNat (items.map (·.index)) = sortNat (sampled i c f g.elems) →
        (∀ it ∈ items, it.rquad / 84 = k) →
      ∃ u, Machine.exec (.spotRecomputeDone t c items) s0 = .next u ∧ (check c u).rot = k
        ∧ (∀ z ∈ (check c u).frames, z.number = f.number → z.spot = some
            ((items.filter (fun it => !spotMatch s.fab.fresh o g f it s)).map (fun it => (it.quad, it.rquad))))
        ∧ (check c u).window = x.window
        ∧ u = { s with isl := { s.isl with checks := u.isl.checks }, fab := { s.fab with fresh := s.fab.fresh + 1 } }))
  ∧ (∀ (t c : Nat) (s0 : State),
    let s := advanceTo t s0
    let x := check c s
    (hostIsland x.owner s = none ∨ fullFrame c s = none →
      Machine.exec (.checkVerdict t c) s0 = .next s ∧ Machine.exec (.checkVerdictTimeout t c) s0 = .next s)
    ∧ (∀ i f, hostIsland x.owner s = some i → fullFrame c s = some f →
      let closed := fun (u : State) => (check c u).frames = x.frames.filter (fun z => z.number != f.number)
        ∧ (∀ j, j ≠ c → check j u = check j s)
        ∧ (∀ e, (tapEdges c s).filter (fun e => f.toks.any (fun k => k.1 == e.dstPort)) = [e] →
            edge e.id u = { edge e.id s with inUse := (edge e.id s).inUse - 1, creditFlight := (edge e.id s).creditFlight + 1 })
      let doubted := fun (u : State) => ∀ k ∈ u.led.tickets, ticketOpen k = true →
        (∃ g ∈ f.tags, g.stream = k.stream ∧ g.seq = k.seq) → ∃ o, k.suspectBy = some o ∧ o ≤ x.id
      (frameVerdict i c f s = none → Machine.exec (.checkVerdict t c) s0 = .next s)
      ∧ (frameVerdict i c f s = some .pass → ∃ u, Machine.exec (.checkVerdict t c) s0 = .next u ∧ closed u
        ∧ (check c u).window = ({ fail := false } :: x.window).take x.n ∧ (check c u).judged = satAdd 20 x.judged 1
        ∧ (check c u).failed = x.failed ∧ u.led = s.led)
      ∧ (∀ ds, frameVerdict i c f s = some (.fail ds) → ∃ u, Machine.exec (.checkVerdict t c) s0 = .next u ∧ closed u
        ∧ (check c u).window = ({ fail := true, charges := ds } :: x.window).take x.n
        ∧ (check c u).judged = satAdd 20 x.judged 1 ∧ (check c u).failed = satAdd 12 x.failed 1
        ∧ (check c u).raised = decide (x.k ≤ (({ fail := true, charges := ds } :: x.window).take x.n).countP (·.fail))
        ∧ ((check c u).raised = true → x.raised = false → (fsrc (isrc i (0x1C0 + c)) u).latched = true
            ∧ (fsrc (isrc i (0x1C0 + c)) u).detail = x.op)
        ∧ (x.hold = true → doubted u) ∧ (x.hold = false → u.led = s.led))
      ∧ (frameVerdict i c f s = some .unchecked → ∃ u, Machine.exec (.checkVerdict t c) s0 = .next u ∧ closed u
        ∧ (check c u).window = x.window ∧ (check c u).judged = x.judged
        ∧ (x.hold = true → doubted u ∧ (check c u).unchecked = satAdd 16 x.unchecked 1))
      ∧ (frameLate f s = false → Machine.exec (.checkVerdictTimeout t c) s0 = .next s)
      ∧ (frameLate f s = true → ∃ u, Machine.exec (.checkVerdictTimeout t c) s0 = .next u ∧ closed u
        ∧ (check c u).window = x.window ∧ (check c u).judged = x.judged ∧ (x.hold = true → doubted u))))
  ∧ (∀ (t e i : Nat) (k : Token) (s0 : State), i < 2 →
    let s := advanceTo t s0
    (arriving e s = some k → hostIsland 0 s = some i → isMrtEdge e s = true → ∃ u, Machine.exec (.mrtToken t e) s0 = .next u
      ∧ edge e u = { edge e s with flight := (edge e s).flight.drop 1, creditFlight := (edge e s).creditFlight + 1 }
      ∧ (mrtOk k.data = true → ∀ j, j < 2 → (islandVoted j s = true → (island j u).mrt = some k.data ∧ (island j u).mrtAged = false)
          ∧ (islandVoted j s = false → island j u = island j s))
      ∧ (mrtOk k.data = false → island i u = { island i s with mrtRejected := (island i s).mrtRejected + 1 }))
    ∧ (isMrtEdge e s = false → Machine.exec (.mrtToken t e) s0 = .next s)
    ∧ (islandVoted i s = true → mrtOld i s = true → (island i s).mrtAged = false → ∃ u, Machine.exec (.mrtAged t i) s0 = .next u
      ∧ island i u = { island i s with mrtAged := true }
      ∧ (hostIsland 0 s = some i → (fsrc (isrc i 0x1AE) u).latched = true))
    ∧ (mrtOld i s = false ∨ (island i s).mrtAged = true → Machine.exec (.mrtAged t i) s0 = .next s))
  ∧ (∀ (t st q i : Nat) (k : Ticket) (s0 : State),
    let s := advanceTo t s0
    let late := missedDeadline k (stamp (liveDie (homeOf st s) s) s)
    ticket st q s = some k → hostIsland (homeOf st s) s = some i →
    ((watch st s).declared = false ∨ k.missed = true ∨ late = false → Machine.exec (.deadlineMiss t st q) s0 = .next s)
    ∧ ((watch st s).declared = true → k.missed = false → late = true → ∃ u, Machine.exec (.deadlineMiss t st q) s0 = .next u
      ∧ ticket st q u = some { k with missed := true }
      ∧ (watch st u).win = (true :: (watch st s).win).take (watch st s).n ∧ (∀ j, j ≠ st → watch j u = watch j s)
      ∧ (fsrc (isrc i (0x200 + st)) u).latched = true ∧ (st < 256 → (fsrc (isrc i (0x200 + st)) u).detail = q)
      ∧ ((watch st s).k ≤ ((true :: (watch st s).win).take (watch st s).n).countP id → (fsrc (isrc i (0x300 + st)) u).latched = true)))

/-- The self-test of gloves and the withdrawal of quads (R325, R337, R338, R343). -/
def Obligations.GlovesAreTestedAndQuadsWithdrawn : Prop :=
  ∀ (t g q : Nat) (s0 : State), g < 1344 → q < 336 →
    let s := advanceTo t s0
    let h := gloveHalf g
    let x := glove g s
    let rest := restTest (g / 4) s
    let gloves := fun (u : State) => u = { s with fab := { s.fab with gloves := u.fab.gloves } }
    (testsRun h s = false ∨ serving s = false ∨ gloveIdle g s = false ∨ x.test = .selftest →
      Machine.exec (.gloveTestSlice t g) s0 = .next s)
    ∧ (testsRun h s = true → serving s = true → gloveIdle g s = true → x.test ≠ .selftest →
      (bothSplit s = false → isWithdrawn (g / 4) s = false → reservedSoon g s = true →
        ∃ u, Machine.exec (.gloveTestSlice t g) s0 = .next u ∧ glove g u = x
          ∧ (testIsland h s < 2 → (island (testIsland h s) u).deferred = satAdd 16 (island (testIsland h s) s).deferred 1)
          ∧ u = { s with isl := u.isl })
      ∧ (bothSplit s = true ∨ isWithdrawn (g / 4) s = true ∨ reservedSoon g s = false →
        ∃ u, Machine.exec (.gloveTestSlice t g) s0 = .next u ∧ glove g u = { x with test := .selftest } ∧ gloves u))
    ∧ (∀ ok, x.test ≠ .selftest → Machine.exec (.gloveTestSliceDone t g ok) s0 = .next s)
    ∧ (x.test = .selftest →
      (x.slices < 11 → ∃ u, Machine.exec (.gloveTestSliceDone t g true) s0 = .next u
        ∧ glove g u = { x with test := rest, slices := x.slices + 1 } ∧ gloves u)
      ∧ (11 ≤ x.slices → ∃ u, Machine.exec (.gloveTestSliceDone t g true) s0 = .next u ∧ gloves u
        ∧ glove g u = { x with
            test := rest, slices := 0, overdue := false, passAt := s.time.now, lastPass := shortStamp (liveDie h s) s })
      ∧ (∃ u, Machine.exec (.gloveTestSliceDone t g false) s0 = .next u ∧ glove g u = { x with test := rest, slices := 0 }
        ∧ (fsrc (srcQuad (g / 4)) u).latched = true
        ∧ (quadAvail (g / 4) s = true →
            u.fault.isoPend = s.fault.isoPend ++ [⟨quadPart (g / 4), some (srcQuad (g / 4)), 3, s.time.now⟩])
        ∧ (quadAvail (g / 4) s = false → u.fault.isoPend = s.fault.isoPend)))
    ∧ (testsRun h s = false ∨ quadAvail (g / 4) s = false ∨ sincePass g s < 55000000000 →
      Machine.exec (.gloveWithdrawRequest t g) s0 = .next s)
    ∧ (testsRun h s = true → quadAvail (g / 4) s = true → 55000000000 ≤ sincePass g s →
      (hasAlternate (g / 4) s = true → ∃ u, Machine.exec (.gloveWithdrawRequest t g) s0 = .next u
        ∧ (u.isl.withdrawReq.any (fun r => r.1 == g / 4) = true ∨ isWithdrawn (g / 4) u = true)
        ∧ u = { s with isl := { s.isl with withdrawReq := u.isl.withdrawReq } })
      ∧ (hasAlternate (g / 4) s = false → ∃ u, Machine.exec (.gloveWithdrawRequest t g) s0 = .next u
        ∧ (testIsland h s < 2 → (island (testIsland h s) u).deferred = satAdd 16 (island (testIsland h s) s).deferred 1)
        ∧ u.isl.withdrawReq = s.isl.withdrawReq ∧ u = { s with isl := u.isl }))
    ∧ (gloveOverdue g s = true → x.overdue = false → hasAlternate (g / 4) s = false → testsRun h s = true →
      ∃ u, Machine.exec (.testIntervalPassed t g) s0 = .next u ∧ glove g u = { x with overdue := true }
        ∧ (fsrc (isrc (testIsland h s) 0x1AF) u).latched = true ∧ (fsrc (isrc (testIsland h s) 0x1AF) u).detail = g)
    ∧ (gloveOverdue g s = false ∨ x.overdue = true ∨ hasAlternate (g / 4) s = true →
      Machine.exec (.testIntervalPassed t g) s0 = .next s)
    ∧ (s.isl.withdrawReq.find? (fun r => r.1 == q) = none ∨ matchingAlt (quadPart q) s = none →
      Machine.exec (.quadWithdrawSeam t q) s0 = .next s)
    ∧ (∀ r a f, s.isl.withdrawReq.find? (fun y => y.1 == q) = some r → matchingAlt (quadPart q) s = some (a, f) →
      (s.time.now < wholeMs r.2 → Machine.exec (.quadWithdrawSeam t q) s0 = .next s)
      ∧ (wholeMs r.2 ≤ s.time.now → quadAvail q s = true → anyTaking s = false → s.pat.refitAt = none →
        ((∀ m ∈ changedMittens s.pat.fit f.2, (mitten (leadOf m s) s).firing = none) → ∃ u, Machine.exec (.quadWithdrawSeam t q) s0 = .next u
          ∧ u.pat.fit = f.2 ∧ u.pat.altKind = 1 ∧ u.pat.altIndex = q ∧ u.pat.testAlt = true
          ∧ u.pat.switches = satAdd 16 s.pat.switches 1 ∧ isWithdrawn q u = true
          ∧ u.isl.withdrawReq = s.isl.withdrawReq.filter (fun y => y.1 != q)
          ∧ (∀ j, j / 4 = q → (glove j u).test = .withdrawn) ∧ (∀ j, j / 4 ≠ q → glove j u = glove j s))
        ∧ ((∃ m ∈ changedMittens s.pat.fit f.2, (mitten (leadOf m s) s).firing.isSome = true) →
          ∃ u, Machine.exec (.quadWithdrawSeam t q) s0 = .next u ∧ u.pat.testSeam.isSome = true ∧ u.pat.fit = s.pat.fit
            ∧ u = { s with pat := { s.pat with testSeam := u.pat.testSeam } })))
    ∧ (isWithdrawn q s = false → Machine.exec (.quadReturnSeam t q) s0 = .next s)
    ∧ (∀ w, s.isl.withdrawnQuads.find? (fun y => y.1 == q) = some w →
      ((∃ j, j / 4 = q ∧ (glove j s).passAt ≤ w.2) → Machine.exec (.quadReturnSeam t q) s0 = .next s)
      ∧ (s.pat.testAlt = true → (∀ j, j / 4 = q → w.2 < (glove j s).passAt ∧ (glove j s).test ≠ .selftest) →
          fitAvailable s.pat.primary s = true → anyTaking s = false → s.pat.refitAt = none →
          (∀ m ∈ changedMittens s.pat.fit s.pat.primary, (mitten (leadOf m s) s).firing = none) →
        ∃ u, Machine.exec (.quadReturnSeam t q) s0 = .next u ∧ u.pat.fit = s.pat.primary ∧ u.pat.altKind = 0
          ∧ u.pat.testAlt = false ∧ isWithdrawn q u = false ∧ (∀ j, j / 4 = q → (glove j u).test = .none)
          ∧ ∀ j, j / 4 ≠ q → glove j u = glove j s))

/-- MBX_STATUS to MBX_DONE_CLEAR (R325, R339 to R342, R429, R430). -/
def Obligations.MailboxCommandsAreAnsweredAndSealedOnesJudged : Prop :=
  ∀ (t i : Nat) (s0 : State), i < 2 →
    let s := advanceTo t s0
    let x := island i s
    let m := mbxMsg i s
    let answered := fun (u : State) (status : Nat) => (island i u).mbx.busy = false ∧ (island i u).mbx.done = true
      ∧ ∃ bs, (island i u).mbx.outBuf = wrBytes [] 0 bs ∧ fieldLe bs 0 1 = msgCmd m ∧ fieldLe bs 1 1 = status
        ∧ fieldLe bs 4 4 = msgTag m
    let quiet := fun (u : State) => u = { s with isl := u.isl, host := u.host } ∧ u.isl.checks = s.isl.checks
    let waits := fun (code : Nat) => x.mbx.busy = true ∧ islandRuns i s = true ∧ msgCmd m = code
    let gated := fun (c : Instr) (code : Nat) =>
      x.mbx.busy = false ∨ islandRuns i s = false ∨ msgCmd m ≠ code → Machine.exec c s0 = .next s
    let judged := fun (c : Instr) (code body : Nat) => gated c code ∧ (waits code →
      (islandVoted i s = true → ∀ e, judgeSeal 2 body m s = .error e → ∃ u, Machine.exec c s0 = .next u ∧ answered u e ∧ quiet u)
      ∧ (islandVoted i s = true → ∀ b, judgeSeal 2 body m s = .ok b → ∃ u, Machine.exec c s0 = .next u
          ∧ (∃ st, answered u st) ∧ tget 0 (sealSlot (msgPayload m)) u.sec.counters = b.2.counter)
      ∧ (islandVoted i s = false → (bothSplit s = false ∨ (code ≠ 0x10 ∧ code ≠ 0x30)) →
          ∃ u, Machine.exec c s0 = .next u ∧ answered u 6 ∧ quiet u))
    gated (.mbxStatus t i) 0x01 ∧ gated (.mbxMrtGet t i) 0x02
    ∧ judged (.mbxTicket t i) 0x10 128 ∧ judged (.mbxOutcomeGet t i) 0x11 1 ∧ judged (.mbxLoopMode t i) 0x12 2
    ∧ judged (.mbxUnblock t i) 0x20 2 ∧ judged (.mbxCheckClear t i) 0x21 4 ∧ judged (.mbxPatternAuth t i) 0x30 12
    ∧ (waits 0x01 → ∃ u, Machine.exec (.mbxStatus t i) s0 = .next u ∧ answered u (if msgLen m = 0 then 0 else 2) ∧ quiet u)
    ∧ (waits 0x02 → ∃ u, Machine.exec (.mbxMrtGet t i) s0 = .next u ∧ quiet u
        ∧ answered u (if msgLen m ≠ 0 then 2 else if x.mrt.isSome then 0 else 6))
    ∧ (∀ b y, islandVoted i s = true →
      let z := takeCounter (sealSlot (msgPayload m)) y.counter s
      let n := fieldLe b 0 1
      (waits 0x10 → judgeSeal 2 128 m s = .ok (b, y) → ∃ u, Machine.exec (.mbxTicket t i) s0 = .next u
        ∧ (ownsHome i (homeOf (fieldLe b 32 1) z) z = false → answered u 5 ∧ u.led = s.led)
        ∧ (ownsHome i (homeOf (fieldLe b 32 1) z) z = true → answered u 0
            ∧ ((strm (fieldLe b 32 1) z).secure = true → verdictOf (fieldLe b 32 1) none b z = 0 →
                (strm (fieldLe b 32 1) u).nextSeq = (strm (fieldLe b 32 1) s).nextSeq + 1
                ∧ (strm (fieldLe b 32 1) u).outstanding = (strm (fieldLe b 32 1) s).outstanding + 1
                ∧ u.led.tickets.length = s.led.tickets.length + 1)))
      ∧ (waits 0x11 → judgeSeal 2 1 m s = .ok (b, y) → ownsHome i (homeOf n z) z = true →
        ∃ u, Machine.exec (.mbxOutcomeGet t i) s0 = .next u ∧ answered u 0
          ∧ u.led.secureOut = (takeOutcomes n 25 s.led.secureOut).2
          ∧ (∀ o ∈ s.led.secureOut, o.1 ≠ n → o ∈ u.led.secureOut))
      ∧ (waits 0x12 → judgeSeal 2 2 m s = .ok (b, y) → (lslot n s).declared = true → (lslot n s).secure = true →
          engineUp n s = true → (reqTarget n (fieldLe b 1 1) s).isSome = true →
        ∃ u, Machine.exec (.mbxLoopMode t i) s0 = .next u ∧ answered u 0 ∧ lslot n u = { lslot n s with req := fieldLe b 1 1 })
      ∧ (waits 0x20 → judgeSeal 2 2 m s = .ok (b, y) → (group n s).declared = true → (memberReg n (fieldLe b 1 1) s).blocked = true →
        ∃ u, Machine.exec (.mbxUnblock t i) s0 = .next u ∧ answered u 0
          ∧ ∀ k ∈ (group n u).members, k.index = fieldLe b 1 1 → k.blocked = false)
      ∧ (∀ c, waits 0x21 → judgeSeal 2 4 m s = .ok (b, y) → checkOf (fieldLe b 0 4) s = some c → hostIsland (check c s).owner s = some i →
        ∃ u, Machine.exec (.mbxCheckClear t i) s0 = .next u ∧ answered u 0
          ∧ check c u = { check c s with window := [], raised := false } ∧ ∀ j, j ≠ c → check j u = check j s)
      ∧ (waits 0x30 → judgeSeal 2 12 m s = .ok (b, y) → ∃ u, Machine.exec (.mbxPatternAuth t i) s0 = .next u ∧ answered u 0
          ∧ u.pat.auth = some (fieldLe b 0 8, fieldLe b 8 4, s.time.now + 10000000000)))
    ∧ (∃ u, Machine.exec (.mbxDoneClear t i) s0 = .next u ∧ island i u = { x with mbx := { x.mbx with done := false } }
        ∧ island (1 - i) u = island (1 - i) s ∧ u = { s with isl := u.isl })

/-- BOOT_ROM_DONE, FIRMWARE_SELECT, FLASH_WRITE_DONE, MGMT_FRAGMENT_RX and MGMT_REASSEMBLY_TIMEOUT (R423 to R440). -/
def Obligations.BootRunsFromTheRomToTheFirmware : Prop :=
  ∀ (t : Nat) (s0 : State),
    let s := advanceTo t s0
    let stops := fun (u : State) (code : Nat) => u.sec.stopped = true ∧ u.sec.code = code ∧ PinsLow u ∧ u.sec.stage = s.sec.stage
    (booting s = false ∨ s.sec.stage ≠ 0 → Machine.exec (.bootRomDone t) s0 = .next s)
    ∧ (booting s = true → s.sec.stage = 0 →
      (mergeStores s = none → ∃ u, Machine.exec (.bootRomDone t) s0 = .next u ∧ stops u 3)
      ∧ (∀ z, mergeStores s = some z →
        (Config.mldsaKey s.sec.seed ≠ slice s.sec.identity 32 1312 → ∃ u, Machine.exec (.bootRomDone t) s0 = .next u ∧ stops u 3)
        ∧ (Config.mldsaKey s.sec.seed = slice s.sec.identity 32 1312 → ∃ u, Machine.exec (.bootRomDone t) s0 = .next u
          ∧ u.sec.stage = 1 ∧ u.sec.stopped = s.sec.stopped
          ∧ (∀ n, n < 16 → tget 0 n u.sec.counters = (keySlot n u).ceiling)
          ∧ u.host.moduleId = fieldLe s.sec.identity 0 16
          ∧ (islandRuns 0 s = true → islandRuns 1 s = true → u.sec.storeA = u.sec.storeB))))
    ∧ (booting s = false ∨ s.sec.stage ≠ 1 → ∀ ok, Machine.exec (.firmwareSelect t ok) s0 = .next s)
    ∧ (booting s = true → s.sec.stage = 1 →
      (fwAgree s = none → ∀ ok, ∃ u, Machine.exec (.firmwareSelect t ok) s0 = .next u ∧ stops u 4)
      ∧ (∀ n bs lag, fwAgree s = some (n, bs, lag) →
        (lag.isSome = true → ∃ u, Machine.exec (.firmwareSelect t false) s0 = .next u ∧ stops u 5)
        ∧ (∀ ok, lag = none ∨ ok = true →
          (bit (fwOptions bs) 0 = true → partnerPos s = true → islandRuns 0 s = true ∨ islandRuns 1 s = true →
            ∃ u, Machine.exec (.firmwareSelect t ok) s0 = .next u ∧ stops u 2 ∧ (fsrc 0x1BC u).latched = true
              ∧ (fsrc (0x400 + 0x1BC) u).latched = true)
          ∧ (bit (fwOptions bs) 0 = false → ∃ u, Machine.exec (.firmwareSelect t ok) s0 = .next u
            ∧ u.sec.stage = 3 ∧ u.sec.fwSlot = n ∧ u.sec.fwVersion = fwVer bs ∧ u.sec.fwDigest = slice bs 16 32
            ∧ anySplit u = false ∧ u.sec.stopped = s.sec.stopped
            ∧ (∀ i, lag = some i → fwSlotOf i n u = bs ∧ u.sec.repaired = true)))))
    ∧ (s.sec.job = none → ∀ ok, Machine.exec (.flashWriteDone t ok) s0 = .next s)
    ∧ (∀ j ok, s.sec.job = some j → ∃ u, Machine.exec (.flashWriteDone t ok) s0 = .next u ∧ u.sec.job = none
        ∧ (∀ i, i < 2 →
          (islandRuns i s = false → flash i u = flash i s)
          ∧ (islandRuns i s = true → j.firmware = true → fwSlotOf i j.index u = (if ok then j.raw else [])
              ∧ (flash i u).store = (flash i s).store)
          ∧ (islandRuns i s = true → j.firmware = false →
              (tget {} j.index (flash i u).store).valid = (ok && !j.raw.isEmpty)
              ∧ (∀ n, n ≠ j.index → tget {} n (flash i u).store = tget {} n (flash i s).store)))
        ∧ (mgmtUp j.island s = true → s.host.mgmtSent.length < u.host.mgmtSent.length)
        ∧ (mgmtUp j.island s = false → u.host = s.host)
        ∧ u = { s with sec := u.sec, host := u.host })
    ∧ (∀ i src dst bs, i < 2 →
      let n := fieldLe bs 5 1
      let len := fieldLe bs 6 2
      let part := slice bs 8 len
      let x := island i s
      (mgmtUp i s = false ∨ (dst ≠ 0xFFFFFFFFFFFF ∧ dst ≠ mgmtMac i s) ∨ n = 0 ∨ 3 < n ∨ 1492 < len ∨ x.msg.isSome = true →
        Machine.exec (.mgmtFragmentRx t i src dst bs) s0 = .next s)
      ∧ (mgmtUp i s = true → dst = mgmtMac i s → dst ≠ 0xFFFFFFFFFFFF → len ≤ 1492 → 8 + len ≤ bs.length → x.msg = none →
          (∀ j, s.sec.job = some j → j.island ≠ i) → x.asm = none →
        (n = 1 → fieldLe bs 4 1 = 0 → part.length = 16 + msgLen part → mgmtCodes.contains (msgCmd part) = true →
          ∃ u, Machine.exec (.mgmtFragmentRx t i src dst bs) s0 = .next u
            ∧ (island i u).msg = some ⟨src, fieldLe bs 0 4, false, part⟩ ∧ (island i u).asm = none ∧ u = { s with isl := u.isl })
        ∧ (2 ≤ n → n ≤ 3 → fieldLe bs 4 1 < n → ∃ u, Machine.exec (.mgmtFragmentRx t i src dst bs) s0 = .next u
            ∧ (island i u).msg = none ∧ u = { s with isl := u.isl }
            ∧ (island i u).asm = some { mtag := fieldLe bs 0 4, src := src, frags := n, parts := [(fieldLe bs 4 1, part)], at_ := s.time.now })))
    ∧ (∀ i, i < 2 →
      ((island i s).asm = none → Machine.exec (.mgmtReassemblyTimeout t i) s0 = .next s)
      ∧ (∀ a, (island i s).asm = some a →
        (s.time.now < a.at_ + 10000000 → Machine.exec (.mgmtReassemblyTimeout t i) s0 = .next s)
        ∧ (a.at_ + 10000000 ≤ s.time.now → ∃ u, Machine.exec (.mgmtReassemblyTimeout t i) s0 = .next u
          ∧ island i u = { island i s with asm := none } ∧ island (1 - i) u = island (1 - i) s ∧ u = { s with isl := u.isl })))

/-- MGMT_IDENTITY to MGMT_STORE (R425 to R438). -/
def Obligations.ManagementCommandsAreAnsweredAndSealedOnesJudged : Prop :=
  ∀ (t i : Nat) (s0 : State), i < 2 →
    let s := advanceTo t s0
    let answered := fun (u : State) => (island i u).msg = none ∧ s.host.mgmtSent.length < u.host.mgmtSent.length
    let quiet := fun (u : State) => u = { s with isl := u.isl, host := u.host }
    let holds := fun (code : Nat) (g : MgmtMsg) => (island i s).msg = some g ∧ msgCmd g.bytes = code ∧ mgmtUp i s = true
    let gated := fun (c : Instr) (code : Nat) =>
      ((island i s).msg = none → Machine.exec c s0 = .next s)
      ∧ ∀ g, (island i s).msg = some g → msgCmd g.bytes ≠ code ∨ mgmtUp i s = false → Machine.exec c s0 = .next s
    let judged := fun (c : Instr) (code body : Nat) => gated c code ∧ ∀ g, holds code g →
      (∀ e, judgeSeal 4 body g.bytes s = .error e → (code = 0x42 → s.sec.ownerSet = true) →
        ∃ u, Machine.exec c s0 = .next u ∧ answered u ∧ quiet u)
      ∧ (∀ b, judgeSeal 4 body g.bytes s = .ok b → ∃ u, Machine.exec c s0 = .next u ∧ (island i u).msg = none
        ∧ tget 0 (sealSlot (msgPayload g.bytes)) u.sec.counters = b.2.counter)
    gated (.mgmtIdentity t i) 0x40 ∧ gated (.mgmtAttest t i) 0x41
    ∧ judged (.mgmtEnroll t i) 0x42 1316 ∧ judged (.mgmtRevoke t i) 0x43 1 ∧ judged (.mgmtSetFloor t i) 0x44 4
    ∧ judged (.mgmtFirmware t i) 0x45 12 ∧ judged (.mgmtStore t i) 0x46 16
    ∧ (∀ g, holds 0x40 g → ∃ u, Machine.exec (.mgmtIdentity t i) s0 = .next u ∧ answered u ∧ quiet u)
    ∧ (∀ g, holds 0x41 g → ∃ u, Machine.exec (.mgmtAttest t i) s0 = .next u ∧ answered u ∧ quiet u)
    ∧ (∀ g, holds 0x42 g → msgSealed g.bytes = false → s.sec.ownerSet = false → msgLen g.bytes = 1316 → fieldLe g.bytes 16 1 = 1 →
        (keyStore s).revoked.contains (Config.sha3 (slice (msgPayload g.bytes) 4 1312)) = false →
      ∃ u, Machine.exec (.mgmtEnroll t i) s0 = .next u ∧ answered u ∧ u.sec.ownerSet = true
        ∧ (islandRuns 0 s = true → (tget {} 1 u.sec.storeA.slots).key = slice (msgPayload g.bytes) 4 1312
            ∧ (tget {} 1 u.sec.storeA.slots).kinds = 16)
        ∧ (islandRuns 1 s = true → (tget {} 1 u.sec.storeB.slots).key = slice (msgPayload g.bytes) 4 1312
            ∧ (tget {} 1 u.sec.storeB.slots).kinds = 16))
    ∧ (∀ g b y, holds 0x43 g → judgeSeal 4 1 g.bytes s = .ok (b, y) →
      let n := fieldLe b 0 1
      let k := keySlot n s
      2 ≤ n → n ≤ 15 → k.key ≠ [] → (keyStore s).revoked.length < 64 →
      ∃ u, Machine.exec (.mgmtRevoke t i) s0 = .next u ∧ answered u
        ∧ (islandRuns 0 s = true → (tget {} n u.sec.storeA.slots).key = [] ∧ Config.sha3 k.key ∈ u.sec.storeA.revoked)
        ∧ (islandRuns 1 s = true → (tget {} n u.sec.storeB.slots).key = [] ∧ Config.sha3 k.key ∈ u.sec.storeB.revoked))
    ∧ (∀ g b y, holds 0x44 g → judgeSeal 4 4 g.bytes s = .ok (b, y) →
      let w := fieldLe b 0 1
      let v := fieldLe b 2 2
      ∃ u, Machine.exec (.mgmtSetFloor t i) s0 = .next u ∧ answered u
        ∧ (w = 0 → (keyStore s).patFloor < v → (islandRuns 0 s = true → u.sec.storeA.patFloor = v)
            ∧ (islandRuns 1 s = true → u.sec.storeB.patFloor = v) ∧ u.sec.storeA.fwFloor = s.sec.storeA.fwFloor)
        ∧ (w = 1 → (keyStore s).fwFloor < v → (islandRuns 0 s = true → u.sec.storeA.fwFloor = v)
            ∧ (islandRuns 1 s = true → u.sec.storeB.fwFloor = v) ∧ u.sec.storeA.patFloor = s.sec.storeA.patFloor)
        ∧ (1 < w ∨ (w = 0 ∧ v ≤ (keyStore s).patFloor) ∨ (w = 1 ∧ v ≤ (keyStore s).fwFloor) →
            u.sec.storeA.patFloor = s.sec.storeA.patFloor ∧ u.sec.storeA.fwFloor = s.sec.storeA.fwFloor
            ∧ u.sec.storeB.patFloor = s.sec.storeB.patFloor ∧ u.sec.storeB.fwFloor = s.sec.storeB.fwFloor))
    ∧ (∀ g b y, holds 0x45 g → judgeSeal 4 12 g.bytes s = .ok (b, y) →
      let z := takeCounter (sealSlot (msgPayload g.bytes)) y.counter s
      let raw := devRd (fieldLe b 0 8) (fieldLe b 8 4) s
      (flashFree s = false → ∃ u, Machine.exec (.mgmtFirmware t i) s0 = .next u ∧ answered u ∧ u.sec.job = s.sec.job
        ∧ u.sec.flashA = s.sec.flashA ∧ u.sec.flashB = s.sec.flashB)
      ∧ (flashFree s = true → fwValid raw z = true → raw.length ≤ 16 * 2 ^ 20 → ∃ u j, Machine.exec (.mgmtFirmware t i) s0 = .next u
        ∧ u.sec.job = some j ∧ j.firmware = true ∧ j.index = 1 - s.sec.fwSlot ∧ j.raw = raw ∧ j.island = i
        ∧ u.host = s.host ∧ u.sec.flashA = s.sec.flashA ∧ u.sec.flashB = s.sec.flashB))
    ∧ (∀ g b y, holds 0x46 g → judgeSeal 4 16 g.bytes s = .ok (b, y) →
      let e := fieldLe b 0 1
      let n := fieldLe b 12 4
      (flashFree s = false ∨ 16 ≤ e ∨ storeRoom e s < n → ∃ u, Machine.exec (.mgmtStore t i) s0 = .next u ∧ answered u
        ∧ u.sec.job = s.sec.job)
      ∧ (flashFree s = true → e < 16 → n ≤ storeRoom e s → ∃ u j, Machine.exec (.mgmtStore t i) s0 = .next u
        ∧ u.sec.job = some j ∧ j.firmware = false ∧ j.index = e ∧ j.raw = devRd (fieldLe b 4 8) n s ∧ j.island = i
        ∧ u.host = s.host))

/-- HOST_LINK_UP to D3HOT_EXIT (R391, R443, R447 to R456). -/
def Obligations.HostLinksComeGoAndFailOver : Prop :=
  ∀ (t p : Nat) (s0 : State), p < 2 →
    let s := advanceTo t s0
    let h := hport p s
    let peer := fun (u : State) => hport (1 - p) u = hport (1 - p) s
    let port := fun (u : State) => peer u ∧ u = { s with host := { s.host with p0 := u.host.p0, p1 := u.host.p1 } }
    (h.link = true ∨ h.perst = true ∨ isIso (0x48 + p) s = true ∨ dieUp p s = false ∨ s.power.on = false ∨ s.power.inRetain = true
      ∨ (s.sec.stage < 3 ∧ s.power.booted = false) → Machine.exec (.hostLinkUp t p) s0 = .next s)
    ∧ (h.link = false → h.perst = false → isIso (0x48 + p) s = false → dieUp p s = true → s.power.on = true →
        s.power.inRetain = false → 3 ≤ s.sec.stage ∨ s.power.booted = true →
      ∃ u, Machine.exec (.hostLinkUp t p) s0 = .next u ∧ hport p u = { h with link := true, orderly := false } ∧ peer u
        ∧ (s.host.wmPend = false → port u)
        ∧ (s.host.wmPend = true → s.host.port = p → h.redirect = false → h.d3hot = false →
            u.host.wmPend = false ∧ u.host.mem = wrBytes s.host.mem s.host.wmBase s.host.wmRec))
    ∧ (∀ o fl, h.link = false → Machine.exec (.hostLinkDown t p o fl) s0 = .next s)
    ∧ (∀ o fl, h.link = true → ∃ u, Machine.exec (.hostLinkDown t p o fl) s0 = .next u
        ∧ (hport p u).link = false ∧ (hport p u).downAt = s.time.now ∧ (fsrc (srcHost p 0) u).latched = true
        ∧ (o = false → h.orderly = false → (fsrc (srcHost p 1) u).latched = true)
        ∧ (fl ≠ [] → (fsrc (srcHost p 2) u).latched = true)
        ∧ (fl = [] → o = true ∨ h.orderly = true → fsrc (srcHost p 1) u = fsrc (srcHost p 1) s
            ∧ hport p u = { h with link := false, downAt := s.time.now, orderly := false } ∧ peer u
            ∧ u = { s with host := { s.host with p0 := u.host.p0, p1 := u.host.p1 }, fault := { s.fault with src := u.fault.src } }))
    ∧ (s.host.failover = false ∨ h.redirect = true ∨ portUp p s = true ∨ portUp (1 - p) s = false
        ∨ s.time.now < h.downAt + s.host.foUs * 1000 → Machine.exec (.portFailover t p) s0 = .next s)
    ∧ (s.host.failover = true → h.redirect = false → portUp p s = false → portUp (1 - p) s = true →
        h.downAt + s.host.foUs * 1000 ≤ s.time.now →
      ∃ u, Machine.exec (.portFailover t p) s0 = .next u ∧ (hport p u).redirect = true ∧ (hport p u).link = h.link
        ∧ (hport (1 - p) u).redirect = (hport (1 - p) s).redirect ∧ u = { s with host := u.host }
        ∧ (s.host.port = p → u.host.wmPend = false)
        ∧ (∀ st k, (declaredStreams s).filter (fun n => (strm n s).port == p) = [st] → unconsumed st s = [k] →
            (strm st s).secure = false → s.host.wmPend = false →
            let x := strm st s
            u.host.mem = wrBytes s.host.mem (x.outBase + x.cons % 65536 % ringSize x * 64)
              (outcomeBytes k (if x.cons % 65536 / ringSize x % 2 = 0 then 1 else 0) s.power.jepoch)))
    ∧ (∀ fl, ∃ u, Machine.exec (.perstAssert t p fl) s0 = .next u ∧ (hport p u).perst = true ∧ (hport p u).link = false
        ∧ (hport p u).d3hot = false ∧ (hport p u).msix = [] ∧ (h.link = true → (fsrc (srcHost p 0) u).latched = true)
        ∧ (fl = [] → peer u ∧ (hport p u).win = h.win ∧ (hport p u).redirect = h.redirect
            ∧ (hport p u).downAt = (if h.link then s.time.now else h.downAt)
            ∧ fsrc (srcHost p 1) u = fsrc (srcHost p 1) s ∧ u.power = s.power ∧ u.led = s.led))
    ∧ (h.perst = false → Machine.exec (.perstDeassert t p) s0 = .next s)
    ∧ (h.perst = true → ∃ u, Machine.exec (.perstDeassert t p) s0 = .next u ∧ hport p u = { h with perst := false } ∧ peer u
        ∧ (s.power.retainEntry = true → u.power = { s.power with wakePend := true })
        ∧ (s.power.retainEntry = false → s.power.inRetain = true → u.power.inRetain = false ∧ u.power.retainExit = true)
        ∧ (s.power.retainEntry = false → s.power.inRetain = false → port u))
    ∧ (∀ fl, h.d3hot = true ∨ h.link = false → Machine.exec (.d3hotEntry t p fl) s0 = .next s)
    ∧ (h.d3hot = false → h.link = true → ∃ u, Machine.exec (.d3hotEntry t p []) s0 = .next u
        ∧ hport p u = { h with d3hot := true, downAt := s.time.now } ∧ port u)
    ∧ (h.d3hot = false → Machine.exec (.d3hotExit t p) s0 = .next s)
    ∧ (h.d3hot = true → ∃ u, Machine.exec (.d3hotExit t p) s0 = .next u ∧ hport p u = { h with d3hot := false } ∧ peer u
        ∧ u.power = s.power ∧ (s.host.wmPend = false → port u))

/-- BAR2_ACCESS, HOST_READ_COMPLETION, HOST_COMPLETION_TIMEOUT, MSIX_UNMASK and ETH_TX_PRODUCE (R419, R444 to R453). -/
def Obligations.HostAccessesAreGuardedAndAnswered : Prop :=
  ∀ (t p : Nat) (s0 : State), p < 2 →
    let s := advanceTo t s0
    let refused := fun (u : State) (wr : Bool) => u.sec.violHost = satAdd 16 s.sec.violHost 1 ∧ u.sec.lastPort = p
      ∧ u.sec.lastWrite = wr ∧ (fsrc (srcHost p 5) u).latched = true ∧ u.ddr = s.ddr
      ∧ (wr = false → u.host.resps = .unsupported p :: s.host.resps ∧ hport p u = hport p s)
      ∧ (wr = true → (hport p u).aerUr = true ∧ u.host.resps = s.host.resps)
    (portUp p s = false → ∀ off wr len ok, Machine.exec (.bar2Access t p off wr len ok) s0 = .next s)
    ∧ (portUp p s = true → ∀ off len bs,
      let all := fun (a n : Nat) (wr : Bool) => (linesOf a n).all (fun l => guardPasses (max a l) wr false (.host p) s)
      (∃ u, Machine.exec (.bar2Access t p off (some bs) len false) s0 = .next u ∧ (fsrc (srcHost p 4) u).latched = true
        ∧ u = { s with fault := { s.fault with src := u.fault.src } })
      ∧ (bar2Addr p off len s = none → ∃ u, Machine.exec (.bar2Access t p off none len true) s0 = .next u ∧ refused u false)
      ∧ (bar2Addr p off bs.length s = none → ∃ u, Machine.exec (.bar2Access t p off (some bs) len true) s0 = .next u ∧ refused u true)
      ∧ (∀ a, bar2Addr p off len s = some a →
        (all a len false = false → ∃ u, Machine.exec (.bar2Access t p off none len true) s0 = .next u ∧ refused u false
          ∧ u.sec.lastAddr = a)
        ∧ (all a len false = true →
          ((∀ l ∈ linesOf a len, chanUp (chanOf l) s = true ∧ poisonedAt l s = false) →
            ∃ u, Machine.exec (.bar2Access t p off none len true) s0 = .next u
              ∧ u.host.resps = .data p (devRd a len s) :: s.host.resps
              ∧ u = { s with host := { s.host with resps := u.host.resps } })
          ∧ ((∃ l ∈ linesOf a len, chanUp (chanOf l) s = false ∨ poisonedAt l s = true) →
            ∃ u, Machine.exec (.bar2Access t p off none len true) s0 = .next u
              ∧ u.host.resps = .poisoned p len :: s.host.resps ∧ u.ddr.mem = s.ddr.mem)))
      ∧ (∀ a, bar2Addr p off bs.length s = some a →
        (all a bs.length true = false → ∃ u, Machine.exec (.bar2Access t p off (some bs) len true) s0 = .next u ∧ refused u true
          ∧ u.sec.lastAddr = a)
        ∧ (all a bs.length true = true → bs ≠ [] → a % 64 + bs.length ≤ 64 → chanUp (chanOf a) s = true → poisonedAt a s = false →
            Memory.wf s.ddr.mem = true →
          ∃ u, Machine.exec (.bar2Access t p off (some bs) len true) s0 = .next u ∧ devRd a bs.length u = bs
            ∧ (∀ b, b < a ∨ a + bs.length ≤ b → devRd8 b u = devRd8 b s) ∧ u = { s with ddr := u.ddr })))
    ∧ (∀ who st, st = 0 ∨ portUp p s = false → Machine.exec (.hostReadCompletion t p who st) s0 = .next s)
    ∧ (∀ who st, st ≠ 0 → portUp p s = true → ∃ u, Machine.exec (.hostReadCompletion t p who st) s0 = .next u
        ∧ (fsrc (srcHost p (if st = 3 then 4 else 2)) u).latched = true
        ∧ ∀ i, who = .island i → u = { s with fault := { s.fault with src := u.fault.src } })
    ∧ (∀ who, ∃ u, Machine.exec (.hostCompletionTimeout t p who) s0 = .next u ∧ (fsrc (srcHost p 2) u).latched = true
        ∧ ∀ i, who = .island i → u = { s with fault := { s.fault with src := u.fault.src } })
    ∧ (∀ v,
      let e := tget ({} : MsixEntry) v (hport p s).msix
      (32 ≤ v ∨ e.masked = false → Machine.exec (.msixUnmask t p v) s0 = .next s)
      ∧ (v < 32 → e.masked = true → ∃ u, Machine.exec (.msixUnmask t p v) s0 = .next u
        ∧ tget ({} : MsixEntry) v (hport p u).msix = { e with masked := false, pba := false }
        ∧ (∀ n, n ≠ v → tget ({} : MsixEntry) n (hport p u).msix = tget ({} : MsixEntry) n (hport p s).msix)
        ∧ u.host.msgs = (if e.pba && portUp p s then ⟨p, v⟩ :: s.host.msgs else s.host.msgs)
        ∧ hport (1 - p) u = hport (1 - p) s
        ∧ u = { s with host := { s.host with p0 := u.host.p0, p1 := u.host.p1, msgs := u.host.msgs } }))
    ∧ (∀ e prod, e < 4 →
      let x := eport e s
      (offBlocked (0x000E030C + e * 0x4000) s = true → Machine.exec (.ethTxProduce t e prod) s0 = .next s)
      ∧ (offBlocked (0x000E030C + e * 0x4000) s = false →
        (x.tx.enable = false → ∃ u, Machine.exec (.ethTxProduce t e prod) s0 = .next u
          ∧ eport e u = { x with tx := { x.tx with prod := prod % 65536 } } ∧ (∀ j, j ≠ e → eport j u = eport j s)
          ∧ u = { s with host := { s.host with eth := u.host.eth } })
        ∧ (x.tx.enable = true → carried x.tx.port s = true → x.tx.done < 65536 →
          ∃ u, Machine.exec (.ethTxProduce t e prod) s0 = .next u
            ∧ (eport e u).tx = { x.tx with prod := prod % 65536, done := prod % 65536 } ∧ u.host.mem = s.host.mem
            ∧ ∀ j, j ≠ e → eport j u = eport j s)))

/-- ATTACH_QUIESCE, QUIESCE_LIMIT, QUIESCE_COMPLETE, ATTACH_RESUME, ATTACH_FENCE, ATTACH_JOIN, ATTACH_UNREDIRECT and
ATTACH_RESTART (R449, R456 to R459, R461, R468): each completes from every state, with what it changes and all that it leaves. -/
def Obligations.AttachCommandsQuiesceFenceJoinAndRestart : Prop :=
  ∀ (t : Nat) (s0 : State),
    let s := advanceTo t s0
    let rejected := { s with host := { s.host with cmdRej := true } }
    let voids := fun (u : State) => ({ s with
      led := { s.led with tickets := u.led.tickets, lastEnd := u.led.lastEnd }, isl := { s.isl with watch := u.isl.watch }
      power := { s.power with st := u.power.st, prev := u.power.prev } } : State)
    let noOpen := fun (u : State) => ∀ k ∈ u.led.tickets, ticketOpen k = false
    (serving s = false → Machine.exec (.attachQuiesce t) s0 = .next rejected)
    ∧ (serving s = true → s.host.quiescing = true ∨ s.host.quiesced = true → Machine.exec (.attachQuiesce t) s0 = .next s)
    ∧ (serving s = true → s.host.quiescing = false → s.host.quiesced = false → ∃ u, Machine.exec (.attachQuiesce t) s0 = .next u
        ∧ TicketsVoided (fun k => k.phase = .accepted ∧ k.injected = []) 5 0xFF s u
        ∧ u = { voids u with
            led := { (voids u).led with stopQuiesce := true }
            host := { s.host with quiescing := true, quiesceAt := s.time.now } })
    ∧ (s.host.quiescing = false ∨ s.time.now < s.host.quiesceAt + s.host.qlimitMs * 1000000 →
        Machine.exec (.quiesceLimit t) s0 = .next s)
    ∧ (s.host.quiescing = true → s.host.quiesceAt + s.host.qlimitMs * 1000000 ≤ s.time.now →
        ∃ u, Machine.exec (.quiesceLimit t) s0 = .next u ∧ TicketsVoided (fun _ => True) 5 0xFF s u ∧ noOpen u ∧ u = voids u)
    ∧ (s.host.quiescing = false ∨ (∃ k ∈ s.led.tickets, k.phase ≠ .delivered) → Machine.exec (.quiesceComplete t) s0 = .next s)
    ∧ (s.host.quiescing = true → (∀ k ∈ s.led.tickets, k.phase = .delivered) → ∃ u, Machine.exec (.quiesceComplete t) s0 = .next u
        ∧ (carried s.host.port s = true → u.host.wmPend = false ∧ u.host.mem = wrBytes s.host.mem s.host.wmBase (watermarkRecord s))
        ∧ (carried s.host.port s = false → u.host.wmPend = true ∧ u.host.mem = s.host.mem)
        ∧ (let q := carrier s.host.port s
           let masked := (tget ({} : MsixEntry) s.host.vector (hport q s).msix).masked
           (s.host.irq = false ∨ carried s.host.port s = false → u.host.msgs = s.host.msgs ∧ u.host.p0 = s.host.p0 ∧ u.host.p1 = s.host.p1)
           ∧ (s.host.irq = true → carried s.host.port s = true → masked = false →
              u.host.msgs = ⟨q, s.host.vector⟩ :: s.host.msgs ∧ u.host.p0 = s.host.p0 ∧ u.host.p1 = s.host.p1)
           ∧ (s.host.irq = true → carried s.host.port s = true → masked = true → u.host.msgs = s.host.msgs
              ∧ hport q u = { hport q s with msix := tmod {} s.host.vector (fun e => { e with pba := true }) (hport q s).msix }
              ∧ (∀ p, p < 2 → (p = 0 ↔ q ≠ 0) → hport p u = hport p s)))
        ∧ u = { s with host := { s.host with
            quiescing := false, quiesced := true, wmRec := watermarkRecord s, wmPend := u.host.wmPend, mem := u.host.mem
            msgs := u.host.msgs, p0 := u.host.p0, p1 := u.host.p1 } })
    ∧ (s.host.quiesced = false → Machine.exec (.attachResume t) s0 = .next s)
    ∧ (s.host.quiesced = true → Machine.exec (.attachResume t) s0 = .next
        { s with host := { s.host with quiesced := false }, led := { s.led with stopQuiesce := false } })
    ∧ (s.power.on = false ∨ s.power.safe = true ∨ s.power.fenced = true → Machine.exec (.attachFence t) s0 = .next s)
    ∧ (s.power.on = true → s.power.safe = false → s.power.fenced = false →
        let enters := fun (n : Nat) =>
          n ∈ declaredLoops s ∧ (lslot n s).st ≠ .stopped ∧ (lslot n s).st ≠ .safeOut ∧ engineUp n s = true
        ∃ u, Machine.exec (.attachFence t) s0 = .next u
        ∧ TicketsVoided (fun _ => True) 4 0xFF s u ∧ noOpen u
        ∧ (∀ n, enters n → lslot n u = { lslot n s with
            st := .safeOut, track := false, req := 0, waiting := none, safeAt := s.time.now
            outs := (lslot n s).outs.map (safeStep (fsec (lslot n s).periodUs))
            ctr := (lslot n u).ctr, latLast := (lslot n u).latLast, latMax := (lslot n u).latMax
            replaced := (lslot n u).replaced, dropped := (lslot n u).dropped })
        ∧ (∀ n, ¬ enters n → lslot n u = lslot n s)
        ∧ (∀ e, (∀ n, enters n → (lslot n s).port ≠ e) → eport e u = eport e s)
        ∧ DeviceKept (fun a => ∃ d, Config.traceRing d ≤ a ∧ a < Config.traceRing d + 2 ^ 22) s u
        ∧ u = { voids u with
            power := { (voids u).power with fenced := true }
            host := { s.host with
              fenceCause := 1, joined := false, leaseHeld := false, grace := false, jobId := 0, jobEpoch := 0, eth := u.host.eth }
            loop := { s.loop with slots := u.loop.slots }, ddr := u.ddr
            time := { s.time with trace0 := u.time.trace0, trace1 := u.time.trace1 } })
    ∧ (let may := s.power.position < 2 ∧ (∃ a, s.host.peerAt = some a ∧ s.time.now ≤ a + peerTo s) ∧ s.power.fenced = false
         ∧ s.host.accepted = false
       (may → Machine.exec (.attachJoin t) s0 = .next { s with host := { s.host with joined := true } })
       ∧ (¬ may → Machine.exec (.attachJoin t) s0 = .next rejected))
    ∧ (∃ u, Machine.exec (.attachUnredirect t) s0 = .next u
        ∧ (∀ p, p < 2 → hport p u = { hport p s with redirect := (hport p s).redirect && !portUp p s })
        ∧ u.host.cmdRej = (s.host.cmdRej || ((hport 0 s).redirect && !portUp 0 s) || ((hport 1 s).redirect && !portUp 1 s))
        ∧ u = { s with host := { s.host with p0 := u.host.p0, p1 := u.host.p1, cmdRej := u.host.cmdRej } })
    ∧ (∀ key, key ≠ 0xC1A5 → Machine.exec (.attachRestart t key) s0 = .next s)
    ∧ (restartRefused s = true → Machine.exec (.attachRestart t 0xC1A5) s0 = .next rejected)
    ∧ (restartRefused s = false → ∃ u, Machine.exec (.attachRestart t 0xC1A5) s0 = .next u
        ∧ TicketsVoided (fun _ => True) 1 0xFF s u ∧ noOpen u ∧ PinsLow u ∧ (u.power.st = .boot ∨ u.power.st = .off)
        ∧ (s.power.aon0 = true ∨ s.power.aon1 = true → u.power.st = .boot)
        ∧ (∀ st, strm st u = { strm st s with declared := false, disabled := false, edges := [] })
        ∧ (∀ ch, chan ch u = { ({} : DdrChan) with
            st := if (chan ch s).st = .reset then .reset else .selfRefresh, poison := (chan ch s).poison })
        ∧ (∀ a, ¬ InTraceRing a → rd8 u.ddr.mem a = rd8 s.ddr.mem a)
        ∧ (∀ e, eport e u = { ({} : EthPort) with link := (eport e s).link, fast := (eport e s).fast, sent := (eport e s).sent })
        ∧ (∀ x, x ∈ u.fault.isolated ↔ x ∈ s.fault.isolated ∧ (x = 0x50 ∨ x = 0x51))
        ∧ (s.sec.job = none → s.crown.calBusy = false → u.sec.flashA = s.sec.flashA ∧ u.sec.flashB = s.sec.flashB)
        ∧ u = { s with
            time := { s.time with trace0 := u.time.trace0, trace1 := u.time.trace1 }
            power := { s.power with
              st := u.power.st, prev := u.power.prev, booted := false, trained := false, fenced := false, safe := false
              fastStopped := false, inRetain := false, retainEntry := false, retainExit := false, wakePend := false }
            crown := bootCrown { s.crown with calBusy := false }
            fault := { bootFault s.fault with isolated := u.fault.isolated }
            led := { s.led with
              tickets := u.led.tickets, lastEnd := u.led.lastEnd, strm := u.led.strm, stopLoad := false, stopRetain := false
              stopQuiesce := false, stopCool := s.crown.coolHold, intake := [], heldWrites := [] }
            pat := {}, fab := { ({} : FabricState) with fresh := s.fab.fresh }, loop := {}, scene := [], plan := {}
            ddr := { s.ddr with mem := u.ddr.mem, ch := u.ddr.ch }
            sense := { ({} : SenseState) with evt0 := s.sense.evt0, evt1 := s.sense.evt1 }
            host := { s.host with
              joined := false, leaseHeld := false, grace := false, jobId := 0, jobEpoch := 0, eth := u.host.eth
              p0 := { s.host.p0 with link := false, orderly := true }, p1 := { s.host.p1 with link := false, orderly := true }
              quiescing := false, quiesced := false, wmPend := false, peerLost := false, fenceCause := 0, accepted := false }
            isl := { s.isl with watch := u.isl.watch, withdrawReq := [], withdrawnQuads := [], reserves := [] }
            sec := { s.sec with
              job := none, flashA := u.sec.flashA, flashB := u.sec.flashB, stage := 0, code := 0, stopped := false, repaired := false
              boots := (s.sec.boots + 1) % 256, pgoodAt := s.time.now, bootEntry := 0, bootLoad := false, ddrGuards := []
              linGuards := [], violHost := 0, violInt := 0, lastAddr := 0, lastSrc := 0, lastWrite := false, lastPort := 0 } })

/-- HEARTBEAT_SEND to WAKE_FRAME (R391, R458 to R465). -/
def Obligations.PartnersHeartbeatAndLeasesFence : Prop :=
  ∀ (t i dst : Nat) (bs : List Byte) (s0 : State), i < 2 →
    let s := advanceTo t s0
    let h := s.host
    let late : Prop := h.peerAt = none ∨ ∃ a, h.peerAt = some a ∧ a + peerTo s ≤ s.time.now
    let canFence : Prop := s.power.on = true ∧ s.power.safe = false ∧ s.power.fenced = false
    let fenced := fun (u : State) (cause : Nat) => u.power.fenced = true ∧ u.host.fenceCause = cause ∧ u.host.joined = false
      ∧ u.host.leaseHeld = false ∧ ∀ k ∈ u.led.tickets, ticketOpen k = false
    let job := fieldLe bs 32 8
    let epoch := fieldLe bs 40 4
    let renewed := { s with host := { h with
      joined := true, leaseHeld := true, grace := false, renewAt := s.time.now, jobId := job, jobEpoch := epoch, lastJob := job } }
    (s.power.on = false ∨ partnerPos s = false ∨ ethUp 3 s = false → Machine.exec (.heartbeatSend t) s0 = .next s)
    ∧ (s.power.on = true → partnerPos s = true → ethUp 3 s = true → ∃ u f, Machine.exec (.heartbeatSend t) s0 = .next u
        ∧ u.host.hbCtr = (h.hbCtr + 1) % 2 ^ 32 ∧ f.payload = heartbeatBytes s ∧ f.dst = h.peerMac ∧ f.etherType = 0x88B6
        ∧ ((eport 3 u).sent = (stamp 1 s, f) :: (eport 3 s).sent ∧ (eport 3 u).queued = (eport 3 s).queued
            ∨ (eport 3 u).queued = (eport 3 s).queued ++ [(5, f, .plain)] ∧ (eport 3 u).sent = (eport 3 s).sent)
        ∧ u = { s with host := { h with hbCtr := u.host.hbCtr, eth := u.host.eth } })
    ∧ (ethUp 3 s = false ∨ fieldLe bs 0 1 ≠ 1 ∨ fieldLe bs 1 1 ≠ 1 ∨ 32 < fieldLe bs 36 1 →
        Machine.exec (.heartbeatRx t bs) s0 = .next s)
    ∧ (ethUp 3 s = true → fieldLe bs 0 1 = 1 → fieldLe bs 1 1 = 1 → fieldLe bs 36 1 ≤ 32 → 40 + 12 * fieldLe bs 36 1 ≤ bs.length →
      ∃ u, Machine.exec (.heartbeatRx t bs) s0 = .next u ∧ u.host.peerState = fieldLe bs 32 1 % 16
        ∧ u.host.peerJepoch = fieldLe bs 34 2 ∧ u.host.peerAt = some s.time.now ∧ u.host.peerLost = false
        ∧ (∀ n, n < 32 → tget {} n u.host.peerWm = peerEntry bs n) ∧ u.host.joined = h.joined ∧ u = { s with host := u.host })
    ∧ (h.joined = true → partnerPos s = true → h.peerLost = false → late → ∃ u, Machine.exec (.peerHeartbeatTimeout t) s0 = .next u
        ∧ u.host.peerLost = true ∧ u.host.joined = true ∧ u = { s with host := u.host })
    ∧ (h.joined = false ∨ partnerPos s = false ∨ h.peerLost = true ∨ ¬late → Machine.exec (.peerHeartbeatTimeout t) s0 = .next s)
    ∧ (mgmtUp i s = false ∨ farmPos s = false → Machine.exec (.beaconSend t i) s0 = .next s)
    ∧ (mgmtUp i s = true → farmPos s = true → ∃ u f, Machine.exec (.beaconSend t i) s0 = .next u
        ∧ u.host.mgmtSent = (i, f) :: h.mgmtSent ∧ f.length = 70
        ∧ (if i = 0 then u.host.beaconCtrA = (h.beaconCtrA + 1) % 2 ^ 32 ∧ u.host.beaconCtrB = h.beaconCtrB
            else u.host.beaconCtrB = (h.beaconCtrB + 1) % 2 ^ 32 ∧ u.host.beaconCtrA = h.beaconCtrA)
        ∧ u = { s with host := { h with mgmtSent := u.host.mgmtSent, beaconCtrA := u.host.beaconCtrA, beaconCtrB := u.host.beaconCtrB } })
    ∧ (leaseOver s = false →
      (fmFrame i dst 3 16 bs s = false ∨ farmPos s = false → Machine.exec (.lease t i dst bs) s0 = .next s)
      ∧ (fmFrame i dst 3 16 bs s = true → farmPos s = true →
        (h.joined = true → h.jobId = job → h.jobEpoch = epoch → Machine.exec (.lease t i dst bs) s0 = .next renewed)
        ∧ (bit (fieldLe bs 44 1) 0 = true → s.power.fenced = false →
            (h.joined = true ∧ h.jobEpoch < epoch) ∨ (h.joined = false ∧ h.accepted = false) →
            Machine.exec (.lease t i dst bs) s0 = .next renewed)
        ∧ (bit (fieldLe bs 44 1) 0 = false → h.joined = false ∨ h.jobId ≠ job ∨ h.jobEpoch ≠ epoch →
            Machine.exec (.lease t i dst bs) s0 = .next s))
      ∧ Machine.exec (.leaseExpire t) s0 = .next s)
    ∧ (leaseOver s = true → canFence → ∃ u, Machine.exec (.leaseExpire t) s0 = .next u ∧ fenced u 2
        ∧ Machine.exec (.lease t i dst bs) s0 = .next u)
    ∧ (h.joined = true → h.leaseHeld = true → h.renewAt + 2000000000 ≤ s.time.now →
        Machine.exec (.leaseGrace t) s0 = .next { s with host := { h with grace := true } })
    ∧ (h.joined = false ∨ h.leaseHeld = false ∨ s.time.now < h.renewAt + 2000000000 → Machine.exec (.leaseGrace t) s0 = .next s)
    ∧ (fmFrame i dst 4 16 bs s = true → farmPos s = true → h.joined = true → h.jobId = job → canFence →
        ∃ u, Machine.exec (.fenceFrame t i dst bs) s0 = .next u ∧ fenced u 3)
    ∧ (fmFrame i dst 4 16 bs s = false ∨ farmPos s = false ∨ h.joined = false ∨ h.jobId ≠ job →
        Machine.exec (.fenceFrame t i dst bs) s0 = .next s)
    ∧ (fmFrame i dst 6 16 bs s = true → farmPos s = true → s.power.fenced = true → h.lastJob = job →
      (restartRefused s = true → Machine.exec (.restartFrame t i dst bs) s0 = .next { s with host := { h with cmdRej := true } })
      ∧ (restartRefused s = false → ∃ u, Machine.exec (.restartFrame t i dst bs) s0 = .next u ∧ u.power.booted = false
          ∧ u.power.fenced = false ∧ u.sec.stage = 0 ∧ u.sec.boots = (s.sec.boots + 1) % 256 ∧ PinsLow u))
    ∧ (fmFrame i dst 6 16 bs s = false ∨ farmPos s = false ∨ s.power.fenced = false ∨ h.lastJob ≠ job →
        Machine.exec (.restartFrame t i dst bs) s0 = .next s)
    ∧ (fmFrame i dst 5 0 bs s = false → Machine.exec (.wakeFrame t i dst bs) s0 = .next s)
    ∧ (fmFrame i dst 5 0 bs s = true → ∃ u, Machine.exec (.wakeFrame t i dst bs) s0 = .next u
        ∧ (s.power.retainEntry = true → u = { s with power := { s.power with wakePend := true } })
        ∧ (s.power.retainEntry = false → s.power.inRetain = true → u.power.inRetain = false ∧ u.power.retainExit = true
            ∧ u = { s with power := u.power })
        ∧ (s.power.retainEntry = false → s.power.inRetain = false → u = s))
end

