-- ==== Sys2Proof/Laws/State.lean ====
section
/-!
SUPPORT. What each operation on State leaves alone, field by field, so that no proof unfolds a record update.
-/

namespace Sys2Proof.Machine


/-! ### The passage of time -/

@[simp] theorem advanceTo_pending (t : Nat) (s : State) : (advanceTo t s).pending = s.pending := by unfold advanceTo; split <;> rfl
@[simp] theorem advanceTo_power (t : Nat) (s : State) : (advanceTo t s).power = s.power := by unfold advanceTo; split <;> rfl
@[simp] theorem advanceTo_crown (t : Nat) (s : State) : (advanceTo t s).crown = s.crown := by unfold advanceTo; split <;> rfl
@[simp] theorem advanceTo_fault (t : Nat) (s : State) : (advanceTo t s).fault = s.fault := by unfold advanceTo; split <;> rfl
@[simp] theorem advanceTo_led (t : Nat) (s : State) : (advanceTo t s).led = s.led := by unfold advanceTo; split <;> rfl
@[simp] theorem advanceTo_pat (t : Nat) (s : State) : (advanceTo t s).pat = s.pat := by unfold advanceTo; split <;> rfl
@[simp] theorem advanceTo_fab (t : Nat) (s : State) : (advanceTo t s).fab = s.fab := by unfold advanceTo; split <;> rfl
@[simp] theorem advanceTo_ddr (t : Nat) (s : State) : (advanceTo t s).ddr = s.ddr := by unfold advanceTo; split <;> rfl
@[simp] theorem advanceTo_host (t : Nat) (s : State) : (advanceTo t s).host = s.host := by unfold advanceTo; split <;> rfl
@[simp] theorem advanceTo_isl (t : Nat) (s : State) : (advanceTo t s).isl = s.isl := by unfold advanceTo; split <;> rfl
@[simp] theorem advanceTo_loop (t : Nat) (s : State) : (advanceTo t s).loop = s.loop := by unfold advanceTo; split <;> rfl
@[simp] theorem advanceTo_sense (t : Nat) (s : State) : (advanceTo t s).sense = s.sense := by unfold advanceTo; split <;> rfl
@[simp] theorem advanceTo_sec (t : Nat) (s : State) : (advanceTo t s).sec = s.sec := by unfold advanceTo; split <;> rfl
@[simp] theorem advanceTo_scene (t : Nat) (s : State) : (advanceTo t s).scene = s.scene := by unfold advanceTo; split <;> rfl
@[simp] theorem advanceTo_plan (t : Nat) (s : State) : (advanceTo t s).plan = s.plan := by unfold advanceTo; split <;> rfl
@[simp] theorem advanceTo_rate (t : Nat) (s : State) : (advanceTo t s).time.rate = s.time.rate := by unfold advanceTo; split <;> rfl
@[simp] theorem advanceTo_trim (t : Nat) (s : State) : (advanceTo t s).time.trim = s.time.trim := by unfold advanceTo; split <;> rfl
@[simp] theorem advanceTo_trace0 (t : Nat) (s : State) : (advanceTo t s).time.trace0 = s.time.trace0 := by unfold advanceTo; split <;> rfl
@[simp] theorem advanceTo_trace1 (t : Nat) (s : State) : (advanceTo t s).time.trace1 = s.time.trace1 := by unfold advanceTo; split <;> rfl
@[simp] theorem advanceTo_skewed (t : Nat) (s : State) : (advanceTo t s).time.skewed = s.time.skewed := by unfold advanceTo; split <;> rfl
@[simp] theorem advanceTo_agent (t : Nat) (s : State) : (advanceTo t s).time.agent = s.time.agent := by unfold advanceTo; split <;> rfl

theorem advanceTo_now (t : Nat) (s : State) : (advanceTo t s).time.now = max s.time.now t := by
  unfold advanceTo; split
  · omega
  · simp; omega

/-! ### modChan -/

@[simp] theorem modChan_pending (k : Nat) (f : DdrChan → DdrChan) (s : State) : (modChan k f s).pending = s.pending := rfl
@[simp] theorem modChan_time (k : Nat) (f : DdrChan → DdrChan) (s : State) : (modChan k f s).time = s.time := rfl
@[simp] theorem modChan_power (k : Nat) (f : DdrChan → DdrChan) (s : State) : (modChan k f s).power = s.power := rfl
@[simp] theorem modChan_crown (k : Nat) (f : DdrChan → DdrChan) (s : State) : (modChan k f s).crown = s.crown := rfl
@[simp] theorem modChan_fault (k : Nat) (f : DdrChan → DdrChan) (s : State) : (modChan k f s).fault = s.fault := rfl
@[simp] theorem modChan_led (k : Nat) (f : DdrChan → DdrChan) (s : State) : (modChan k f s).led = s.led := rfl
@[simp] theorem modChan_pat (k : Nat) (f : DdrChan → DdrChan) (s : State) : (modChan k f s).pat = s.pat := rfl
@[simp] theorem modChan_fab (k : Nat) (f : DdrChan → DdrChan) (s : State) : (modChan k f s).fab = s.fab := rfl
@[simp] theorem modChan_host (k : Nat) (f : DdrChan → DdrChan) (s : State) : (modChan k f s).host = s.host := rfl
@[simp] theorem modChan_isl (k : Nat) (f : DdrChan → DdrChan) (s : State) : (modChan k f s).isl = s.isl := rfl
@[simp] theorem modChan_loop (k : Nat) (f : DdrChan → DdrChan) (s : State) : (modChan k f s).loop = s.loop := rfl
@[simp] theorem modChan_sense (k : Nat) (f : DdrChan → DdrChan) (s : State) : (modChan k f s).sense = s.sense := rfl
@[simp] theorem modChan_sec (k : Nat) (f : DdrChan → DdrChan) (s : State) : (modChan k f s).sec = s.sec := rfl
@[simp] theorem modChan_scene (k : Nat) (f : DdrChan → DdrChan) (s : State) : (modChan k f s).scene = s.scene := rfl
@[simp] theorem modChan_plan (k : Nat) (f : DdrChan → DdrChan) (s : State) : (modChan k f s).plan = s.plan := rfl

/-! ### modEth -/

@[simp] theorem modEth_pending (k : Nat) (f : EthPort → EthPort) (s : State) : (modEth k f s).pending = s.pending := rfl
@[simp] theorem modEth_time (k : Nat) (f : EthPort → EthPort) (s : State) : (modEth k f s).time = s.time := rfl
@[simp] theorem modEth_power (k : Nat) (f : EthPort → EthPort) (s : State) : (modEth k f s).power = s.power := rfl
@[simp] theorem modEth_crown (k : Nat) (f : EthPort → EthPort) (s : State) : (modEth k f s).crown = s.crown := rfl
@[simp] theorem modEth_fault (k : Nat) (f : EthPort → EthPort) (s : State) : (modEth k f s).fault = s.fault := rfl
@[simp] theorem modEth_led (k : Nat) (f : EthPort → EthPort) (s : State) : (modEth k f s).led = s.led := rfl
@[simp] theorem modEth_pat (k : Nat) (f : EthPort → EthPort) (s : State) : (modEth k f s).pat = s.pat := rfl
@[simp] theorem modEth_fab (k : Nat) (f : EthPort → EthPort) (s : State) : (modEth k f s).fab = s.fab := rfl
@[simp] theorem modEth_ddr (k : Nat) (f : EthPort → EthPort) (s : State) : (modEth k f s).ddr = s.ddr := rfl
@[simp] theorem modEth_isl (k : Nat) (f : EthPort → EthPort) (s : State) : (modEth k f s).isl = s.isl := rfl
@[simp] theorem modEth_loop (k : Nat) (f : EthPort → EthPort) (s : State) : (modEth k f s).loop = s.loop := rfl
@[simp] theorem modEth_sense (k : Nat) (f : EthPort → EthPort) (s : State) : (modEth k f s).sense = s.sense := rfl
@[simp] theorem modEth_sec (k : Nat) (f : EthPort → EthPort) (s : State) : (modEth k f s).sec = s.sec := rfl
@[simp] theorem modEth_scene (k : Nat) (f : EthPort → EthPort) (s : State) : (modEth k f s).scene = s.scene := rfl
@[simp] theorem modEth_plan (k : Nat) (f : EthPort → EthPort) (s : State) : (modEth k f s).plan = s.plan := rfl

/-! ### modSrc -/

@[simp] theorem modSrc_pending (k : Nat) (f : FaultSrc → FaultSrc) (s : State) : (modSrc k f s).pending = s.pending := rfl
@[simp] theorem modSrc_time (k : Nat) (f : FaultSrc → FaultSrc) (s : State) : (modSrc k f s).time = s.time := rfl
@[simp] theorem modSrc_power (k : Nat) (f : FaultSrc → FaultSrc) (s : State) : (modSrc k f s).power = s.power := rfl
@[simp] theorem modSrc_crown (k : Nat) (f : FaultSrc → FaultSrc) (s : State) : (modSrc k f s).crown = s.crown := rfl
@[simp] theorem modSrc_led (k : Nat) (f : FaultSrc → FaultSrc) (s : State) : (modSrc k f s).led = s.led := rfl
@[simp] theorem modSrc_pat (k : Nat) (f : FaultSrc → FaultSrc) (s : State) : (modSrc k f s).pat = s.pat := rfl
@[simp] theorem modSrc_fab (k : Nat) (f : FaultSrc → FaultSrc) (s : State) : (modSrc k f s).fab = s.fab := rfl
@[simp] theorem modSrc_ddr (k : Nat) (f : FaultSrc → FaultSrc) (s : State) : (modSrc k f s).ddr = s.ddr := rfl
@[simp] theorem modSrc_host (k : Nat) (f : FaultSrc → FaultSrc) (s : State) : (modSrc k f s).host = s.host := rfl
@[simp] theorem modSrc_isl (k : Nat) (f : FaultSrc → FaultSrc) (s : State) : (modSrc k f s).isl = s.isl := rfl
@[simp] theorem modSrc_loop (k : Nat) (f : FaultSrc → FaultSrc) (s : State) : (modSrc k f s).loop = s.loop := rfl
@[simp] theorem modSrc_sense (k : Nat) (f : FaultSrc → FaultSrc) (s : State) : (modSrc k f s).sense = s.sense := rfl
@[simp] theorem modSrc_sec (k : Nat) (f : FaultSrc → FaultSrc) (s : State) : (modSrc k f s).sec = s.sec := rfl
@[simp] theorem modSrc_scene (k : Nat) (f : FaultSrc → FaultSrc) (s : State) : (modSrc k f s).scene = s.scene := rfl
@[simp] theorem modSrc_plan (k : Nat) (f : FaultSrc → FaultSrc) (s : State) : (modSrc k f s).plan = s.plan := rfl

/-! ### modSens -/

@[simp] theorem modSens_pending (k : Nat) (f : SensStream → SensStream) (s : State) : (modSens k f s).pending = s.pending := rfl
@[simp] theorem modSens_time (k : Nat) (f : SensStream → SensStream) (s : State) : (modSens k f s).time = s.time := rfl
@[simp] theorem modSens_power (k : Nat) (f : SensStream → SensStream) (s : State) : (modSens k f s).power = s.power := rfl
@[simp] theorem modSens_crown (k : Nat) (f : SensStream → SensStream) (s : State) : (modSens k f s).crown = s.crown := rfl
@[simp] theorem modSens_fault (k : Nat) (f : SensStream → SensStream) (s : State) : (modSens k f s).fault = s.fault := rfl
@[simp] theorem modSens_led (k : Nat) (f : SensStream → SensStream) (s : State) : (modSens k f s).led = s.led := rfl
@[simp] theorem modSens_pat (k : Nat) (f : SensStream → SensStream) (s : State) : (modSens k f s).pat = s.pat := rfl
@[simp] theorem modSens_fab (k : Nat) (f : SensStream → SensStream) (s : State) : (modSens k f s).fab = s.fab := rfl
@[simp] theorem modSens_ddr (k : Nat) (f : SensStream → SensStream) (s : State) : (modSens k f s).ddr = s.ddr := rfl
@[simp] theorem modSens_host (k : Nat) (f : SensStream → SensStream) (s : State) : (modSens k f s).host = s.host := rfl
@[simp] theorem modSens_isl (k : Nat) (f : SensStream → SensStream) (s : State) : (modSens k f s).isl = s.isl := rfl
@[simp] theorem modSens_loop (k : Nat) (f : SensStream → SensStream) (s : State) : (modSens k f s).loop = s.loop := rfl
@[simp] theorem modSens_sec (k : Nat) (f : SensStream → SensStream) (s : State) : (modSens k f s).sec = s.sec := rfl
@[simp] theorem modSens_scene (k : Nat) (f : SensStream → SensStream) (s : State) : (modSens k f s).scene = s.scene := rfl
@[simp] theorem modSens_plan (k : Nat) (f : SensStream → SensStream) (s : State) : (modSens k f s).plan = s.plan := rfl

/-! ### modGroup -/

@[simp] theorem modGroup_pending (k : Nat) (f : FuseGroup → FuseGroup) (s : State) : (modGroup k f s).pending = s.pending := rfl
@[simp] theorem modGroup_time (k : Nat) (f : FuseGroup → FuseGroup) (s : State) : (modGroup k f s).time = s.time := rfl
@[simp] theorem modGroup_power (k : Nat) (f : FuseGroup → FuseGroup) (s : State) : (modGroup k f s).power = s.power := rfl
@[simp] theorem modGroup_crown (k : Nat) (f : FuseGroup → FuseGroup) (s : State) : (modGroup k f s).crown = s.crown := rfl
@[simp] theorem modGroup_fault (k : Nat) (f : FuseGroup → FuseGroup) (s : State) : (modGroup k f s).fault = s.fault := rfl
@[simp] theorem modGroup_led (k : Nat) (f : FuseGroup → FuseGroup) (s : State) : (modGroup k f s).led = s.led := rfl
@[simp] theorem modGroup_pat (k : Nat) (f : FuseGroup → FuseGroup) (s : State) : (modGroup k f s).pat = s.pat := rfl
@[simp] theorem modGroup_fab (k : Nat) (f : FuseGroup → FuseGroup) (s : State) : (modGroup k f s).fab = s.fab := rfl
@[simp] theorem modGroup_ddr (k : Nat) (f : FuseGroup → FuseGroup) (s : State) : (modGroup k f s).ddr = s.ddr := rfl
@[simp] theorem modGroup_host (k : Nat) (f : FuseGroup → FuseGroup) (s : State) : (modGroup k f s).host = s.host := rfl
@[simp] theorem modGroup_isl (k : Nat) (f : FuseGroup → FuseGroup) (s : State) : (modGroup k f s).isl = s.isl := rfl
@[simp] theorem modGroup_loop (k : Nat) (f : FuseGroup → FuseGroup) (s : State) : (modGroup k f s).loop = s.loop := rfl
@[simp] theorem modGroup_sec (k : Nat) (f : FuseGroup → FuseGroup) (s : State) : (modGroup k f s).sec = s.sec := rfl
@[simp] theorem modGroup_scene (k : Nat) (f : FuseGroup → FuseGroup) (s : State) : (modGroup k f s).scene = s.scene := rfl
@[simp] theorem modGroup_plan (k : Nat) (f : FuseGroup → FuseGroup) (s : State) : (modGroup k f s).plan = s.plan := rfl

/-! ### modMitten -/

@[simp] theorem modMitten_pending (k : Nat) (f : Mitten → Mitten) (s : State) : (modMitten k f s).pending = s.pending := rfl
@[simp] theorem modMitten_time (k : Nat) (f : Mitten → Mitten) (s : State) : (modMitten k f s).time = s.time := rfl
@[simp] theorem modMitten_power (k : Nat) (f : Mitten → Mitten) (s : State) : (modMitten k f s).power = s.power := rfl
@[simp] theorem modMitten_crown (k : Nat) (f : Mitten → Mitten) (s : State) : (modMitten k f s).crown = s.crown := rfl
@[simp] theorem modMitten_fault (k : Nat) (f : Mitten → Mitten) (s : State) : (modMitten k f s).fault = s.fault := rfl
@[simp] theorem modMitten_led (k : Nat) (f : Mitten → Mitten) (s : State) : (modMitten k f s).led = s.led := rfl
@[simp] theorem modMitten_pat (k : Nat) (f : Mitten → Mitten) (s : State) : (modMitten k f s).pat = s.pat := rfl
@[simp] theorem modMitten_ddr (k : Nat) (f : Mitten → Mitten) (s : State) : (modMitten k f s).ddr = s.ddr := rfl
@[simp] theorem modMitten_host (k : Nat) (f : Mitten → Mitten) (s : State) : (modMitten k f s).host = s.host := rfl
@[simp] theorem modMitten_isl (k : Nat) (f : Mitten → Mitten) (s : State) : (modMitten k f s).isl = s.isl := rfl
@[simp] theorem modMitten_loop (k : Nat) (f : Mitten → Mitten) (s : State) : (modMitten k f s).loop = s.loop := rfl
@[simp] theorem modMitten_sense (k : Nat) (f : Mitten → Mitten) (s : State) : (modMitten k f s).sense = s.sense := rfl
@[simp] theorem modMitten_sec (k : Nat) (f : Mitten → Mitten) (s : State) : (modMitten k f s).sec = s.sec := rfl
@[simp] theorem modMitten_scene (k : Nat) (f : Mitten → Mitten) (s : State) : (modMitten k f s).scene = s.scene := rfl
@[simp] theorem modMitten_plan (k : Nat) (f : Mitten → Mitten) (s : State) : (modMitten k f s).plan = s.plan := rfl

/-! ### modCheck -/

@[simp] theorem modCheck_pending (k : Nat) (f : Check → Check) (s : State) : (modCheck k f s).pending = s.pending := rfl
@[simp] theorem modCheck_time (k : Nat) (f : Check → Check) (s : State) : (modCheck k f s).time = s.time := rfl
@[simp] theorem modCheck_power (k : Nat) (f : Check → Check) (s : State) : (modCheck k f s).power = s.power := rfl
@[simp] theorem modCheck_crown (k : Nat) (f : Check → Check) (s : State) : (modCheck k f s).crown = s.crown := rfl
@[simp] theorem modCheck_fault (k : Nat) (f : Check → Check) (s : State) : (modCheck k f s).fault = s.fault := rfl
@[simp] theorem modCheck_led (k : Nat) (f : Check → Check) (s : State) : (modCheck k f s).led = s.led := rfl
@[simp] theorem modCheck_pat (k : Nat) (f : Check → Check) (s : State) : (modCheck k f s).pat = s.pat := rfl
@[simp] theorem modCheck_fab (k : Nat) (f : Check → Check) (s : State) : (modCheck k f s).fab = s.fab := rfl
@[simp] theorem modCheck_ddr (k : Nat) (f : Check → Check) (s : State) : (modCheck k f s).ddr = s.ddr := rfl
@[simp] theorem modCheck_host (k : Nat) (f : Check → Check) (s : State) : (modCheck k f s).host = s.host := rfl
@[simp] theorem modCheck_loop (k : Nat) (f : Check → Check) (s : State) : (modCheck k f s).loop = s.loop := rfl
@[simp] theorem modCheck_sense (k : Nat) (f : Check → Check) (s : State) : (modCheck k f s).sense = s.sense := rfl
@[simp] theorem modCheck_sec (k : Nat) (f : Check → Check) (s : State) : (modCheck k f s).sec = s.sec := rfl
@[simp] theorem modCheck_scene (k : Nat) (f : Check → Check) (s : State) : (modCheck k f s).scene = s.scene := rfl
@[simp] theorem modCheck_plan (k : Nat) (f : Check → Check) (s : State) : (modCheck k f s).plan = s.plan := rfl

/-! ### modStrm -/

@[simp] theorem modStrm_pending (k : Nat) (f : Strm → Strm) (s : State) : (modStrm k f s).pending = s.pending := rfl
@[simp] theorem modStrm_time (k : Nat) (f : Strm → Strm) (s : State) : (modStrm k f s).time = s.time := rfl
@[simp] theorem modStrm_power (k : Nat) (f : Strm → Strm) (s : State) : (modStrm k f s).power = s.power := rfl
@[simp] theorem modStrm_crown (k : Nat) (f : Strm → Strm) (s : State) : (modStrm k f s).crown = s.crown := rfl
@[simp] theorem modStrm_fault (k : Nat) (f : Strm → Strm) (s : State) : (modStrm k f s).fault = s.fault := rfl
@[simp] theorem modStrm_pat (k : Nat) (f : Strm → Strm) (s : State) : (modStrm k f s).pat = s.pat := rfl
@[simp] theorem modStrm_fab (k : Nat) (f : Strm → Strm) (s : State) : (modStrm k f s).fab = s.fab := rfl
@[simp] theorem modStrm_ddr (k : Nat) (f : Strm → Strm) (s : State) : (modStrm k f s).ddr = s.ddr := rfl
@[simp] theorem modStrm_host (k : Nat) (f : Strm → Strm) (s : State) : (modStrm k f s).host = s.host := rfl
@[simp] theorem modStrm_isl (k : Nat) (f : Strm → Strm) (s : State) : (modStrm k f s).isl = s.isl := rfl
@[simp] theorem modStrm_loop (k : Nat) (f : Strm → Strm) (s : State) : (modStrm k f s).loop = s.loop := rfl
@[simp] theorem modStrm_sense (k : Nat) (f : Strm → Strm) (s : State) : (modStrm k f s).sense = s.sense := rfl
@[simp] theorem modStrm_sec (k : Nat) (f : Strm → Strm) (s : State) : (modStrm k f s).sec = s.sec := rfl
@[simp] theorem modStrm_scene (k : Nat) (f : Strm → Strm) (s : State) : (modStrm k f s).scene = s.scene := rfl
@[simp] theorem modStrm_plan (k : Nat) (f : Strm → Strm) (s : State) : (modStrm k f s).plan = s.plan := rfl

/-! ### modEdge -/

@[simp] theorem modEdge_pending (k : Nat) (f : Edge → Edge) (s : State) : (modEdge k f s).pending = s.pending := rfl
@[simp] theorem modEdge_time (k : Nat) (f : Edge → Edge) (s : State) : (modEdge k f s).time = s.time := rfl
@[simp] theorem modEdge_power (k : Nat) (f : Edge → Edge) (s : State) : (modEdge k f s).power = s.power := rfl
@[simp] theorem modEdge_crown (k : Nat) (f : Edge → Edge) (s : State) : (modEdge k f s).crown = s.crown := rfl
@[simp] theorem modEdge_fault (k : Nat) (f : Edge → Edge) (s : State) : (modEdge k f s).fault = s.fault := rfl
@[simp] theorem modEdge_led (k : Nat) (f : Edge → Edge) (s : State) : (modEdge k f s).led = s.led := rfl
@[simp] theorem modEdge_pat (k : Nat) (f : Edge → Edge) (s : State) : (modEdge k f s).pat = s.pat := rfl
@[simp] theorem modEdge_ddr (k : Nat) (f : Edge → Edge) (s : State) : (modEdge k f s).ddr = s.ddr := rfl
@[simp] theorem modEdge_host (k : Nat) (f : Edge → Edge) (s : State) : (modEdge k f s).host = s.host := rfl
@[simp] theorem modEdge_isl (k : Nat) (f : Edge → Edge) (s : State) : (modEdge k f s).isl = s.isl := rfl
@[simp] theorem modEdge_loop (k : Nat) (f : Edge → Edge) (s : State) : (modEdge k f s).loop = s.loop := rfl
@[simp] theorem modEdge_sense (k : Nat) (f : Edge → Edge) (s : State) : (modEdge k f s).sense = s.sense := rfl
@[simp] theorem modEdge_sec (k : Nat) (f : Edge → Edge) (s : State) : (modEdge k f s).sec = s.sec := rfl
@[simp] theorem modEdge_scene (k : Nat) (f : Edge → Edge) (s : State) : (modEdge k f s).scene = s.scene := rfl
@[simp] theorem modEdge_plan (k : Nat) (f : Edge → Edge) (s : State) : (modEdge k f s).plan = s.plan := rfl

/-! ### modLoop -/

@[simp] theorem modLoop_pending (k : Nat) (f : LoopSlot → LoopSlot) (s : State) : (modLoop k f s).pending = s.pending := rfl
@[simp] theorem modLoop_time (k : Nat) (f : LoopSlot → LoopSlot) (s : State) : (modLoop k f s).time = s.time := rfl
@[simp] theorem modLoop_power (k : Nat) (f : LoopSlot → LoopSlot) (s : State) : (modLoop k f s).power = s.power := rfl
@[simp] theorem modLoop_crown (k : Nat) (f : LoopSlot → LoopSlot) (s : State) : (modLoop k f s).crown = s.crown := rfl
@[simp] theorem modLoop_fault (k : Nat) (f : LoopSlot → LoopSlot) (s : State) : (modLoop k f s).fault = s.fault := rfl
@[simp] theorem modLoop_led (k : Nat) (f : LoopSlot → LoopSlot) (s : State) : (modLoop k f s).led = s.led := rfl
@[simp] theorem modLoop_pat (k : Nat) (f : LoopSlot → LoopSlot) (s : State) : (modLoop k f s).pat = s.pat := rfl
@[simp] theorem modLoop_fab (k : Nat) (f : LoopSlot → LoopSlot) (s : State) : (modLoop k f s).fab = s.fab := rfl
@[simp] theorem modLoop_ddr (k : Nat) (f : LoopSlot → LoopSlot) (s : State) : (modLoop k f s).ddr = s.ddr := rfl
@[simp] theorem modLoop_host (k : Nat) (f : LoopSlot → LoopSlot) (s : State) : (modLoop k f s).host = s.host := rfl
@[simp] theorem modLoop_isl (k : Nat) (f : LoopSlot → LoopSlot) (s : State) : (modLoop k f s).isl = s.isl := rfl
@[simp] theorem modLoop_sense (k : Nat) (f : LoopSlot → LoopSlot) (s : State) : (modLoop k f s).sense = s.sense := rfl
@[simp] theorem modLoop_sec (k : Nat) (f : LoopSlot → LoopSlot) (s : State) : (modLoop k f s).sec = s.sec := rfl
@[simp] theorem modLoop_scene (k : Nat) (f : LoopSlot → LoopSlot) (s : State) : (modLoop k f s).scene = s.scene := rfl
@[simp] theorem modLoop_plan (k : Nat) (f : LoopSlot → LoopSlot) (s : State) : (modLoop k f s).plan = s.plan := rfl

/-! ### modGates -/

@[simp] theorem modGates_pending (k : Nat) (f : GateCtl → GateCtl) (s : State) : (modGates k f s).pending = s.pending := rfl
@[simp] theorem modGates_time (k : Nat) (f : GateCtl → GateCtl) (s : State) : (modGates k f s).time = s.time := rfl
@[simp] theorem modGates_power (k : Nat) (f : GateCtl → GateCtl) (s : State) : (modGates k f s).power = s.power := rfl
@[simp] theorem modGates_crown (k : Nat) (f : GateCtl → GateCtl) (s : State) : (modGates k f s).crown = s.crown := rfl
@[simp] theorem modGates_fault (k : Nat) (f : GateCtl → GateCtl) (s : State) : (modGates k f s).fault = s.fault := rfl
@[simp] theorem modGates_led (k : Nat) (f : GateCtl → GateCtl) (s : State) : (modGates k f s).led = s.led := rfl
@[simp] theorem modGates_pat (k : Nat) (f : GateCtl → GateCtl) (s : State) : (modGates k f s).pat = s.pat := rfl
@[simp] theorem modGates_fab (k : Nat) (f : GateCtl → GateCtl) (s : State) : (modGates k f s).fab = s.fab := rfl
@[simp] theorem modGates_ddr (k : Nat) (f : GateCtl → GateCtl) (s : State) : (modGates k f s).ddr = s.ddr := rfl
@[simp] theorem modGates_host (k : Nat) (f : GateCtl → GateCtl) (s : State) : (modGates k f s).host = s.host := rfl
@[simp] theorem modGates_isl (k : Nat) (f : GateCtl → GateCtl) (s : State) : (modGates k f s).isl = s.isl := rfl
@[simp] theorem modGates_sense (k : Nat) (f : GateCtl → GateCtl) (s : State) : (modGates k f s).sense = s.sense := rfl
@[simp] theorem modGates_sec (k : Nat) (f : GateCtl → GateCtl) (s : State) : (modGates k f s).sec = s.sec := rfl
@[simp] theorem modGates_scene (k : Nat) (f : GateCtl → GateCtl) (s : State) : (modGates k f s).scene = s.scene := rfl
@[simp] theorem modGates_plan (k : Nat) (f : GateCtl → GateCtl) (s : State) : (modGates k f s).plan = s.plan := rfl

/-! ### modGlove -/

@[simp] theorem modGlove_pending (k : Nat) (f : Glove → Glove) (s : State) : (modGlove k f s).pending = s.pending := rfl
@[simp] theorem modGlove_time (k : Nat) (f : Glove → Glove) (s : State) : (modGlove k f s).time = s.time := rfl
@[simp] theorem modGlove_power (k : Nat) (f : Glove → Glove) (s : State) : (modGlove k f s).power = s.power := rfl
@[simp] theorem modGlove_crown (k : Nat) (f : Glove → Glove) (s : State) : (modGlove k f s).crown = s.crown := rfl
@[simp] theorem modGlove_fault (k : Nat) (f : Glove → Glove) (s : State) : (modGlove k f s).fault = s.fault := rfl
@[simp] theorem modGlove_led (k : Nat) (f : Glove → Glove) (s : State) : (modGlove k f s).led = s.led := rfl
@[simp] theorem modGlove_pat (k : Nat) (f : Glove → Glove) (s : State) : (modGlove k f s).pat = s.pat := rfl
@[simp] theorem modGlove_ddr (k : Nat) (f : Glove → Glove) (s : State) : (modGlove k f s).ddr = s.ddr := rfl
@[simp] theorem modGlove_host (k : Nat) (f : Glove → Glove) (s : State) : (modGlove k f s).host = s.host := rfl
@[simp] theorem modGlove_isl (k : Nat) (f : Glove → Glove) (s : State) : (modGlove k f s).isl = s.isl := rfl
@[simp] theorem modGlove_loop (k : Nat) (f : Glove → Glove) (s : State) : (modGlove k f s).loop = s.loop := rfl
@[simp] theorem modGlove_sense (k : Nat) (f : Glove → Glove) (s : State) : (modGlove k f s).sense = s.sense := rfl
@[simp] theorem modGlove_sec (k : Nat) (f : Glove → Glove) (s : State) : (modGlove k f s).sec = s.sec := rfl
@[simp] theorem modGlove_scene (k : Nat) (f : Glove → Glove) (s : State) : (modGlove k f s).scene = s.scene := rfl
@[simp] theorem modGlove_plan (k : Nat) (f : Glove → Glove) (s : State) : (modGlove k f s).plan = s.plan := rfl

/-! ### modCsi -/

@[simp] theorem modCsi_pending (k : Nat) (f : CsiPort → CsiPort) (s : State) : (modCsi k f s).pending = s.pending := rfl
@[simp] theorem modCsi_time (k : Nat) (f : CsiPort → CsiPort) (s : State) : (modCsi k f s).time = s.time := rfl
@[simp] theorem modCsi_power (k : Nat) (f : CsiPort → CsiPort) (s : State) : (modCsi k f s).power = s.power := rfl
@[simp] theorem modCsi_crown (k : Nat) (f : CsiPort → CsiPort) (s : State) : (modCsi k f s).crown = s.crown := rfl
@[simp] theorem modCsi_fault (k : Nat) (f : CsiPort → CsiPort) (s : State) : (modCsi k f s).fault = s.fault := rfl
@[simp] theorem modCsi_led (k : Nat) (f : CsiPort → CsiPort) (s : State) : (modCsi k f s).led = s.led := rfl
@[simp] theorem modCsi_pat (k : Nat) (f : CsiPort → CsiPort) (s : State) : (modCsi k f s).pat = s.pat := rfl
@[simp] theorem modCsi_fab (k : Nat) (f : CsiPort → CsiPort) (s : State) : (modCsi k f s).fab = s.fab := rfl
@[simp] theorem modCsi_ddr (k : Nat) (f : CsiPort → CsiPort) (s : State) : (modCsi k f s).ddr = s.ddr := rfl
@[simp] theorem modCsi_host (k : Nat) (f : CsiPort → CsiPort) (s : State) : (modCsi k f s).host = s.host := rfl
@[simp] theorem modCsi_isl (k : Nat) (f : CsiPort → CsiPort) (s : State) : (modCsi k f s).isl = s.isl := rfl
@[simp] theorem modCsi_loop (k : Nat) (f : CsiPort → CsiPort) (s : State) : (modCsi k f s).loop = s.loop := rfl
@[simp] theorem modCsi_sec (k : Nat) (f : CsiPort → CsiPort) (s : State) : (modCsi k f s).sec = s.sec := rfl
@[simp] theorem modCsi_scene (k : Nat) (f : CsiPort → CsiPort) (s : State) : (modCsi k f s).scene = s.scene := rfl
@[simp] theorem modCsi_plan (k : Nat) (f : CsiPort → CsiPort) (s : State) : (modCsi k f s).plan = s.plan := rfl

/-! ### modScene -/

@[simp] theorem modScene_pending (k : Nat) (f : SceneMem → SceneMem) (s : State) : (modScene k f s).pending = s.pending := rfl
@[simp] theorem modScene_time (k : Nat) (f : SceneMem → SceneMem) (s : State) : (modScene k f s).time = s.time := rfl
@[simp] theorem modScene_power (k : Nat) (f : SceneMem → SceneMem) (s : State) : (modScene k f s).power = s.power := rfl
@[simp] theorem modScene_crown (k : Nat) (f : SceneMem → SceneMem) (s : State) : (modScene k f s).crown = s.crown := rfl
@[simp] theorem modScene_fault (k : Nat) (f : SceneMem → SceneMem) (s : State) : (modScene k f s).fault = s.fault := rfl
@[simp] theorem modScene_led (k : Nat) (f : SceneMem → SceneMem) (s : State) : (modScene k f s).led = s.led := rfl
@[simp] theorem modScene_pat (k : Nat) (f : SceneMem → SceneMem) (s : State) : (modScene k f s).pat = s.pat := rfl
@[simp] theorem modScene_fab (k : Nat) (f : SceneMem → SceneMem) (s : State) : (modScene k f s).fab = s.fab := rfl
@[simp] theorem modScene_ddr (k : Nat) (f : SceneMem → SceneMem) (s : State) : (modScene k f s).ddr = s.ddr := rfl
@[simp] theorem modScene_host (k : Nat) (f : SceneMem → SceneMem) (s : State) : (modScene k f s).host = s.host := rfl
@[simp] theorem modScene_isl (k : Nat) (f : SceneMem → SceneMem) (s : State) : (modScene k f s).isl = s.isl := rfl
@[simp] theorem modScene_loop (k : Nat) (f : SceneMem → SceneMem) (s : State) : (modScene k f s).loop = s.loop := rfl
@[simp] theorem modScene_sense (k : Nat) (f : SceneMem → SceneMem) (s : State) : (modScene k f s).sense = s.sense := rfl
@[simp] theorem modScene_sec (k : Nat) (f : SceneMem → SceneMem) (s : State) : (modScene k f s).sec = s.sec := rfl
@[simp] theorem modScene_plan (k : Nat) (f : SceneMem → SceneMem) (s : State) : (modScene k f s).plan = s.plan := rfl

/-! ### modPort -/

@[simp] theorem modPort_pending (k : Nat) (f : HostPort → HostPort) (s : State) : (modPort k f s).pending = s.pending := by unfold modPort; split <;> rfl
@[simp] theorem modPort_time (k : Nat) (f : HostPort → HostPort) (s : State) : (modPort k f s).time = s.time := by unfold modPort; split <;> rfl
@[simp] theorem modPort_power (k : Nat) (f : HostPort → HostPort) (s : State) : (modPort k f s).power = s.power := by unfold modPort; split <;> rfl
@[simp] theorem modPort_crown (k : Nat) (f : HostPort → HostPort) (s : State) : (modPort k f s).crown = s.crown := by unfold modPort; split <;> rfl
@[simp] theorem modPort_fault (k : Nat) (f : HostPort → HostPort) (s : State) : (modPort k f s).fault = s.fault := by unfold modPort; split <;> rfl
@[simp] theorem modPort_led (k : Nat) (f : HostPort → HostPort) (s : State) : (modPort k f s).led = s.led := by unfold modPort; split <;> rfl
@[simp] theorem modPort_pat (k : Nat) (f : HostPort → HostPort) (s : State) : (modPort k f s).pat = s.pat := by unfold modPort; split <;> rfl
@[simp] theorem modPort_fab (k : Nat) (f : HostPort → HostPort) (s : State) : (modPort k f s).fab = s.fab := by unfold modPort; split <;> rfl
@[simp] theorem modPort_ddr (k : Nat) (f : HostPort → HostPort) (s : State) : (modPort k f s).ddr = s.ddr := by unfold modPort; split <;> rfl
@[simp] theorem modPort_isl (k : Nat) (f : HostPort → HostPort) (s : State) : (modPort k f s).isl = s.isl := by unfold modPort; split <;> rfl
@[simp] theorem modPort_loop (k : Nat) (f : HostPort → HostPort) (s : State) : (modPort k f s).loop = s.loop := by unfold modPort; split <;> rfl
@[simp] theorem modPort_sense (k : Nat) (f : HostPort → HostPort) (s : State) : (modPort k f s).sense = s.sense := by unfold modPort; split <;> rfl
@[simp] theorem modPort_sec (k : Nat) (f : HostPort → HostPort) (s : State) : (modPort k f s).sec = s.sec := by unfold modPort; split <;> rfl
@[simp] theorem modPort_scene (k : Nat) (f : HostPort → HostPort) (s : State) : (modPort k f s).scene = s.scene := by unfold modPort; split <;> rfl
@[simp] theorem modPort_plan (k : Nat) (f : HostPort → HostPort) (s : State) : (modPort k f s).plan = s.plan := by unfold modPort; split <;> rfl

/-! ### modColl -/

@[simp] theorem modColl_pending (k : Nat) (f : Collector → Collector) (s : State) : (modColl k f s).pending = s.pending := by unfold modColl; split <;> rfl
@[simp] theorem modColl_time (k : Nat) (f : Collector → Collector) (s : State) : (modColl k f s).time = s.time := by unfold modColl; split <;> rfl
@[simp] theorem modColl_power (k : Nat) (f : Collector → Collector) (s : State) : (modColl k f s).power = s.power := by unfold modColl; split <;> rfl
@[simp] theorem modColl_crown (k : Nat) (f : Collector → Collector) (s : State) : (modColl k f s).crown = s.crown := by unfold modColl; split <;> rfl
@[simp] theorem modColl_led (k : Nat) (f : Collector → Collector) (s : State) : (modColl k f s).led = s.led := by unfold modColl; split <;> rfl
@[simp] theorem modColl_pat (k : Nat) (f : Collector → Collector) (s : State) : (modColl k f s).pat = s.pat := by unfold modColl; split <;> rfl
@[simp] theorem modColl_fab (k : Nat) (f : Collector → Collector) (s : State) : (modColl k f s).fab = s.fab := by unfold modColl; split <;> rfl
@[simp] theorem modColl_ddr (k : Nat) (f : Collector → Collector) (s : State) : (modColl k f s).ddr = s.ddr := by unfold modColl; split <;> rfl
@[simp] theorem modColl_host (k : Nat) (f : Collector → Collector) (s : State) : (modColl k f s).host = s.host := by unfold modColl; split <;> rfl
@[simp] theorem modColl_isl (k : Nat) (f : Collector → Collector) (s : State) : (modColl k f s).isl = s.isl := by unfold modColl; split <;> rfl
@[simp] theorem modColl_loop (k : Nat) (f : Collector → Collector) (s : State) : (modColl k f s).loop = s.loop := by unfold modColl; split <;> rfl
@[simp] theorem modColl_sense (k : Nat) (f : Collector → Collector) (s : State) : (modColl k f s).sense = s.sense := by unfold modColl; split <;> rfl
@[simp] theorem modColl_sec (k : Nat) (f : Collector → Collector) (s : State) : (modColl k f s).sec = s.sec := by unfold modColl; split <;> rfl
@[simp] theorem modColl_scene (k : Nat) (f : Collector → Collector) (s : State) : (modColl k f s).scene = s.scene := by unfold modColl; split <;> rfl
@[simp] theorem modColl_plan (k : Nat) (f : Collector → Collector) (s : State) : (modColl k f s).plan = s.plan := by unfold modColl; split <;> rfl

/-! ### modIsland -/

@[simp] theorem modIsland_pending (k : Nat) (f : Island → Island) (s : State) : (modIsland k f s).pending = s.pending := by unfold modIsland; split <;> rfl
@[simp] theorem modIsland_time (k : Nat) (f : Island → Island) (s : State) : (modIsland k f s).time = s.time := by unfold modIsland; split <;> rfl
@[simp] theorem modIsland_power (k : Nat) (f : Island → Island) (s : State) : (modIsland k f s).power = s.power := by unfold modIsland; split <;> rfl
@[simp] theorem modIsland_crown (k : Nat) (f : Island → Island) (s : State) : (modIsland k f s).crown = s.crown := by unfold modIsland; split <;> rfl
@[simp] theorem modIsland_fault (k : Nat) (f : Island → Island) (s : State) : (modIsland k f s).fault = s.fault := by unfold modIsland; split <;> rfl
@[simp] theorem modIsland_led (k : Nat) (f : Island → Island) (s : State) : (modIsland k f s).led = s.led := by unfold modIsland; split <;> rfl
@[simp] theorem modIsland_pat (k : Nat) (f : Island → Island) (s : State) : (modIsland k f s).pat = s.pat := by unfold modIsland; split <;> rfl
@[simp] theorem modIsland_fab (k : Nat) (f : Island → Island) (s : State) : (modIsland k f s).fab = s.fab := by unfold modIsland; split <;> rfl
@[simp] theorem modIsland_ddr (k : Nat) (f : Island → Island) (s : State) : (modIsland k f s).ddr = s.ddr := by unfold modIsland; split <;> rfl
@[simp] theorem modIsland_host (k : Nat) (f : Island → Island) (s : State) : (modIsland k f s).host = s.host := by unfold modIsland; split <;> rfl
@[simp] theorem modIsland_loop (k : Nat) (f : Island → Island) (s : State) : (modIsland k f s).loop = s.loop := by unfold modIsland; split <;> rfl
@[simp] theorem modIsland_sense (k : Nat) (f : Island → Island) (s : State) : (modIsland k f s).sense = s.sense := by unfold modIsland; split <;> rfl
@[simp] theorem modIsland_sec (k : Nat) (f : Island → Island) (s : State) : (modIsland k f s).sec = s.sec := by unfold modIsland; split <;> rfl
@[simp] theorem modIsland_scene (k : Nat) (f : Island → Island) (s : State) : (modIsland k f s).scene = s.scene := by unfold modIsland; split <;> rfl
@[simp] theorem modIsland_plan (k : Nat) (f : Island → Island) (s : State) : (modIsland k f s).plan = s.plan := by unfold modIsland; split <;> rfl

/-! ### modPdie -/

@[simp] theorem modPdie_pending (k : Nat) (f : PlanDie → PlanDie) (s : State) : (modPdie k f s).pending = s.pending := by unfold modPdie; split <;> rfl
@[simp] theorem modPdie_time (k : Nat) (f : PlanDie → PlanDie) (s : State) : (modPdie k f s).time = s.time := by unfold modPdie; split <;> rfl
@[simp] theorem modPdie_power (k : Nat) (f : PlanDie → PlanDie) (s : State) : (modPdie k f s).power = s.power := by unfold modPdie; split <;> rfl
@[simp] theorem modPdie_crown (k : Nat) (f : PlanDie → PlanDie) (s : State) : (modPdie k f s).crown = s.crown := by unfold modPdie; split <;> rfl
@[simp] theorem modPdie_fault (k : Nat) (f : PlanDie → PlanDie) (s : State) : (modPdie k f s).fault = s.fault := by unfold modPdie; split <;> rfl
@[simp] theorem modPdie_led (k : Nat) (f : PlanDie → PlanDie) (s : State) : (modPdie k f s).led = s.led := by unfold modPdie; split <;> rfl
@[simp] theorem modPdie_pat (k : Nat) (f : PlanDie → PlanDie) (s : State) : (modPdie k f s).pat = s.pat := by unfold modPdie; split <;> rfl
@[simp] theorem modPdie_fab (k : Nat) (f : PlanDie → PlanDie) (s : State) : (modPdie k f s).fab = s.fab := by unfold modPdie; split <;> rfl
@[simp] theorem modPdie_ddr (k : Nat) (f : PlanDie → PlanDie) (s : State) : (modPdie k f s).ddr = s.ddr := by unfold modPdie; split <;> rfl
@[simp] theorem modPdie_host (k : Nat) (f : PlanDie → PlanDie) (s : State) : (modPdie k f s).host = s.host := by unfold modPdie; split <;> rfl
@[simp] theorem modPdie_isl (k : Nat) (f : PlanDie → PlanDie) (s : State) : (modPdie k f s).isl = s.isl := by unfold modPdie; split <;> rfl
@[simp] theorem modPdie_loop (k : Nat) (f : PlanDie → PlanDie) (s : State) : (modPdie k f s).loop = s.loop := by unfold modPdie; split <;> rfl
@[simp] theorem modPdie_sense (k : Nat) (f : PlanDie → PlanDie) (s : State) : (modPdie k f s).sense = s.sense := by unfold modPdie; split <;> rfl
@[simp] theorem modPdie_sec (k : Nat) (f : PlanDie → PlanDie) (s : State) : (modPdie k f s).sec = s.sec := by unfold modPdie; split <;> rfl
@[simp] theorem modPdie_scene (k : Nat) (f : PlanDie → PlanDie) (s : State) : (modPdie k f s).scene = s.scene := by unfold modPdie; split <;> rfl

/-! ### modFlash -/

@[simp] theorem modFlash_pending (k : Nat) (f : Flash → Flash) (s : State) : (modFlash k f s).pending = s.pending := by unfold modFlash; split <;> rfl
@[simp] theorem modFlash_time (k : Nat) (f : Flash → Flash) (s : State) : (modFlash k f s).time = s.time := by unfold modFlash; split <;> rfl
@[simp] theorem modFlash_power (k : Nat) (f : Flash → Flash) (s : State) : (modFlash k f s).power = s.power := by unfold modFlash; split <;> rfl
@[simp] theorem modFlash_crown (k : Nat) (f : Flash → Flash) (s : State) : (modFlash k f s).crown = s.crown := by unfold modFlash; split <;> rfl
@[simp] theorem modFlash_fault (k : Nat) (f : Flash → Flash) (s : State) : (modFlash k f s).fault = s.fault := by unfold modFlash; split <;> rfl
@[simp] theorem modFlash_led (k : Nat) (f : Flash → Flash) (s : State) : (modFlash k f s).led = s.led := by unfold modFlash; split <;> rfl
@[simp] theorem modFlash_pat (k : Nat) (f : Flash → Flash) (s : State) : (modFlash k f s).pat = s.pat := by unfold modFlash; split <;> rfl
@[simp] theorem modFlash_fab (k : Nat) (f : Flash → Flash) (s : State) : (modFlash k f s).fab = s.fab := by unfold modFlash; split <;> rfl
@[simp] theorem modFlash_ddr (k : Nat) (f : Flash → Flash) (s : State) : (modFlash k f s).ddr = s.ddr := by unfold modFlash; split <;> rfl
@[simp] theorem modFlash_host (k : Nat) (f : Flash → Flash) (s : State) : (modFlash k f s).host = s.host := by unfold modFlash; split <;> rfl
@[simp] theorem modFlash_isl (k : Nat) (f : Flash → Flash) (s : State) : (modFlash k f s).isl = s.isl := by unfold modFlash; split <;> rfl
@[simp] theorem modFlash_loop (k : Nat) (f : Flash → Flash) (s : State) : (modFlash k f s).loop = s.loop := by unfold modFlash; split <;> rfl
@[simp] theorem modFlash_sense (k : Nat) (f : Flash → Flash) (s : State) : (modFlash k f s).sense = s.sense := by unfold modFlash; split <;> rfl
@[simp] theorem modFlash_scene (k : Nat) (f : Flash → Flash) (s : State) : (modFlash k f s).scene = s.scene := by unfold modFlash; split <;> rfl
@[simp] theorem modFlash_plan (k : Nat) (f : Flash → Flash) (s : State) : (modFlash k f s).plan = s.plan := by unfold modFlash; split <;> rfl

/-! ### setTrace -/

@[simp] theorem setTrace_pending (d : Nat) (u : TraceUnit) (s : State) : (setTrace d u s).pending = s.pending := by unfold setTrace; split <;> rfl
@[simp] theorem setTrace_power (d : Nat) (u : TraceUnit) (s : State) : (setTrace d u s).power = s.power := by unfold setTrace; split <;> rfl
@[simp] theorem setTrace_crown (d : Nat) (u : TraceUnit) (s : State) : (setTrace d u s).crown = s.crown := by unfold setTrace; split <;> rfl
@[simp] theorem setTrace_fault (d : Nat) (u : TraceUnit) (s : State) : (setTrace d u s).fault = s.fault := by unfold setTrace; split <;> rfl
@[simp] theorem setTrace_led (d : Nat) (u : TraceUnit) (s : State) : (setTrace d u s).led = s.led := by unfold setTrace; split <;> rfl
@[simp] theorem setTrace_pat (d : Nat) (u : TraceUnit) (s : State) : (setTrace d u s).pat = s.pat := by unfold setTrace; split <;> rfl
@[simp] theorem setTrace_fab (d : Nat) (u : TraceUnit) (s : State) : (setTrace d u s).fab = s.fab := by unfold setTrace; split <;> rfl
@[simp] theorem setTrace_ddr (d : Nat) (u : TraceUnit) (s : State) : (setTrace d u s).ddr = s.ddr := by unfold setTrace; split <;> rfl
@[simp] theorem setTrace_host (d : Nat) (u : TraceUnit) (s : State) : (setTrace d u s).host = s.host := by unfold setTrace; split <;> rfl
@[simp] theorem setTrace_isl (d : Nat) (u : TraceUnit) (s : State) : (setTrace d u s).isl = s.isl := by unfold setTrace; split <;> rfl
@[simp] theorem setTrace_loop (d : Nat) (u : TraceUnit) (s : State) : (setTrace d u s).loop = s.loop := by unfold setTrace; split <;> rfl
@[simp] theorem setTrace_sense (d : Nat) (u : TraceUnit) (s : State) : (setTrace d u s).sense = s.sense := by unfold setTrace; split <;> rfl
@[simp] theorem setTrace_sec (d : Nat) (u : TraceUnit) (s : State) : (setTrace d u s).sec = s.sec := by unfold setTrace; split <;> rfl
@[simp] theorem setTrace_scene (d : Nat) (u : TraceUnit) (s : State) : (setTrace d u s).scene = s.scene := by unfold setTrace; split <;> rfl
@[simp] theorem setTrace_plan (d : Nat) (u : TraceUnit) (s : State) : (setTrace d u s).plan = s.plan := by unfold setTrace; split <;> rfl

/-! ### modEngine -/

@[simp] theorem modEngine_pending (e : Nat) (f : SeamEngine → SeamEngine) (s : State) : (modEngine e f s).pending = s.pending := by unfold modEngine; (repeat' split) <;> rfl
@[simp] theorem modEngine_time (e : Nat) (f : SeamEngine → SeamEngine) (s : State) : (modEngine e f s).time = s.time := by unfold modEngine; (repeat' split) <;> rfl
@[simp] theorem modEngine_power (e : Nat) (f : SeamEngine → SeamEngine) (s : State) : (modEngine e f s).power = s.power := by unfold modEngine; (repeat' split) <;> rfl
@[simp] theorem modEngine_crown (e : Nat) (f : SeamEngine → SeamEngine) (s : State) : (modEngine e f s).crown = s.crown := by unfold modEngine; (repeat' split) <;> rfl
@[simp] theorem modEngine_fault (e : Nat) (f : SeamEngine → SeamEngine) (s : State) : (modEngine e f s).fault = s.fault := by unfold modEngine; (repeat' split) <;> rfl
@[simp] theorem modEngine_led (e : Nat) (f : SeamEngine → SeamEngine) (s : State) : (modEngine e f s).led = s.led := by unfold modEngine; (repeat' split) <;> rfl
@[simp] theorem modEngine_fab (e : Nat) (f : SeamEngine → SeamEngine) (s : State) : (modEngine e f s).fab = s.fab := by unfold modEngine; (repeat' split) <;> rfl
@[simp] theorem modEngine_ddr (e : Nat) (f : SeamEngine → SeamEngine) (s : State) : (modEngine e f s).ddr = s.ddr := by unfold modEngine; (repeat' split) <;> rfl
@[simp] theorem modEngine_host (e : Nat) (f : SeamEngine → SeamEngine) (s : State) : (modEngine e f s).host = s.host := by unfold modEngine; (repeat' split) <;> rfl
@[simp] theorem modEngine_isl (e : Nat) (f : SeamEngine → SeamEngine) (s : State) : (modEngine e f s).isl = s.isl := by unfold modEngine; (repeat' split) <;> rfl
@[simp] theorem modEngine_loop (e : Nat) (f : SeamEngine → SeamEngine) (s : State) : (modEngine e f s).loop = s.loop := by unfold modEngine; (repeat' split) <;> rfl
@[simp] theorem modEngine_sense (e : Nat) (f : SeamEngine → SeamEngine) (s : State) : (modEngine e f s).sense = s.sense := by unfold modEngine; (repeat' split) <;> rfl
@[simp] theorem modEngine_sec (e : Nat) (f : SeamEngine → SeamEngine) (s : State) : (modEngine e f s).sec = s.sec := by unfold modEngine; (repeat' split) <;> rfl
@[simp] theorem modEngine_scene (e : Nat) (f : SeamEngine → SeamEngine) (s : State) : (modEngine e f s).scene = s.scene := by unfold modEngine; (repeat' split) <;> rfl
@[simp] theorem modEngine_plan (e : Nat) (f : SeamEngine → SeamEngine) (s : State) : (modEngine e f s).plan = s.plan := by unfold modEngine; (repeat' split) <;> rfl

/-! ### modEvt -/

@[simp] theorem modEvt_pending (d : Nat) (f : EvtRing → EvtRing) (s : State) : (modEvt d f s).pending = s.pending := by unfold modEvt; split <;> rfl
@[simp] theorem modEvt_time (d : Nat) (f : EvtRing → EvtRing) (s : State) : (modEvt d f s).time = s.time := by unfold modEvt; split <;> rfl
@[simp] theorem modEvt_power (d : Nat) (f : EvtRing → EvtRing) (s : State) : (modEvt d f s).power = s.power := by unfold modEvt; split <;> rfl
@[simp] theorem modEvt_crown (d : Nat) (f : EvtRing → EvtRing) (s : State) : (modEvt d f s).crown = s.crown := by unfold modEvt; split <;> rfl
@[simp] theorem modEvt_fault (d : Nat) (f : EvtRing → EvtRing) (s : State) : (modEvt d f s).fault = s.fault := by unfold modEvt; split <;> rfl
@[simp] theorem modEvt_led (d : Nat) (f : EvtRing → EvtRing) (s : State) : (modEvt d f s).led = s.led := by unfold modEvt; split <;> rfl
@[simp] theorem modEvt_pat (d : Nat) (f : EvtRing → EvtRing) (s : State) : (modEvt d f s).pat = s.pat := by unfold modEvt; split <;> rfl
@[simp] theorem modEvt_fab (d : Nat) (f : EvtRing → EvtRing) (s : State) : (modEvt d f s).fab = s.fab := by unfold modEvt; split <;> rfl
@[simp] theorem modEvt_ddr (d : Nat) (f : EvtRing → EvtRing) (s : State) : (modEvt d f s).ddr = s.ddr := by unfold modEvt; split <;> rfl
@[simp] theorem modEvt_host (d : Nat) (f : EvtRing → EvtRing) (s : State) : (modEvt d f s).host = s.host := by unfold modEvt; split <;> rfl
@[simp] theorem modEvt_isl (d : Nat) (f : EvtRing → EvtRing) (s : State) : (modEvt d f s).isl = s.isl := by unfold modEvt; split <;> rfl
@[simp] theorem modEvt_loop (d : Nat) (f : EvtRing → EvtRing) (s : State) : (modEvt d f s).loop = s.loop := by unfold modEvt; split <;> rfl
@[simp] theorem modEvt_sec (d : Nat) (f : EvtRing → EvtRing) (s : State) : (modEvt d f s).sec = s.sec := by unfold modEvt; split <;> rfl
@[simp] theorem modEvt_scene (d : Nat) (f : EvtRing → EvtRing) (s : State) : (modEvt d f s).scene = s.scene := by unfold modEvt; split <;> rfl
@[simp] theorem modEvt_plan (d : Nat) (f : EvtRing → EvtRing) (s : State) : (modEvt d f s).plan = s.plan := by unfold modEvt; split <;> rfl

/-! ### modStores -/

@[simp] theorem modStores_pending (f : KeyStore → KeyStore) (s : State) : (modStores f s).pending = s.pending := rfl
@[simp] theorem modStores_time (f : KeyStore → KeyStore) (s : State) : (modStores f s).time = s.time := rfl
@[simp] theorem modStores_power (f : KeyStore → KeyStore) (s : State) : (modStores f s).power = s.power := rfl
@[simp] theorem modStores_crown (f : KeyStore → KeyStore) (s : State) : (modStores f s).crown = s.crown := rfl
@[simp] theorem modStores_fault (f : KeyStore → KeyStore) (s : State) : (modStores f s).fault = s.fault := rfl
@[simp] theorem modStores_led (f : KeyStore → KeyStore) (s : State) : (modStores f s).led = s.led := rfl
@[simp] theorem modStores_pat (f : KeyStore → KeyStore) (s : State) : (modStores f s).pat = s.pat := rfl
@[simp] theorem modStores_fab (f : KeyStore → KeyStore) (s : State) : (modStores f s).fab = s.fab := rfl
@[simp] theorem modStores_ddr (f : KeyStore → KeyStore) (s : State) : (modStores f s).ddr = s.ddr := rfl
@[simp] theorem modStores_host (f : KeyStore → KeyStore) (s : State) : (modStores f s).host = s.host := rfl
@[simp] theorem modStores_isl (f : KeyStore → KeyStore) (s : State) : (modStores f s).isl = s.isl := rfl
@[simp] theorem modStores_loop (f : KeyStore → KeyStore) (s : State) : (modStores f s).loop = s.loop := rfl
@[simp] theorem modStores_sense (f : KeyStore → KeyStore) (s : State) : (modStores f s).sense = s.sense := rfl
@[simp] theorem modStores_scene (f : KeyStore → KeyStore) (s : State) : (modStores f s).scene = s.scene := rfl
@[simp] theorem modStores_plan (f : KeyStore → KeyStore) (s : State) : (modStores f s).plan = s.plan := rfl

/-! ### modPat and modCrown -/

@[simp] theorem modPat_pending (f : PatternState → PatternState) (s : State) : (modPat f s).pending = s.pending := rfl
@[simp] theorem modCrown_pending (f : CrownState → CrownState) (s : State) : (modCrown f s).pending = s.pending := rfl
@[simp] theorem modPat_time (f : PatternState → PatternState) (s : State) : (modPat f s).time = s.time := rfl
@[simp] theorem modCrown_time (f : CrownState → CrownState) (s : State) : (modCrown f s).time = s.time := rfl
@[simp] theorem modPat_power (f : PatternState → PatternState) (s : State) : (modPat f s).power = s.power := rfl
@[simp] theorem modCrown_power (f : CrownState → CrownState) (s : State) : (modCrown f s).power = s.power := rfl
@[simp] theorem modPat_crown (f : PatternState → PatternState) (s : State) : (modPat f s).crown = s.crown := rfl
@[simp] theorem modPat_fault (f : PatternState → PatternState) (s : State) : (modPat f s).fault = s.fault := rfl
@[simp] theorem modCrown_fault (f : CrownState → CrownState) (s : State) : (modCrown f s).fault = s.fault := rfl
@[simp] theorem modPat_led (f : PatternState → PatternState) (s : State) : (modPat f s).led = s.led := rfl
@[simp] theorem modCrown_led (f : CrownState → CrownState) (s : State) : (modCrown f s).led = s.led := rfl
@[simp] theorem modCrown_pat (f : CrownState → CrownState) (s : State) : (modCrown f s).pat = s.pat := rfl
@[simp] theorem modPat_fab (f : PatternState → PatternState) (s : State) : (modPat f s).fab = s.fab := rfl
@[simp] theorem modCrown_fab (f : CrownState → CrownState) (s : State) : (modCrown f s).fab = s.fab := rfl
@[simp] theorem modPat_ddr (f : PatternState → PatternState) (s : State) : (modPat f s).ddr = s.ddr := rfl
@[simp] theorem modCrown_ddr (f : CrownState → CrownState) (s : State) : (modCrown f s).ddr = s.ddr := rfl
@[simp] theorem modPat_host (f : PatternState → PatternState) (s : State) : (modPat f s).host = s.host := rfl
@[simp] theorem modCrown_host (f : CrownState → CrownState) (s : State) : (modCrown f s).host = s.host := rfl
@[simp] theorem modPat_isl (f : PatternState → PatternState) (s : State) : (modPat f s).isl = s.isl := rfl
@[simp] theorem modCrown_isl (f : CrownState → CrownState) (s : State) : (modCrown f s).isl = s.isl := rfl
@[simp] theorem modPat_loop (f : PatternState → PatternState) (s : State) : (modPat f s).loop = s.loop := rfl
@[simp] theorem modCrown_loop (f : CrownState → CrownState) (s : State) : (modCrown f s).loop = s.loop := rfl
@[simp] theorem modPat_sense (f : PatternState → PatternState) (s : State) : (modPat f s).sense = s.sense := rfl
@[simp] theorem modCrown_sense (f : CrownState → CrownState) (s : State) : (modCrown f s).sense = s.sense := rfl
@[simp] theorem modPat_sec (f : PatternState → PatternState) (s : State) : (modPat f s).sec = s.sec := rfl
@[simp] theorem modCrown_sec (f : CrownState → CrownState) (s : State) : (modCrown f s).sec = s.sec := rfl
@[simp] theorem modPat_scene (f : PatternState → PatternState) (s : State) : (modPat f s).scene = s.scene := rfl
@[simp] theorem modCrown_scene (f : CrownState → CrownState) (s : State) : (modCrown f s).scene = s.scene := rfl
@[simp] theorem modPat_plan (f : PatternState → PatternState) (s : State) : (modPat f s).plan = s.plan := rfl
@[simp] theorem modCrown_plan (f : CrownState → CrownState) (s : State) : (modCrown f s).plan = s.plan := rfl
@[simp] theorem modPat_pat (f : PatternState → PatternState) (s : State) : (modPat f s).pat = f s.pat := rfl
@[simp] theorem modCrown_crown (f : CrownState → CrownState) (s : State) : (modCrown f s).crown = f s.crown := rfl

/-! ### latch and settle -/

@[simp] theorem latch_pending (id d : Nat) (s : State) : (latch id d s).pending = s.pending := rfl
@[simp] theorem latch_time (id d : Nat) (s : State) : (latch id d s).time = s.time := rfl
@[simp] theorem latch_power (id d : Nat) (s : State) : (latch id d s).power = s.power := rfl
@[simp] theorem latch_crown (id d : Nat) (s : State) : (latch id d s).crown = s.crown := rfl
@[simp] theorem latch_led (id d : Nat) (s : State) : (latch id d s).led = s.led := rfl
@[simp] theorem latch_pat (id d : Nat) (s : State) : (latch id d s).pat = s.pat := rfl
@[simp] theorem latch_fab (id d : Nat) (s : State) : (latch id d s).fab = s.fab := rfl
@[simp] theorem latch_ddr (id d : Nat) (s : State) : (latch id d s).ddr = s.ddr := rfl
@[simp] theorem latch_host (id d : Nat) (s : State) : (latch id d s).host = s.host := rfl
@[simp] theorem latch_isl (id d : Nat) (s : State) : (latch id d s).isl = s.isl := rfl
@[simp] theorem latch_loop (id d : Nat) (s : State) : (latch id d s).loop = s.loop := rfl
@[simp] theorem latch_sense (id d : Nat) (s : State) : (latch id d s).sense = s.sense := rfl
@[simp] theorem latch_sec (id d : Nat) (s : State) : (latch id d s).sec = s.sec := rfl
@[simp] theorem latch_scene (id d : Nat) (s : State) : (latch id d s).scene = s.scene := rfl
@[simp] theorem latch_plan (id d : Nat) (s : State) : (latch id d s).plan = s.plan := rfl
@[simp] theorem settle_pending (s : State) : (settle s).pending = s.pending := by unfold settle; dsimp only; split <;> rfl
@[simp] theorem settle_time (s : State) : (settle s).time = s.time := by unfold settle; dsimp only; split <;> rfl
@[simp] theorem settle_crown (s : State) : (settle s).crown = s.crown := by unfold settle; dsimp only; split <;> rfl
@[simp] theorem settle_fault (s : State) : (settle s).fault = s.fault := by unfold settle; dsimp only; split <;> rfl
@[simp] theorem settle_led (s : State) : (settle s).led = s.led := by unfold settle; dsimp only; split <;> rfl
@[simp] theorem settle_pat (s : State) : (settle s).pat = s.pat := by unfold settle; dsimp only; split <;> rfl
@[simp] theorem settle_fab (s : State) : (settle s).fab = s.fab := by unfold settle; dsimp only; split <;> rfl
@[simp] theorem settle_ddr (s : State) : (settle s).ddr = s.ddr := by unfold settle; dsimp only; split <;> rfl
@[simp] theorem settle_host (s : State) : (settle s).host = s.host := by unfold settle; dsimp only; split <;> rfl
@[simp] theorem settle_isl (s : State) : (settle s).isl = s.isl := by unfold settle; dsimp only; split <;> rfl
@[simp] theorem settle_loop (s : State) : (settle s).loop = s.loop := by unfold settle; dsimp only; split <;> rfl
@[simp] theorem settle_sense (s : State) : (settle s).sense = s.sense := by unfold settle; dsimp only; split <;> rfl
@[simp] theorem settle_sec (s : State) : (settle s).sec = s.sec := by unfold settle; dsimp only; split <;> rfl
@[simp] theorem settle_scene (s : State) : (settle s).scene = s.scene := by unfold settle; dsimp only; split <;> rfl
@[simp] theorem settle_plan (s : State) : (settle s).plan = s.plan := by unfold settle; dsimp only; split <;> rfl

end Sys2Proof.Machine
end

