-- ==== Sys2Proof/Laws/Tbl.lean ====
section
/-! SUPPORT. Tables and byte memories: a read after a write, what a write leaves alone, and that every operation keeps
the canonical form. -/

namespace Sys2Proof.Machine

variable {α : Type}

/-! ### Reads after writes -/

theorem tget_tinsert (d : α) (k j : Nat) (v : α) (t : Tbl α) :
    tget d j (tinsert k v t) = if j = k then v else tget d j t := by
  induction t with
  | nil => by_cases h : j = k <;> simp [tinsert, tget, h, Ne.symm]
  | cons e r ih =>
    obtain ⟨a, w⟩ := e
    unfold tinsert
    split
    · simp only [tget, ih]; split <;> split <;> first | rfl | omega
    · split <;> simp only [tget] <;> (repeat' split) <;> first | rfl | omega

theorem tget_terase (d : α) (k j : Nat) (t : Tbl α) :
    tget d j (terase k t) = if j = k then d else tget d j t := by
  induction t with
  | nil => simp [terase, tget]
  | cons e r ih =>
    obtain ⟨a, w⟩ := e
    unfold terase
    split <;> simp only [tget, ih] <;> (repeat' split) <;> first | rfl | omega

/-- Reading a table after a write: the written instance has the new record, every other keeps its own. -/
theorem tget_tset [DecidableEq α] (d : α) (k j : Nat) (v : α) (t : Tbl α) :
    tget d j (tset d k v t) = if j = k then v else tget d j t := by
  unfold tset
  split
  · next h => rw [tget_terase, h]
  · rw [tget_tinsert]

@[simp] theorem tget_tset_same [DecidableEq α] (d : α) (k : Nat) (v : α) (t : Tbl α) :
    tget d k (tset d k v t) = v := by rw [tget_tset, if_pos rfl]

theorem tget_tset_ne [DecidableEq α] (d : α) {k j : Nat} (v : α) (t : Tbl α) (h : j ≠ k) :
    tget d j (tset d k v t) = tget d j t := by rw [tget_tset, if_neg h]

@[simp] theorem tget_tmod_same [DecidableEq α] (d : α) (k : Nat) (f : α → α) (t : Tbl α) :
    tget d k (tmod d k f t) = f (tget d k t) := by rw [tmod, tget_tset_same]

theorem tget_tmod_ne [DecidableEq α] (d : α) {k j : Nat} (f : α → α) (t : Tbl α) (h : j ≠ k) :
    tget d j (tmod d k f t) = tget d j t := by rw [tmod, tget_tset_ne _ _ _ h]

theorem tget_tmod [DecidableEq α] (d : α) (k j : Nat) (f : α → α) (t : Tbl α) :
    tget d j (tmod d k f t) = if j = k then f (tget d k t) else tget d j t := by rw [tmod, tget_tset]

/-! ### The canonical form -/

theorem tabove_tinsert {k j : Nat} {v : α} {t : Tbl α} (h : tabove j t = true) (hk : j < k) :
    tabove j (tinsert k v t) = true := by
  induction t with
  | nil => simpa [tinsert, tabove] using hk
  | cons e r ih =>
    obtain ⟨a, w⟩ := e
    simp only [tabove, Bool.and_eq_true, decide_eq_true_eq] at h
    unfold tinsert
    (repeat' split) <;> simp_all [tabove]

theorem tabove_terase {k j : Nat} {t : Tbl α} (h : tabove j t = true) : tabove j (terase k t) = true := by
  induction t with
  | nil => rfl
  | cons e r ih =>
    obtain ⟨a, w⟩ := e
    simp only [tabove, Bool.and_eq_true, decide_eq_true_eq] at h
    unfold terase
    split <;> simp_all [tabove]

theorem tabove_mono {j k : Nat} {t : Tbl α} (h : tabove k t = true) (hj : j ≤ k) : tabove j t = true := by
  induction t with
  | nil => rfl
  | cons e r ih =>
    obtain ⟨a, w⟩ := e
    simp only [tabove, Bool.and_eq_true, decide_eq_true_eq] at h ⊢
    exact ⟨by omega, ih h.2⟩

theorem twf_tinsert [DecidableEq α] {d : α} {k : Nat} {v : α} {t : Tbl α} (h : twf d t = true) (hv : v ≠ d) :
    twf d (tinsert k v t) = true := by
  induction t with
  | nil => simp [tinsert, twf, tabove, hv]
  | cons e r ih =>
    obtain ⟨a, w⟩ := e
    simp only [twf, Bool.and_eq_true, decide_eq_true_eq] at h
    obtain ⟨⟨hw, hr⟩, hwf⟩ := h
    unfold tinsert
    split
    · next hlt => simp [twf, hw, ih hwf, tabove_tinsert hr hlt]
    · split
      · next heq => subst heq; simp [twf, hv, hr, hwf]
      · next hge hne =>
        have hlt : k < a := by omega
        simp [twf, hv, hw, hr, hwf, tabove, hlt, tabove_mono hr (Nat.le_of_lt hlt)]

theorem twf_terase [DecidableEq α] {d : α} {k : Nat} {t : Tbl α} (h : twf d t = true) :
    twf d (terase k t) = true := by
  induction t with
  | nil => rfl
  | cons e r ih =>
    obtain ⟨a, w⟩ := e
    simp only [twf, Bool.and_eq_true, decide_eq_true_eq] at h
    unfold terase
    split
    · exact ih h.2
    · simp [twf, h.1.1, ih h.2, tabove_terase h.1.2]

/-- A write of one record keeps the canonical form. -/
theorem twf_tset [DecidableEq α] {d : α} {k : Nat} {v : α} {t : Tbl α} (h : twf d t = true) :
    twf d (tset d k v t) = true := by
  unfold tset
  split
  · exact twf_terase h
  · next hv => exact twf_tinsert h hv

theorem twf_tmod [DecidableEq α] {d : α} {k : Nat} {f : α → α} {t : Tbl α} (h : twf d t = true) :
    twf d (tmod d k f t) = true := twf_tset h

theorem tabove_tmapAll [DecidableEq α] {d : α} {f : Nat → α → α} {j : Nat} {t : Tbl α} (h : tabove j t = true) :
    tabove j (tmapAll d f t) = true := by
  induction t with
  | nil => rfl
  | cons e r ih =>
    obtain ⟨a, w⟩ := e
    simp only [tabove, Bool.and_eq_true, decide_eq_true_eq] at h
    unfold tmapAll
    split
    · exact tabove_terase (ih h.2)
    · simp [tabove, h.1, ih h.2]

theorem twf_tmapAll [DecidableEq α] {d : α} {f : Nat → α → α} {t : Tbl α} (h : twf d t = true) :
    twf d (tmapAll d f t) = true := by
  induction t with
  | nil => rfl
  | cons e r ih =>
    obtain ⟨a, w⟩ := e
    simp only [twf, Bool.and_eq_true, decide_eq_true_eq] at h
    unfold tmapAll
    split
    · exact twf_terase (ih h.2)
    · next hv => simp [twf, hv, ih h.2, tabove_tmapAll h.1.2]

/-- Changing every listed record by a function that leaves the default record changes every record by it. -/
theorem tget_tmapAll [DecidableEq α] (d : α) (f : Nat → α → α) (hf : ∀ k, f k d = d) (k : Nat) (t : Tbl α) :
    tget d k (tmapAll d f t) = f k (tget d k t) := by
  induction t with
  | nil => exact (hf k).symm
  | cons e r ih =>
    obtain ⟨a, v⟩ := e
    unfold tmapAll
    by_cases hk : a = k
    · subst hk
      split
      · next h => rw [tget_terase, if_pos rfl]; simp [tget, h]
      · simp [tget]
    · split
      · rw [tget_terase, if_neg (fun h => hk h.symm), ih]; simp [tget, hk]
      · simp [tget, hk, ih]

theorem twf_tmodAll [DecidableEq α] {d : α} {f : α → α} {ks : List Nat} {t : Tbl α} (h : twf d t = true) :
    twf d (tmodAll d f ks t) = true := by
  induction ks generalizing t with
  | nil => exact h
  | cons k ks ih => exact ih (twf_tmod h)

/-- Two canonical tables that read alike are the same list. -/
theorem twf_ext [DecidableEq α] {d : α} {t u : Tbl α} (ht : twf d t = true) (hu : twf d u = true)
    (h : ∀ k, tget d k t = tget d k u) : t = u := by
  have above : ∀ (j : Nat) (v : Tbl α), tabove j v = true → ∀ i, i ≤ j → tget d i v = d := by
    intro j v hv i hi
    induction v with
    | nil => rfl
    | cons e r ih =>
      obtain ⟨a, w⟩ := e
      simp only [tabove, Bool.and_eq_true, decide_eq_true_eq] at hv
      simp only [tget]
      rw [if_neg (by omega), ih hv.2]
  induction t generalizing u with
  | nil =>
    cases u with
    | nil => rfl
    | cons e r =>
      obtain ⟨a, w⟩ := e
      simp only [twf, Bool.and_eq_true, decide_eq_true_eq] at hu
      have := h a
      simp [tget] at this
      exact absurd this.symm hu.1.1
  | cons e r ih =>
    obtain ⟨a, v⟩ := e
    simp only [twf, Bool.and_eq_true, decide_eq_true_eq] at ht
    cases u with
    | nil =>
      have := h a
      simp [tget] at this
      exact absurd this ht.1.1
    | cons e' r' =>
      obtain ⟨b, w⟩ := e'
      simp only [twf, Bool.and_eq_true, decide_eq_true_eq] at hu
      have hab : a = b := by
        rcases Nat.lt_trichotomy a b with hlt | heq | hgt
        · have := h a
          simp only [tget, if_true] at this
          rw [if_neg (by omega), above b r' hu.1.2 a (by omega)] at this
          exact absurd this ht.1.1
        · exact heq
        · have := h b
          simp only [tget, if_true] at this
          rw [if_neg (by omega), above a r ht.1.2 b (by omega)] at this
          exact absurd this.symm hu.1.1
      subst hab
      have hv : v = w := by simpa [tget] using h a
      subst hv
      have hr : r = r' := by
        apply ih ht.2 hu.2
        intro k
        by_cases hk : k = a
        · subst hk
          rw [above k r ht.1.2 k (Nat.le_refl k), above k r' hu.1.2 k (Nat.le_refl k)]
        · have := h k
          simpa [tget, Ne.symm hk] using this
      rw [hr]

/-! ### Byte memories -/

theorem rd8_wr8 (m : Mem) (a x : Nat) (b : Byte) : rd8 (wr8 m a b) x = if x = a then b else rd8 m x :=
  tget_tset _ _ _ _ _

theorem wf_wr8 {m : Mem} {a : Nat} {b : Byte} (h : Memory.wf m = true) : Memory.wf (wr8 m a b) = true := twf_tset h

theorem wf_wrBytes {m : Mem} {a : Nat} {bs : List Byte} (h : Memory.wf m = true) : Memory.wf (wrBytes m a bs) = true := by
  induction bs generalizing m a with
  | nil => exact h
  | cons b bs ih => exact ih (wf_wr8 h)

theorem wf_nil : Memory.wf [] = true := rfl

/-- A write of bytes leaves every byte outside its range alone. -/
theorem rd8_wrBytes_out (m : Mem) (a x : Nat) (bs : List Byte) (h : x < a ∨ a + bs.length ≤ x) :
    rd8 (wrBytes m a bs) x = rd8 m x := by
  induction bs generalizing m a with
  | nil => rfl
  | cons b bs ih =>
    simp only [List.length_cons] at h
    rw [wrBytes, ih _ _ (by omega), rd8_wr8, if_neg (by omega)]

/-- A byte inside a written range reads as the byte written there. -/
theorem rd8_wrBytes_in (m : Mem) (a i : Nat) (bs : List Byte) (h : i < bs.length) :
    rd8 (wrBytes m a bs) (a + i) = bs[i] := by
  induction bs generalizing m a i with
  | nil => simp at h
  | cons b bs ih =>
    cases i with
    | zero => rw [wrBytes, rd8_wrBytes_out _ _ _ _ (by omega), rd8_wr8]; simp
    | succ i =>
      have := ih (wr8 m a b) (a + 1) i (by simpa using h)
      rw [wrBytes, show a + (i + 1) = a + 1 + i by omega, this]
      simp

@[simp] theorem length_leBytes (n v : Nat) : (leBytes n v).length = n := by
  induction n generalizing v with
  | zero => rfl
  | succ n ih => simp [leBytes, ih]

/-- Little-endian bytes give their number back, modulo their width (R10). -/
theorem leVal_leBytes (n v : Nat) : leVal (leBytes n v) = v % 256 ^ n := by
  induction n generalizing v with
  | zero => simp [leBytes, leVal, Nat.mod_one]
  | succ n ih =>
    simp only [leBytes, leVal, ih, BitVec.toNat_ofNat]
    have e : 256 ^ (n + 1) = 256 * 256 ^ n := by rw [Nat.pow_succ, Nat.mul_comm]
    rw [e, Nat.mod_mul]

/-- A written range reads as what was written there. -/
theorem rdBytes_wrBytes (m : Mem) (a : Nat) (bs : List Byte) : rdBytes (wrBytes m a bs) a bs.length = bs := by
  induction bs generalizing m a with
  | nil => rfl
  | cons b bs ih =>
    have h := rd8_wrBytes_in m a 0 (b :: bs) (by simp)
    simp only [List.length_cons, rdBytes]
    exact congr (congrArg List.cons h) (ih (wr8 m a b) (a + 1))

/-- A field of a written buffer reads as that field of what was written. -/
theorem rdLe_wrBytes (m : Mem) (o n : Nat) (bs : List Byte) (h : o + n ≤ bs.length) : rdLe (wrBytes m 0 bs) o n = fieldLe bs o n := by
  have e : ∀ k o, o + k ≤ bs.length → rdBytes (wrBytes m 0 bs) o k = (bs.drop o).take k := by
    intro k
    induction k with
    | zero => intro o _; simp [rdBytes]
    | succ k ih =>
      intro o ho
      have hr := rd8_wrBytes_in m 0 o bs (by omega)
      rw [Nat.zero_add] at hr
      rw [rdBytes, hr, ih (o + 1) (by omega), List.drop_eq_getElem_cons (by omega : o < bs.length), List.take_succ_cons]
  rw [rdLe, fieldLe, e n o h]

end Sys2Proof.Machine
end

