-- ==== Sys2Proof/Laws/Accessors.lean ====
section
/-!
SUPPORT. What each accessor reads after each update: the record changed, or the record as it was.
-/

namespace Sys2Proof.Machine


/-! ### chan and modChan -/

@[simp] theorem chan_modChan_same (k : Nat) (f : DdrChan → DdrChan) (s : State) : chan k (modChan k f s) = f (chan k s) := tget_tmod_same _ _ _ _
theorem chan_modChan_ne {j k : Nat} (f : DdrChan → DdrChan) (s : State) (h : j ≠ k) : chan j (modChan k f s) = chan j s := tget_tmod_ne _ _ _ h
theorem chan_modChan (j k : Nat) (f : DdrChan → DdrChan) (s : State) : chan j (modChan k f s) = if j = k then f (chan k s) else chan j s := tget_tmod _ _ _ _ _
@[simp] theorem eport_modChan (j k : Nat) (f : DdrChan → DdrChan) (s : State) : eport j (modChan k f s) = eport j s := rfl
@[simp] theorem fsrc_modChan (j k : Nat) (f : DdrChan → DdrChan) (s : State) : fsrc j (modChan k f s) = fsrc j s := rfl
@[simp] theorem sens_modChan (j k : Nat) (f : DdrChan → DdrChan) (s : State) : sens j (modChan k f s) = sens j s := rfl
@[simp] theorem group_modChan (j k : Nat) (f : DdrChan → DdrChan) (s : State) : group j (modChan k f s) = group j s := rfl
@[simp] theorem mitten_modChan (j k : Nat) (f : DdrChan → DdrChan) (s : State) : mitten j (modChan k f s) = mitten j s := rfl
@[simp] theorem check_modChan (j k : Nat) (f : DdrChan → DdrChan) (s : State) : check j (modChan k f s) = check j s := rfl
@[simp] theorem strm_modChan (j k : Nat) (f : DdrChan → DdrChan) (s : State) : strm j (modChan k f s) = strm j s := rfl
@[simp] theorem edge_modChan (j k : Nat) (f : DdrChan → DdrChan) (s : State) : edge j (modChan k f s) = edge j s := rfl
@[simp] theorem lslot_modChan (j k : Nat) (f : DdrChan → DdrChan) (s : State) : lslot j (modChan k f s) = lslot j s := rfl
@[simp] theorem gateCtl_modChan (j k : Nat) (f : DdrChan → DdrChan) (s : State) : gateCtl j (modChan k f s) = gateCtl j s := rfl
@[simp] theorem glove_modChan (j k : Nat) (f : DdrChan → DdrChan) (s : State) : glove j (modChan k f s) = glove j s := rfl
@[simp] theorem csi_modChan (j k : Nat) (f : DdrChan → DdrChan) (s : State) : csi j (modChan k f s) = csi j s := rfl
@[simp] theorem scene_modChan (j k : Nat) (f : DdrChan → DdrChan) (s : State) : scene j (modChan k f s) = scene j s := rfl
@[simp] theorem hport_modChan (j k : Nat) (f : DdrChan → DdrChan) (s : State) : hport j (modChan k f s) = hport j s := rfl
@[simp] theorem coll_modChan (j k : Nat) (f : DdrChan → DdrChan) (s : State) : coll j (modChan k f s) = coll j s := rfl
@[simp] theorem island_modChan (j k : Nat) (f : DdrChan → DdrChan) (s : State) : island j (modChan k f s) = island j s := rfl
@[simp] theorem pdie_modChan (j k : Nat) (f : DdrChan → DdrChan) (s : State) : pdie j (modChan k f s) = pdie j s := rfl
@[simp] theorem flash_modChan (j k : Nat) (f : DdrChan → DdrChan) (s : State) : flash j (modChan k f s) = flash j s := rfl
@[simp] theorem trace_modChan (d k : Nat) (f : DdrChan → DdrChan) (s : State) : trace d (modChan k f s) = trace d s := rfl
@[simp] theorem engine_modChan (e k : Nat) (f : DdrChan → DdrChan) (s : State) : engine e (modChan k f s) = engine e s := rfl

/-! ### eport and modEth -/

@[simp] theorem eport_modEth_same (k : Nat) (f : EthPort → EthPort) (s : State) : eport k (modEth k f s) = f (eport k s) := tget_tmod_same _ _ _ _
theorem eport_modEth_ne {j k : Nat} (f : EthPort → EthPort) (s : State) (h : j ≠ k) : eport j (modEth k f s) = eport j s := tget_tmod_ne _ _ _ h
theorem eport_modEth (j k : Nat) (f : EthPort → EthPort) (s : State) : eport j (modEth k f s) = if j = k then f (eport k s) else eport j s := tget_tmod _ _ _ _ _
@[simp] theorem chan_modEth (j k : Nat) (f : EthPort → EthPort) (s : State) : chan j (modEth k f s) = chan j s := rfl
@[simp] theorem fsrc_modEth (j k : Nat) (f : EthPort → EthPort) (s : State) : fsrc j (modEth k f s) = fsrc j s := rfl
@[simp] theorem sens_modEth (j k : Nat) (f : EthPort → EthPort) (s : State) : sens j (modEth k f s) = sens j s := rfl
@[simp] theorem group_modEth (j k : Nat) (f : EthPort → EthPort) (s : State) : group j (modEth k f s) = group j s := rfl
@[simp] theorem mitten_modEth (j k : Nat) (f : EthPort → EthPort) (s : State) : mitten j (modEth k f s) = mitten j s := rfl
@[simp] theorem check_modEth (j k : Nat) (f : EthPort → EthPort) (s : State) : check j (modEth k f s) = check j s := rfl
@[simp] theorem strm_modEth (j k : Nat) (f : EthPort → EthPort) (s : State) : strm j (modEth k f s) = strm j s := rfl
@[simp] theorem edge_modEth (j k : Nat) (f : EthPort → EthPort) (s : State) : edge j (modEth k f s) = edge j s := rfl
@[simp] theorem lslot_modEth (j k : Nat) (f : EthPort → EthPort) (s : State) : lslot j (modEth k f s) = lslot j s := rfl
@[simp] theorem gateCtl_modEth (j k : Nat) (f : EthPort → EthPort) (s : State) : gateCtl j (modEth k f s) = gateCtl j s := rfl
@[simp] theorem glove_modEth (j k : Nat) (f : EthPort → EthPort) (s : State) : glove j (modEth k f s) = glove j s := rfl
@[simp] theorem csi_modEth (j k : Nat) (f : EthPort → EthPort) (s : State) : csi j (modEth k f s) = csi j s := rfl
@[simp] theorem scene_modEth (j k : Nat) (f : EthPort → EthPort) (s : State) : scene j (modEth k f s) = scene j s := rfl
@[simp] theorem hport_modEth (j k : Nat) (f : EthPort → EthPort) (s : State) : hport j (modEth k f s) = hport j s := rfl
@[simp] theorem coll_modEth (j k : Nat) (f : EthPort → EthPort) (s : State) : coll j (modEth k f s) = coll j s := rfl
@[simp] theorem island_modEth (j k : Nat) (f : EthPort → EthPort) (s : State) : island j (modEth k f s) = island j s := rfl
@[simp] theorem pdie_modEth (j k : Nat) (f : EthPort → EthPort) (s : State) : pdie j (modEth k f s) = pdie j s := rfl
@[simp] theorem flash_modEth (j k : Nat) (f : EthPort → EthPort) (s : State) : flash j (modEth k f s) = flash j s := rfl
@[simp] theorem trace_modEth (d k : Nat) (f : EthPort → EthPort) (s : State) : trace d (modEth k f s) = trace d s := rfl
@[simp] theorem engine_modEth (e k : Nat) (f : EthPort → EthPort) (s : State) : engine e (modEth k f s) = engine e s := rfl

/-! ### fsrc and modSrc -/

@[simp] theorem fsrc_modSrc_same (k : Nat) (f : FaultSrc → FaultSrc) (s : State) : fsrc k (modSrc k f s) = f (fsrc k s) := tget_tmod_same _ _ _ _
theorem fsrc_modSrc_ne {j k : Nat} (f : FaultSrc → FaultSrc) (s : State) (h : j ≠ k) : fsrc j (modSrc k f s) = fsrc j s := tget_tmod_ne _ _ _ h
theorem fsrc_modSrc (j k : Nat) (f : FaultSrc → FaultSrc) (s : State) : fsrc j (modSrc k f s) = if j = k then f (fsrc k s) else fsrc j s := tget_tmod _ _ _ _ _
@[simp] theorem chan_modSrc (j k : Nat) (f : FaultSrc → FaultSrc) (s : State) : chan j (modSrc k f s) = chan j s := rfl
@[simp] theorem eport_modSrc (j k : Nat) (f : FaultSrc → FaultSrc) (s : State) : eport j (modSrc k f s) = eport j s := rfl
@[simp] theorem sens_modSrc (j k : Nat) (f : FaultSrc → FaultSrc) (s : State) : sens j (modSrc k f s) = sens j s := rfl
@[simp] theorem group_modSrc (j k : Nat) (f : FaultSrc → FaultSrc) (s : State) : group j (modSrc k f s) = group j s := rfl
@[simp] theorem mitten_modSrc (j k : Nat) (f : FaultSrc → FaultSrc) (s : State) : mitten j (modSrc k f s) = mitten j s := rfl
@[simp] theorem check_modSrc (j k : Nat) (f : FaultSrc → FaultSrc) (s : State) : check j (modSrc k f s) = check j s := rfl
@[simp] theorem strm_modSrc (j k : Nat) (f : FaultSrc → FaultSrc) (s : State) : strm j (modSrc k f s) = strm j s := rfl
@[simp] theorem edge_modSrc (j k : Nat) (f : FaultSrc → FaultSrc) (s : State) : edge j (modSrc k f s) = edge j s := rfl
@[simp] theorem lslot_modSrc (j k : Nat) (f : FaultSrc → FaultSrc) (s : State) : lslot j (modSrc k f s) = lslot j s := rfl
@[simp] theorem gateCtl_modSrc (j k : Nat) (f : FaultSrc → FaultSrc) (s : State) : gateCtl j (modSrc k f s) = gateCtl j s := rfl
@[simp] theorem glove_modSrc (j k : Nat) (f : FaultSrc → FaultSrc) (s : State) : glove j (modSrc k f s) = glove j s := rfl
@[simp] theorem csi_modSrc (j k : Nat) (f : FaultSrc → FaultSrc) (s : State) : csi j (modSrc k f s) = csi j s := rfl
@[simp] theorem scene_modSrc (j k : Nat) (f : FaultSrc → FaultSrc) (s : State) : scene j (modSrc k f s) = scene j s := rfl
@[simp] theorem hport_modSrc (j k : Nat) (f : FaultSrc → FaultSrc) (s : State) : hport j (modSrc k f s) = hport j s := rfl
@[simp] theorem coll_modSrc (j k : Nat) (f : FaultSrc → FaultSrc) (s : State) : coll j (modSrc k f s) = coll j s := rfl
@[simp] theorem island_modSrc (j k : Nat) (f : FaultSrc → FaultSrc) (s : State) : island j (modSrc k f s) = island j s := rfl
@[simp] theorem pdie_modSrc (j k : Nat) (f : FaultSrc → FaultSrc) (s : State) : pdie j (modSrc k f s) = pdie j s := rfl
@[simp] theorem flash_modSrc (j k : Nat) (f : FaultSrc → FaultSrc) (s : State) : flash j (modSrc k f s) = flash j s := rfl
@[simp] theorem trace_modSrc (d k : Nat) (f : FaultSrc → FaultSrc) (s : State) : trace d (modSrc k f s) = trace d s := rfl
@[simp] theorem engine_modSrc (e k : Nat) (f : FaultSrc → FaultSrc) (s : State) : engine e (modSrc k f s) = engine e s := rfl

/-! ### sens and modSens -/

@[simp] theorem sens_modSens_same (k : Nat) (f : SensStream → SensStream) (s : State) : sens k (modSens k f s) = f (sens k s) := tget_tmod_same _ _ _ _
theorem sens_modSens_ne {j k : Nat} (f : SensStream → SensStream) (s : State) (h : j ≠ k) : sens j (modSens k f s) = sens j s := tget_tmod_ne _ _ _ h
theorem sens_modSens (j k : Nat) (f : SensStream → SensStream) (s : State) : sens j (modSens k f s) = if j = k then f (sens k s) else sens j s := tget_tmod _ _ _ _ _
@[simp] theorem chan_modSens (j k : Nat) (f : SensStream → SensStream) (s : State) : chan j (modSens k f s) = chan j s := rfl
@[simp] theorem eport_modSens (j k : Nat) (f : SensStream → SensStream) (s : State) : eport j (modSens k f s) = eport j s := rfl
@[simp] theorem fsrc_modSens (j k : Nat) (f : SensStream → SensStream) (s : State) : fsrc j (modSens k f s) = fsrc j s := rfl
@[simp] theorem group_modSens (j k : Nat) (f : SensStream → SensStream) (s : State) : group j (modSens k f s) = group j s := rfl
@[simp] theorem mitten_modSens (j k : Nat) (f : SensStream → SensStream) (s : State) : mitten j (modSens k f s) = mitten j s := rfl
@[simp] theorem check_modSens (j k : Nat) (f : SensStream → SensStream) (s : State) : check j (modSens k f s) = check j s := rfl
@[simp] theorem strm_modSens (j k : Nat) (f : SensStream → SensStream) (s : State) : strm j (modSens k f s) = strm j s := rfl
@[simp] theorem edge_modSens (j k : Nat) (f : SensStream → SensStream) (s : State) : edge j (modSens k f s) = edge j s := rfl
@[simp] theorem lslot_modSens (j k : Nat) (f : SensStream → SensStream) (s : State) : lslot j (modSens k f s) = lslot j s := rfl
@[simp] theorem gateCtl_modSens (j k : Nat) (f : SensStream → SensStream) (s : State) : gateCtl j (modSens k f s) = gateCtl j s := rfl
@[simp] theorem glove_modSens (j k : Nat) (f : SensStream → SensStream) (s : State) : glove j (modSens k f s) = glove j s := rfl
@[simp] theorem csi_modSens (j k : Nat) (f : SensStream → SensStream) (s : State) : csi j (modSens k f s) = csi j s := rfl
@[simp] theorem scene_modSens (j k : Nat) (f : SensStream → SensStream) (s : State) : scene j (modSens k f s) = scene j s := rfl
@[simp] theorem hport_modSens (j k : Nat) (f : SensStream → SensStream) (s : State) : hport j (modSens k f s) = hport j s := rfl
@[simp] theorem coll_modSens (j k : Nat) (f : SensStream → SensStream) (s : State) : coll j (modSens k f s) = coll j s := rfl
@[simp] theorem island_modSens (j k : Nat) (f : SensStream → SensStream) (s : State) : island j (modSens k f s) = island j s := rfl
@[simp] theorem pdie_modSens (j k : Nat) (f : SensStream → SensStream) (s : State) : pdie j (modSens k f s) = pdie j s := rfl
@[simp] theorem flash_modSens (j k : Nat) (f : SensStream → SensStream) (s : State) : flash j (modSens k f s) = flash j s := rfl
@[simp] theorem trace_modSens (d k : Nat) (f : SensStream → SensStream) (s : State) : trace d (modSens k f s) = trace d s := rfl
@[simp] theorem engine_modSens (e k : Nat) (f : SensStream → SensStream) (s : State) : engine e (modSens k f s) = engine e s := rfl

/-! ### group and modGroup -/

@[simp] theorem group_modGroup_same (k : Nat) (f : FuseGroup → FuseGroup) (s : State) : group k (modGroup k f s) = f (group k s) := tget_tmod_same _ _ _ _
theorem group_modGroup_ne {j k : Nat} (f : FuseGroup → FuseGroup) (s : State) (h : j ≠ k) : group j (modGroup k f s) = group j s := tget_tmod_ne _ _ _ h
theorem group_modGroup (j k : Nat) (f : FuseGroup → FuseGroup) (s : State) : group j (modGroup k f s) = if j = k then f (group k s) else group j s := tget_tmod _ _ _ _ _
@[simp] theorem chan_modGroup (j k : Nat) (f : FuseGroup → FuseGroup) (s : State) : chan j (modGroup k f s) = chan j s := rfl
@[simp] theorem eport_modGroup (j k : Nat) (f : FuseGroup → FuseGroup) (s : State) : eport j (modGroup k f s) = eport j s := rfl
@[simp] theorem fsrc_modGroup (j k : Nat) (f : FuseGroup → FuseGroup) (s : State) : fsrc j (modGroup k f s) = fsrc j s := rfl
@[simp] theorem sens_modGroup (j k : Nat) (f : FuseGroup → FuseGroup) (s : State) : sens j (modGroup k f s) = sens j s := rfl
@[simp] theorem mitten_modGroup (j k : Nat) (f : FuseGroup → FuseGroup) (s : State) : mitten j (modGroup k f s) = mitten j s := rfl
@[simp] theorem check_modGroup (j k : Nat) (f : FuseGroup → FuseGroup) (s : State) : check j (modGroup k f s) = check j s := rfl
@[simp] theorem strm_modGroup (j k : Nat) (f : FuseGroup → FuseGroup) (s : State) : strm j (modGroup k f s) = strm j s := rfl
@[simp] theorem edge_modGroup (j k : Nat) (f : FuseGroup → FuseGroup) (s : State) : edge j (modGroup k f s) = edge j s := rfl
@[simp] theorem lslot_modGroup (j k : Nat) (f : FuseGroup → FuseGroup) (s : State) : lslot j (modGroup k f s) = lslot j s := rfl
@[simp] theorem gateCtl_modGroup (j k : Nat) (f : FuseGroup → FuseGroup) (s : State) : gateCtl j (modGroup k f s) = gateCtl j s := rfl
@[simp] theorem glove_modGroup (j k : Nat) (f : FuseGroup → FuseGroup) (s : State) : glove j (modGroup k f s) = glove j s := rfl
@[simp] theorem csi_modGroup (j k : Nat) (f : FuseGroup → FuseGroup) (s : State) : csi j (modGroup k f s) = csi j s := rfl
@[simp] theorem scene_modGroup (j k : Nat) (f : FuseGroup → FuseGroup) (s : State) : scene j (modGroup k f s) = scene j s := rfl
@[simp] theorem hport_modGroup (j k : Nat) (f : FuseGroup → FuseGroup) (s : State) : hport j (modGroup k f s) = hport j s := rfl
@[simp] theorem coll_modGroup (j k : Nat) (f : FuseGroup → FuseGroup) (s : State) : coll j (modGroup k f s) = coll j s := rfl
@[simp] theorem island_modGroup (j k : Nat) (f : FuseGroup → FuseGroup) (s : State) : island j (modGroup k f s) = island j s := rfl
@[simp] theorem pdie_modGroup (j k : Nat) (f : FuseGroup → FuseGroup) (s : State) : pdie j (modGroup k f s) = pdie j s := rfl
@[simp] theorem flash_modGroup (j k : Nat) (f : FuseGroup → FuseGroup) (s : State) : flash j (modGroup k f s) = flash j s := rfl
@[simp] theorem trace_modGroup (d k : Nat) (f : FuseGroup → FuseGroup) (s : State) : trace d (modGroup k f s) = trace d s := rfl
@[simp] theorem engine_modGroup (e k : Nat) (f : FuseGroup → FuseGroup) (s : State) : engine e (modGroup k f s) = engine e s := rfl

/-! ### mitten and modMitten -/

@[simp] theorem mitten_modMitten_same (k : Nat) (f : Mitten → Mitten) (s : State) : mitten k (modMitten k f s) = f (mitten k s) := tget_tmod_same _ _ _ _
theorem mitten_modMitten_ne {j k : Nat} (f : Mitten → Mitten) (s : State) (h : j ≠ k) : mitten j (modMitten k f s) = mitten j s := tget_tmod_ne _ _ _ h
theorem mitten_modMitten (j k : Nat) (f : Mitten → Mitten) (s : State) : mitten j (modMitten k f s) = if j = k then f (mitten k s) else mitten j s := tget_tmod _ _ _ _ _
@[simp] theorem chan_modMitten (j k : Nat) (f : Mitten → Mitten) (s : State) : chan j (modMitten k f s) = chan j s := rfl
@[simp] theorem eport_modMitten (j k : Nat) (f : Mitten → Mitten) (s : State) : eport j (modMitten k f s) = eport j s := rfl
@[simp] theorem fsrc_modMitten (j k : Nat) (f : Mitten → Mitten) (s : State) : fsrc j (modMitten k f s) = fsrc j s := rfl
@[simp] theorem sens_modMitten (j k : Nat) (f : Mitten → Mitten) (s : State) : sens j (modMitten k f s) = sens j s := rfl
@[simp] theorem group_modMitten (j k : Nat) (f : Mitten → Mitten) (s : State) : group j (modMitten k f s) = group j s := rfl
@[simp] theorem check_modMitten (j k : Nat) (f : Mitten → Mitten) (s : State) : check j (modMitten k f s) = check j s := rfl
@[simp] theorem strm_modMitten (j k : Nat) (f : Mitten → Mitten) (s : State) : strm j (modMitten k f s) = strm j s := rfl
@[simp] theorem edge_modMitten (j k : Nat) (f : Mitten → Mitten) (s : State) : edge j (modMitten k f s) = edge j s := rfl
@[simp] theorem lslot_modMitten (j k : Nat) (f : Mitten → Mitten) (s : State) : lslot j (modMitten k f s) = lslot j s := rfl
@[simp] theorem gateCtl_modMitten (j k : Nat) (f : Mitten → Mitten) (s : State) : gateCtl j (modMitten k f s) = gateCtl j s := rfl
@[simp] theorem glove_modMitten (j k : Nat) (f : Mitten → Mitten) (s : State) : glove j (modMitten k f s) = glove j s := rfl
@[simp] theorem csi_modMitten (j k : Nat) (f : Mitten → Mitten) (s : State) : csi j (modMitten k f s) = csi j s := rfl
@[simp] theorem scene_modMitten (j k : Nat) (f : Mitten → Mitten) (s : State) : scene j (modMitten k f s) = scene j s := rfl
@[simp] theorem hport_modMitten (j k : Nat) (f : Mitten → Mitten) (s : State) : hport j (modMitten k f s) = hport j s := rfl
@[simp] theorem coll_modMitten (j k : Nat) (f : Mitten → Mitten) (s : State) : coll j (modMitten k f s) = coll j s := rfl
@[simp] theorem island_modMitten (j k : Nat) (f : Mitten → Mitten) (s : State) : island j (modMitten k f s) = island j s := rfl
@[simp] theorem pdie_modMitten (j k : Nat) (f : Mitten → Mitten) (s : State) : pdie j (modMitten k f s) = pdie j s := rfl
@[simp] theorem flash_modMitten (j k : Nat) (f : Mitten → Mitten) (s : State) : flash j (modMitten k f s) = flash j s := rfl
@[simp] theorem trace_modMitten (d k : Nat) (f : Mitten → Mitten) (s : State) : trace d (modMitten k f s) = trace d s := rfl
@[simp] theorem engine_modMitten (e k : Nat) (f : Mitten → Mitten) (s : State) : engine e (modMitten k f s) = engine e s := rfl

/-! ### check and modCheck -/

@[simp] theorem check_modCheck_same (k : Nat) (f : Check → Check) (s : State) : check k (modCheck k f s) = f (check k s) := tget_tmod_same _ _ _ _
theorem check_modCheck_ne {j k : Nat} (f : Check → Check) (s : State) (h : j ≠ k) : check j (modCheck k f s) = check j s := tget_tmod_ne _ _ _ h
theorem check_modCheck (j k : Nat) (f : Check → Check) (s : State) : check j (modCheck k f s) = if j = k then f (check k s) else check j s := tget_tmod _ _ _ _ _
@[simp] theorem chan_modCheck (j k : Nat) (f : Check → Check) (s : State) : chan j (modCheck k f s) = chan j s := rfl
@[simp] theorem eport_modCheck (j k : Nat) (f : Check → Check) (s : State) : eport j (modCheck k f s) = eport j s := rfl
@[simp] theorem fsrc_modCheck (j k : Nat) (f : Check → Check) (s : State) : fsrc j (modCheck k f s) = fsrc j s := rfl
@[simp] theorem sens_modCheck (j k : Nat) (f : Check → Check) (s : State) : sens j (modCheck k f s) = sens j s := rfl
@[simp] theorem group_modCheck (j k : Nat) (f : Check → Check) (s : State) : group j (modCheck k f s) = group j s := rfl
@[simp] theorem mitten_modCheck (j k : Nat) (f : Check → Check) (s : State) : mitten j (modCheck k f s) = mitten j s := rfl
@[simp] theorem strm_modCheck (j k : Nat) (f : Check → Check) (s : State) : strm j (modCheck k f s) = strm j s := rfl
@[simp] theorem edge_modCheck (j k : Nat) (f : Check → Check) (s : State) : edge j (modCheck k f s) = edge j s := rfl
@[simp] theorem lslot_modCheck (j k : Nat) (f : Check → Check) (s : State) : lslot j (modCheck k f s) = lslot j s := rfl
@[simp] theorem gateCtl_modCheck (j k : Nat) (f : Check → Check) (s : State) : gateCtl j (modCheck k f s) = gateCtl j s := rfl
@[simp] theorem glove_modCheck (j k : Nat) (f : Check → Check) (s : State) : glove j (modCheck k f s) = glove j s := rfl
@[simp] theorem csi_modCheck (j k : Nat) (f : Check → Check) (s : State) : csi j (modCheck k f s) = csi j s := rfl
@[simp] theorem scene_modCheck (j k : Nat) (f : Check → Check) (s : State) : scene j (modCheck k f s) = scene j s := rfl
@[simp] theorem hport_modCheck (j k : Nat) (f : Check → Check) (s : State) : hport j (modCheck k f s) = hport j s := rfl
@[simp] theorem coll_modCheck (j k : Nat) (f : Check → Check) (s : State) : coll j (modCheck k f s) = coll j s := rfl
@[simp] theorem island_modCheck (j k : Nat) (f : Check → Check) (s : State) : island j (modCheck k f s) = island j s := rfl
@[simp] theorem pdie_modCheck (j k : Nat) (f : Check → Check) (s : State) : pdie j (modCheck k f s) = pdie j s := rfl
@[simp] theorem flash_modCheck (j k : Nat) (f : Check → Check) (s : State) : flash j (modCheck k f s) = flash j s := rfl
@[simp] theorem trace_modCheck (d k : Nat) (f : Check → Check) (s : State) : trace d (modCheck k f s) = trace d s := rfl
@[simp] theorem engine_modCheck (e k : Nat) (f : Check → Check) (s : State) : engine e (modCheck k f s) = engine e s := rfl

/-! ### strm and modStrm -/

@[simp] theorem strm_modStrm_same (k : Nat) (f : Strm → Strm) (s : State) : strm k (modStrm k f s) = f (strm k s) := tget_tmod_same _ _ _ _
theorem strm_modStrm_ne {j k : Nat} (f : Strm → Strm) (s : State) (h : j ≠ k) : strm j (modStrm k f s) = strm j s := tget_tmod_ne _ _ _ h
theorem strm_modStrm (j k : Nat) (f : Strm → Strm) (s : State) : strm j (modStrm k f s) = if j = k then f (strm k s) else strm j s := tget_tmod _ _ _ _ _
@[simp] theorem chan_modStrm (j k : Nat) (f : Strm → Strm) (s : State) : chan j (modStrm k f s) = chan j s := rfl
@[simp] theorem eport_modStrm (j k : Nat) (f : Strm → Strm) (s : State) : eport j (modStrm k f s) = eport j s := rfl
@[simp] theorem fsrc_modStrm (j k : Nat) (f : Strm → Strm) (s : State) : fsrc j (modStrm k f s) = fsrc j s := rfl
@[simp] theorem sens_modStrm (j k : Nat) (f : Strm → Strm) (s : State) : sens j (modStrm k f s) = sens j s := rfl
@[simp] theorem group_modStrm (j k : Nat) (f : Strm → Strm) (s : State) : group j (modStrm k f s) = group j s := rfl
@[simp] theorem mitten_modStrm (j k : Nat) (f : Strm → Strm) (s : State) : mitten j (modStrm k f s) = mitten j s := rfl
@[simp] theorem check_modStrm (j k : Nat) (f : Strm → Strm) (s : State) : check j (modStrm k f s) = check j s := rfl
@[simp] theorem edge_modStrm (j k : Nat) (f : Strm → Strm) (s : State) : edge j (modStrm k f s) = edge j s := rfl
@[simp] theorem lslot_modStrm (j k : Nat) (f : Strm → Strm) (s : State) : lslot j (modStrm k f s) = lslot j s := rfl
@[simp] theorem gateCtl_modStrm (j k : Nat) (f : Strm → Strm) (s : State) : gateCtl j (modStrm k f s) = gateCtl j s := rfl
@[simp] theorem glove_modStrm (j k : Nat) (f : Strm → Strm) (s : State) : glove j (modStrm k f s) = glove j s := rfl
@[simp] theorem csi_modStrm (j k : Nat) (f : Strm → Strm) (s : State) : csi j (modStrm k f s) = csi j s := rfl
@[simp] theorem scene_modStrm (j k : Nat) (f : Strm → Strm) (s : State) : scene j (modStrm k f s) = scene j s := rfl
@[simp] theorem hport_modStrm (j k : Nat) (f : Strm → Strm) (s : State) : hport j (modStrm k f s) = hport j s := rfl
@[simp] theorem coll_modStrm (j k : Nat) (f : Strm → Strm) (s : State) : coll j (modStrm k f s) = coll j s := rfl
@[simp] theorem island_modStrm (j k : Nat) (f : Strm → Strm) (s : State) : island j (modStrm k f s) = island j s := rfl
@[simp] theorem pdie_modStrm (j k : Nat) (f : Strm → Strm) (s : State) : pdie j (modStrm k f s) = pdie j s := rfl
@[simp] theorem flash_modStrm (j k : Nat) (f : Strm → Strm) (s : State) : flash j (modStrm k f s) = flash j s := rfl
@[simp] theorem trace_modStrm (d k : Nat) (f : Strm → Strm) (s : State) : trace d (modStrm k f s) = trace d s := rfl
@[simp] theorem engine_modStrm (e k : Nat) (f : Strm → Strm) (s : State) : engine e (modStrm k f s) = engine e s := rfl

/-! ### edge and modEdge -/

@[simp] theorem edge_modEdge_same (k : Nat) (f : Edge → Edge) (s : State) : edge k (modEdge k f s) = f (edge k s) := tget_tmod_same _ _ _ _
theorem edge_modEdge_ne {j k : Nat} (f : Edge → Edge) (s : State) (h : j ≠ k) : edge j (modEdge k f s) = edge j s := tget_tmod_ne _ _ _ h
theorem edge_modEdge (j k : Nat) (f : Edge → Edge) (s : State) : edge j (modEdge k f s) = if j = k then f (edge k s) else edge j s := tget_tmod _ _ _ _ _
@[simp] theorem chan_modEdge (j k : Nat) (f : Edge → Edge) (s : State) : chan j (modEdge k f s) = chan j s := rfl
@[simp] theorem eport_modEdge (j k : Nat) (f : Edge → Edge) (s : State) : eport j (modEdge k f s) = eport j s := rfl
@[simp] theorem fsrc_modEdge (j k : Nat) (f : Edge → Edge) (s : State) : fsrc j (modEdge k f s) = fsrc j s := rfl
@[simp] theorem sens_modEdge (j k : Nat) (f : Edge → Edge) (s : State) : sens j (modEdge k f s) = sens j s := rfl
@[simp] theorem group_modEdge (j k : Nat) (f : Edge → Edge) (s : State) : group j (modEdge k f s) = group j s := rfl
@[simp] theorem mitten_modEdge (j k : Nat) (f : Edge → Edge) (s : State) : mitten j (modEdge k f s) = mitten j s := rfl
@[simp] theorem check_modEdge (j k : Nat) (f : Edge → Edge) (s : State) : check j (modEdge k f s) = check j s := rfl
@[simp] theorem strm_modEdge (j k : Nat) (f : Edge → Edge) (s : State) : strm j (modEdge k f s) = strm j s := rfl
@[simp] theorem lslot_modEdge (j k : Nat) (f : Edge → Edge) (s : State) : lslot j (modEdge k f s) = lslot j s := rfl
@[simp] theorem gateCtl_modEdge (j k : Nat) (f : Edge → Edge) (s : State) : gateCtl j (modEdge k f s) = gateCtl j s := rfl
@[simp] theorem glove_modEdge (j k : Nat) (f : Edge → Edge) (s : State) : glove j (modEdge k f s) = glove j s := rfl
@[simp] theorem csi_modEdge (j k : Nat) (f : Edge → Edge) (s : State) : csi j (modEdge k f s) = csi j s := rfl
@[simp] theorem scene_modEdge (j k : Nat) (f : Edge → Edge) (s : State) : scene j (modEdge k f s) = scene j s := rfl
@[simp] theorem hport_modEdge (j k : Nat) (f : Edge → Edge) (s : State) : hport j (modEdge k f s) = hport j s := rfl
@[simp] theorem coll_modEdge (j k : Nat) (f : Edge → Edge) (s : State) : coll j (modEdge k f s) = coll j s := rfl
@[simp] theorem island_modEdge (j k : Nat) (f : Edge → Edge) (s : State) : island j (modEdge k f s) = island j s := rfl
@[simp] theorem pdie_modEdge (j k : Nat) (f : Edge → Edge) (s : State) : pdie j (modEdge k f s) = pdie j s := rfl
@[simp] theorem flash_modEdge (j k : Nat) (f : Edge → Edge) (s : State) : flash j (modEdge k f s) = flash j s := rfl
@[simp] theorem trace_modEdge (d k : Nat) (f : Edge → Edge) (s : State) : trace d (modEdge k f s) = trace d s := rfl
@[simp] theorem engine_modEdge (e k : Nat) (f : Edge → Edge) (s : State) : engine e (modEdge k f s) = engine e s := rfl

/-! ### lslot and modLoop -/

@[simp] theorem lslot_modLoop_same (k : Nat) (f : LoopSlot → LoopSlot) (s : State) : lslot k (modLoop k f s) = f (lslot k s) := tget_tmod_same _ _ _ _
theorem lslot_modLoop_ne {j k : Nat} (f : LoopSlot → LoopSlot) (s : State) (h : j ≠ k) : lslot j (modLoop k f s) = lslot j s := tget_tmod_ne _ _ _ h
theorem lslot_modLoop (j k : Nat) (f : LoopSlot → LoopSlot) (s : State) : lslot j (modLoop k f s) = if j = k then f (lslot k s) else lslot j s := tget_tmod _ _ _ _ _
@[simp] theorem chan_modLoop (j k : Nat) (f : LoopSlot → LoopSlot) (s : State) : chan j (modLoop k f s) = chan j s := rfl
@[simp] theorem eport_modLoop (j k : Nat) (f : LoopSlot → LoopSlot) (s : State) : eport j (modLoop k f s) = eport j s := rfl
@[simp] theorem fsrc_modLoop (j k : Nat) (f : LoopSlot → LoopSlot) (s : State) : fsrc j (modLoop k f s) = fsrc j s := rfl
@[simp] theorem sens_modLoop (j k : Nat) (f : LoopSlot → LoopSlot) (s : State) : sens j (modLoop k f s) = sens j s := rfl
@[simp] theorem group_modLoop (j k : Nat) (f : LoopSlot → LoopSlot) (s : State) : group j (modLoop k f s) = group j s := rfl
@[simp] theorem mitten_modLoop (j k : Nat) (f : LoopSlot → LoopSlot) (s : State) : mitten j (modLoop k f s) = mitten j s := rfl
@[simp] theorem check_modLoop (j k : Nat) (f : LoopSlot → LoopSlot) (s : State) : check j (modLoop k f s) = check j s := rfl
@[simp] theorem strm_modLoop (j k : Nat) (f : LoopSlot → LoopSlot) (s : State) : strm j (modLoop k f s) = strm j s := rfl
@[simp] theorem edge_modLoop (j k : Nat) (f : LoopSlot → LoopSlot) (s : State) : edge j (modLoop k f s) = edge j s := rfl
@[simp] theorem gateCtl_modLoop (j k : Nat) (f : LoopSlot → LoopSlot) (s : State) : gateCtl j (modLoop k f s) = gateCtl j s := rfl
@[simp] theorem glove_modLoop (j k : Nat) (f : LoopSlot → LoopSlot) (s : State) : glove j (modLoop k f s) = glove j s := rfl
@[simp] theorem csi_modLoop (j k : Nat) (f : LoopSlot → LoopSlot) (s : State) : csi j (modLoop k f s) = csi j s := rfl
@[simp] theorem scene_modLoop (j k : Nat) (f : LoopSlot → LoopSlot) (s : State) : scene j (modLoop k f s) = scene j s := rfl
@[simp] theorem hport_modLoop (j k : Nat) (f : LoopSlot → LoopSlot) (s : State) : hport j (modLoop k f s) = hport j s := rfl
@[simp] theorem coll_modLoop (j k : Nat) (f : LoopSlot → LoopSlot) (s : State) : coll j (modLoop k f s) = coll j s := rfl
@[simp] theorem island_modLoop (j k : Nat) (f : LoopSlot → LoopSlot) (s : State) : island j (modLoop k f s) = island j s := rfl
@[simp] theorem pdie_modLoop (j k : Nat) (f : LoopSlot → LoopSlot) (s : State) : pdie j (modLoop k f s) = pdie j s := rfl
@[simp] theorem flash_modLoop (j k : Nat) (f : LoopSlot → LoopSlot) (s : State) : flash j (modLoop k f s) = flash j s := rfl
@[simp] theorem trace_modLoop (d k : Nat) (f : LoopSlot → LoopSlot) (s : State) : trace d (modLoop k f s) = trace d s := rfl
@[simp] theorem engine_modLoop (e k : Nat) (f : LoopSlot → LoopSlot) (s : State) : engine e (modLoop k f s) = engine e s := rfl

/-! ### gateCtl and modGates -/

@[simp] theorem gateCtl_modGates_same (k : Nat) (f : GateCtl → GateCtl) (s : State) : gateCtl k (modGates k f s) = f (gateCtl k s) := tget_tmod_same _ _ _ _
theorem gateCtl_modGates_ne {j k : Nat} (f : GateCtl → GateCtl) (s : State) (h : j ≠ k) : gateCtl j (modGates k f s) = gateCtl j s := tget_tmod_ne _ _ _ h
theorem gateCtl_modGates (j k : Nat) (f : GateCtl → GateCtl) (s : State) : gateCtl j (modGates k f s) = if j = k then f (gateCtl k s) else gateCtl j s := tget_tmod _ _ _ _ _
@[simp] theorem chan_modGates (j k : Nat) (f : GateCtl → GateCtl) (s : State) : chan j (modGates k f s) = chan j s := rfl
@[simp] theorem eport_modGates (j k : Nat) (f : GateCtl → GateCtl) (s : State) : eport j (modGates k f s) = eport j s := rfl
@[simp] theorem fsrc_modGates (j k : Nat) (f : GateCtl → GateCtl) (s : State) : fsrc j (modGates k f s) = fsrc j s := rfl
@[simp] theorem sens_modGates (j k : Nat) (f : GateCtl → GateCtl) (s : State) : sens j (modGates k f s) = sens j s := rfl
@[simp] theorem group_modGates (j k : Nat) (f : GateCtl → GateCtl) (s : State) : group j (modGates k f s) = group j s := rfl
@[simp] theorem mitten_modGates (j k : Nat) (f : GateCtl → GateCtl) (s : State) : mitten j (modGates k f s) = mitten j s := rfl
@[simp] theorem check_modGates (j k : Nat) (f : GateCtl → GateCtl) (s : State) : check j (modGates k f s) = check j s := rfl
@[simp] theorem strm_modGates (j k : Nat) (f : GateCtl → GateCtl) (s : State) : strm j (modGates k f s) = strm j s := rfl
@[simp] theorem edge_modGates (j k : Nat) (f : GateCtl → GateCtl) (s : State) : edge j (modGates k f s) = edge j s := rfl
@[simp] theorem lslot_modGates (j k : Nat) (f : GateCtl → GateCtl) (s : State) : lslot j (modGates k f s) = lslot j s := rfl
@[simp] theorem glove_modGates (j k : Nat) (f : GateCtl → GateCtl) (s : State) : glove j (modGates k f s) = glove j s := rfl
@[simp] theorem csi_modGates (j k : Nat) (f : GateCtl → GateCtl) (s : State) : csi j (modGates k f s) = csi j s := rfl
@[simp] theorem scene_modGates (j k : Nat) (f : GateCtl → GateCtl) (s : State) : scene j (modGates k f s) = scene j s := rfl
@[simp] theorem hport_modGates (j k : Nat) (f : GateCtl → GateCtl) (s : State) : hport j (modGates k f s) = hport j s := rfl
@[simp] theorem coll_modGates (j k : Nat) (f : GateCtl → GateCtl) (s : State) : coll j (modGates k f s) = coll j s := rfl
@[simp] theorem island_modGates (j k : Nat) (f : GateCtl → GateCtl) (s : State) : island j (modGates k f s) = island j s := rfl
@[simp] theorem pdie_modGates (j k : Nat) (f : GateCtl → GateCtl) (s : State) : pdie j (modGates k f s) = pdie j s := rfl
@[simp] theorem flash_modGates (j k : Nat) (f : GateCtl → GateCtl) (s : State) : flash j (modGates k f s) = flash j s := rfl
@[simp] theorem trace_modGates (d k : Nat) (f : GateCtl → GateCtl) (s : State) : trace d (modGates k f s) = trace d s := rfl
@[simp] theorem engine_modGates (e k : Nat) (f : GateCtl → GateCtl) (s : State) : engine e (modGates k f s) = engine e s := rfl

/-! ### glove and modGlove -/

@[simp] theorem glove_modGlove_same (k : Nat) (f : Glove → Glove) (s : State) : glove k (modGlove k f s) = f (glove k s) := tget_tmod_same _ _ _ _
theorem glove_modGlove_ne {j k : Nat} (f : Glove → Glove) (s : State) (h : j ≠ k) : glove j (modGlove k f s) = glove j s := tget_tmod_ne _ _ _ h
theorem glove_modGlove (j k : Nat) (f : Glove → Glove) (s : State) : glove j (modGlove k f s) = if j = k then f (glove k s) else glove j s := tget_tmod _ _ _ _ _
@[simp] theorem chan_modGlove (j k : Nat) (f : Glove → Glove) (s : State) : chan j (modGlove k f s) = chan j s := rfl
@[simp] theorem eport_modGlove (j k : Nat) (f : Glove → Glove) (s : State) : eport j (modGlove k f s) = eport j s := rfl
@[simp] theorem fsrc_modGlove (j k : Nat) (f : Glove → Glove) (s : State) : fsrc j (modGlove k f s) = fsrc j s := rfl
@[simp] theorem sens_modGlove (j k : Nat) (f : Glove → Glove) (s : State) : sens j (modGlove k f s) = sens j s := rfl
@[simp] theorem group_modGlove (j k : Nat) (f : Glove → Glove) (s : State) : group j (modGlove k f s) = group j s := rfl
@[simp] theorem mitten_modGlove (j k : Nat) (f : Glove → Glove) (s : State) : mitten j (modGlove k f s) = mitten j s := rfl
@[simp] theorem check_modGlove (j k : Nat) (f : Glove → Glove) (s : State) : check j (modGlove k f s) = check j s := rfl
@[simp] theorem strm_modGlove (j k : Nat) (f : Glove → Glove) (s : State) : strm j (modGlove k f s) = strm j s := rfl
@[simp] theorem edge_modGlove (j k : Nat) (f : Glove → Glove) (s : State) : edge j (modGlove k f s) = edge j s := rfl
@[simp] theorem lslot_modGlove (j k : Nat) (f : Glove → Glove) (s : State) : lslot j (modGlove k f s) = lslot j s := rfl
@[simp] theorem gateCtl_modGlove (j k : Nat) (f : Glove → Glove) (s : State) : gateCtl j (modGlove k f s) = gateCtl j s := rfl
@[simp] theorem csi_modGlove (j k : Nat) (f : Glove → Glove) (s : State) : csi j (modGlove k f s) = csi j s := rfl
@[simp] theorem scene_modGlove (j k : Nat) (f : Glove → Glove) (s : State) : scene j (modGlove k f s) = scene j s := rfl
@[simp] theorem hport_modGlove (j k : Nat) (f : Glove → Glove) (s : State) : hport j (modGlove k f s) = hport j s := rfl
@[simp] theorem coll_modGlove (j k : Nat) (f : Glove → Glove) (s : State) : coll j (modGlove k f s) = coll j s := rfl
@[simp] theorem island_modGlove (j k : Nat) (f : Glove → Glove) (s : State) : island j (modGlove k f s) = island j s := rfl
@[simp] theorem pdie_modGlove (j k : Nat) (f : Glove → Glove) (s : State) : pdie j (modGlove k f s) = pdie j s := rfl
@[simp] theorem flash_modGlove (j k : Nat) (f : Glove → Glove) (s : State) : flash j (modGlove k f s) = flash j s := rfl
@[simp] theorem trace_modGlove (d k : Nat) (f : Glove → Glove) (s : State) : trace d (modGlove k f s) = trace d s := rfl
@[simp] theorem engine_modGlove (e k : Nat) (f : Glove → Glove) (s : State) : engine e (modGlove k f s) = engine e s := rfl

/-! ### csi and modCsi -/

@[simp] theorem csi_modCsi_same (k : Nat) (f : CsiPort → CsiPort) (s : State) : csi k (modCsi k f s) = f (csi k s) := tget_tmod_same _ _ _ _
theorem csi_modCsi_ne {j k : Nat} (f : CsiPort → CsiPort) (s : State) (h : j ≠ k) : csi j (modCsi k f s) = csi j s := tget_tmod_ne _ _ _ h
theorem csi_modCsi (j k : Nat) (f : CsiPort → CsiPort) (s : State) : csi j (modCsi k f s) = if j = k then f (csi k s) else csi j s := tget_tmod _ _ _ _ _
@[simp] theorem chan_modCsi (j k : Nat) (f : CsiPort → CsiPort) (s : State) : chan j (modCsi k f s) = chan j s := rfl
@[simp] theorem eport_modCsi (j k : Nat) (f : CsiPort → CsiPort) (s : State) : eport j (modCsi k f s) = eport j s := rfl
@[simp] theorem fsrc_modCsi (j k : Nat) (f : CsiPort → CsiPort) (s : State) : fsrc j (modCsi k f s) = fsrc j s := rfl
@[simp] theorem sens_modCsi (j k : Nat) (f : CsiPort → CsiPort) (s : State) : sens j (modCsi k f s) = sens j s := rfl
@[simp] theorem group_modCsi (j k : Nat) (f : CsiPort → CsiPort) (s : State) : group j (modCsi k f s) = group j s := rfl
@[simp] theorem mitten_modCsi (j k : Nat) (f : CsiPort → CsiPort) (s : State) : mitten j (modCsi k f s) = mitten j s := rfl
@[simp] theorem check_modCsi (j k : Nat) (f : CsiPort → CsiPort) (s : State) : check j (modCsi k f s) = check j s := rfl
@[simp] theorem strm_modCsi (j k : Nat) (f : CsiPort → CsiPort) (s : State) : strm j (modCsi k f s) = strm j s := rfl
@[simp] theorem edge_modCsi (j k : Nat) (f : CsiPort → CsiPort) (s : State) : edge j (modCsi k f s) = edge j s := rfl
@[simp] theorem lslot_modCsi (j k : Nat) (f : CsiPort → CsiPort) (s : State) : lslot j (modCsi k f s) = lslot j s := rfl
@[simp] theorem gateCtl_modCsi (j k : Nat) (f : CsiPort → CsiPort) (s : State) : gateCtl j (modCsi k f s) = gateCtl j s := rfl
@[simp] theorem glove_modCsi (j k : Nat) (f : CsiPort → CsiPort) (s : State) : glove j (modCsi k f s) = glove j s := rfl
@[simp] theorem scene_modCsi (j k : Nat) (f : CsiPort → CsiPort) (s : State) : scene j (modCsi k f s) = scene j s := rfl
@[simp] theorem hport_modCsi (j k : Nat) (f : CsiPort → CsiPort) (s : State) : hport j (modCsi k f s) = hport j s := rfl
@[simp] theorem coll_modCsi (j k : Nat) (f : CsiPort → CsiPort) (s : State) : coll j (modCsi k f s) = coll j s := rfl
@[simp] theorem island_modCsi (j k : Nat) (f : CsiPort → CsiPort) (s : State) : island j (modCsi k f s) = island j s := rfl
@[simp] theorem pdie_modCsi (j k : Nat) (f : CsiPort → CsiPort) (s : State) : pdie j (modCsi k f s) = pdie j s := rfl
@[simp] theorem flash_modCsi (j k : Nat) (f : CsiPort → CsiPort) (s : State) : flash j (modCsi k f s) = flash j s := rfl
@[simp] theorem trace_modCsi (d k : Nat) (f : CsiPort → CsiPort) (s : State) : trace d (modCsi k f s) = trace d s := rfl
@[simp] theorem engine_modCsi (e k : Nat) (f : CsiPort → CsiPort) (s : State) : engine e (modCsi k f s) = engine e s := rfl

/-! ### scene and modScene -/

@[simp] theorem scene_modScene_same (k : Nat) (f : SceneMem → SceneMem) (s : State) : scene k (modScene k f s) = f (scene k s) := tget_tmod_same _ _ _ _
theorem scene_modScene_ne {j k : Nat} (f : SceneMem → SceneMem) (s : State) (h : j ≠ k) : scene j (modScene k f s) = scene j s := tget_tmod_ne _ _ _ h
theorem scene_modScene (j k : Nat) (f : SceneMem → SceneMem) (s : State) : scene j (modScene k f s) = if j = k then f (scene k s) else scene j s := tget_tmod _ _ _ _ _
@[simp] theorem chan_modScene (j k : Nat) (f : SceneMem → SceneMem) (s : State) : chan j (modScene k f s) = chan j s := rfl
@[simp] theorem eport_modScene (j k : Nat) (f : SceneMem → SceneMem) (s : State) : eport j (modScene k f s) = eport j s := rfl
@[simp] theorem fsrc_modScene (j k : Nat) (f : SceneMem → SceneMem) (s : State) : fsrc j (modScene k f s) = fsrc j s := rfl
@[simp] theorem sens_modScene (j k : Nat) (f : SceneMem → SceneMem) (s : State) : sens j (modScene k f s) = sens j s := rfl
@[simp] theorem group_modScene (j k : Nat) (f : SceneMem → SceneMem) (s : State) : group j (modScene k f s) = group j s := rfl
@[simp] theorem mitten_modScene (j k : Nat) (f : SceneMem → SceneMem) (s : State) : mitten j (modScene k f s) = mitten j s := rfl
@[simp] theorem check_modScene (j k : Nat) (f : SceneMem → SceneMem) (s : State) : check j (modScene k f s) = check j s := rfl
@[simp] theorem strm_modScene (j k : Nat) (f : SceneMem → SceneMem) (s : State) : strm j (modScene k f s) = strm j s := rfl
@[simp] theorem edge_modScene (j k : Nat) (f : SceneMem → SceneMem) (s : State) : edge j (modScene k f s) = edge j s := rfl
@[simp] theorem lslot_modScene (j k : Nat) (f : SceneMem → SceneMem) (s : State) : lslot j (modScene k f s) = lslot j s := rfl
@[simp] theorem gateCtl_modScene (j k : Nat) (f : SceneMem → SceneMem) (s : State) : gateCtl j (modScene k f s) = gateCtl j s := rfl
@[simp] theorem glove_modScene (j k : Nat) (f : SceneMem → SceneMem) (s : State) : glove j (modScene k f s) = glove j s := rfl
@[simp] theorem csi_modScene (j k : Nat) (f : SceneMem → SceneMem) (s : State) : csi j (modScene k f s) = csi j s := rfl
@[simp] theorem hport_modScene (j k : Nat) (f : SceneMem → SceneMem) (s : State) : hport j (modScene k f s) = hport j s := rfl
@[simp] theorem coll_modScene (j k : Nat) (f : SceneMem → SceneMem) (s : State) : coll j (modScene k f s) = coll j s := rfl
@[simp] theorem island_modScene (j k : Nat) (f : SceneMem → SceneMem) (s : State) : island j (modScene k f s) = island j s := rfl
@[simp] theorem pdie_modScene (j k : Nat) (f : SceneMem → SceneMem) (s : State) : pdie j (modScene k f s) = pdie j s := rfl
@[simp] theorem flash_modScene (j k : Nat) (f : SceneMem → SceneMem) (s : State) : flash j (modScene k f s) = flash j s := rfl
@[simp] theorem trace_modScene (d k : Nat) (f : SceneMem → SceneMem) (s : State) : trace d (modScene k f s) = trace d s := rfl
@[simp] theorem engine_modScene (e k : Nat) (f : SceneMem → SceneMem) (s : State) : engine e (modScene k f s) = engine e s := rfl

/-! ### hport and modPort -/

@[simp] theorem hport_modPort_same (k : Nat) (f : HostPort → HostPort) (s : State) : hport k (modPort k f s) = f (hport k s) := by
  unfold modPort hport; split <;> simp_all
@[simp] theorem chan_modPort (j k : Nat) (f : HostPort → HostPort) (s : State) : chan j (modPort k f s) = chan j s := by unfold modPort; split <;> rfl
@[simp] theorem eport_modPort (j k : Nat) (f : HostPort → HostPort) (s : State) : eport j (modPort k f s) = eport j s := by unfold modPort; split <;> rfl
@[simp] theorem fsrc_modPort (j k : Nat) (f : HostPort → HostPort) (s : State) : fsrc j (modPort k f s) = fsrc j s := by unfold modPort; split <;> rfl
@[simp] theorem sens_modPort (j k : Nat) (f : HostPort → HostPort) (s : State) : sens j (modPort k f s) = sens j s := by unfold modPort; split <;> rfl
@[simp] theorem group_modPort (j k : Nat) (f : HostPort → HostPort) (s : State) : group j (modPort k f s) = group j s := by unfold modPort; split <;> rfl
@[simp] theorem mitten_modPort (j k : Nat) (f : HostPort → HostPort) (s : State) : mitten j (modPort k f s) = mitten j s := by unfold modPort; split <;> rfl
@[simp] theorem check_modPort (j k : Nat) (f : HostPort → HostPort) (s : State) : check j (modPort k f s) = check j s := by unfold modPort; split <;> rfl
@[simp] theorem strm_modPort (j k : Nat) (f : HostPort → HostPort) (s : State) : strm j (modPort k f s) = strm j s := by unfold modPort; split <;> rfl
@[simp] theorem edge_modPort (j k : Nat) (f : HostPort → HostPort) (s : State) : edge j (modPort k f s) = edge j s := by unfold modPort; split <;> rfl
@[simp] theorem lslot_modPort (j k : Nat) (f : HostPort → HostPort) (s : State) : lslot j (modPort k f s) = lslot j s := by unfold modPort; split <;> rfl
@[simp] theorem gateCtl_modPort (j k : Nat) (f : HostPort → HostPort) (s : State) : gateCtl j (modPort k f s) = gateCtl j s := by unfold modPort; split <;> rfl
@[simp] theorem glove_modPort (j k : Nat) (f : HostPort → HostPort) (s : State) : glove j (modPort k f s) = glove j s := by unfold modPort; split <;> rfl
@[simp] theorem csi_modPort (j k : Nat) (f : HostPort → HostPort) (s : State) : csi j (modPort k f s) = csi j s := by unfold modPort; split <;> rfl
@[simp] theorem scene_modPort (j k : Nat) (f : HostPort → HostPort) (s : State) : scene j (modPort k f s) = scene j s := by unfold modPort; split <;> rfl
@[simp] theorem coll_modPort (j k : Nat) (f : HostPort → HostPort) (s : State) : coll j (modPort k f s) = coll j s := by unfold modPort; split <;> rfl
@[simp] theorem island_modPort (j k : Nat) (f : HostPort → HostPort) (s : State) : island j (modPort k f s) = island j s := by unfold modPort; split <;> rfl
@[simp] theorem pdie_modPort (j k : Nat) (f : HostPort → HostPort) (s : State) : pdie j (modPort k f s) = pdie j s := by unfold modPort; split <;> rfl
@[simp] theorem flash_modPort (j k : Nat) (f : HostPort → HostPort) (s : State) : flash j (modPort k f s) = flash j s := by unfold modPort; split <;> rfl
@[simp] theorem engine_modPort (e k : Nat) (f : HostPort → HostPort) (s : State) : engine e (modPort k f s) = engine e s := by unfold modPort; split <;> rfl
@[simp] theorem trace_modPort (d k : Nat) (f : HostPort → HostPort) (s : State) : trace d (modPort k f s) = trace d s := by unfold modPort; split <;> rfl

/-! ### coll and modColl -/

@[simp] theorem coll_modColl_same (k : Nat) (f : Collector → Collector) (s : State) : coll k (modColl k f s) = f (coll k s) := by
  unfold modColl coll; split <;> simp_all
@[simp] theorem chan_modColl (j k : Nat) (f : Collector → Collector) (s : State) : chan j (modColl k f s) = chan j s := by unfold modColl; split <;> rfl
@[simp] theorem eport_modColl (j k : Nat) (f : Collector → Collector) (s : State) : eport j (modColl k f s) = eport j s := by unfold modColl; split <;> rfl
@[simp] theorem fsrc_modColl (j k : Nat) (f : Collector → Collector) (s : State) : fsrc j (modColl k f s) = fsrc j s := by unfold modColl; split <;> rfl
@[simp] theorem sens_modColl (j k : Nat) (f : Collector → Collector) (s : State) : sens j (modColl k f s) = sens j s := by unfold modColl; split <;> rfl
@[simp] theorem group_modColl (j k : Nat) (f : Collector → Collector) (s : State) : group j (modColl k f s) = group j s := by unfold modColl; split <;> rfl
@[simp] theorem mitten_modColl (j k : Nat) (f : Collector → Collector) (s : State) : mitten j (modColl k f s) = mitten j s := by unfold modColl; split <;> rfl
@[simp] theorem check_modColl (j k : Nat) (f : Collector → Collector) (s : State) : check j (modColl k f s) = check j s := by unfold modColl; split <;> rfl
@[simp] theorem strm_modColl (j k : Nat) (f : Collector → Collector) (s : State) : strm j (modColl k f s) = strm j s := by unfold modColl; split <;> rfl
@[simp] theorem edge_modColl (j k : Nat) (f : Collector → Collector) (s : State) : edge j (modColl k f s) = edge j s := by unfold modColl; split <;> rfl
@[simp] theorem lslot_modColl (j k : Nat) (f : Collector → Collector) (s : State) : lslot j (modColl k f s) = lslot j s := by unfold modColl; split <;> rfl
@[simp] theorem gateCtl_modColl (j k : Nat) (f : Collector → Collector) (s : State) : gateCtl j (modColl k f s) = gateCtl j s := by unfold modColl; split <;> rfl
@[simp] theorem glove_modColl (j k : Nat) (f : Collector → Collector) (s : State) : glove j (modColl k f s) = glove j s := by unfold modColl; split <;> rfl
@[simp] theorem csi_modColl (j k : Nat) (f : Collector → Collector) (s : State) : csi j (modColl k f s) = csi j s := by unfold modColl; split <;> rfl
@[simp] theorem scene_modColl (j k : Nat) (f : Collector → Collector) (s : State) : scene j (modColl k f s) = scene j s := by unfold modColl; split <;> rfl
@[simp] theorem hport_modColl (j k : Nat) (f : Collector → Collector) (s : State) : hport j (modColl k f s) = hport j s := by unfold modColl; split <;> rfl
@[simp] theorem island_modColl (j k : Nat) (f : Collector → Collector) (s : State) : island j (modColl k f s) = island j s := by unfold modColl; split <;> rfl
@[simp] theorem pdie_modColl (j k : Nat) (f : Collector → Collector) (s : State) : pdie j (modColl k f s) = pdie j s := by unfold modColl; split <;> rfl
@[simp] theorem flash_modColl (j k : Nat) (f : Collector → Collector) (s : State) : flash j (modColl k f s) = flash j s := by unfold modColl; split <;> rfl
@[simp] theorem engine_modColl (e k : Nat) (f : Collector → Collector) (s : State) : engine e (modColl k f s) = engine e s := by unfold modColl; split <;> rfl
@[simp] theorem trace_modColl (d k : Nat) (f : Collector → Collector) (s : State) : trace d (modColl k f s) = trace d s := by unfold modColl; split <;> rfl

/-! ### island and modIsland -/

@[simp] theorem island_modIsland_same (k : Nat) (f : Island → Island) (s : State) : island k (modIsland k f s) = f (island k s) := by
  unfold modIsland island; split <;> simp_all
@[simp] theorem chan_modIsland (j k : Nat) (f : Island → Island) (s : State) : chan j (modIsland k f s) = chan j s := by unfold modIsland; split <;> rfl
@[simp] theorem eport_modIsland (j k : Nat) (f : Island → Island) (s : State) : eport j (modIsland k f s) = eport j s := by unfold modIsland; split <;> rfl
@[simp] theorem fsrc_modIsland (j k : Nat) (f : Island → Island) (s : State) : fsrc j (modIsland k f s) = fsrc j s := by unfold modIsland; split <;> rfl
@[simp] theorem sens_modIsland (j k : Nat) (f : Island → Island) (s : State) : sens j (modIsland k f s) = sens j s := by unfold modIsland; split <;> rfl
@[simp] theorem group_modIsland (j k : Nat) (f : Island → Island) (s : State) : group j (modIsland k f s) = group j s := by unfold modIsland; split <;> rfl
@[simp] theorem mitten_modIsland (j k : Nat) (f : Island → Island) (s : State) : mitten j (modIsland k f s) = mitten j s := by unfold modIsland; split <;> rfl
@[simp] theorem check_modIsland (j k : Nat) (f : Island → Island) (s : State) : check j (modIsland k f s) = check j s := by unfold modIsland; split <;> rfl
@[simp] theorem strm_modIsland (j k : Nat) (f : Island → Island) (s : State) : strm j (modIsland k f s) = strm j s := by unfold modIsland; split <;> rfl
@[simp] theorem edge_modIsland (j k : Nat) (f : Island → Island) (s : State) : edge j (modIsland k f s) = edge j s := by unfold modIsland; split <;> rfl
@[simp] theorem lslot_modIsland (j k : Nat) (f : Island → Island) (s : State) : lslot j (modIsland k f s) = lslot j s := by unfold modIsland; split <;> rfl
@[simp] theorem gateCtl_modIsland (j k : Nat) (f : Island → Island) (s : State) : gateCtl j (modIsland k f s) = gateCtl j s := by unfold modIsland; split <;> rfl
@[simp] theorem glove_modIsland (j k : Nat) (f : Island → Island) (s : State) : glove j (modIsland k f s) = glove j s := by unfold modIsland; split <;> rfl
@[simp] theorem csi_modIsland (j k : Nat) (f : Island → Island) (s : State) : csi j (modIsland k f s) = csi j s := by unfold modIsland; split <;> rfl
@[simp] theorem scene_modIsland (j k : Nat) (f : Island → Island) (s : State) : scene j (modIsland k f s) = scene j s := by unfold modIsland; split <;> rfl
@[simp] theorem hport_modIsland (j k : Nat) (f : Island → Island) (s : State) : hport j (modIsland k f s) = hport j s := by unfold modIsland; split <;> rfl
@[simp] theorem coll_modIsland (j k : Nat) (f : Island → Island) (s : State) : coll j (modIsland k f s) = coll j s := by unfold modIsland; split <;> rfl
@[simp] theorem pdie_modIsland (j k : Nat) (f : Island → Island) (s : State) : pdie j (modIsland k f s) = pdie j s := by unfold modIsland; split <;> rfl
@[simp] theorem flash_modIsland (j k : Nat) (f : Island → Island) (s : State) : flash j (modIsland k f s) = flash j s := by unfold modIsland; split <;> rfl
@[simp] theorem engine_modIsland (e k : Nat) (f : Island → Island) (s : State) : engine e (modIsland k f s) = engine e s := by unfold modIsland; split <;> rfl
@[simp] theorem trace_modIsland (d k : Nat) (f : Island → Island) (s : State) : trace d (modIsland k f s) = trace d s := by unfold modIsland; split <;> rfl

/-! ### pdie and modPdie -/

@[simp] theorem pdie_modPdie_same (k : Nat) (f : PlanDie → PlanDie) (s : State) : pdie k (modPdie k f s) = f (pdie k s) := by
  unfold modPdie pdie; split <;> simp_all
@[simp] theorem chan_modPdie (j k : Nat) (f : PlanDie → PlanDie) (s : State) : chan j (modPdie k f s) = chan j s := by unfold modPdie; split <;> rfl
@[simp] theorem eport_modPdie (j k : Nat) (f : PlanDie → PlanDie) (s : State) : eport j (modPdie k f s) = eport j s := by unfold modPdie; split <;> rfl
@[simp] theorem fsrc_modPdie (j k : Nat) (f : PlanDie → PlanDie) (s : State) : fsrc j (modPdie k f s) = fsrc j s := by unfold modPdie; split <;> rfl
@[simp] theorem sens_modPdie (j k : Nat) (f : PlanDie → PlanDie) (s : State) : sens j (modPdie k f s) = sens j s := by unfold modPdie; split <;> rfl
@[simp] theorem group_modPdie (j k : Nat) (f : PlanDie → PlanDie) (s : State) : group j (modPdie k f s) = group j s := by unfold modPdie; split <;> rfl
@[simp] theorem mitten_modPdie (j k : Nat) (f : PlanDie → PlanDie) (s : State) : mitten j (modPdie k f s) = mitten j s := by unfold modPdie; split <;> rfl
@[simp] theorem check_modPdie (j k : Nat) (f : PlanDie → PlanDie) (s : State) : check j (modPdie k f s) = check j s := by unfold modPdie; split <;> rfl
@[simp] theorem strm_modPdie (j k : Nat) (f : PlanDie → PlanDie) (s : State) : strm j (modPdie k f s) = strm j s := by unfold modPdie; split <;> rfl
@[simp] theorem edge_modPdie (j k : Nat) (f : PlanDie → PlanDie) (s : State) : edge j (modPdie k f s) = edge j s := by unfold modPdie; split <;> rfl
@[simp] theorem lslot_modPdie (j k : Nat) (f : PlanDie → PlanDie) (s : State) : lslot j (modPdie k f s) = lslot j s := by unfold modPdie; split <;> rfl
@[simp] theorem gateCtl_modPdie (j k : Nat) (f : PlanDie → PlanDie) (s : State) : gateCtl j (modPdie k f s) = gateCtl j s := by unfold modPdie; split <;> rfl
@[simp] theorem glove_modPdie (j k : Nat) (f : PlanDie → PlanDie) (s : State) : glove j (modPdie k f s) = glove j s := by unfold modPdie; split <;> rfl
@[simp] theorem csi_modPdie (j k : Nat) (f : PlanDie → PlanDie) (s : State) : csi j (modPdie k f s) = csi j s := by unfold modPdie; split <;> rfl
@[simp] theorem scene_modPdie (j k : Nat) (f : PlanDie → PlanDie) (s : State) : scene j (modPdie k f s) = scene j s := by unfold modPdie; split <;> rfl
@[simp] theorem hport_modPdie (j k : Nat) (f : PlanDie → PlanDie) (s : State) : hport j (modPdie k f s) = hport j s := by unfold modPdie; split <;> rfl
@[simp] theorem coll_modPdie (j k : Nat) (f : PlanDie → PlanDie) (s : State) : coll j (modPdie k f s) = coll j s := by unfold modPdie; split <;> rfl
@[simp] theorem island_modPdie (j k : Nat) (f : PlanDie → PlanDie) (s : State) : island j (modPdie k f s) = island j s := by unfold modPdie; split <;> rfl
@[simp] theorem flash_modPdie (j k : Nat) (f : PlanDie → PlanDie) (s : State) : flash j (modPdie k f s) = flash j s := by unfold modPdie; split <;> rfl
@[simp] theorem engine_modPdie (e k : Nat) (f : PlanDie → PlanDie) (s : State) : engine e (modPdie k f s) = engine e s := by unfold modPdie; split <;> rfl
@[simp] theorem trace_modPdie (d k : Nat) (f : PlanDie → PlanDie) (s : State) : trace d (modPdie k f s) = trace d s := by unfold modPdie; split <;> rfl

/-! ### flash and modFlash -/

@[simp] theorem flash_modFlash_same (k : Nat) (f : Flash → Flash) (s : State) : flash k (modFlash k f s) = f (flash k s) := by
  unfold modFlash flash; split <;> simp_all
@[simp] theorem chan_modFlash (j k : Nat) (f : Flash → Flash) (s : State) : chan j (modFlash k f s) = chan j s := by unfold modFlash; split <;> rfl
@[simp] theorem eport_modFlash (j k : Nat) (f : Flash → Flash) (s : State) : eport j (modFlash k f s) = eport j s := by unfold modFlash; split <;> rfl
@[simp] theorem fsrc_modFlash (j k : Nat) (f : Flash → Flash) (s : State) : fsrc j (modFlash k f s) = fsrc j s := by unfold modFlash; split <;> rfl
@[simp] theorem sens_modFlash (j k : Nat) (f : Flash → Flash) (s : State) : sens j (modFlash k f s) = sens j s := by unfold modFlash; split <;> rfl
@[simp] theorem group_modFlash (j k : Nat) (f : Flash → Flash) (s : State) : group j (modFlash k f s) = group j s := by unfold modFlash; split <;> rfl
@[simp] theorem mitten_modFlash (j k : Nat) (f : Flash → Flash) (s : State) : mitten j (modFlash k f s) = mitten j s := by unfold modFlash; split <;> rfl
@[simp] theorem check_modFlash (j k : Nat) (f : Flash → Flash) (s : State) : check j (modFlash k f s) = check j s := by unfold modFlash; split <;> rfl
@[simp] theorem strm_modFlash (j k : Nat) (f : Flash → Flash) (s : State) : strm j (modFlash k f s) = strm j s := by unfold modFlash; split <;> rfl
@[simp] theorem edge_modFlash (j k : Nat) (f : Flash → Flash) (s : State) : edge j (modFlash k f s) = edge j s := by unfold modFlash; split <;> rfl
@[simp] theorem lslot_modFlash (j k : Nat) (f : Flash → Flash) (s : State) : lslot j (modFlash k f s) = lslot j s := by unfold modFlash; split <;> rfl
@[simp] theorem gateCtl_modFlash (j k : Nat) (f : Flash → Flash) (s : State) : gateCtl j (modFlash k f s) = gateCtl j s := by unfold modFlash; split <;> rfl
@[simp] theorem glove_modFlash (j k : Nat) (f : Flash → Flash) (s : State) : glove j (modFlash k f s) = glove j s := by unfold modFlash; split <;> rfl
@[simp] theorem csi_modFlash (j k : Nat) (f : Flash → Flash) (s : State) : csi j (modFlash k f s) = csi j s := by unfold modFlash; split <;> rfl
@[simp] theorem scene_modFlash (j k : Nat) (f : Flash → Flash) (s : State) : scene j (modFlash k f s) = scene j s := by unfold modFlash; split <;> rfl
@[simp] theorem hport_modFlash (j k : Nat) (f : Flash → Flash) (s : State) : hport j (modFlash k f s) = hport j s := by unfold modFlash; split <;> rfl
@[simp] theorem coll_modFlash (j k : Nat) (f : Flash → Flash) (s : State) : coll j (modFlash k f s) = coll j s := by unfold modFlash; split <;> rfl
@[simp] theorem island_modFlash (j k : Nat) (f : Flash → Flash) (s : State) : island j (modFlash k f s) = island j s := by unfold modFlash; split <;> rfl
@[simp] theorem pdie_modFlash (j k : Nat) (f : Flash → Flash) (s : State) : pdie j (modFlash k f s) = pdie j s := by unfold modFlash; split <;> rfl
@[simp] theorem engine_modFlash (e k : Nat) (f : Flash → Flash) (s : State) : engine e (modFlash k f s) = engine e s := by unfold modFlash; split <;> rfl
@[simp] theorem trace_modFlash (d k : Nat) (f : Flash → Flash) (s : State) : trace d (modFlash k f s) = trace d s := by unfold modFlash; split <;> rfl

/-! ### The passage of time -/

@[simp] theorem chan_advanceTo (k t : Nat) (s : State) : chan k (advanceTo t s) = chan k s := by unfold advanceTo; split <;> rfl
@[simp] theorem eport_advanceTo (k t : Nat) (s : State) : eport k (advanceTo t s) = eport k s := by unfold advanceTo; split <;> rfl
@[simp] theorem fsrc_advanceTo (k t : Nat) (s : State) : fsrc k (advanceTo t s) = fsrc k s := by unfold advanceTo; split <;> rfl
@[simp] theorem sens_advanceTo (k t : Nat) (s : State) : sens k (advanceTo t s) = sens k s := by unfold advanceTo; split <;> rfl
@[simp] theorem group_advanceTo (k t : Nat) (s : State) : group k (advanceTo t s) = group k s := by unfold advanceTo; split <;> rfl
@[simp] theorem mitten_advanceTo (k t : Nat) (s : State) : mitten k (advanceTo t s) = mitten k s := by unfold advanceTo; split <;> rfl
@[simp] theorem check_advanceTo (k t : Nat) (s : State) : check k (advanceTo t s) = check k s := by unfold advanceTo; split <;> rfl
@[simp] theorem strm_advanceTo (k t : Nat) (s : State) : strm k (advanceTo t s) = strm k s := by unfold advanceTo; split <;> rfl
@[simp] theorem edge_advanceTo (k t : Nat) (s : State) : edge k (advanceTo t s) = edge k s := by unfold advanceTo; split <;> rfl
@[simp] theorem lslot_advanceTo (k t : Nat) (s : State) : lslot k (advanceTo t s) = lslot k s := by unfold advanceTo; split <;> rfl
@[simp] theorem gateCtl_advanceTo (k t : Nat) (s : State) : gateCtl k (advanceTo t s) = gateCtl k s := by unfold advanceTo; split <;> rfl
@[simp] theorem glove_advanceTo (k t : Nat) (s : State) : glove k (advanceTo t s) = glove k s := by unfold advanceTo; split <;> rfl
@[simp] theorem csi_advanceTo (k t : Nat) (s : State) : csi k (advanceTo t s) = csi k s := by unfold advanceTo; split <;> rfl
@[simp] theorem scene_advanceTo (k t : Nat) (s : State) : scene k (advanceTo t s) = scene k s := by unfold advanceTo; split <;> rfl
@[simp] theorem hport_advanceTo (k t : Nat) (s : State) : hport k (advanceTo t s) = hport k s := by unfold advanceTo; split <;> rfl
@[simp] theorem coll_advanceTo (k t : Nat) (s : State) : coll k (advanceTo t s) = coll k s := by unfold advanceTo; split <;> rfl
@[simp] theorem island_advanceTo (k t : Nat) (s : State) : island k (advanceTo t s) = island k s := by unfold advanceTo; split <;> rfl
@[simp] theorem pdie_advanceTo (k t : Nat) (s : State) : pdie k (advanceTo t s) = pdie k s := by unfold advanceTo; split <;> rfl
@[simp] theorem flash_advanceTo (k t : Nat) (s : State) : flash k (advanceTo t s) = flash k s := by unfold advanceTo; split <;> rfl
@[simp] theorem engine_advanceTo (k t : Nat) (s : State) : engine k (advanceTo t s) = engine k s := by unfold advanceTo; split <;> rfl
@[simp] theorem trace_advanceTo (k t : Nat) (s : State) : trace k (advanceTo t s) = trace k s := by unfold advanceTo; split <;> rfl

/-! ### settle -/

@[simp] theorem chan_settle (k : Nat) (s : State) : chan k (settle s) = chan k s := by unfold settle; dsimp only; split <;> rfl
@[simp] theorem eport_settle (k : Nat) (s : State) : eport k (settle s) = eport k s := by unfold settle; dsimp only; split <;> rfl
@[simp] theorem fsrc_settle (k : Nat) (s : State) : fsrc k (settle s) = fsrc k s := by unfold settle; dsimp only; split <;> rfl
@[simp] theorem sens_settle (k : Nat) (s : State) : sens k (settle s) = sens k s := by unfold settle; dsimp only; split <;> rfl
@[simp] theorem group_settle (k : Nat) (s : State) : group k (settle s) = group k s := by unfold settle; dsimp only; split <;> rfl
@[simp] theorem mitten_settle (k : Nat) (s : State) : mitten k (settle s) = mitten k s := by unfold settle; dsimp only; split <;> rfl
@[simp] theorem check_settle (k : Nat) (s : State) : check k (settle s) = check k s := by unfold settle; dsimp only; split <;> rfl
@[simp] theorem strm_settle (k : Nat) (s : State) : strm k (settle s) = strm k s := by unfold settle; dsimp only; split <;> rfl
@[simp] theorem edge_settle (k : Nat) (s : State) : edge k (settle s) = edge k s := by unfold settle; dsimp only; split <;> rfl
@[simp] theorem lslot_settle (k : Nat) (s : State) : lslot k (settle s) = lslot k s := by unfold settle; dsimp only; split <;> rfl
@[simp] theorem gateCtl_settle (k : Nat) (s : State) : gateCtl k (settle s) = gateCtl k s := by unfold settle; dsimp only; split <;> rfl
@[simp] theorem glove_settle (k : Nat) (s : State) : glove k (settle s) = glove k s := by unfold settle; dsimp only; split <;> rfl
@[simp] theorem csi_settle (k : Nat) (s : State) : csi k (settle s) = csi k s := by unfold settle; dsimp only; split <;> rfl
@[simp] theorem scene_settle (k : Nat) (s : State) : scene k (settle s) = scene k s := by unfold settle; dsimp only; split <;> rfl
@[simp] theorem hport_settle (k : Nat) (s : State) : hport k (settle s) = hport k s := by unfold settle; dsimp only; split <;> rfl
@[simp] theorem coll_settle (k : Nat) (s : State) : coll k (settle s) = coll k s := by unfold settle; dsimp only; split <;> rfl
@[simp] theorem island_settle (k : Nat) (s : State) : island k (settle s) = island k s := by unfold settle; dsimp only; split <;> rfl
@[simp] theorem pdie_settle (k : Nat) (s : State) : pdie k (settle s) = pdie k s := by unfold settle; dsimp only; split <;> rfl
@[simp] theorem flash_settle (k : Nat) (s : State) : flash k (settle s) = flash k s := by unfold settle; dsimp only; split <;> rfl

/-! ### Traces -/

@[simp] theorem chan_setTrace (k d : Nat) (u : TraceUnit) (s : State) : chan k (setTrace d u s) = chan k s := by unfold setTrace; split <;> rfl
@[simp] theorem eport_setTrace (k d : Nat) (u : TraceUnit) (s : State) : eport k (setTrace d u s) = eport k s := by unfold setTrace; split <;> rfl
@[simp] theorem fsrc_setTrace (k d : Nat) (u : TraceUnit) (s : State) : fsrc k (setTrace d u s) = fsrc k s := by unfold setTrace; split <;> rfl
@[simp] theorem sens_setTrace (k d : Nat) (u : TraceUnit) (s : State) : sens k (setTrace d u s) = sens k s := by unfold setTrace; split <;> rfl
@[simp] theorem group_setTrace (k d : Nat) (u : TraceUnit) (s : State) : group k (setTrace d u s) = group k s := by unfold setTrace; split <;> rfl
@[simp] theorem mitten_setTrace (k d : Nat) (u : TraceUnit) (s : State) : mitten k (setTrace d u s) = mitten k s := by unfold setTrace; split <;> rfl
@[simp] theorem check_setTrace (k d : Nat) (u : TraceUnit) (s : State) : check k (setTrace d u s) = check k s := by unfold setTrace; split <;> rfl
@[simp] theorem strm_setTrace (k d : Nat) (u : TraceUnit) (s : State) : strm k (setTrace d u s) = strm k s := by unfold setTrace; split <;> rfl
@[simp] theorem edge_setTrace (k d : Nat) (u : TraceUnit) (s : State) : edge k (setTrace d u s) = edge k s := by unfold setTrace; split <;> rfl
@[simp] theorem lslot_setTrace (k d : Nat) (u : TraceUnit) (s : State) : lslot k (setTrace d u s) = lslot k s := by unfold setTrace; split <;> rfl
@[simp] theorem gateCtl_setTrace (k d : Nat) (u : TraceUnit) (s : State) : gateCtl k (setTrace d u s) = gateCtl k s := by unfold setTrace; split <;> rfl
@[simp] theorem glove_setTrace (k d : Nat) (u : TraceUnit) (s : State) : glove k (setTrace d u s) = glove k s := by unfold setTrace; split <;> rfl
@[simp] theorem csi_setTrace (k d : Nat) (u : TraceUnit) (s : State) : csi k (setTrace d u s) = csi k s := by unfold setTrace; split <;> rfl
@[simp] theorem scene_setTrace (k d : Nat) (u : TraceUnit) (s : State) : scene k (setTrace d u s) = scene k s := by unfold setTrace; split <;> rfl
@[simp] theorem hport_setTrace (k d : Nat) (u : TraceUnit) (s : State) : hport k (setTrace d u s) = hport k s := by unfold setTrace; split <;> rfl
@[simp] theorem coll_setTrace (k d : Nat) (u : TraceUnit) (s : State) : coll k (setTrace d u s) = coll k s := by unfold setTrace; split <;> rfl
@[simp] theorem island_setTrace (k d : Nat) (u : TraceUnit) (s : State) : island k (setTrace d u s) = island k s := by unfold setTrace; split <;> rfl
@[simp] theorem pdie_setTrace (k d : Nat) (u : TraceUnit) (s : State) : pdie k (setTrace d u s) = pdie k s := by unfold setTrace; split <;> rfl
@[simp] theorem flash_setTrace (k d : Nat) (u : TraceUnit) (s : State) : flash k (setTrace d u s) = flash k s := by unfold setTrace; split <;> rfl
@[simp] theorem trace_setTrace_same (d : Nat) (u : TraceUnit) (s : State) : trace d (setTrace d u s) = u := by
  unfold setTrace trace; split <;> simp_all

/-! ### latch -/

@[simp] theorem fsrc_latch_same (id d : Nat) (s : State) : fsrc id (latch id d s) =
    { fsrc id s with latched := true, hits := (fsrc id s).hits + 1, detail := d, since := if (fsrc id s).hits = 0 then s.time.now else (fsrc id s).since } :=
  fsrc_modSrc_same _ _ _
theorem fsrc_latch_ne {j id : Nat} (d : Nat) (s : State) (h : j ≠ id) : fsrc j (latch id d s) = fsrc j s := fsrc_modSrc_ne _ _ h
/-- A latched source stays latched when another latches. -/
theorem latched_latch (j id d : Nat) (s : State) (h : (fsrc j s).latched = true) : (fsrc j (latch id d s)).latched = true := by
  by_cases e : j = id
  · subst e; simp
  · rw [fsrc_latch_ne _ _ e, h]
@[simp] theorem chan_latch (k id d : Nat) (s : State) : chan k (latch id d s) = chan k s := rfl
@[simp] theorem eport_latch (k id d : Nat) (s : State) : eport k (latch id d s) = eport k s := rfl
@[simp] theorem sens_latch (k id d : Nat) (s : State) : sens k (latch id d s) = sens k s := rfl
@[simp] theorem group_latch (k id d : Nat) (s : State) : group k (latch id d s) = group k s := rfl
@[simp] theorem mitten_latch (k id d : Nat) (s : State) : mitten k (latch id d s) = mitten k s := rfl
@[simp] theorem check_latch (k id d : Nat) (s : State) : check k (latch id d s) = check k s := rfl
@[simp] theorem strm_latch (k id d : Nat) (s : State) : strm k (latch id d s) = strm k s := rfl
@[simp] theorem edge_latch (k id d : Nat) (s : State) : edge k (latch id d s) = edge k s := rfl
@[simp] theorem lslot_latch (k id d : Nat) (s : State) : lslot k (latch id d s) = lslot k s := rfl
@[simp] theorem gateCtl_latch (k id d : Nat) (s : State) : gateCtl k (latch id d s) = gateCtl k s := rfl
@[simp] theorem glove_latch (k id d : Nat) (s : State) : glove k (latch id d s) = glove k s := rfl
@[simp] theorem csi_latch (k id d : Nat) (s : State) : csi k (latch id d s) = csi k s := rfl
@[simp] theorem scene_latch (k id d : Nat) (s : State) : scene k (latch id d s) = scene k s := rfl
@[simp] theorem hport_latch (k id d : Nat) (s : State) : hport k (latch id d s) = hport k s := rfl
@[simp] theorem coll_latch (k id d : Nat) (s : State) : coll k (latch id d s) = coll k s := rfl
@[simp] theorem island_latch (k id d : Nat) (s : State) : island k (latch id d s) = island k s := rfl
@[simp] theorem pdie_latch (k id d : Nat) (s : State) : pdie k (latch id d s) = pdie k s := rfl
@[simp] theorem flash_latch (k id d : Nat) (s : State) : flash k (latch id d s) = flash k s := rfl
@[simp] theorem trace_latch (k id d : Nat) (s : State) : trace k (latch id d s) = trace k s := rfl

end Sys2Proof.Machine
end

