-- ==== Sys2Proof/Laws/Ops.lean ====
section
/-!
SUPPORT. Everything the shared operations can do, said once: device and host memory, the event trace, latches, messages,
configuration writes, the module state and the SAFE pins.
-/

namespace Sys2Proof.Machine

/-! ### Device memory -/

/-- Writing device memory changes nothing but the DDR block. -/
theorem devWr8_eq (a : Nat) (b : Byte) (s : State) : ∃ m, devWr8 a b s = { s with ddr := m } := by
  unfold devWr8 setQueued modChan
  split
  · exact ⟨s.ddr, rfl⟩
  · split
    · exact ⟨_, rfl⟩
    · exact ⟨_, rfl⟩

theorem devWr_eq (a : Nat) (bs : List Byte) (s : State) : ∃ m, devWr a bs s = { s with ddr := m } := by
  induction bs generalizing a s with
  | nil => exact ⟨s.ddr, rfl⟩
  | cons b r ih =>
    obtain ⟨m, h⟩ := devWr8_eq a b s
    obtain ⟨n, h'⟩ := ih (a + 1) (devWr8 a b s)
    exact ⟨n, by rw [devWr, h', h]⟩

/-! ### The event trace -/

/-- A trace unit put back changes nothing but the trace units. -/
theorem setTrace_eq (d : Nat) (x : TraceUnit) (s : State) :
    ∃ a b, setTrace d x s = { s with time := { s.time with trace0 := a, trace1 := b } } := by
  unfold setTrace; split
  · exact ⟨x, s.time.trace1, rfl⟩
  · exact ⟨s.time.trace0, x, rfl⟩

theorem tracePut_eq (d src kind data : Nat) (s : State) :
    ∃ m a b, tracePut d src kind data s = { s with ddr := m, time := { s.time with trace0 := a, trace1 := b } } := by
  unfold tracePut; dsimp only; split
  · obtain ⟨m, h⟩ := devWr_eq (Config.traceRing d + (trace d s).wr % 2 ^ 18 * 16)
      (traceBytes (stamp d s) src kind (b2n (!fineClock d s) + 2 * b2n s.time.skewed) ((trace d s).wr % 256) (data % 2 ^ 32)) s
    rw [h]
    obtain ⟨a, b, h2⟩ := setTrace_eq d { trace d s with wr := wrapAdd 32 (trace d s).wr 1, full := (trace d s).full || decide (2 ^ 18 ≤ (trace d s).wr + 1) } { s with ddr := m }
    exact ⟨m, a, b, h2⟩
  · obtain ⟨a, b, h2⟩ := setTrace_eq d { trace d s with dropped := (trace d s).dropped + 1 } s
    exact ⟨s.ddr, a, b, h2⟩

/-- A trace event changes nothing but the trace units and device memory. -/
theorem traceEv_eq (d src kind data : Nat) (s : State) :
    ∃ m a b, traceEv d src kind data s = { s with ddr := m, time := { s.time with trace0 := a, trace1 := b } } := by
  unfold traceEv; dsimp only; split
  · split
    · exact tracePut_eq _ _ _ _ _
    · obtain ⟨a1, b1, h1⟩ := setTrace_eq (liveDie d s) { trace (liveDie d s) s with dropped := 0 } s
      rw [h1]
      obtain ⟨m2, a2, b2, h2⟩ := tracePut_eq (liveDie d s) 0xE4 8 (trace (liveDie d s) s).dropped
        { s with time := { s.time with trace0 := a1, trace1 := b1 } }
      rw [h2]
      obtain ⟨m3, a3, b3, h3⟩ := tracePut_eq (liveDie d s) src kind data
        { s with ddr := m2, time := { s.time with trace0 := a2, trace1 := b2 } }
      exact ⟨m3, a3, b3, h3⟩
  · exact ⟨s.ddr, s.time.trace0, s.time.trace1, rfl⟩

/-! ### Latches -/

/-- A latch changes nothing but the sources. -/
theorem latch_eq (id d : Nat) (s : State) : ∃ x, latch id d s = { s with fault := { s.fault with src := x } } := ⟨_, rfl⟩

theorem latchBoth_eq (i d : Nat) (s : State) : ∃ x, latchBoth i d s = { s with fault := { s.fault with src := x } } := ⟨_, rfl⟩

theorem latchBoth_latched (i d : Nat) (s : State) :
    (fsrc i (latchBoth i d s)).latched = true ∧ (fsrc (0x400 + i) (latchBoth i d s)).latched = true := by
  unfold latchBoth
  exact ⟨latched_latch _ _ _ _ (by simp), by simp⟩

/-! ### Module state and SAFE pins -/

/-- Bringing MOD_STATUS up to date writes STATE and PREV_STATE and nothing else. -/
theorem settle_eq (s : State) : ∃ a b, settle s = { s with power := { s.power with st := a, prev := b } } := by
  unfold settle; dsimp only; split
  · exact ⟨s.power.st, s.power.prev, rfl⟩
  · exact ⟨_, _, rfl⟩

theorem settle_st (s : State) : (settle s).power.st = modStateOf s := by
  unfold settle; dsimp only; split
  · next h => exact h.symm
  · rfl

theorem settle_on (s : State) : (settle s).power.on = s.power.on := by
  obtain ⟨a, b, h⟩ := settle_eq s; rw [h]

/-! ### Host memory and messages -/

/-- A write of host memory changes nothing but host memory. -/
theorem hostWr_eq (p a : Nat) (bs : List Byte) (s : State) : ∃ m, hostWr p a bs s = { s with host := { s.host with mem := m } } := by
  unfold hostWr; split
  · exact ⟨_, rfl⟩
  · exact ⟨s.host.mem, rfl⟩

/-- An MSI-X vector changes the messages sent and the pending bits of the two ports, and nothing else. -/
theorem sendVec_eq (p v : Nat) (s : State) :
    ∃ a b m, sendVec p v s = { s with host := { s.host with p0 := { s.host.p0 with msix := a }, p1 := { s.host.p1 with msix := b }, msgs := m } } := by
  unfold sendVec; dsimp only; split
  · exact ⟨s.host.p0.msix, s.host.p1.msix, s.host.msgs, rfl⟩
  · split
    · unfold modPort; split
      · exact ⟨_, s.host.p1.msix, s.host.msgs, rfl⟩
      · exact ⟨s.host.p0.msix, _, s.host.msgs, rfl⟩
    · exact ⟨s.host.p0.msix, s.host.p1.msix, _, rfl⟩

/-! ### Configuration writes (R12) -/

theorem rwWrite_idle (off : Nat) (busy act : State → State) (s : State) : rwWrite true off busy act s = act s := rfl

theorem rwWrite_busy (off : Nat) (busy act : State → State) (s : State) :
    rwWrite false off busy act s = latch (offHalf off * 0x400 + 0x142) off (busy s) := rfl

end Sys2Proof.Machine
end

