-- ==== Sys2Proof/Laws/Safety.lean ====
section
/-!
SUPPORT. What a write of device memory, a trace event and a fault record leave as they were, in the terms of Safety.
-/

namespace Sys2Proof

open Sys2Proof.Machine

/-! ### Device memory -/

theorem DeviceKept.refl (P : Nat → Prop) (s : State) : DeviceKept P s s := ⟨fun _ _ => rfl, fun _ => rfl⟩

theorem DeviceKept.trans {P : Nat → Prop} {s t u : State} (h : DeviceKept P s t) (k : DeviceKept P t u) : DeviceKept P s u := by
  exact ⟨fun a ha => (k.1 a ha).trans (h.1 a ha), fun ch => (k.2 ch).trans (h.2 ch)⟩

theorem DeviceKept.mono {P Q : Nat → Prop} {s u : State} (h : DeviceKept P s u) (hpq : ∀ a, P a → Q a) : DeviceKept Q s u :=
  ⟨fun a ha => h.1 a (fun hp => ha (hpq a hp)), h.2⟩

/-- Only the DDR block of either state matters. -/
theorem DeviceKept.of_ddr {P : Nat → Prop} {s u s' u' : State} (h : DeviceKept P s u) (hs : s'.ddr = s.ddr) (hu : u'.ddr = u.ddr) :
    DeviceKept P s' u' := by
  obtain ⟨h1, h2⟩ := h
  refine ⟨fun a ha => ?_, fun ch => ?_⟩
  · have := h1 a ha
    unfold devRd8 queuedByte chan at this ⊢
    rw [hs, hu]; exact this
  · have := h2 ch
    unfold chan at this ⊢
    rw [hs, hu]; exact this

/-- An address is its channel and its place in it. -/
theorem addr_ext {a b : Nat} (hc : chanOf a = chanOf b) (hl : localOf a / 64 = localOf b / 64) (ho : a % 64 = b % 64) : a = b := by
  unfold chanOf at hc; unfold localOf at hl; omega

theorem find_map_line (l : Nat) (f : DdrWrite → DdrWrite) (hf : ∀ w, (f w).line = w.line) (ws : List DdrWrite) :
    (ws.map f).find? (fun w => w.line == l) = (ws.find? (fun w => w.line == l)).map f := by
  induction ws with
  | nil => rfl
  | cons w r ih =>
    simp only [List.map_cons, List.find?_cons, hf]
    split <;> simp_all

/-- A byte put into a queued write is the byte its address holds; the other addresses keep theirs. -/
theorem queuedByte_setQueued (a x : Nat) (b : Byte) (s : State) :
    queuedByte x (setQueued a b s)
      = if x = a then (if (queuedByte a s).isSome then some b else queuedByte x (setQueued a b s)) else queuedByte x s := by
  by_cases hx : x = a
  · subst hx
    simp only [if_true]
    split
    · next h =>
      unfold queuedByte setQueued at *
      rw [chan_modChan_same]
      simp only
      rw [find_map_line _ _ (by intro w; split <;> rfl)]
      cases hw : (chan (chanOf x) s).writes.find? (fun w => w.line == localOf x / 64) with
      | none => rw [hw] at h; simp at h
      | some w =>
        have hl : w.line = localOf x / 64 := by simpa using List.find?_some hw
        simp only [Option.map_some, hl, if_true]
        rw [List.find?_append]
        have : (w.bytes.filter (fun y => y.1 != x % 64)).find? (fun y => y.1 == x % 64) = none := by
          rw [List.find?_eq_none]; intro y hy; simp at hy ⊢; exact hy.2
        rw [this]; simp
    · rfl
  · simp only [hx, if_false]
    unfold queuedByte setQueued
    rw [chan_modChan]
    by_cases hc : chanOf x = chanOf a
    · rw [if_pos hc]
      simp only
      rw [find_map_line _ _ (by intro w; split <;> rfl), ← hc]
      cases hw : (chan (chanOf x) s).writes.find? (fun w => w.line == localOf x / 64) with
      | none => rfl
      | some w =>
        have hl : w.line = localOf x / 64 := by simpa using List.find?_some hw
        simp only [Option.map_some]
        by_cases hlx : w.line = localOf a / 64
        · rw [if_pos hlx]
          have ho : x % 64 ≠ a % 64 := fun h => hx (addr_ext hc (hl.symm.trans hlx) h)
          simp only
          rw [List.find?_append]
          have h1 : (w.bytes.filter (fun y => y.1 != a % 64)).find? (fun y => y.1 == x % 64) = w.bytes.find? (fun y => y.1 == x % 64) := by
            induction w.bytes with
            | nil => rfl
            | cons y r ih =>
              rw [List.filter_cons]
              split
              · rw [List.find?_cons, List.find?_cons, ih]
              · next hy =>
                have : (y.1 == x % 64) = false := by
                  simp at hy ⊢; omega
                rw [List.find?_cons, this, ih]
          rw [h1]
          have h2 : [(a % 64, b)].find? (fun y => y.1 == x % 64) = none := by
            simp; omega
          rw [h2]; simp
        · rw [if_neg hlx]
    · rw [if_neg hc]

/-- A byte written to device memory changes no other byte. -/
theorem devWr8_kept (a : Nat) (b : Byte) (s : State) : DeviceKept (· = a) s (devWr8 a b s) := by
  unfold devWr8
  split
  · exact DeviceKept.refl _ s
  · split
    · refine ⟨fun x hx => ?_, fun ch => ?_⟩
      · unfold devRd8; rw [queuedByte_setQueued, if_neg hx]; rfl
      · unfold setQueued; rw [chan_modChan]; split
        · next h =>
          subst h
          simp only [List.map_map]
          congr 1
          apply List.map_congr_left
          intro w _
          simp only [Function.comp]
          split <;> rfl
        · rfl
    · refine ⟨fun x hx => ?_, fun _ => rfl⟩
      show (queuedByte x s).getD _ = (queuedByte x s).getD _
      rw [rd8_wr8, if_neg hx]

/-- A byte of a channel that is up reads as written. -/
theorem devRd8_devWr8 (a : Nat) (b : Byte) (s : State) (h : chanUp (chanOf a) s = true) : devRd8 a (devWr8 a b s) = b := by
  unfold devWr8
  rw [h]
  simp only [Bool.not_true, Bool.false_eq_true, if_false]
  split
  · next hq => unfold devRd8; rw [queuedByte_setQueued, if_pos rfl, if_pos hq]; rfl
  · next hq =>
    have hn : queuedByte a s = none := by simpa using hq
    show (queuedByte a s).getD _ = b
    rw [hn, Option.getD_none, rd8_wr8, if_pos rfl]

theorem chanUp_ddr (ch : Nat) (s u : State) (h : u.fault = s.fault) : chanUp ch u = chanUp ch s := by
  unfold chanUp isIso; rw [h]

theorem devWr_kept (a : Nat) (bs : List Byte) (s : State) :
    DeviceKept (fun x => a ≤ x ∧ x < a + bs.length) s (devWr a bs s) := by
  induction bs generalizing a s with
  | nil => exact DeviceKept.refl _ s
  | cons b r ih =>
    refine DeviceKept.trans ((devWr8_kept a b s).mono ?_) ((ih (a + 1) (devWr8 a b s)).mono ?_)
    · intro x hx; simp only [List.length_cons]; omega
    · intro x hx; simp only [List.length_cons]; omega

/-- Bytes of channels that are up read as written. -/
theorem devRd8_devWr (a i : Nat) (bs : List Byte) (s : State) (h : i < bs.length) (hu : ∀ j < bs.length, chanUp (chanOf (a + j)) s = true) :
    devRd8 (a + i) (devWr a bs s) = bs[i] := by
  induction bs generalizing a i s with
  | nil => simp at h
  | cons b r ih =>
    rw [devWr]
    have hup : ∀ j < r.length, chanUp (chanOf (a + 1 + j)) (devWr8 a b s) = true := by
      intro j hj
      have := hu (j + 1) (by simp; omega)
      rw [chanUp_ddr _ s _ (by obtain ⟨m, hm⟩ := devWr8_eq a b s; rw [hm]), show a + 1 + j = a + (j + 1) by omega]
      exact this
    cases i with
    | zero =>
      rw [Nat.add_zero, (devWr_kept (a + 1) r (devWr8 a b s)).1 a (by omega)]
      exact devRd8_devWr8 a b s (by simpa using hu 0 (by simp))
    | succ i =>
      rw [show a + (i + 1) = a + 1 + i by omega]
      exact ih (a + 1) i (devWr8 a b s) (by simpa using h) hup

/-! ### Trace events and records -/

/-- An address of the ring of a die, or of a ring laid out like those two. -/
theorem tracePut_ring (d src kind data : Nat) (s : State) :
    DeviceKept (fun a => Config.traceRing d ≤ a ∧ a < Config.traceRing d + 2 ^ 22) s (tracePut d src kind data s) := by
  have hset : ∀ x v, DeviceKept (fun a => Config.traceRing d ≤ a ∧ a < Config.traceRing d + 2 ^ 22) s v →
      DeviceKept (fun a => Config.traceRing d ≤ a ∧ a < Config.traceRing d + 2 ^ 22) s (setTrace d x v) := by
    intro x v hv
    obtain ⟨a, b, h⟩ := setTrace_eq d x v
    rw [h]; exact hv.of_ddr rfl rfl
  unfold tracePut; dsimp only; split
  · refine hset _ _ ((devWr_kept _ _ s).mono ?_)
    intro x hx
    refine ⟨by omega, ?_⟩
    have h16 : (traceBytes (stamp d s) src kind (b2n (!fineClock d s) + 2 * b2n s.time.skewed) ((trace d s).wr % 256) (data % 2 ^ 32)).length = 16 := by
      simp [traceBytes]
    rw [h16] at hx
    have : (trace d s).wr % 2 ^ 18 < 2 ^ 18 := Nat.mod_lt _ (by decide)
    omega
  · exact hset _ _ (DeviceKept.refl _ s)

theorem traceEv_ring (d src kind data : Nat) (s : State) :
    DeviceKept (fun a => Config.traceRing (liveDie d s) ≤ a ∧ a < Config.traceRing (liveDie d s) + 2 ^ 22) s (traceEv d src kind data s) := by
  unfold traceEv; dsimp only; split
  · split
    · exact tracePut_ring _ _ _ _ _
    · refine DeviceKept.trans ?_ (tracePut_ring _ _ _ _ _)
      obtain ⟨a, b, h⟩ := setTrace_eq (liveDie d s) { trace (liveDie d s) s with dropped := 0 } s
      rw [h]
      exact (tracePut_ring _ _ _ _ { s with time := { s.time with trace0 := a, trace1 := b } }).of_ddr rfl rfl
  · exact DeviceKept.refl _ s

theorem liveDie_lt (d : Nat) (s : State) (hd : d < 2) : liveDie d s < 2 := by unfold liveDie; split <;> omega

theorem traceEv_kept (d src kind data : Nat) (s : State) (hd : d < 2) : DeviceKept InTraceRing s (traceEv d src kind data s) :=
  (traceEv_ring d src kind data s).mono (fun _ h => ⟨_, liveDie_lt d s hd, h.1, h.2⟩)

/-- The host copy of a record: written at or above MIN_SEV, where the port carries it. -/
theorem copyRec_cases (r : FaultRec) (s : State) :
    (¬ (s.fault.ringEnable = true ∧ s.fault.ringMinSev ≤ r.sev) ∧ copyRec r s = s)
    ∨ ((s.fault.ringEnable = true ∧ s.fault.ringMinSev ≤ r.sev) ∧ ∃ h, copyRec r s
          = { s with host := h, fault := { s.fault with ringWr := wrapAdd 16 s.fault.ringWr 1 } }
        ∧ (carried s.fault.ringPort s = true → h = { s.host with
            mem := wrBytes s.host.mem (s.fault.ringBase + s.fault.ringWr % 1024 * 32)
              (recBytes r (if s.fault.ringWr / 1024 % 2 = 0 then 1 else 0)) })
        ∧ (carried s.fault.ringPort s = false → h = s.host)) := by
  unfold copyRec hostWr
  split
  · next h =>
    refine .inr ⟨h, ?_⟩
    dsimp only
    cases hc : carried s.fault.ringPort s with
    | true => exact ⟨_, rfl, fun _ => rfl, fun h => by simp at h⟩
    | false => exact ⟨_, rfl, fun h => by simp at h, fun _ => rfl⟩
  · next h => exact .inl ⟨h, rfl⟩

/-- The collector that `modColl` changes, and everything it leaves. -/
theorem modColl_facts (c : Nat) (f : Collector → Collector) (s : State) (hc : c < 2) :
    coll c (modColl c f s) = f (coll c s) ∧ coll (1 - c) (modColl c f s) = coll (1 - c) s
    ∧ modColl c f s = { s with fault := { s.fault with c0 := (modColl c f s).fault.c0, c1 := (modColl c f s).fault.c1 } } := by
  have h01 : c = 0 ∨ c = 1 := by omega
  rcases h01 with rfl | rfl <;> exact ⟨rfl, rfl, rfl⟩

theorem coll_of_fault (c : Nat) (s u : State) (h0 : u.fault.c0 = s.fault.c0) (h1 : u.fault.c1 = s.fault.c1) : coll c u = coll c s := by
  unfold coll; rw [h0, h1]

/-- Writing a record records it. -/
theorem writeRec_recorded (c : Nat) (r : FaultRec) (s : State) (hc : c < 2) : Recorded c r s (writeRec c r s) := by
  unfold writeRec
  dsimp only
  generalize hr : ({ r with rseq := (coll c s).rseq, jepoch := s.power.jepoch } : FaultRec) = r'
  have hsev : r'.sev = r.sev := by rw [← hr]
  obtain ⟨f1, f2, f3⟩ := modColl_facts c (fun x => { x with
    faults := if r.sev = 0 then x.faults else satAdd 32 x.faults 1, rseq := wrapAdd 32 (coll c s).rseq 1
    ring := tset {} ((coll c s).rseq % 4096) r' x.ring }) s hc
  generalize modColl c _ s = v at f1 f2 f3 ⊢
  have hk := traceEv_kept c (0x50 + c) 0x20 (r.source + 2048 * r.sev) v hc
  obtain ⟨m, a, b, ht⟩ := traceEv_eq c (0x50 + c) 0x20 (r.source + 2048 * r.sev) v
  rw [ht] at hk ⊢
  generalize hw : ({ v with ddr := m, time := { v.time with trace0 := a, trace1 := b } } : State) = w at hk ⊢
  have hcw : ∀ (u : State), u.fault.c0 = w.fault.c0 → u.fault.c1 = w.fault.c1 → ∀ j, coll j u = coll j v := by
    intro u h0 h1 j; exact coll_of_fault j v u (by rw [h0, ← hw]) (by rw [h1, ← hw])
  have hpre : w.fault.ringEnable = s.fault.ringEnable ∧ w.fault.ringMinSev = s.fault.ringMinSev ∧ w.fault.ringWr = s.fault.ringWr
      ∧ w.fault.ringBase = s.fault.ringBase ∧ w.host = s.host ∧ carried w.fault.ringPort w = carried s.fault.ringPort s := by
    rw [← hw, f3]; exact ⟨rfl, rfl, rfl, rfl, rfl, rfl⟩
  obtain ⟨p1, p2, p3, p4, p5, p6⟩ := hpre
  have hw' : w = { s with
      time := { s.time with trace0 := a, trace1 := b }, ddr := m
      fault := { s.fault with c0 := v.fault.c0, c1 := v.fault.c1 } } := by rw [← hw, f3]
  have hsv : v.ddr = s.ddr := by rw [f3]
  have main : ∀ (u : State) (h : HostState) (n : Nat), u = { w with host := h, fault := { w.fault with ringWr := n } } →
      ((s.fault.ringEnable = true ∧ s.fault.ringMinSev ≤ r.sev) → n = wrapAdd 16 s.fault.ringWr 1
        ∧ (carried s.fault.ringPort s = true → h = { s.host with
            mem := wrBytes s.host.mem (s.fault.ringBase + s.fault.ringWr % 1024 * 32)
              (recBytes r' (if s.fault.ringWr / 1024 % 2 = 0 then 1 else 0)) })
        ∧ (carried s.fault.ringPort s = false → h = s.host)) →
      (¬ (s.fault.ringEnable = true ∧ s.fault.ringMinSev ≤ r.sev) → n = s.fault.ringWr ∧ h = s.host) → Recorded c r s u := by
    intro u h n hu hy hn
    have hj := hcw u (by rw [hu]) (by rw [hu])
    refine ⟨?_, ?_, ?_, ?_, ?_, ?_, hk.of_ddr hsv.symm (by rw [hu]), ?_⟩
    · rw [hj, f1, hr]; exact tget_tset_same _ _ _ _
    · intro j hne; rw [hj, f1]; exact tget_tset_ne _ _ _ hne
    · rw [hj, f1]
    · rw [hj, f2]
    · rw [hr, hu]; exact hy
    · rw [hu]; exact hn
    · rw [hu, hw']
  rcases copyRec_cases r' w with ⟨hn, he⟩ | ⟨hy, h, he, hin, hout⟩
  · refine main _ w.host w.fault.ringWr (by rw [he]) ?_ ?_
    · intro h; rw [p1, p2, hsev] at hn; exact absurd h hn
    · intro _; exact ⟨p3, p5⟩
  · refine main _ h _ he ?_ ?_
    · intro _
      rw [p6] at hin hout
      refine ⟨by rw [p3], fun hcar => ?_, fun hcar => ?_⟩
      · rw [hin hcar, p5, p4, p3]
      · rw [hout hcar, p5]
    · intro hn; rw [p1, p2, hsev] at hy; exact absurd hy hn

/-- The end of a reaction: the second record, the clear, the timer freed, and nothing else. -/
theorem completeSrc_ended (id action : Nat) (s : State) (hid : id < 2048) :
    let u := completeSrc id action s
    let c := id / 0x400
    fsrc id u = { fsrc id s with timer := none, active := false, latched := (fsrc id s).wire } ∧ (∀ j, j ≠ id → fsrc j u = fsrc j s)
    ∧ (coll c u).open_ = (coll c s).open_.filter (· != id) ∧ u.fault.isoPend = s.fault.isoPend
    ∧ Recorded c { raiseRec id action s with done := shortStamp c s } s u ∧ u.fault.safeReq = s.fault.safeReq
    ∧ u.power = s.power ∧ (∀ d, stamp d u = stamp d s) := by
  intro u c
  have hc : c < 2 := by omega
  have hr := writeRec_recorded c { raiseRec id action s with done := shortStamp c s } s hc
  -- fields that the record leaves
  have hsame : ∀ r, (writeRec c r s).fault.src = s.fault.src ∧ (writeRec c r s).fault.isoPend = s.fault.isoPend
      ∧ (writeRec c r s).fault.safeReq = s.fault.safeReq ∧ (coll c (writeRec c r s)).open_ = (coll c s).open_ := by
    intro r
    unfold writeRec
    dsimp only
    obtain ⟨f1, f2, f3⟩ := modColl_facts c (fun x => { x with
      faults := if r.sev = 0 then x.faults else satAdd 32 x.faults 1, rseq := wrapAdd 32 (coll c s).rseq 1
      ring := tset {} ((coll c s).rseq % 4096) { r with rseq := (coll c s).rseq, jepoch := s.power.jepoch } x.ring }) s hc
    generalize modColl c _ s = v at f1 f2 f3 ⊢
    obtain ⟨m, a, b, ht⟩ := traceEv_eq c (0x50 + c) 0x20 (r.source + 2048 * r.sev) v
    rw [ht]
    have hf : v.fault.src = s.fault.src ∧ v.fault.isoPend = s.fault.isoPend ∧ v.fault.safeReq = s.fault.safeReq := by rw [f3]; exact ⟨rfl, rfl, rfl⟩
    rcases copyRec_cases { r with rseq := (coll c s).rseq, jepoch := s.power.jepoch } { v with ddr := m, time := { v.time with trace0 := a, trace1 := b } } with ⟨_, he⟩ | ⟨_, h, he, _⟩
    · rw [he]; refine ⟨hf.1, hf.2.1, hf.2.2, ?_⟩; exact (congrArg Collector.open_ (coll_of_fault c v _ rfl rfl)).trans (by rw [f1])
    · rw [he]; refine ⟨hf.1, hf.2.1, hf.2.2, ?_⟩; exact (congrArg Collector.open_ (coll_of_fault c v _ rfl rfl)).trans (by rw [f1])
  obtain ⟨g1, g2, g3, g4⟩ := hsame { raiseRec id action s with done := shortStamp c s }
  have hu : u = modColl c (fun x => { x with open_ := x.open_.filter (· != id) })
      (modSrc id (fun x => { x with timer := none, active := false, latched := x.wire }) (writeRec c { raiseRec id action s with done := shortStamp c s } s)) := rfl
  generalize hw : writeRec c { raiseRec id action s with done := shortStamp c s } s = w at *
  obtain ⟨m1, m2, m3⟩ := modColl_facts c (fun x => { x with open_ := x.open_.filter (· != id) }) (modSrc id (fun x => { x with timer := none, active := false, latched := x.wire }) w) hc
  rw [← hu] at m1 m2 m3
  have hsrc : ∀ j, fsrc j u = fsrc j (modSrc id (fun x => { x with timer := none, active := false, latched := x.wire }) w) := by
    intro j; rw [m3]; rfl
  have hws : ∀ j, fsrc j w = fsrc j s := by intro j; unfold fsrc; rw [g1]
  obtain ⟨r1, r2, r3, r4, r5, r6, r7, r8⟩ := hr
  refine ⟨?_, ?_, ?_, ?_, ⟨?_, ?_, ?_, ?_, ?_, ?_, ?_, ?_⟩, ?_, ?_, ?_⟩
  · rw [hsrc, fsrc_modSrc_same, hws]
  · intro j hj; rw [hsrc, fsrc_modSrc_ne _ _ hj, hws]
  · rw [m1]; show (coll c w).open_.filter _ = _; rw [g4]
  · rw [m3]; exact g2
  · rw [m1]; exact r1
  · rw [m1]; exact r2
  · rw [m1]; show _ = _
    have : coll c (modSrc id (fun x => { x with timer := none, active := false, latched := x.wire }) w) = coll c w := rfl
    rw [this, r3]
  · rw [m2]; exact r4
  · intro h; rw [m3]; exact r5 h
  · intro h; rw [m3]; exact r6 h
  · exact r7.of_ddr rfl (by rw [m3]; rfl)
  · rw [m3]; show ({ w with fault := _ } : State) = _; rw [r8]; rfl
  · rw [m3]; exact g3
  · rw [m3]; show w.power = _; rw [r8]
  · intro d; rw [m3]; show stamp d w = _; rw [r8]; rfl

end Sys2Proof
end

