-- ==== Sys2Proof/Laws/Fabric.lean ====
section
/-!
SUPPORT. What the operations of the dataflow fabric do, said once: edges taken and given by a firing, state tensors, the pages of
scene memories, the tickets a firing serves, the writes of results.
-/

namespace Sys2Proof.Machine

/-! ### Edges -/

/-- Changing edges one after the other changes each by the entries that name it, in order. -/
theorem edge_foldl_modEdge {α : Type} (key : α → Nat) (f : α → Edge → Edge) (l : List α) (s : State) (x : Nat) :
    edge x (l.foldl (fun a i => modEdge (key i) (f i) a) s) = (l.filter (fun i => key i == x)).foldl (fun e i => f i e) (edge x s) := by
  induction l generalizing s with
  | nil => rfl
  | cons i r ih =>
    rw [List.foldl_cons, ih, List.filter_cons, edge_modEdge]
    by_cases h : key i = x
    · subst h; simp
    · rw [if_neg (fun hh => h hh.symm), if_neg (by simpa using h)]

/-- Changing edges changes nothing else. -/
theorem foldl_modEdge_eq {α : Type} (key : α → Nat) (f : α → Edge → Edge) (l : List α) (s : State) :
    ∃ es, l.foldl (fun a i => modEdge (key i) (f i) a) s = { s with fab := { s.fab with edges := es } } := by
  induction l generalizing s with
  | nil => exact ⟨s.fab.edges, rfl⟩
  | cons i r ih =>
    obtain ⟨es, h⟩ := ih (modEdge (key i) (f i) s)
    exact ⟨es, by rw [List.foldl_cons, h]; rfl⟩

/-- A consumer takes `n i` tokens for each entry. -/
theorem foldl_takes {α : Type} (n : α → Nat) (l : List α) (e : Edge) :
    l.foldl (fun e i => { e with held := e.held.drop (n i), inUse := e.inUse + n i }) e
      = { e with held := e.held.drop ((l.map n).sum), inUse := e.inUse + (l.map n).sum } := by
  induction l generalizing e with
  | nil => simp
  | cons i r ih => rw [List.foldl_cons, ih]; simp [List.drop_drop, Nat.add_assoc]

/-- A producer takes `n i` credits for each entry. -/
theorem foldl_gives {α : Type} (n : α → Nat) (l : List α) (e : Edge) :
    l.foldl (fun e i => { e with credits := e.credits - n i, taken := e.taken + n i }) e
      = { e with credits := e.credits - (l.map n).sum, taken := e.taken + (l.map n).sum } := by
  induction l generalizing e with
  | nil => simp
  | cons i r ih => rw [List.foldl_cons, ih]; simp [Nat.sub_sub, Nat.add_assoc]

/-- A consumer frees the buffers of its firing, each with a credit. -/
theorem foldl_frees {α : Type} (n : α → Nat) (l : List α) (e : Edge) :
    l.foldl (fun e i => { e with inUse := e.inUse - n i, creditFlight := e.creditFlight + n i }) e
      = { e with inUse := e.inUse - (l.map n).sum, creditFlight := e.creditFlight + (l.map n).sum } := by
  induction l generalizing e with
  | nil => simp
  | cons i r ih => rw [List.foldl_cons, ih]; simp [Nat.sub_sub, Nat.add_assoc]

/-- A producer gives credits back. -/
theorem foldl_refunds {α : Type} (n : α → Nat) (l : List α) (e : Edge) :
    l.foldl (fun e i => { e with taken := e.taken - n i, credits := e.credits + n i }) e
      = { e with taken := e.taken - (l.map n).sum, credits := e.credits + (l.map n).sum } := by
  induction l generalizing e with
  | nil => simp
  | cons i r ih => rw [List.foldl_cons, ih]; simp [Nat.sub_sub, Nat.add_assoc]

/-- A producer sends the tokens of its firing. -/
theorem foldl_sends {α : Type} (n : α → Nat) (g : α → List Token) (l : List α) (e : Edge) :
    l.foldl (fun e i => { e with taken := e.taken - n i, flight := e.flight ++ g i }) e
      = { e with taken := e.taken - (l.map n).sum, flight := e.flight ++ l.flatMap g } := by
  induction l generalizing e with
  | nil => simp
  | cons i r ih => rw [List.foldl_cons, ih]; simp [Nat.sub_sub]

/-- Of entries with different keys, at most one names an edge. -/
theorem filter_key_nodup {α : Type} (key : α → Nat) (l : List α) (h : (l.map key).Nodup) (a : α) (ha : a ∈ l) :
    l.filter (fun i => key i == key a) = [a] := by
  induction l with
  | nil => simp at ha
  | cons b r ih =>
    rw [List.map_cons, List.nodup_cons] at h
    rw [List.filter_cons]
    rcases List.mem_cons.1 ha with rfl | hr
    · simp only [beq_self_eq_true, if_true]
      have : r.filter (fun i => key i == key a) = [] := by
        rw [List.filter_eq_nil_iff]; intro i hi he
        exact h.1 (List.mem_map.2 ⟨i, hi, by simpa using he⟩)
      rw [this]
    · have hne : key b ≠ key a := fun he => h.1 (he ▸ List.mem_map_of_mem hr)
      rw [if_neg (by simpa using hne), ih h.2 hr]

/-! ### Scene memories -/

/-- Changing scene memories changes nothing else. -/
theorem foldl_modScene_eq {α : Type} (key : α → Nat) (f : α → SceneMem → SceneMem) (l : List α) (s : State) :
    ∃ ms, l.foldl (fun a i => modScene (key i) (f i) a) s = { s with scene := ms } := by
  induction l generalizing s with
  | nil => exact ⟨s.scene, rfl⟩
  | cons i r ih =>
    obtain ⟨es, h⟩ := ih (modScene (key i) (f i) s)
    exact ⟨es, by rw [List.foldl_cons, h]; rfl⟩

theorem scene_foldl_modScene {α : Type} (key : α → Nat) (f : α → SceneMem → SceneMem) (l : List α) (s : State) (x : Nat) :
    scene x (l.foldl (fun a i => modScene (key i) (f i) a) s) = (l.filter (fun i => key i == x)).foldl (fun e i => f i e) (scene x s) := by
  induction l generalizing s with
  | nil => rfl
  | cons i r ih =>
    rw [List.foldl_cons, ih, List.filter_cons]
    have hm : scene x (modScene (key i) (f i) s) = if x = key i then f i (scene (key i) s) else scene x s := tget_tmod _ _ _ _ _
    rw [hm]
    by_cases h : key i = x
    · subst h; simp
    · rw [if_neg (fun hh => h hh.symm), if_neg (by simpa using h)]

/-! ### Tickets -/

/-- A ticket's end enters the watch of its stream and nothing else. -/
theorem watchEnd_eq (k : Ticket) (s : State) : ∃ w, watchEnd k s = { s with isl := { s.isl with watch := w } } := by
  unfold watchEnd watchPush
  split
  · exact ⟨s.isl.watch, rfl⟩
  · split
    · exact ⟨_, rfl⟩
    · exact ⟨s.isl.watch, rfl⟩

theorem foldl_watchEnd_eq (ks : List Ticket) (s : State) :
    ∃ w, ks.foldl (fun a k => watchEnd k a) s = { s with isl := { s.isl with watch := w } } := by
  induction ks generalizing s with
  | nil => exact ⟨s.isl.watch, rfl⟩
  | cons k r ih =>
    obtain ⟨w, h⟩ := watchEnd_eq k s
    obtain ⟨w', h'⟩ := ih (watchEnd k s)
    exact ⟨w', by rw [List.foldl_cons, h', h]⟩

/-- A void reaches every open ticket. -/
theorem canVoid_of_open {k : Ticket} {s : State} (h : ticketOpen k = true) : canVoid s k = true := by
  unfold canVoid; rw [h]; rfl

/-- A ticket that a void cannot reach is not open. -/
theorem not_open_of_not_canVoid {k : Ticket} {s : State} (h : canVoid s k = false) : ticketOpen k = false := by
  cases ho : ticketOpen k with
  | false => rfl
  | true => rw [canVoid_of_open ho] at h; exact h

/-- Voiding voids every open ticket it selects, and changes the tickets, the time of the last end and the watches only. -/
theorem voidWhere_spec (p : Ticket → Bool) (cause part quad detail : Nat) (s : State) :
    (∀ k ∈ s.led.tickets, ticketOpen k = true → p k = true →
      k.voided cause part quad detail (stamp (liveDie (homeOf k.stream s) s) s) ∈ (voidWhere p cause part quad detail s).led.tickets)
    ∧ (∀ k ∈ s.led.tickets, canVoid s k = false → k ∈ (voidWhere p cause part quad detail s).led.tickets)
    ∧ ∃ ks e w, voidWhere p cause part quad detail s
        = { s with led := { s.led with tickets := ks, lastEnd := e }, isl := { s.isl with watch := w } } := by
  unfold voidWhere
  dsimp only
  split
  · next h =>
    refine ⟨fun k hk ho hp => ?_, fun k hk _ => hk, s.led.tickets, s.led.lastEnd, s.isl.watch, rfl⟩
    have := List.isEmpty_iff.1 h
    rw [List.filter_eq_nil_iff] at this
    exact absurd (by rw [canVoid_of_open ho, hp]; rfl) (this k hk)
  · obtain ⟨w, h⟩ := foldl_watchEnd_eq (s.led.tickets.filter (fun k => ticketOpen k && (p k || ((strm k.stream s).voidFollow
        && (s.led.tickets.filter (fun k => canVoid s k && p k)).any (fun h => h.stream == k.stream && decide (h.seq < k.seq))))))
      (mapTickets (fun k => if (canVoid s k && p k) || (ticketOpen k && ((strm k.stream s).voidFollow
        && (s.led.tickets.filter (fun k => canVoid s k && p k)).any (fun h => h.stream == k.stream && decide (h.seq < k.seq)))) then
          k.voided cause part quad detail (stamp (liveDie (homeOf k.stream s) s) s) else k) s)
    rw [h]
    refine ⟨fun k hk ho hp => ?_, fun k hk ho => ?_, _, _, w, rfl⟩
    · exact List.mem_map.2 ⟨k, hk, by rw [canVoid_of_open ho, hp]; rfl⟩
    · exact List.mem_map.2 ⟨k, hk, by rw [ho, not_open_of_not_canVoid ho]; rfl⟩

/-- A firing that ends without output frees its edges; see `foldl_frees` and `foldl_refunds`. -/
theorem edge_freeFiring (f : Firing) (s : State) (x : Nat) :
    edge x (freeFiring f s) = { edge x s with
      inUse := (edge x s).inUse - ((f.inputs.filter (fun i => i.1 == x)).map (·.2.length)).sum
      creditFlight := (edge x s).creditFlight + ((f.inputs.filter (fun i => i.1 == x)).map (·.2.length)).sum
      taken := (edge x s).taken - ((f.outs.filter (fun o => o.1 == x)).map (·.2)).sum
      credits := (edge x s).credits + ((f.outs.filter (fun o => o.1 == x)).map (·.2)).sum } := by
  unfold freeFiring
  dsimp only
  rw [edge_foldl_modEdge (fun o : Nat × Nat => o.1) (fun o e => { e with taken := e.taken - o.2, credits := e.credits + o.2 }),
    edge_foldl_modEdge (fun i : Nat × List Token => i.1) (fun i e => { e with inUse := e.inUse - i.2.length, creditFlight := e.creditFlight + i.2.length }),
    foldl_frees (fun i : Nat × List Token => i.2.length), foldl_refunds (fun o : Nat × Nat => o.2)]

theorem freeFiring_eq (f : Firing) (s : State) : ∃ es, freeFiring f s = { s with fab := { s.fab with edges := es } } := by
  unfold freeFiring
  obtain ⟨e1, h1⟩ := foldl_modEdge_eq (fun i : Nat × List Token => i.1)
    (fun i e => { e with inUse := e.inUse - i.2.length, creditFlight := e.creditFlight + i.2.length }) f.inputs s
  dsimp only
  rw [h1]
  obtain ⟨e2, h2⟩ := foldl_modEdge_eq (fun o : Nat × Nat => o.1)
    (fun o e => { e with taken := e.taken - o.2, credits := e.credits + o.2 }) f.outs { s with fab := { s.fab with edges := e1 } }
  exact ⟨e2, h2⟩

/-! ### Firings -/

/-- All that the start of a firing takes and keeps. -/
theorem takeFiring_spec (m : Nat) (s : State) :
    let ins := inEdges m s
    let outs := outEdges m s
    let toks := ins.map (fun e => (e.id, (edge e.id s).held.take e.consume))
    let takes := fun (x : Nat) => ((ins.filter (fun e => e.id == x)).map (·.consume)).sum
    let gives := fun (x : Nat) => ((outs.filter (fun e => e.id == x)).map (·.produce)).sum
    ∃ f, mitten m (takeFiring m s) = { mitten m s with firing := some f, half := wantsHalf m s }
      ∧ (∀ j, j ≠ m → mitten j (takeFiring m s) = mitten j s)
      ∧ f.inputs = toks ∧ f.outs = outs.map (fun e => (e.id, e.produce)) ∧ f.at_ = s.time.now
      ∧ f.stamp = shortStamp ((mitten m s).stack / 2) s
      ∧ (∀ g, g ∈ f.tags ↔ ∃ i ∈ toks, ∃ k ∈ i.2, g ∈ k.tags)
      ∧ (∀ id bs, (id, bs) ∈ f.states ↔ bs = stateOf id s ∧ (∃ o ∈ unitOf m s, id ∈ o.ins)
            ∧ ∃ x, (curImage s).tensor id = some x ∧ x.role = 4)
      ∧ (f.degraded = true ↔ (∃ i ∈ toks, ∃ k ∈ i.2, k.degraded = true)
            ∨ ∃ r ∈ readersOf m s, ∃ g ∈ (scene r.2 s).pages, g.st = .lost)
      ∧ (f.stale = true ↔ ∃ i ∈ toks, ∃ k ∈ i.2, k.stale = true)
      ∧ (∀ x, edge x (takeFiring m s) = { edge x s with
            held := (edge x s).held.drop (takes x), inUse := (edge x s).inUse + takes x
            credits := (edge x s).credits - gives x, taken := (edge x s).taken + gives x })
      ∧ (∀ n, scene n (takeFiring m s) = { scene n s with prefetch := (scene n (takeFiring m s)).prefetch, taken := (scene n (takeFiring m s)).taken })
      ∧ (∀ n, (∀ r ∈ readersOf m s, r.2 ≠ n) → scene n (takeFiring m s) = scene n s)
      ∧ takeFiring m s = { s with fab := { s.fab with mittens := (takeFiring m s).fab.mittens, edges := (takeFiring m s).fab.edges }, scene := (takeFiring m s).scene } := by
  intro ins outs toks takes gives
  unfold takeFiring
  dsimp only
  obtain ⟨e1, h1⟩ := foldl_modEdge_eq GEdge.id (fun (e : GEdge) x => { x with held := x.held.drop e.consume, inUse := x.inUse + e.consume }) (inEdges m s) s
  have k1 := edge_foldl_modEdge GEdge.id (fun (e : GEdge) x => { x with held := x.held.drop e.consume, inUse := x.inUse + e.consume }) (inEdges m s) s
  generalize hs1 : (inEdges m s).foldl (fun a e => modEdge e.id (fun x => { x with held := x.held.drop e.consume, inUse := x.inUse + e.consume }) a) s = s1 at h1 k1 ⊢
  obtain ⟨e2, h2⟩ := foldl_modEdge_eq GEdge.id (fun (e : GEdge) x => { x with credits := x.credits - e.produce, taken := x.taken + e.produce }) (outEdges m s) s1
  have k2 := edge_foldl_modEdge GEdge.id (fun (e : GEdge) x => { x with credits := x.credits - e.produce, taken := x.taken + e.produce }) (outEdges m s) s1
  generalize hs2 : (outEdges m s).foldl (fun a e => modEdge e.id (fun x => { x with credits := x.credits - e.produce, taken := x.taken + e.produce }) a) s1 = s2 at h2 k2 ⊢
  obtain ⟨ms, h3⟩ := foldl_modScene_eq (fun r : GOp × Nat => r.2) (fun r => pfStart r.1) (readersOf m s) s2
  have k3 := scene_foldl_modScene (fun r : GOp × Nat => r.2) (fun r => pfStart r.1) (readersOf m s) s2
  generalize hs3 : (readersOf m s).foldl (fun a r => modScene r.2 (pfStart r.1) a) s2 = s3 at h3 k3 ⊢
  have hm : ∀ j, mitten j s3 = mitten j s := by intro j; rw [h3, h2, h1]; rfl
  have he : ∀ x, edge x s3 = edge x s2 := by intro x; rw [h3]; rfl
  have hsc : ∀ n, scene n s2 = scene n s := by intro n; rw [h2, h1]; rfl
  have hpf : ∀ (l : List (GOp × Nat)) (x : SceneMem), ∃ p t, l.foldl (fun e i => pfStart i.1 e) x = { x with prefetch := p, taken := t } := by
    intro l
    induction l with
    | nil => intro x; exact ⟨_, _, rfl⟩
    | cons r l ih => intro x; obtain ⟨p, t, h⟩ := ih (pfStart r.1 x); exact ⟨p, t, by rw [List.foldl_cons, h]; rfl⟩
  refine ⟨_, (by rw [mitten_modMitten_same, hm]), ?_, ?_, ?_, ?_, ?_, ?_, ?_, ?_, ?_, ?_, ?_, ?_, ?_⟩
  · intro j hj; rw [mitten_modMitten_ne _ _ hj, hm]
  · rfl
  · rfl
  · rfl
  · rfl
  · intro g
    simp only [List.mem_eraseDups, List.mem_flatMap]
    constructor
    · rintro ⟨k, ⟨i, hi, hk⟩, hg⟩; exact ⟨i, hi, k, hk, hg⟩
    · rintro ⟨i, hi, k, hk, hg⟩; exact ⟨k, ⟨i, hi, hk⟩, hg⟩
  · intro id bs
    simp only [List.mem_map, List.mem_eraseDups, List.mem_filter, List.mem_flatMap, Prod.mk.injEq]
    constructor
    · rintro ⟨a, ⟨⟨o, ho, ha⟩, hr⟩, rfl, rfl⟩
      refine ⟨rfl, ⟨o, ho, ha⟩, ?_⟩
      cases ht : (curImage s).tensor a with
      | none => rw [ht] at hr; simp at hr
      | some x => rw [ht] at hr; exact ⟨x, rfl, by simpa using hr⟩
    · rintro ⟨rfl, ⟨o, ho, ha⟩, x, hx, hr⟩
      exact ⟨id, ⟨⟨o, ho, ha⟩, by rw [hx]; simp [hr]⟩, rfl, rfl⟩
  · simp only [Bool.or_eq_true, List.any_eq_true, List.mem_flatMap, beq_iff_eq]
    constructor
    · rintro (⟨r, hr, g, hg, hst⟩ | ⟨k, ⟨i, hi, hk⟩, hd⟩)
      · exact .inr ⟨r, hr, g, hg, hst⟩
      · exact .inl ⟨i, hi, k, hk, hd⟩
    · rintro (⟨i, hi, k, hk, hd⟩ | ⟨r, hr, g, hg, hst⟩)
      · exact .inr ⟨k, ⟨i, hi, hk⟩, hd⟩
      · exact .inl ⟨r, hr, g, hg, hst⟩
  · simp only [List.any_eq_true, List.mem_flatMap]
    constructor
    · rintro ⟨k, ⟨i, hi, hk⟩, hd⟩; exact ⟨i, hi, k, hk, hd⟩
    · rintro ⟨i, hi, k, hk, hd⟩; exact ⟨k, ⟨i, hi, hk⟩, hd⟩
  · intro x
    rw [edge_modMitten, he, k2, k1, foldl_takes, foldl_gives]
  · intro n
    obtain ⟨p, t, hp⟩ := hpf ((readersOf m s).filter (fun i => i.2 == n)) (scene n s2)
    rw [scene_modMitten, k3, hp, hsc]
  · intro n hn
    rw [scene_modMitten, k3, List.filter_eq_nil_iff.2 (by intro r hr; simpa using hn r hr), hsc]; rfl
  · rw [h3, h2, h1]; rfl

/-! ### Commits -/

/-- An operator's commit writes its outputs and their scale arrays, and no other state tensor. -/
theorem commitTensors_eq (m : Nat) (s : State) (v : Evaluated) :
    (∃ ts, commitTensors m v s = { s with fab := { s.fab with tensors := ts } })
    ∧ ∀ id, (id ∉ v.op.outs ∧ ∀ y ∈ v.op.outs, ∀ z, (curImage s).tensor y = some z → z.scaleT ≠ id) →
        stateOf id (commitTensors m v s) = stateOf id s := by
  have key : ∀ (l : List (Nat × List Byte)) (a : State), (∃ ts, a = { s with fab := { s.fab with tensors := ts } }) →
      (∃ ts, l.foldl (fun a o =>
        match (curImage s).tensor o.1 with
        | none => a
        | some x =>
          let b := if (writesStates m s).contains o.1 then setStateTensor o.1 (o.2.take (elemBytes x)) a else a
          if isMx x.fmt then setStateTensor x.scaleT (o.2.drop (elemBytes x)) b else b) a = { s with fab := { s.fab with tensors := ts } })
      ∧ ∀ id, (∀ o ∈ l, o.1 ≠ id ∧ ∀ z, (curImage s).tensor o.1 = some z → z.scaleT ≠ id) →
        stateOf id (l.foldl (fun a o =>
          match (curImage s).tensor o.1 with
          | none => a
          | some x =>
            let b := if (writesStates m s).contains o.1 then setStateTensor o.1 (o.2.take (elemBytes x)) a else a
            if isMx x.fmt then setStateTensor x.scaleT (o.2.drop (elemBytes x)) b else b) a) = stateOf id a := by
    intro l
    induction l with
    | nil => intro a ha; exact ⟨ha, fun _ _ => rfl⟩
    | cons o r ih =>
      intro a ha
      rw [List.foldl_cons]
      obtain ⟨ts, rfl⟩ := ha
      cases ho : (curImage s).tensor o.1 with
      | none =>
        obtain ⟨h1, h2⟩ := ih { s with fab := { s.fab with tensors := ts } } ⟨ts, rfl⟩
        exact ⟨h1, fun id hid => h2 id (fun o ho => hid o (List.mem_cons_of_mem _ ho))⟩
      | some x =>
        dsimp only
        have hset : ∀ (id' : Nat) (bs : List Byte) (ts : List (Nat × List Byte)), ∃ ts', setStateTensor id' bs { s with fab := { s.fab with tensors := ts } } = { s with fab := { s.fab with tensors := ts' } } :=
          fun _ _ _ => ⟨_, rfl⟩
        have hst : ∀ (id id' : Nat) (bs : List Byte) (a : State), id' ≠ id → stateOf id (setStateTensor id' bs a) = stateOf id a := by
          intro id id' bs a hne
          unfold stateOf setStateTensor
          have : (a.fab.tensors.filter (fun e => e.1 != id') ++ [(id', bs)]).find? (fun e => e.1 == id) = a.fab.tensors.find? (fun e => e.1 == id) := by
            rw [List.find?_append]
            have h1 : (a.fab.tensors.filter (fun e => e.1 != id')).find? (fun e => e.1 == id) = a.fab.tensors.find? (fun e => e.1 == id) := by
              induction a.fab.tensors with
              | nil => rfl
              | cons y r ih =>
                rw [List.filter_cons]
                split
                · rw [List.find?_cons, List.find?_cons, ih]
                · next hy =>
                  have : (y.1 == id) = false := by simp at hy ⊢; omega
                  rw [List.find?_cons, this, ih]
            rw [h1]
            have h2 : [(id', bs)].find? (fun e => e.1 == id) = none := by simp [hne]
            rw [h2]; simp
          dsimp only
          rw [this]; rfl
        have hb : ∃ ts', (if (writesStates m s).contains o.1 then setStateTensor o.1 (o.2.take (elemBytes x)) { s with fab := { s.fab with tensors := ts } } else { s with fab := { s.fab with tensors := ts } })
            = ({ s with fab := { s.fab with tensors := ts' } } : State) := by
          split
          · exact hset _ _ _
          · exact ⟨ts, rfl⟩
        obtain ⟨ts', hb⟩ := hb
        have hb2 : ∀ id, o.1 ≠ id → stateOf id ({ s with fab := { s.fab with tensors := ts' } } : State) = stateOf id ({ s with fab := { s.fab with tensors := ts } } : State) := by
          intro id hid
          rw [← hb]; split
          · exact hst _ _ _ _ hid
          · rfl
        rw [hb]
        have hc : ∃ ts2, (if isMx x.fmt then setStateTensor x.scaleT (o.2.drop (elemBytes x)) { s with fab := { s.fab with tensors := ts' } } else { s with fab := { s.fab with tensors := ts' } })
            = ({ s with fab := { s.fab with tensors := ts2 } } : State) := by
          split
          · exact hset _ _ _
          · exact ⟨ts', rfl⟩
        obtain ⟨ts2, hc⟩ := hc
        have hc2 : ∀ id, x.scaleT ≠ id → stateOf id ({ s with fab := { s.fab with tensors := ts2 } } : State) = stateOf id ({ s with fab := { s.fab with tensors := ts' } } : State) := by
          intro id hid
          rw [← hc]; split
          · exact hst _ _ _ _ hid
          · rfl
        rw [hc]
        obtain ⟨h1, h2⟩ := ih { s with fab := { s.fab with tensors := ts2 } } ⟨ts2, rfl⟩
        refine ⟨h1, fun id hid => ?_⟩
        rw [h2 id (fun o ho => hid o (List.mem_cons_of_mem _ ho)), hc2 id ((hid o (by simp)).2 x ho), hb2 id (hid o (by simp)).1]
  obtain ⟨h1, h2⟩ := key (v.op.outs.zip v.res.outs) s ⟨s.fab.tensors, rfl⟩
  refine ⟨h1, fun id hid => h2 id (fun o ho => ?_)⟩
  have : o.1 ∈ v.op.outs := (List.of_mem_zip ho).1
  exact ⟨fun he => hid.1 (he ▸ this), hid.2 o.1 this⟩


/-- All that the commit of one operator does. -/
theorem commitOp_spec (m : Nat) (s : State) (v : Evaluated) :
    (∃ ts ms d, commitOp m s v = { s with fab := { s.fab with tensors := ts }, scene := ms, ddr := d })
    ∧ (∀ id, (id ∉ v.op.outs ∧ ∀ y ∈ v.op.outs, ∀ z, (curImage s).tensor y = some z → z.scaleT ≠ id) →
        stateOf id (commitOp m s v) = stateOf id s)
    ∧ (∀ id, stateOf id (commitOp m s v) = stateOf id (commitTensors m v s))
    ∧ (v.op.opcode ≠ 0x0201 → v.op.opcode ≠ 0x0202 → (commitOp m s v).scene = s.scene)
    ∧ (v.op.opcode ≠ 0x0202 → (commitOp m s v).ddr = s.ddr)
    ∧ DeviceKept (fun a => v.op.opcode = 0x0202 ∧ (committedScene v s).tableAt ≤ a ∧ a < (committedScene v s).tableAt + (tableBytes (committedScene v s)).length) s (commitOp m s v) := by
  obtain ⟨⟨ts, h1⟩, h2⟩ := commitTensors_eq m s v
  have hc : commitOp m s v = (match v.op.opcode with
    | 0x0201 =>
      match sceneOf (v.op.ins.getD 1 noneId) s with
      | none => commitTensors m v s
      | some (n, x) => modScene n (scored (x.scorer == v.op.id) v.res.mass ((readPages v.op x).map (·.seq))) (commitTensors m v s)
    | 0x0202 =>
      match sceneOf (v.op.outs.headD noneId) s with
      | none => commitTensors m v s
      | some (n, _) => devWr (committedScene v s).tableAt (tableBytes (committedScene v s)) (modScene n (fun _ => committedScene v s) (commitTensors m v s))
    | _ => commitTensors m v s) := rfl
  rw [hc]
  generalize commitTensors m v s = s1 at *
  have hddr : s1.ddr = s.ddr := by rw [h1]
  split
  · next ho =>
    split
    · exact ⟨⟨ts, s.scene, s.ddr, h1⟩, h2, fun _ => rfl, fun _ _ => by rw [h1], fun _ => hddr, (DeviceKept.refl _ s).of_ddr rfl hddr⟩
    · next n x _ =>
      refine ⟨⟨ts, _, s.ddr, by rw [h1]; rfl⟩, h2, fun _ => rfl, fun h => absurd ho h, fun _ => hddr, (DeviceKept.refl _ s).of_ddr rfl hddr⟩
  · next ho =>
    split
    · exact ⟨⟨ts, s.scene, s.ddr, h1⟩, h2, fun _ => rfl, fun _ _ => by rw [h1], fun _ => hddr, (DeviceKept.refl _ s).of_ddr rfl hddr⟩
    · next n x _ =>
      obtain ⟨d, hd⟩ := devWr_eq (committedScene v s).tableAt (tableBytes (committedScene v s)) (modScene n (fun _ => committedScene v s) s1)
      have hk := devWr_kept (committedScene v s).tableAt (tableBytes (committedScene v s)) (modScene n (fun _ => committedScene v s) s1)
      refine ⟨⟨ts, _, d, by rw [hd, h1]; rfl⟩, fun id hid => ?_, fun id => ?_, fun _ h => absurd ho h, fun h => absurd ho h, ?_⟩
      · rw [hd]; exact h2 id hid
      · rw [hd]; rfl
      · exact (hk.of_ddr (by exact hddr.symm) rfl).mono (fun a ha => ⟨ho, ha⟩)
  · exact ⟨⟨ts, s.scene, s.ddr, h1⟩, h2, fun _ => rfl, fun _ _ => by rw [h1], fun _ => hddr, (DeviceKept.refl _ s).of_ddr rfl hddr⟩

/-- All that the commits of a firing do. -/
theorem commits_spec (m : Nat) (evs : List Evaluated) (s : State) :
    (∃ ts ms d, evs.foldl (commitOp m) s = { s with fab := { s.fab with tensors := ts }, scene := ms, ddr := d })
    ∧ (∀ id, (∀ v ∈ evs, id ∉ v.op.outs ∧ ∀ y ∈ v.op.outs, ∀ z, (curImage s).tensor y = some z → z.scaleT ≠ id) →
        stateOf id (evs.foldl (commitOp m) s) = stateOf id s)
    ∧ ((∀ v ∈ evs, v.op.opcode ≠ 0x0201 ∧ v.op.opcode ≠ 0x0202) → (evs.foldl (commitOp m) s).scene = s.scene)
    ∧ ((∀ v ∈ evs, v.op.opcode ≠ 0x0202) → (evs.foldl (commitOp m) s).ddr = s.ddr)
    ∧ DeviceKept (fun a => ∃ v ∈ evs, v.op.opcode = 0x0202 ∧ (committedScene v s).tableAt ≤ a ∧ a < (committedScene v s).tableAt + (tableBytes (committedScene v s)).length)
        s (evs.foldl (commitOp m) s) := by
  induction evs generalizing s with
  | nil => exact ⟨⟨_, _, _, rfl⟩, fun _ _ => rfl, fun _ => rfl, fun _ => rfl, DeviceKept.refl _ s⟩
  | cons v r ih =>
    obtain ⟨⟨ts, ms, d, a1⟩, a2, _, a3, a4, a5⟩ := commitOp_spec m s v
    obtain ⟨⟨ts', ms', d', b1⟩, b2, b3, b4, b5⟩ := ih (commitOp m s v)
    have him : curImage (commitOp m s v) = curImage s := by rw [a1]; rfl
    rw [List.foldl_cons]
    refine ⟨⟨ts', ms', d', by rw [b1, a1]⟩, fun id hid => ?_, fun h => ?_, fun h => ?_, ?_⟩
    · rw [b2 id (fun w hw => by rw [him]; exact hid w (List.mem_cons_of_mem _ hw)), a2 id (hid v (by simp))]
    · rw [b3 (fun w hw => h w (List.mem_cons_of_mem _ hw)), a3 (h v (by simp)).1 (h v (by simp)).2]
    · rw [b4 (fun w hw => h w (List.mem_cons_of_mem _ hw)), a4 (h v (by simp))]
    · refine DeviceKept.trans (a5.mono (fun a ha => ⟨v, by simp, ha⟩)) (b5.mono ?_)
      rintro a ⟨w, hw, h⟩
      unfold committedScene at h ⊢
      rw [him] at h
      exact ⟨w, List.mem_cons_of_mem _ hw, h⟩

end Sys2Proof.Machine
end

