-- ==== Sys2Proof/Laws/Attach.lean ====
section
/-!
SUPPORT. What the operations behind the attach commands do, said once: voiding, vectors, and the safe outputs of every loop slot.
-/

namespace Sys2Proof.Machine

/-- Voiding voids exactly the open tickets it selects, with those that follow them in a VOID_FOLLOW stream. -/
theorem voidWhere_voided (p : Ticket → Bool) (P : Ticket → Prop) (hp : ∀ k, p k = true ↔ P k) (cause part : Nat) (s : State) :
    TicketsVoided P cause part s (voidWhere p cause part 0xFFFF 0 s)
    ∧ ∃ ks e w, voidWhere p cause part 0xFFFF 0 s
        = { s with led := { s.led with tickets := ks, lastEnd := e }, isl := { s.isl with watch := w } } := by
  refine ⟨?_, (voidWhere_spec p cause part 0xFFFF 0 s).2.2⟩
  unfold TicketsVoided
  intro hit
  have key : (voidWhere p cause part 0xFFFF 0 s).led.tickets = s.led.tickets.map (fun k =>
      if (canVoid s k && p k) || (ticketOpen k && ((strm k.stream s).voidFollow && (s.led.tickets.filter (fun k => canVoid s k && p k)).any (fun h => h.stream == k.stream && decide (h.seq < k.seq)))) then
        k.voided cause part 0xFFFF 0 (stamp (liveDie (homeOf k.stream s) s) s) else k) := by
    unfold voidWhere; dsimp only
    split
    · next h =>
      have hn := List.isEmpty_iff.1 h
      rw [hn]
      conv => lhs; rw [← List.map_id s.led.tickets]
      apply List.map_congr_left
      intro k hk
      rw [List.filter_eq_nil_iff] at hn
      have := hn k hk
      rw [if_neg]; rfl
      simp only [List.any_nil, Bool.and_false, Bool.or_false]; exact this
    · obtain ⟨w, h⟩ := foldl_watchEnd_eq (s.led.tickets.filter (fun k => ticketOpen k && (p k || ((strm k.stream s).voidFollow
        && (s.led.tickets.filter (fun k => canVoid s k && p k)).any (fun h => h.stream == k.stream && decide (h.seq < k.seq))))))
        (mapTickets (fun k => if (canVoid s k && p k) || (ticketOpen k && ((strm k.stream s).voidFollow
        && (s.led.tickets.filter (fun k => canVoid s k && p k)).any (fun h => h.stream == k.stream && decide (h.seq < k.seq)))) then
          k.voided cause part 0xFFFF 0 (stamp (liveDie (homeOf k.stream s) s) s) else k) s)
      rw [h]; rfl
  have hhit : ∀ k, hit k ↔ ((canVoid s k && p k) || (ticketOpen k && ((strm k.stream s).voidFollow && (s.led.tickets.filter (fun k => canVoid s k && p k)).any (fun h => h.stream == k.stream && decide (h.seq < k.seq))))) = true := by
    intro k
    simp only [hit, Bool.and_eq_true, Bool.or_eq_true, List.any_eq_true, List.mem_filter, beq_iff_eq, decide_eq_true_eq, hp]
    constructor
    · rintro (h1 | ⟨h1, h2, h, h3, h4, h5, h6, h7⟩)
      · exact .inl h1
      · exact .inr ⟨h1, h2, h, ⟨h3, h4, h5⟩, h6, h7⟩
    · rintro (h1 | ⟨h1, h2, h, ⟨h3, h4, h5⟩, h6, h7⟩)
      · exact .inl h1
      · exact .inr ⟨h1, h2, h, h3, h4, h5, h6, h7⟩
  refine ⟨by rw [key]; simp, fun i k hk => ⟨fun h => ?_, fun h => ?_⟩⟩
  · rw [key, List.getElem?_map, hk]; simp only [Option.map_some]; rw [if_pos ((hhit k).1 h)]
  · rw [key, List.getElem?_map, hk]; simp only [Option.map_some]; rw [if_neg (fun hh => h ((hhit k).2 hh))]

/-- A voided ticket is not open. -/
theorem voided_closed (k : Ticket) (a b c d e : Nat) : ticketOpen (k.voided a b c d e) = false := by
  unfold ticketOpen Ticket.voided; rfl

/-- Where every open ticket is voided, none stays open. -/
theorem allVoided_noOpen {cause part : Nat} {s u : State} (h : TicketsVoided (fun _ => True) cause part s u) : ∀ k ∈ u.led.tickets, ticketOpen k = false := by
  intro k hk
  obtain ⟨i, hi, rfl⟩ := List.mem_iff_getElem.1 hk
  unfold TicketsVoided at h
  dsimp only at h
  obtain ⟨hl, h⟩ := h
  have hi' : i < s.led.tickets.length := by omega
  obtain ⟨h1, h2⟩ := h i s.led.tickets[i] (List.getElem?_eq_getElem hi')
  by_cases ho : ticketOpen s.led.tickets[i] = true
  · have := h1 (.inl ⟨canVoid_of_open ho, trivial⟩)
    rw [List.getElem?_eq_getElem hi] at this
    rw [Option.some.inj this]; exact voided_closed _ _ _ _ _ _
  · by_cases hc : canVoid s s.led.tickets[i] = true
    · have := h1 (.inl ⟨hc, trivial⟩)
      rw [List.getElem?_eq_getElem hi] at this
      rw [Option.some.inj this]; exact voided_closed _ _ _ _ _ _
    · have := h2 (fun h => h.elim (fun h => hc h.1) (fun h => ho h.1))
      rw [List.getElem?_eq_getElem hi] at this
      rw [Option.some.inj this]; simpa using ho

/-- A vector is sent, kept pending while masked, or lost where the port carries nothing. -/
theorem sendVec_cases (p v : Nat) (s : State) :
    let q := carrier p s
    let masked := (tget ({} : MsixEntry) v (hport q s).msix).masked
    (carried p s = false → sendVec p v s = s)
    ∧ (carried p s = true → masked = false → sendVec p v s = { s with host := { s.host with msgs := ⟨q, v⟩ :: s.host.msgs } })
    ∧ (carried p s = true → masked = true → sendVec p v s
        = modPort q (fun h => { h with msix := tmod {} v (fun e => { e with pba := true }) h.msix }) s) := by
  intro q masked
  have hc : carried p s = portUp q s := rfl
  unfold sendVec; dsimp only
  refine ⟨fun h => ?_, fun h hm => ?_, fun h hm => ?_⟩
  · rw [hc] at h; rw [if_pos (by rw [h]; rfl)]
  · rw [hc] at h; rw [if_neg (by rw [h]; simp), if_neg]
    exact fun hh => by rw [show masked = true from hh] at hm; simp at hm
  · rw [hc] at h; rw [if_neg (by rw [h]; simp), if_pos hm]


/-- An address of a trace ring. -/
abbrev AnyRing (a : Nat) : Prop := ∃ d, Config.traceRing d ≤ a ∧ a < Config.traceRing d + 2 ^ 22

/-- A slot's frame handed to a port changes that port alone. -/
theorem ethSend_spec (e tc : Nat) (f : EthFrame) (n : Nat) (s : State) :
    (∃ t, ethSend e tc f (.loop n) s = { s with host := { s.host with eth := t } })
    ∧ ∀ j, j ≠ e → eport j (ethSend e tc f (.loop n) s) = eport j s := by
  unfold ethSend dropWaiting ethEmit
  dsimp only
  split
  · exact ⟨⟨_, rfl⟩, fun _ _ => rfl⟩
  · split
    · refine ⟨⟨_, rfl⟩, fun j hj => ?_⟩
      rw [eport_modEth_ne _ _ hj, eport_modEth_ne _ _ hj]
    · refine ⟨⟨_, rfl⟩, fun j hj => ?_⟩
      rw [eport_modEth_ne _ _ hj, eport_modEth_ne _ _ hj]

/-- A slot's frame changes its port and its own counters. -/
theorem sendFrame_spec (n st : Nat) (z : Int) (s : State) :
    (∃ t l, sendFrame n st z s = { s with host := { s.host with eth := t }, loop := { s.loop with slots := l } })
    ∧ (∀ j, j ≠ (lslot n s).port → eport j (sendFrame n st z s) = eport j s)
    ∧ (∀ j, j ≠ n → lslot j (sendFrame n st z s) = lslot j s)
    ∧ (∃ a b c d e, lslot n (sendFrame n st z s) = { lslot n s with ctr := a, latLast := b, latMax := c, replaced := d, dropped := e }) := by
  unfold sendFrame; dsimp only; split
  · exact ⟨⟨_, _, rfl⟩, fun _ _ => rfl, fun _ _ => rfl, ⟨_, _, _, _, _, rfl⟩⟩
  · next offs _ =>
    obtain ⟨⟨t, h1⟩, h2⟩ := ethSend_spec (lslot n s).port (lslot n s).tc (frameOfBytes (buildFrame (lslot n s) offs st) (portMac (lslot n s).port s)) n
      (modLoop n (fun y => { y with
      ctr := wrapAdd 16 y.ctr 1
      latLast := satU 16 ((stamp (n / 8) s : Int) - st - z).toNat
      latMax := max y.latMax (satU 16 ((stamp (n / 8) s : Int) - st - z).toNat)
      replaced := if ethUp (lslot n s).port s && (eport (lslot n s).port s).queued.any (fun q => q.2.2 == .loop n) then satAdd 10 y.replaced 1 else y.replaced
      dropped := if ethUp (lslot n s).port s then y.dropped else satAdd 11 y.dropped 1 }) s)
    rw [h1] at h2 ⊢
    refine ⟨⟨t, _, rfl⟩, fun j hj => h2 j hj, fun j hj => ?_, ?_⟩
    · show lslot j (modLoop n _ s) = _
      rw [lslot_modLoop, if_neg hj]
    · have : ∀ f, lslot n ({ modLoop n f s with host := { (modLoop n f s).host with eth := t } } : State) = f (lslot n s) := by
        intro f; show lslot n (modLoop n f s) = _; rw [lslot_modLoop, if_pos rfl]
      exact ⟨_, _, _, _, _, this _⟩

/-- All that a slot's entry into SAFE_OUT changes. -/
theorem enterSafe_spec (n : Nat) (s : State) :
    (∃ t l m a b, enterSafe n s = { s with
        host := { s.host with eth := t }, loop := { s.loop with slots := l }, ddr := m, time := { s.time with trace0 := a, trace1 := b } })
    ∧ (∀ j, j ≠ (lslot n s).port → eport j (enterSafe n s) = eport j s)
    ∧ (∀ j, j ≠ n → lslot j (enterSafe n s) = lslot j s)
    ∧ (∃ a b c d e, lslot n (enterSafe n s) = { lslot n s with
            st := .safeOut, track := false, req := 0, waiting := none, safeAt := s.time.now
            outs := (lslot n s).outs.map (safeStep (fsec (lslot n s).periodUs)), ctr := a, latLast := b, latMax := c, replaced := d, dropped := e })
    ∧ DeviceKept AnyRing s (enterSafe n s) := by
  unfold enterSafe safeFrame
  dsimp only
  generalize hA : modLoop n (fun y => { y with st := .safeOut, track := false, req := 0 }) s = A
  have hAe : A = { s with loop := { s.loop with slots := A.loop.slots } } := by rw [← hA]; rfl
  have hAl : ∀ j, lslot j A = if j = n then { lslot n s with st := .safeOut, track := false, req := 0 } else lslot j s := by
    intro j; rw [← hA, lslot_modLoop]
  obtain ⟨m, a, b, hB⟩ : ∃ m a b, loopTrace n (lslot n s).st A = { A with ddr := m, time := { A.time with trace0 := a, trace1 := b } } := by
    unfold loopTrace; dsimp only; split
    · exact ⟨_, _, _, rfl⟩
    · exact traceEv_eq _ _ _ _ _
  have hBk : DeviceKept AnyRing A (loopTrace n (lslot n s).st A) := by
    unfold loopTrace; dsimp only; split
    · exact DeviceKept.refl _ _
    · exact (traceEv_ring _ _ _ _ _).mono (fun a h => ⟨_, h⟩)
  generalize loopTrace n (lslot n s).st A = B at *
  generalize hst : stamp (n / 8) B = st
  have hnow : B.time.now = s.time.now := by rw [hB, hAe]
  generalize hC : modLoop n (fun y => { y with outs := y.outs.map (safeStep (fsec y.periodUs)), waiting := none, safeAt := B.time.now }) B = C
  have hCe : C = { B with loop := { B.loop with slots := C.loop.slots } } := by rw [← hC]; rfl
  have hCl : ∀ j, lslot j C = if j = n then { lslot n s with
        st := .safeOut, track := false, req := 0, waiting := none, safeAt := s.time.now
        outs := (lslot n s).outs.map (safeStep (fsec (lslot n s).periodUs)) } else lslot j s := by
    intro j
    have hBl : ∀ j, lslot j B = lslot j A := by intro j; rw [hB]; rfl
    rw [← hC, lslot_modLoop, hBl, hBl, hAl, hAl, if_pos rfl, hnow]
    split <;> rfl
  obtain ⟨⟨t, l, d1⟩, d2, d3, a', b', c', d', e', d4⟩ := sendFrame_spec n st 0 C
  have hp : (lslot n C).port = (lslot n s).port := by rw [hCl, if_pos rfl]
  refine ⟨⟨t, l, m, a, b, ?_⟩, ?_, ?_, ?_, ?_⟩
  · rw [d1, hCe, hB, hAe]
  · intro j hj; rw [d2 j (by rw [hp]; exact hj), hCe, hB, hAe]; rfl
  · intro j hj; rw [d3 j hj, hCl, if_neg hj]
  · exact ⟨a', b', c', d', e', by rw [d4, hCl, if_pos rfl]⟩
  · exact hBk.of_ddr (by rw [hAe]) (by rw [d1, hCe])

/-- Whether an engine is up depends on the isolations alone. -/
theorem engineUp_fault (n : Nat) (s u : State) (h : u.fault = s.fault) : engineUp n u = engineUp n s := by
  unfold engineUp dieUp isIso; rw [h]

/-- Every slot that is neither STOPPED nor SAFE_OUT on an engine in service enters SAFE_OUT, and nothing else changes. -/
theorem safeOutAll_spec (s : State) :
    let enters := fun (n : Nat) => n ∈ declaredLoops s ∧ (lslot n s).st ≠ .stopped ∧ (lslot n s).st ≠ .safeOut ∧ engineUp n s = true
    (∃ t l m a b, safeOutAll s = { s with
        host := { s.host with eth := t }, loop := { s.loop with slots := l }, ddr := m, time := { s.time with trace0 := a, trace1 := b } })
    ∧ (∀ n, enters n → lslot n (safeOutAll s) = { lslot n s with
            st := .safeOut, track := false, req := 0, waiting := none, safeAt := s.time.now
            outs := (lslot n s).outs.map (safeStep (fsec (lslot n s).periodUs))
            ctr := (lslot n (safeOutAll s)).ctr, latLast := (lslot n (safeOutAll s)).latLast, latMax := (lslot n (safeOutAll s)).latMax
            replaced := (lslot n (safeOutAll s)).replaced, dropped := (lslot n (safeOutAll s)).dropped })
    ∧ (∀ n, ¬ enters n → lslot n (safeOutAll s) = lslot n s)
    ∧ (∀ e, (∀ n, enters n → (lslot n s).port ≠ e) → eport e (safeOutAll s) = eport e s)
    ∧ DeviceKept AnyRing s (safeOutAll s) := by
  intro enters
  unfold safeOutAll
  let g : State → Nat → State := fun a n => if (lslot n a).st = .stopped ∨ (lslot n a).st = .safeOut ∨ !engineUp n a then a else enterSafe n a
  show (∃ t l m a b, (declaredLoops s).foldl g s = _) ∧ _
  -- induction over the slots visited so far, from any state that looks like s
  have key : ∀ (ls : List Nat) (a : State) (done : List Nat),
      (∃ t l m x y, a = { s with host := { s.host with eth := t }, loop := { s.loop with slots := l }, ddr := m, time := { s.time with trace0 := x, trace1 := y } }) →
      (∀ n, n ∈ done → (lslot n s).st ≠ .stopped → (lslot n s).st ≠ .safeOut → engineUp n s = true → ∃ p q r u v, lslot n a = { lslot n s with
            st := .safeOut, track := false, req := 0, waiting := none, safeAt := s.time.now
            outs := (lslot n s).outs.map (safeStep (fsec (lslot n s).periodUs)), ctr := p, latLast := q, latMax := r, replaced := u, dropped := v }) →
      (∀ n, ¬ (n ∈ done ∧ (lslot n s).st ≠ .stopped ∧ (lslot n s).st ≠ .safeOut ∧ engineUp n s = true) → lslot n a = lslot n s) →
      (∀ e, (∀ n, n ∈ done → (lslot n s).st ≠ .stopped → (lslot n s).st ≠ .safeOut → engineUp n s = true → (lslot n s).port ≠ e) → eport e a = eport e s) →
      DeviceKept AnyRing s a →
      let u := ls.foldl g a
      let done' := ls ++ done
      (∃ t l m x y, u = { s with host := { s.host with eth := t }, loop := { s.loop with slots := l }, ddr := m, time := { s.time with trace0 := x, trace1 := y } }) ∧
      (∀ n, n ∈ done' → (lslot n s).st ≠ .stopped → (lslot n s).st ≠ .safeOut → engineUp n s = true → ∃ p q r u' v, lslot n u = { lslot n s with
            st := .safeOut, track := false, req := 0, waiting := none, safeAt := s.time.now
            outs := (lslot n s).outs.map (safeStep (fsec (lslot n s).periodUs)), ctr := p, latLast := q, latMax := r, replaced := u', dropped := v }) ∧
      (∀ n, ¬ (n ∈ done' ∧ (lslot n s).st ≠ .stopped ∧ (lslot n s).st ≠ .safeOut ∧ engineUp n s = true) → lslot n u = lslot n s) ∧
      (∀ e, (∀ n, n ∈ done' → (lslot n s).st ≠ .stopped → (lslot n s).st ≠ .safeOut → engineUp n s = true → (lslot n s).port ≠ e) → eport e u = eport e s) ∧
      DeviceKept AnyRing s u := by
    intro ls
    induction ls with
    | nil => intro a done h1 h2 h3 h4 h5; exact ⟨h1, h2, h3, h4, h5⟩
    | cons n r ih =>
      intro a done h1 h2 h3 h4 h5
      dsimp only
      rw [List.foldl_cons]
      have hperm : ∀ x, x ∈ (n :: r) ++ done ↔ x ∈ r ++ (n :: done) := by intro x; simp only [List.cons_append, List.mem_cons, List.mem_append]; constructor <;> (rintro (h | h | h)) <;> simp [h]
      simp only [hperm]
      have heng : ∀ j, engineUp j a = engineUp j s := by
        intro j; obtain ⟨t, l, m, x, y, h⟩ := h1; exact engineUp_fault _ _ _ (by rw [h])
      have hnow : a.time.now = s.time.now := by obtain ⟨t, l, m, x, y, h⟩ := h1; rw [h]
      by_cases hs : (lslot n a).st = .stopped ∨ (lslot n a).st = .safeOut ∨ (!engineUp n a) = true
      · have hg : g a n = a := if_pos hs
        rw [hg]
        -- the slot is done already, or does not enter
        have hdone : ¬ ((lslot n s).st ≠ .stopped ∧ (lslot n s).st ≠ .safeOut ∧ engineUp n s = true) ∨ n ∈ done := by
          by_cases hc : n ∈ done ∧ (lslot n s).st ≠ .stopped ∧ (lslot n s).st ≠ .safeOut ∧ engineUp n s = true
          · exact .inr hc.1
          · left; rintro ⟨e1, e2, e3⟩
            rw [h3 n hc, heng] at hs
            rcases hs with hs | hs | hs
            · exact e1 hs
            · exact e2 hs
            · rw [e3] at hs; simp at hs
        refine ih a (n :: done) h1 ?_ ?_ ?_ h5
        · intro j hj e1 e2 e3
          rcases List.mem_cons.1 hj with rfl | hj
          · rcases hdone with h | h
            · exact absurd ⟨e1, e2, e3⟩ h
            · exact h2 _ h e1 e2 e3
          · exact h2 j hj e1 e2 e3
        · intro j hj
          refine h3 j (fun h => hj ⟨by simp [h.1], h.2⟩)
        · intro e he
          exact h4 e (fun j hj => he j (by simp [hj]))
      · have hg : g a n = enterSafe n a := if_neg hs
        rw [hg]
        simp only [not_or] at hs
        obtain ⟨s1, s2, s3⟩ := hs
        have hnd : ¬ (n ∈ done ∧ (lslot n s).st ≠ .stopped ∧ (lslot n s).st ≠ .safeOut ∧ engineUp n s = true) := by
          rintro ⟨e0, e1, e2, e3⟩
          obtain ⟨p, q, r', u, v, h⟩ := h2 n e0 e1 e2 e3
          rw [h] at s2; exact s2 rfl
        have hns := h3 n hnd
        obtain ⟨⟨t', l', m', x', y', g1⟩, g2, g3, g4, g5⟩ := enterSafe_spec n a
        rw [hns] at g2 g4
        refine ih (enterSafe n a) (n :: done) ?_ ?_ ?_ ?_ (h5.trans g5)
        · obtain ⟨t, l, m, x, y, h⟩ := h1
          exact ⟨t', l', m', x', y', by rw [g1, h]⟩
        · intro j hj e1 e2 e3
          by_cases hjn : j = n
          · subst hjn; rw [hnow] at g4; exact g4
          · rw [g3 j hjn]; exact h2 j (by simpa [hjn] using hj) e1 e2 e3
        · intro j hj
          have hjn : j ≠ n := by
            rintro rfl
            refine hj ⟨by simp, ?_⟩
            rw [hns] at s1 s2; rw [heng] at s3
            exact ⟨s1, s2, by simpa using s3⟩
          rw [g3 j hjn]
          exact h3 j (fun h => hj ⟨by simp [h.1], h.2⟩)
        · intro e he
          rw [g2 e ?_]
          · exact h4 e (fun j hj => he j (by simp [hj]))
          · rw [hns] at s1 s2; rw [heng] at s3
            exact fun h => he n (by simp) s1 s2 (by simpa using s3) h.symm
  obtain ⟨k1, k2, k3, k4, k5⟩ := key (declaredLoops s) s [] ⟨s.host.eth, s.loop.slots, s.ddr, s.time.trace0, s.time.trace1, rfl⟩ (by simp) (by simp) (by simp) (DeviceKept.refl _ s)
  simp only [List.append_nil] at k2 k3 k4
  refine ⟨k1, fun n hn => ?_, fun n hn => k3 n hn, fun e he => k4 e (fun n h1 h2 h3 h4 => he n ⟨h1, h2, h3, h4⟩), k5⟩
  obtain ⟨p, q, r, u, v, h⟩ := k2 n hn.1 hn.2.1 hn.2.2.1 hn.2.2.2
  rw [h]

/-- Settling the module state changes nothing else. -/
theorem settle_kept (s : State) : settle s = { s with power := { s.power with st := (settle s).power.st, prev := (settle s).power.prev } } := by
  obtain ⟨a, b, h⟩ := settle_eq s; rw [h]

/-- A flash write cut short ends, and changes the two flashes only. -/
theorem abortFlash_spec (s : State) : ∃ fa fb, abortFlash s = { s with
        sec := { s.sec with job := none, flashA := fa, flashB := fb }, crown := { s.crown with calBusy := false } }
        ∧ (s.sec.job = none → s.crown.calBusy = false → fa = s.sec.flashA ∧ fb = s.sec.flashB) := by
  obtain ⟨B, hB, a1, b1, h1, h2⟩ : ∃ B : State, (match s.sec.job with
    | none => s
    | some j =>
      let f := fun (x : Flash) =>
        if j.firmware then (if j.index = 0 then { x with fw0 := [] } else { x with fw1 := [] })
        else { x with store := tmod {} j.index (fun e => { e with valid := false }) x.store }
      modFlash 0 f (modFlash 1 f { s with sec := { s.sec with job := none } })) = B ∧ ∃ a1 b1,
      B = { s with sec := { s.sec with job := none, flashA := a1, flashB := b1 } } ∧ (s.sec.job = none → a1 = s.sec.flashA ∧ b1 = s.sec.flashB) := by
    refine ⟨_, rfl, ?_⟩
    cases hj : s.sec.job with
    | none =>
      have key : ({ s with sec := { s.sec with job := none, flashA := s.sec.flashA, flashB := s.sec.flashB } } : State) = s := by rw [← hj]
      exact ⟨s.sec.flashA, s.sec.flashB, key.symm, fun _ => ⟨rfl, rfl⟩⟩
    | some j => exact ⟨_, _, rfl, fun h => by simp at h⟩
  have hA : abortFlash s = if B.crown.calBusy then
    modFlash 0 (fun x => { x with cal := [] }) { B with crown := { B.crown with calBusy := false } } else B := by
    rw [← hB]; rfl
  have hcal : B.crown.calBusy = s.crown.calBusy := by rw [h1]
  rw [hA, hcal]
  cases hc : s.crown.calBusy with
  | true => refine ⟨_, _, by rw [h1]; rfl, fun _ h => by simp at h⟩
  | false =>
    have key : ({ s with crown := { s.crown with calBusy := false } } : State) = s := by rw [← hc]
    refine ⟨a1, b1, ?_, fun h _ => h2 h⟩
    have k2 : ({ s with crown := { s.crown with calBusy := false } } : State).crown = s.crown := by rw [key]
    rw [if_neg (by simp), h1]
    show _ = ({ s with sec := _, crown := ({ s with crown := { s.crown with calBusy := false } } : State).crown } : State)
    rw [k2]

end Sys2Proof.Machine

namespace Sys2Proof

open Sys2Proof.Machine

/-- Voiding reads of a state its tickets, streams, clock and isolations only. -/
theorem TicketsVoided.of_led {P : Ticket → Prop} {c p : Nat} {s u s' u' : State} (h : TicketsVoided P c p s u)
    (hs : s'.led.tickets = s.led.tickets) (hs2 : s'.led.strm = s.led.strm) (hu : u'.led.tickets = u.led.tickets)
    (ht : ∀ d, stamp d s' = stamp d s) (hf : s'.fault.isolated = s.fault.isolated) : TicketsVoided P c p s' u' := by
  unfold TicketsVoided at *
  have hst : ∀ k, stamp (liveDie (homeOf k s') s') s' = stamp (liveDie (homeOf k s) s) s := by
    intro k; rw [ht]; unfold liveDie dieUp isIso homeOf strm; rw [hf, hs2]
  have hv : ∀ k, strm k s' = strm k s := by intro k; unfold strm; rw [hs2]
  have hc : canVoid s' = canVoid s := by funext k; unfold canVoid; rw [hst]
  simp only [hs, hu, hst, hv, hc]; exact h

end Sys2Proof
end

