-- ==== Sys2Proof/Tests/Slice0.lean ====
section
/-!
SUPPORT. Tests: every check of well-formedness refuses an ill-formed command; each statement's hypotheses are met by a
concrete state and operands, clause by clause at boundary values, and the command run there does what the clause says.
Expected values come from the rules of spec/ the statements cite.
-/

namespace Sys2Proof.Tests

-- One theorem is elaborated at a time: every evaluation waits for the kernel, and a waiting one holds a thread.
set_option Elab.async false

open Sys2Proof Sys2Proof.Machine

/-- The command answers a next state that meets `P`. -/
def after (c : Instr) (s : State) (P : State → Bool) : Bool :=
  match Machine.exec c s with
  | .next u => P u
  | _ => false

/-- The command changes nothing. -/
def idle (c : Instr) (s : State) : Bool := after c s (fun u => u == s)

/-- The machine after reset. -/
def r : State := State.reset

/-- Reset with a power block changed. -/
def pw (f : PowerState → PowerState) : State := { r with power := f r.power }
/-- Reset with the crown changed. -/
def cw (f : CrownState → CrownState) : State := { r with crown := f r.crown }
/-- Reset with the time block changed. -/
def tw (f : TimeState → TimeState) : State := { r with time := f r.time }
/-- Reset with the fault block changed. -/
def fw (f : FaultState → FaultState) : State := { r with fault := f r.fault }
/-- Reset with the security block changed. -/
def sw (f : SecState → SecState) : State := { r with sec := f r.sec }
/-- Reset with parts isolated. -/
def isoS (ps : List Nat) : State := fw (fun f => { f with isolated := ps })
/-- A state in STANDBY with the boot chain complete. -/
def stby (s : State) : State := { s with power := { s.power with st := .standby, booted := true } }

/-! ### Well-formed commands: each check refuses its first value out of range and takes the last one in it -/

theorem test_wf_die : Instr.wf (.coreTestStart 0 2) = false ∧ Instr.wf (.coreTestStart 0 (2 - 1)) = true := by decide
theorem test_wf_host_port : Instr.wf (.hostLinkUp 0 2) = false ∧ Instr.wf (.hostLinkUp 0 (2 - 1)) = true := by decide
theorem test_wf_eth_port : Instr.wf (.ethLinkDown 0 4) = false ∧ Instr.wf (.ethLinkDown 0 (4 - 1)) = true := by decide
theorem test_wf_csi_port : Instr.wf (.csiLinkLost 0 8) = false ∧ Instr.wf (.csiLinkLost 0 (8 - 1)) = true := by decide
theorem test_wf_stack : Instr.wf (.routeTableSwap 0 4) = false ∧ Instr.wf (.routeTableSwap 0 (4 - 1)) = true := by decide
theorem test_wf_bank : Instr.wf (.liningScrubRead 0 3 48 0) = false ∧ Instr.wf (.liningScrubRead 0 3 (48 - 1) 0) = true := by decide
theorem test_wf_glove : Instr.wf (.gloveTestSlice 0 1344) = false ∧ Instr.wf (.gloveTestSlice 0 (1344 - 1)) = true := by decide
theorem test_wf_mitten : Instr.wf (.mittenWake 0 1344) = false ∧ Instr.wf (.mittenWake 0 (1344 - 1)) = true := by decide
theorem test_wf_quad : Instr.wf (.quadReturnSeam 0 336) = false ∧ Instr.wf (.quadReturnSeam 0 (336 - 1)) = true := by decide
theorem test_wf_pair : Instr.wf (.thermalTrip 0 344 false 0) = false ∧ Instr.wf (.thermalTrip 0 (344 - 1) false 0) = true := by decide
theorem test_wf_engine : Instr.wf (.seamLimitExpire 0 4) = false ∧ Instr.wf (.seamLimitExpire 0 (4 - 1)) = true := by decide
theorem test_wf_seam_group : Instr.wf (.blockSeam 0 3 0x940) = false ∧ Instr.wf (.blockSeam 0 3 (0x940 - 1)) = true := by decide
theorem test_wf_stream : Instr.wf (.outcomeDeliver 0 256) = false ∧ Instr.wf (.outcomeDeliver 0 (256 - 1)) = true := by decide
theorem test_wf_sensor : Instr.wf (.streamStall 0 48) = false ∧ Instr.wf (.streamStall 0 (48 - 1)) = true := by decide
theorem test_wf_slot : Instr.wf (.loopEval 0 16) = false ∧ Instr.wf (.loopEval 0 (16 - 1)) = true := by decide
theorem test_wf_unit : Instr.wf (.projectionRecompute 0 8 true) = false ∧ Instr.wf (.projectionRecompute 0 (8 - 1) true) = true := by decide
theorem test_wf_manual : Instr.wf (.loopManWrite 0 15 8 0) = false ∧ Instr.wf (.loopManWrite 0 15 (8 - 1) 0) = true := by decide
theorem test_wf_group : Instr.wf (.slotOpen 0 16) = false ∧ Instr.wf (.slotOpen 0 (16 - 1)) = true := by decide
theorem test_wf_member : Instr.wf (.memberDecide 0 15 0 32) = false ∧ Instr.wf (.memberDecide 0 15 0 (32 - 1)) = true := by decide
theorem test_wf_check : Instr.wf (.checkVerdict 0 64) = false ∧ Instr.wf (.checkVerdict 0 (64 - 1)) = true := by decide
theorem test_wf_chan : Instr.wf (.ddrZqcs 0 12) = false ∧ Instr.wf (.ddrZqcs 0 (12 - 1)) = true := by decide
theorem test_wf_vector : Instr.wf (.msixUnmask 0 1 32) = false ∧ Instr.wf (.msixUnmask 0 1 (32 - 1)) = true := by decide
theorem test_wf_source : Instr.wf (.fwFaultAck 0 2048) = false ∧ Instr.wf (.fwFaultAck 0 (2048 - 1)) = true := by decide
theorem test_wf_part : Instr.wf (.isolationConfirm 0 0x250) = false ∧ Instr.wf (.isolationConfirm 0 (0x250 - 1)) = true := by decide
theorem test_wf_rail : Instr.wf (.railOutOfRegulation 0 1 7) = false ∧ Instr.wf (.railOutOfRegulation 0 1 (7 - 1)) = true := by decide
theorem test_wf_stage : Instr.wf (.mateStage 0 4 true) = false ∧ Instr.wf (.mateStage 0 (4 - 1) true) = true := by decide
theorem test_wf_age_die : Instr.wf (.ageingRead 0 6 0) = false ∧ Instr.wf (.ageingRead 0 (6 - 1) 0) = true := by decide
theorem test_wf_word : Instr.wf (.rateWrite 0 (2 ^ 32)) = false ∧ Instr.wf (.rateWrite 0 (2 ^ 32 - 1)) = true := by decide
theorem test_wf_half_word : Instr.wf (.ethTxProduce 0 3 (2 ^ 16)) = false ∧ Instr.wf (.ethTxProduce 0 3 (2 ^ 16 - 1)) = true := by decide
theorem test_wf_bar0 : Instr.wf (.registerWrite 0 1 0x04000000 4 0) = false ∧ Instr.wf (.registerWrite 0 1 (0x04000000 - 1) 4 0) = true := by decide
theorem test_wf_bar4 : Instr.wf (.bar4Write 0 1 0x01000000 [] true) = false ∧ Instr.wf (.bar4Write 0 1 (0x01000000 - 1) [] true) = true := by decide
theorem test_wf_part_gap : Instr.wf (.isolationConfirm 0 0x80) = false ∧ Instr.wf (.isolationConfirm 0 0xFF) = false
    ∧ Instr.wf (.isolationConfirm 0 0x7F) = true ∧ Instr.wf (.isolationConfirm 0 0x100) = true := by decide

/-! ### Steps, memories, registers -/

theorem witness_StepRunsTheFrontCommand :
    r.pending = [] ∧ Machine.step r = .next r
    ∧ Machine.step { r with pending := [.ppsInEdge 0] } = Machine.exec (.ppsInEdge 0) r := ⟨rfl, rfl, rfl⟩

theorem witness_EveryStepTakesOneCommandAndTimeNeverTurnsBack :
    (match Machine.step { r with pending := [.lifeMinute 50, .ppsInEdge 0] } with
     | .next u => decide (u.pending = [.ppsInEdge 0]) && decide (u.time.now = 50)
     | _ => false) = true := by decide +kernel

theorem witness_EveryMemoryStaysCanonical :
    MemWf { r with pending := [.ddrRequestEnter 0 0 (some [(0, 5#8)]) (.island 0) false] }
    ∧ (match Machine.step { r with pending := [.lifeMinute 50] } with
       | .next u => Memory.wf u.ddr.mem
       | _ => false) = true := by
  refine ⟨?_, by decide +kernel⟩
  unfold MemWf
  decide +kernel

theorem witness_CapabilitiesStayAsBuilt :
    quadAvail (0 / 4) (isoS [0x100]) = false ∧ quadAvail (1343 / 4) (isoS [0x24F]) = false
    ∧ read32 0 (0x00400000 + 1343 * 0x100) (isoS [0x24F]) % 8 = 5 := by decide +kernel

theorem witness_UnalignedAndUnimplementedAccessesOfRegisters :
    let up := { r with host := { r.host with p0 := { link := true } } }
    ¬ (16 = 32 ∧ 2 % 4 = 0) ∧ ¬ (32 = 64 ∧ 2 % 8 = 0) ∧ (regRead 0 2 32 r).1 = 2 ^ 64 - 1
    ∧ (∀ o ∈ [0x7FFFC, 0xB0000, 0xD0000, 0xFFFFC, 0x211000, 0x3FFFFC, 0x454000, 0x464000, 0x46FFFC, 0x470400],
      ReservedOffset o ∧ (regRead 0 o 32 r).1 = 0)
    ∧ (portUp 0 (advanceTo 0 up) = true ∧ offBlocked 0x50 (advanceTo 0 up) = false ∧ wideReg 0x50 = none)
    ∧ wideVal 0x08 r = none := by decide +kernel

/-! ### Power (R28 to R33, R390, R391) -/

theorem witness_ConnectorMatesInOrderAndBiasHoldsThePins :
    (2 ≤ 3 ∧ (2 = r.power.mate + 1 ∨ r.power.mate = 2 + 1))
    ∧ after (.mateStage 0 2 true) r (fun u => u.power.mate == 2 && u.power.on && !u.power.pwrEn)
    ∧ after (.mateStage 0 1 true) (pw (fun p => { p with mate := 2 })) (fun u => !u.power.on && u.power.st == .off)
    ∧ (1 + 1 < r.power.mate) ∧ idle (.mateStage 0 1 true) r ∧ idle (.mateStage 0 2 false) r
    ∧ after (.biasHoldLoss 0 8999) r (fun u => !u.power.biasHeld) ∧ idle (.biasHoldLoss 0 9000) r := by decide +kernel

theorem witness_PowerStageTurnsOffAtItsLimits :
    r.power.on = true
    ∧ after (.inputUndervoltageOff 0 32999 50001) r (fun u => !u.power.on && u.power.st == .off && u.power.prev == .boot)
    ∧ after (.inputOvervoltageOff 0 63001 50001) r (fun u => !u.power.on && !u.power.aon0)
    ∧ after (.pwrEnLowOff 0 100001) r (fun u => !u.power.on && !u.power.pwrEn)
    ∧ after (.presenceLossOff 0) r (fun u => !u.power.on && !u.power.prsnt)
    ∧ idle (.inputUndervoltageOff 0 33000 50001) r ∧ idle (.inputUndervoltageOff 0 32999 50000) r
    ∧ idle (.inputOvervoltageOff 0 63000 50001) r
    ∧ after (.pwrEnLowOff 0 100000) r (fun u => u.power.on && !u.power.pwrEn) := by decide +kernel

/-- A module whose power stage is on and whose always-on converters are still to rise, with its two JEPOCH copies. -/
def rising (a b : Option Nat) (strap : Nat) : State :=
  pw (fun p => { p with pgood := false, aon0 := false, aon1 := false, jepochA := a, jepochB := b, strapPins := strap })

theorem witness_StartFromFullPowerLossRaisesJepoch :
    after (.inputQualified 0 36000) (pw (fun p => { p with on := false })) (fun u => u.power.on)
    ∧ after (.inputQualified 0 60000) (pw (fun p => { p with on := false })) (fun u => u.power.on)
    ∧ after (.pgoodRelease 0) (rising (some 5) (some 5) 1) (fun u => u.power.jepoch == 6 && u.power.position == 1 && u.power.pgood)
    ∧ after (.pgoodRelease 0) (rising (some 5) none 1) (fun u => u.power.jepoch == 6)
    ∧ after (.pgoodRelease 0) (rising none (some 5) 1) (fun u => u.power.jepoch == 6)
    ∧ after (.pgoodRelease 0) (rising (some 65535) (some 0) 1) (fun u => u.power.jepoch == 1)
    ∧ after (.pgoodRelease 0) (rising (some 9) (some 3) 1) (fun u => u.power.jepoch == 10)
    ∧ after (.pgoodRelease 0) (rising none none 1) (fun u => u.sec.stopped && u.sec.code == 0x0A)
    ∧ after (.pgoodRelease 0) (rising (some 5) (some 5) 3) (fun u => u.sec.stopped && u.sec.code == 1 && (fsrc 0x5BC u).latched) := by
  decide +kernel

theorem witness_JournalEpochChangesOnlyAtAColdStart :
    (sw (fun x => { x with ownerSet := true })).sec.ownerSet = true
    ∧ after (.lifeMinute 0) (sw (fun x => { x with ownerSet := true })) (fun u => u.sec.ownerSet && u.power.jepoch == 0) := by
  decide +kernel

theorem witness_InputRailAndClockFaultsAreLatched :
    after (.inputVoltageWarn 0 33000) r (fun u => (fsrc 0x1B0 u).latched && (fsrc 0x5B0 u).detail == 0)
    ∧ after (.inputVoltageWarn 0 35999) r (fun u => (fsrc 0x1B0 u).latched)
    ∧ after (.inputVoltageWarn 0 60001) r (fun u => (fsrc 0x1B0 u).detail == 1)
    ∧ after (.inputVoltageWarn 0 63000) r (fun u => (fsrc 0x5B0 u).detail == 1)
    ∧ (r.power.aon0 = true ∧ r.power.aon1 = true)
    ∧ after (.railOutOfRegulation 0 1 0) r (fun u => !u.power.pgood && !u.power.main1 && (fsrc 0x5B1 u).latched)
    ∧ after (.railOutOfRegulation 0 0 6) r (fun u => !u.power.aon0 && u.power.aon1 && u.fault.c0.pinLow)
    ∧ after (.railOutOfRegulation 0 1 6) r (fun u => u.power.aon0 && !u.power.aon1)
    ∧ after (.refclkLoss 0 1 (some 1001)) r (fun u => (fsrc 0x5A0 u).latched && !u.power.refA)
    ∧ after (.refclkLoss 0 0 none) r (fun u => (fsrc 0x1A0 u).latched && !u.power.refB)
    ∧ idle (.refclkLoss 0 0 (some (-1000))) r := by decide +kernel

/-- Every channel in self-refresh. -/
def asleep (s : State) : State :=
  { s with ddr := { s.ddr with ch := (List.range 12).map (fun i => (i, { st := .selfRefresh })) } }

theorem witness_RetainIsRequestedEnteredAndLeft :
    bits 0x1409 1 0 = 1 ∧ r.power.retainEntry = false
    ∧ after (.retainRequest 0 0x1409) r (fun u => u.power.refused && !u.power.retainEntry && (fsrc 0x142 u).detail == 0x30)
    ∧ after (.retainRequest 0 0x1409) (stby r)
        (fun u => u.power.retainEntry && u.led.stopRetain && u.power.wakeEn && u.power.holdMs == 20)
    ∧ ddrAsleep (asleep (pw (fun p => { p with retainEntry := true }))) = true
    ∧ after (.retainEntered 0) (asleep (pw (fun p => { p with retainEntry := true }))) (fun u => u.power.inRetain)
    ∧ after (.retainEntered 0) (asleep (pw (fun p => { p with retainEntry := true, wakePend := true }))) (fun u => u.power.retainExit)
    ∧ after (.retainWakeStamp 40) (pw (fun p => { p with wakeEn := true, inRetain := true, wakeStamp := 40 }))
        (fun u => u.power.retainExit && !u.power.inRetain)
    ∧ after (.stateHoldExpire 0) (pw (fun p => { p with booted := true, st := .active })) (fun u => u.power.st == .standby && u.power.prev == .active) := by
  decide +kernel

/-! ### The crown (R394 to R412) -/

theorem witness_PowerSamplesDriveTheBackstopAndTheLevels :
    r.power.on = true ∧ crownUp r = true ∧ eShortMw r = 640000 ∧ eRunMw r = 520000
    ∧ after (.crownPowerSample 0 640001) (cw (fun c => { c with overShort := 1 }))
        (fun u => u.crown.hardCap && u.crown.excursions == 1 && (fsrc (crownColl r * 0x400 + 0x1BB) u).latched)
    ∧ after (.crownPowerSample 0 468000) (cw (fun c => { c with hardCap := true })) (fun u => !u.crown.hardCap && u.crown.peakW == 468)
    ∧ after (.crownThrottleUpdate 0 [] []) (cw (fun c => { c with sumMw := 520001, sumN := 1, level := 2 })) (fun u => u.crown.level == 3)
    ∧ after (.crownThrottleUpdate 0 [] []) (cw (fun c => { c with sumMw := 520000, sumN := 1, level := 2 })) (fun u => u.crown.level == 2)
    ∧ after (.crownThrottleUpdate 0 [] []) (cw (fun c => { c with sumMw := 468000, sumN := 1, level := 2 })) (fun u => u.crown.level == 2)
    ∧ after (.crownThrottleUpdate 0 [0] []) { r with fab := { r.fab with mittens := [(0, { bound := true })] } }
        (fun u => !(mitten 0 u).halfNext && u.crown.nowW == 0) := by decide +kernel

/-- The bytes of a good tray reading: inlet and outlet in 0.01 °C, flow in mL/min. -/
def tray (inlet outlet flow : Nat) : List Byte :=
  let b := leBytes 2 inlet ++ leBytes 2 outlet ++ leBytes 2 flow ++ [1#8]
  b ++ [BitVec.ofNat 8 (crc8 b)]

theorem witness_CoolantFaultsHoldTheModule :
    (r.power.on = true ∧ dieUp 0 r = true ∧ trayGood true (tray 2000 3000 799) = true)
    ∧ after (.trayI3cRead 0 true (tray 2000 3000 799)) r (fun u => u.crown.coolHold && u.led.stopCool && u.crown.flow == 799)
    ∧ after (.trayI3cRead 0 true (tray 7000 7100 9000)) r (fun u => u.crown.coolHold && u.crown.inletHigh)
    ∧ after (.trayI3cRead 0 true (tray 6999 7100 3199)) r (fun u => !u.crown.coolHold && (fsrc (crownColl r * 0x400 + 0x1B4) u).latched)
    ∧ trayGood false (tray 2000 3000 799) = false ∧ idle (.trayI3cRead 0 true []) r
    ∧ after (.trayI3cWrite 0 true) r (fun u => decide (u.crown.traySent = [forecastBytes r]))
    ∧ after (.trayStale 100000000) (cw (fun c => { c with goodAt := some 0 }))
        (fun u => u.crown.stale && (fsrc (crownColl r * 0x400 + 0x1BA) u).latched)
    ∧ after (.coolantLowClear 10000000000) (cw (fun c => { c with flowLow := true, flowOkSince := some 0 })) (fun u => !u.crown.flowLow)
    ∧ after (.coolHoldQuiesced 0) (cw (fun c => { c with coolHold := true })) (fun u => u.crown.coolGated)
    ∧ coolOk (cw (fun c => { c with coolHold := true, coolSince := some 0, goodAt := some 0, flow := 3200, inlet := 5999 })) = true
    ∧ after (.coolHoldExit 10000000000)
        (cw (fun c => { c with coolHold := true, coolSince := some 0, goodAt := some 0, flow := 3200, inlet := 5999 }))
        (fun u => !u.crown.coolHold) := by decide +kernel

theorem witness_ThermalSensorsAreMaskedAndThrottle :
    (crownUp r = true ∧ dieUp (pairHalf 343) r = true)
    ∧ after (.crownThermalRead 0 [(343, 100 * 128, 104 * 128)]) r
        (fun u => (tpair 343 u).hot == some (104 * 128) && (tpair 343 u).halfRate && (tpair 343 u).held)
    ∧ after (.crownThermalRead 0 [(0, 150 * 128 + 1, 50 * 128)]) r (fun u => (tpair 0 u).maskD && (tpair 0 u).hot == some (53 * 128))
    ∧ after (.crownThermalRead 0 [(0, 50 * 128, -40 * 128 - 1)]) r (fun u => (tpair 0 u).maskR && (tpair 0 u).hot == some (53 * 128))
    ∧ after (.crownThermalRead 0 [(336, 151 * 128, 151 * 128)]) r (fun u => (tpair 336 u).hot == some (105 * 128))
    ∧ after (.crownThermalRead 0 [(335, 151 * 128, 151 * 128)]) r (fun u => (tpair 335 u).hot == none)
    ∧ (dieUp 0 (isoS [4]) = false ∧ dieUp 1 (isoS [4]) = true)
    ∧ after (.shadowCrownTakeover 0) (isoS [4]) (fun u => u.crown.acting) := by decide +kernel

theorem witness_LifeCountersAgeingAndCalibrationWrites :
    (r.power.st ≠ .off ∧ r.power.st ≠ .retain)
    ∧ after (.lifeLogWrite 0) (cw (fun c => { c with lifeH := 7 })) (fun u => u.sec.flashA.lifeLog == (7, 0))
    ∧ (isIso 5 r = false ∧ crownUp r = true)
    ∧ after (.ageingRead 0 5 899) r (fun u => decide (tget ({} : AgeReg) 5 u.crown.age = ⟨899, 40, false⟩))
    ∧ after (.ageingRead 0 0 900) r (fun u => (tget ({} : AgeReg) 0 u.crown.age).limit)
    ∧ bit 0x8000272C 31 = true ∧ bits 0x8000272C 16 0 = 10028
    ∧ after (.calWrite 0 0x8000272C) r (fun u => u.crown.calResult == 2)
    ∧ (stby r).crown.calBusy = false ∧ calVerifies [] (stby r) = false
    ∧ after (.calWrite 0 0x8000272C) (stby r) (fun u => u.crown.calResult == 3)
    ∧ after (.calWriteDone 0 true) (cw (fun c => { c with calBusy := true, calNew := [1#8] }))
        (fun u => u.crown.calResult == 1 && decide (u.sec.flashA.cal = [1#8]))
    ∧ after (.calWriteDone 0 false) (cw (fun c => { c with calBusy := true })) (fun u => u.crown.calResult == 4) := by decide +kernel

/-! ### Faults, isolation, the safe state (R346 to R365) -/

/-- The newest record of a collector that has written one. -/
def firstRec (c : Nat) (u : State) : FaultRec := tget {} 0 (coll c u).ring

theorem witness_RaisesAreRecordedAndActedOnBySeverity :
    (∀ j, (fsrc j r).hits = 0) ∧ (∀ j, (fsrc j (isoS [5])).hits = 0)
    ∧ (twf {} r.fault.src = true ∧ r.power.safe = false ∧ r.fault.sweepAt = none ∧ (fsrc 0x598 r).active = false
        ∧ (fsrc 0x598 r).lastRec = none ∧ (coll 1 r).rseq < 2 ^ 32)
    ∧ after (.faultRaise 0 1 [(0x198, 9)]) r (fun u => (firstRec 1 u).source == 0x598 && (firstRec 1 u).sev == 0
        && (firstRec 1 u).action == 0 && (firstRec 1 u).detail == 9 && !(fsrc 0x598 u).active)
    ∧ after (.faultRaise 0 0 [(0x1B0, 9)]) r (fun u => (firstRec 0 u).sev == 1 && (firstRec 0 u).action == 1)
    ∧ after (.faultRaise 0 0 [(0x3FF, 9)]) r (fun u => (firstRec 0 u).sev == 2 && (firstRec 0 u).action == 1
        && (fsrc 0x3FF u).timer == some 0)
    ∧ (sevOf 0x1A0 (isoS [5]) = 2 ∧ srcPart 0x1A0 = 5 ∧ isIso 5 (isoS [5]) = true)
    ∧ after (.faultRaise 0 0 [(0x1A0, 9)]) (isoS [5]) (fun u => (firstRec 0 u).action == 8 && (firstRec 0 u).part == 5)
    ∧ after (.faultRaise 0 1 [(0x1BD, 9)]) r (fun u => (firstRec 1 u).action == 5 && u.fault.safeReq == some (0x5BD, 1, 0))
    ∧ lineGated 0x7FF r = false ∧ 0x7FF % 0x400 ≠ 0x1BF
    ∧ after (.faultLineBroken 0 0x7FF) r (fun u => (fsrc 0x7FF u).wire && (fsrc 0x5BF u).latched && (fsrc 0x5BF u).detail == 0x3FF) := by
  refine ⟨fun _ => rfl, fun _ => rfl, ?_⟩
  decide +kernel

/-- Source 0x5A0 with its reaction timer started at 0; its part is IOD0. -/
def timed : State := fw (fun f => { f with src := [(0x5A0, { active := true, latched := true, timer := some 0 })] })

/-- `timed` with both islands SILENT. -/
def mute : State := { timed with isl := { timed.isl with a := { timed.isl.a with vote := .silent }, b := { timed.isl.b with vote := .silent } } }

theorem witness_ReactionTimersEndByFirmwareOrByIsolation :
    (0x5A0 < 2048 ∧ (fsrc 0x5A0 timed).timer.isSome = true ∧ timerDue 0x5A0 (advanceTo 199999 timed) = false ∧ fwHandles 1 timed = true)
    ∧ after (.fwFaultAck 199999 0x5A0) timed (fun u => (fsrc 0x5A0 u).timer == none && (firstRec 1 u).action == 2)
    ∧ after (.fwIsolateCmd 199999 0x5A0 4) timed (fun u => decide (u.fault.isoPend = [⟨4, some 0x5A0, 3, 199999⟩]) && (fsrc 0x5A0 u).timer == none)
    ∧ timerDue 0x5A0 (advanceTo 200000 timed) = true ∧ srcPart 0x5A0 = 4
    ∧ after (.reactionTimerExpire 200000 0x5A0) timed (fun u => decide (u.fault.isoPend = [⟨4, some 0x5A0, 4, 200000⟩]))
    ∧ srcPart 0x3FF = 0xFF
    ∧ after (.reactionTimerExpire 200000 0x3FF) (fw (fun f => { f with src := [(0x3FF, { timer := some 0 })] }))
        (fun u => (u.fault.safeReq.map (fun x => (x.1, x.2.1))) == some (0x3FF, 2))
    ∧ timerDue 0x5A0 (advanceTo 0 timed) = false ∧ idle (.reactionTimerExpire 0 0x5A0) timed
    ∧ after (.fwFaultAck 200000 0x5A0) timed (fun u => decide (u.fault.isoPend = [⟨4, some 0x5A0, 4, 200000⟩]))
    ∧ after (.fwIsolateCmd 200000 0x5A0 5) timed (fun u => decide (u.fault.isoPend = [⟨4, some 0x5A0, 4, 200000⟩]))
    ∧ fwHandles 1 mute = false ∧ idle (.fwFaultAck 0 0x5A0) mute ∧ idle (.fwIsolateCmd 0 0x5A0 4) mute
    ∧ (fsrc 0x5A0 r).timer = none ∧ idle (.fwFaultAck 0 0x5A0) r := by decide +kernel

/-- An isolation of a part commanded at 0 for source 0x3FF. -/
def isoPending (part : Nat) : State := fw (fun f => { f with isoPend := [⟨part, some 0x3FF, 4, 0⟩] })

theorem witness_IsolationsAreConfirmedOrEndInTheSafeState :
    (isoCmd 0x24F (isoPending 0x24F)).isSome = true ∧ partKnown 0x24F = true ∧ partKnown 4 = true ∧ isIso 4 (isoPending 4) = false
    ∧ after (.isolationConfirm 5000 0x24F) (isoPending 0x24F) (fun u => isIso 0x24F u && (isoCmd 0x24F u).isNone)
    ∧ after (.isolationConfirm 5000 4) (isoPending 4) (fun u => (partsBehind 4).all (fun p => isIso p u))
    ∧ after (.isolationUnconfirmed 5001 0x24F) (isoPending 0x24F)
        (fun u => (u.fault.safeReq.map (fun x => (x.1, x.2.1))) == some (0x3FF, 2) && !isIso 0x24F u) := by decide +kernel

theorem witness_TheSafeStateAssertsBothPinsAndVoidsAll :
    let s1 := fw (fun f => { f with safeReq := some (0x5BD, 1, 7), c0 := { pinLow := false }, c1 := { pinLow := false } })
    let s2 := { s1 with loop := { s1.loop with slots := [(15, { declared := true, st := .auto })] } }
    s1.fault.safeReq = some (0x5BD, 1, 7) ∧ 0x5BD / 0x400 = 1 ∧ s1.power.on = true ∧ s1.power.aon0 = true
    ∧ (lslot 15 s2).declared = true ∧ engineUp 15 s2 = true
    ∧ after (.safeEnter 0 1) s2 (fun u => u.fault.c0.pinLow && u.fault.c1.pinLow && u.power.st == .safe && u.fault.safeSource == 0x5BD
        && u.fault.safeStamp == 7 && (lslot 15 u).st == .safeOut)
    ∧ (pairHalf 343 = 1 ∧ (tpair 343 r).maskR = false ∧ r.fault.profile = [])
    ∧ after (.thermalTrip 0 343 true (115 * 128)) r (fun u => u.power.st == .safe && u.fault.safeSource == 0x5B9 && u.fault.safeCause == 1)
    ∧ idle (.thermalTrip 0 343 false (115 * 128 - 1)) r := by decide +kernel

theorem witness_CollectorParityAndTheStartUpSweep :
    let m := fw (fun f => { f with c1 := { merge := true, open_ := [0x400] } })
    let s := fw (fun f => { f with sweepAt := some 0 })
    (coll 1 r).merge = false
    ∧ after (.collectorParityError 0 1) r (fun u => (u.fault.safeReq.map (fun x => (x.1, x.2.1))) == some (0x544, 3) && (firstRec 1 u).action == 7)
    ∧ oldestOpen 1 m = some 0x400 ∧ timerDue 0x400 (advanceTo 0 m) = false
    ∧ after (.collectorParityError 0 1) m (fun u => (fsrc 0x400 u).timer == some 0 && (firstRec 1 u).merged)
    ∧ after (.sweepDone 0 (some (3, 9))) s (fun u => u.sec.stopped && u.fault.sweepItem == 9 && u.fault.sweepClass == 3)
    ∧ after (.sweepDone 0 none) s (fun u => u.fault.sweepResult == 1 && u.fault.c1.sweepOk)
    ∧ after (.sweepTimeout 100000001) s (fun u => u.sec.stopped && u.sec.code == 7) := by decide +kernel

/-! ### Device memory (R369 to R387, R418, R419) -/

/-- Reset with one DDR channel set. -/
def dch (ch : Nat) (c : DdrChan) : State := { r with ddr := { r.ddr with ch := [(ch, c)] } }
/-- An active channel. -/
def act : DdrChan := { st := .active }
/-- A queued write of line 5 with one byte. -/
def w5 : DdrWrite := { line := 5, bytes := [(3, 7#8)], who := .island 0 }
/-- A queued read of line `n` with order `o`. -/
def rd (n o : Nat) : DdrRead := { line := n, who := .host 1, ord := o }
/-- A host guard over the first MiB. -/
def guarded (s : State) : State := { s with sec := { s.sec with ddrGuards := [⟨0, 2 ^ 20, false, 2⟩] } }

/-- The worked example of spec/15_ddr4_controller.md: the scrub of DDR7 finds symbols 8 to 12 in error at 0x12_3456_7A40. -/
theorem test_scrub_ue_example :
    chanOf 0x1234567A40 = 7 ∧ localOf 0x1234567A40 = 0x1845C8A40 ∧ lineAddr 7 (0x1845C8A40 / 64) = 0x1234567A40
    ∧ after (.ddrScrubRead 0 7 [(8, 1), (9, 1), (10, 1), (11, 1), (12, 1)]) (dch 7 { act with scrubLine := 0x1845C8A40 / 64 })
        (fun u => (fsrc 0x4CC u).latched && (fsrc 0x4CC u).detail == 0x115CC22E && (tget {} 0 (chan 7 u).elog).kind == 3
          && (tget {} 0 (chan 7 u).elog).addr == 0x1234567A40 && (tget {} 0 (chan 7 u).elog).req == 4) := by decide +kernel

theorem witness_DdrRequestsMeetTheGuardsThenTheQueues :
    let full := { act with writes := (List.range 64).map (fun i => { w5 with line := 100 + i }) }
    let busy := { act with reads := (List.range 8).map (rd 0) }
    (0 < Config.deviceBytes ∧ chanOf 0x140 = 0 ∧ localOf 0x140 / 64 = 5)
    ∧ (guardPasses 0 false false (.island 0) (dch 0 act) = true ∧ chanUp 0 (dch 0 act) = true ∧ chanServes act = true)
    ∧ after (.ddrRequestEnter 0 0x140 none (.island 0) false) (dch 0 act) (fun u => (chan 0 u).reads.length == 1)
    ∧ bankReads 0 (bankIx 0) (dch 0 busy) = 8 ∧ idle (.ddrRequestEnter 0 0 none (.island 0) false) (dch 0 busy)
    ∧ after (.ddrRequestEnter 0 0x140 none (.island 0) false) (dch 0 { act with writes := [w5] })
        (fun u => (chan 0 u).forwards == 1 && (chan 0 u).reads.isEmpty)
    ∧ after (.ddrRequestEnter 0 0x140 (some [(0x43, 1#8)]) (.island 0) false) (dch 0 act)
        (fun u => decide ((chan 0 u).writes.map (·.bytes) = [[(3, 1#8)]]))
    ∧ idle (.ddrRequestEnter 0 0 (some []) (.island 0) false) (dch 0 full)
    ∧ after (.ddrRequestEnter 0 0x140 (some [(3, 9#8), (4, 1#8)]) (.island 0) false) (dch 0 { act with writes := [w5] })
        (fun u => decide ((chan 0 u).writes.map (·.bytes) = [[(3, 9#8), (4, 1#8)]]))
    ∧ (chanUp 0 (isoS [0x10]) = false ∧ guardPasses 0 false false (.host 1) (guarded (isoS [0x10])) = true)
    ∧ after (.ddrRequestEnter 0 0 none (.host 1) false) (guarded (isoS [0x10])) (fun u => decide (u.host.resps = [.poisoned 1 64]))
    ∧ idle (.ddrRequestEnter 0 0 (some []) (.host 1) false) (guarded (isoS [0x10]))
    ∧ guardPasses 0 false false (.host 1) r = false ∧ guardPasses 0x2F7F800000 true true (.glove 0) r = false
    ∧ after (.ddrRequestEnter 0 0 none (.host 1) false) r
        (fun u => u.sec.violHost == 1 && decide (u.host.resps = [.unsupported 1]) && (fsrc (srcHost 1 5) u).latched)
    ∧ after (.ddrRequestEnter 0 0 (some []) (.host 1) false) r (fun u => (hport 1 u).aerUr && u.sec.lastWrite)
    ∧ after (.ddrRequestEnter 0 0x2F7F800000 none (.glove 0) true) r (fun u => (fsrc (srcDdr (chanOf 0x2F7F800000) 7) u).latched) := by
  decide +kernel

theorem witness_DdrCommandsRefreshesAndTemperature :
    let c1 := { act with reads := [rd 9 0] }
    chanUp 11 (dch 11 act) = true ∧ (drainMode { act with refDue := true }).refDue = true
    ∧ after (.ddrCommandIssue 0 11 []) (dch 11 { act with refDue := true, postponed := 4 }) (fun u => decide (chan 11 u = act))
    ∧ after (.ddrCommandIssue 0 11 []) (dch 11 { act with zqDue := true }) (fun u => decide (chan 11 u = act))
    ∧ after (.ddrCommandIssue 0 11 []) (dch 11 { act with writes := [{ w5 with merge := true }] })
        (fun u => (chan 11 u).flight.length == 1 && (chan 11 u).writes.length == 1)
    ∧ (firstBank [bankIx 9] DdrRead.line DdrRead.ord (drainMode c1) c1.reads).isSome = true
    ∧ after (.ddrCommandIssue 0 11 [bankIx 9]) (dch 11 c1) (fun u => decide ((chan 11 u).flight = [rd 9 0]) && (chan 11 u).reads.isEmpty)
    ∧ (drainMode { act with writes := [w5] }).drain = true
    ∧ after (.ddrCommandIssue 0 11 [bankIx 5]) (dch 11 { act with writes := [w5], poison := [5] })
        (fun u => (chan 11 u).writes.isEmpty && rd8 u.ddr.mem (lineAddr 11 5 + 3) == 7#8 && (chan 11 u).poison.isEmpty)
    ∧ refreshes 11 (dch 11 act) = true
    ∧ after (.ddrRefreshDue (trefi act) 11) (dch 11 act) (fun u => (chan 11 u).lastRef == trefi act)
    ∧ after (.ddrRefreshDue (4 * trefi act) 11) (dch 11 { c1 with postponed := 3 }) (fun u => (chan 11 u).postponed == 4 && (chan 11 u).postMax == 4)
    ∧ after (.ddrRefreshDue (5 * trefi act) 11) (dch 11 { c1 with postponed := 4 }) (fun u => (chan 11 u).refDue)
    ∧ after (.ddrRefreshWatchdog (9 * trefi act) 11) (dch 11 act) (fun u => (fsrc (srcDdr 11 6) u).latched)
    ∧ after (.ddrRefreshWatchdog (9 * trefi act - 1) 11) (dch 11 act) (fun u => !(fsrc (srcDdr 11 6) u).latched)
    ∧ after (.ddrTempRead 0 11 86) (dch 11 act) (fun u => (chan 11 u).ref2x && !(chan 11 u).tempHigh)
    ∧ after (.ddrTempRead 0 11 96) (dch 11 act) (fun u => (chan 11 u).tempHigh)
    ∧ after (.ddrZqcs 0 11) (dch 11 { act with refDue := true }) (fun u => (chan 11 u).zqDue)
    ∧ idle (.ddrZqcs 0 11) (dch 11 act) := by decide +kernel

theorem witness_DdrReadsAreDecodedCountedAndLogged :
    let f := { act with flight := [rd 9 0] }
    let m := { act with flight := [{ rd 5 0 with merge := true }], writes := [{ w5 with merge := true, waiters := [rd 5 1] }] }
    decodeLine (seenErrs false []) = .clean ∧ decodeLine (seenErrs false [(71, 1)]) = .corrected 1
    ∧ decodeLine (seenErrs false [(0, 1), (1, 1), (2, 1), (3, 1)]) = .uncorrectable ∧ decodeLine (seenErrs true []) = .poisoned
    ∧ after (.ddrReadDecode 0 6 []) (dch 6 f) (fun u => decide (chan 6 u = act))
    ∧ after (.ddrReadDecode 0 6 [(0, 1), (1, 1), (2, 1)]) (dch 6 f) (fun u => (chan 6 u).ce == 1 && (fsrc (srcDdr 6 0) u).latched)
    ∧ after (.ddrReadDecode 0 6 [(0, 1), (1, 1), (2, 1), (3, 1)]) (dch 6 f)
        (fun u => (chan 6 u).ue == 1 && decide (u.host.resps = [.poisoned 1 64]) && (fsrc (srcDdr 6 1) u).latched)
    ∧ after (.ddrReadDecode 0 6 []) (dch 6 { f with flight := [{ rd 9 0 with poison := true }] }) (fun u => (tget {} 0 (chan 6 u).elog).kind == 5)
    ∧ (queuedWrite 6 5 (dch 6 m)).isSome = true
    ∧ after (.ddrReadDecode 0 6 []) (dch 6 m) (fun u => (queuedWrite 6 5 u).any (fun y => !y.merge && y.bytes.length == 64))
    ∧ after (.ddrReadDecode 0 6 []) (dch 6 { m with flight := m.flight.map (fun x => { x with poison := true }) })
        (fun u => (queuedWrite 6 5 u).isNone && (chan 6 u).discarded == 1 && (tget {} 0 (chan 6 u).elog).kind == 4)
    ∧ chanIdle act = true
    ∧ after (.ddrScrubRead 0 6 []) (dch 6 { act with scrubLine := 2 ^ 28 - 1 }) (fun u => (chan 6 u).scrubLine == 0)
    ∧ after (.ddrScrubRead 0 6 [(9, 4)]) (dch 6 act) (fun u => (chan 6 u).ce == 1 && (tget {} 0 (chan 6 u).elog).req == 4)
    ∧ after (.ddrScrubRead 0 6 [(9, 4), (20, 1), (30, 1), (40, 1)]) (dch 6 act)
        (fun u => decide ((chan 6 u).poison = [0]) && (fsrc (srcDdr 6 4) u).latched)
    ∧ after (.ddrScrubRead 0 6 []) (dch 6 { act with poison := [0] }) (fun u => (tget {} 0 (chan 6 u).elog).kind == 5) := by decide +kernel

theorem witness_DdrBusErrorsLowPowerStatesAndTraining :
    let eleven := fun (c : DdrChan) => ({ sw (fun x => { x with stage := 3 }) with
      ddr := { r.ddr with ch := (11, c) :: (List.range 11).map (fun i => (i, act)) } } : State)
    chanRuns 0 (dch 0 act) = true
    ∧ after (.ddrCaParityError 0 0 2) (dch 0 { act with replay := [(1, 1), (2, 1)] })
        (fun u => (chan 0 u).caPar == 1 && tget none (bankIx 2) (chan 0 u).openRow == some 0 && (tget {} 0 (chan 0 u).elog).kind == 6 && (fsrc (srcDdr 0 2) u).latched)
    ∧ after (.ddrWriteCrcError 0 0 5) (dch 0 { act with writes := [{ w5 with retries := 3 }] })
        (fun u => (chan 0 u).wcrc == 1 && (queuedWrite 0 5 u).any (fun y => y.retries == 4))
    ∧ after (.ddrWriteCrcError 0 0 5) (dch 0 { act with writes := [{ w5 with retries := 4 }] })
        (fun u => (queuedWrite 0 5 u).any (fun y => y.stuck) && (fsrc (srcDdr 0 3) u).latched)
    ∧ after (.ddrControllerParity 0 0) (dch 0 act) (fun u => (fsrc (srcDdr 0 7) u).latched)
    ∧ after (.ddrPowerDownEnter 40 0) (dch 0 act) (fun u => (chan 0 u).st == .powerDown)
    ∧ after (.ddrPowerDownEnter 39 0) (dch 0 act) (fun u => (chan 0 u).st == .active)
    ∧ after (.ddrSelfRefreshEnter 1000000 0) (dch 0 { act with srIdle := 1 }) (fun u => (chan 0 u).st == .selfRefresh)
    ∧ chanIdle { act with writes := [w5] } = false
    ∧ idle (.ddrSelfRefreshEnter 0 0) (dch 0 { act with writes := [w5] })
    ∧ booting (sw (fun x => { x with stage := 3 })) = true
    ∧ after (.ddrTrainingDone 0 11 true true 0 0 9) (eleven {}) (fun u => (chan 11 u).st == .active && u.sec.stage == 4 && u.fault.sweepAt == some 0)
    ∧ after (.ddrTrainingDone 0 11 true false 0 0 9) (sw (fun x => { x with stage := 3 })) (fun u => (chan 11 u).trainResult == 2 && u.sec.stage == 3)
    ∧ after (.ddrTrainingDone 0 11 false false 3 4 9) (sw (fun x => { x with stage := 3 }))
        (fun u => (chan 11 u).st == .trainFailed && u.sec.code == 6 && (fsrc (srcDdr 11 5) u).latched) := by decide +kernel


theorem witness_DeviceReserveAdmitsFixedAgentsOnly :
    (Config.traceRing 1 = 0x2F7F800000 ∧ Config.traceRing 0 = 0x2F7FC00000 ∧ Config.patternArea = 0x2F80000000
      ∧ Config.deviceBytes = 0x3000000000)
    ∧ guardPasses 0x2F7F800000 false false (.trace 0) r = true ∧ guardPasses 0x2FFFFFFFFF true false (.island 1) r = true
    ∧ guardPasses 0x2F7F7FFFFF false false (.glove 0) r = true ∧ guardPasses 0x2F7F800000 false true (.glove 0) r = false
    ∧ after (.ddrRequestEnter 0 0x2FFFFFFFFF none (.host 0) false) r
        (fun u => decide (u.host.resps = [.unsupported 0]) && decide (u.ddr = r.ddr)) := by decide +kernel
/-! ### Time (R298 to R319) -/

/-- A seam engine with a pending armed seam, so that a step would block. -/
def blocked (s : State) : State := { s with pat := { s.pat with e0 := { st := 1, stamp := 9 } } }
/-- The agent on at port 0, its link up. -/
def agented (f : TimeState → TimeState) : State :=
  { tw (fun x => f { x with agentOn := true }) with host := { r.host with eth := [(0, { link := true })] } }

theorem witness_RateAndTrimStayWithinTheirLimits :
    (-2147483 ≤ r.time.rate ∧ r.time.rate ≤ 2147483 ∧ -858993 ≤ r.time.trim ∧ r.time.trim ≤ 858993)
    ∧ after (.rateWrite 0 0x7FFFFFFF) r (fun u => u.time.rate == 2147483 && u.time.rateClamp)
    ∧ after (.alignmentExchange 0 true (-900000)) r (fun u => u.time.trim == -858993) := by decide +kernel

theorem witness_RateStepAndAgentAreWrittenBySoftware :
    r.time.agentOn = false
    ∧ after (.rateWrite 0 (2 ^ 32 - 2147483)) r (fun u => u.time.rate == -2147483 && !u.time.rateClamp)
    ∧ after (.timeStepRequest 0) (tw (fun x => { x with stepUsed := true })) (fun u => u.time.stepRej && (fsrc 0x5A3 u).latched)
    ∧ stepBlocked (blocked r) = true ∧ after (.timeStepRequest 0) (blocked r) (fun u => u.time.stepBusy)
    ∧ stepBlocked r = false ∧ after (.timeStepRequest 0) r (fun u => u.time.stepPending)
    ∧ idle (.rateWrite 0 5) (agented id) ∧ idle (.timeStepRequest 0) (agented id)
    ∧ after (.timeAgentWrite 0 true) r (fun u => u.time.agentOn && u.time.agent == .free)
    ∧ after (.timeAgentWrite 0 false) (agented id) (fun u => !u.time.agentOn && u.time.agent == .host)
    ∧ offBlocked (0x000E0214 + 3 * 0x4000) r = false
    ∧ after (.ethTxtsPop 0 3 1) { r with host := { r.host with eth := [(3, { txts := [(1, 2, 3, false), (2, 3, 4, true)] })] } }
        (fun u => (eport 3 u).txts.length == 1)
    ∧ idle (.ethTxtsPop 0 3 2) r
    ∧ after (.rateDriftCheck 0 1 false) r (fun u => (fsrc 0x5A4 u).latched) := by decide +kernel

theorem witness_AlignmentExchangesApplyTheStepAndTheTrim :
    let p := fun (s : State) => ({ s with time := { s.time with stepPending := true, stepDelta := 5, tb0 := 7, tb1 := 7 } } : State)
    (dieUp 0 (p r) = true ∧ dieUp 1 (p r) = true ∧ stepBlocked (p r) = false)
    ∧ after (.alignmentExchange 0 true 3) (p r) (fun u => u.time.stepUsed && u.time.tb0 == 5 * 2 ^ 48 + 7 && u.time.tb1 == 5 * 2 ^ 48 + 7)
    ∧ after (.alignmentExchange 0 false 3) (p r) (fun u => u.time.tb1 == 7 && u.time.stepOwed == some 5 && u.time.skewed)
    ∧ stepBlocked (p (blocked r)) = true ∧ after (.alignmentExchange 0 true 3) (p (blocked r)) (fun u => u.time.stepBusy && !u.time.stepUsed)
    ∧ after (.alignmentExchange 0 false 3) (tw (fun x => { x with failRun := 3, skewValid := true })) (fun u => !u.time.skewValid && (fsrc 0x5A5 u).latched)
    ∧ after (.alignmentExchange 0 false 3) (tw (fun x => { x with failRun := 2, skewValid := true })) (fun u => u.time.skewValid)
    ∧ dieUp 0 (p (isoS [4])) = false
    ∧ after (.alignmentExchange 0 true 3) (p (isoS [4])) (fun u => u.time.tb0 == 7 && u.time.tb1 == 5 * 2 ^ 48 + 7)
    ∧ idle (.alignmentExchange 0 true 3) (isoS [5]) := by decide +kernel

theorem witness_TheTimeAgentMeasuresAndSteers :
    let pair := fun (x : TimeState) => ({ x with syncPend := some (4, 100), agent := .locked, okRun := 7 } : TimeState)
    let pd := fun (x : TimeState) => ({ x with pdelayReq := some (4, 10), pdelayResp := some (4, 20, 50) } : TimeState)
    agentHears 0 (agented id) = true
    ∧ after (.gptpSync 0 0 4 false) (agented id) (fun u => u.time.gptpOneStep == 1)
    ∧ after (.gptpSync 0 0 4 true) (agented id) (fun u => u.time.syncPend == some (4, 0))
    ∧ after (.gptpFollowUp 0 0 4 50) (agented (fun x => { pair x with source := true })) (fun u => u.time.gptpSync == 1 && u.time.syncPend == none)
    ∧ after (.gptpFollowUp 0 0 4 1000101) (agented pair) (fun u => u.time.stepPending && u.time.agentDelta == some 1000001)
    ∧ after (.gptpFollowUp 0 0 4 1100) (agented pair) (fun u => u.time.agent == .locked && u.time.offset == 1000)
    ∧ after (.gptpFollowUp 0 0 4 1101) (agented pair) (fun u => u.time.agent == .acquiring && (fsrc 0x5A4 u).latched)
    ∧ after (.gptpFollowUp 0 0 4 100) (agented (fun x => { pair x with agent := .holdover })) (fun u => u.time.agent == .acquiring)
    ∧ after (.gptpFollowUp 0 0 4 100) (agented (fun x => { pair x with agent := .acquiring })) (fun u => u.time.agent == .locked)
    ∧ after (.gptpPdelayRespRx 0 0 4 false 77) (agented pd) (fun u => u.time.pdelayResp == some (4, 77, 0))
    ∧ after (.gptpPdelayRespRx 0 0 4 true 30) (agented pd) (fun u => u.time.linkDelay == 15 && u.time.pdelayReq == none)
    ∧ (gateCtl 0 (agented id) = {} ∧ bit (eport 0 (agented id)).gates 7 = true)
    ∧ after (.gptpPdelayReqSend 0) (agented id) (fun u => (eport 0 u).sent.length == 1 && u.time.pdelaySeq == 1)
    ∧ after (.gptpPdelayReqRx 0 0 4) (agented id) (fun u => (eport 0 u).sent.length == 2)
    ∧ after (.gptpAnnounceRx 0 0 4 9) (agented id) (fun u => u.time.gm == some (4, 9))
    ∧ after (.gptpAnnounceRx 0 0 4 9) (agented (fun x => { x with gm := some (5, 9) })) (fun u => u.time.gm == some (4, 9))
    ∧ idle (.gptpAnnounceRx 0 0 4 9) (agented (fun x => { x with gm := some (3, 9) }))
    ∧ agentHears 1 (agented id) = false ∧ idle (.gptpSync 0 1 4 true) (agented id) ∧ idle (.gptpSignalingRx 0 0) (agented id)
    ∧ after (.gptpSyncTimeout 3000000000) (agented (fun x => { x with agent := .locked, lastSync := some 0 }))
        (fun u => u.time.agent == .holdover && (fsrc 0x1A4 u).latched) := by decide +kernel

theorem witness_PpsEdgesAndTraceCopies :
    let g := { tw (fun x => { x with trace1 := { busy := true, wr := 1 } }) with host := { r.host with p0 := { link := true } } }
    after (.ppsInEdge 499999999) (tw (fun x => { x with ppsLast := some 0 })) (fun u => (fsrc 0x1A6 u).latched && (fsrc 0x5A6 u).latched)
    ∧ after (.ppsInEdge 500000000) (tw (fun x => { x with ppsLast := some 0 })) (fun u => !(fsrc 0x1A6 u).latched && u.time.ppsIn0 == 500000000)
    ∧ (stamp 1 r % 1000000000 < 10)
    ∧ after (.ppsOutRise 0) r (fun u => u.time.ppsOut) ∧ 10 ≤ stamp 1 (advanceTo 40 r) % 1000000000
    ∧ after (.ppsOutRise 40) r (fun u => !u.time.ppsOut)
    ∧ after (.ppsOutFall 100000000) (tw (fun x => { x with ppsOut := true })) (fun u => !u.time.ppsOut)
    ∧ after (.ppsOutFall 99999999) (tw (fun x => { x with ppsOut := true })) (fun u => u.time.ppsOut)
    ∧ (trace 1 r).busy = false ∧ after (.traceCopyGo 0 1 3) r (fun u => (trace 1 u).busy && (trace 1 u).copyPort == 1)
    ∧ after (.traceCopyGo 0 1 3) g (fun u => u.time.cfgBusy && (fsrc 0x142 u).detail == 0x20150)
    ∧ carried 0 g = true ∧ after (.traceCopyDone 0 1) g (fun u => !(trace 1 u).busy)
    ∧ carried (trace 1 g).copyPort { g with host := r.host } = false ∧ idle (.traceCopyDone 0 0) g := by decide +kernel

/-! ### The fabric (R39 to R59, R393) -/

/-- A stitch of a section: its header and its fields as (length, value) (R85). -/
def mkSt (sec kind id : Nat) (fs : List (Nat × Nat)) : Stitch :=
  let b := fs.flatMap (fun f => leBytes f.1 f.2)
  ⟨sec, kind, id, leBytes 1 kind ++ [0#8] ++ leBytes 2 (8 + b.length) ++ leBytes 4 id ++ b⟩
/-- A TENSOR stitch of `n` INT8 elements (R87). -/
def tenSt (id role n : Nat) : Stitch :=
  mkSt 4 1 id [(1, 2), (1, 1), (1, role), (5, 0), (4, n), (4, 1), (4, 1), (4, 1), (4, 1), (4, 1), (4, 0x3F800000), (4, noneId), (48, 0)]
/-- An OP stitch with one input and one output tensor and eight PARAM bytes of zero (R89). -/
def opSt (id code i o : Nat) : Stitch :=
  mkSt 5 1 id [(2, code), (1, 1), (1, 1), (4, 0), (4, noneId), (4, i), (28, 2 ^ 224 - 1), (4, o), (12, 2 ^ 96 - 1), (2, 8), (10, 0)]
/-- An EDGE stitch of depth 2, one token at a time (R90). -/
def edgeSt (id src dst tensor sk dk dp : Nat) : Stitch :=
  mkSt 6 1 id [(4, src), (4, dst), (4, tensor), (1, sk), (1, 0), (1, dk), (1, dp), (1, 2), (1, 0), (1, 1), (1, 1), (4, 0)]
/-- A STREAM stitch of number 3 with a credit limit of `l` (R190). -/
def streamSt (id l : Nat) : Stitch := mkSt 2 1 id [(1, 3), (1, 0), (2, l), (4, 0), (8, 0)]
/-- A graph of one RESHAPE: stream 7 (number 3) to operator 1 over edge 1, operator 1 to stream 7 over edge 2. -/
def graph : Image := {
  patternId := 5, generation := 2
  secs := [(1, 0, 0, 0, 1), (2, 0, 0, 0, 1), (4, 0, 0, 0, 2), (5, 0, 0, 0, 1), (6, 0, 0, 0, 2)]
  stitches := [mkSt 1 1 1 [(36, 0), (4, 1), (4, 2), (4, 2), (2, 1), (2, 0), (2, 0), (2, 0), (64, 0)],
    streamSt 7 4, tenSt 1 0 4, tenSt 2 0 4, opSt 1 0x0156 1 2, edgeSt 1 7 1 1 1 0 0, edgeSt 2 1 7 2 0 1 4] }
/-- A placement of it: mitten 5 on the first glove of quad 5, both tensors in DDR4 (R94). -/
def place : List Stitch := [mkSt 0x10 2 6 [(4, 1), (1, 0), (1, 0), (2, 0), (1, 5), (1, 0), (1, 1), (1, 1), (12, 0)],
  mkSt 0x10 3 1 [(1, 2), (15, 0), (4, noneId), (4, 0)], mkSt 0x10 3 2 [(1, 2), (15, 0), (4, noneId), (4, 0)]]
/-- The graph loaded with its operator on mitten 5, glove 20, and edges as given. -/
def loaded (m : Mitten) (e1 e2 : Edge) : State :=
  { r with pat := { r.pat with image := some graph }
           fab := { r.fab with mittens := [(5, { m with bound := true, op := 1, gloves := [20] })], edges := [(1, e1), (2, e2)] } }
/-- R395: level 1 slows the mittens of objects with a BUDGET (here stream 7's), and no others. -/
theorem test_level_1_slows_budgeted_objects :
    let s := fun (kind id : Nat) => { loaded {} {} {} with pat := { r.pat with image := some { graph with
      stitches := graph.stitches ++ [mkSt 0x0B 2 1 [(1, kind), (1, 0), (2, 9), (4, id)]] } } }
    after (.crownThrottleUpdate 0 [5] []) (s 1 7) (fun u => (mitten 5 u).halfNext)
    ∧ after (.crownThrottleUpdate 0 [5] []) (s 0 1) (fun u => (mitten 5 u).halfNext)
    ∧ after (.crownThrottleUpdate 0 [] []) (s 0 1) (fun u => !(mitten 5 u).halfNext)
    ∧ after (.crownThrottleUpdate 0 [5] []) (s 2 7) (fun u => !(mitten 5 u).halfNext) := by decide +kernel

/-- A token of ticket 9 of stream 3. -/
def tok : Token := { tags := [⟨3, 9⟩], data := [1#8, 2#8, 3#8, 4#8] }
/-- An edge that holds a token; an edge with its credits. -/
def holds : Edge := { depth := 2, credits := 1, held := [tok] }
def creds : Edge := { depth := 2, credits := 2 }
/-- A firing of mitten 5. -/
def firing5 : Firing := { inputs := [(1, [tok])], outs := [(2, 1)], at_ := 0, tags := [⟨3, 9⟩] }
/-- The header of a packet to a target, with its header check. -/
def hdr (dest : Nat) : List Byte :=
  let b := leBytes 2 dest ++ zeroBytes 12
  b ++ leBytes 2 (crc16 b)
/-- A packet at a router's output that came by an input. -/
def qd (q : Nat) (o : OutPort) (dest input : Nat) : Queued := ⟨.router 0 q, o, 0, ⟨hdr dest, []⟩, input⟩

theorem witness_PacketsFollowTheRouteTablesOneHopAtATime :
    let drain := fun (d : List (Nat × List (Nat × Nat))) (q : List Queued) => ({ r with fab := { r.fab with draining := d, queued := q } } : State)
    let full := drain [] (qd 0 .east 0x80 0 :: List.replicate 8 (qd 1 .east 0x80 8))
    (placeDrains (.router 3 83) r = false ∧ placeClosed (.router 3 83) r = false ∧ pktOk ⟨hdr 0, []⟩ = true)
    ∧ outPortAt (.router 3 83) ⟨hdr 0, []⟩ r = some .west ∧ portRefuses (.router 3 83) .west ⟨hdr 0, []⟩ r = false
    ∧ after (.packetArrive 0 (.router 0 0) none (hdr 0x40) []) r (fun u => decide (u.fab.queued = [qd 0 .east 0x40 0]))
    ∧ pktOk ⟨zeroBytes 16, []⟩ = false
    ∧ after (.packetArrive 0 (.router 3 83) none (zeroBytes 16) []) r (fun u => (fsrc (srcStack 3 7) u).latched)
    ∧ placeClosed (.router 3 83) (isoS [0x24F]) = true ∧ placeDrains (.router 3 83) (drain [(3, [])] []) = true
    ∧ pktWhole ⟨hdr 0x40, []⟩ = true ∧ pktClass ⟨hdr 0x40, []⟩ = 0 ∧ (nextPlace (.router 0 0) .east ⟨hdr 0x40, []⟩).isSome = true
    ∧ nextPlace (.router 0 0) (.wrist 0) ⟨hdr 0, []⟩ = none
    ∧ after (.packetArrive 0 (.router 0 0) none (hdr 0) []) r (fun u => decide (u.fab.delivered = [(.router 0 0, .wrist 0, ⟨hdr 0, []⟩)]))
    ∧ servedNext (.router 0 0) .east (drain [] [qd 0 .east 0x80 0]) = some (qd 0 .east 0x80 0)
    ∧ after (.packetArrive 0 (.router 0 1) (some (.router 0 0, .east)) [] []) (drain [] [qd 0 .east 0x80 0])
        (fun u => decide (u.fab.queued = [qd 1 .east 0x80 8]))
    ∧ servedNext (.router 0 0) .east full = none ∧ idle (.packetArrive 0 (.router 0 1) (some (.router 0 0, .east)) [] []) full
    ∧ (bit 0xC0FF 15 = true ∧ ioDie 0xC0FF = 1 ∧ stopUsed (ioStop 0xC0FF) = false)
    ∧ after (.packetArrive 0 (.brim 1 9) none (hdr 0xC0FF) []) r (fun u => (fsrc 0x543 u).latched && (fsrc 0x543 u).detail == 0x1FF)
    ∧ dieHolds 3 (drain [(3, [(0, 4)])] []) = false
    ∧ after (.routeTableSwap 0 3) (drain [(3, [(3 * 84 * 86, 4)])] [])
        (fun u => tget 0 3 u.fab.rtGen == 1 && tget none (3 * 84 * 86) u.fab.routes == some 4 && u.fab.draining.isEmpty)
    ∧ dieHolds 0 (drain [(0, [])] [qd 0 .east 0x80 0]) = true ∧ idle (.routeTableSwap 0 0) (drain [(0, [])] [qd 0 .east 0x80 0]) := by
  decide +kernel

theorem witness_FiringsTakeAndGiveTokensAndCredits :
    let s := loaded {} holds creds
    let f := loaded { firing := some firing5 } { depth := 2, credits := 1, inUse := 1 } { depth := 2, credits := 1, taken := 1 }
    let tkt := { loaded {} holds { depth := 2, credits := 1, flight := [tok] } with
      host := { r.host with p0 := { link := true } }
      led := { r.led with tickets := [{ stream := 3, seq := 9, descs := [⟨0x100, 4, 4, 1⟩] }] } }
    let withImage := fun (im : Image) (x : State) => ({ x with pat := { x.pat with image := some im } } : State)
    let t3 := { s with pat := { s.pat with fit := [mkSt 0x10 3 1 [(1, 3), (15, 0), (4, noneId), (4, 0)]] }
                       led := { r.led with tickets := [{ stream := 3, seq := 9, phase := .accepted }] } }
    let st4 := withImage { graph with stitches := graph.stitches.map (fun x => if x.sec = 4 ∧ x.id = 2 then tenSt 2 4 4 else x) } f
    let sent := fun (kind port : Nat) =>
      withImage { graph with stitches := graph.stitches.map (fun x => if x.sec = 6 ∧ x.id = 2 then edgeSt 2 1 8 2 0 kind port else x) }
        (loaded {} holds { depth := 2, credits := 1, flight := [tok] })
    let away := { tkt with host := r.host }
    let dev := fun (ps : List Nat) => ({ tkt with fault := (isoS ps).fault
                                                  led := { r.led with tickets := [{ stream := 3, seq := 9, descs := [⟨0x100, 4, 4, 2⟩] }] } } : State)
    (fireFree 5 s = true ∧ fireReady 5 s = true ∧ writerBusy 5 s = false ∧ t3Down 5 s = none)
    ∧ ((inEdges 5 s).map (·.id) = [1] ∧ (outEdges 5 s).map (·.id) = [2])
    ∧ (Balanced (edge 1 s) ∧ Balanced (edge 2 f))
    ∧ after (.firingStart 0 5 false) s (fun u => (mitten 5 u).firing.isSome && (edge 1 u).inUse == 1 && (edge 2 u).taken == 1)
    ∧ fireReady 5 (loaded {} creds creds) = false ∧ idle (.firingStart 0 5 true) (loaded {} creds creds)
    ∧ fireMayEnd 5 f = true
    ∧ after (.firingComplete 0 5) f (fun u => (mitten 5 u).firing.isNone && (mitten 5 u).fires == 1 && (edge 1 u).creditFlight == 1
        && (edge 1 u).inUse == 0 && decide ((edge 2 u).flight.map (·.tags) = [[⟨3, 9⟩]]))
    ∧ fireMayEnd 5 { f with fab := { f.fab with draining := [(0, [])] } } = false
    ∧ after (.tokenArrive 0 1) (loaded {} { depth := 2, credits := 1, flight := [tok] } creds) (fun u => (edge 1 u).held.length == 1)
    ∧ (streamNumber 7 tkt = some 3 ∧ (resultDescs 3 4 tok tkt).length = 1 ∧ carried (strm 3 tkt).port tkt = true)
    ∧ after (.tokenArrive 0 2) tkt (fun u => decide (u.host.mem = [(0x100, 1#8), (0x101, 2#8), (0x102, 3#8), (0x103, 4#8)])
        && decide (u.led.tickets.map (·.outputs) = [[4]]) && (edge 2 u).creditFlight == 1)
    ∧ (t3Down 5 t3 = some 0 ∧ fireFree 5 t3 = true ∧ fireReady 5 t3 = true ∧ writerBusy 5 t3 = false ∧ t3.led.tickets.all ticketOpen = true)
    ∧ after (.firingStart 0 5 false) t3 (fun u => (mitten 5 u).firing.isNone && (fsrc (srcHost 0 2) u).latched && (edge 1 u).creditFlight == 1
        && (edge 2 u).credits == 2 && u.led.tickets.all (fun k => k.status == 2 && k.part == 0x48))
    ∧ ((mitten 5 f).every = [20] ∧ (evalUnit 5 firing5 st4).map (fun v => (v.op.outs, v.res.outs)) = [([2], [tok.data])])
    ∧ after (.firingComplete 0 5) st4 (fun u => decide (stateOf 2 u = tok.data) && (glove 20 u).fires == 1)
    ∧ (gEdgeOf 2 (sent 5 0)).isSome = true ∧ idle (.tokenArrive 0 2) (sent 5 0)
    ∧ streamNumber 8 (sent 1 0) = none ∧ after (.tokenArrive 0 2) (sent 1 0) (fun u => (edge 2 u).creditFlight == 1)
    ∧ carried (strm 3 away).port away = false ∧ idle (.tokenArrive 0 2) away
    ∧ ((resultDescs 3 4 tok (dev [])).map (·.2.space) = [2] ∧ (chansOfRange 0x100 4).all (fun c => chanUp c (dev [])) = true)
    ∧ after (.tokenArrive 0 2) (dev []) (fun u => devRd8 0x103 u == 4#8 && decide (u.led.tickets.map (·.outputs) = [[4]]))
    ∧ (chansOfRange 0x100 4).find? (fun c => !chanUp c (dev [0x10])) = some 0
    ∧ after (.tokenArrive 0 2) (dev [0x10]) (fun u => u.led.tickets.all (fun k => k.status == 2 && k.part == 0x10))
    ∧ after (.tokenArrive 0 2) (sent 4 0) (fun u => u.plan.d0.updates.length == 1 && u.plan.d1.updates.length == 1 && (edge 2 u).inUse == 1)
    ∧ after (.tokenArrive 0 2) (sent 4 1) (fun u => decide (u.plan.reqs.map (·.chan) = [1]) && (edge 2 u).inUse == 1)
    ∧ after (.creditReturn 0 2) (loaded {} holds { depth := 2, credits := 1, creditFlight := 1 }) (fun u => (edge 2 u).credits == 2)
    ∧ idle (.creditReturn 0 2) s := by
  simp only [Balanced]
  decide +kernel

theorem witness_ClocksScrubsPrefetchesAndCountersOfTheFabric :
    let g := loaded { gated := true } holds creds
    let bank := { r with fab := { r.fab with banks := [(191, { pos := 262143, ce := 5, ue := true })], gloves := [(1343, { sat := 3, nan := 4, ce := 5 })] } }
    let sc := { loaded {} holds creds with scene := [(15, { declared := true, prefetch := [⟨1, 7, false⟩] })] }
    let kept := loaded { gated := true, waitConst := true } holds creds
    let same := { r with fab := { r.fab with gloves := [(1343, { sat := 3, nan := 4, evAt := 40, evSat := 2, evNan := 1 })] } }
    (mitten 5 g).gated = true ∧ fireReady 5 g = true ∧ after (.mittenWake 0 5) g (fun u => !(mitten 5 u).gated)
    ∧ fireFree 5 (modMitten 5 (fun x => { x with gated := false }) kept) = false ∧ idle (.mittenWake 0 5) kept
    ∧ (mittenWithGlove 20 (loaded {} holds creds) = some 5 ∧ leadOf 5 (loaded {} holds creds) = 5)
    ∧ mittenWithGlove 21 (loaded {} holds creds) = none ∧ idle (.gloveClockGate 0 21) (loaded {} holds creds)
    ∧ after (.gloveNumClr 40 1343 0x80000000) same (fun u => (glove 1343 u).sat == 2 && (glove 1343 u).nan == 1)
    ∧ after (.gloveNumClr 80 1343 0x80000000) same (fun u => (glove 1343 u).sat == 0 && (glove 1343 u).nan == 0)
    ∧ bit 0x7FFFFFFF 31 = false ∧ idle (.gloveNumClr 0 1343 0x7FFFFFFF) bank
    ∧ idle (.prefetchCopyDone 0 15 1 8 true) sc
    ∧ after (.gloveClockGate 1000000 20) (loaded {} holds creds) (fun u => (mitten 5 u).gated)
    ∧ after (.gloveClockGate 999999 20) (loaded {} holds creds) (fun u => !(mitten 5 u).gated)
    ∧ (stackAvail 3 bank = true ∧ fastDown bank = false)
    ∧ after (.liningScrubRead 0 3 47 1) bank (fun u => (tget {} 191 u.fab.banks).pos == 0 && (tget {} 191 u.fab.banks).ce == 6
        && (fsrc (srcStack 3 2) u).detail == 47)
    ∧ after (.liningScrubRead 0 3 47 2) r (fun u => (tget {} 191 u.fab.banks).ue && (fsrc (srcStack 3 3) u).latched)
    ∧ stackAvail 3 (isoS [3]) = false ∧ idle (.liningScrubRead 0 3 47 1) (isoS [3])
    ∧ offBlocked (0x00460000 + 3 * 0x1000 + 47 * 0x40) bank = false
    ∧ after (.liningCeClr 0 3 47 0x80010000) bank (fun u => (tget {} 191 u.fab.banks).ce == 0 && !(tget {} 191 u.fab.banks).ue)
    ∧ offBlocked (0x00460000 + 3 * 0x1000 + 47 * 0x40) (isoS [3]) = true ∧ idle (.liningCeClr 0 3 47 0x80010000) (isoS [3])
    ∧ offBlocked (0x00400028 + 1343 * 0x100) bank = false ∧ offBlocked (0x00400008 + 1343 * 0x100) (isoS [0x24F]) = true
    ∧ after (.gloveNumClr 0 1343 0x80000000) bank (fun u => (glove 1343 u).sat == 0 && (glove 1343 u).ce == 5)
    ∧ after (.palmCeClr 0 1343 0x80000000) bank (fun u => (glove 1343 u).ce == 0 && (glove 1343 u).sat == 3)
    ∧ idle (.palmCeClr 0 1343 0x80000000) (isoS [0x24F])
    ∧ ((curImage sc).op 1).isSome = true ∧ mittenOf 1 sc = some 5
    ∧ after (.prefetchCopyDone 0 15 1 7 true) sc (fun u => (scene 15 u).pfStall == 0 && (scene 15 u).prefetch.all (·.ready))
    ∧ after (.prefetchCopyDone 0 15 1 7 true) { sc with fab := (loaded { firing := some firing5 } holds creds).fab }
        (fun u => (scene 15 u).pfStall == 1 && (scene 15 u).prefetch.all (·.ready)) := by
  decide +kernel


/-- Mitten 5 of the secure world on glove 20, with counts in the glove's entry. -/
def secGlove : State :=
  { r with fab := { r.fab with
      mittens := [(5, { bound := true, op := 1, gloves := [20], secure := true })], gloves := [(20, { ce := 7, fires := 9, cfgBusy := true })] } }

theorem witness_SecureGloveEntriesShowStateWorldAndMittenOnly :
    (mittenOfGlove 20 secGlove = some 5 ∧ (mitten 5 secGlove).secure = true)
    ∧ (regRead 0 0x00401400 32 secGlove).1 = 0x00050011 ∧ (regRead 1 0x00401408 32 secGlove).1 = 0
    ∧ (regRead 0 0x00401410 64 secGlove).1 = 0 ∧ (regRead 0 0x004014FC 32 secGlove).1 = 0 := by decide +kernel

/-- Reset with bank 0 of stack 1 marked, and a secure guard over banks 0 and 47 of stack 0. -/
def lined : State :=
  { r with fab := { r.fab with banks := [(48, { ce := 5, ue := true, lastPass := 77 })] }
           sec := { r.sec with linGuards := [⟨0, 0, 1⟩, ⟨0, 1535, 1⟩] } }

theorem witness_LiningRecordsOf48BanksAndNoMore :
    (regRead 0 0x00461000 32 lined).1 = 0x10005 ∧ (regRead 0 0x00461008 32 lined).1 = 77 ∧ (regRead 0 0x00461004 32 lined).1 = 0
    ∧ (regRead 0 0x00460C00 32 lined).1 = 0 ∧ (regRead 1 0x00460C08 32 lined).1 = 0
    ∧ (regRead 0 0x00460000 32 lined).1 = 0x20000 ∧ (regRead 0 0x00460BC0 32 lined).1 = 0x20000
    ∧ (regRead 0 0x00460040 32 lined).1 = 0 := by decide +kernel
/-! ### Seams, loads, re-placement (R97 to R117, R342, R357) -/

/-- Reset with seam engine 3 set. -/
def eng (x : SeamEngine) : State := { r with pat := { r.pat with e3 := x } }
/-- A selection of one group. -/
def sel1 (g : Nat) : Tbl (Nat × Bool) := [(0, (g, true))]
/-- Reset with a load job. -/
def job (j : LoadJob) (s : State) : State := { s with pat := { s.pat with job := some j } }
/-- Reset with PATTERN_LOAD registers set. -/
def pat (f : PatternState → PatternState) (s : State) : State := { s with pat := f s.pat }

theorem witness_SeamEnginesAreArmedCancelledAndFed :
    let armed := eng { st := 1, groups := [0x010], left := [0x010] }
    offBlocked (0x00040108 + 3 * 0x100) r = false ∧ engBusy (engine 3 armed) = true
    ∧ after (.seamArm 0 3 1) armed (fun u => (engine 3 u).code == 1 && (engine 3 u).st == 1)
    ∧ after (.seamArm 0 3 1) r (fun u => (engine 3 u).code == 6)
    ∧ groupKnown 0x940 = false ∧ after (.seamArm 0 3 1) (eng { sel := sel1 0x940 }) (fun u => (engine 3 u).code == 5)
    ∧ after (.seamArm 0 3 1) (pat (fun p => { p with e0 := { st := 1, groups := [0x93F] } }) (eng { sel := sel1 0x93F })) (fun u => (engine 3 u).code == 2)
    ∧ after (.seamArm 0 3 1) (eng { sel := sel1 0x060 }) (fun u => (engine 3 u).code == 4)
    ∧ after (.seamArm 0 3 1) (eng { sel := sel1 0x060, stamp := 99999 }) (fun u => (engine 3 u).code == 3)
    ∧ after (.seamArm 0 3 1) (eng { sel := sel1 0x060, stamp := 100000 }) (fun u => (engine 3 u).st == 1 && (engine 3 u).groups == [0x060])
    ∧ after (.seamArm 0 3 1) (eng { sel := sel1 0x93F }) (fun u => (engine 3 u).st == 1)
    ∧ after (.seamCancel 0 3 2) armed (fun u => (engine 3 u).st == 5) ∧ idle (.seamCancel 0 3 2) r
    ∧ after (.seamDiscard 0 3 4) (pat (fun p => { p with shadow := [(0x80, some 9)] }) (eng { sel := sel1 0x010 })) (fun u => u.pat.shadow.isEmpty)
    ∧ idle (.seamDiscard 0 3 4) armed
    ∧ after (.seamArm 0 3 3) r (fun u => (fsrc 0x142 u).detail == 0x40408)
    ∧ (offBlocked 0x0001000C r = false ∧ rwsFields 0x0001000C 77 r = some [(0x80, some 77)])
    ∧ after (.rwsWrite 0 0x0001000C 77) r (fun u => decide (u.pat.shadow = [(0x80, some 77)]))
    ∧ after (.rwsWrite 0 0x0001000C 77) armed (fun u => u.pat.shadow.isEmpty && (engine 3 u).writeArmed && (fsrc 0x142 u).detail == 0x0001000C)
    ∧ offBlocked (0x00031000 + 255 * 0x40) r = false ∧ ringSize (strm 255 r) = 16 ∧ limitSum 255 16 r ≤ 16384
    ∧ after (.rwsWrite 0 0x00034FC0 (16 * 0x10000)) r (fun u => tget none (0x1FF * 8) u.pat.shadow == some 16 && !(strm 255 u).limitRej)
    ∧ after (.rwsWrite 0 0x00034FC0 (17 * 0x10000)) r (fun u => u.pat.shadow.isEmpty && (strm 255 u).limitRej && (fsrc 0x142 u).detail == 0x00034FC0)
    ∧ after (.rwsWrite 0 0x00034FC0 0) r (fun u => u.pat.shadow.isEmpty && (strm 255 u).limitRej)
    ∧ after (.rwsWrite 0 0x00034FC0 (16 * 0x10000)) (eng { st := 1, groups := [0x1FF], left := [0x1FF] }) (fun u => u.pat.shadow.isEmpty) := by
  decide +kernel

theorem witness_BlockSeamsAndGlobalSeamsSwitchTheirGroups :
    let one := pat (fun p => { p with shadow := [(0x02F * 8, some 7)] }) (eng { st := 1, groups := [0x02F], left := [0x02F] })
    let glob := eng { st := 1, groups := [0x405], left := [0x405], stamp := 40 }
    let taking := fun (s : State) => pat (fun p => { p with e3 := { st := 2, groups := [0x405], left := [0x405], stamp := 40, limitUs := 10 } }) s
    let busy := taking (loaded { firing := some firing5 } holds creds)
    (groupWorks 0x02F one = false ∧ groupIsolated 0x02F one = false)
    ∧ after (.blockSeam 0 3 0x02F) one (fun u => (engine 3 u).st == 3 && u.pat.shadow.isEmpty && (lslot 15 u).spStaleUs == 7000)
    ∧ after (.blockSeam 0 3 0x02F) (eng { st := 1, left := [0x02F, 0x010] }) (fun u => (engine 3 u).st == 1 && (engine 3 u).left == [0x010])
    ∧ (engine 3 one).left.contains 0x010 = false ∧ idle (.blockSeam 0 3 0x010) one
    ∧ 40 ≤ stamp (liveDie 0 glob) (advanceTo 40 glob) ∧ after (.globalSeamStamp 40 3) glob (fun u => (engine 3 u).st == 2)
    ∧ after (.globalSeamStamp 39 3) glob (fun u => (engine 3 u).st == 1)
    ∧ (mitten 5 busy).firing.isSome = true
    ∧ after (.seamLimitExpire 10000 3) busy (fun u => (mitten 5 u).firing.isNone && (engine 3 u).withdrawn == 1)
    ∧ after (.seamLimitExpire 9999 3) busy (fun u => (mitten 5 u).firing.isSome)
    ∧ groupWorks 0x405 (taking r) = false ∧ after (.globalSeamSwitch 0 3) (taking r) (fun u => (engine 3 u).st == 3)
    ∧ leadOf 5 busy = 5 ∧ stamp (liveDie 0 (taking r)) (taking r) % 1000 = 0
    ∧ after (.globalSeamSwitch 40 3) (taking r) (fun u => (engine 3 u).st == 2)
    ∧ groupWorks 0x405 busy = true ∧ idle (.globalSeamSwitch 0 3) busy
    ∧ idle (.globalSeamSwitch 0 3) r ∧ idle (.seamLimitExpire 0 3) r := by decide +kernel

theorem witness_LoadsAndPatchesAreJudgedVerifiedAndInstalled :
    let addr := fun (s : State) => pat (fun p => { p with len := 8 }) s
    let owed := { addr (stby r) with led := { r.led with tickets := [{ stream := 3, seq := 9 }] } }
    let f := place.flatMap (·.bytes)
    let patch : Image := { patternId := 5, generation := 3, baseGen := 2, stitches := [streamSt 7 5] }
    let inForce := pat (fun p => { p with image := some graph, gen := 2 }) (stby r)
    goCode 1 r = 1 ∧ after (.loadFullGo 0 1) r (fun u => u.pat.code == 1 && u.pat.job.isNone)
    ∧ goCode 1 (addr (stby r)) = 0
    ∧ after (.loadFullGo 0 1) (addr (stby r)) (fun u => u.pat.st == .verifying && u.led.stopLoad && u.pat.job.isSome)
    ∧ idle (.loadFullGo 0 0) r ∧ idle (.patchGo 0 2) r
    ∧ goCode 1 owed = 0x11 ∧ goCode 3 (addr (stby r)) = 0x13
    ∧ after (.patchGo 0 3) (addr (pat (fun p => { p with loadStamp := 50000000 }) inForce)) (fun u => (u.pat.job.map (·.patch)) == some true)
    ∧ after (.patternStoreRead 0) (job {} (sw (fun x => { x with flashA := { store := [(0, { valid := true, raw := [1#8] })] } })))
        (fun u => decide (u.pat.job.map (·.raw) = some [1#8]))
    ∧ islandRuns 0 r = true
    ∧ after (.loadVerifyDone 0) (job { raw := [1#8] } r) (fun u => u.pat.st == .failed && u.pat.code == 1)
    ∧ checkImage graph r = none
    ∧ after (.loadFitDone 0 0 f 0 f) (job { stage := 1, image := graph } r) (fun u => u.pat.st == .loading && decide (u.pat.job.map (·.fit) = some place))
    ∧ after (.loadFitDone 0 0 f 1 f) (job { stage := 1, image := graph } r) (fun u => u.pat.st == .failed && u.pat.code == 0x18)
    ∧ contentError [] graph r = none
    ∧ after (.loadComplete 0) (job { stage := 2, image := graph, fit := place } r)
        (fun u => u.pat.st == .loaded && u.pat.patternId == 5 && (mitten 5 u).bound && (strm 3 u).limit == 4 && (edge 1 u).credits == 2)
    ∧ patchError { patch := true, stage := 1, image := patch, loadStamp := 1 } inForce = none
    ∧ after (.patchStaged 0) (job { patch := true, stage := 1, image := patch, loadStamp := 1 } inForce)
        (fun u => u.pat.st == .patchArmed && decide (u.pat.job.map (·.groups) = some [0x103]))
    ∧ after (.patchStaged 0) (job { patch := true, stage := 1, image := patch } inForce) (fun u => u.pat.st == .failed && u.pat.code == 0x16)
    ∧ after (.patchSeam 40) (job { patch := true, stage := 3, loadStamp := 40 } r) (fun u => decide (u.pat.job.map (·.stage) = some 4))
    ∧ after (.patchSeam 39) (job { patch := true, stage := 3, loadStamp := 40 } r) (fun u => decide (u.pat.job.map (·.stage) = some 3))
    ∧ after (.constantRefillDone 0 5) (loaded { waitConst := true } holds creds) (fun u => !(mitten 5 u).waitConst)
    ∧ after (.patternAuthExpire 40) (pat (fun p => { p with auth := some (5, 2, 40) }) r) (fun u => u.pat.auth.isNone)
    ∧ after (.patternAuthExpire 39) (pat (fun p => { p with auth := some (5, 2, 40) }) r) (fun u => u.pat.auth.isSome) := by decide +kernel

/-- An EXTERNAL tensor of four bytes at device address 0 with digest `d`. -/
def extSt (id d : Nat) : Stitch :=
  mkSt 4 1 id [(1, 2), (1, 1), (1, 1), (1, 4), (4, 0), (4, 4), (4, 1), (4, 1), (4, 1), (4, 1), (4, 1), (8, 0), (8, 0), (8, 4), (32, d)]

/-- Contents with a false digest: of two tensors with the same bytes and different digests, one is false. -/
theorem witness_contents_that_fail_their_digest :
    (badContents [] { stitches := [extSt 1 0, extSt 2 1] } r).isSome = true := by
  have hw : withContents { stitches := [extSt 1 0, extSt 2 1] } = [gten (extSt 1 0), gten (extSt 2 1)] := by decide +kernel
  have hc : contentsOf [] { stitches := [extSt 1 0, extSt 2 1] } (gten (extSt 1 0)) r
      = contentsOf [] { stitches := [extSt 1 0, extSt 2 1] } (gten (extSt 2 1)) r := by decide +kernel
  have hd : (gten (extSt 1 0)).digest ≠ (gten (extSt 2 1)).digest := by decide +kernel
  cases hb : badContents [] { stitches := [extSt 1 0, extSt 2 1] } r with
  | some x => rfl
  | none =>
    rw [badContents, hw, List.find?_eq_none] at hb
    have h1 := hb (gten (extSt 1 0)) (by simp)
    have h2 := hb (gten (extSt 2 1)) (by simp)
    simp only [bne_iff_ne, ne_eq, Decidable.not_not] at h1 h2
    exact absurd (h1.symm.trans ((congrArg Config.sha3 hc).trans h2)) hd

theorem witness_LossesAreReplacedByAlternatesOrRefits :
    let spare := mkSt 0x10 2 6 [(4, 1), (1, 0), (1, 0), (2, 0), (1, 4), (1, 0), (1, 1), (1, 1), (12, 0)]
    let lost := pat (fun p => { p with image := some graph, fit := place, primary := place, altReady := true, st := .loaded })
      (fw (fun f => { f with isolated := [0x105], replace := [(0x105, noneId, 0)] }))
    let alt := pat (fun p => { p with alts := [⟨1, 5, [spare]⟩] }) lost
    let refit := pat (fun p => { p with refitAt := some 0, st := .refitting }) lost
    let f := (mkSt 0x10 2 6 [(4, 1), (1, 1), (1, 0), (2, 0), (1, 4), (1, 0), (1, 1), (1, 1), (12, 0)] :: place.drop 1).flatMap (·.bytes)
    after (.altComputeDone 0 []) (pat (fun p => { p with st := .loaded, source := 2 }) r) (fun u => u.pat.altReady)
    ∧ idle (.altComputeDone 0 []) r
    ∧ idle (.altComputeDone 0 (mkSt 0x11 2 7 [(4, 0)]).bytes) (pat (fun p => { p with st := .loaded, source := 2 }) r)
    ∧ anyTaking alt = false ∧ (matchingAlt 0x105 alt).isSome = true
    ∧ after (.alternateSwitch 0) alt (fun u => u.pat.altKind == 1 && u.pat.altIndex == 5 && u.pat.switches == 1 && u.fault.replace.isEmpty
        && (mitten 5 u).gloves == [16])
    ∧ anyTaking (pat (fun p => { p with e0 := { st := 2 } }) alt) = true
    ∧ idle (.alternateSwitch 0) (pat (fun p => { p with e0 := { st := 2 } }) alt)
    ∧ matchingAlt 0x105 lost = none ∧ after (.alternateSwitch 0) lost (fun u => u.pat.st == .refitting && u.pat.refitAt == some 0)
    ∧ after (.deviceRefitDone 0 0 f 0 f) refit (fun u => u.pat.altKind == 3 && u.pat.source == 2 && u.pat.st == .loaded && (mitten 5 u).gloves == [352])
    ∧ after (.deviceRefitDone 0 7 [] 7 []) refit (fun u => u.pat.code == 7 && u.pat.refitAt.isNone && u.fault.replace.isEmpty)
    ∧ idle (.deviceRefitDone 0 0 f 0 f) (pat (fun p => { p with e0 := { st := 2 } }) refit)
    ∧ after (.retainExitDone 0) (asleep (pw (fun p => { p with retainExit := true }))) (fun u => !u.power.retainExit && (chan 11 u).st == .active)
    ∧ idle (.retainExitDone 0) r := by decide +kernel

/-! ### The ledger (R193 to R217) -/

/-- A ticket record of stream 3 with an input of 4 bytes and an output of 4 bytes in host memory (R195, R196). -/
def rec (seq flags : Nat) : List Byte :=
  let b := leBytes 8 seq ++ zeroBytes 24 ++ leBytes 1 3 ++ leBytes 1 2 ++ leBytes 2 0 ++ leBytes 2 flags ++ zeroBytes 2
    ++ leBytes 8 0x100 ++ leBytes 4 4 ++ leBytes 1 0 ++ leBytes 1 1 ++ zeroBytes 6
    ++ leBytes 8 0x200 ++ leBytes 4 4 ++ leBytes 1 4 ++ leBytes 1 1 ++ zeroBytes 46
  b ++ leBytes 4 (crc32c b) ++ leBytes 4 seq
/-- Stream 3 of the graph. -/
def strm3 : Strm := { declared := true, allowHost := true, limit := 4, edges := [⟨0, 1, 4⟩, ⟨4, 2, 4⟩] }
/-- A module in STANDBY that serves stream 3 with both HOST links up. -/
def serve3 (x : Strm) (ks : List Ticket) : State :=
  { stby (loaded {} creds creds) with
    host := { r.host with p0 := { link := true }, p1 := { link := true } }
    led := { r.led with strm := [(3, x)], tickets := ks, rcptEnable := true, rcptBase := 0x1000 } }
/-- A landing on stream 3. -/
def land (seq slot : Nat) : Landing := ⟨3, slot, 0, rec seq 0, 7⟩
/-- A ticket of stream 3. -/
def tkt (p : TicketPhase) : Ticket :=
  { stream := 3, seq := 9, phase := p, rcptPending := false, descs := [⟨0x100, 4, 0, 1⟩, ⟨0x200, 4, 4, 1⟩] }

theorem witness_TicketsLandAreJudgedAndReceipted :
    let s := serve3 strm3 []
    let landed := fun (l : Landing) => ({ s with led := { s.led with intake := [l] } } : State)
    portUp 0 r = false ∧ idle (.bar4Write 0 0 0 [] true) r
    ∧ after (.bar4Write 0 0 0 [] false) s (fun u => (fsrc (srcHost 0 4) u).latched)
    ∧ after (.bar4Write 0 0 (3 * 65536 + 128) [1#8] true) { s with led := { s.led with intakeDepth := 0 } } (fun u => u.led.heldWrites.length == 1)
    ∧ after (.bar4Write 0 0 (3 * 65536 + 128) (rec 1 0) true) s (fun u => decide (u.led.intake = [⟨3, 1, 0, rec 1 0, 0⟩]))
    ∧ after (.bar4Write 0 0 (255 * 65536 + 511 * 128) ((rec 1 0).take 120) true) s (fun u => u.led.intake.isEmpty && u.led.slots.length == 1)
    ∧ takeLanding 0 (landed (land 1 1)) (landed (land 1 1)).led.intake = some (land 1 1, []) ∧ heldGroup 0x103 (landed (land 1 1)) = false
    ∧ verdictOf 3 (some 1) (rec 1 0) s = 0
    ∧ after (.ticketVerdict 0 0) (landed (land 1 1)) (fun u => (strm 3 u).nextSeq == 2 && (strm 3 u).outstanding == 1
        && decide (u.led.tickets.map (fun k => (k.seq, k.rcptPending)) = [(1, true)]) && u.led.rcptWr == 0)
    ∧ verdictOf 3 (some 2) (rec 2 0) s = 1
    ∧ after (.ticketVerdict 0 0) (landed (land 2 2)) (fun u => u.led.tickets.isEmpty && (strm 3 u).rejects == 1
        && rdLe u.host.mem 0x1000 8 == 2 && rd8 u.host.mem 0x100C == 0x81#8)
    ∧ heldGroup 0x103 (pat (fun p => { p with e0 := { st := 2, groups := [0x103] } }) (landed (land 1 1))) = true
    ∧ (ticket 3 9 (serve3 strm3 [{ tkt .accepted with rcptPending := true }])).isSome = true
    ∧ after (.journalMirrorAck 0 3 9) (serve3 strm3 [{ tkt .accepted with rcptPending := true }])
        (fun u => u.led.rcptWr == 1 && rd8 u.host.mem 0x100C == 0x80#8 && u.led.tickets.all (fun k => k.inJ0 && k.inJ1 && !k.rcptPending)) := by
  decide +kernel

theorem witness_TicketsRunEndAndAreConsumed :
    let s := serve3 strm3 [tkt .accepted]
    let late := serve3 strm3 [{ tkt .accepted with deadline := some 40, dropLate := true }]
    let queued := serve3 strm3 [{ tkt .accepted with deadline := some 40, dropLate := true, seq := 8 }, { tkt .accepted with deadline := some 40, dropLate := true }]
    let run := serve3 strm3 [{ tkt .running with outputs := [4] }]
    nextToInject 3 s = some (tkt .accepted) ∧ orderAllows strm3 (tkt .accepted) s = true
    ∧ after (.ticketInject 0 3) s (fun u => decide (u.led.tickets.map (·.phase) = [.running]) && decide ((edge 1 u).flight.map (·.tags) = [[⟨3, 9⟩]]))
    ∧ orderAllows strm3 (tkt .accepted) (serve3 strm3 [tkt .accepted, { tkt .running with seq := 8 }]) = false
    ∧ idle (.ticketInject 0 3) (serve3 strm3 [tkt .accepted, { tkt .running with seq := 8 }])
    ∧ after (.ticketDeadlineDrop 80 3 9) late (fun u => u.led.tickets.all (fun k => k.phase == .ended && k.cause == 0x12 && k.lateFlag && k.endStamp == 40))
    ∧ after (.ticketInject 80 3) late (fun u => u.led.tickets.all (fun k => k.phase == .accepted))
    ∧ after (.ticketDeadlineDrop 40 3 9) late (fun u => u.led.tickets.all (fun k => k.phase == .accepted))
    ∧ after (.ticketDeadlineDrop 40 3 9) queued (fun u => decide (u.led.tickets.map (·.phase) = [.accepted, .ended]))
    ∧ idle (.ticketInject 0 3) (serve3 strm3 [{ tkt .accepted with rcptPending := true }])
    ∧ after (.ticketDeadlineDrop 39 3 9) late (fun u => u.led.tickets.all (fun k => k.phase == .accepted))
    ∧ checkPending ⟨3, 9⟩ run = false ∧ after (.ticketEnded 0 3 9) run (fun u => u.led.tickets.all (fun k => k.phase == .ended && k.status == 0))
    ∧ after (.ticketEnded 0 3 9) (serve3 strm3 [{ tkt .running with outputs := [4], suspectBy := some 6 }])
        (fun u => u.led.tickets.all (fun k => k.status == 1 && k.detail == 6))
    ∧ after (.ticketEnded 0 3 9) (serve3 strm3 [{ tkt .running with outputs := [4], failed := some (0x10, 2) }])
        (fun u => u.led.tickets.all (fun k => k.status == 3 && k.cause == 0x10 && k.detail == 2))
    ∧ idle (.ticketEnded 0 3 9) s
    ∧ after (.outcomeDeliver 0 3) (serve3 { strm3 with outBase := 0x4000 } [{ tkt .ended with status := 2 }])
        (fun u => (strm 3 u).prod == 1 && (strm 3 u).watermark == 9 && (strm 3 u).voids == 1 && rdLe u.host.mem 0x4000 8 == 9
          && rd8 u.host.mem 0x401C == 0x82#8 && u.led.tickets.all (fun k => k.phase == .delivered))
    ∧ idle (.outcomeDeliver 0 3) s
    ∧ after (.outcomeIrqTimer 1000 3) { serve3 { strm3 with unsig := 1, coalUs := 1 } [] with
          host := { r.host with p0 := { link := true, msix := [(0, { masked := false })] } } }
        (fun u => (strm 3 u).unsig == 0 && decide (u.host.msgs = [⟨0, 0⟩]))
    ∧ after (.outcomeIrqTimer 999 3) (serve3 { strm3 with unsig := 1, coalUs := 1 } []) (fun u => (strm 3 u).unsig == 1)
    ∧ after (.outcomeConsWrite 0 3 0) (serve3 { strm3 with cons := 65535, prod := 0, outstanding := 1 } [tkt .delivered])
        (fun u => (strm 3 u).cons == 0 && (strm 3 u).outstanding == 0 && u.led.tickets.isEmpty)
    ∧ after (.outcomeConsWrite 0 3 1) (serve3 { strm3 with cons := 65535, prod := 0 } []) (fun u => (strm 3 u).consErr && (fsrc 0x142 u).detail == 0x310E8)
    ∧ dieUp 1 s = true ∧ idle (.ledgerTakeover 0 1) s ∧ dieUp 0 { s with fault := (isoS [4]).fault } = false
    ∧ after (.ledgerTakeover 0 0) { s with fault := (isoS [4]).fault } (fun u => homeOf 3 u == 1 && !u.led.mirrorOk && !anyOpen u)
    ∧ after (.ledgerTakeover 0 0) { serve3 { strm3 with nextSeq := 10, outstanding := 2 } [tkt .accepted, { tkt .accepted with seq := 9, rcptPending := true, inJ0 := true }] with fault := (isoS [4]).fault }
        (fun u => u.led.tickets.length == 1 && (strm 3 u).nextSeq == 9 && (strm 3 u).outstanding == 1 && u.led.rcptWr == 0) := by
  decide +kernel

/-! ### Sensors and fusion (R221 to R256, R309, R348) -/

/-- Reset with one sensor stream. -/
def sensS (n : Nat) (x : SensStream) : State := { r with sense := { r.sense with streams := [(n, x)] } }
/-- A camera of 2 by 1 pixels on CSI7. -/
def cam : SensStream := { declared := true, port := 7, vc := 3, dt := 0x2A, width := 2, height := 1, periodUs := 50 }
/-- A sensor flow of EtherType 0x88B5 on ETH3. -/
def flow : SensStream := { declared := true, eth := true, port := 3, matchVal := 0x88B5, width := 4, periodUs := 50 }
/-- The sensor state with ETH3 up. -/
def eth3 (s : State) : State := { s with host := { s.host with eth := [(3, { link := true })] } }
/-- A frame of an EtherType. -/
def frameOf (ty : Nat) : EthFrame := { dst := 1, src := 2, etherType := ty, payload := [1#8, 2#8, 3#8, 4#8, 5#8] }

theorem witness_SensorPacketsAndFramesBecomeSamples :
    let q : Sample := { seq := 4, count := 1 }
    let inF := { cam with inFrame := true, last := 4, entries := [q] }
    isIso 0x27 (isoS [0x27]) = true ∧ idle (.csiPacketRx 0 7 false (.frameStart 3)) (isoS [0x27])
    ∧ csiStreams 7 (fun x => x.vc == 3) (sensS 47 cam) = [47]
    ∧ after (.csiPacketRx 0 7 true (.frameStart 3)) (sensS 47 cam)
        (fun u => (sens 47 u).inFrame && (sens 47 u).entries.length == 1 && (csi 7 u).eccCorr == 1)
    ∧ (current 47 (sensS 47 inF)).isSome = true
    ∧ after (.csiPacketRx 0 7 false (.frameEnd 3)) (sensS 47 { inF with bad := true }) (fun u => (sens 47 u).err == 1 && (sens 47 u).entries.isEmpty)
    ∧ after (.csiPacketRx 0 7 false (.frameEnd 3)) (sensS 47 inF) (fun u => (sens 47 u).count == 1 && (sens 47 u).entries.all (·.complete))
    ∧ after (.csiPacketRx 0 7 false (.long 3 0x2A [1, 2] true)) (sensS 47 { inF with entries := [{ q with count := 0 }] })
        (fun u => !(sens 47 u).bad && (sens 47 u).entries.all (fun y => y.count == 1))
    ∧ after (.csiPacketRx 0 7 false (.long 3 0x2A [1] true)) (sensS 47 inF) (fun u => (sens 47 u).bad)
    ∧ csiStreams 7 (fun x => x.vc == 0 && x.dt == 0x2B) (sensS 47 cam) = []
    ∧ after (.csiPacketRx 0 7 false (.long 0 0x2B [] true)) (sensS 47 cam) (fun u => (csi 7 u).unmatched == 1)
    ∧ after (.csiPacketRx 0 7 false .badHeader) (sensS 47 inF) (fun u => (fsrc (srcCsi 7 1) u).detail == 7 && (sens 47 u).bad)
    ∧ ethUp 3 (eth3 r) = true ∧ idle (.ethFrameRx 0 3 { frameOf 0x88B5 with fcsOk := false }) (eth3 r)
    ∧ (ethBytes (frameOf 0x88B5)).length ≤ 9216 ∧ flowMatch flow (frameOf 0x88B5) = some ((frameOf 0x88B5).payload, false)
    ∧ after (.ethFrameRx 0 3 (frameOf 0x88B5)) (eth3 (sensS 47 flow))
        (fun u => (sens 47 u).count == 1 && (sens 47 u).err == 1 && (sens 47 u).entries.all (fun y => y.data.length == 4))
    ∧ ownFrame (frameOf 0x88F7) = true ∧ idle (.ethFrameRx 0 3 (frameOf 0x88F7)) (eth3 r)
    ∧ (eport 3 (eth3 r)).rx.enable = false ∧ after (.ethFrameRx 0 3 (frameOf 0x0800)) (eth3 r) (fun u => (eport 3 u).drop == 1)
    ∧ after (.streamStall 150000 47) (sensS 47 cam) (fun u => (sens 47 u).stall && (fsrc 0x52F u).latched && (fsrc 0x52F u).detail == 47)
    ∧ after (.streamStall 149999 47) (sensS 47 cam) (fun u => !(sens 47 u).stall)
    ∧ after (.csiLinkLost 1000000 7) { r with sense := { r.sense with csi := [(7, { link := true })] } } (fun u => !(csi 7 u).link)
    ∧ after (.ethLinkDown 0 3) (eth3 r) (fun u => !(eport 3 u).link && (fsrc (srcEth 3 0) u).latched) ∧ idle (.ethLinkDown 0 3) r
    ∧ after (.ethLinkUp 0 3 false) r (fun u => (eport 3 u).link && !(eport 3 u).fast) ∧ idle (.ethLinkUp 0 3 true) (isoS [0x2B]) := by
  decide +kernel

/-- A UDP datagram to a port, in fragments or whole, over IPv4. -/
def udpOf (frag dport : Nat) : EthFrame :=
  { dst := 1, src := 2, etherType := 0x0800
    payload := [0x45#8, 0#8, 0#8, 32#8, 0#8, 0#8, BitVec.ofNat 8 (frag * 32), 0#8, 64#8, 17#8] ++ zeroBytes 10
      ++ [0#8, 1#8] ++ [BitVec.ofNat 8 (dport / 256), BitVec.ofNat 8 dport] ++ [0#8, 12#8, 0#8, 0#8, 1#8, 2#8, 3#8, 4#8] }

/-- A fragmented datagram of a flow counts as an error (R226). -/
theorem witness_fragments_of_a_flow :
    let f := { flow with match_ := 1, matchVal := 7400 }
    flowMatch f (udpOf 0 7400) = some ([1#8, 2#8, 3#8, 4#8], false) ∧ (flowMatch f (udpOf 1 7400)).map (·.2) = some true
    ∧ after (.ethFrameRx 0 3 (udpOf 1 7400)) (eth3 (sensS 47 f)) (fun u => (sens 47 u).err == 1 && (sens 47 u).entries.isEmpty) := by
  decide +kernel

/-- A group of stream 47 with one member, on IOD1. -/
def grp : FuseGroup := {
  declared := true, id := 20, home := 1, slots := 2, periodUs := 1000, waitUs := 100
  members := [{ index := 31, stream := 47, after := 10 }] }
/-- The slot of it that waits, FSEQ 3. -/
def slot3 : FuseSlot := { fseq := 3, tov := 0, waitUs := 100, members := [{ index := 31, stream := 47, all := false, project := false, before := 0, after := 10, weight := 0, offsetNs := 0 }] }
/-- The graph with edges from the group (3) and to its sub-ports 4 and 5 from a GRID_FUSE operator (4, 5). -/
def fuseGraph : Image := { graph with stitches := graph.stitches ++ [edgeSt 3 20 1 1 3 0 0, edgeSt 4 9 20 1 0 3 4, edgeSt 5 9 20 1 0 3 5,
  mkSt 5 1 9 [(2, 0x0401), (1, 1), (1, 1), (4, 0), (4, noneId), (4, 1), (28, 0), (4, 2), (12, 0), (2, 4), (2, 0), (2, 2), (1, 31), (1, 0), (4, 0)]] }
/-- A state with group 15. -/
def grpS (x : FuseGroup) (es : Tbl Edge) : State :=
  { r with sense := { r.sense with groups := [(15, x)], streams := [(47, cam)] }, pat := { r.pat with image := some fuseGraph }
           fab := { r.fab with edges := es } }

theorem witness_FusionSlotsOpenAreDecidedAndEmitted :
    let two := { slot3 with members := slot3.members ++ [{ slot3.members.headD ⟨0, 0, false, false, 0, 0, 0, 0, .undecided, []⟩ with index := 4 }] }
    let done := { slot3 with emitting := true, frame := [1#8] }
    gridNow 1 1000000 0 (grpS grp []) = some 0
    ∧ idle (.slotOpen 0 15) (grpS { grp with lastT := some 0 } [])
    ∧ after (.slotOpen 0 15) (grpS grp []) (fun u => (group 15 u).open_.length == 1 && (group 15 u).lastT == some 0)
    ∧ fseqUsed { grp with past := [{ slot3 with fseq := 0 }] } 0 = true ∧ fseqUsed grp 0 = false
    ∧ after (.slotOpen 0 15) (grpS { grp with past := [{ slot3 with fseq := 0 }] } [])
        (fun u => (group 15 u).open_.isEmpty && (group 15 u).lastT == some 0)
    ∧ after (.slotOpen 0 15) (grpS { grp with slots := 1, open_ := [slot3] } [])
        (fun u => (group 15 u).forced == 1 && (group 15 u).opening.length == 1 && (group 15 u).open_.all (fun y => y.emitting && y.forced))
    ∧ after (.slotOpen 0 15) (grpS { grp with slots := 1, open_ := [done] } []) (fun u => (group 15 u).skipped == 1)
    ∧ after (.slotWaitLimit 99999 15 3) (grpS { grp with open_ := [slot3] } []) (fun u => (group 15 u).open_.all (fun y => !y.emitting))
    ∧ after (.slotWaitLimit 100000 15 3) (grpS { grp with open_ := [slot3] } [])
        (fun u => (group 15 u).open_.all (fun y => y.emitting && y.members.all (fun m => m.st == .missed)))
    ∧ after (.memberDecide 9999 15 3 31) (grpS { grp with open_ := [slot3] } []) (fun u => (group 15 u).open_.all (fun y => !y.emitting))
    ∧ after (.memberDecide 10000 15 3 31) (grpS { grp with open_ := [two] } [])
        (fun u => (group 15 u).open_.all (fun y => !y.emitting && decide (y.members.map (·.st) = [.missed, .undecided])))
    ∧ after (.memberDecide 10000 15 3 31) (grpS { grp with open_ := [slot3] } []) (fun u => (group 15 u).open_.all (·.emitting))
    ∧ unitsUp 1 r = 4 ∧ after (.projectionDone 0 15 3) (grpS { grp with raw := true, open_ := [done] } []) (fun u => (group 15 u).open_.all (·.projDone))
    ∧ idle (.projectionDone 0 15 3) (grpS { grp with open_ := [done] } [])
    ∧ after (.projectionRecompute 0 7 false) r (fun u => u.sense.unitsOut == [7] && (fsrc 0x54C u).latched)
    ∧ ((edgesFrom 3 20 (grpS grp [])).filter (fun e => e.srcPort != 1)).map (·.id) = [3]
    ∧ idle (.slotEmit 0 15 3) (grpS { grp with open_ := [done] } [])
    ∧ idle (.slotEmit 0 15 3) (grpS { grp with raw := true, open_ := [done] } [(3, creds)])
    ∧ after (.slotEmit 0 15 3) (grpS { grp with open_ := [done] } [(3, creds)])
        (fun u => (group 15 u).open_.isEmpty && (group 15 u).lastFseq == 3 && decide ((edge 3 u).flight.map (·.data) = [[1#8]])) := by decide +kernel

theorem witness_ReportsToTheFusionEngineAndTheMoveOfAGroup :
    let list := fun (q n : Nat) => ({ depth := 2, credits := 1, flight := [{ data := leBytes 8 q ++ leBytes 4 n }] } : Edge)
    let sum := fun (n : Nat) => ({ depth := 2, credits := 1, flight := [{ data := leBytes 4 3 ++ leBytes 4 n }] } : Edge)
    let obj := { grp with object := true, maxTracks := 2, missMax := 3, tableFseq := 5, tracks := [{ id := 7, st := 2, misses := 2 }, { id := 8, st := 1, misses := 1 }] }
    idle (.conflictSummaryRx 0 5) r ∧ idle (.detectionListRx 0 4) r
    ∧ groupOfEdge 5 (grpS grp []) = some (15, 5) ∧ gridMembers 5 (grpS grp []) = [31, 0]
    ∧ after (.conflictSummaryRx 0 5) (grpS grp [(5, sum 0)]) (fun u => (group 15 u).conflicts == 0 && (edge 5 u).creditFlight == 1)
    ∧ after (.conflictSummaryRx 0 5) (grpS grp [(5, sum 2)]) (fun u => (group 15 u).conflicts == 1)
    ∧ groupOfEdge 4 (grpS grp []) = some (15, 4)
    ∧ after (.detectionListRx 0 4) (grpS grp [(4, list 6 0)]) (fun u => (edge 4 u).creditFlight == 1)
    ∧ after (.detectionListRx 0 4) (grpS obj [(4, list 5 0)]) (fun u => (group 15 u).tableFseq == 5 && (edge 4 u).creditFlight == 1)
    ∧ after (.detectionListRx 0 4) (grpS obj [(4, list 6 0)])
        (fun u => (group 15 u).tableFseq == 6 && decide ((group 15 u).tracks.map (fun k => (k.id, k.misses)) = [(0, 0), (8, 2)]))
    ∧ dieUp 1 { grpS obj [] with fault := (isoS [5]).fault } = false
    ∧ after (.fusionGroupMove 0 15) { grpS obj [] with fault := (isoS [5]).fault }
        (fun u => (group 15 u).home == 0 && (group 15 u).tableLost && (group 15 u).tracks.isEmpty && (group 15 u).members.all (·.portLost))
    ∧ idle (.fusionGroupMove 0 15) (grpS obj []) := by decide +kernel

/-! ### The planner (R262 to R276, R367) -/

/-- A pattern with a planner result edge of channel 1 and one footprint. -/
def planGraph : Image := { graph with stitches := graph.stitches ++ [
  mkSt 6 1 6 [(4, 1), (4, 7), (4, 1), (1, 4), (1, 5), (1, 1), (1, 5), (1, 2), (1, 0), (1, 1), (1, 1), (4, 0)],
  mkSt 8 2 1 [(1, 16), (1, 1), (70, 0)]] }
/-- A state with a planner. -/
def planS (p : PlanState) (es : Tbl Edge) : State :=
  { r with plan := { p with enabled := true, budgetUs := 100 }, pat := { r.pat with image := some planGraph }, fab := { r.fab with edges := es } }
/-- A request of one LIST candidate with one pose at the origin, `n` results at most (R266). -/
def planB (n : Nat) : List Byte :=
  zeroBytes 26 ++ leBytes 1 n ++ zeroBytes 1 ++ leBytes 4 1 ++ zeroBytes 8 ++ leBytes 4 100000 ++ zeroBytes 84
    ++ leBytes 4 0x3F800000 ++ leBytes 4 1 ++ zeroBytes 16
/-- A request on channel 1. -/
def preq : PlanReq := { chan := 1, edge := 9, bytes := planB 1, arrival := 0, deadline := 100000 }

theorem witness_MapUpdatesAreBuiltAndCommittedAsEpochs :
    let upd := fun (bs : List Byte) => ({ d1 := { updates := [(9, bs, [⟨3, 9⟩])] } } : PlanState)
    let s := { planS (upd []) [] with led := { r.led with tickets := [{ stream := 3, seq := 9 }] } }
    let b := fun (p : PlanDie) => ({ d1 := { p with built := some { t0 := 8 } } } : PlanState)
    idle (.mapUpdateBuilt 0 1 none) { planS (upd (zeroBytes 32)) [] with fault := (isoS [5]).fault }
    ∧ (buildMap {} (zeroBytes 32)).isSome = true
    ∧ after (.mapUpdateBuilt 0 1 (some 7)) (planS (upd (zeroBytes 32)) []) (fun u => u.plan.d1.built.isSome && u.plan.d1.used == 7 && u.plan.d1.updates.isEmpty)
    ∧ buildMap {} [2#8] = none
    ∧ after (.mapUpdateBuilt 0 1 (some 7)) (planS (upd [2#8]) []) (fun u => u.plan.d1.refused == 1 && (fsrc 0x540 u).latched)
    ∧ after (.mapUpdateBuilt 0 1 none) { s with plan := { s.plan with d1 := (upd (zeroBytes 32)).d1 } }
        (fun u => u.plan.d1.overflow == 1 && u.led.tickets.all (·.degraded))
    ∧ idle (.mapCommit 0 1) { planS (b {}) [] with fault := (isoS [5]).fault }
    ∧ idle (.mapCommit 0 1) (planS (b { old := some {}, held := true }) [])
    ∧ after (.mapCommit 0 1) (planS (b { old := some {} }) []) (fun u => u.plan.d1.held && u.plan.d1.deferred == 1)
    ∧ after (.mapCommit 0 1) (planS (b { cur := { epoch := 65535 } }) []) (fun u => u.plan.d1.cur.epoch == 0 && u.plan.d1.cur.t0 == 8 && u.plan.d1.commits == 1)
    ∧ idle (.mapCommit 0 1) r := by decide +kernel

theorem witness_PlanRequestsStartAreSearchedAndAnswered :
    let q := fun (x : PlanReq) => ({ reqs := [x] } : PlanState)
    let go := { preq with cfg := some {}, slices := [0] }
    let heap := { preq with cfg := some { search := 2 }, slices := [0] }
    let fixed := { preq with cfg := some {}, result := some { status := 2 } }
    nextReq r = none ∧ idle (.planRequestStart 0) r
    ∧ (nextReq (planS (q preq) [])).map (·.1) = some 0 ∧ heldGroup 0x050 (planS (q preq) []) = false
    ∧ idle (.planRequestStart 0) { r with plan := q preq }
    ∧ rqReason (planB 0) {} (planS (q preq) []) = 2
    ∧ after (.planRequestStart 0) (planS (q { preq with bytes := planB 0 }) [])
        (fun u => u.plan.reqs.all (fun x => x.result.any (fun y => y.status == 3 && y.reason == 2)))
    ∧ rqReason (planB 1) {} (planS (q preq) []) = 0 ∧ rqSearch (planB 1) {} = 1
    ∧ after (.planRequestStart 0) (planS (q preq) []) (fun u => u.plan.reqs.all (fun x => x.slices.length == 16 && x.deadline == 100000))
    ∧ (running 0 (planS (q go) [])).isSome = true ∧ pastDeadline go (advanceTo 99999 (planS (q go) [])) = false
    ∧ after (.planSearchEnd 0 0) (planS (q go) []) (fun u => u.plan.reqs.all (fun x => x.result.any (fun y => y.checked == 1)))
    ∧ rqSearch preq.bytes { search := 2 } = 2
    ∧ pastDeadline go (advanceTo 100000 (planS (q go) [])) = true
    ∧ after (.planDeadline 100000 0 [] 0) (planS (q go) []) (fun u => u.plan.reqs.all (fun x => x.result.any (fun y => y.status == 2)))
    ∧ after (.planDeadline 99999 0 [] 0) (planS (q heap) []) (fun u => u.plan.reqs.all (fun x => x.result.isNone))
    ∧ idle (.planSearchEnd 0 0) (planS (q fixed) [])
    ∧ (chanHead 1 (planS (q go) [])).map (·.1) = some 0 ∧ (resultEdges 1 (planS (q go) [])).map (·.id) = [6]
    ∧ idle (.planResultSend 0 1) (planS (q go) [(6, creds)]) ∧ idle (.planResultSend 0 1) (planS (q fixed) [])
    ∧ after (.planResultSend 0 1) (planS (q fixed) [(6, creds)])
        (fun u => u.plan.reqs.isEmpty && u.plan.d0.done == 1 && u.plan.d0.timeout == 1 && (edge 6 u).flight.length == 1)
    ∧ sliceUp 15 r = true ∧ after (.plannerTestInjection 0 15 false) r (fun u => (fsrc (srcSlice 1 7 0) u).latched)
    ∧ sliceUp 15 (isoS [0x3F]) = false ∧ idle (.plannerTestInjection 0 15 false) (isoS [0x3F]) := by decide +kernel

/-! ### Control loops (R282 to R297) -/

/-- One slot on engine 1, running, with one output and one EDGE channel. -/
def lp : LoopSlot := {
  declared := true, id := 30, periodUs := 50, m := 1, p := 1, n := 0, law := 1, port := 3, fbLossN := 2
  chans := [{ edgeSrc := true, scale := 0x3F800000, maxAgeUs := 50, at_ := some 0 }]
  outs := [{ umax := 0x40000000, urate := 0x4B000000, safeValue := 0x3F000000, man := 0x3F800000 }] }
/-- The graph with edges to the slot: set-points (sub-port 0) and feedback (sub-port 8). -/
def loopGraph : Image := { graph with stitches := graph.stitches ++ [edgeSt 3 1 30 2 0 5 0, edgeSt 4 1 30 2 0 5 8] }
/-- STANDBY with slot 15. -/
def lpS (x : LoopSlot) (es : Tbl Edge) : State :=
  { stby r with loop := { r.loop with slots := [(15, x)] }, pat := { r.pat with image := some loopGraph }, fab := { r.fab with edges := es } }
/-- A token of one FP32 value in flight. -/
def val : Edge := { depth := 2, credits := 1, flight := [{ data := leBytes 4 0x40400000 }] }

/-- A step corrects what runs on stamps (R306), and counts the slot times passed (R307). -/
theorem witness_StepsOfTheBlocks :
    let due := fun (s : State) => ({ s with time := { s.time with stepPending := true, stepDelta := 3500000 } } : State)
    let done := fun (s : State) => after (.alignmentExchange 0 true 0) (due s)
    dieUp 0 (due (lpS { lp with lastTrig := some 0 } [])) = true ∧ stepBlocked (due (lpS lp [])) = false
    ∧ done (lpS { lp with lastTrig := some 0 } []) (fun u => (lslot 15 u).stepSum == 3500000 && (lslot 15 u).lastTrig.isNone)
    ∧ done (grpS { grp with open_ := [slot3], lastT := some 0 } [])
        (fun u => (group 15 u).skipped == 3 && (group 15 u).lastT.isNone && (group 15 u).open_.all (fun f => f.stepSum == 3500000))
    ∧ ageUs { slot3 with tov := 5001, stepSum := 0 } { meas := 1000, stepSum := 3000 } = 2 := by decide +kernel


theorem witness_LoopSlotsAreTriggeredFedAndWatched :
    loopsRun r = false ∧ idle (.loopTimerTrigger 0 15) { r with loop := (lpS lp []).loop }
    ∧ (engineUp 15 (lpS lp []) = true ∧ loopsRun (lpS lp []) = true)
    ∧ gridNow 1 50000 0 (advanceTo 49960 (lpS lp [])) = none
    ∧ after (.loopTimerTrigger 49960 15) (lpS lp []) (fun u => (lslot 15 u).waiting.isNone)
    ∧ gridNow 1 50000 0 (advanceTo 50000 (lpS lp [])) = some 50000
    ∧ after (.loopTimerTrigger 50000 15) (lpS lp []) (fun u => (lslot 15 u).waiting == some 50000 && (lslot 15 u).trigAt == 50000)
    ∧ idle (.loopTimerTrigger 0 15) (lpS { lp with lastTrig := some 0 } [])
    ∧ after (.loopTimerTrigger 0 15) (lpS { lp with st := .safeOut } [])
        (fun u => (lslot 15 u).lastTrig == some 0 && (lslot 15 u).waiting.isNone && (lslot 15 u).outs.all (fun o => o.u == 0x3F000000))
    ∧ after (.loopTimerTrigger 0 15) (lpS { lp with st := .safeOut, req := 1 } []) (fun u => (lslot 15 u).waiting == some 0)
    ∧ after (.loopTriggerWatchdog 100000 15) (lpS { lp with st := .auto } []) (fun u => (lslot 15 u).st == .safeOut && (fsrc (srcLoop 15 3) u).latched)
    ∧ after (.loopTriggerWatchdog 99999 15) (lpS { lp with st := .auto } []) (fun u => (lslot 15 u).st == .auto)
    ∧ after (.setpointStale 1000 15) (lpS { lp with spStaleUs := 1 } []) (fun u => (lslot 15 u).spStale && (fsrc (srcLoop 15 2) u).latched)
    ∧ idle (.setpointStale 0 15) (lpS { lp with spStaleUs := 1 } [])
    ∧ after (.islandLoopRecompute 0 15 false) (lpS lp []) (fun u => (fsrc (srcLoop 15 0) u).latched)
    ∧ loopOfEdge 3 (lpS lp []) = some (15, 0) ∧ loopOfEdge 4 (lpS lp []) = some (15, 8)
    ∧ after (.setpointToken 0 3) (lpS { lp with spStale := true } [(3, val)])
        (fun u => !(lslot 15 u).spStale && decide ((lslot 15 u).seq = some (0, [[0x40400000]])) && (edge 3 u).creditFlight == 1)
    ∧ idle (.setpointToken 0 4) (lpS lp [(4, val)]) ∧ idle (.feedbackToken 0 3) (lpS lp [(3, val)])
    ∧ after (.feedbackToken 0 4) (lpS lp [(4, val)]) (fun u => (lslot 15 u).chans.all (fun c => c.value == 0x40400000) && (edge 4 u).creditFlight == 1) := by
  decide +kernel

theorem witness_LoopRequestsWaitAndEvaluationsApplyThem :
    let w := { lp with waiting := some 0 }
    let gates := fun (l : List GateEntry) => ({ r with loop := { r.loop with gates := [(3, { oper := l })] } } : State)
    idle (.loopReqManual 0 15) (lpS { lp with secure := true } [])
    ∧ offBlocked (0x001C1004 + 15 * 0x200) (lpS lp []) = false
    ∧ after (.loopReqManual 0 15) (lpS lp []) (fun u => (lslot 15 u).req == 1)
    ∧ after (.loopReqManual 0 15) (lpS { lp with st := .manual } []) (fun u => (lslot 15 u).refused)
    ∧ after (.loopReqAuto 0 15) (lpS { lp with st := .manual, outer := 0xFF } []) (fun u => (lslot 15 u).req == 2)
    ∧ after (.loopReqAuto 0 15) (lpS lp []) (fun u => (lslot 15 u).refused)
    ∧ after (.loopReqStop 0 15) (lpS { lp with st := .auto } []) (fun u => (lslot 15 u).req == 3)
    ∧ after (.loopReqStop 0 15) (lpS { lp with st := .safeOut } []) (fun u => (lslot 15 u).refused)
    ∧ after (.loopManWrite 0 15 0 0xFFFFFFFF) (lpS lp []) (fun u => (lslot 15 u).outs.all (fun o => o.man == 0xFFFFFFFF))
    ∧ idle (.loopEval 0 15) (lpS lp [])
    ∧ idle (.loopEval 0 15) { lpS w [] with fault := (isoS [0x41]).fault }
    ∧ (aheadOf 15 0 (lpS w []) < 4 ∧ outerDone 15 0 (lpS w []) = true ∧ heldGroup (0x020 + 15) (lpS w []) = false)
    ∧ after (.loopEval 0 15) (lpS w []) (fun u => (lslot 15 u).waiting.isNone)
    ∧ w.chans.all (fun c => !chanStale 0 0 c) = true
    ∧ after (.loopEval 0 15) (lpS { w with req := 1 } []) (fun u => (lslot 15 u).st == .manual && (lslot 15 u).req == 0)
    ∧ innersOf 15 (lpS w []) = [] ∧ after (.loopEval 0 15) (lpS { w with st := .auto, req := 3 } []) (fun u => (lslot 15 u).st == .stopped)
    ∧ after (.loopEval 0 15) (lpS { w with st := .manual } []) (fun u => (lslot 15 u).outs.all (fun o => o.u == 0x3F800000) && (lslot 15 u).waiting.isNone)
    ∧ chanStale 50001 0 (lp.chans.headD {}) = true ∧ chanStale 50000 0 (lp.chans.headD {}) = false
    ∧ after (.loopEval 0 15) (lpS { w with st := .auto, waiting := some 50001, fbRun := 1 } []) (fun u => (lslot 15 u).st == .safeOut && (fsrc (srcLoop 15 1) u).latched)
    ∧ after (.loopEval 0 15) (lpS { w with st := .safeOut } []) (fun u => (lslot 15 u).outs.all (fun o => o.u == 0x3F000000))
    ∧ idle (.qbvGateEvent 0 3 0) r
    ∧ after (.qbvGateEvent 0 3 1) (gates [{}, { gates := 0x81, ns := 8 }]) (fun u => (eport 3 u).gates == 0x81 && (gateCtl 3 u).idx == 1)
    ∧ gateListOk 999 [(1, 8)] = false ∧ idle (.adminBaseTime 0 3 5 999 [(1, 8)]) r
    ∧ gateListOk 1000 [(1, 8)] = true ∧ after (.adminBaseTime 0 3 5 1000 [(1, 8)]) r (fun u => (eport 3 u).gates == 1 && (gateCtl 3 u).operBase == 5) := by
  decide +kernel

/-! ### The safety islands (R320 to R345) -/

/-- Reset with island 1 changed. -/
def iw (f : Island → Island) : State := modIsland 1 f r

theorem witness_IslandCoresAreVotedTestedAndSilenced :
    let silent := iw (fun x => { x with vote := .silent })
    let gone := modIsland 0 (fun x => { x with vote := .silent }) r
    let split := iw (fun x => { x with vote := .split })
    let pair := iw (fun x => { x with vote := .pair })
    let test := iw (fun x => { x with testing := true })
    let both := iw (fun x => { x with vote := .pair, testing := true })
    let quiet := fun (u : State) => (island 1 u).vote == .silent && (coll 1 u).pinLow && (fsrc 0x5AB u).latched && (island 0 u).vote == .triple
    idle (.islandHeartbeatCheck 0 1) silent ∧ idle (.islandHeartbeatCheck 0 1) (pw (fun p => { p with on := false }))
    ∧ after (.islandHeartbeatCheck 40 1) (iw (fun x => { x with peerLost := true })) (fun u => !(island 1 u).peerLost && (island 1 u).peerBeat == 40)
    ∧ after (.islandHeartbeatCheck 300000 1) gone (fun u => (island 1 u).peerLost && (fsrc 0x5A8 u).latched)
    ∧ after (.islandHeartbeatCheck 299999 1) gone (fun u => !(island 1 u).peerLost)
    ∧ after (.voterMismatch 0 1 (some 2)) r (fun u => (island 1 u).due == some (2, 0) && (fsrc 0x5A9 u).latched)
    ∧ after (.voterMismatch 0 1 none) r quiet ∧ after (.voterMismatch 0 1 (some 0)) test quiet ∧ after (.voterMismatch 0 1 (some 1)) pair quiet
    ∧ idle (.voterMismatch 0 1 none) silent ∧ idle (.voterMismatch 0 1 (some 0)) split
    ∧ after (.coreTestStart 0 1) r (fun u => (island 1 u).testing) ∧ idle (.coreTestStart 0 1) split ∧ idle (.coreTestDone 0 1 (some 0)) r
    ∧ after (.coreTestDone 0 1 none) test (fun u => !(island 1 u).testing && (island 1 u).tests == 1 && (island 1 u).transient == 0)
    ∧ after (.coreTestDone 0 1 none) (iw (fun x => { x with testing := true, due := some (2, 0) })) (fun u => (island 1 u).transient == 1)
    ∧ after (.coreTestDone 0 1 (some 0)) test (fun u => (island 1 u).vote == .pair && (island 1 u).retired == 3 && (fsrc 0x5AA u).detail == 0)
    ∧ after (.coreTestDone 0 1 (some 2)) test (fun u => (island 1 u).retired == 2 && (fsrc 0x5AA u).detail == 2)
    ∧ after (.coreTestDone 0 1 none) both (fun u => (island 1 u).vote == .pair && (island 1 u).tests == 1)
    ∧ after (.coreTestDone 0 1 (some 1)) both (fun u => quiet u && (island 1 u).tests == 1)
    ∧ after (.islandMonitorTrip 0 1) r quiet ∧ idle (.islandMonitorTrip 0 1) silent
    ∧ islandVoted 1 r = true ∧ after (.voterInjection 0 1 false) r quiet
    ∧ after (.checkerInjection 0 1 5 false) r (fun u => quiet u && (fsrc 0x5AD u).detail == 5)
    ∧ idle (.voterInjection 0 1 true) r ∧ idle (.checkerInjection 0 1 5 true) r := by decide +kernel

/-- The graph with an edge (3) to the tap of check 11 and one (4) to the tap of the MRT stitch 12. -/
def chkGraph : Image := { graph with stitches := graph.stitches ++ [edgeSt 3 1 11 1 0 6 0, edgeSt 4 1 12 1 0 6 0, mkSt 0x0A 3 12 [(8, 0)]] }
/-- A RANGE check of 0 to 8 with HOLD. -/
def chk : Check := {
  declared := true, id := 11, kind := 1, hold := true, owner := 0, k := 1, n := 2, op := 1, tensor := 1
  verdictUs := 1000, p := [0, 0x41000000] }
/-- A full frame of it: the elements 1 to 4, ticket 9 of stream 3. -/
def frm : ChkFrame := { toks := [(0, [1#8, 2#8, 3#8, 4#8])], tags := [⟨3, 9⟩], quad := 5, number := 7, verdictUs := 1000, p := [0, 0x41000000] }
/-- A state with check 63, an open ticket and edges. -/
def chkS (x : Check) (es : Tbl Edge) : State :=
  { r with isl := { r.isl with checks := [(63, x)] }
           pat := { r.pat with image := some chkGraph }
           fab := { r.fab with mittens := [(5, { bound := true, op := 1, gloves := [20] })], edges := es }
           led := { r.led with tickets := [{ stream := 3, seq := 9 }] } }
/-- An element recomputed on quad 84; `v` is what a fault put in its place. -/
def again (i : Nat) (v : Option Nat) : SpotItem := { index := i, again := v, quad := 5, rquad := 84 }
/-- An MRT token of `n` poses, all zero. -/
def mrtTok (n : Nat) : Edge := { depth := 2, credits := 1, flight := [{ data := zeroBytes 8 ++ leBytes 1 n ++ zeroBytes 71 }] }

theorem witness_ChecksJudgeFramesAndTheMrtIsKept :
    let rx : Edge := { depth := 2, credits := 1, flight := [tok] }
    let taken : Edge := { depth := 2, credits := 1, inUse := 1 }
    let full := fun (f : ChkFrame) => chkS { chk with frames := [f] } [(3, taken)]
    let spot := fun (f : ChkFrame) => chkS { chk with kind := 5, tensor := 2, frames := [{ f with toks := f.toks ++ [(2, tok.data)] }] } []
    let dead := modIsland 0 (fun x => { x with vote := .silent }) (iw (fun x => { x with vote := .silent }))
    let bad := { frm with p := [0x40000000, 0x41000000] }
    let aged := fun (s : State) => modIsland 0 (fun x => { x with mrt := some (zeroBytes 80) }) { s with isl := { s.isl with mrtMaxAgeUs := some 0 } }
    let due := fun (d : Option Nat) => ({ r with
      led := { r.led with tickets := [{ stream := 3, seq := 9, deadline := d }] }
      isl := { r.isl with watch := [(3, { declared := true, k := 1, n := 4 })] } } : State)
    (checkOf 11 (chkS chk [(3, rx)]) = some 63 ∧ (arriving 3 (chkS chk [(3, rx)])).isSome = true)
    ∧ idle (.checkTokenRx 0 3) { chkS chk [(3, rx)] with isl := { dead.isl with checks := [(63, chk)] } }
    ∧ after (.checkTokenRx 0 3) (chkS chk [(3, rx)]) (fun u => (edge 3 u).inUse == 1 && (check 63 u).nextFrame == 1
        && decide ((check 63 u).frames.map (fun f => (f.toks, f.number, f.p)) = [(frm.toks, 0, frm.p)]))
    ∧ after (.checkTokenRx 0 3) (chkS { chk with nextFrame := 8, frames := [{ number := 7, toks := [(1, [0#8])] }] } [(3, rx)])
        (fun u => (check 63 u).nextFrame == 8 && (check 63 u).frames.all (fun f => f.toks.length == 2 && f.number == 7))
    ∧ (fullFrame 63 (spot frm)).isSome = true ∧ spotStack 63 (spot frm) = some 1 ∧ sortNat (sampled 0 63 frm 4) = [0, 1, 2, 3]
    ∧ idle (.spotRecomputeDone 0 63 [again 0 none]) (spot frm) ∧ idle (.spotRecomputeDone 0 63 []) (full frm)
    ∧ after (.spotRecomputeDone 0 63 [again 0 none, again 1 none, again 2 none, again 3 none]) (spot frm)
        (fun u => (check 63 u).rot == 1 && (check 63 u).frames.all (fun f => f.spot == some []))
    ∧ after (.spotRecomputeDone 0 63 [again 3 (some 5), again 1 none, again 2 none, again 0 none]) (spot frm)
        (fun u => (check 63 u).frames.all (fun f => f.spot == some [(5, 84)]))
    ∧ idle (.checkVerdict 0 63) (chkS chk []) ∧ idle (.checkVerdictTimeout 0 63) (chkS chk [])
    ∧ frameVerdict 0 63 frm (spot frm) = none ∧ idle (.checkVerdict 0 63) (spot frm)
    ∧ frameVerdict 0 63 frm (full frm) = some .pass
    ∧ after (.checkVerdict 0 63) (full frm) (fun u => (check 63 u).frames.isEmpty && (check 63 u).judged == 1 && (check 63 u).failed == 0
        && (edge 3 u).creditFlight == 1 && (edge 3 u).inUse == 0 && u.led.tickets.all (fun k => k.suspectBy.isNone))
    ∧ frameVerdict 0 63 bad (full bad) = some (.fail [])
    ∧ after (.checkVerdict 0 63) (full bad) (fun u => (check 63 u).failed == 1 && (check 63 u).raised && (fsrc 0x1FF u).latched
        && (fsrc 0x1FF u).detail == 1 && u.led.tickets.all (fun k => k.suspectBy == some 11))
    ∧ frameVerdict 0 63 { frm with spot := some [(5, 84)] } (spot { frm with spot := some [(5, 84)] }) = some (.fail [(5, 84)])
    ∧ after (.checkVerdict 0 63) { full frm with fault := (isoS [0x105]).fault } (fun u => (check 63 u).frames.isEmpty && (check 63 u).judged == 0
        && (check 63 u).unchecked == 1 && u.led.tickets.all (fun k => k.suspectBy == some 11))
    ∧ after (.checkVerdictTimeout 1000000 63) (full frm) (fun u => (check 63 u).frames.length == 1)
    ∧ after (.checkVerdictTimeout 1000001 63) (full frm) (fun u => (check 63 u).frames.isEmpty && (check 63 u).unchecked == 1)
    ∧ isMrtEdge 4 (chkS chk [(4, mrtTok 1)]) = true ∧ isMrtEdge 3 (chkS chk [(3, rx)]) = false ∧ idle (.mrtToken 0 3) (chkS chk [(3, rx)])
    ∧ mrtOk (zeroBytes 8 ++ leBytes 1 1 ++ zeroBytes 71) = true ∧ mrtOk (zeroBytes 80) = false
    ∧ after (.mrtToken 0 4) (chkS chk [(4, mrtTok 1)]) (fun u => (island 0 u).mrt.isSome && (island 1 u).mrt.isSome && (edge 4 u).creditFlight == 1)
    ∧ after (.mrtToken 0 4) (chkS chk [(4, mrtTok 65)]) (fun u => (island 0 u).mrt.isNone && (island 0 u).mrtRejected == 1)
    ∧ mrtOld 0 (advanceTo 40 (aged r)) = true ∧ after (.mrtAged 40 0) (aged r) (fun u => (island 0 u).mrtAged && (fsrc 0x1AE u).latched)
    ∧ mrtOld 0 (aged r) = false ∧ idle (.mrtAged 0 0) (aged r)
    ∧ idle (.deadlineMiss 0 3 9) (due (some 1)) ∧ idle (.deadlineMiss 0 3 9) (due none)
    ∧ after (.deadlineMiss 0 3 9) (due (some 0)) (fun u => (watch 3 u).win == [true] && u.led.tickets.all (·.missed)
        && (fsrc 0x203 u).detail == 9 && (fsrc 0x203 u).latched && (fsrc 0x303 u).latched) := by decide +kernel

/-- A stitch that puts mitten 5 on the first glove of quad 4. -/
def spare4 : Stitch := mkSt 0x10 2 6 [(4, 1), (1, 0), (1, 0), (2, 0), (1, 4), (1, 0), (1, 1), (1, 1), (12, 0)]
/-- The graph in force with its placement and, where asked, the alternate of quad 5. -/
def altS (m : Mitten) (has : Bool) : State :=
  { stby (loaded m holds creds) with pat := { r.pat with
      image := some graph, fit := place, primary := place, altReady := true, st := .loaded
      alts := if has then [⟨1, 5, [spare4]⟩] else [] } }
/-- A state with its gloves 20 to 23 alike. -/
def quad5 (x : Glove) (s : State) : State := { s with fab := { s.fab with gloves := [(20, x), (21, x), (22, x), (23, x)] } }

theorem witness_GlovesAreTestedAndQuadsWithdrawn :
    let g := fun (x : Glove) => ({ stby r with fab := { r.fab with gloves := [(1343, x)] } } : State)
    let soon := { altS {} true with isl := { r.isl with reserves := [⟨30, 1, 1000, 0, 100⟩] } }
    let asked := fun (m : Mitten) => ({ altS m true with isl := { r.isl with withdrawReq := [(5, 0)] } } : State)
    let back := fun (x : Glove) => quad5 x { altS { gloves := [16] } true with
      pat := { (altS {} true).pat with fit := spare4 :: place.drop 1, altKind := 1, altIndex := 5, testAlt := true }
      isl := { r.isl with withdrawnQuads := [(5, 0)] } }
    serving r = false ∧ idle (.gloveTestSlice 0 1343) r
    ∧ (testsRun 1 (g {}) = true ∧ gloveIdle 1343 (g {}) = true)
    ∧ after (.gloveTestSlice 0 1343) (g {}) (fun u => (glove 1343 u).test == .selftest)
    ∧ idle (.gloveTestSlice 0 1343) (g { test := .selftest })
    ∧ reservedSoon 20 soon = true
    ∧ after (.gloveTestSlice 0 20) soon (fun u => (glove 20 u).test == .none && (island 0 u).deferred == 1)
    ∧ idle (.gloveTestSliceDone 0 1343 true) (g {})
    ∧ after (.gloveTestSliceDone 0 1343 true) (g { test := .selftest, slices := 10 }) (fun u => (glove 1343 u).slices == 11 && (glove 1343 u).test == .none)
    ∧ after (.gloveTestSliceDone 40 1343 true) (g { test := .selftest, slices := 11, overdue := true })
        (fun u => (glove 1343 u).slices == 0 && (glove 1343 u).passAt == 40 && !(glove 1343 u).overdue)
    ∧ after (.gloveTestSliceDone 0 1343 false) (g { test := .selftest, slices := 3 })
        (fun u => (fsrc (srcQuad 335) u).latched && u.fault.isoPend.map (·.part) == [0x24F])
    ∧ after (.gloveTestSliceDone 0 1343 false) { g { test := .selftest } with fault := (isoS [0x24F]).fault } (fun u => u.fault.isoPend.isEmpty)
    ∧ idle (.gloveWithdrawRequest 0 1343) (g {})
    ∧ after (.gloveWithdrawRequest 55000000000 20) (altS {} true) (fun u => u.isl.withdrawReq == [(5, 55000000000)])
    ∧ after (.gloveWithdrawRequest 54999999999 20) (altS {} true) (fun u => u.isl.withdrawReq.isEmpty && (island 0 u).deferred == 0)
    ∧ after (.gloveWithdrawRequest 55000000000 1343) (g {}) (fun u => u.isl.withdrawReq.isEmpty && (island 1 u).deferred == 1)
    ∧ after (.testIntervalPassed 60000000000 1343) (g {}) (fun u => (glove 1343 u).overdue && (fsrc 0x5AF u).latched && (fsrc 0x5AF u).detail == 1343)
    ∧ idle (.testIntervalPassed 0 1343) (g {}) ∧ idle (.testIntervalPassed 0 20) (altS {} true)
    ∧ idle (.quadWithdrawSeam 0 5) (altS {} true) ∧ (matchingAlt (quadPart 5) (asked {})).isSome = true
    ∧ after (.quadWithdrawSeam 1999999 5) (asked {}) (fun u => u.isl.withdrawReq.length == 1)
    ∧ after (.quadWithdrawSeam 2000000 5) (asked {}) (fun u => u.pat.altKind == 1 && u.pat.altIndex == 5 && u.pat.testAlt && isWithdrawn 5 u
        && u.isl.withdrawReq.isEmpty && (glove 23 u).test == .withdrawn && (glove 24 u).test == .none && (mitten 5 u).gloves == [16])
    ∧ after (.quadWithdrawSeam 2000000 5) (asked { firing := some firing5 }) (fun u => u.pat.testSeam.isSome && u.pat.altKind == 0)
    ∧ idle (.quadReturnSeam 0 5) (altS {} true) ∧ idle (.quadReturnSeam 0 5) (back {})
    ∧ after (.quadReturnSeam 0 5) (back { passAt := 1, test := .withdrawn }) (fun u => u.pat.altKind == 0 && !u.pat.testAlt && !isWithdrawn 5 u
        && (glove 20 u).test == .none && (mitten 5 u).gloves == [20]) := by decide +kernel

/-- An island message: envelope and payload (R339). -/
def envl (cmd : Nat) (sealed : Bool) (p : List Byte) : List Byte :=
  leBytes 1 cmd ++ leBytes 1 (b2n sealed) ++ leBytes 2 p.length ++ leBytes 4 77 ++ zeroBytes 8 ++ p
/-- The payload of a sealed request with a signature of zeros (R429). -/
def sealP (cmd slot : Nat) (body : List Byte) : List Byte :=
  leBytes 4 0x5152534B ++ leBytes 1 cmd ++ leBytes 1 slot ++ leBytes 2 body.length ++ leBytes 8 1 ++ zeroBytes 16 ++ body ++ zeroBytes 2420
/-- A state with keys in slot 1 (OWNER) and slot 15 (SEALED). -/
def keyed (s : State) : State :=
  { s with sec := { s.sec with storeA := { s.sec.storeA with slots := [(1, { key := [1#8], kinds := 16 }), (15, { key := [2#8], kinds := 4 })] } } }
/-- Island 1 with a message in its mailbox. -/
def mbxS (m : List Byte) (s : State) : State :=
  modIsland 1 (fun x => { x with mbx := { x.mbx with busy := true, inBuf := wrBytes [] 0 m } }) s

/-- Everything R430 asks of a sealed message but the signature. -/
def sealForm (kind body : Nat) (m : List Byte) (s : State) : Bool :=
  let p := msgPayload m
  let n := sealSlot p
  msgSealed m && msgLen m == 2452 + sealBodyLen p && sealBodyLen p == body && fieldLe p 0 4 == 0x5152534B
    && fieldLe p 4 1 == msgCmd m && fieldLe p 16 16 == s.host.moduleId && decide (1 ≤ n ∧ n ≤ 15) && hasKind n kind s
    && (kind != 4 || n == 1) && decide (tget 0 n s.sec.counters < sealCounter p)

/-- The signature of a sealed message verifies under the key of its slot. -/
def signed (m : List Byte) (s : State) : Prop :=
  let p := msgPayload m
  Config.mldsaVerify (keySlot (sealSlot p) s).key (sealDigest p) (slice p (32 + sealBodyLen p) 2420) = true

/-- A well-formed sealed message whose signature verifies is accepted; the verifier is an opaque constant, so that it
accepts is a premise. -/
theorem witness_sealed_message {kind body : Nat} {m : List Byte} {s : State} (hf : sealForm kind body m s = true) (hv : signed m s) :
    judgeSeal kind body m s = .ok (sealBody (msgPayload m), ⟨sealDigest (msgPayload m), sealCounter (msgPayload m)⟩) := by
  simp only [sealForm, Bool.and_eq_true, beq_iff_eq] at hf
  obtain ⟨⟨⟨⟨⟨⟨⟨⟨⟨h1, h2⟩, h3⟩, h4⟩, h5⟩, h6⟩, h7⟩, h8⟩, h9⟩, h10⟩ := hf
  have hv' : Config.mldsaVerify (keySlot (sealSlot (msgPayload m)) s).key (sealDigest (msgPayload m))
    (slice (msgPayload m) (32 + sealBodyLen (msgPayload m)) 2420) = true := hv
  rw [h3] at hv' h2
  simp [judgeSeal, sealValid, h1, h2, h3, h4, h5, h6, h7, h8, h9, h10, hv']

/-- The mailbox gives the message that was written into it. -/
theorem witness_mailbox_message (m : List Byte) (s : State) (h4 : 4 ≤ m.length) (hl : 16 + min 4080 (msgLen m) = m.length) :
    mbxMsg 1 (mbxS m s) = m := by
  have e : (island 1 (mbxS m s)).mbx.inBuf = wrBytes [] 0 m := rfl
  simp only [mbxMsg, e, rdLe_wrBytes [] 2 2 m (by omega)]
  rw [show fieldLe m 2 2 = msgLen m from rfl, hl, rdBytes_wrBytes]

set_option maxRecDepth 20000 in
/-- The sealed commands of the mailbox with the operands that the positive clauses ask for. -/
theorem witness_sealed_mailbox_commands :
    let m := fun (cmd : Nat) (body : List Byte) => envl cmd true (sealP cmd 15 body)
    let ok := fun (cmd n : Nat) (body : List Byte) (z : State) =>
      sealForm 2 n (m cmd body) (keyed z) && 16 + min 4080 (msgLen (m cmd body)) == (m cmd body).length
    let secure := serve3 { strm3 with secure := true, home := 1 } []
    (ok 0x10 128 (zeroBytes 128) r = true ∧ ownsHome 1 (homeOf 0 r) r = false)
    ∧ (ok 0x10 128 (rec 1 0) secure = true ∧ ownsHome 1 (homeOf 3 secure) secure = true ∧ verdictOf 3 none (rec 1 0) secure = 0)
    ∧ (ok 0x11 1 [3#8] { r with led := { r.led with strm := [(3, { home := 1 })] } } = true
        ∧ ownsHome 1 (homeOf 3 { r with led := { r.led with strm := [(3, { home := 1 })] } }) r = true)
    ∧ (ok 0x12 2 [15#8, 1#8] (lpS { lp with secure := true } []) = true
        ∧ engineUp 15 (lpS { lp with secure := true } []) = true ∧ (reqTarget 15 1 (lpS { lp with secure := true } [])).isSome = true)
    ∧ (ok 0x20 2 [15#8, 31#8] (grpS { grp with members := [{ index := 31, stream := 47, blocked := true }] } []) = true
        ∧ (memberReg 15 31 (grpS { grp with members := [{ index := 31, stream := 47, blocked := true }] } [])).blocked = true)
    ∧ (ok 0x21 4 (leBytes 4 11) (chkS { chk with owner := 1 } []) = true ∧ checkOf 11 (chkS { chk with owner := 1 } []) = some 63
        ∧ hostIsland 1 (chkS { chk with owner := 1 } []) = some 1)
    ∧ ok 0x30 12 (leBytes 8 5 ++ leBytes 4 2) r = true := by decide +kernel

set_option maxRecDepth 20000 in
theorem witness_MailboxCommandsAreAnsweredAndSealedOnesJudged :
    let tells := fun (cmd st : Nat) (u : State) => let x := (island 1 u).mbx
      !x.busy && x.done && rdLe x.outBuf 0 1 == cmd && rdLe x.outBuf 1 1 == st && rdLe x.outBuf 4 4 == 77
    let split := fun (s : State) => modIsland 1 (fun x => { x with vote := .split }) s
    let two := fun (s : State) => split (modIsland 0 (fun x => { x with vote := .split }) s)
    idle (.mbxStatus 0 1) r ∧ idle (.mbxMrtGet 0 1) r ∧ idle (.mbxTicket 0 1) r ∧ idle (.mbxOutcomeGet 0 1) r ∧ idle (.mbxLoopMode 0 1) r
    ∧ idle (.mbxUnblock 0 1) r ∧ idle (.mbxCheckClear 0 1) r ∧ idle (.mbxPatternAuth 0 1) r
    ∧ idle (.mbxStatus 0 1) (mbxS (envl 0x02 false []) r) ∧ idle (.mbxStatus 0 1) (modIsland 1 (fun x => { x with vote := .silent }) (mbxS (envl 0x01 false []) r))
    ∧ after (.mbxStatus 0 1) (mbxS (envl 0x01 false []) r) (tells 1 0) ∧ after (.mbxStatus 0 1) (mbxS (envl 0x01 false [0#8]) r) (tells 1 2)
    ∧ after (.mbxMrtGet 0 1) (mbxS (envl 0x02 false []) r) (tells 2 6) ∧ after (.mbxMrtGet 0 1) (mbxS (envl 0x02 false [0#8]) r) (tells 2 2)
    ∧ after (.mbxMrtGet 0 1) (modIsland 1 (fun x => { x with mrt := some [1#8] }) (mbxS (envl 0x02 false []) r)) (tells 2 0)
    ∧ after (.mbxTicket 0 1) (mbxS (envl 0x10 false []) r) (tells 0x10 3) ∧ after (.mbxOutcomeGet 0 1) (mbxS (envl 0x11 true (sealP 0x11 15 [])) r) (tells 0x11 2)
    ∧ after (.mbxLoopMode 0 1) (mbxS (envl 0x12 true (sealP 0x12 15 [15#8, 1#8])) r) (tells 0x12 4)
    ∧ after (.mbxUnblock 0 1) (mbxS (envl 0x20 false []) (split r)) (tells 0x20 6) ∧ after (.mbxCheckClear 0 1) (mbxS (envl 0x21 false []) (two r)) (tells 0x21 6)
    ∧ after (.mbxPatternAuth 0 1) (mbxS (envl 0x30 false []) (split r)) (tells 0x30 6)
    ∧ after (.mbxDoneClear 0 1) (iw (fun x => { x with mbx := { x.mbx with done := true } })) (fun u => !(island 1 u).mbx.done) := by
  decide +kernel

/-! ### Boot and the management ports (R423 to R440) -/

/-- BOOT under way in a stage. -/
def bootS (f : SecState → SecState) : State := sw f
/-- Island `i` with a management message. -/
def mg (i : Nat) (m : List Byte) (s : State) : State := modIsland i (fun x => { x with msg := some ⟨9, 4, false, m⟩ }) s
/-- A fragment: tag, index, count, length and bytes (R427). -/
def frag (k n : Nat) (part : List Byte) : List Byte := leBytes 4 7 ++ leBytes 1 k ++ leBytes 1 n ++ leBytes 2 part.length ++ part
/-- A flash job of a STORE to entry 15. -/
def fjob (fw : Bool) : FlashJob := { island := 1, env := zeroBytes 16, reqDigest := [], counter := 1, src := 9, mtag := 4, firmware := fw, index := if fw then 1 else 15, raw := [1#8] }

theorem witness_BootRunsFromTheRomToTheFirmware :
    let torn := fun (x : SecState) => { x with storeA := { x.storeA with ok := false }, storeB := { x.storeB with ok := false } }
    let stops := fun (code : Nat) (u : State) => u.sec.stopped && u.sec.code == code && u.fault.c0.pinLow && u.fault.c1.pinLow
    let stage1 := fun (s : State) => ({ s with sec := { s.sec with stage := 1 } } : State)
    let asm := fun (s : State) => modIsland 1 (fun x => { x with asm := some { mtag := 7, src := 9, frags := 2 } }) s
    booting r = true ∧ idle (.bootRomDone 0) (pw (fun p => { p with booted := true })) ∧ idle (.bootRomDone 0) (stage1 r)
    ∧ mergeStores (bootS torn) = none ∧ after (.bootRomDone 0) (bootS torn) (stops 3)
    ∧ (mergeStores r).isSome = true
    ∧ idle (.firmwareSelect 0 true) r ∧ fwAgree (stage1 r) = none ∧ after (.firmwareSelect 0 true) (stage1 r) (stops 4)
    ∧ idle (.flashWriteDone 0 true) r
    ∧ after (.flashWriteDone 0 true) (sw (fun x => { x with job := some (fjob true) }))
        (fun u => u.sec.job.isNone && decide (u.sec.flashA.fw1 = [1#8] ∧ u.sec.flashB.fw1 = [1#8]))
    ∧ after (.flashWriteDone 0 false) (modIsland 0 (fun x => { x with vote := .silent }) (sw (fun x => { x with
          job := some (fjob true), flashA := { fw1 := [2#8] }, flashB := { fw1 := [2#8] } })))
        (fun u => decide (u.sec.flashA.fw1 = [2#8] ∧ u.sec.flashB.fw1 = []))
    ∧ after (.flashWriteDone 0 true) (sw (fun x => { x with job := some (fjob false) })) (fun u => (tget {} 15 u.sec.flashB.store).valid)
    ∧ after (.flashWriteDone 0 false) (sw (fun x => { x with job := some (fjob false) })) (fun u => !(tget {} 15 u.sec.flashB.store).valid)
    ∧ after (.flashWriteDone 0 true) (modIsland 1 (fun x => { x with vote := .silent }) (sw (fun x => { x with job := some (fjob false) })))
        (fun u => u.host.mgmtSent.isEmpty && u.sec.flashB.store.isEmpty && (tget {} 15 u.sec.flashA.store).valid)
    ∧ (mgmtUp 1 r = true ∧ mgmtMac 1 r ≠ 0xFFFFFFFFFFFF)
    ∧ idle (.mgmtFragmentRx 0 1 9 (mgmtMac 0 r) (frag 0 1 (envl 0x40 false []))) r ∧ idle (.mgmtFragmentRx 0 1 9 (mgmtMac 1 r) (frag 0 4 [])) r
    ∧ idle (.mgmtFragmentRx 0 1 9 (mgmtMac 1 r) (frag 0 0 [])) r ∧ idle (.mgmtFragmentRx 0 1 9 (mgmtMac 1 r) (frag 0 2 [1#8])) (mg 1 [] r)
    ∧ after (.mgmtFragmentRx 0 1 9 (mgmtMac 1 r) (frag 0 1 (envl 0x46 false []))) r
        (fun u => decide ((island 1 u).msg = some ⟨9, 7, false, envl 0x46 false []⟩))
    ∧ after (.mgmtFragmentRx 40 1 9 (mgmtMac 1 r) (frag 2 3 [5#8])) r
        (fun u => decide ((island 1 u).asm = some { mtag := 7, src := 9, frags := 3, parts := [(2, [5#8])], at_ := 40 }))
    ∧ idle (.mgmtReassemblyTimeout 0 1) r
    ∧ after (.mgmtReassemblyTimeout 9999999 1) (asm r) (fun u => (island 1 u).asm.isSome)
    ∧ after (.mgmtReassemblyTimeout 10000000 1) (asm r) (fun u => (island 1 u).asm.isNone) := by decide +kernel

/-- The end of the boot ROM at an identity record that does not name the generated key: of two records, one does not. -/
theorem witness_boot_rom_identity_mismatch :
    ∃ d, Config.mldsaKey r.sec.seed ≠ slice (sw (fun x => { x with identity := d })).sec.identity 32 1312 := by
  by_cases h : Config.mldsaKey r.sec.seed = slice (zeroBytes 33) 32 1312
  · refine ⟨[], ?_⟩
    rw [h]
    decide +kernel
  · exact ⟨zeroBytes 33, h⟩

/-- … and at one that does: a key of the standard's 1,312 bytes. -/
theorem witness_boot_rom_identity_match (h : (Config.mldsaKey r.sec.seed).length = 1312) :
    Config.mldsaKey r.sec.seed
      = slice (sw (fun x => { x with identity := zeroBytes 32 ++ Config.mldsaKey r.sec.seed })).sec.identity 32 1312 := by
  have hz : (zeroBytes 32).length = 32 := by decide +kernel
  simp only [sw, slice]
  rw [List.drop_append_of_le_length (by omega), List.drop_of_length_le (by omega), List.nil_append, List.take_of_length_le (by omega)]

/-- SHA3-256 of the empty string (FIPS 202). -/
def emptyDigest : List Byte := beBytes 32 0xA7FFC6F8BF1ED76651C14756A061D662F580FF4DE43B49FA82D80A4B80F8434A
/-- An image with an empty body and an owner block of BOOT_OPTIONS 1 (SPLIT of island 0), or without one; signatures of zeros. -/
def fwImg (owner : Bool) : List Byte :=
  leBytes 4 0x4957464B ++ leBytes 2 1 ++ leBytes 2 0 ++ leBytes 4 6 ++ leBytes 4 0 ++ emptyDigest ++ leBytes 4 (if owner then 2484 else 0)
    ++ zeroBytes 12 ++ zeroBytes 2420
    ++ (if owner then zeroBytes 4 ++ leBytes 4 0x4E574F4B ++ leBytes 4 1 ++ emptyDigest ++ zeroBytes 24 ++ zeroBytes 2420 else [])
/-- BOOT in stage 1 with an image in slot 0 of both flashes, or of FLASH_A alone. -/
def fwS (owner both : Bool) : State := sw (fun x => { x with
  stage := 1, flashA := { fw0 := fwImg owner }, flashB := { fw0 := if both then fwImg owner else [] } })

theorem absent_image_is_not_valid (s : State) : fwValid [] s = false := by simp [fwValid, Sys2Proof.Machine.fieldLe, leVal]

/-- The choice of an image that verifies (the verifier is an opaque constant): both flashes agree, or FLASH_B lags. -/
theorem witness_firmware_choice (owner both : Bool) (h : fwValid (fwImg owner) (fwS owner both) = true) :
    fwAgree (fwS owner both) = some (0, fwImg owner, if both then none else some 1) := by
  have h0 : fwChoice 0 (fwS owner both) = some 0 := by
    have e0 : fwSlotOf 0 0 (fwS owner both) = fwImg owner := rfl
    have e1 : fwSlotOf 0 1 (fwS owner both) = [] := rfl
    have ho : (!islandRuns 0 (fwS owner both)) = false ∧ (!(flash 0 (fwS owner both)).ok) = false := by cases owner <;> cases both <;> exact ⟨rfl, rfl⟩
    simp [fwChoice, e0, e1, h, absent_image_is_not_valid, ho]
  have i0 : fwImage 0 (fwS owner both) = fwImg owner := by rw [fwImage, h0]; rfl
  have ho : (!islandRuns 1 (fwS owner both)) = false ∧ (!(flash 1 (fwS owner both)).ok) = false := by cases owner <;> cases both <;> exact ⟨rfl, rfl⟩
  have e1 : fwSlotOf 1 1 (fwS owner both) = [] := rfl
  cases both with
  | true =>
    have e0 : fwSlotOf 1 0 (fwS owner true) = fwImg owner := rfl
    have h1 : fwChoice 1 (fwS owner true) = some 0 := by simp [fwChoice, e0, e1, h, absent_image_is_not_valid, ho]
    have i1 : fwImage 1 (fwS owner true) = fwImg owner := by rw [fwImage, h1]; rfl
    simp [fwAgree, h0, h1, i0, i1]
  | false =>
    have e0 : fwSlotOf 1 0 (fwS owner false) = [] := rfl
    have h1 : fwChoice 1 (fwS owner false) = none := by simp [fwChoice, e0, e1, absent_image_is_not_valid]
    have hr : islandRuns 1 (fwS owner false) = true := rfl
    simp [fwAgree, h0, h1, i0, hr]

set_option maxRecDepth 20000 in
/-- BOOT_OPTIONS of the two images, at a partner position. -/
theorem witness_firmware_options :
    bit (fwOptions (fwImg true)) 0 = true ∧ bit (fwOptions (fwImg false)) 0 = false
    ∧ partnerPos (fwS true true) = true ∧ islandRuns 0 (fwS true true) = true ∧ booting (fwS true true) = true := by decide +kernel

/-- The payload of a sealed request of the owner key. -/
def own (cmd : Nat) (body : List Byte) : List Byte := envl cmd true (sealP cmd 1 body)
/-- STANDBY: flash commands are accepted. -/
def flS : State := stby r

theorem witness_ManagementCommandsAreAnsweredAndSealedOnesJudged :
    let tells := fun (st : Nat) (u : State) => (island 1 u).msg.isNone && decide (u.host.mgmtSent.map (fun f => fieldLe (f.2.drop 22) 1 1) = [st])
    let dark := fun (m : List Byte) => modIsland 1 (fun x => { x with vote := .silent }) (mg 1 m r)
    idle (.mgmtIdentity 0 1) r ∧ idle (.mgmtAttest 0 1) r ∧ idle (.mgmtEnroll 0 1) r ∧ idle (.mgmtRevoke 0 1) r ∧ idle (.mgmtSetFloor 0 1) r
    ∧ idle (.mgmtFirmware 0 1) r ∧ idle (.mgmtStore 0 1) r
    ∧ idle (.mgmtIdentity 0 1) (mg 1 (envl 0x41 false []) r) ∧ idle (.mgmtIdentity 0 1) (dark (envl 0x40 false []))
    ∧ after (.mgmtIdentity 0 1) (mg 1 (envl 0x40 false []) r) (tells 0) ∧ after (.mgmtIdentity 0 1) (mg 1 (envl 0x40 false [0#8]) r) (tells 2)
    ∧ after (.mgmtAttest 0 1) (mg 1 (envl 0x41 false [0#8]) r) (tells 2)
    ∧ after (.mgmtAttest 0 1) (mg 1 (envl 0x41 false (zeroBytes 32)) r) (fun u => (island 1 u).msg.isNone)
    ∧ after (.mgmtEnroll 0 1) (mg 1 (envl 0x42 false []) (sw (fun x => { x with ownerSet := true }))) (tells 3)
    ∧ after (.mgmtRevoke 0 1) (mg 1 (envl 0x43 false []) r) (tells 3) ∧ after (.mgmtSetFloor 0 1) (mg 1 (envl 0x44 true (sealP 0x44 1 [])) r) (tells 2)
    ∧ after (.mgmtFirmware 0 1) (mg 1 (envl 0x45 false []) r) (tells 3)
    ∧ after (.mgmtStore 0 1) (mg 1 (envl 0x46 true (sealP 0x46 1 (zeroBytes 16))) r) (tells 4)
    ∧ (let m := envl 0x42 false (leBytes 4 1 ++ zeroBytes 1312); msgSealed m = false ∧ msgLen m = 1316 ∧ fieldLe m 16 1 = 1)
    ∧ r.sec.ownerSet = false ∧ (keyStore r).revoked = [] := by decide +kernel

/-- The sealed commands of the owner with the operands that the positive clauses ask for. -/
theorem witness_sealed_management_commands :
    let slot2 := fun (s : State) => ({ keyed s with sec := { (keyed s).sec with
      storeA := { (keyed s).sec.storeA with slots := (1, { key := [1#8], kinds := 16 }) :: [(2, { key := [7#8], kinds := 1 })] } } } : State)
    (sealForm 4 1 (own 0x43 [2#8]) (slot2 r) = true ∧ (keySlot 2 (slot2 r)).key ≠ [] ∧ (keyStore (slot2 r)).revoked.length < 64)
    ∧ (sealForm 4 4 (own 0x44 (leBytes 2 0 ++ leBytes 2 5)) (keyed r) = true ∧ (keyStore (keyed r)).patFloor < 5)
    ∧ sealForm 4 4 (own 0x44 (leBytes 2 1 ++ leBytes 2 5)) (keyed r) = true ∧ sealForm 4 4 (own 0x44 (leBytes 2 2 ++ leBytes 2 5)) (keyed r) = true
    ∧ (sealForm 4 12 (own 0x45 (zeroBytes 12)) (keyed r) = true ∧ flashFree r = false)
    ∧ (sealForm 4 12 (own 0x45 (zeroBytes 8 ++ leBytes 4 2484)) (keyed flS) = true ∧ flashFree flS = true)
    ∧ (sealForm 4 16 (own 0x46 (leBytes 4 15 ++ zeroBytes 8 ++ leBytes 4 1)) (keyed flS) = true ∧ storeRoom 15 flS = 31 * 2 ^ 20 - 4096)
    ∧ sealForm 4 16 (own 0x46 (leBytes 4 16 ++ zeroBytes 8 ++ leBytes 4 1)) (keyed flS) = true := by decide +kernel

/-! ### The host ports (R419, R443 to R456) -/

/-- A state with port 1 changed. -/
def hp (f : HostPort → HostPort) (s : State) : State := modPort 1 f s
/-- Port 1 linked. -/
def up1 (s : State) : State := hp (fun h => { h with link := true }) s
/-- A delivered ticket of stream 3 on port 1 whose entry is the first of the ring's second pass; port 0 linked. -/
def ring3 : State :=
  { r with host := { r.host with p0 := { link := true } }
           led := { r.led with strm := [(3, { strm3 with port := 1, cons := 16, outBase := 0x1000 })], tickets := [{ tkt .delivered with status := 0 }] } }

theorem witness_HostLinksComeGoAndFailOver :
    let s3 := sw (fun x => { x with stage := 3 })
    let pend := fun (s : State) => ({ s with host := { s.host with wmPend := true, wmRec := [5#8], wmBase := 0x100, port := 1 } } : State)
    let perst := hp (fun h => { h with perst := true })
    idle (.hostLinkUp 0 1) r ∧ idle (.hostLinkUp 0 1) (up1 s3) ∧ idle (.hostLinkUp 0 1) (perst s3) ∧ idle (.hostLinkUp 0 1) { s3 with fault := (isoS [0x49]).fault }
    ∧ idle (.hostLinkUp 0 1) { s3 with fault := (isoS [5]).fault }
    ∧ after (.hostLinkUp 0 1) (hp (fun h => { h with orderly := true }) s3) (fun u => (hport 1 u).link && !(hport 1 u).orderly && !(hport 0 u).link)
    ∧ after (.hostLinkUp 0 1) (stby r) (fun u => (hport 1 u).link)
    ∧ after (.hostLinkUp 0 1) (pend s3) (fun u => !u.host.wmPend && decide (u.host.mem = [(0x100, 5#8)]))
    ∧ idle (.hostLinkDown 0 1 false []) r
    ∧ after (.hostLinkDown 40 1 false []) (up1 r) (fun u => !(hport 1 u).link && (hport 1 u).downAt == 40 && (fsrc (srcHost 1 0) u).latched
        && (fsrc (srcHost 1 1) u).latched && !(fsrc (srcHost 1 2) u).latched)
    ∧ after (.hostLinkDown 0 1 true []) (up1 r) (fun u => (fsrc (srcHost 1 0) u).latched && !(fsrc (srcHost 1 1) u).latched)
    ∧ after (.hostLinkDown 0 1 true [.host 1]) (up1 r) (fun u => (fsrc (srcHost 1 2) u).latched && u.host.resps.length == 1)
    ∧ idle (.portFailover 0 1) ring3
    ∧ after (.portFailover 99999 1) ring3 (fun u => !(hport 1 u).redirect)
    ∧ ((declaredStreams ring3).filter (fun n => (strm n ring3).port == 1) = [3] ∧ (unconsumed 3 ring3).length = 1)
    ∧ after (.portFailover 100000 1) ring3 (fun u => (hport 1 u).redirect && !(hport 0 u).redirect
        && decide (rdBytes u.host.mem 0x1000 64 = outcomeBytes { tkt .delivered with status := 0 } 0 0))
    ∧ after (.perstAssert 40 1 []) (hp (fun h => { h with redirect := true, d3hot := true, win := [(0, (1, true))], msix := [(1, { masked := false })] }) (up1 r))
        (fun u => decide (hport 1 u = { perst := true, orderly := true, downAt := 40, redirect := true, win := [(0, (1, true))] })
          && (fsrc (srcHost 1 0) u).latched && !(fsrc (srcHost 1 1) u).latched)
    ∧ after (.perstAssert 40 1 []) r (fun u => (hport 1 u).downAt == 0 && !(fsrc (srcHost 1 0) u).latched)
    ∧ idle (.perstDeassert 0 1) r ∧ after (.perstDeassert 0 1) (perst r) (fun u => !(hport 1 u).perst)
    ∧ after (.perstDeassert 0 1) (perst (pw (fun p => { p with retainEntry := true }))) (fun u => u.power.wakePend)
    ∧ after (.perstDeassert 0 1) (perst (pw (fun p => { p with inRetain := true }))) (fun u => u.power.retainExit && !u.power.inRetain)
    ∧ idle (.d3hotEntry 0 1 []) r ∧ after (.d3hotEntry 40 1 []) (up1 r) (fun u => (hport 1 u).d3hot && (hport 1 u).link && (hport 1 u).downAt == 40)
    ∧ idle (.d3hotEntry 0 1 []) (hp (fun h => { h with d3hot := true }) (up1 r)) ∧ idle (.d3hotExit 0 1) r
    ∧ after (.d3hotExit 0 1) (hp (fun h => { h with d3hot := true }) (up1 r)) (fun u => !(hport 1 u).d3hot && (hport 1 u).link) := by decide +kernel

/-- Port 1 linked, its first aperture at device address 0, and a guard that lets the host read and write up to 0x1000 and
read up to 0x2000. -/
def barS : State :=
  let s := hp (fun h => { h with win := [(0, (0, true))] }) (up1 r)
  { s with sec := { s.sec with ddrGuards := [⟨0, 0x1000, false, 2⟩, ⟨0x1000, 0x1000, false, 1⟩] } }

theorem witness_HostAccessesAreGuardedAndAnswered :
    let ref := fun (u : State) => u.sec.violHost == 1 && u.sec.lastPort == 1 && (fsrc (srcHost 1 5) u).latched
    let bad := { barS with ddr := { barS.ddr with ch := [(0, { poison := [1] })] } }
    let msk := fun (e : MsixEntry) => hp (fun h => { h with msix := [(31, e)] }) (up1 r)
    let tx := fun (x : HrRing) => ({ up1 r with host := { (up1 r).host with eth := [(3, { tx := x })] } } : State)
    idle (.bar2Access 0 1 0 none 4 true) r
    ∧ after (.bar2Access 0 1 0 (some [1#8]) 1 false) barS (fun u => (fsrc (srcHost 1 4) u).latched && u.ddr.mem.isEmpty)
    ∧ bar2Addr 1 (2 ^ 36) 4 barS = none ∧ bar2Addr 1 (2 ^ 32) 4 barS = none ∧ bar2Addr 1 (2 ^ 32 - 4) 5 barS = none
    ∧ after (.bar2Access 0 1 (2 ^ 32) none 4 true) barS (fun u => ref u && !u.sec.lastWrite && decide (u.host.resps = [.unsupported 1]))
    ∧ after (.bar2Access 0 1 (2 ^ 36) (some [1#8]) 1 true) barS (fun u => ref u && u.sec.lastWrite && (hport 1 u).aerUr)
    ∧ bar2Addr 1 0x1FFC 4 barS = some 0x1FFC
    ∧ after (.bar2Access 0 1 0x2000 none 4 true) barS (fun u => ref u && u.sec.lastAddr == 0x2000 && decide (u.host.resps = [.unsupported 1]))
    ∧ after (.bar2Access 0 1 0x1FFC none 4 true) barS (fun u => decide (u.host.resps = [.data 1 (zeroBytes 4)]))
    ∧ after (.bar2Access 0 1 0x3E none 4 true) bad (fun u => decide (u.host.resps = [.poisoned 1 4]))
    ∧ after (.bar2Access 0 1 0 none 4 true) { barS with fault := (isoS [0x10]).fault } (fun u => decide (u.host.resps = [.poisoned 1 4]))
    ∧ after (.bar2Access 0 1 0x1000 (some [1#8]) 1 true) barS (fun u => ref u && u.sec.lastAddr == 0x1000 && (hport 1 u).aerUr)
    ∧ Memory.wf barS.ddr.mem = true
    ∧ after (.bar2Access 0 1 0x3C (some [1#8, 2#8, 3#8, 4#8]) 4 true) barS (fun u => decide (devRd 0x3B 6 u = [0#8, 1#8, 2#8, 3#8, 4#8, 0#8]))
    ∧ idle (.hostReadCompletion 0 1 (.host 1) 1) r ∧ idle (.hostReadCompletion 0 1 (.host 1) 0) (up1 r)
    ∧ after (.hostReadCompletion 0 1 (.island 1) 1) (up1 r) (fun u => (fsrc (srcHost 1 2) u).latched && u.host.resps.isEmpty)
    ∧ after (.hostReadCompletion 0 1 (.host 1) 3) (up1 r) (fun u => (fsrc (srcHost 1 4) u).latched)
    ∧ after (.hostCompletionTimeout 0 1 (.island 0)) r (fun u => (fsrc (srcHost 1 2) u).latched)
    ∧ idle (.msixUnmask 0 1 32) (up1 r) ∧ idle (.msixUnmask 0 1 31) (msk { masked := false })
    ∧ after (.msixUnmask 0 1 31) (msk { pba := true }) (fun u => decide (u.host.msgs = [⟨1, 31⟩] ∧ tget ({} : MsixEntry) 31 (hport 1 u).msix = { masked := false }))
    ∧ after (.msixUnmask 0 1 31) (msk {}) (fun u => u.host.msgs.isEmpty && !(tget ({} : MsixEntry) 31 (hport 1 u).msix).masked)
    ∧ offBlocked (0x000E030C + 3 * 0x4000) (isoS [0x2B]) = true ∧ idle (.ethTxProduce 0 3 5) (isoS [0x2B])
    ∧ after (.ethTxProduce 0 3 65537) (tx {}) (fun u => (eport 3 u).tx.prod == 1 && (eport 3 u).tx.done == 0)
    ∧ carried 1 (tx { enable := true, port := 1 }) = true
    ∧ after (.ethTxProduce 0 3 1) (tx { enable := true, port := 1, done := 65535 }) (fun u => (eport 3 u).tx.prod == 1 && (eport 3 u).tx.done == 1) := by
  decide +kernel

/-! ### Attach, partners and leases (R391, R449, R456 to R468) -/

/-- STANDBY changed in the host block. -/
def hs (f : HostState → HostState) : State := { stby r with host := f r.host }

theorem witness_AttachCommandsQuiesceFenceJoinAndRestart :
    let owed := fun (s : State) => ({ s with led := { s.led with tickets := [{ stream := 3, seq := 9 }] } } : State)
    let q := hs (fun h => { h with quiescing := true, quiesceAt := 0 })
    let peer := fun (f : PowerState → PowerState) => ({ hs (fun h => { h with peerAt := some 0 }) with power := f (stby r).power } : State)
    serving r = false ∧ after (.attachQuiesce 0) r (fun u => u.host.cmdRej && !u.host.quiescing)
    ∧ idle (.attachQuiesce 0) q
    ∧ after (.attachQuiesce 40) (owed (stby r)) (fun u => u.led.stopQuiesce && u.host.quiescing && u.host.quiesceAt == 40
        && u.led.tickets.all (fun k => !ticketOpen k && k.status == 2 && k.cause == 5))
    ∧ idle (.quiesceLimit 0) q
    ∧ after (.quiesceLimit 99999999) (owed q) (fun u => u.led.tickets.all ticketOpen)
    ∧ after (.quiesceLimit 100000000) (owed q) (fun u => u.led.tickets.all (fun k => !ticketOpen k))
    ∧ idle (.quiesceComplete 0) (owed q)
    ∧ after (.quiesceComplete 0) q (fun u => u.host.quiesced && !u.host.quiescing && u.host.wmPend && decide (u.host.wmRec = watermarkRecord q))
    ∧ after (.quiesceComplete 0) { q with host := { q.host with p0 := { link := true }, wmBase := 0x100 } }
        (fun u => u.host.quiesced && !u.host.wmPend && decide (rdBytes u.host.mem 0x100 4 = leBytes 4 0x4B4D574B))
    ∧ after (.quiesceComplete 0) { q with host := { q.host with p0 := { link := true }, irq := true, vector := 3 } }
        (fun u => decide (u.host.msgs = []) && (tget ({} : MsixEntry) 3 u.host.p0.msix).pba)
    ∧ after (.quiesceComplete 0) { q with host := { q.host with p0 := { link := true, msix := [(3, { masked := false })] }, irq := true, vector := 3 } }
        (fun u => decide (u.host.msgs = [⟨0, 3⟩]))
    ∧ idle (.attachResume 0) r
    ∧ after (.attachResume 0) { hs (fun h => { h with quiesced := true }) with led := { r.led with stopQuiesce := true } }
        (fun u => !u.host.quiesced && !u.led.stopQuiesce)
    ∧ idle (.attachFence 0) (pw (fun p => { p with safe := true })) ∧ idle (.attachFence 0) (pw (fun p => { p with fenced := true }))
    ∧ after (.attachFence 0) (owed (hs (fun h => { h with joined := true }))) (fun u => u.power.fenced && u.host.fenceCause == 1 && !u.host.joined
        && u.led.tickets.all (fun k => k.status == 2 && k.cause == 4))
    ∧ after (.attachFence 40) { r with loop := { r.loop with slots := [(15, { declared := true, st := .auto }), (14, { declared := true })] } }
        (fun u => (lslot 15 u).st == .safeOut && (lslot 15 u).safeAt == 40 && (lslot 14 u).st == .stopped)
    ∧ after (.attachJoin 3000000) (peer id) (fun u => u.host.joined) ∧ after (.attachJoin 3000001) (peer id) (fun u => u.host.cmdRej && !u.host.joined)
    ∧ after (.attachJoin 0) (peer (fun p => { p with position := 2 })) (fun u => u.host.cmdRej && !u.host.joined)
    ∧ after (.attachJoin 0) (peer (fun p => { p with fenced := true })) (fun u => u.host.cmdRej) ∧ after (.attachJoin 0) r (fun u => u.host.cmdRej)
    ∧ after (.attachUnredirect 0) (hs (fun h => { h with p0 := { redirect := true }, p1 := { redirect := true, link := true } }))
        (fun u => u.host.p0.redirect && !u.host.p1.redirect && u.host.cmdRej)
    ∧ idle (.attachRestart 0 0xC1A4) (stby r) ∧ restartRefused r = true
    ∧ after (.attachRestart 0 0xC1A5) r (fun u => u.host.cmdRej && u.sec.boots == r.sec.boots)
    ∧ restartRefused (owed (stby r)) = false
    ∧ after (.attachRestart 40 0xC1A5) (owed { stby r with fault := (isoS [0x50, 0x105]).fault }) (fun u => !u.power.booted && u.sec.boots == (r.sec.boots + 1) % 256
        && u.sec.pgoodAt == 40 && u.fault.c0.pinLow && u.fault.c1.pinLow && u.fault.isolated == [0x50] && u.led.tickets.all (fun k => !ticketOpen k)) := by
  decide +kernel

/-- A farm position. -/
def farm (f : HostState → HostState) (s : State) : State :=
  { s with power := { s.power with position := 2 }, host := f s.host }
/-- A frame of the fault manager: kind and LEN, job, epoch, flags (R462, R463). -/
def fm (kind len job epoch flags : Nat) : List Byte :=
  p88Header kind len 0 0 0 ++ (if len = 0 then [] else leBytes 8 job ++ leBytes 4 epoch ++ leBytes 4 flags)
/-- A partner heartbeat with `n` entries of stream 3 at watermark 9 (R460). -/
def hbeat (n : Nat) : List Byte :=
  p88Header 1 (8 + 12 * n) 0 0 0 ++ leBytes 1 3 ++ leBytes 1 0 ++ leBytes 2 6 ++ leBytes 1 n ++ zeroBytes 3
    ++ (List.range n).flatMap (fun _ => leBytes 1 3 ++ zeroBytes 3 ++ leBytes 8 9)

theorem witness_PartnersHeartbeatAndLeasesFence :
    let on := fun (h : HostState) => ({ h with joined := true, jobId := 7, jobEpoch := 5, lastJob := 7 } : HostState)
    let held := fun (h : HostState) => ({ on h with leaseHeld := true } : HostState)
    let late := hs (fun h => { h with joined := true, peerAt := some 0 })
    idle (.heartbeatSend 0) r ∧ idle (.heartbeatSend 0) (farm id (eth3 r))
    ∧ (partnerPos (eth3 r) = true ∧ ethUp 3 (eth3 r) = true)
    ∧ after (.heartbeatSend 0) (eth3 r) (fun u => u.host.hbCtr == 1 && decide ((eport 3 u).sent.map (fun f => f.2.payload) = [heartbeatBytes (eth3 r)]))
    ∧ after (.heartbeatSend 0) { eth3 r with host := { r.host with eth := [(3, { link := true, gates := 0 })] } }
        (fun u => (eport 3 u).queued.length == 1 && (eport 3 u).sent.isEmpty)
    ∧ idle (.heartbeatRx 0 (hbeat 1)) r ∧ idle (.heartbeatRx 0 (hbeat 33)) (eth3 r) ∧ idle (.heartbeatRx 0 (0#8 :: (hbeat 1).drop 1)) (eth3 r)
    ∧ after (.heartbeatRx 40 (hbeat 32)) (eth3 r) (fun u => u.host.peerAt == some 40 && u.host.peerJepoch == 6 && u.host.peerState == 3
        && decide (tget {} 31 u.host.peerWm = { wm := 9, stream := 3, valid := true }))
    ∧ after (.heartbeatRx 0 (hbeat 0)) (eth3 r) (fun u => u.host.peerWm.all (fun e => !e.2.valid))
    ∧ after (.peerHeartbeatTimeout 3000000) late (fun u => u.host.peerLost && u.host.joined)
    ∧ after (.peerHeartbeatTimeout 2999999) late (fun u => !u.host.peerLost) ∧ idle (.peerHeartbeatTimeout 0) r
    ∧ idle (.beaconSend 0 1) r
    ∧ after (.beaconSend 0 1) (farm id r) (fun u => u.host.beaconCtrB == 1 && u.host.beaconCtrA == 0 && u.host.mgmtSent.map (·.2.length) == [70])
    ∧ after (.beaconSend 0 0) (farm id r) (fun u => u.host.beaconCtrA == 1 && u.host.beaconCtrB == 0)
    ∧ (mgmtMac 1 (farm id r) = 1 ∧ fmFrame 1 1 3 16 (fm 3 16 7 5 0) (farm on r) = true)
    ∧ fmFrame 1 2 3 16 (fm 3 16 7 5 0) (farm on r) = false ∧ idle (.lease 0 1 2 (fm 3 16 7 5 1)) (farm id r)
    ∧ after (.lease 40 1 1 (fm 3 16 7 5 0)) (farm on r) (fun u => u.host.leaseHeld && u.host.renewAt == 40)
    ∧ after (.lease 0 1 1 (fm 3 16 8 6 1)) (farm on r) (fun u => u.host.jobId == 8 && u.host.jobEpoch == 6)
    ∧ after (.lease 0 1 1 (fm 3 16 8 0 1)) (farm id r) (fun u => u.host.joined && u.host.jobId == 8)
    ∧ idle (.lease 0 1 1 (fm 3 16 8 6 0)) (farm on r) ∧ idle (.lease 0 1 1 (fm 3 16 7 4 0)) (farm on r) ∧ idle (.lease 0 1 1 (fm 3 16 7 5 0)) (farm id r)
    ∧ idle (.leaseExpire 0) (farm held r)
    ∧ leaseOver (advanceTo 2999999999 (farm held r)) = false ∧ leaseOver (advanceTo 3000000000 (farm held r)) = true
    ∧ after (.leaseExpire 3000000000) (farm held r) (fun u => u.power.fenced && u.host.fenceCause == 2 && !u.host.joined)
    ∧ after (.lease 3000000000 1 1 (fm 3 16 7 5 0)) (farm held r) (fun u => u.power.fenced && !u.host.leaseHeld)
    ∧ after (.leaseGrace 2000000000) (farm held r) (fun u => u.host.grace) ∧ after (.leaseGrace 1999999999) (farm held r) (fun u => !u.host.grace)
    ∧ idle (.leaseGrace 0) r
    ∧ after (.fenceFrame 0 1 1 (fm 4 16 7 0 0)) (farm on r) (fun u => u.power.fenced && u.host.fenceCause == 3)
    ∧ idle (.fenceFrame 0 1 1 (fm 4 16 8 0 0)) (farm on r) ∧ idle (.fenceFrame 0 1 1 (fm 4 16 7 0 0)) (farm (fun h => { h with jobId := 7 }) r)
    ∧ restartRefused (farm on { stby r with power := { (stby r).power with fenced := true } }) = false
    ∧ after (.restartFrame 0 1 1 (fm 6 16 7 0 0)) (farm on { stby r with power := { (stby r).power with fenced := true } })
        (fun u => !u.power.booted && !u.power.fenced && u.sec.boots == (r.sec.boots + 1) % 256)
    ∧ after (.restartFrame 0 1 1 (fm 6 16 7 0 0)) (farm on (pw (fun p => { p with fenced := true }))) (fun u => u.host.cmdRej && u.power.fenced)
    ∧ idle (.restartFrame 0 1 1 (fm 6 16 8 0 0)) (farm on (pw (fun p => { p with fenced := true })))
    ∧ idle (.wakeFrame 0 1 2 (fm 5 0 0 0 0)) (pw (fun p => { p with inRetain := true }))
    ∧ after (.wakeFrame 0 1 1 (fm 5 0 0 0 0)) (pw (fun p => { p with inRetain := true })) (fun u => u.power.retainExit && !u.power.inRetain)
    ∧ after (.wakeFrame 0 1 1 (fm 5 0 0 0 0)) (pw (fun p => { p with retainEntry := true })) (fun u => u.power.wakePend)
    ∧ idle (.wakeFrame 0 1 1 (fm 5 0 0 0 0)) r := by decide +kernel

/-! ### Tiling (R143 to R147, R126, R132): the worked example of the Oxbow camera stem -/

/-- A TENSOR stitch: format, role, flags, quantized axis, four extents from DIMS[0] on, scale tensor. -/
def shapeSt (id fmt role flags axis : Nat) (d : List Nat) (scaleT : Nat) : Stitch :=
  mkSt 4 1 id ([(1, fmt), (1, d.length), (1, role), (1, flags), (2, 0), (1, axis), (1, 0)]
    ++ (List.range 6).map (fun i => (4, d.getD i 1)) ++ [(4, 0x3F800000), (4, scaleT), (48, 0)])
/-- Layer `l`: a CONV2D with square kernel, stride and padding, bias, weights `10 l + 1`, bias `10 l + 2`, from tensor `i` to `j`. -/
def convSt (l i j kernel stride pad groups : Nat) : Stitch :=
  mkSt 5 1 l [(2, 0x0110), (1, 3), (1, 1), (2, 0), (2, 0), (4, 9), (4, i), (4, 10 * l + 1), (4, 10 * l + 2), (20, 2 ^ 160 - 1), (4, j),
    (12, 2 ^ 96 - 1), (2, 48), (2, 0), (1, 0), (1, 1), (14, 0), (1, kernel), (1, kernel), (1, stride), (1, stride), (1, 1), (1, 1), (1, 0),
    (1, 0), (1, pad), (1, pad), (1, pad), (1, pad), (4, groups), (16, 0)]
/-- Weights, INT32 bias and FP32 per-channel scales of layer `l`. -/
def constSts (l kernel ci co : Nat) : List Stitch :=
  [shapeSt (10 * l + 1) 2 1 2 3 [ci, kernel, kernel, co] (10 * l + 3), shapeSt (10 * l + 2) 3 1 0 0 [co] noneId,
   shapeSt (10 * l + 3) 11 1 0 0 [co] noneId]
/-- The four layers as one fused group. -/
def stem : Image := {
  patternId := 5, generation := 2
  stitches := [shapeSt 1 2 0 0 0 [4, 1920, 1080, 1] noneId, shapeSt 2 2 0 0 0 [32, 960, 540, 1] noneId,
    shapeSt 3 2 0 0 0 [32, 960, 540, 1] noneId, shapeSt 4 2 0 0 0 [64, 960, 540, 1] noneId, shapeSt 5 2 3 0 0 [64, 480, 270, 1] noneId]
    ++ constSts 1 3 4 32 ++ constSts 2 3 1 32 ++ constSts 3 1 32 64 ++ constSts 4 3 64 64
    ++ [convSt 1 1 2 3 2 1 1, convSt 2 2 3 3 1 1 32, convSt 3 3 4 1 1 0 1, convSt 4 4 5 3 2 1 1]
    ++ [edgeSt 1 1 2 2 0 0 0, edgeSt 2 2 3 3 0 0 0, edgeSt 3 3 4 4 0 0 0] }

/-- The tile is 15 × 15 on gloves with resident constants; the working sets at 15 and 16 are those of the table. -/
theorem test_stem_tile :
    (tilePlan stem stem.ops).t = 15 ∧ (tilePlan stem stem.ops).quad = false ∧ (tilePlan stem stem.ops).resident = true
    ∧ (tilePlan stem stem.ops).spilled = []
    ∧ workingSet stem false stem.ops true [] 15 = 233704 ∧ workingSet stem false stem.ops true [] 16 = 258728
    ∧ tileNeeds stem stem.ops 15 = [(5, 15, 15), (4, 31, 31), (3, 31, 31), (2, 33, 33), (1, 67, 67)] := by decide +kernel
/-- The arrays: dense 32 × 32, tap-diagonal 64 × 16 at 1,008 useful MACs per cycle, dense 16 × 64 twice. -/
theorem test_stem_arrays :
    stem.ops.map (fun o => (mapOf stem false o).map (fun m => (m.map, m.arr.rows, m.arr.cols, m.num / m.den)))
      = [some (1, 32, 32, 576), some (3, 64, 16, 1008), some (1, 16, 64, 1024), some (1, 16, 64, 1024)] := by decide +kernel

end Sys2Proof.Tests
end

/-!
SUPPORT. The proofs of the scope statements: accesses of BAR0, capabilities, the power stage, the start from full power loss, and
what every command leaves as it was.
-/

namespace Sys2Proof.Machine

/-! ### Accesses of BAR0 (R14, R467) -/

/-- A reserved offset of R467, or the word just below one: where a 64-bit register would have to begin to reach into it. -/
def NearReserved (b : Nat) : Prop :=
  (0x0006FFFC ≤ b ∧ b < 0x00080000) ∨ (0x000AFFFC ≤ b ∧ b < 0x000C0000) ∨ (0x000CFFFC ≤ b ∧ b < 0x000E0000)
    ∨ (0x000EFFFC ≤ b ∧ b < 0x00100000) ∨ (0x00210FFC ≤ b ∧ b < 0x00400000) ∨ (0x00453FFC ≤ b ∧ b < 0x00460000)
    ∨ (0x00463FFC ≤ b ∧ b < 0x00470000) ∨ 0x004703FC ≤ b

theorem nearReserved_of_reserved {off : Nat} (h : ReservedOffset off) : NearReserved off ∧ NearReserved (off - 4) := by
  unfold NearReserved
  rcases h with h | h | h | h | h | h | h | h <;> omega

/-- No 64-bit RW register begins there: the ETH blocks end with a word that is none of their ring bases. -/
theorem wideReg_nearReserved {b : Nat} (h : NearReserved b) : wideReg b = none := by
  have heth : ∀ e r, ethAt b = some (e, r) → ¬ (r = 0x300 ∨ r = 0x320) := by
    intro e r he
    unfold ethAt at he
    split at he
    · simp only [Option.some.injEq, Prod.mk.injEq] at he
      rcases h with h | h | h | h | h | h | h | h <;> omega
    · simp at he
  cases he : ethAt b with
  | none => rcases h with h | h | h | h | h | h | h | h <;> simp (disch := omega) only [wideReg, he, if_neg]
  | some x =>
    have hx := heth x.1 x.2 he
    rcases h with h | h | h | h | h | h | h | h <;> simp (disch := omega) only [wideReg, he, if_neg]

theorem wideRoLow_nearReserved {b : Nat} (s : State) (h : NearReserved b) : wideRoLow b s = none := by
  have hb : 0x0006FFFC ≤ b := by rcases h with h | h | h | h | h | h | h | h <;> omega
  simp (disch := omega) only [wideRoLow, if_neg]

/-- The CSI and ETH blocks end beyond their sensor records. -/
theorem sensAt_nearReserved {b : Nat} (s : State) (h : NearReserved b) : sensAt b s = none := by
  unfold sensAt
  dsimp only
  split
  · exact if_pos (by rcases h with h | h | h | h | h | h | h | h <;> omega)
  · split
    · exact if_pos (by rcases h with h | h | h | h | h | h | h | h <;> omega)
    · rfl

theorem fuseAt_nearReserved {b : Nat} (h : NearReserved b) : fuseAt b = none := by
  rcases h with h | h | h | h | h | h | h | h <;> simp (disch := omega) only [fuseAt, if_neg]

theorem wideRoMid_nearReserved {b : Nat} (s : State) (h : NearReserved b) : wideRoMid b s = none := by
  have hs := sensAt_nearReserved s h
  have hf := fuseAt_nearReserved h
  rcases h with h | h | h | h | h | h | h | h <;> simp (disch := omega) only [wideRoMid, hs, hf, if_neg]

theorem wideRoHigh_nearReserved {b : Nat} (s : State) (h : NearReserved b) : wideRoHigh b s = none := by
  rcases h with h | h | h | h | h | h | h | h <;> simp (disch := omega) only [wideRoHigh, if_neg]

/-- No 64-bit register begins there, read-only or RW. -/
theorem wideVal_nearReserved {b : Nat} (s : State) (h : NearReserved b) : wideVal b s = none := by
  simp only [wideVal, wideReg_nearReserved h, wideRoLow_nearReserved s h, wideRoMid_nearReserved s h, wideRoHigh_nearReserved s h, ite_self]

/-- A register that is no half of a 64-bit one is read from its block. -/
theorem read32_block (port : Nat) {off : Nat} (s : State) (hlat : off ≠ 0x00020004) (h0 : wideVal off s = none)
    (h4 : wideVal (off - 4) s = none) : read32 port off s = readBlock port off s := by
  simp only [read32, if_neg hlat, h0, h4]

/-- A reserved offset reads 0. -/
theorem read32_reserved (port : Nat) {off : Nat} (s : State) (h : ReservedOffset off) : read32 port off s = 0 := by
  obtain ⟨h0, h4⟩ := nearReserved_of_reserved h
  have hlat : off ≠ 0x00020004 := by rcases h with h | h | h | h | h | h | h | h <;> omega
  have hblock : readBlock port off s = 0 := by
    rcases h with h | h | h | h | h | h | h | h <;> simp (disch := omega) only [readBlock, if_neg, if_pos]
  rw [read32_block port s hlat (wideVal_nearReserved s h0) (wideVal_nearReserved s h4), hblock]

/-- A reserved offset ignores writes. -/
theorem write32_reserved (port : Nat) {off : Nat} (v : Nat) (s : State) (h : ReservedOffset off) : write32 port off v s = s := by
  obtain ⟨h0, h4⟩ := nearReserved_of_reserved h
  have hblock : writeBlock port off v s = s := by
    rcases h with h | h | h | h | h | h | h | h <;> simp (disch := omega) only [writeBlock, if_neg, if_pos]
  simp only [write32, wideReg_nearReserved h0, wideReg_nearReserved h4, hblock, ite_self]

theorem regWrite_32 (port : Nat) {off : Nat} (v : Nat) (s : State) (h : off % 4 = 0) :
    regWrite port off 32 v s = if !portUp port s ∨ 0x04000000 ≤ off then s else write32 port off (v % 2 ^ 32) s := by
  simp [regWrite, h]

theorem regWrite_64 (port : Nat) {off : Nat} (v : Nat) (s : State) (h : off % 8 = 0) (hup : portUp port s = true) (hlt : off < 0x04000000) :
    regWrite port off 64 v s = write64 port off (v % 2 ^ 64) s := by
  simp [regWrite, h, hup, Nat.not_le.mpr hlt]

/-- An access that is not a naturally aligned 32-bit or 64-bit one writes nothing. -/
theorem regWrite_unnatural (port v : Nat) {off size : Nat} (s : State) (h32 : ¬ (size = 32 ∧ off % 4 = 0)) (h64 : ¬ (size = 64 ∧ off % 8 = 0)) :
    regWrite port off size v s = s := by
  unfold regWrite
  rw [if_neg h32, if_neg h64, ite_self]

/-- The words that an access of `n` bytes at `off` touches: those from its first to its last byte. -/
theorem words_touched (off n : Nat) (hn : 0 < n) : (off % 4 + n + 3) / 4 = (off + n - 1) / 4 - off / 4 + 1 := by omega

theorem regRead_unnatural (port : Nat) {off size : Nat} (s : State) (h32 : ¬ (size = 32 ∧ off % 4 = 0)) (h64 : ¬ (size = 64 ∧ off % 8 = 0)) :
    regRead port off size s = (2 ^ (32 * ((off % 4 + (size + 7) / 8 + 3) / 4)) - 1, s) := by
  unfold regRead
  rw [if_neg h32, if_neg h64]

/-- Two 32-bit registers take the halves of a 64-bit write, the lower-addressed first. -/
theorem write64_pair (port v : Nat) {off : Nat} (s : State) (hb : offBlocked off s = false) (hw : wideReg off = none) :
    write64 port off (v % 2 ^ 64) s = write32 port (off + 4) (v / 2 ^ 32 % 2 ^ 32) (write32 port off (v % 2 ^ 32) s) := by
  have hhigh : v % 2 ^ 64 / 2 ^ 32 = v / 2 ^ 32 % 2 ^ 32 := by omega
  have hlow : v % 2 ^ 64 % 2 ^ 32 = v % 2 ^ 32 := by omega
  simp only [write64, hb, hw, hhigh, hlow, Bool.false_eq_true, if_false]

end Sys2Proof.Machine

namespace Sys2Proof

open Sys2Proof.Machine

/-- Settles O7: each of the four clauses is the lemma about its kind of access. -/
theorem unalignedAndUnimplementedAccessesOfRegisters : Obligations.UnalignedAndUnimplementedAccessesOfRegisters := by
  refine ⟨fun p off size s hsize h32 h64 => ?_, fun p off s hres h4 => ?_, fun t p off v s h8 hlt hup hb hw => ?_, fun p off s h8 hw => ?_⟩
  · rw [regRead_unnatural p s h32 h64]
    exact ⟨rfl, by rw [words_touched off _ (by omega)],
      fun t v => congrArg Host.Outcome.next (regWrite_unnatural p v (advanceTo t s) h32 h64)⟩
  · refine ⟨by simp [regRead, h4, read32_reserved p s hres], fun t v => congrArg Host.Outcome.next ?_⟩
    rw [regWrite_32 p v _ h4, write32_reserved p _ _ hres, ite_self]
  · exact congrArg Host.Outcome.next ((regWrite_64 p v _ h8 hup hlt).trans (write64_pair p v _ hb hw))
  · simp [regRead, h8, read64, hw]

end Sys2Proof

namespace Sys2Proof.Machine

/-! ### Capabilities and availability (R4) -/

/-- The three capability registers are constants of the model: no state enters their value. -/
theorem read32_capability (port : Nat) {off : Nat} (s u : State) (h : off = 0x08 ∨ off = 0x0C ∨ off = 0x10) :
    read32 port off s = read32 port off u := by
  have hw : ∀ z, wideVal off z = none ∧ wideVal (off - 4) z = none := by
    rcases h with rfl | rfl | rfl <;> exact fun _ => ⟨rfl, rfl⟩
  have hlat : off ≠ 0x00020004 := by omega
  rw [read32_block port s hlat (hw s).1 (hw s).2, read32_block port u hlat (hw u).1 (hw u).2]
  rcases h with rfl | rfl | rfl <;> simp [readBlock, readMod]

/-- A glove of a quad that is not available reads STATE = ISOLATED, whatever its world. -/
theorem readGlove_isolated (g : Nat) (s : State) (h : quadAvail (g / 4) s = false) : readGlove g 0 s % 8 = 5 := by
  have hcode : gloveCode g s = 5 := by simp [gloveCode, h]
  have hflg : ∀ n b, flg n b = b2n b * 2 ^ n := by intro n b; cases b <;> rfl
  simp only [readGlove, hideFor, hcode, hflg, fld, if_true]
  split <;> omega

theorem wideVal_gloveState (g : Nat) (s : State) (hg : g < 1344) :
    wideVal (0x00400000 + g * 0x100) s = none ∧ wideVal (0x00400000 + g * 0x100 - 4) s = none := by
  constructor <;>
    simp (disch := omega) only [wideVal, wideReg, ethAt, wideRoHigh, if_neg]

theorem read32_gloveState (port g : Nat) (s : State) (hg : g < 1344) : read32 port (0x00400000 + g * 0x100) s = readGlove g 0 s := by
  obtain ⟨h0, h4⟩ := wideVal_gloveState g s hg
  rw [read32_block port s (by omega) h0 h4]
  have hi : (0x00400000 + g * 0x100 - 0x00400000) / 0x100 = g := by omega
  have hr : (0x00400000 + g * 0x100) % 0x100 = 0 := by omega
  simp (disch := omega) only [readBlock, if_neg, if_pos, hi, hr]

theorem bitSet_succ (n : Nat) (p : Nat → Bool) : bitSet (n + 1) p = bitSet n p + if p n then 2 ^ n else 0 := by
  unfold bitSet
  rw [List.range_succ, List.filter_append, List.foldl_append, List.filter_cons, List.filter_nil]
  cases p n <;> rfl

theorem bitSet_lt (n : Nat) (p : Nat → Bool) : bitSet n p < 2 ^ n := by
  induction n with
  | zero => exact Nat.two_pow_pos 0
  | succ n ih =>
    rw [bitSet_succ, Nat.pow_succ]
    split <;> omega

/-- A bit of a set is its predicate. -/
theorem bit_bitSet {n i : Nat} (p : Nat → Bool) (hi : i < n) : bit (bitSet n p) i = p i := by
  have hdef : ∀ v, bit v i = v.testBit i := fun v => by rw [Nat.testBit_eq_decide_div_mod_eq]; rfl
  rw [hdef]
  induction n with
  | zero => omega
  | succ n ih =>
    have hlt := bitSet_lt n p
    rw [bitSet_succ]
    rcases Nat.lt_succ_iff_lt_or_eq.mp hi with hlow | rfl
    · cases p n with
      | false => exact ih hlow
      | true => rw [if_pos rfl, Nat.add_comm, Nat.testBit_two_pow_add_gt hlow, ih hlow]
    · cases h : p i with
      | false => exact Nat.testBit_lt_two_pow hlt
      | true => rw [if_pos rfl, Nat.add_comm, Nat.testBit_two_pow_add_eq, Nat.testBit_lt_two_pow hlt]; rfl

theorem read32_quadAvail (port k : Nat) (s : State) (hk : k < 11) :
    read32 port (0x00040080 + k * 4) s = bitSet 32 (fun i => decide (32 * k + i < Config.quads) && quadAvail (32 * k + i) s) := by
  have hw : wideVal (0x00040080 + k * 4) s = none ∧ wideVal (0x00040080 + k * 4 - 4) s = none := by
    constructor <;> simp (disch := omega) only [wideVal, wideReg, ethAt, wideRoLow, if_neg, if_pos]
  rw [read32_block port s (by omega) hw.1 hw.2]
  have hi : (0x00040080 + k * 4 - 0x00040000 - 0x80) / 4 = k := by omega
  simp (disch := omega) only [readBlock, readPattern, if_neg, if_pos, hi]

end Sys2Proof.Machine

namespace Sys2Proof

open Sys2Proof.Machine

/-- Settles O6: the capability registers hold no state, the glove array and PATTERN_QAVAIL follow the isolations. -/
theorem capabilitiesStayAsBuilt : Obligations.CapabilitiesStayAsBuilt := by
  intro p s
  refine ⟨read32_capability p s _ (.inl rfl), read32_capability p s _ (.inr (.inl rfl)), read32_capability p s _ (.inr (.inr rfl)), fun g hg hq => ⟨?_, ?_⟩⟩
  · rw [read32_gloveState p g s hg, readGlove_isolated g s hq]
  · rw [read32_quadAvail p (g / 4 / 32) s (by omega), bit_bitSet _ (by omega), Nat.div_add_mod, hq, Bool.and_false]

end Sys2Proof

namespace Sys2Proof.Machine

/-! ### Full power loss (R8, R31, R33) -/

theorem settle_prev (s : State) (h : s.power.st ≠ modStateOf s) : (settle s).power.prev = s.power.st := by
  unfold settle
  rw [if_neg (fun he => h he.symm)]

/-- The module is in OFF and keeps what needs no power: PREV_STATE, JEPOCH and its copies, the key stores, seed and OWNER_SET. -/
def OffFrom (s u : State) : Prop :=
  u.power.on = false ∧ u.power.st = .off ∧ (s.power.st ≠ .off → u.power.prev = s.power.st)
    ∧ u.power.aon0 = false ∧ u.power.aon1 = false ∧ u.power.pgood = false
    ∧ u.power.jepoch = s.power.jepoch ∧ u.power.jepochA = s.power.jepochA ∧ u.power.jepochB = s.power.jepochB
    ∧ u.sec.storeA = s.sec.storeA ∧ u.sec.storeB = s.sec.storeB ∧ u.sec.seed = s.sec.seed ∧ u.sec.ownerSet = s.sec.ownerSet

/-- Turning the stage off loses all power, and the module state follows. -/
theorem turnOff_power (s : State) : ∃ a b, (turnOff s).power = { (powerLost s).power with st := a, prev := b } := by
  obtain ⟨a, b, h⟩ := settle_eq (powerLost s)
  exact ⟨a, b, by rw [turnOff, h]⟩

theorem powerLost_st (s : State) : modStateOf (powerLost s) = .off ∧ (powerLost s).power.st = s.power.st := by
  obtain ⟨fa, fb, habort, -⟩ := abortFlash_spec s
  exact ⟨by simp [modStateOf, powerLost], by simp [powerLost, habort]⟩

theorem turnOff_offFrom (s : State) : OffFrom s (turnOff s) := by
  obtain ⟨fa, fb, habort, -⟩ := abortFlash_spec s
  obtain ⟨hoff, hst⟩ := powerLost_st s
  obtain ⟨a, b, hu⟩ := turnOff_power s
  have hprev : s.power.st ≠ .off → (turnOff s).power.prev = s.power.st := fun h => by
    rw [turnOff, settle_prev _ (by rw [hoff, hst]; exact h), hst]
  have hsec : (turnOff s).sec = (powerLost s).sec := settle_sec _
  refine ⟨by simp [hu, powerLost], (settle_st _).trans hoff, hprev, ?_⟩
  simp [hu, hsec, powerLost, habort]

theorem turnOff_pwrEn (s : State) : (turnOff s).power.pwrEn = s.power.pwrEn := by
  obtain ⟨fa, fb, habort, -⟩ := abortFlash_spec s
  obtain ⟨a, b, hu⟩ := turnOff_power s
  simp [hu, powerLost, habort]

theorem turnOff_prsnt (s : State) : (turnOff s).power.prsnt = s.power.prsnt := by
  obtain ⟨fa, fb, habort, -⟩ := abortFlash_spec s
  obtain ⟨a, b, hu⟩ := turnOff_power s
  simp [hu, powerLost, habort]

/-- A stage that is on and whose input is out of its limits for longer than they allow turns off. -/
theorem inputUnder_eq (mv ns : Nat) (s : State) (hon : s.power.on = true) :
    inputUnder mv ns s = if mv < 33000 ∧ 50000 < ns then turnOff (vinSeen mv s) else vinSeen mv s := by
  simp [inputUnder, vinSeen, hon]

theorem inputOver_eq (mv ns : Nat) (s : State) (hon : s.power.on = true) :
    inputOver mv ns s = if 63000 < mv ∧ 50000 < ns then turnOff (vinSeen mv s) else vinSeen mv s := by
  simp [inputOver, vinSeen, hon]

theorem pwrEnLow_eq (ns : Nat) (s : State) (hon : s.power.on = true) :
    pwrEnLow ns s = let v := { s with power := { s.power with pwrEn := false } }; if 100000 < ns then turnOff v else v := by
  simp [pwrEnLow, hon]

theorem presenceLoss_eq (s : State) (hon : s.power.on = true) :
    presenceLoss s = turnOff { s with power := { s.power with prsnt := false } } := by
  simp [presenceLoss, hon]

end Sys2Proof.Machine

namespace Sys2Proof

open Sys2Proof.Machine

/-- Settles O9: each command turns off what it has seen of the input, or keeps just that. -/
theorem powerStageTurnsOffAtItsLimits : Obligations.PowerStageTurnsOffAtItsLimits := by
  intro t mv ns s hon held off
  have hon' : (advanceTo t s).power.on = true := by rw [advanceTo_power]; exact hon
  have hseen : vinSeen mv (advanceTo t s) = held := by simp only [vinSeen, advanceTo_power, held]
  have hoff : ∀ v : State, v.power.st = s.power.st → v.power.jepoch = s.power.jepoch → v.power.jepochA = s.power.jepochA →
      v.power.jepochB = s.power.jepochB → v.sec = s.sec → off (turnOff v) := by
    intro v h1 h2 h3 h4 h5
    have := turnOff_offFrom v
    simp only [OffFrom, h1, h2, h3, h4, h5] at this
    exact this
  have hheld : off (turnOff held) := hoff held rfl rfl rfl rfl (advanceTo_sec t s)
  refine ⟨fun hmv hns => ⟨turnOff held, ?_, hheld⟩, fun hmv hns => ⟨turnOff held, ?_, hheld⟩, fun hns => ?_, ?_, fun h => ?_, fun h => ?_, fun hns => ?_⟩
  · exact congrArg Host.Outcome.next (by rw [inputUnder_eq _ _ _ hon', if_pos ⟨hmv, hns⟩, hseen])
  · exact congrArg Host.Outcome.next (by rw [inputOver_eq _ _ _ hon', if_pos ⟨hmv, hns⟩, hseen])
  · refine ⟨_, congrArg Host.Outcome.next ((pwrEnLow_eq ns _ hon').trans (if_pos hns)), hoff _ ?_ ?_ ?_ ?_ ?_, turnOff_pwrEn _⟩ <;> simp
  · refine ⟨_, congrArg Host.Outcome.next (presenceLoss_eq _ hon'), hoff _ ?_ ?_ ?_ ?_ ?_, turnOff_prsnt _⟩ <;> simp
  · exact congrArg Host.Outcome.next (by rw [inputUnder_eq _ _ _ hon', if_neg (by omega), hseen])
  · exact congrArg Host.Outcome.next (by rw [inputOver_eq _ _ _ hon', if_neg (by omega), hseen])
  · exact congrArg Host.Outcome.next (by rw [pwrEnLow_eq _ _ hon']; simp only [if_neg (Nat.not_lt.mpr hns), advanceTo_power])

end Sys2Proof

namespace Sys2Proof.Machine

/-! ### The start from full power loss (R8, R30, R31, R439, R440) -/

theorem modStateOf_boot (s : State) (hon : s.power.on = true) (haon : s.power.aon0 = true) (hsafe : s.power.safe = false)
    (hfenced : s.power.fenced = false) (hbooted : s.power.booted = false) : modStateOf s = .boot := by
  simp [modStateOf, hon, haon, hsafe, hfenced, hbooted]

theorem enterBoot_pinsLow (s : State) : PinsLow (enterBoot s) := by
  unfold enterBoot
  dsimp only
  generalize hv : endJoin _ = v
  have hpins : PinsLow v := by rw [← hv]; exact ⟨rfl, rfl⟩
  obtain ⟨m0, a0, b0, h0⟩ := traceEv_eq 0 0xE4 1 (settle v).power.jepoch (settle v)
  obtain ⟨m1, a1, b1, h1⟩ := traceEv_eq 1 0xE4 1 (settle v).power.jepoch (traceEv 0 0xE4 1 (settle v).power.jepoch (settle v))
  rw [h1, h0]
  simpa [PinsLow] using hpins

/-- Of the power block, entry to BOOT changes the flags of R390's rows, and the state by them. -/
theorem enterBoot_settles (s : State) :
    ∃ v, (enterBoot s).power = (settle v).power ∧ v.power = { s.power with
      booted := false, trained := false, fenced := false, safe := false, fastStopped := false
      inRetain := false, retainEntry := false, retainExit := false, wakePend := false } := by
  unfold enterBoot
  dsimp only
  generalize hv : endJoin _ = v
  obtain ⟨m0, a0, b0, h0⟩ := traceEv_eq 0 0xE4 1 (settle v).power.jepoch (settle v)
  obtain ⟨m1, a1, b1, h1⟩ := traceEv_eq 1 0xE4 1 (settle v).power.jepoch (traceEv 0 0xE4 1 (settle v).power.jepoch (settle v))
  rw [h1, h0]
  exact ⟨v, rfl, by rw [← hv]; rfl⟩

/-- What entry to BOOT leaves as it was in the power block. -/
theorem enterBoot_power (s : State) :
    (enterBoot s).power.position = s.power.position ∧ (enterBoot s).power.pgood = s.power.pgood
      ∧ (enterBoot s).power.aon0 = s.power.aon0 ∧ (enterBoot s).power.aon1 = s.power.aon1
      ∧ (enterBoot s).power.jepoch = s.power.jepoch ∧ (enterBoot s).power.jepochA = s.power.jepochA
      ∧ (enterBoot s).power.jepochB = s.power.jepochB := by
  obtain ⟨v, hu, hv⟩ := enterBoot_settles s
  obtain ⟨a, b, hs⟩ := settle_eq v
  rw [hu, hs, hv]
  exact ⟨rfl, rfl, rfl, rfl, rfl, rfl, rfl⟩

/-- A powered module is in BOOT, with the state before as PREV_STATE. -/
theorem enterBoot_st (s : State) (hon : s.power.on = true) (haon : s.power.aon0 = true) :
    (enterBoot s).power.st = .boot ∧ (s.power.st ≠ .boot → (enterBoot s).power.prev = s.power.st) := by
  obtain ⟨v, hu, hv⟩ := enterBoot_settles s
  have hboot : modStateOf v = .boot := modStateOf_boot v (by rw [hv]; exact hon) (by rw [hv]; exact haon)
    (by rw [hv]) (by rw [hv]) (by rw [hv])
  rw [hu, settle_st, hboot]
  refine ⟨rfl, fun h => ?_⟩
  rw [settle_prev v (by rw [hboot, hv]; exact h), hv]

/-! A stop of start-up (R440). -/

theorem stopStart_pinsLow (code : Nat) (s : State) : PinsLow (stopStart code s) := ⟨rfl, rfl⟩
@[simp] theorem stopStart_stopped (code : Nat) (s : State) : (stopStart code s).sec.stopped = true := rfl
@[simp] theorem stopStart_code (code : Nat) (s : State) : (stopStart code s).sec.code = code := rfl
@[simp] theorem stopStart_power (code : Nat) (s : State) : (stopStart code s).power = s.power := rfl
@[simp] theorem fsrc_stopStart (code id : Nat) (s : State) : fsrc id (stopStart code s) = fsrc id s := rfl
@[simp] theorem latchBoth_power (i d : Nat) (s : State) : (latchBoth i d s).power = s.power := rfl

/-- Both collectors latch the index, with the detail given. -/
theorem fsrc_latchBoth (i d : Nat) (s : State) :
    (fsrc i (latchBoth i d s)).latched = true ∧ (fsrc (0x400 + i) (latchBoth i d s)).latched = true
      ∧ (fsrc i (latchBoth i d s)).detail = d ∧ (fsrc (0x400 + i) (latchBoth i d s)).detail = d := by
  obtain ⟨h0, h1⟩ := latchBoth_latched i d s
  exact ⟨h0, h1, by simp [latchBoth, fsrc_latch_ne d (latch i d s) (show i ≠ 0x400 + i by omega)], by simp [latchBoth]⟩

/-- The module with every rail up and the straps sampled; JEPOCH and its copies take a raised value where there is one. -/
def railsUp (raised : Option Nat) (s : State) : State :=
  { s with power := { s.power with
      pgood := true, main0 := true, main1 := true, aon0 := true, aon1 := true, position := s.power.strapPins % 4
      jepoch := raised.getD s.power.jepoch, jepochA := raised.or s.power.jepochA, jepochB := raised.or s.power.jepochB } }

/-- With no copy left, straps of 0b11 stop the start first, and the lack of a copy stops it else. -/
theorem coldStart_none (s : State) (h : oldJepoch s.power.jepochA s.power.jepochB = none) :
    coldStart s = if s.power.strapPins % 4 = 3 then stopStart 0x01 (latchBoth 0x1BC 0 (enterBoot (railsUp none s)))
      else stopStart 0x0A (enterBoot (railsUp none s)) := by
  unfold coldStart
  rw [h]
  rfl

theorem coldStart_some (s : State) {j : Nat} (h : oldJepoch s.power.jepochA s.power.jepochB = some j) :
    coldStart s = if s.power.strapPins % 4 = 3 then stopStart 0x01 (latchBoth 0x1BC 0 (enterBoot (railsUp (some ((j + 1) % 65536)) s)))
      else enterBoot (railsUp (some ((j + 1) % 65536)) s) := by
  have key : ∀ w, w = railsUp (some ((j + 1) % 65536)) s →
      (if (enterBoot w).power.position = 3 then stopStart 0x01 (latchBoth 0x1BC 0 (enterBoot w)) else enterBoot w)
        = if s.power.strapPins % 4 = 3 then stopStart 0x01 (latchBoth 0x1BC 0 (enterBoot w)) else enterBoot w := by
    rintro w rfl
    rw [(enterBoot_power _).1]
    rfl
  unfold coldStart
  rw [h]
  exact key _ rfl

/-- A start, stopped or not, leaves the power block as entry to BOOT does, and both pins low. -/
theorem coldStart_power (s : State) :
    PinsLow (coldStart s) ∧ (coldStart s).power
      = (enterBoot (railsUp ((oldJepoch s.power.jepochA s.power.jepochB).map (fun j => (j + 1) % 65536)) s)).power := by
  cases h : oldJepoch s.power.jepochA s.power.jepochB with
  | none =>
    rw [coldStart_none s h, Option.map_none]
    split
    · exact ⟨stopStart_pinsLow _ _, by rw [stopStart_power, latchBoth_power]⟩
    · exact ⟨stopStart_pinsLow _ _, by rw [stopStart_power]⟩
  | some j =>
    rw [coldStart_some s h, Option.map_some]
    split
    · exact ⟨stopStart_pinsLow _ _, by rw [stopStart_power, latchBoth_power]⟩
    · exact ⟨enterBoot_pinsLow _, rfl⟩

theorem coldStart_straps (s : State) (h : s.power.strapPins % 4 = 3) :
    ∃ v, coldStart s = stopStart 0x01 (latchBoth 0x1BC 0 v) := by
  cases hold : oldJepoch s.power.jepochA s.power.jepochB with
  | none => exact ⟨_, (coldStart_none s hold).trans (if_pos h)⟩
  | some j => exact ⟨_, (coldStart_some s hold).trans (if_pos h)⟩

/-- The old JEPOCH by its two copies (R8). -/
theorem oldJepoch_eq_some {a b : Option Nat} {v : Nat}
    (h : (a = some v ∧ b = some v) ∨ (a = some v ∧ b = none) ∨ (a = none ∧ b = some v)
      ∨ (∃ w, v = (w + 1) % 65536 ∧ w ≠ (v + 1) % 65536 ∧ ((a = some w ∧ b = some v) ∨ (a = some v ∧ b = some w)))
      ∨ (∃ w, w < v ∧ v ≠ (w + 1) % 65536 ∧ w ≠ (v + 1) % 65536 ∧ ((a = some w ∧ b = some v) ∨ (a = some v ∧ b = some w)))) :
    oldJepoch a b = some v := by
  rcases h with ⟨rfl, rfl⟩ | ⟨rfl, rfl⟩ | ⟨rfl, rfl⟩ | ⟨w, hv, hw, ⟨rfl, rfl⟩ | ⟨rfl, rfl⟩⟩ | ⟨w, hlt, hv, hw, ⟨rfl, rfl⟩ | ⟨rfl, rfl⟩⟩
  · simp [oldJepoch]
  · rfl
  · rfl
  · simp only [oldJepoch, if_pos hv]
  · simp only [oldJepoch, if_neg hw, if_pos hv]
  · simp only [oldJepoch, if_neg hv, if_neg hw, Nat.max_eq_right (Nat.le_of_lt hlt)]
  · simp only [oldJepoch, if_neg hv, if_neg hw, Nat.max_eq_left (Nat.le_of_lt hlt)]

theorem inputQualified_start (mv : Nat) (s : State) (hmate : s.power.mate = 3) (hprsnt : s.power.prsnt = true) (hoff : s.power.on = false)
    (hlow : 36000 ≤ mv) (hhigh : mv ≤ 60000) :
    inputQualified mv s = { s with power := { s.power with on := true, pwrEn := true, biasHeld := true } } := by
  simp [inputQualified, hmate, hprsnt, hoff, hlow, hhigh]

theorem pgoodRelease_start (s : State) (hon : s.power.on = true) (hpgood : s.power.pgood = false) (h0 : s.power.aon0 = false)
    (h1 : s.power.aon1 = false) : pgoodRelease s = coldStart s := by
  simp [pgoodRelease, hon, hpgood, h0, h1]

end Sys2Proof.Machine

namespace Sys2Proof

open Sys2Proof.Machine

/-- Settles O10: the start is one entry to BOOT of the module with its rails up, which a stop may follow. -/
theorem startFromFullPowerLossRaisesJepoch : Obligations.StartFromFullPowerLossRaisesJepoch := by
  refine ⟨fun t mv s hmate hprsnt hoff hlow hhigh => ?_, fun t s hon hpgood h0 h1 => ?_⟩
  · refine ⟨_, congrArg Host.Outcome.next (inputQualified_start mv (advanceTo t s) ?_ ?_ ?_ hlow hhigh), rfl, ?_⟩ <;>
      simp only [advanceTo_power, hmate, hprsnt, hoff]
  · have hp := advanceTo_power t s
    have hexec : Machine.exec (.pgoodRelease t) s = .next (coldStart (advanceTo t s)) :=
      congrArg Host.Outcome.next (pgoodRelease_start _ (by rw [hp, hon]) (by rw [hp, hpgood]) (by rw [hp, h0]) (by rw [hp, h1]))
    generalize advanceTo t s = w at hp hexec
    rw [← hp] at hon ⊢
    obtain ⟨hpins, hpower⟩ := coldStart_power w
    generalize hr : (oldJepoch w.power.jepochA w.power.jepochB).map (fun j => (j + 1) % 65536) = raised at hpower
    obtain ⟨hst, hprev⟩ := enterBoot_st (railsUp raised w) hon rfl
    obtain ⟨hpos, hpg, ha0, ha1, hj, hjA, hjB⟩ := enterBoot_power (railsUp raised w)
    refine ⟨_, hexec, ?_⟩
    rw [hpower]
    refine ⟨hpg, ha0, ha1, hst, hprev, hpos, hpins, fun v hv => ?_, fun hnone => ?_, fun h3 => ?_⟩
    · rw [oldJepoch_eq_some hv] at hr
      rw [hj, hjA, hjB, ← hr]
      exact ⟨rfl, rfl, rfl⟩
    · have hold : oldJepoch w.power.jepochA w.power.jepochB = none := by rw [hnone.1, hnone.2]; rfl
      rw [hold] at hr
      rw [hj, ← hr, coldStart_none w hold]
      exact ⟨by split <;> rw [stopStart_stopped], rfl, fun h3 => by rw [if_neg h3, stopStart_code]⟩
    · obtain ⟨v, hv⟩ := coldStart_straps w h3
      rw [hv, stopStart_stopped, stopStart_code, fsrc_stopStart, fsrc_stopStart]
      exact ⟨rfl, rfl, fsrc_latchBoth 0x1BC 0 v⟩

end Sys2Proof

namespace Sys2Proof.Machine

/-- What outlasts every operation but a few named ones: the waiting commands, the clock, JEPOCH with its two copies (R8), the
identity seed (R433) and OWNER_SET (R425). -/
structure Lasting where
  pending : List Instr
  now : Nat
  jepoch : Nat
  jepochA : Option Nat
  jepochB : Option Nat
  seed : List Byte
  ownerSet : Bool

/-- Of a state, what outlasts an operation. Its lemmas stand under `simp ↓`: a call is skipped before `simp` enters its arguments. -/
def lasting (s : State) : Lasting :=
  ⟨s.pending, s.time.now, s.power.jepoch, s.power.jepochA, s.power.jepochB, s.sec.seed, s.sec.ownerSet⟩

/-- A record update that keeps those fields. -/
@[simp ↓] theorem lasting_update {s : State} {t : TimeState} {p : PowerState} {c f l pt fb d h i lo se x sc pl}
    (ht : t.now = s.time.now) (hj : p.jepoch = s.power.jepoch) (hA : p.jepochA = s.power.jepochA) (hB : p.jepochB = s.power.jepochB)
    (hs : x.seed = s.sec.seed) (ho : x.ownerSet = s.sec.ownerSet) :
    lasting ⟨s.pending, t, p, c, f, l, pt, fb, d, h, i, lo, se, x, sc, pl⟩ = lasting s := by
  simp only [lasting, ht, hj, hA, hB, hs, ho]

@[simp ↓] theorem lasting_ite (c : Prop) [Decidable c] (a b : State) :
    lasting (if c then a else b) = if c then lasting a else lasting b := by split <;> rfl

@[simp ↓] theorem lasting_foldl {α : Type} (f : State → α → State) (hf : ∀ s a, lasting (f s a) = lasting s) (l : List α) (s : State) :
    lasting (l.foldl f s) = lasting s := by
  induction l generalizing s with
  | nil => rfl
  | cons a r ih => rw [List.foldl_cons, ih, hf]

end Sys2Proof.Machine

namespace Sys2Proof.Machine

/-! #### Machine/Ops -/

@[simp ↓] theorem lasting_modChan (ch f s) : lasting (modChan ch f s) = lasting s := by simp [modChan]
@[simp ↓] theorem lasting_setQueued (a b s) : lasting (setQueued a b s) = lasting s := by simp [setQueued]
@[simp ↓] theorem lasting_devWr8 (a b s) : lasting (devWr8 a b s) = lasting s := by simp [devWr8]
@[simp ↓] theorem lasting_devWr (a bs s) : lasting (devWr a bs s) = lasting s := by
  induction bs generalizing a s with
  | nil => rfl
  | cons b r ih => simp [devWr, ih]

@[simp ↓] theorem lasting_setTrace (d u s) : lasting (setTrace d u s) = lasting s := by simp [setTrace]
@[simp ↓] theorem lasting_tracePut (d src kind data s) : lasting (tracePut d src kind data s) = lasting s := by simp [tracePut]
@[simp ↓] theorem lasting_traceEv (d src kind data s) : lasting (traceEv d src kind data s) = lasting s := by simp [traceEv]
@[simp ↓] theorem lasting_modPort (p f s) : lasting (modPort p f s) = lasting s := by simp [modPort]
@[simp ↓] theorem lasting_hostWr (p a bs s) : lasting (hostWr p a bs s) = lasting s := by simp [hostWr]
@[simp ↓] theorem lasting_sendVec (p v s) : lasting (sendVec p v s) = lasting s := by simp [sendVec]
@[simp ↓] theorem lasting_attachVec (s) : lasting (attachVec s) = lasting s := by simp [attachVec]
@[simp ↓] theorem lasting_modEth (e f s) : lasting (modEth e f s) = lasting s := by simp [modEth]
@[simp ↓] theorem lasting_pushTxts (e x s) : lasting (pushTxts e x s) = lasting s := by simp [pushTxts]
@[simp ↓] theorem lasting_ethEmit (e f o s) : lasting (ethEmit e f o s) = lasting s := by unfold ethEmit; split <;> simp
@[simp ↓] theorem lasting_dropWaiting (e o s) : lasting (dropWaiting e o s) = lasting s := by unfold dropWaiting; split <;> simp
@[simp ↓] theorem lasting_ethSend (e tc f o s) : lasting (ethSend e tc f o s) = lasting s := by simp [ethSend]
@[simp ↓] theorem lasting_ethDrainClass (e tc n s) : lasting (ethDrainClass e tc n s) = lasting s := by fun_induction ethDrainClass <;> simp [*]
@[simp ↓] theorem lasting_ethDrain (e s) : lasting (ethDrain e s) = lasting s := lasting_foldl _ (fun _ _ => lasting_ethDrainClass _ _ _ _) _ _
@[simp ↓] theorem lasting_modSrc (id f s) : lasting (modSrc id f s) = lasting s := by simp [modSrc]
@[simp ↓] theorem lasting_latch (id detail s) : lasting (latch id detail s) = lasting s := by simp [latch]
@[simp ↓] theorem lasting_latchBoth (idx detail s) : lasting (latchBoth idx detail s) = lasting s := by simp [latchBoth]
@[simp ↓] theorem lasting_latchWrite (half off s) : lasting (latchWrite half off s) = lasting s := by simp [latchWrite]
@[simp ↓] theorem lasting_rwWrite {busy act : State → State} (hb : ∀ z, lasting (busy z) = lasting z)
    (ha : ∀ z, lasting (act z) = lasting z) (idle off s) : lasting (rwWrite idle off busy act s) = lasting s := by simp [rwWrite, hb, ha]

@[simp ↓] theorem lasting_drawFree (s) : lasting (drawFree s).2 = lasting s := by simp [drawFree]

/-! #### Machine/ModState -/

@[simp ↓] theorem lasting_settle (s) : lasting (settle s) = lasting s := by simp [settle]

/-! #### Machine/LedgerOps -/

@[simp ↓] theorem lasting_modStrm (n f s) : lasting (modStrm n f s) = lasting s := by simp [modStrm]
@[simp ↓] theorem lasting_setTickets (ts s) : lasting (setTickets ts s) = lasting s := by simp [setTickets]
@[simp ↓] theorem lasting_mapTickets (f s) : lasting (mapTickets f s) = lasting s := by simp [mapTickets]
@[simp ↓] theorem lasting_modTicket (st q f s) : lasting (modTicket st q f s) = lasting s := by simp [modTicket]
@[simp ↓] theorem lasting_watchPush (st miss s) : lasting (watchPush st miss s) = lasting s := by simp [watchPush]
@[simp ↓] theorem lasting_watchEnd (k s) : lasting (watchEnd k s) = lasting s := by unfold watchEnd; split <;> simp
@[simp ↓] theorem lasting_voidWhere (p cause part quad detail s) : lasting (voidWhere p cause part quad detail s) = lasting s := by simp [voidWhere]
@[simp ↓] theorem lasting_voidTags (tags cause part quad detail s) : lasting (voidTags tags cause part quad detail s) = lasting s := by simp [voidTags]
@[simp ↓] theorem lasting_voidAll (cause part s) : lasting (voidAll cause part s) = lasting s := by simp [voidAll]
@[simp ↓] theorem lasting_voidStream (st cause part quad s) : lasting (voidStream st cause part quad s) = lasting s := by simp [voidStream]
@[simp ↓] theorem lasting_disableStream (st cause part quad s) : lasting (disableStream st cause part quad s) = lasting s := by simp [disableStream]
@[simp ↓] theorem lasting_disableStreams (sts cause part quad s) : lasting (disableStreams sts cause part quad s) = lasting s := by simp [disableStreams]
@[simp ↓] theorem lasting_writeReceipt (seq stmp verdict st s) : lasting (writeReceipt seq stmp verdict st s) = lasting s := by simp [writeReceipt]
@[simp ↓] theorem lasting_acceptTicket (w bs land sealed s) : lasting (acceptTicket w bs land sealed s) = lasting s := by simp [acceptTicket]
@[simp ↓] theorem lasting_ackTicket (st q s) : lasting (ackTicket st q s) = lasting s := by unfold ackTicket; split <;> simp
@[simp ↓] theorem lasting_endTicket (st q s) : lasting (endTicket st q s) = lasting s := by simp [endTicket]
@[simp ↓] theorem lasting_signalOutcome (st isVoid s) : lasting (signalOutcome st isVoid s) = lasting s := by simp [signalOutcome]
@[simp ↓] theorem lasting_deliverOutcome (k s) : lasting (deliverOutcome k s) = lasting s := by simp [deliverOutcome]
@[simp ↓] theorem lasting_modEdge (e f s) : lasting (modEdge e f s) = lasting s := by simp [modEdge]
@[simp ↓] theorem lasting_sendToken (e tk s) : lasting (sendToken e tk s) = lasting s := by simp [sendToken]

/-! #### Machine/Image -/

@[simp ↓] theorem lasting_modMitten (m f s) : lasting (modMitten m f s) = lasting s := by simp [modMitten]
@[simp ↓] theorem lasting_mapMittens (f s) : lasting (mapMittens f s) = lasting s := by simp [mapMittens]
@[simp ↓] theorem lasting_takeArriving (e s) : lasting (takeArriving e s) = lasting s := by simp [takeArriving]
@[simp ↓] theorem lasting_offerToken (e tk s) : lasting (offerToken e tk s) = lasting s := by simp [offerToken]

/-! #### Machine/Fault -/

@[simp ↓] theorem lasting_modColl (c f s) : lasting (modColl c f s) = lasting s := by simp [modColl]
@[simp ↓] theorem lasting_copyRec (r s) : lasting (copyRec r s) = lasting s := by simp [copyRec]
@[simp ↓] theorem lasting_writeRec (c r s) : lasting (writeRec c r s) = lasting s := by simp [writeRec]
@[simp ↓] theorem lasting_faultVec (s) : lasting (faultVec s) = lasting s := by simp [faultVec]
@[simp ↓] theorem lasting_askSafe (id cause s) : lasting (askSafe id cause s) = lasting s := by simp [askSafe]
@[simp ↓] theorem lasting_completeSrc (id action s) : lasting (completeSrc id action s) = lasting s := by simp [completeSrc]
@[simp ↓] theorem lasting_expireSrc (id s) : lasting (expireSrc id s) = lasting s := by simp [expireSrc]
@[simp ↓] theorem lasting_actMajor (id grave s) : lasting (actMajor id grave s) = lasting s := by simp [actMajor]
@[simp ↓] theorem lasting_recognize (grave id s) : lasting (recognize grave id s) = lasting s := by simp [recognize]
@[simp ↓] theorem lasting_recognizeAll (c s) : lasting (recognizeAll c s) = lasting s := by simp [recognizeAll]
@[simp ↓] theorem lasting_lineBroken (id s) : lasting (lineBroken id s) = lasting s := by simp [lineBroken]
@[simp ↓] theorem lasting_timerExpire (id s) : lasting (timerExpire id s) = lasting s := by simp [timerExpire]
@[simp ↓] theorem lasting_fwAck (id s) : lasting (fwAck id s) = lasting s := by simp [fwAck]
@[simp ↓] theorem lasting_fwIsolate (id part s) : lasting (fwIsolate id part s) = lasting s := by simp [fwIsolate]
@[simp ↓] theorem lasting_dropIso (part s) : lasting (dropIso part s) = lasting s := by simp [dropIso]
@[simp ↓] theorem lasting_isoUnconfirmed (part s) : lasting (isoUnconfirmed part s) = lasting s := by
  unfold isoUnconfirmed
  repeat' split
  all_goals simp

@[simp ↓] theorem lasting_collectorParity (c s) : lasting (collectorParity c s) = lasting s := by
  unfold collectorParity
  repeat' split
  all_goals simp

/-! #### Machine/Loop -/

@[simp ↓] theorem lasting_modLoop (n f s) : lasting (modLoop n f s) = lasting s := by simp [modLoop]
@[simp ↓] theorem lasting_sendFrame (n st steps s) : lasting (sendFrame n st steps s) = lasting s := by unfold sendFrame; dsimp only; split <;> simp
@[simp ↓] theorem lasting_loopTrace (n o s) : lasting (loopTrace n o s) = lasting s := by simp [loopTrace]
@[simp ↓] theorem lasting_safeFrame (n s) : lasting (safeFrame n s) = lasting s := by simp [safeFrame]
@[simp ↓] theorem lasting_enterSafe (n s) : lasting (enterSafe n s) = lasting s := by simp [enterSafe]
@[simp ↓] theorem lasting_slotSafe (n s) : lasting (slotSafe n s) = lasting s := (lasting_foldl _ (fun a k => by split <;> simp) _ _).trans (lasting_enterSafe n s)
@[simp ↓] theorem lasting_safeOutAll (s) : lasting (safeOutAll s) = lasting s := by simp [safeOutAll]
@[simp ↓] theorem lasting_trigger (n st s) : lasting (trigger n st s) = lasting s := by simp [trigger]
@[simp ↓] theorem lasting_loopTimer (n s) : lasting (loopTimer n s) = lasting s := by fun_cases loopTimer <;> simp
@[simp ↓] theorem lasting_loopWatchdog (n s) : lasting (loopWatchdog n s) = lasting s := by simp [loopWatchdog]
@[simp ↓] theorem lasting_loopSample1 (id arrival payload n s) : lasting (loopSample1 id arrival payload n s) = lasting s := by simp [loopSample1]
@[simp ↓] theorem lasting_loopSample (id arrival payload s) : lasting (loopSample id arrival payload s) = lasting s := by simp [loopSample]
@[simp ↓] theorem lasting_setpointToken (e s) : lasting (setpointToken e s) = lasting s := by unfold setpointToken; split <;> simp
@[simp ↓] theorem lasting_feedbackToken (e s) : lasting (feedbackToken e s) = lasting s := by unfold feedbackToken; split <;> simp
@[simp ↓] theorem lasting_setpointStale (n s) : lasting (setpointStale n s) = lasting s := by simp [setpointStale]
@[simp ↓] theorem lasting_loopReq (n r s) : lasting (loopReq n r s) = lasting s := by simp [loopReq]
@[simp ↓] theorem lasting_loopHostReq (n r s) : lasting (loopHostReq n r s) = lasting s := by simp [loopHostReq]
@[simp ↓] theorem lasting_loopMan (n j v s) : lasting (loopMan n j v s) = lasting s := by simp [loopMan]
@[simp ↓] theorem lasting_applyReq (n s) : lasting (applyReq n s) = lasting s := by
  unfold applyReq
  dsimp only
  repeat' split
  all_goals simp

@[simp ↓] theorem lasting_raiseResidual (n s) : lasting (raiseResidual n s) = lasting s := by simp [raiseResidual]
@[simp ↓] theorem lasting_countEval (n s) : lasting (countEval n s) = lasting s := by simp [countEval]
@[simp ↓] theorem lasting_evaluate (n st was s) : lasting (evaluate n st was s) = lasting s := by simp [evaluate]
@[simp ↓] theorem lasting_loopEval (n s) : lasting (loopEval n s) = lasting s := by
  unfold loopEval
  dsimp only
  repeat' split
  all_goals simp

@[simp ↓] theorem lasting_loopRecompute (n ok s) : lasting (loopRecompute n ok s) = lasting s := by simp [loopRecompute]
@[simp ↓] theorem lasting_modGates (e f s) : lasting (modGates e f s) = lasting s := by simp [modGates]
@[simp ↓] theorem lasting_gateEntry (e i s) : lasting (gateEntry e i s) = lasting s := by unfold gateEntry; dsimp only; split <;> simp
@[simp ↓] theorem lasting_adminBase (e base cycle l s) : lasting (adminBase e base cycle l s) = lasting s := by simp [adminBase]

/-! #### Machine/Start -/

@[simp ↓] theorem lasting_modIsland (i f s) : lasting (modIsland i f s) = lasting s := by simp [modIsland]
@[simp ↓] theorem lasting_modFlash (i f s) : lasting (modFlash i f s) = lasting s := by simp [modFlash]
@[simp ↓] theorem lasting_abortFlash (s) : lasting (abortFlash s) = lasting s := by unfold abortFlash; split <;> simp
@[simp ↓] theorem lasting_powerLost (s0) : lasting (powerLost s0) = lasting s0 := by simp [powerLost]
@[simp ↓] theorem lasting_turnOff (s) : lasting (turnOff s) = lasting s := by simp [turnOff]
@[simp ↓] theorem lasting_resetHalves (s) : lasting (resetHalves s) = lasting s := by simp [resetHalves]
@[simp ↓] theorem lasting_endJoin (s) : lasting (endJoin s) = lasting s := by simp [endJoin]
@[simp ↓] theorem lasting_enterBoot (s) : lasting (enterBoot s) = lasting s := by simp [enterBoot]
@[simp ↓] theorem lasting_assertPins (s) : lasting (assertPins s) = lasting s := by simp [assertPins]
@[simp ↓] theorem lasting_stopStart (code s) : lasting (stopStart code s) = lasting s := by simp [stopStart]
@[simp ↓] theorem lasting_bootDone (s) : lasting (bootDone s) = lasting s := by simp [bootDone]
@[simp ↓] theorem lasting_restart (s) : lasting (restart s) = lasting s := by simp [restart]
@[simp ↓] theorem lasting_fence (cause s) : lasting (fence cause s) = lasting s := by simp [fence]
@[simp ↓] theorem lasting_wake (s) : lasting (wake s) = lasting s := by simp [wake]

/-! #### Machine/FabricOps -/

@[simp ↓] theorem lasting_freeFiring (f s) : lasting (freeFiring f s) = lasting s := by simp [freeFiring]
@[simp ↓] theorem lasting_abandonFiring (free m s) : lasting (abandonFiring free m s) = lasting s := by unfold abandonFiring; split <;> simp
@[simp ↓] theorem lasting_voidFiring (free m cause part quad detail s) : lasting (voidFiring free m cause part quad detail s) = lasting s := by simp [voidFiring]
@[simp ↓] theorem lasting_setStateTensor (id bs s) : lasting (setStateTensor id bs s) = lasting s := by simp [setStateTensor]
@[simp ↓] theorem lasting_resetStateTensor (id s) : lasting (resetStateTensor id s) = lasting s := by simp [resetStateTensor]
@[simp ↓] theorem lasting_resetEdge (e part quad s) : lasting (resetEdge e part quad s) = lasting s := by simp [resetEdge]
@[simp ↓] theorem lasting_resetLostStates (old part s) : lasting (resetLostStates old part s) = lasting s := by simp [resetLostStates]
@[simp ↓] theorem lasting_modScene (m f s) : lasting (modScene m f s) = lasting s := by simp [modScene]
@[simp ↓] theorem lasting_loseScenes (old changed part s) : lasting (loseScenes old changed part s) = lasting s := by simp [loseScenes]
@[simp ↓] theorem lasting_startDrains (old new s) : lasting (startDrains old new s) = lasting s := by simp [startDrains]
@[simp ↓] theorem lasting_switchFit (new part s) : lasting (switchFit new part s) = lasting s := by
  unfold switchFit
  simp only [lasting_startDrains, lasting_update, lasting_mapMittens]
  refine (lasting_foldl _ (fun a m => ?_) _ _).trans ?_
  · split <;> simp
  · simp

/-! #### Machine/Time -/

@[simp ↓] theorem lasting_setRate (r s) : lasting (setRate r s) = lasting s := by simp [setRate]
@[simp ↓] theorem lasting_rateWrite (v s) : lasting (rateWrite v s) = lasting s := by simp [rateWrite]
@[simp ↓] theorem lasting_judgeStep (s) : lasting (judgeStep s) = lasting s := by simp [judgeStep]
@[simp ↓] theorem lasting_timeStepRequest (s) : lasting (timeStepRequest s) = lasting s := by simp [timeStepRequest]
@[simp ↓] theorem lasting_stepEvents (die d s) : lasting (stepEvents die d s) = lasting s := by simp [stepEvents]
@[simp ↓] theorem lasting_stepBlocks (die d s0 s) : lasting (stepBlocks die d s0 s) = lasting s := by simp [stepBlocks]
@[simp ↓] theorem lasting_stepDie (die d s) : lasting (stepDie die d s) = lasting s := by simp [stepDie]
@[simp ↓] theorem lasting_applyStep (d ok s) : lasting (applyStep d ok s) = lasting s := by simp [applyStep]
@[simp ↓] theorem lasting_takeStep (ok s) : lasting (takeStep ok s) = lasting s := by simp [takeStep]
@[simp ↓] theorem lasting_exchangeOk (trim s) : lasting (exchangeOk trim s) = lasting s := by unfold exchangeOk; split <;> simp
@[simp ↓] theorem lasting_exchangeFail (s) : lasting (exchangeFail s) = lasting s := by simp [exchangeFail]
@[simp ↓] theorem lasting_alignmentExchange (ok trim s) : lasting (alignmentExchange ok trim s) = lasting s := by simp [alignmentExchange]
@[simp ↓] theorem lasting_setAgent (n s) : lasting (setAgent n s) = lasting s := by simp [setAgent]
@[simp ↓] theorem lasting_dropExchange (s) : lasting (dropExchange s) = lasting s := by simp [dropExchange]
@[simp ↓] theorem lasting_timeAgentWrite (on s) : lasting (timeAgentWrite on s) = lasting s := by simp [timeAgentWrite]
@[simp ↓] theorem lasting_gptpSync (e q two s) : lasting (gptpSync e q two s) = lasting s := by simp [gptpSync]
@[simp ↓] theorem lasting_agentJudge (off s) : lasting (agentJudge off s) = lasting s := by unfold agentJudge; split <;> simp
@[simp ↓] theorem lasting_agentSteer (gm loc s) : lasting (agentSteer gm loc s) = lasting s := by simp [agentSteer]
@[simp ↓] theorem lasting_gptpFollowUp (e q origin s) : lasting (gptpFollowUp e q origin s) = lasting s := by
  unfold gptpFollowUp
  repeat' split
  all_goals simp

@[simp ↓] theorem lasting_pdelayReqSend (s) : lasting (pdelayReqSend s) = lasting s := by simp [pdelayReqSend]
@[simp ↓] theorem lasting_pdelayReqRx (e q s) : lasting (pdelayReqRx e q s) = lasting s := by simp [pdelayReqRx]
@[simp ↓] theorem lasting_pdelayRespRx (e q fu v s) : lasting (pdelayRespRx e q fu v s) = lasting s := by fun_cases pdelayRespRx <;> simp
@[simp ↓] theorem lasting_announceRx (e ident prio s) : lasting (announceRx e ident prio s) = lasting s := by simp [announceRx]
@[simp ↓] theorem lasting_syncTimeout (s) : lasting (syncTimeout s) = lasting s := by unfold syncTimeout; split <;> simp
@[simp ↓] theorem lasting_ppsInEdge (s) : lasting (ppsInEdge s) = lasting s := by simp [ppsInEdge]
@[simp ↓] theorem lasting_ppsOutRise (s) : lasting (ppsOutRise s) = lasting s := by simp [ppsOutRise]
@[simp ↓] theorem lasting_ppsOutFall (s) : lasting (ppsOutFall s) = lasting s := by simp [ppsOutFall]
@[simp ↓] theorem lasting_txtsPop (e v s) : lasting (txtsPop e v s) = lasting s := by simp [txtsPop]
@[simp ↓] theorem lasting_timeCfgBusy (s) : lasting (timeCfgBusy s) = lasting s := by simp [timeCfgBusy]
@[simp ↓] theorem lasting_traceCopyGo (d v s) : lasting (traceCopyGo d v s) = lasting s := by simp [traceCopyGo]
@[simp ↓] theorem lasting_traceCopyDone (d s) : lasting (traceCopyDone d s) = lasting s := by simp [traceCopyDone]

/-! #### Machine/HostPath -/

@[simp ↓] theorem lasting_hostRx (e f s) : lasting (hostRx e f s) = lasting s := by simp [hostRx]
@[simp ↓] theorem lasting_hostTx (e n s) : lasting (hostTx e n s) = lasting s := by
  induction n generalizing s with
  | zero => rfl
  | succ n ih => simp [hostTx, ih]

@[simp ↓] theorem lasting_hostServe (e s) : lasting (hostServe e s) = lasting s := by simp [hostServe]
@[simp ↓] theorem lasting_ethTxProduce (e prod s) : lasting (ethTxProduce e prod s) = lasting s := by simp [ethTxProduce]
@[simp ↓] theorem lasting_modEvt (d f s) : lasting (modEvt d f s) = lasting s := by simp [modEvt]
@[simp ↓] theorem lasting_fuseEvt (d kind g a b fseq st detail stream s) : lasting (fuseEvt d kind g a b fseq st detail stream s) = lasting s := by simp [fuseEvt]

/-! #### Machine/FuseOps -/

@[simp ↓] theorem lasting_modSens (n f s) : lasting (modSens n f s) = lasting s := by simp [modSens]
@[simp ↓] theorem lasting_modGroup (g f s) : lasting (modGroup g f s) = lasting s := by simp [modGroup]
@[simp ↓] theorem lasting_offerSample (n p s) : lasting (offerSample n p s) = lasting s := by simp [offerSample]
@[simp ↓] theorem lasting_lateGroup (n p gi s) : lasting (lateGroup n p gi s) = lasting s := lasting_foldl _ (fun a m => by dsimp only; split <;> simp) _ _
@[simp ↓] theorem lasting_completeSample (n p payload s) : lasting (completeSample n p payload s) = lasting s := by simp [completeSample]
@[simp ↓] theorem lasting_discardSample (n seq s) : lasting (discardSample n seq s) = lasting s := by simp [discardSample]
@[simp ↓] theorem lasting_beginSample (n st s) : lasting (beginSample n st s).2 = lasting s := by unfold beginSample; split <;> simp

/-! #### Machine/Sense -/

@[simp ↓] theorem lasting_modCsi (p f s) : lasting (modCsi p f s) = lasting s := by simp [modCsi]
@[simp ↓] theorem lasting_csiStart (n s) : lasting (csiStart n s) = lasting s := by simp [csiStart]
@[simp ↓] theorem lasting_csiLine (n dt px crcOk s) : lasting (csiLine n dt px crcOk s) = lasting s := by simp [csiLine]
@[simp ↓] theorem lasting_csiEnd (n s) : lasting (csiEnd n s) = lasting s := by unfold csiEnd; split <;> simp
@[simp ↓] theorem lasting_csiPacket (p k s) : lasting (csiPacket p k s) = lasting s := by
  unfold csiPacket
  repeat' split
  all_goals simp

@[simp ↓] theorem lasting_csiPacketRx (p corrected k s) : lasting (csiPacketRx p corrected k s) = lasting s := by simp [csiPacketRx]
@[simp ↓] theorem lasting_csiLinkLost (p s) : lasting (csiLinkLost p s) = lasting s := by simp [csiLinkLost]
@[simp ↓] theorem lasting_flowSample (n st full s) : lasting (flowSample n st full s) = lasting s := by
  unfold flowSample
  dsimp only
  split
  all_goals
    next h => simpa using (congrArg (fun r => lasting r.2) h).symm

@[simp ↓] theorem lasting_ethFrameRx (e f s) : lasting (ethFrameRx e f s) = lasting s := by fun_cases ethFrameRx <;> simp
@[simp ↓] theorem lasting_streamStall (n s) : lasting (streamStall n s) = lasting s := by simp [streamStall]
@[simp ↓] theorem lasting_ethLinkDown (e s) : lasting (ethLinkDown e s) = lasting s := by simp [ethLinkDown]
@[simp ↓] theorem lasting_ethLinkUp (e fast s) : lasting (ethLinkUp e fast s) = lasting s := by simp [ethLinkUp]

/-! #### Machine/Fuse -/

@[simp ↓] theorem lasting_openSlot (g k t s) : lasting (openSlot g k t s) = lasting s := by simp [openSlot]
@[simp ↓] theorem lasting_decideSlot (g fseq forced s) : lasting (decideSlot g fseq forced s) = lasting s := by
  unfold decideSlot
  dsimp only
  repeat' split
  all_goals simp

@[simp ↓] theorem lasting_memberDecide (g fseq i s) : lasting (memberDecide g fseq i s) = lasting s := by
  unfold memberDecide
  repeat' split
  all_goals simp

@[simp ↓] theorem lasting_slotWaitLimit (g fseq s) : lasting (slotWaitLimit g fseq s) = lasting s := by unfold slotWaitLimit; split <;> simp
@[simp ↓] theorem lasting_slotOpen (g s) : lasting (slotOpen g s) = lasting s := by
  unfold slotOpen
  dsimp only
  repeat' split
  all_goals simp

@[simp ↓] theorem lasting_projectionDone (g fseq s) : lasting (projectionDone g fseq s) = lasting s := by simp [projectionDone]
@[simp ↓] theorem lasting_projectionRecompute (unit ok s) : lasting (projectionRecompute unit ok s) = lasting s := by simp [projectionRecompute]
@[simp ↓] theorem lasting_penalize (g fseq i s) : lasting (penalize g fseq i s) = lasting s := by simp [penalize]
@[simp ↓] theorem lasting_conflictPair (g kind fseq a b detail s) : lasting (conflictPair g kind fseq a b detail s) = lasting s := by simp [conflictPair]
@[simp ↓] theorem lasting_blockMember (g i s) : lasting (blockMember g i s) = lasting s := by simp [blockMember]
@[simp ↓] theorem lasting_judgeConflicts (g s) : lasting (judgeConflicts g s) = lasting s := by simp [judgeConflicts]
@[simp ↓] theorem lasting_reportConflicts (g kind fseq cs s) : lasting (reportConflicts g kind fseq cs s) = lasting s := by simp [reportConflicts]
@[simp ↓] theorem lasting_slotEmit (g fseq s) : lasting (slotEmit g fseq s) = lasting s := by
  unfold slotEmit
  dsimp only
  split
  · rfl
  · rw [lasting_ite, lasting_judgeConflicts]
    split
    · rfl
    · split
      · rw [lasting_modGroup]
        exact lasting_foldl _ (fun a e => by split <;> simp) _ _
      · rw [lasting_ite, lasting_openSlot, lasting_modGroup, lasting_modGroup, ite_self]
        exact lasting_foldl _ (fun a e => by split <;> simp) _ _

@[simp ↓] theorem lasting_conflictSummary (e s) : lasting (conflictSummary e s) = lasting s := by unfold conflictSummary; split <;> simp
@[simp ↓] theorem lasting_emitTable (g deg s) : lasting (emitTable g deg s) = lasting s := by simp [emitTable]
@[simp ↓] theorem lasting_processList (g fseq bs s) : lasting (processList g fseq bs s) = lasting s := by simp [processList]
@[simp ↓] theorem lasting_detectionList (e s) : lasting (detectionList e s) = lasting s := by unfold detectionList; split <;> simp
@[simp ↓] theorem lasting_groupMove (g s) : lasting (groupMove g s) = lasting s := by simp [groupMove]
@[simp ↓] theorem lasting_unblockMember (g i s) : lasting (unblockMember g i s) = lasting s := by simp [unblockMember]

/-! #### Machine/Ddr -/

@[simp ↓] theorem lasting_ringError (n seq s) : lasting (ringError n seq s) = lasting s := by simp [ringError]
@[simp ↓] theorem lasting_losePage (mem slot s) : lasting (losePage mem slot s) = lasting s := by simp [losePage]
@[simp ↓] theorem lasting_errorResponse (w line cause part s) : lasting (errorResponse w line cause part s) = lasting s := by unfold errorResponse; split <;> simp
@[simp ↓] theorem lasting_refuse (a write w s) : lasting (refuse a write w s) = lasting s := by unfold refuse; split <;> simp
@[simp ↓] theorem lasting_modWrites (ch f s) : lasting (modWrites ch f s) = lasting s := by simp [modWrites]
@[simp ↓] theorem lasting_enterRead (ch line w secure s) : lasting (enterRead ch line w secure s) = lasting s := by unfold enterRead; split <;> simp
@[simp ↓] theorem lasting_enterWrite (ch line bs w secure s) : lasting (enterWrite ch line bs w secure s) = lasting s := by simp [enterWrite]
@[simp ↓] theorem lasting_ddrEnter (a write w secure s) : lasting (ddrEnter a write w secure s) = lasting s := by fun_cases ddrEnter <;> simp
@[simp ↓] theorem lasting_issueWrite (ch b w s) : lasting (issueWrite ch b w s) = lasting s := by simp [issueWrite]
@[simp ↓] theorem lasting_commandIssue (ch ready s) : lasting (commandIssue ch ready s) = lasting s := by fun_cases commandIssue <;> simp
@[simp ↓] theorem lasting_ddrLog (ch line kind syms req errs s) : lasting (ddrLog ch line kind syms req errs s) = lasting s := by simp [ddrLog]
@[simp ↓] theorem lasting_ddrRaise (ch off line errs s) : lasting (ddrRaise ch off line errs s) = lasting s := by simp [ddrRaise]
@[simp ↓] theorem lasting_countCe (ch line req errs s) : lasting (countCe ch line req errs s) = lasting s := by simp [countCe]
@[simp ↓] theorem lasting_xorLine (ch line mask s) : lasting (xorLine ch line mask s) = lasting s := by simp [xorLine]
@[simp ↓] theorem lasting_countUe (ch s) : lasting (countUe ch s) = lasting s := by simp [countUe]
@[simp ↓] theorem lasting_requeueWaiters (ch line s) : lasting (requeueWaiters ch line s) = lasting s := by unfold requeueWaiters; split <;> simp
@[simp ↓] theorem lasting_decodeMerge (ch r errs s) : lasting (decodeMerge ch r errs s) = lasting s := by unfold decodeMerge; split <;> simp
@[simp ↓] theorem lasting_decodeDemand (ch r errs s) : lasting (decodeDemand ch r errs s) = lasting s := by unfold decodeDemand; split <;> simp
@[simp ↓] theorem lasting_readDecode (ch errs s) : lasting (readDecode ch errs s) = lasting s := by
  unfold readDecode
  dsimp only
  repeat' split
  all_goals simp

@[simp ↓] theorem lasting_scrubNext (ch s) : lasting (scrubNext ch s) = lasting s := by simp [scrubNext]
@[simp ↓] theorem lasting_scrubRead (ch errs s) : lasting (scrubRead ch errs s) = lasting s := by
  unfold scrubRead
  dsimp only
  repeat' split
  all_goals simp

@[simp ↓] theorem lasting_caParity (ch back s) : lasting (caParity ch back s) = lasting s := by simp [caParity]
@[simp ↓] theorem lasting_writeCrc (ch line s) : lasting (writeCrc ch line s) = lasting s := by unfold writeCrc; split <;> simp
@[simp ↓] theorem lasting_controllerParity (ch s) : lasting (controllerParity ch s) = lasting s := by simp [controllerParity]
@[simp ↓] theorem lasting_refreshDue (ch s) : lasting (refreshDue ch s) = lasting s := by simp [refreshDue]
@[simp ↓] theorem lasting_refreshWatchdog (ch s) : lasting (refreshWatchdog ch s) = lasting s := by simp [refreshWatchdog]
@[simp ↓] theorem lasting_tempRead (ch deg s) : lasting (tempRead ch deg s) = lasting s := by simp [tempRead]
@[simp ↓] theorem lasting_zqcs (ch s) : lasting (zqcs ch s) = lasting s := by simp [zqcs]
@[simp ↓] theorem lasting_powerDown (ch s) : lasting (powerDown ch s) = lasting s := by simp [powerDown]
@[simp ↓] theorem lasting_selfRefresh (ch s) : lasting (selfRefresh ch s) = lasting s := by simp [selfRefresh]
@[simp ↓] theorem lasting_trainingDone (ch ok seeds step device us s) : lasting (trainingDone ch ok seeds step device us s) = lasting s := by simp [trainingDone]
@[simp ↓] theorem lasting_isolateChannel (ch s) : lasting (isolateChannel ch s) = lasting s := by simp [isolateChannel]

/-! #### Machine/Attach -/

@[simp ↓] theorem lasting_failReads (p src flight s) : lasting (failReads p src flight s) = lasting s := by simp [failReads]
@[simp ↓] theorem lasting_flushRecord (s) : lasting (flushRecord s) = lasting s := by simp [flushRecord]
@[simp ↓] theorem lasting_linkUp (p s) : lasting (linkUp p s) = lasting s := by simp [linkUp]
@[simp ↓] theorem lasting_goDown (p orderly flight s) : lasting (goDown p orderly flight s) = lasting s := by simp [goDown]
@[simp ↓] theorem lasting_rewriteRing (st s) : lasting (rewriteRing st s) = lasting s := by simp [rewriteRing]
@[simp ↓] theorem lasting_failover (p s) : lasting (failover p s) = lasting s := by simp [failover]
@[simp ↓] theorem lasting_cmdRej (s) : lasting (cmdRej s) = lasting s := by simp [cmdRej]
@[simp ↓] theorem lasting_unredirect (s) : lasting (unredirect s) = lasting s := by simp [unredirect]
@[simp ↓] theorem lasting_perstAssert (p flight s) : lasting (perstAssert p flight s) = lasting s := by simp [perstAssert]
@[simp ↓] theorem lasting_perstDeassert (p s) : lasting (perstDeassert p s) = lasting s := by simp [perstDeassert]
@[simp ↓] theorem lasting_d3Entry (p flight s) : lasting (d3Entry p flight s) = lasting s := by simp [d3Entry]
@[simp ↓] theorem lasting_d3Exit (p s) : lasting (d3Exit p s) = lasting s := by simp [d3Exit]
@[simp ↓] theorem lasting_readCompletion (p who status s) : lasting (readCompletion p who status s) = lasting s := by simp [readCompletion]
@[simp ↓] theorem lasting_completionTimeout (p who s) : lasting (completionTimeout p who s) = lasting s := by simp [completionTimeout]
@[simp ↓] theorem lasting_msixUnmask (p v s) : lasting (msixUnmask p v s) = lasting s := by simp [msixUnmask]
@[simp ↓] theorem lasting_lineWrite (a bs line s) : lasting (lineWrite a bs line s) = lasting s := by simp [lineWrite]
@[simp ↓] theorem lasting_hostRead (p a len s) : lasting (hostRead p a len s) = lasting s := by unfold hostRead; dsimp only; split <;> simp
@[simp ↓] theorem lasting_bar2Access (p off write len ok s) : lasting (bar2Access p off write len ok s) = lasting s := by fun_cases bar2Access <;> simp
@[simp ↓] theorem lasting_quiesce (s) : lasting (quiesce s) = lasting s := by simp [quiesce]
@[simp ↓] theorem lasting_quiesceLimit (s) : lasting (quiesceLimit s) = lasting s := by simp [quiesceLimit]
@[simp ↓] theorem lasting_quiesceComplete (s) : lasting (quiesceComplete s) = lasting s := by simp [quiesceComplete]
@[simp ↓] theorem lasting_resume (s) : lasting (resume s) = lasting s := by simp [resume]
@[simp ↓] theorem lasting_join (s) : lasting (join s) = lasting s := by simp [join]
@[simp ↓] theorem lasting_restartRequest (s) : lasting (restartRequest s) = lasting s := by simp [restartRequest]
@[simp ↓] theorem lasting_attachRestart (key s) : lasting (attachRestart key s) = lasting s := by simp [attachRestart]

/-! #### Machine/Crown -/

@[simp ↓] theorem lasting_modCrown (f s) : lasting (modCrown f s) = lasting s := by simp [modCrown]
@[simp ↓] theorem lasting_crownLatch (idx s) : lasting (crownLatch idx s) = lasting s := by simp [crownLatch]
@[simp ↓] theorem lasting_retainRequest (s) : lasting (retainRequest s) = lasting s := by simp [retainRequest]
@[simp ↓] theorem lasting_pwrCtrlWrite (v s) : lasting (pwrCtrlWrite v s) = lasting s := by simp [pwrCtrlWrite]
@[simp ↓] theorem lasting_dropLink (p s) : lasting (dropLink p s) = lasting s := by simp [dropLink]
@[simp ↓] theorem lasting_lifeLogWrite (s) : lasting (lifeLogWrite s) = lasting s := by simp [lifeLogWrite]
@[simp ↓] theorem lasting_retainEntered (s) : lasting (retainEntered s) = lasting s := by simp [retainEntered]
@[simp ↓] theorem lasting_retainWakeStamp (s) : lasting (retainWakeStamp s) = lasting s := by simp [retainWakeStamp]
@[simp ↓] theorem lasting_backstop (s) : lasting (backstop s) = lasting s := by simp [backstop]
@[simp ↓] theorem lasting_powerSample (mw s) : lasting (powerSample mw s) = lasting s := by simp [powerSample]
@[simp ↓] theorem lasting_throttleUpdate (above forecast s) : lasting (throttleUpdate above forecast s) = lasting s := by simp [throttleUpdate]
@[simp ↓] theorem lasting_coolTrack (s) : lasting (coolTrack s) = lasting s := by simp [coolTrack]
@[simp ↓] theorem lasting_coolCritical (s) : lasting (coolCritical s) = lasting s := by simp [coolCritical]
@[simp ↓] theorem lasting_coolQuiesced (s) : lasting (coolQuiesced s) = lasting s := by simp [coolQuiesced]
@[simp ↓] theorem lasting_coolExit (s) : lasting (coolExit s) = lasting s := by unfold coolExit; split <;> simp
@[simp ↓] theorem lasting_readPair (x s) : lasting (readPair x s) = lasting s := by simp [readPair]
@[simp ↓] theorem lasting_thermalRead (rs s) : lasting (thermalRead rs s) = lasting s := by
  unfold thermalRead
  dsimp only
  repeat' split
  all_goals simp

@[simp ↓] theorem lasting_shadowTakeover (s) : lasting (shadowTakeover s) = lasting s := by simp [shadowTakeover]
@[simp ↓] theorem lasting_trayRules (s) : lasting (trayRules s) = lasting s := by simp [trayRules]
@[simp ↓] theorem lasting_trayRead (ack bs s) : lasting (trayRead ack bs s) = lasting s := by simp [trayRead]
@[simp ↓] theorem lasting_trayWrite (ok s) : lasting (trayWrite ok s) = lasting s := by simp [trayWrite]
@[simp ↓] theorem lasting_trayStale (s) : lasting (trayStale s) = lasting s := by simp [trayStale]
@[simp ↓] theorem lasting_coolantLowClear (s) : lasting (coolantLowClear s) = lasting s := by unfold coolantLowClear; split <;> simp
@[simp ↓] theorem lasting_lifeMinute (s) : lasting (lifeMinute s) = lasting s := by simp [lifeMinute]
@[simp ↓] theorem lasting_ageingRead (k d s) : lasting (ageingRead k d s) = lasting s := by simp [ageingRead]
@[simp ↓] theorem lasting_restoreLife (s) : lasting (restoreLife s) = lasting s := by simp [restoreLife]
@[simp ↓] theorem lasting_readCal (s0) : lasting (readCal s0) = lasting s0 := by simp [readCal]
@[simp ↓] theorem lasting_crownCfgBusy (s) : lasting (crownCfgBusy s) = lasting s := by simp [crownCfgBusy]
@[simp ↓] theorem lasting_calWrite (v s) : lasting (calWrite v s) = lasting s := by simp [calWrite]
@[simp ↓] theorem lasting_calDone (ok s) : lasting (calDone ok s) = lasting s := by simp [calDone]

/-! #### Machine/Seal -/

@[simp ↓] theorem lasting_modStores (f s) : lasting (modStores f s) = lasting s := by simp [modStores]
@[simp ↓] theorem lasting_commitStores (f s) : lasting (commitStores f s) = lasting s := by simp [commitStores]
@[simp ↓] theorem lasting_takeCounter (n c s) : lasting (takeCounter n c s) = lasting s := by simp [takeCounter]
/-- A sealed command takes its counter and runs; a body that lasts leaves it so. -/
@[simp ↓] theorem lasting_sealedRun {f : List Byte → State → Answer} (hf : ∀ b z, lasting (f b z).2.2 = lasting z) (kind body m s) :
    lasting (sealedRun kind body m s f).2.2.2 = lasting s := by fun_cases sealedRun <;> simp [hf]

@[simp ↓] theorem lasting_plainRun {f : List Byte → State → Answer} (hf : ∀ b z, lasting (f b z).2.2 = lasting z) (body m s) :
    lasting (plainRun body m s f).2.2.2 = lasting s := by fun_cases plainRun <;> simp [hf]

/-! #### Machine/Boot -/

theorem lasting_of_mergeStores {s u : State} (h : mergeStores s = some u) : lasting u = lasting s := by
  unfold mergeStores at h
  simp only at h
  (repeat' split at h) <;> cases h <;> simp

@[simp ↓] theorem lasting_bootRom (s) : lasting (bootRom s) = lasting s := by
  unfold bootRom
  split
  · rfl
  · cases h : mergeStores s with
    | none => simp
    | some u => simp [lasting_of_mergeStores h]

@[simp ↓] theorem lasting_applyOwner (n bs s) : lasting (applyOwner n bs s) = lasting s := by simp [applyOwner]
@[simp ↓] theorem lasting_firmwareSelect (repairOk s) : lasting (firmwareSelect repairOk s) = lasting s := by
  unfold firmwareSelect
  repeat' split
  all_goals simp

@[simp ↓] theorem lasting_mgmtSend (i dst mtag bs s) : lasting (mgmtSend i dst mtag bs s) = lasting s := by simp [mgmtSend]
@[simp ↓] theorem lasting_mgmtAnswer (i g r) : lasting (mgmtAnswer i g r) = lasting r.2.2.2 := by simp [mgmtAnswer]
@[simp ↓] theorem lasting_mgmtComplete (i g s) : lasting (mgmtComplete i g s) = lasting s := by simp [mgmtComplete]
@[simp ↓] theorem lasting_mgmtFragment (i src dst bytes s) : lasting (mgmtFragment i src dst bytes s) = lasting s := by fun_cases mgmtFragment <;> simp
@[simp ↓] theorem lasting_mgmtTimeout (i s) : lasting (mgmtTimeout i s) = lasting s := by unfold mgmtTimeout; split <;> simp
@[simp ↓] theorem lasting_mgmtDo {f : List Byte → State → Option Seal × Answer} (hf : ∀ m z, lasting (f m z).2.2.2 = lasting z)
    (i cmd s) : lasting (mgmtDo i cmd s f) = lasting s := by fun_cases mgmtDo <;> simp [hf]

@[simp ↓] theorem lasting_mgmtIdentity (i s) : lasting (mgmtIdentity i s) = lasting s := by simp [mgmtIdentity]
@[simp ↓] theorem lasting_mgmtAttest (i s) : lasting (mgmtAttest i s) = lasting s := by simp [mgmtAttest]
/-- An enrolment may set OWNER_SET (R425); nothing else that lasts changes. -/
def Enrolled (z u : State) : Prop := lasting u = lasting z ∨ lasting u = { lasting z with ownerSet := true }

theorem enroll_enrolled (b z) : Enrolled z (enroll b z).2.2 := by
  have hset : ∀ y : State, lasting { y with sec := { y.sec with ownerSet := true } } = { lasting y with ownerSet := true } := fun _ => rfl
  unfold enroll Enrolled
  dsimp only
  (repeat' split) <;> simp [hset]

theorem plainRun_enrolled (body m z) : Enrolled z (plainRun body m z enroll).2.2.2 := by
  unfold plainRun
  split
  · exact .inl rfl
  · exact enroll_enrolled _ z

theorem sealedRun_enrolled (kind body m z) : Enrolled z (sealedRun kind body m z enroll).2.2.2 := by
  unfold sealedRun
  split
  · exact .inl rfl
  · simpa [Enrolled] using enroll_enrolled _ (takeCounter _ _ z)

theorem mgmtEnroll_enrolled (i s) : Enrolled s (mgmtEnroll i s) := by
  unfold mgmtEnroll mgmtDo
  split
  · exact .inl rfl
  · split
    · unfold Enrolled
      rw [lasting_mgmtAnswer]
      dsimp only
      split
      · exact plainRun_enrolled _ _ _
      · exact sealedRun_enrolled _ _ _ _
    · exact .inl rfl

@[simp ↓] theorem lasting_revoke (b s) : lasting (revoke b s).2.2 = lasting s := by unfold revoke; dsimp only; split <;> simp
@[simp ↓] theorem lasting_mgmtRevoke (i s) : lasting (mgmtRevoke i s) = lasting s := by simp [mgmtRevoke]
@[simp ↓] theorem lasting_setFloor (b s) : lasting (setFloor b s).2.2 = lasting s := by fun_cases setFloor <;> simp
@[simp ↓] theorem lasting_mgmtSetFloor (i s) : lasting (mgmtSetFloor i s) = lasting s := by simp [mgmtSetFloor]
@[simp ↓] theorem lasting_mgmtFlash (i cmd body s start) : lasting (mgmtFlash i cmd body s start) = lasting s := by fun_cases mgmtFlash <;> simp +zetaDelta
@[simp ↓] theorem lasting_mgmtFirmware (i s) : lasting (mgmtFirmware i s) = lasting s := by simp [mgmtFirmware]
@[simp ↓] theorem lasting_mgmtStore (i s) : lasting (mgmtStore i s) = lasting s := by simp [mgmtStore]
@[simp ↓] theorem lasting_flashDone (ok s) : lasting (flashDone ok s) = lasting s := by unfold flashDone; split <;> simp

/-! #### Machine/Ledger -/

@[simp ↓] theorem lasting_slotByte (port w slot o b s) : lasting (slotByte port w slot o b s) = lasting s := by simp [slotByte]
@[simp ↓] theorem lasting_windowBytes (port off bs s) : lasting (windowBytes port off bs s) = lasting s := by fun_induction windowBytes <;> simp [*]
@[simp ↓] theorem lasting_bar4Write (port off bytes ok s) : lasting (bar4Write port off bytes ok s) = lasting s := by simp [bar4Write]
@[simp ↓] theorem lasting_releaseHeld (s) : lasting (releaseHeld s) = lasting s := by unfold releaseHeld; split <;> simp
@[simp ↓] theorem lasting_judgeLanding (l s) : lasting (judgeLanding l s) = lasting s := by simp [judgeLanding]
@[simp ↓] theorem lasting_ticketVerdict (home s) : lasting (ticketVerdict home s) = lasting s := by unfold ticketVerdict; split <;> simp
@[simp ↓] theorem lasting_mirrorAck (st q s) : lasting (mirrorAck st q s) = lasting s := by unfold mirrorAck; split <;> simp
@[simp ↓] theorem lasting_injectDesc (x tg d s) : lasting (injectDesc x tg d s) = lasting s := by unfold injectDesc; split <;> simp
@[simp ↓] theorem lasting_ticketInject (st s) : lasting (ticketInject st s) = lasting s := by
  unfold ticketInject
  dsimp only
  repeat' split
  all_goals simp

@[simp ↓] theorem lasting_deadlineDrop (st q s) : lasting (deadlineDrop st q s) = lasting s := by
  unfold deadlineDrop
  repeat' split
  all_goals simp

@[simp ↓] theorem lasting_ticketEnded (st q s) : lasting (ticketEnded st q s) = lasting s := by unfold ticketEnded; split <;> simp
@[simp ↓] theorem lasting_budgetOutcome (k s) : lasting (budgetOutcome k s) = lasting s := by unfold budgetOutcome; split <;> simp
@[simp ↓] theorem lasting_outcomeDeliver (st s) : lasting (outcomeDeliver st s) = lasting s := by unfold outcomeDeliver; split <;> simp
@[simp ↓] theorem lasting_outcomeIrqTimer (st s) : lasting (outcomeIrqTimer st s) = lasting s := by simp [outcomeIrqTimer]
@[simp ↓] theorem lasting_consumeOutcomes (st n s) : lasting (consumeOutcomes st n s) = lasting s := by simp [consumeOutcomes]
@[simp ↓] theorem lasting_consWrite (st v s) : lasting (consWrite st v s) = lasting s := by simp [consWrite]
@[simp ↓] theorem lasting_takeBack (k s) : lasting (takeBack k s) = lasting s := by simp [takeBack]
@[simp ↓] theorem lasting_ledgerTakeover (d s) : lasting (ledgerTakeover d s) = lasting s := by simp [ledgerTakeover]

/-! #### Machine/Plan -/

@[simp ↓] theorem lasting_modPdie (d f s) : lasting (modPdie d f s) = lasting s := by simp [modPdie]
@[simp ↓] theorem lasting_mapReqs (f s) : lasting (mapReqs f s) = lasting s := by simp [mapReqs]
@[simp ↓] theorem lasting_markTags (deg stale tags s) : lasting (markTags deg stale tags s) = lasting s := by simp [markTags]
@[simp ↓] theorem lasting_releaseToken (e s) : lasting (releaseToken e s) = lasting s := by simp [releaseToken]
@[simp ↓] theorem lasting_planToken (g k s) : lasting (planToken g k s) = lasting s := by simp [planToken]
@[simp ↓] theorem lasting_popUpdate (d e s) : lasting (popUpdate d e s) = lasting s := by simp [popUpdate]
@[simp ↓] theorem lasting_mapBuilt (d used s) : lasting (mapBuilt d used s) = lasting s := by
  unfold mapBuilt
  repeat' split
  all_goals simp

@[simp ↓] theorem lasting_mapCommit (d s) : lasting (mapCommit d s) = lasting s := by unfold mapCommit; dsimp only; split <;> simp
@[simp ↓] theorem lasting_releaseEpochs (s) : lasting (releaseEpochs s) = lasting s := by simp [releaseEpochs]
@[simp ↓] theorem lasting_keepLive (v d s) : lasting (keepLive v d s) = lasting s := by simp [keepLive]
@[simp ↓] theorem lasting_setReq (i r s) : lasting (setReq i r s) = lasting s := by simp [setReq]
@[simp ↓] theorem lasting_requestStart (s) : lasting (requestStart s) = lasting s := by
  unfold requestStart
  dsimp only
  repeat' split
  all_goals simp

@[simp ↓] theorem lasting_countTests (slices js s) : lasting (countTests slices js s) = lasting s := by simp [countTests]
@[simp ↓] theorem lasting_countHeap (slices h s) : lasting (countHeap slices h s) = lasting s := by unfold countHeap; split <;> simp
@[simp ↓] theorem lasting_searchEnd (i s) : lasting (searchEnd i s) = lasting s := by unfold searchEnd; split <;> simp
@[simp ↓] theorem lasting_endEarly (i done expansions ended s) : lasting (endEarly i done expansions ended s) = lasting s := by unfold endEarly; split <;> simp
@[simp ↓] theorem lasting_planDeadline (i done expansions s) : lasting (planDeadline i done expansions s) = lasting s := by fun_cases planDeadline <;> simp
@[simp ↓] theorem lasting_resultSend (ch s) : lasting (resultSend ch s) = lasting s := by
  unfold resultSend
  repeat' split
  all_goals simp

@[simp ↓] theorem lasting_plannerTest (n ok s) : lasting (plannerTest n ok s) = lasting s := by simp [plannerTest]
@[simp ↓] theorem lasting_reqLost (lost i s) : lasting (reqLost lost i s) = lasting s := by unfold reqLost; split <;> simp
@[simp ↓] theorem lasting_slicesLost (lost s) : lasting (slicesLost lost s) = lasting s := by simp [slicesLost]
@[simp ↓] theorem lasting_heapError (n s) : lasting (heapError n s) = lasting s := lasting_foldl _ (fun a i => by dsimp only; split <;> simp) _ _
@[simp ↓] theorem lasting_poisonMap (d tl bx bY s) : lasting (poisonMap d tl bx bY s) = lasting s := by simp [poisonMap]
@[simp ↓] theorem lasting_planDieLost (d s) : lasting (planDieLost d s) = lasting s := by simp [planDieLost]
@[simp ↓] theorem lasting_planEpoch0 (s) : lasting (planEpoch0 s) = lasting s := by simp [planEpoch0]

/-! #### Machine/Island -/

@[simp ↓] theorem lasting_emptyWindows (i s) : lasting (emptyWindows i s) = lasting s := by simp [emptyWindows]
@[simp ↓] theorem lasting_goSilent (i s) : lasting (goSilent i s) = lasting s := by simp [goSilent]
@[simp ↓] theorem lasting_heartbeatCheck (i s) : lasting (heartbeatCheck i s) = lasting s := by simp [heartbeatCheck]
@[simp ↓] theorem lasting_voterMismatch (i minority s) : lasting (voterMismatch i minority s) = lasting s := by unfold voterMismatch; split <;> simp
@[simp ↓] theorem lasting_coreTestStart (i s) : lasting (coreTestStart i s) = lasting s := by simp [coreTestStart]
@[simp ↓] theorem lasting_coreTestDone (i failed s) : lasting (coreTestDone i failed s) = lasting s := by
  unfold coreTestDone
  dsimp only
  repeat' split
  all_goals simp

@[simp ↓] theorem lasting_voterInjection (i ok s) : lasting (voterInjection i ok s) = lasting s := by simp [voterInjection]
@[simp ↓] theorem lasting_checkerInjection (i kind caught s) : lasting (checkerInjection i kind caught s) = lasting s := by simp [checkerInjection]
@[simp ↓] theorem lasting_modCheck (c f s) : lasting (modCheck c f s) = lasting s := by simp [modCheck]
@[simp ↓] theorem lasting_checkToken (e s) : lasting (checkToken e s) = lasting s := by fun_cases checkToken <;> simp
@[simp ↓] theorem lasting_suspectTags (id tags s) : lasting (suspectTags id tags s) = lasting s := by simp [suspectTags]
@[simp ↓] theorem lasting_isolateQuad (q src s) : lasting (isolateQuad q src s) = lasting s := by simp [isolateQuad]
@[simp ↓] theorem lasting_requestWithdraw (q s) : lasting (requestWithdraw q s) = lasting s := by simp [requestWithdraw]
@[simp ↓] theorem lasting_reachK (i c s) : lasting (reachK i c s) = lasting s := by
  unfold reachK
  dsimp only
  repeat' split
  all_goals simp

@[simp ↓] theorem lasting_pushWindow (i c e s) : lasting (pushWindow i c e s) = lasting s := by simp [pushWindow]
@[simp ↓] theorem lasting_freeFrame (c f s) : lasting (freeFrame c f s) = lasting s := by simp [freeFrame]
@[simp ↓] theorem lasting_closeFrame (c f s) : lasting (closeFrame c f s) = lasting s := by simp [closeFrame]
@[simp ↓] theorem lasting_applyVerdict (i c f v s) : lasting (applyVerdict i c f v s) = lasting s := by unfold applyVerdict; split <;> simp
@[simp ↓] theorem lasting_checkVerdict (c s) : lasting (checkVerdict c s) = lasting s := by fun_cases checkVerdict <;> simp
@[simp ↓] theorem lasting_verdictTimeout (c s) : lasting (verdictTimeout c s) = lasting s := by unfold verdictTimeout; split <;> simp
@[simp ↓] theorem lasting_putMrt (bs i s) : lasting (putMrt bs i s) = lasting s := by simp [putMrt]
@[simp ↓] theorem lasting_mrtToken (e s) : lasting (mrtToken e s) = lasting s := by unfold mrtToken; split <;> simp
@[simp ↓] theorem lasting_mrtAged (i s) : lasting (mrtAged i s) = lasting s := by simp [mrtAged]
@[simp ↓] theorem lasting_deadlineMiss (st q s) : lasting (deadlineMiss st q s) = lasting s := by unfold deadlineMiss; split <;> simp
@[simp ↓] theorem lasting_modMbx (i f s) : lasting (modMbx i f s) = lasting s := by simp [modMbx]
@[simp ↓] theorem lasting_mbxAnswer (i m r) : lasting (mbxAnswer i m r) = lasting r.2.2.2 := by simp [mbxAnswer]
@[simp ↓] theorem lasting_mbxSend (i s) : lasting (mbxSend i s) = lasting s := by simp [mbxSend]
@[simp ↓] theorem lasting_mbxDo {f : List Byte → State → Option Seal × Answer} (hf : ∀ m z, lasting (f m z).2.2.2 = lasting z)
    (i cmd s) : lasting (mbxDo i cmd s f) = lasting s := by simp [mbxDo, hf]

@[simp ↓] theorem lasting_mbxSealed {f : List Byte → State → Answer} (hf : ∀ b z, lasting (f b z).2.2 = lasting z)
    (i cmd body s) : lasting (mbxSealed i cmd body s f) = lasting s := lasting_mbxDo (fun m z => by split <;> simp [hf]) i cmd s

@[simp ↓] theorem lasting_mbxStatus (i s) : lasting (mbxStatus i s) = lasting s := by simp [mbxStatus]
@[simp ↓] theorem lasting_mbxMrtGet (i s) : lasting (mbxMrtGet i s) = lasting s := lasting_mbxDo (fun _ _ => lasting_plainRun (fun _ _ => by split <;> rfl) _ _ _) i _ s
@[simp ↓] theorem lasting_sealedTicket (i b s) : lasting (sealedTicket i b s).2.2 = lasting s := by
  unfold sealedTicket
  dsimp only
  repeat' split
  all_goals simp

@[simp ↓] theorem lasting_mbxTicket (i s) : lasting (mbxTicket i s) = lasting s := by simp [mbxTicket]
@[simp ↓] theorem lasting_outcomeGet (i b s) : lasting (outcomeGet i b s).2.2 = lasting s := by unfold outcomeGet; dsimp only; split <;> simp
@[simp ↓] theorem lasting_mbxOutcomeGet (i s) : lasting (mbxOutcomeGet i s) = lasting s := by simp [mbxOutcomeGet]
@[simp ↓] theorem lasting_loopMode (b s) : lasting (loopMode b s).2.2 = lasting s := by unfold loopMode; dsimp only; split <;> simp
@[simp ↓] theorem lasting_mbxLoopMode (i s) : lasting (mbxLoopMode i s) = lasting s := by simp [mbxLoopMode]
@[simp ↓] theorem lasting_mbxUnblock (i s) : lasting (mbxUnblock i s) = lasting s := lasting_mbxSealed (fun _ _ => by split <;> simp) i _ _ s
@[simp ↓] theorem lasting_checkClear (i b s) : lasting (checkClear i b s).2.2 = lasting s := by fun_cases checkClear <;> simp
@[simp ↓] theorem lasting_mbxCheckClear (i s) : lasting (mbxCheckClear i s) = lasting s := by simp [mbxCheckClear]
@[simp ↓] theorem lasting_patternAuth (b s) : lasting (patternAuth b s).2.2 = lasting s := by simp [patternAuth]
@[simp ↓] theorem lasting_mbxPatternAuth (i s) : lasting (mbxPatternAuth i s) = lasting s := by simp [mbxPatternAuth]
@[simp ↓] theorem lasting_authExpire (s) : lasting (authExpire s) = lasting s := by unfold authExpire; split <;> simp

/-! #### Machine/Install -/

@[simp ↓] theorem lasting_installStreams (im s) : lasting (installStreams im s) = lasting s := by simp [installStreams]
@[simp ↓] theorem lasting_installSensors (im s) : lasting (installSensors im s) = lasting s := by simp [installSensors]
@[simp ↓] theorem lasting_installPlanner (im s) : lasting (installPlanner im s) = lasting s := by unfold installPlanner; split <;> simp
@[simp ↓] theorem lasting_installLoops (im s) : lasting (installLoops im s) = lasting s := by simp [installLoops]
@[simp ↓] theorem lasting_installChecks (im s) : lasting (installChecks im s) = lasting s := by simp [installChecks]
@[simp ↓] theorem lasting_installScenes (im s) : lasting (installScenes im s) = lasting s := by simp [installScenes]
@[simp ↓] theorem lasting_installEnvelope (im s) : lasting (installEnvelope im s) = lasting s := by simp [installEnvelope]
@[simp ↓] theorem lasting_installGuards (im fit s) : lasting (installGuards im fit s) = lasting s := by simp [installGuards]
@[simp ↓] theorem lasting_installFit (im fit s) : lasting (installFit im fit s) = lasting s := by simp [installFit]
@[simp ↓] theorem lasting_installBlocks (im fit s) : lasting (installBlocks im fit s) = lasting s := by simp [installBlocks]
@[simp ↓] theorem lasting_restartBlocks (s) : lasting (restartBlocks s) = lasting s := by simp [restartBlocks]

/-! #### Machine/Fire -/

@[simp ↓] theorem lasting_takeFiring (m s) : lasting (takeFiring m s) = lasting s := by simp [takeFiring]
@[simp ↓] theorem lasting_loseT3 (rs s) : lasting (loseT3 rs s) = lasting s := by simp [loseT3]
@[simp ↓] theorem lasting_firingStart (m allow s) : lasting (firingStart m allow s) = lasting s := by
  unfold firingStart
  repeat' split
  all_goals simp

@[simp ↓] theorem lasting_countEvents (gs es s) : lasting (countEvents gs es s) = lasting s := by simp [countEvents]
@[simp ↓] theorem lasting_countTickets (tags sat nan failed s) : lasting (countTickets tags sat nan failed s) = lasting s := by simp [countTickets]
@[simp ↓] theorem lasting_commitTensors (m v s) : lasting (commitTensors m v s) = lasting s := lasting_foldl _ (fun a o => by dsimp only; split <;> simp) _ _
@[simp ↓] theorem lasting_commitOp (m s v) : lasting (commitOp m s v) = lasting s := by
  unfold commitOp
  repeat' split
  all_goals simp

@[simp ↓] theorem lasting_firingComplete (m s) : lasting (firingComplete m s) = lasting s := by unfold firingComplete; split <;> simp
@[simp ↓] theorem lasting_mittenWake (m s) : lasting (mittenWake m s) = lasting s := by simp [mittenWake]
@[simp ↓] theorem lasting_gloveGate (g s) : lasting (gloveGate g s) = lasting s := by unfold gloveGate; split <;> simp
@[simp ↓] theorem lasting_prefetchDone (n reader seq stalled s) : lasting (prefetchDone n reader seq stalled s) = lasting s := by unfold prefetchDone; split <;> simp
@[simp ↓] theorem lasting_writeResult (st sub data s q) : lasting (writeResult st sub data s q) = lasting s := by unfold writeResult; dsimp only; split <;> simp
@[simp ↓] theorem lasting_resultToken (g k s) : lasting (resultToken g k s) = lasting s := by unfold resultToken; split <;> simp
@[simp ↓] theorem lasting_tokenArrive (e s) : lasting (tokenArrive e s) = lasting s := by fun_cases tokenArrive <;> simp
@[simp ↓] theorem lasting_creditReturn (e s) : lasting (creditReturn e s) = lasting s := by simp [creditReturn]

/-! #### Machine/SeamOps -/

@[simp ↓] theorem lasting_modPat (f s) : lasting (modPat f s) = lasting s := by simp [modPat]
@[simp ↓] theorem lasting_modEngine (e f s) : lasting (modEngine e f s) = lasting s := by simp [modEngine]
@[simp ↓] theorem lasting_dropPending (g s) : lasting (dropPending g s) = lasting s := by simp [dropPending]
@[simp ↓] theorem lasting_applyField (key v s) : lasting (applyField key v s) = lasting s := by simp [applyField]
@[simp ↓] theorem lasting_switchGroup (g s) : lasting (switchGroup g s) = lasting s := by
  unfold switchGroup
  rw [lasting_dropPending]
  exact lasting_foldl _ (fun a e => by split <;> simp) _ _

@[simp ↓] theorem lasting_withdrawGroup (g detail s) : lasting (withdrawGroup g detail s).1 = lasting s := by
  unfold withdrawGroup
  dsimp only
  repeat' split
  all_goals simp

@[simp ↓] theorem lasting_withdrawGroups (detail gs s) : lasting (withdrawGroups detail gs s).1 = lasting s := by
  induction gs generalizing s with
  | nil => rfl
  | cons g r ih => simp [withdrawGroups, ih]

@[simp ↓] theorem lasting_drainDie (k s) : lasting (drainDie k s) = lasting s := by simp [drainDie]

/-! #### Machine/Load -/

@[simp ↓] theorem lasting_dropAuth (id gen s) : lasting (dropAuth id gen s) = lasting s := by unfold dropAuth; split <;> simp
@[simp ↓] theorem lasting_patCfgBusy (s) : lasting (patCfgBusy s) = lasting s := by simp [patCfgBusy]
@[simp ↓] theorem lasting_loadCtrlFields (v s) : lasting (loadCtrlFields v s) = lasting s := by simp [loadCtrlFields]
@[simp ↓] theorem lasting_startJob (v boot s) : lasting (startJob v boot s) = lasting s := by simp [startJob]
@[simp ↓] theorem lasting_goWrite (v s) : lasting (goWrite v s) = lasting s := by simp [goWrite]
@[simp ↓] theorem lasting_loadFullGo (v s) : lasting (loadFullGo v s) = lasting s := by simp [loadFullGo]
@[simp ↓] theorem lasting_patchGo (v s) : lasting (patchGo v s) = lasting s := by simp [patchGo]
@[simp ↓] theorem lasting_storeRead (s) : lasting (storeRead s) = lasting s := by unfold storeRead; split <;> simp
@[simp ↓] theorem lasting_failJob (code bad s) : lasting (failJob code bad s) = lasting s := by
  unfold failJob
  repeat' split
  all_goals simp

@[simp ↓] theorem lasting_verifyDone (s) : lasting (verifyDone s) = lasting s := by unfold verifyDone; split <;> simp
@[simp ↓] theorem lasting_fitterSource (c s) : lasting (fitterSource c s) = lasting s := by simp [fitterSource]
@[simp ↓] theorem lasting_fitDone (c0 f0 c1 f1 s) : lasting (fitDone c0 f0 c1 f1 s) = lasting s := by fun_cases fitDone <;> simp
@[simp ↓] theorem lasting_loadComplete (s) : lasting (loadComplete s) = lasting s := by
  unfold loadComplete
  repeat' split
  all_goals simp

@[simp ↓] theorem lasting_patchStaged (s) : lasting (patchStaged s) = lasting s := by fun_cases patchStaged <;> simp
@[simp ↓] theorem lasting_patchSeam (s) : lasting (patchSeam s) = lasting s := by unfold patchSeam; split <;> simp
@[simp ↓] theorem lasting_patchStream (p s) : lasting (patchStream p s) = lasting s := by simp [patchStream]
@[simp ↓] theorem lasting_patchSense (im p s) : lasting (patchSense im p s) = lasting s := by simp [patchSense]
@[simp ↓] theorem lasting_patchPlan (p s) : lasting (patchPlan p s) = lasting s := by unfold patchPlan; split <;> simp
@[simp ↓] theorem lasting_patchLoops (im p s) : lasting (patchLoops im p s) = lasting s := lasting_foldl _ (fun a t => by split <;> simp) _ _
@[simp ↓] theorem lasting_patchChecks (im p s) : lasting (patchChecks im p s) = lasting s := by simp [patchChecks]
@[simp ↓] theorem lasting_patchScenes (p s) : lasting (patchScenes p s) = lasting s := by simp [patchScenes]
@[simp ↓] theorem lasting_patchEnvelope (p s) : lasting (patchEnvelope p s) = lasting s := by simp [patchEnvelope]
@[simp ↓] theorem lasting_patchRefills (p s) : lasting (patchRefills p s) = lasting s := by simp [patchRefills]
@[simp ↓] theorem lasting_patchSwitch (j s) : lasting (patchSwitch j s) = lasting s := by simp [patchSwitch]
@[simp ↓] theorem lasting_refillDone (m s) : lasting (refillDone m s) = lasting s := by unfold refillDone; split <;> simp
@[simp ↓] theorem lasting_reinstall (s) : lasting (reinstall s) = lasting s := by simp [reinstall]
@[simp ↓] theorem lasting_retainExitDone (s) : lasting (retainExitDone s) = lasting s := by simp [retainExitDone]

/-! #### Machine/Replace -/

@[simp ↓] theorem lasting_altComputeDone (bs s) : lasting (altComputeDone bs s) = lasting s := by simp [altComputeDone]
@[simp ↓] theorem lasting_endReplace (src conf s) : lasting (endReplace src conf s) = lasting s := by simp [endReplace]
@[simp ↓] theorem lasting_alternateSwitch (s) : lasting (alternateSwitch s) = lasting s := by
  unfold alternateSwitch
  repeat' split
  all_goals simp

@[simp ↓] theorem lasting_dropShadows (gs s) : lasting (dropShadows gs s) = lasting s := by simp [dropShadows]
@[simp ↓] theorem lasting_deviceRefitDone (c0 f0 c1 f1 s) : lasting (deviceRefitDone c0 f0 c1 f1 s) = lasting s := by
  unfold deviceRefitDone
  repeat' split
  all_goals simp

/-! #### Machine/SelfTest -/

@[simp ↓] theorem lasting_modGlove (g f s) : lasting (modGlove g f s) = lasting s := by simp [modGlove]
@[simp ↓] theorem lasting_defer (h s) : lasting (defer h s) = lasting s := by simp [defer]
@[simp ↓] theorem lasting_testSlice (g s) : lasting (testSlice g s) = lasting s := by simp [testSlice]
@[simp ↓] theorem lasting_sliceDone (g ok s) : lasting (sliceDone g ok s) = lasting s := by simp [sliceDone]
@[simp ↓] theorem lasting_withdrawRequest (g s) : lasting (withdrawRequest g s) = lasting s := by simp [withdrawRequest]
@[simp ↓] theorem lasting_testInterval (g s) : lasting (testInterval g s) = lasting s := by simp [testInterval]
@[simp ↓] theorem lasting_moveFit (new s) : lasting (moveFit new s) = lasting s := by
  unfold moveFit
  simp only [lasting_installGuards, lasting_startDrains, lasting_modPat, lasting_update, lasting_mapMittens]
  refine lasting_foldl _ (fun a m => ?_) _ _
  split <;> simp

@[simp ↓] theorem lasting_testSeamStep {done : State → State} (hd : ∀ z, lasting (done z) = lasting z) (q back new s) :
    lasting (testSeamStep q back new done s) = lasting s := by fun_cases testSeamStep <;> simp +zetaDelta [hd]

@[simp ↓] theorem lasting_quadWithdraw (q s) : lasting (quadWithdraw q s) = lasting s := by unfold quadWithdraw; split <;> simp
@[simp ↓] theorem lasting_quadReturn (q s) : lasting (quadReturn q s) = lasting s := by unfold quadReturn; split <;> simp

/-! #### Machine/Isolate -/

@[simp ↓] theorem lasting_dropPackets (lost s) : lasting (dropPackets lost s) = lasting s := by simp [dropPackets]
@[simp ↓] theorem lasting_noteLoss (part src used s) : lasting (noteLoss part src used s) = lasting s := by fun_cases noteLoss <;> simp
@[simp ↓] theorem lasting_loseQuad (q src s) : lasting (loseQuad q src s) = lasting s := by simp [loseQuad]
@[simp ↓] theorem lasting_loseStack (k src s) : lasting (loseStack k src s) = lasting s := by simp [loseStack]
@[simp ↓] theorem lasting_dropSamples (lost s) : lasting (dropSamples lost s) = lasting s := by simp [dropSamples]
@[simp ↓] theorem lasting_loseCsi (p s) : lasting (loseCsi p s) = lasting s := by simp [loseCsi]
@[simp ↓] theorem lasting_loseEth (e s) : lasting (loseEth e s) = lasting s := by simp [loseEth]
@[simp ↓] theorem lasting_failOnLoss (s) : lasting (failOnLoss s) = lasting s := by simp [failOnLoss]
@[simp ↓] theorem lasting_loseDie (d s) : lasting (loseDie d s) = lasting s := by simp [loseDie]
@[simp ↓] theorem lasting_loseEffects (part src s) : lasting (loseEffects part src s) = lasting s := by simp [loseEffects]
@[simp ↓] theorem lasting_budgetConf (src s) : lasting (budgetConf src s) = lasting s := by unfold budgetConf; split <;> simp
@[simp ↓] theorem lasting_completeFor (cmds s) : lasting (completeFor cmds s) = lasting s := lasting_foldl _ (fun a c => by split <;> simp) _ _
@[simp ↓] theorem lasting_cutOff (part src s) : lasting (cutOff part src s) = lasting s := by simp [cutOff]
@[simp ↓] theorem lasting_isolationConfirm (part s) : lasting (isolationConfirm part s) = lasting s := by unfold isolationConfirm; split <;> simp
@[simp ↓] theorem lasting_noteSafe (id cause st s) : lasting (noteSafe id cause st s) = lasting s := by simp [noteSafe]
@[simp ↓] theorem lasting_peerRecord (c s) : lasting (peerRecord c s) = lasting s := by simp [peerRecord]
@[simp ↓] theorem lasting_safeStart (cause s) : lasting (safeStart cause s) = lasting s := by simp [safeStart]
@[simp ↓] theorem lasting_safeEnter (col s) : lasting (safeEnter col s) = lasting s := by unfold safeEnter; split <;> simp
@[simp ↓] theorem lasting_thermalTrip (pair ring raw s) : lasting (thermalTrip pair ring raw s) = lasting s := by simp [thermalTrip]
@[simp ↓] theorem lasting_bootPattern (s) : lasting (bootPattern s) = lasting s := by simp [bootPattern]
@[simp ↓] theorem lasting_sweepDone (miss s) : lasting (sweepDone miss s) = lasting s := by
  unfold sweepDone
  repeat' split
  all_goals simp

@[simp ↓] theorem lasting_sweepTimeout (s) : lasting (sweepTimeout s) = lasting s := by unfold sweepTimeout; split <;> simp
@[simp ↓] theorem lasting_modBank (k f s) : lasting (modBank k f s) = lasting s := by simp [modBank]
@[simp ↓] theorem lasting_losePageOf (cands s) : lasting (losePageOf cands s) = lasting s := by
  unfold losePageOf
  dsimp only
  repeat' split
  all_goals simp

@[simp ↓] theorem lasting_storageError (k off detail s) : lasting (storageError k off detail s) = lasting s := by
  unfold storageError
  repeat' split
  all_goals simp

@[simp ↓] theorem lasting_raiseEffect (c i detail s) : lasting (raiseEffect c i detail s) = lasting s := by simp [raiseEffect]
@[simp ↓] theorem lasting_latchExt (c l s) : lasting (latchExt c l s) = lasting s := by fun_induction latchExt <;> simp [*]
@[simp ↓] theorem lasting_faultRaise (c ext s) : lasting (faultRaise c ext s) = lasting s := by simp [faultRaise]

/-! #### Machine/Mesh -/

@[simp ↓] theorem lasting_serve (q s) : lasting (serve q s) = lasting s := by simp [serve]
@[simp ↓] theorem lasting_refusePacket (q p s) : lasting (refusePacket q p s) = lasting s := by
  unfold refusePacket
  dsimp only
  repeat' split
  all_goals simp

@[simp ↓] theorem lasting_packetAt (pl input p s) : lasting (packetAt pl input p s) = lasting s := by
  unfold packetAt
  repeat' split
  all_goals simp

@[simp ↓] theorem lasting_inject (pl p s) : lasting (inject pl p s) = lasting s := by fun_cases inject <;> simp
@[simp ↓] theorem lasting_packetArrive (pl via header payload s) : lasting (packetArrive pl via header payload s) = lasting s := by fun_cases packetArrive <;> simp
@[simp ↓] theorem lasting_routeSwap (k s) : lasting (routeSwap k s) = lasting s := by unfold routeSwap; split <;> simp
@[simp ↓] theorem lasting_modLining (k b f s) : lasting (modLining k b f s) = lasting s := by simp [modLining]
@[simp ↓] theorem lasting_liningScrub (k b err s) : lasting (liningScrub k b err s) = lasting s := by simp [liningScrub]
@[simp ↓] theorem lasting_gloveNumClr (g v s) : lasting (gloveNumClr g v s) = lasting s := by simp [gloveNumClr]
@[simp ↓] theorem lasting_palmClr (g v s) : lasting (palmClr g v s) = lasting s := by simp [palmClr]
@[simp ↓] theorem lasting_liningClr (k b v s) : lasting (liningClr k b v s) = lasting s := by simp [liningClr]

/-! #### Machine/Partner -/

@[simp ↓] theorem lasting_heartbeatSend (s) : lasting (heartbeatSend s) = lasting s := by simp [heartbeatSend]
@[simp ↓] theorem lasting_heartbeatRx (bs s) : lasting (heartbeatRx bs s) = lasting s := by simp [heartbeatRx]
@[simp ↓] theorem lasting_peerTimeout (s) : lasting (peerTimeout s) = lasting s := by simp [peerTimeout]
@[simp ↓] theorem lasting_beaconSend (i s) : lasting (beaconSend i s) = lasting s := by simp [beaconSend]
@[simp ↓] theorem lasting_leaseExpire (s) : lasting (leaseExpire s) = lasting s := by simp [leaseExpire]
@[simp ↓] theorem lasting_leaseGrace (s) : lasting (leaseGrace s) = lasting s := by simp [leaseGrace]
@[simp ↓] theorem lasting_renew (job epoch s) : lasting (renew job epoch s) = lasting s := by simp [renew]
@[simp ↓] theorem lasting_lease (i dst bs s0) : lasting (lease i dst bs s0) = lasting s0 := by simp [lease]
@[simp ↓] theorem lasting_fenceFrame (i dst bs s) : lasting (fenceFrame i dst bs s) = lasting s := by simp [fenceFrame]
@[simp ↓] theorem lasting_restartFrame (i dst bs s) : lasting (restartFrame i dst bs s) = lasting s := by simp [restartFrame]
@[simp ↓] theorem lasting_wakeFrame (i dst bs s) : lasting (wakeFrame i dst bs s) = lasting s := by simp [wakeFrame]

/-! #### Machine/Power -/

@[simp ↓] theorem lasting_mateStage (stage coolant s) : lasting (mateStage stage coolant s) = lasting s := by simp [mateStage]
@[simp ↓] theorem lasting_vinSeen (mv s) : lasting (vinSeen mv s) = lasting s := by simp [vinSeen]
@[simp ↓] theorem lasting_inputQualified (mv s) : lasting (inputQualified mv s) = lasting s := by simp [inputQualified]
/-- Of what lasts, a start from full power loss changes JEPOCH and its copies. -/
theorem lasting_coldStart (s) :
    lasting (coldStart s) = lasting (railsUp ((oldJepoch s.power.jepochA s.power.jepochB).map (fun j => (j + 1) % 65536)) s) := by
  cases h : oldJepoch s.power.jepochA s.power.jepochB with
  | none => simp [coldStart_none s h]
  | some j => simp [coldStart_some s h]

/-- PGOOD released again while an always-on domain was powered starts nothing (R8). -/
theorem lasting_pgoodRelease_powered (s : State) (h : s.power.aon0 = true ∨ s.power.aon1 = true) :
    lasting (pgoodRelease s) = lasting s := by rcases h with h | h <;> simp [pgoodRelease, h]

@[simp ↓] theorem lasting_inputWarn (mv s0) : lasting (inputWarn mv s0) = lasting s0 := by simp [inputWarn]
@[simp ↓] theorem lasting_inputUnder (mv ns s0) : lasting (inputUnder mv ns s0) = lasting s0 := by simp [inputUnder]
@[simp ↓] theorem lasting_inputOver (mv ns s0) : lasting (inputOver mv ns s0) = lasting s0 := by simp [inputOver]
@[simp ↓] theorem lasting_pwrEnLow (ns s) : lasting (pwrEnLow ns s) = lasting s := by simp [pwrEnLow]
@[simp ↓] theorem lasting_presenceLoss (s) : lasting (presenceLoss s) = lasting s := by simp [presenceLoss]
@[simp ↓] theorem lasting_aonLost (half s) : lasting (aonLost half s) = lasting s := by simp [aonLost]
@[simp ↓] theorem lasting_railOut (half rail s) : lasting (railOut half rail s) = lasting s := by simp [railOut]
@[simp ↓] theorem lasting_refclkLoss (half ppm s) : lasting (refclkLoss half ppm s) = lasting s := by simp [refclkLoss]
@[simp ↓] theorem lasting_readBack (stays s) : lasting (readBack stays s) = lasting s := by simp [readBack]
@[simp ↓] theorem lasting_biasLoss (mv s) : lasting (biasLoss mv s) = lasting s := by simp [biasLoss]

/-! #### Machine/Seam -/

@[simp ↓] theorem lasting_seamArm (e v s) : lasting (seamArm e v s) = lasting s := by simp [seamArm]
@[simp ↓] theorem lasting_seamCancel (e v s) : lasting (seamCancel e v s) = lasting s := by simp [seamCancel]
@[simp ↓] theorem lasting_seamDiscard (e v s) : lasting (seamDiscard e v s) = lasting s := by simp [seamDiscard]
@[simp ↓] theorem lasting_stageField (f s) : lasting (stageField f s) = lasting s := by unfold stageField; split <;> simp
@[simp ↓] theorem lasting_strmCfgBits (off v staged armed s) : lasting (strmCfgBits off v staged armed s) = lasting s := by simp [strmCfgBits]
@[simp ↓] theorem lasting_rwsWrite (off v s) : lasting (rwsWrite off v s) = lasting s := by unfold rwsWrite; split <;> simp
@[simp ↓] theorem lasting_traceSwitch (e s) : lasting (traceSwitch e s) = lasting s := by simp [traceSwitch]
@[simp ↓] theorem lasting_finishBlocks (e s) : lasting (finishBlocks e s) = lasting s := by simp [finishBlocks]
@[simp ↓] theorem lasting_blockSeam (e g s) : lasting (blockSeam e g s) = lasting s := by simp [blockSeam]
@[simp ↓] theorem lasting_drainGroups (gs s) : lasting (drainGroups gs s) = lasting s := by simp [drainGroups]
@[simp ↓] theorem lasting_globalStamp (e s) : lasting (globalStamp e s) = lasting s := by simp [globalStamp]
@[simp ↓] theorem lasting_noteWithdrawn (e n s) : lasting (noteWithdrawn e n s) = lasting s := by simp [noteWithdrawn]
@[simp ↓] theorem lasting_seamExpire (e s) : lasting (seamExpire e s) = lasting s := by unfold seamExpire; split <;> simp
@[simp ↓] theorem lasting_globalSwitch (e s) : lasting (globalSwitch e s) = lasting s := by
  unfold globalSwitch
  repeat' split
  all_goals simp

/-! #### Machine/Regs -/

@[simp ↓] theorem lasting_noBusyBit (s) : lasting (noBusyBit s) = lasting s := by simp [noBusyBit]
@[simp ↓] theorem lasting_strmCfgBusy (n s) : lasting (strmCfgBusy n s) = lasting s := by simp [strmCfgBusy]
@[simp ↓] theorem lasting_modRing (e r f s) : lasting (modRing e r f s) = lasting s := by simp [modRing]
@[simp ↓] theorem lasting_wideSet (w off v s) : lasting (wideSet w off v s) = lasting s := by unfold wideSet; split <;> simp
@[simp ↓] theorem lasting_writeHalf (high off v w s) : lasting (writeHalf high off v w s) = lasting s := by simp [writeHalf]
@[simp ↓] theorem lasting_writeMod (off v s) : lasting (writeMod off v s) = lasting s := by simp [writeMod]
@[simp ↓] theorem lasting_writeCrown (off v s) : lasting (writeCrown off v s) = lasting s := by simp [writeCrown]
@[simp ↓] theorem lasting_timeCfgWrite (v s) : lasting (timeCfgWrite v s) = lasting s := by simp [timeCfgWrite]
@[simp ↓] theorem lasting_writeTime (off v s) : lasting (writeTime off v s) = lasting s := by simp [writeTime]
@[simp ↓] theorem lasting_outCfgWrite (n off v s) : lasting (outCfgWrite n off v s) = lasting s := by simp [outCfgWrite]
@[simp ↓] theorem lasting_writeLedger (off v s) : lasting (writeLedger off v s) = lasting s := by simp [writeLedger]
@[simp ↓] theorem lasting_seamCtrlWrite (e v s) : lasting (seamCtrlWrite e v s) = lasting s := by simp [seamCtrlWrite]
@[simp ↓] theorem lasting_writeEngine (e r off v s) : lasting (writeEngine e r off v s) = lasting s := by simp [writeEngine]
@[simp ↓] theorem lasting_writePattern (off v s) : lasting (writePattern off v s) = lasting s := by simp [writePattern]
@[simp ↓] theorem lasting_writeFault (off v s) : lasting (writeFault off v s) = lasting s := by simp [writeFault]
@[simp ↓] theorem lasting_ddrCfgWrite (ch off v s) : lasting (ddrCfgWrite ch off v s) = lasting s := by simp [ddrCfgWrite]
@[simp ↓] theorem lasting_writeDdr (off v s) : lasting (writeDdr off v s) = lasting s := by simp [writeDdr]
@[simp ↓] theorem lasting_csiCtrlWrite (p off v s) : lasting (csiCtrlWrite p off v s) = lasting s := by simp [csiCtrlWrite]
@[simp ↓] theorem lasting_writeCsi (off v s) : lasting (writeCsi off v s) = lasting s := by simp [writeCsi]
@[simp ↓] theorem lasting_hrCfgWrite (e r v s) : lasting (hrCfgWrite e r v s) = lasting s := by simp [hrCfgWrite]
@[simp ↓] theorem lasting_writeEthPort (e r off v s) : lasting (writeEthPort e r off v s) = lasting s := by simp [writeEthPort]
@[simp ↓] theorem lasting_writeEth (off v s) : lasting (writeEth off v s) = lasting s := by unfold writeEth; split <;> simp
@[simp ↓] theorem lasting_writeFuse (off v s) : lasting (writeFuse off v s) = lasting s := by fun_cases writeFuse <;> simp
@[simp ↓] theorem lasting_writePlan (off v s) : lasting (writePlan off v s) = lasting s := by simp [writePlan]
@[simp ↓] theorem lasting_loopModeWrite (n v s) : lasting (loopModeWrite n v s) = lasting s := by simp [loopModeWrite]
@[simp ↓] theorem lasting_writeLoop (off v s) : lasting (writeLoop off v s) = lasting s := by simp [writeLoop]
@[simp ↓] theorem lasting_ctrlBit {f : State → State} (hf : ∀ z, lasting (f z) = lasting z) (v i s) :
    lasting (ctrlBit v i f s) = lasting s := by simp [ctrlBit, hf]

@[simp ↓] theorem lasting_attachCtrl (v s) : lasting (attachCtrl v s) = lasting s := by simp [attachCtrl]
@[simp ↓] theorem lasting_writeAttach (off v s) : lasting (writeAttach off v s) = lasting s := by simp [writeAttach]
@[simp ↓] theorem lasting_writeMsix (port off v s) : lasting (writeMsix port off v s) = lasting s := by simp [writeMsix]
@[simp ↓] theorem lasting_writeGlove (off v s) : lasting (writeGlove off v s) = lasting s := by simp [writeGlove]
@[simp ↓] theorem lasting_writeLining (off v s) : lasting (writeLining off v s) = lasting s := by simp [writeLining]
@[simp ↓] theorem lasting_writeBlock (port off v s) : lasting (writeBlock port off v s) = lasting s := by simp [writeBlock]
@[simp ↓] theorem lasting_write32 (port off v s) : lasting (write32 port off v s) = lasting s := by fun_cases write32 <;> simp
@[simp ↓] theorem lasting_write64 (port off v s) : lasting (write64 port off v s) = lasting s := by fun_cases write64 <;> simp
@[simp ↓] theorem lasting_regWrite (port off size v s) : lasting (regWrite port off size v s) = lasting s := by simp [regWrite]

/-! #### Machine/Spot -/

@[simp ↓] theorem lasting_spotDone (c items s) : lasting (spotDone c items s) = lasting s := by unfold spotDone; dsimp only; split <;> simp

/-! #### Every command -/

/-- What lasts is as it was, but that time may have passed. -/
def Later (s : State) (l : Lasting) : Prop := ∃ n, s.time.now ≤ n ∧ l = { lasting s with now := n }

theorem later_advanceTo (t : Nat) (s : State) : Later s (lasting (advanceTo t s)) :=
  ⟨max s.time.now t, Nat.le_max_left _ _, by simp [lasting, advanceTo_now]⟩

/-- PGOOD_RELEASE and the enrolment of a key apart, every command is the passage of time and an operation that keeps what lasts. -/
theorem exec_later {c : Instr} {s u : State} (hpgood : ∀ t, c ≠ .pgoodRelease t) (henroll : ∀ t i, c ≠ .mgmtEnroll t i)
    (h : exec c s = .next u) : Later s (lasting u) := by
  cases c
  case pgoodRelease t => exact absurd rfl (hpgood t)
  case mgmtEnroll t i => exact absurd rfl (henroll t i)
  all_goals
    cases h
    simp [later_advanceTo]

theorem Later.kept {s : State} {l : Lasting} (h : Later s l) :
    (l.jepoch = s.power.jepoch ∧ l.jepochA = s.power.jepochA ∧ l.jepochB = s.power.jepochB)
      ∧ l.ownerSet = s.sec.ownerSet ∧ l.seed = s.sec.seed := by
  obtain ⟨n, -, rfl⟩ := h
  exact ⟨⟨rfl, rfl, rfl⟩, rfl, rfl⟩

theorem lasting_pgoodRelease (s : State) : ∃ raised, lasting (pgoodRelease s) = lasting (railsUp raised s) := by
  unfold pgoodRelease
  split
  · exact ⟨none, rfl⟩
  · split
    · exact ⟨_, lasting_coldStart s⟩
    · exact ⟨none, rfl⟩

/-- A release of PGOOD keeps the seed and OWNER_SET, and with an always-on domain powered JEPOCH and its copies too. -/
theorem exec_pgoodRelease_kept {t : Nat} {s u : State} (h : exec (.pgoodRelease t) s = .next u) :
    (s.power.aon0 = true ∨ s.power.aon1 = true → Later s (lasting u)) ∧ u.sec.ownerSet = s.sec.ownerSet ∧ u.sec.seed = s.sec.seed := by
  cases h
  refine ⟨fun hpow => ?_, ?_⟩
  · rw [lasting_pgoodRelease_powered _ (by rwa [advanceTo_power])]
    exact later_advanceTo t s
  · obtain ⟨r, hr⟩ := lasting_pgoodRelease (advanceTo t s)
    have howner := congrArg Lasting.ownerSet hr
    have hseed := congrArg Lasting.seed hr
    simp only [lasting, railsUp, advanceTo_sec] at howner hseed
    exact ⟨howner, hseed⟩

/-- The enrolment of a key may set OWNER_SET (R425). -/
theorem exec_mgmtEnroll_later {t i : Nat} {s u : State} (h : exec (.mgmtEnroll t i) s = .next u) :
    Later s (lasting u) ∨ u.sec.ownerSet = true ∧ Later s { lasting u with ownerSet := s.sec.ownerSet } := by
  cases h
  obtain ⟨n, hn, hlater⟩ := later_advanceTo t s
  rcases mgmtEnroll_enrolled i (advanceTo t s) with h | h
  · exact .inl ⟨n, hn, h.trans hlater⟩
  · exact .inr ⟨congrArg Lasting.ownerSet h, n, hn, by rw [h, hlater]; rfl⟩

end Sys2Proof.Machine

namespace Sys2Proof

open Sys2Proof.Machine

/-- Settles O11: PGOOD_RELEASE and the enrolment of a key are the only commands that may change anything of what lasts but the
clock, the first of them JEPOCH with its copies, the second OWNER_SET. -/
theorem journalEpochChangesOnlyAtAColdStart : Obligations.JournalEpochChangesOnlyAtAColdStart := by
  intro c s u h
  by_cases hpgood : ∃ t, c = .pgoodRelease t
  · obtain ⟨t, rfl⟩ := hpgood
    obtain ⟨hlater, howner, hseed⟩ := exec_pgoodRelease_kept h
    exact ⟨fun hwhen => (hlater (hwhen.resolve_left fun hne => hne t rfl)).kept.1, howner.trans, hseed⟩
  by_cases henroll : ∃ t i, c = .mgmtEnroll t i
  · obtain ⟨t, i, rfl⟩ := henroll
    rcases exec_mgmtEnroll_later h with hlater | ⟨hset, hlater⟩
    · obtain ⟨hepoch, howner, hseed⟩ := hlater.kept
      exact ⟨fun _ => hepoch, howner.trans, hseed⟩
    · obtain ⟨hepoch, -, hseed⟩ := hlater.kept
      exact ⟨fun _ => hepoch, fun _ => hset, hseed⟩
  · obtain ⟨hepoch, howner, hseed⟩ := (exec_later (fun t ht => hpgood ⟨t, ht⟩) (fun t i ht => henroll ⟨t, i, ht⟩) h).kept
    exact ⟨fun _ => hepoch, howner.trans, hseed⟩

end Sys2Proof

namespace Sys2Proof.Machine

/-! ### Latches and what they leave alone (R346) -/

/-- Between `s` and `u` only the fault sources that `p` selects may differ. -/
def OnlySources (p : Nat → Prop) (s u : State) : Prop :=
  u = { s with fault := { s.fault with src := u.fault.src } } ∧ ∀ id, ¬ p id → fsrc id u = fsrc id s

theorem OnlySources.refl (p : Nat → Prop) (s : State) : OnlySources p s s := ⟨rfl, fun _ _ => rfl⟩

/-- One more latch of a selected source keeps to the selected sources. -/
theorem OnlySources.then_latch {p : Nat → Prop} {s u : State} (h : OnlySources p s u) {i : Nat} (d : Nat) (hi : p i) :
    OnlySources p s (latch i d u) := by
  obtain ⟨heq, hsrc⟩ := h
  refine ⟨by rw [heq]; rfl, fun id hid => ?_⟩
  rw [fsrc_latch_ne d u (by rintro rfl; exact hid hi), hsrc id hid]

theorem latchBoth_only (i d : Nat) (s : State) : OnlySources (fun id => id = i ∨ id = 0x400 + i) s (latchBoth i d s) :=
  ((OnlySources.refl _ s).then_latch d (.inl rfl)).then_latch d (.inr rfl)

/-! ### The connector (R29, R32, R33) -/

/-- The connector at `stage`: what its contacts make and break (R32). -/
def matedAt (stage : Nat) (coolant : Bool) (s : State) : State :=
  { s with power := { s.power with
      mate := stage, coolant := coolant, prsnt := decide (1 ≤ stage), pwrEn := s.power.pwrEn && decide (stage = 3)
      biasHeld := decide (2 ≤ stage) && (s.power.biasHeld || decide (s.power.mate < 2)) } }

/-- A step of travel with the couplings engaged completes; off the blades a running power stage turns off. -/
theorem mateStage_step {stage : Nat} {coolant : Bool} {s : State} (h3 : stage ≤ 3)
    (hstep : stage = s.power.mate + 1 ∨ s.power.mate = stage + 1) (hcool : stage ≠ 0 → coolant = true) :
    mateStage stage coolant s
      = if stage < 2 ∧ s.power.on = true then turnOff (matedAt stage coolant s) else matedAt stage coolant s := by
  have hgo : ¬ (3 < stage ∨ (!decide (stage = s.power.mate ∨ stage = s.power.mate + 1 ∨ s.power.mate = stage + 1)) = true
      ∨ (stage ≠ 0 ∧ (!coolant) = true)) := by
    rintro (h | h | ⟨h, hc⟩)
    · omega
    · simp only [Bool.not_eq_true', decide_eq_false_iff_not] at h; omega
    · simp [hcool h] at hc
  exact if_neg hgo

/-- A step of two stages, or contact without coolant, does not come about. -/
theorem mateStage_stays {stage : Nat} {coolant : Bool} {s : State}
    (h : stage + 1 < s.power.mate ∨ s.power.mate + 1 < stage ∨ (stage ≠ 0 ∧ coolant = false)) :
    mateStage stage coolant s = s := by
  refine if_pos ?_
  rcases or_assoc.mpr h with hfar | ⟨h, hc⟩
  · exact .inr (.inl (by simp only [Bool.not_eq_true', decide_eq_false_iff_not]; omega))
  · exact .inr (.inr ⟨h, by rw [hc]; rfl⟩)

/-- Turning the power stage off leaves the connector as it is. -/
theorem turnOff_connector (s : State) :
    (turnOff s).power.mate = s.power.mate ∧ (turnOff s).power.coolant = s.power.coolant
      ∧ (turnOff s).power.biasHeld = s.power.biasHeld := by
  obtain ⟨fa, fb, habort, -⟩ := abortFlash_spec s
  obtain ⟨a, b, hu⟩ := turnOff_power s
  simp [hu, powerLost, habort]

/-- Whatever follows from it, the step leaves the contacts as its stage makes and breaks them. -/
theorem mateStage_contacts {stage : Nat} {coolant : Bool} {s : State} (h3 : stage ≤ 3)
    (hstep : stage = s.power.mate + 1 ∨ s.power.mate = stage + 1) (hcool : stage ≠ 0 → coolant = true) :
    (mateStage stage coolant s).power.mate = stage ∧ (mateStage stage coolant s).power.coolant = coolant
      ∧ (mateStage stage coolant s).power.prsnt = decide (1 ≤ stage)
      ∧ (stage < 3 → (mateStage stage coolant s).power.pwrEn = false)
      ∧ (stage < 2 → (mateStage stage coolant s).power.biasHeld = false) := by
  have hen : stage < 3 → (matedAt stage coolant s).power.pwrEn = false := fun h => by
    simp [matedAt, Nat.ne_of_lt h]
  have hbias : stage < 2 → (matedAt stage coolant s).power.biasHeld = false := fun h => by
    simp [matedAt, Nat.not_le.mpr h]
  rw [mateStage_step h3 hstep hcool]
  split
  · obtain ⟨hmate, hc, hb⟩ := turnOff_connector (matedAt stage coolant s)
    rw [hmate, hc, hb, turnOff_prsnt, turnOff_pwrEn]
    exact ⟨rfl, rfl, rfl, hen, hbias⟩
  · exact ⟨rfl, rfl, rfl, hen, hbias⟩

/-! The bias network and the read-back of the pins (R28, R29). -/

/-- A read-back latches the source of the islands that misread, and no other. -/
theorem readBack_only (stays : Bool) (s : State) :
    OnlySources (fun id => id = 0x1BD ∨ id = 0x5BD) s (readBack stays s) := by
  unfold readBack
  simp only [List.foldl_cons, List.foldl_nil]
  have h0 := OnlySources.refl (fun id => id = 0x1BD ∨ id = 0x5BD) s
  split <;> split
  · exact (h0.then_latch 0 (.inl rfl)).then_latch 0 (.inr rfl)
  · exact h0.then_latch 0 (.inr rfl)
  · exact h0.then_latch 0 (.inl rfl)
  · exact h0

/-- Where every powered island finds the pins at the levels commanded, nothing is latched. -/
theorem readBack_agreeing {stays : Bool} {s : State}
    (h : ∀ i < 2, aonPowered i s = true → ∀ k < 2, pinReadsLow stays k s = (coll k s).pinLow) : readBack stays s = s := by
  have hno : ∀ i < 2, ¬ (aonPowered i s = true ∧ islandRuns i s = true
      ∧ [0, 1].any (fun k => pinReadsLow stays k s != (coll k s).pinLow) = true) := by
    rintro i hi ⟨hon, -, hdiff⟩
    simp [h i hi hon] at hdiff
  unfold readBack
  simp only [List.foldl_cons, List.foldl_nil]
  rw [if_neg (hno 1 (by omega)), if_neg (hno 0 (by omega))]

/-- A pin whose driver has power, or which is not asserted, is at the level commanded. -/
theorem pinReadsLow_commanded {stays : Bool} {k : Nat} {s : State} (h : aonPowered k s = true ∨ (coll k s).pinLow = false) :
    pinReadsLow stays k s = (coll k s).pinLow := by
  rcases h with h | h <;> simp [pinReadsLow, h]

/-- With both always-on domains powered or both not, or with neither pin asserted, no powered island misreads a pin. -/
theorem readBack_uniform {stays : Bool} {s : State}
    (h : s.power.aon0 = s.power.aon1 ∨ (s.fault.c0.pinLow = false ∧ s.fault.c1.pinLow = false)) : readBack stays s = s := by
  refine readBack_agreeing fun i hi hon k hk => pinReadsLow_commanded ?_
  rcases h with heq | ⟨h0, h1⟩
  · have hsame : aonPowered k s = aonPowered i s := by simp [aonPowered, heq]
    exact .inl (hsame.trans hon)
  · refine .inr ?_
    unfold coll
    split <;> assumption

theorem biasLoss_held {mv : Nat} {s : State} (hmate : 2 ≤ s.power.mate) (hmv : 9000 ≤ mv) :
    biasLoss mv s = { s with power := { s.power with biasHeld := true } } := by
  simp [biasLoss, vinSeen, hmate, hmv]

/-- The bias network has let go of the pins; the level they take is a free choice, which is then used up (log entry 157). -/
def biasLetGo (s : State) : State :=
  { s with power := { s.power with biasHeld := false }, fab := { s.fab with fresh := s.fab.fresh + 1 } }

theorem biasLoss_letGo {mv : Nat} {s : State} (h : s.power.mate < 2 ∨ mv < 9000) :
    ∃ stays, biasLoss mv s = readBack stays (biasLetGo s) := by
  have hlost : decide (2 ≤ s.power.mate ∧ 9000 ≤ mv) = false := decide_eq_false (by omega)
  exact ⟨_, by simp only [biasLoss, vinSeen, hlost, Bool.false_eq_true, if_false, drawFree]; rfl⟩

end Sys2Proof.Machine

namespace Sys2Proof

open Sys2Proof.Machine

/-- Settles O8: a step of travel sets the contacts and may turn the power stage off; the bias network, once it has let go, is seen
only through the read-back of the pins. -/
theorem connectorMatesInOrderAndBiasHoldsThePins : Obligations.ConnectorMatesInOrderAndBiasHoldsThePins := by
  refine ⟨fun t stage cool s h3 hstep hcool => ?_, fun t stage cool s h => ?_, fun t mv s => ?_⟩
  · have hp := advanceTo_power t s
    rw [← hp] at hstep
    obtain ⟨hmate, hc, hprsnt, hen, hbias⟩ := mateStage_contacts h3 hstep hcool
    refine ⟨_, rfl, hmate, hc, hprsnt, hen, hbias, fun h2 hon => ?_, fun hkeep => ?_⟩
    · rw [mateStage_step h3 hstep hcool, if_pos ⟨h2, by rw [hp, hon]⟩]
      obtain ⟨hoff, hst, -⟩ := turnOff_offFrom (matedAt stage cool (advanceTo t s))
      exact ⟨hoff, hst⟩
    · have hno : ¬ (stage < 2 ∧ (advanceTo t s).power.on = true) := by
        rw [hp]
        rintro ⟨h2, hon⟩
        rcases hkeep with hge | hoff
        · omega
        · simp [hoff] at hon
      rw [mateStage_step h3 hstep hcool, if_neg hno, ← hp]
      rfl
  · exact congrArg Host.Outcome.next (mateStage_stays (by rwa [advanceTo_power]))
  · intro lost
    have hlost : lost = biasLetGo (advanceTo t s) := by simp only [biasLetGo, advanceTo_power, advanceTo_fab, lost]
    refine ⟨fun hmate hmv => ?_, fun h => ?_⟩
    · refine congrArg Host.Outcome.next ?_
      rw [biasLoss_held (by rwa [advanceTo_power]) hmv, advanceTo_power]
    · obtain ⟨stays, hu⟩ := biasLoss_letGo (mv := mv) (s := advanceTo t s) (by rwa [advanceTo_power])
      rw [← hlost] at hu
      obtain ⟨hframe, hsrc⟩ := readBack_only stays lost
      refine ⟨fun hpins => congrArg Host.Outcome.next (hu.trans (readBack_uniform ?_)), _, congrArg Host.Outcome.next hu, ?_, fun id h0 h1 => ?_⟩
      · rw [hlost]
        simpa [biasLetGo] using hpins
      · rw [← advanceTo_fault t s]
        exact hframe
      · rw [hsrc id (by omega), hlost]
        exact fsrc_advanceTo id t s

end Sys2Proof

namespace Sys2Proof.Machine

/-! ### Input warnings, rails and reference clocks (R18, R25, R31, R348) -/

theorem vinSeen_inRange {mv : Nat} (s : State) (h : 9000 ≤ mv) :
    vinSeen mv s = { s with power := { s.power with biasHeld := decide (2 ≤ s.power.mate) } } := by
  simp [vinSeen, h]

/-- An input in one of the two warning bands latches the input-voltage source of both collectors, with the band as DETAIL. -/
theorem inputWarn_band {mv : Nat} {s : State} (hon : s.power.on = true) (h : (33000 ≤ mv ∧ mv < 36000) ∨ (60000 < mv ∧ mv ≤ 63000)) :
    inputWarn mv s = latchBoth 0x1B0 (if mv < 36000 then 0 else 1) (vinSeen mv s) := by
  have hon' : ¬ (!(vinSeen mv s).power.on) = true := by simp [vinSeen, hon]
  simp only [inputWarn, if_neg hon']
  rcases h with h | h
  · rw [if_pos h, if_pos h.2]
  · rw [if_neg (by omega), if_pos h, if_neg (by omega)]

/-- PGOOD is pulled low and the source of a rail latched. -/
def railReported (half rail : Nat) (s : State) : State :=
  latch (railSource half rail) 0 { s with power := { s.power with pgood := false } }

theorem railReported_spec (half rail : Nat) (s : State) :
    (railReported half rail s).power = { s.power with pgood := false }
      ∧ (fsrc (railSource half rail) (railReported half rail s)).latched = true
      ∧ railReported half rail s = { s with power := (railReported half rail s).power, fault := (railReported half rail s).fault } :=
  ⟨rfl, by simp [railReported], rfl⟩

/-- The main converter of a half is lost. -/
def mainLost (half : Nat) (s : State) : State :=
  { s with power := { s.power with main0 := s.power.main0 && decide (half ≠ 0), main1 := s.power.main1 && decide (half = 0) } }

/-- What a rail fault does beyond its report depends on the rail: a main converter is lost, an always-on converter, or neither. -/
theorem railOut_eq {half rail : Nat} {s : State} (hhalf : half < 2) (hrail : rail < 7) (h0 : s.power.aon0 = true) :
    railOut half rail s =
      let v := railReported half rail s
      if rail = 0 then mainLost half v else if rail = 6 then aonLost half v else v := by
  have hgo : ¬ (((!s.power.aon0) = true ∧ (!s.power.aon1) = true) ∨ 1 < half ∨ 6 < rail) := by
    rintro (⟨h, -⟩ | h | h)
    · simp [h0] at h
    · omega
    · omega
  unfold railOut
  rw [if_neg hgo]
  by_cases h : half = 0 <;> simp [h, railReported, mainLost]

/-- The half an always-on converter feeds has no power: its island is silent and its pin asserted (R28). -/
def halfUnpowered (half : Nat) (s : State) : State :=
  { s with
    power := { s.power with aon0 := s.power.aon0 && decide (half ≠ 0), aon1 := s.power.aon1 && decide (half = 0) }
    fault := (modColl half (fun c => { c with pinLow := true }) s).fault
    isl := (modIsland half (fun i => { i with vote := .silent }) s).isl }

/-- The loss of one always-on converter leaves the module on the other half's power. -/
theorem aonLost_one {half : Nat} {s : State} (hhalf : half < 2) (h0 : s.power.aon0 = true) (h1 : s.power.aon1 = true) :
    aonLost half s = settle (halfUnpowered half s) := by
  obtain rfl | rfl : half = 0 ∨ half = 1 := by omega
  all_goals simp [aonLost, halfUnpowered, modColl, modIsland, h0, h1]

/-- What the module keeps and loses with one of its two always-on converters. -/
theorem aonLost_spec {half : Nat} {s : State} (hhalf : half < 2) (h0 : s.power.aon0 = true) (h1 : s.power.aon1 = true) :
    (aonLost half s).power.aon0 = decide (half ≠ 0) ∧ (aonLost half s).power.aon1 = decide (half = 0)
      ∧ (aonLost half s).power.pgood = s.power.pgood ∧ (coll half (aonLost half s)).pinLow = true
      ∧ (∀ id, fsrc id (aonLost half s) = fsrc id s)
      ∧ aonLost half s = { s with power := (aonLost half s).power, fault := (aonLost half s).fault, isl := (aonLost half s).isl } := by
  obtain ⟨a, b, hs⟩ := settle_eq (halfUnpowered half s)
  rw [aonLost_one hhalf h0 h1]
  refine ⟨?_, ?_, ?_, ?_, fun id => ?_, ?_⟩
  · rw [hs]; simp [halfUnpowered, h0]
  · rw [hs]; simp [halfUnpowered, h1]
  · rw [hs]; simp [halfUnpowered]
  · rw [coll_settle]
    exact congrArg Collector.pinLow (coll_modColl_same half _ s)
  · rw [fsrc_settle]
    exact fsrc_modColl id half _ s
  · rw [hs]
    rfl

/-- The half `half` finds the other half's reference clock lost (R25). -/
def refLost (half : Nat) (s : State) : State :=
  { s with power := { s.power with refB := s.power.refB && decide (half ≠ 0), refA := s.power.refA && decide (half = 0) } }

theorem refclkLoss_lost {half : Nat} {ppm : Option Int} {s : State} (hon : s.power.on = true) (hhalf : half < 2)
    (hppm : ∀ p, ppm = some p → 1000 < p.natAbs) : refclkLoss half ppm s = latch (half * 0x400 + 0x1A0) 0 (refLost half s) := by
  unfold refclkLoss
  obtain rfl | rfl : half = 0 ∨ half = 1 := by omega
  all_goals
    cases ppm with
    | none => simp [hon, refLost]
    | some p => simp [hon, refLost, hppm p rfl]

theorem refclkLoss_within {half : Nat} {p : Int} (s : State) (hp : p.natAbs ≤ 1000) : refclkLoss half (some p) s = s := by
  simp [refclkLoss, Nat.not_lt.mpr hp]

end Sys2Proof.Machine

namespace Sys2Proof

open Sys2Proof.Machine

/-- Settles O12: each command is its report, and beyond it the loss of the converter or clock concerned. -/
theorem inputRailAndClockFaultsAreLatched : Obligations.InputRailAndClockFaultsAreLatched := by
  refine ⟨fun t mv s hon h => ?_, fun t half rail s hhalf hrail h0 h1 => ?_, fun t half ppm s hon hhalf => ⟨fun hppm => ?_, ?_⟩⟩
  · have hseen := vinSeen_inRange (mv := mv) (advanceTo t s) (by omega)
    have hwarn := inputWarn_band (s := advanceTo t s) (by rwa [advanceTo_power]) h
    obtain ⟨hframe, hsrc⟩ := latchBoth_only 0x1B0 (if mv < 36000 then 0 else 1) (vinSeen mv (advanceTo t s))
    obtain ⟨l0, l1, d0, d1⟩ := fsrc_latchBoth 0x1B0 (if mv < 36000 then 0 else 1) (vinSeen mv (advanceTo t s))
    refine ⟨_, congrArg Host.Outcome.next hwarn, ?_, ?_, fun id h0 h1 => ?_⟩
    · rintro id (rfl | rfl)
      · exact ⟨l0, d0⟩
      · exact ⟨l1, d1⟩
    · rw [hframe, hseen, advanceTo_power, advanceTo_fault]
    · rw [hsrc id (by rintro (rfl | rfl) <;> contradiction)]
      exact fsrc_advanceTo id t s
  · have hp := advanceTo_power t s
    rw [← hp] at h0 h1
    obtain ⟨hpower, hsrc, hframe⟩ := railReported_spec half rail (advanceTo t s)
    have hexec : Machine.exec (.railOutOfRegulation t half rail) s = .next (railOut half rail (advanceTo t s)) := rfl
    rw [railOut_eq hhalf hrail h0] at hexec
    dsimp only at hexec
    generalize railReported half rail (advanceTo t s) = v at hpower hsrc hframe hexec
    have hv0 : v.power.aon0 = true := by rw [hpower]; exact h0
    have hv1 : v.power.aon1 = true := by rw [hpower]; exact h1
    refine ⟨_, hexec, ?_⟩
    by_cases hmain : rail = 0
    · rw [if_pos hmain]
      refine ⟨by simp [mainLost, hpower], hsrc, fun _ => ⟨hv0, hv1, ?_⟩, by omega, by omega, ?_⟩
      · by_cases hh : half = 0 <;> simp [mainLost, hh]
      · rw [hframe]; rfl
    · rw [if_neg hmain]
      by_cases haon : rail = 6
      · rw [if_pos haon]
        obtain ⟨ha0, ha1, hpg, hpin, hkept, hlost⟩ := aonLost_spec hhalf hv0 hv1
        refine ⟨by rw [hpg, hpower], by rw [hkept, hsrc], by omega, ?_, ?_, ?_⟩
        · rintro - rfl; exact ⟨ha0, ha1, hpin⟩
        · rintro - rfl; exact ⟨ha0, ha1, hpin⟩
        · rw [hlost, hframe]
      · rw [if_neg haon]
        exact ⟨by rw [hpower], hsrc, by omega, by omega, by omega, by rw [hframe]⟩
  · refine ⟨_, congrArg Host.Outcome.next (refclkLoss_lost (by rwa [advanceTo_power]) hhalf hppm), ?_, ?_, ?_⟩
    · simp
    · by_cases hh : half = 0 <;> simp [refLost, hh]
    · rw [← advanceTo_fault t s]; rfl
  · rintro p rfl hp
    exact congrArg Host.Outcome.next (refclkLoss_within _ hp)

end Sys2Proof

/-!
SUPPORT. The proof of the statement about landings: the intake slots, the verdict of a landing, receipts and the mirrored journals.
-/

namespace Sys2Proof.Machine

/-! ### One byte of an intake slot (R193) -/

/-- A state whose queue of landings is another one. -/
def withIntake (r : List Landing) (s : State) : State := { s with led := { s.led with intake := r } }

/-- An intake slot; a window has 512 of them. -/
def intakeSlot (w slot : Nat) (s : State) : Slot := tget {} (w * 512 + slot) s.led.slots

/-- A state with one intake slot replaced. -/
def setIntakeSlot (w slot : Nat) (x : Slot) (s : State) : State :=
  { s with led := { s.led with slots := tset {} (w * 512 + slot) x s.led.slots } }

@[simp] theorem intakeSlot_setIntakeSlot (w slot : Nat) (x : Slot) (s : State) : intakeSlot w slot (setIntakeSlot w slot x s) = x :=
  tget_tset_same _ _ _ _

theorem setIntakeSlot_other {w slot j : Nat} (x : Slot) (s : State) (hj : j ≠ w * 512 + slot) :
    tget ({} : Slot) j (setIntakeSlot w slot x s).led.slots = tget ({} : Slot) j s.led.slots :=
  tget_tset_ne _ _ _ hj

/-- A slot with one more byte put into it, as it stands before a landing empties it. -/
def gatherByte (x : Slot) (o : Nat) (b : Byte) : Slot :=
  ⟨putByte x.bytes o b, if 120 ≤ o ∧ !x.tail.contains o then x.tail ++ [o] else x.tail⟩

/-- A byte that leaves one of the last eight bytes waiting only changes its slot. -/
theorem slotByte_gathers (port : Nat) {w slot o : Nat} {b : Byte} {s : State}
    (h : (gatherByte (intakeSlot w slot s) o b).tail.length ≠ 8) :
    slotByte port w slot o b s = setIntakeSlot w slot (gatherByte (intakeSlot w slot s) o b) s :=
  if_neg h

/-- The landing of a slot on a port, stamped now by the receiving die. -/
def landingOf (port w slot : Nat) (bytes : List Byte) (s : State) : Landing :=
  { window := w, slot := slot, die := liveDie port s, bytes := bytes, stamp := shortStamp (liveDie port s) s }

/-- The byte that completes the last eight lands the slot, which then waits for all of them again. -/
theorem slotByte_lands (port : Nat) {w slot o : Nat} {b : Byte} {s : State}
    (h : (gatherByte (intakeSlot w slot s) o b).tail.length = 8) :
    slotByte port w slot o b s
      = withIntake (s.led.intake ++ [landingOf port w slot (gatherByte (intakeSlot w slot s) o b).bytes s])
          (setIntakeSlot w slot ⟨(gatherByte (intakeSlot w slot s) o b).bytes, []⟩ s) :=
  if_pos h

/-- Whether it lands or not, a byte changes no other slot. -/
theorem slotByte_other {port w slot o j : Nat} {b : Byte} {s : State} (hj : j ≠ w * 512 + slot) :
    tget ({} : Slot) j (slotByte port w slot o b s).led.slots = tget ({} : Slot) j s.led.slots := by
  by_cases h : (gatherByte (intakeSlot w slot s) o b).tail.length = 8
  · rw [slotByte_lands port h]; exact setIntakeSlot_other _ _ hj
  · rw [slotByte_gathers port h]; exact setIntakeSlot_other _ _ hj

/-- Byte `o` of a slot lies at its place in BAR4. -/
theorem windowBytes_slot {port w slot o : Nat} {b : Byte} {bs : List Byte} {s : State} (hw : w < 256) (hslot : slot < 512) (ho : o < 128) :
    windowBytes port (w * 65536 + slot * 128 + o) (b :: bs) s
      = windowBytes port (w * 65536 + slot * 128 + (o + 1)) bs (slotByte port w slot o b s) := by
  have hwin : (w * 65536 + slot * 128 + o) / 65536 % 256 = w := by omega
  have hsl : (w * 65536 + slot * 128 + o) % 65536 / 128 = slot := by omega
  have hoff : (w * 65536 + slot * 128 + o) % 128 = o := by omega
  rw [windowBytes, hwin, hsl, hoff, Nat.add_assoc]

/-! ### A write that leaves the last eight bytes alone -/

/-- Bytes before byte 120 change no other slot, and land nothing unless the slot already holds all of its last eight. -/
theorem windowBytes_front {port w slot : Nat} (hw : w < 256) (hslot : slot < 512) (bs : List Byte) (o : Nat) (s : State)
    (ho : o + bs.length ≤ 120) :
    let u := windowBytes port (w * 65536 + slot * 128 + o) bs s
    (∀ j, j ≠ w * 512 + slot → tget ({} : Slot) j u.led.slots = tget ({} : Slot) j s.led.slots)
    ∧ ((intakeSlot w slot s).tail.length < 8 → u.led.intake = s.led.intake) := by
  induction bs generalizing o s with
  | nil => exact ⟨fun _ _ => rfl, fun _ => rfl⟩
  | cons b r ih =>
    rw [List.length_cons] at ho
    rw [windowBytes_slot hw hslot (by omega)]
    obtain ⟨hother, hintake⟩ := ih (o + 1) (slotByte port w slot o b s) (by omega)
    refine ⟨fun j hj => (hother j hj).trans (slotByte_other hj), fun htail => ?_⟩
    have hkeep : (gatherByte (intakeSlot w slot s) o b).tail = (intakeSlot w slot s).tail := if_neg (by omega)
    rw [slotByte_gathers port (by rw [hkeep]; omega)] at hintake ⊢
    exact hintake (by rwa [intakeSlot_setIntakeSlot, hkeep])

/-! ### A write of a whole slot -/

/-- The first bytes of a whole write stand in the slot, and those of its last eight that have come are noted in order. -/
structure Gathered (done : List Byte) (x : Slot) : Prop where
  bound : x.bytes.length ≤ 128
  front : x.bytes.take done.length = done
  tail : x.tail = List.range' 120 (done.length - 120)

theorem putByte_length {bs : List Byte} {o : Nat} {b : Byte} (h : bs.length ≤ 128) : (putByte bs o b).length = 128 := by
  simp [putByte, zeroBytes]; omega

/-- The byte put after a gathered front extends it. -/
theorem take_putByte {done bs : List Byte} {b : Byte} (hlen : done.length < 128) (hb : bs.length ≤ 128) (h : bs.take done.length = done) :
    (putByte bs done.length b).take (done.length + 1) = done ++ [b] := by
  have hfit : done.length ≤ bs.length := by
    have := congrArg List.length h
    rw [List.length_take] at this
    omega
  have hfull : done.length < (bs ++ zeroBytes (128 - bs.length)).length := by simp [zeroBytes]; omega
  rw [putByte, List.take_succ_eq_append_getElem (by simpa using hfull), List.getElem_set_self, List.take_set_of_le (Nat.le_refl _),
    List.take_append_of_le_length hfit, h]

/-- The next byte of the write stands in the slot once it is put. -/
theorem Gathered.snoc {done : List Byte} {x : Slot} (h : Gathered done x) (hlen : done.length < 128) (b : Byte) :
    Gathered (done ++ [b]) (gatherByte x done.length b) := by
  obtain ⟨hbound, hfront, htail⟩ := h
  refine ⟨Nat.le_of_eq (putByte_length hbound), ?_, ?_⟩
  · rw [List.length_append]; exact take_putByte hlen hbound hfront
  · rw [List.length_append, List.length_singleton, gatherByte]
    by_cases ho : 120 ≤ done.length
    · have hnew : done.length ∉ List.range' 120 (done.length - 120) := by simp [List.mem_range'_1]; omega
      have hlast : 120 + (done.length - 120) = done.length := by omega
      rw [if_pos ⟨ho, by simp [htail, hnew]⟩, htail, show done.length + 1 - 120 = done.length - 120 + 1 by omega,
        List.range'_1_concat, hlast]
    · rw [if_neg (fun hc => ho hc.1), htail, show done.length - 120 = 0 by omega, show done.length + 1 - 120 = 0 by omega]

theorem Gathered.tail_length {done : List Byte} {x : Slot} (h : Gathered done x) : x.tail.length = done.length - 120 := by
  rw [h.tail, List.length_range']

/-- All 128 bytes gathered are the bytes of the slot. -/
theorem Gathered.bytes_eq {done : List Byte} {x : Slot} (h : Gathered done x) (hlen : done.length = 128) : x.bytes = done := by
  have := h.front
  rwa [List.take_of_length_le (by rw [hlen]; exact h.bound)] at this

/-- The rest of a whole write lands the slot once, at its last byte, with every byte of the write. -/
theorem windowBytes_whole {port w slot : Nat} (hw : w < 256) (hslot : slot < 512) (rest done : List Byte) (s : State)
    (hg : Gathered done (intakeSlot w slot s)) (hlen : done.length + rest.length = 128) (hrest : rest ≠ []) :
    ∃ t, windowBytes port (w * 65536 + slot * 128 + done.length) rest s = { s with led := { s.led with
      slots := t, intake := s.led.intake ++ [landingOf port w slot (done ++ rest) s] } } := by
  induction rest generalizing done s with
  | nil => contradiction
  | cons b r ih =>
    rw [List.length_cons] at hlen
    have hnext := hg.snoc (by omega) b
    have hdone : (done ++ [b]).length = done.length + 1 := List.length_append
    have htail := hnext.tail_length
    rw [windowBytes_slot hw hslot (by omega)]
    by_cases hr : r = []
    · subst hr
      rw [List.length_nil] at hlen
      rw [slotByte_lands port (by omega), hnext.bytes_eq (by omega)]
      exact ⟨_, rfl⟩
    · have hpos := List.length_pos_iff.mpr hr
      rw [slotByte_gathers port (by omega), ← hdone]
      rw [← intakeSlot_setIntakeSlot w slot (gatherByte (intakeSlot w slot s) done.length b) s] at hnext
      obtain ⟨t, ht⟩ := ih (done ++ [b]) _ hnext (by omega) hr
      rw [List.append_assoc] at ht
      exact ⟨t, ht⟩

/-! ### BAR4_WRITE (R193, R447) -/

theorem bar4Write_down {port off : Nat} {bytes : List Byte} {ok : Bool} {s : State} (h : portUp port s = false) :
    bar4Write port off bytes ok s = s := by
  simp [bar4Write, h]

theorem bar4Write_bad {port off : Nat} {bytes : List Byte} {s : State} (h : portUp port s = true) :
    bar4Write port off bytes false s = latch (srcHost port 4) 0 s := by
  simp [bar4Write, h]

theorem bar4Write_held {port off : Nat} {bytes : List Byte} {s : State} (h : portUp port s = true)
    (hfull : s.led.intakeDepth ≤ queuedAt (liveDie port s) s) :
    bar4Write port off bytes true s = { s with led := { s.led with heldWrites := s.led.heldWrites ++ [(port, off, bytes)] } } := by
  simp [bar4Write, h, hfull]

theorem bar4Write_taken {port off : Nat} {bytes : List Byte} {s : State} (h : portUp port s = true)
    (hroom : queuedAt (liveDie port s) s < s.led.intakeDepth) (hheld : s.led.heldWrites = []) :
    bar4Write port off bytes true s = windowBytes port off bytes s := by
  simp [bar4Write, h, hheld, Nat.not_le.mpr hroom]

section Bar4

variable {port w slot : Nat} {bytes : List Byte} {s : State} (hw : w < 256) (hslot : slot < 512) (hup : portUp port s = true)
  (hroom : queuedAt (liveDie port s) s < s.led.intakeDepth) (hheld : s.led.heldWrites = [])
include hw hslot hup hroom hheld

/-- A write of a whole slot none of whose last bytes waits is one landing. -/
theorem bar4Write_whole (hlen : bytes.length = 128) (htail : (intakeSlot w slot s).tail = [])
    (hbound : (intakeSlot w slot s).bytes.length ≤ 128) :
    ∃ t, bar4Write port (w * 65536 + slot * 128) bytes true s = { s with led := { s.led with
      slots := t, intake := s.led.intake ++ [landingOf port w slot bytes s] } } := by
  have hempty : Gathered [] (intakeSlot w slot s) := ⟨hbound, rfl, htail⟩
  have hne : bytes ≠ [] := List.ne_nil_of_length_pos (by omega)
  rw [bar4Write_taken hup hroom hheld]
  have hland := windowBytes_whole (port := port) hw hslot bytes [] s hempty (by simpa using hlen) hne
  rwa [List.length_nil, Nat.add_zero] at hland

/-- A write that ends before byte 120 changes its slot alone and lands nothing. -/
theorem bar4Write_front (hlen : bytes.length ≤ 120) :
    let u := bar4Write port (w * 65536 + slot * 128) bytes true s
    (∀ j, j ≠ w * 512 + slot → tget ({} : Slot) j u.led.slots = tget ({} : Slot) j s.led.slots)
    ∧ ((intakeSlot w slot s).tail.length < 8 → u.led.intake = s.led.intake) := by
  rw [bar4Write_taken hup hroom hheld]
  have hfront := windowBytes_front (port := port) hw hslot bytes 0 s (by omega)
  rwa [Nat.add_zero] at hfront

end Bar4

/-! ### Receipts (R200, R201) -/

/-- A state with one more receipt in the host's ring. -/
def withReceipt (seq stmp verdict st : Nat) (s : State) : State :=
  let phase := if s.led.rcptWr / 1024 % 2 = 0 then 1 else 0
  let receipt := receiptBytes seq stmp verdict phase st (avail (strm st s))
  { s with
    led := { s.led with rcptWr := (s.led.rcptWr + 1) % 65536 }
    host := { s.host with mem := wrBytes s.host.mem (s.led.rcptBase + s.led.rcptWr % 1024 * 16) receipt } }

theorem withReceipt_mem (seq stmp v st : Nat) (s : State) : (withReceipt seq stmp v st s).host.mem
    = wrBytes s.host.mem (s.led.rcptBase + s.led.rcptWr % 1024 * 16)
        (receiptBytes seq stmp v (if s.led.rcptWr / 1024 % 2 = 0 then 1 else 0) st (avail (strm st s))) := rfl

/-- A receipt for a state that differs in its tickets changes, beside them, the write index and host memory. -/
theorem withReceipt_setTickets (seq stmp v st : Nat) (ts : List Ticket) (s : State) :
    withReceipt seq stmp v st (setTickets ts s) = { s with
      led := { s.led with tickets := ts, rcptWr := (withReceipt seq stmp v st (setTickets ts s)).led.rcptWr }
      host := { s.host with mem := (withReceipt seq stmp v st (setTickets ts s)).host.mem } } := rfl

/-- A stream with one more rejection, saturating. -/
def countReject (x : Strm) : Strm := { x with rejects := satAdd 16 x.rejects 1 }

theorem avail_countReject (x : Strm) : avail (countReject x) = avail x := rfl

/-- With receipts enabled and their port up, an ACCEPT writes its receipt and changes nothing else. -/
theorem writeReceipt_accept {seq stmp st : Nat} {s : State} (hen : s.led.rcptEnable = true) (hcar : carried s.led.rcptPort s = true) :
    writeReceipt seq stmp 0 st s = withReceipt seq stmp 0 st s := by
  simp [writeReceipt, hostWr, hen, hcar, wrapAdd, withReceipt]

/-- With them enabled and up a rejection is counted and its receipt written, and its vector may be sent (R213). -/
theorem writeReceipt_reject {seq stmp v st : Nat} {s : State} (hv : v ≠ 0) (hen : s.led.rcptEnable = true)
    (hcar : carried s.led.rcptPort s = true) :
    writeReceipt seq stmp v st s
      = if s.led.irqRej then sendVec s.led.rcptPort s.led.rcptVector (withReceipt seq stmp v st (modStrm st countReject s))
        else withReceipt seq stmp v st (modStrm st countReject s) := by
  have hen' : (modStrm st countReject s).led.rcptEnable = true := hen
  have hcar' : carried (modStrm st countReject s).led.rcptPort (modStrm st countReject s) = true := hcar
  have hcount : modStrm st (fun x => { x with rejects := satAdd 16 x.rejects 1 }) s = modStrm st countReject s := rfl
  simp only [writeReceipt, withReceipt, hv, hcount, hen', hostWr, hcar', wrapAdd, if_true, if_false, ne_eq, not_false_eq_true, true_and]
  rfl

/-- A rejection leaves the receipt's bytes in host memory, and its vector changes nothing but the ports and messages. -/
theorem writeReceipt_reject_host {seq stmp v st : Nat} {s : State} (hv : v ≠ 0) (hen : s.led.rcptEnable = true)
    (hcar : carried s.led.rcptPort s = true) :
    ∃ h : HostState, writeReceipt seq stmp v st s = { withReceipt seq stmp v st (modStrm st countReject s) with host := h }
      ∧ h.mem = (withReceipt seq stmp v st (modStrm st countReject s)).host.mem := by
  rw [writeReceipt_reject hv hen hcar]
  split
  · obtain ⟨a, b, m, hsend⟩ := sendVec_eq s.led.rcptPort s.led.rcptVector (withReceipt seq stmp v st (modStrm st countReject s))
    exact ⟨_, hsend, rfl⟩
  · exact ⟨_, rfl, rfl⟩

/-! ### Verdicts (R197) -/

/-- A stream that has accepted a record: the next number is due, one credit is taken, a reissue is noted, bits that left the window go. -/
def acceptStrm (bs : List Byte) (y : Strm) : Strm :=
  let r := fieldLe bs 8 8
  let keep := fun (q : Nat) => decide (y.nextSeq + 1 ≤ q + 1024)
  { y with
    nextSeq := y.nextSeq + 1
    outstanding := y.outstanding + 1
    voidSeqs := y.voidSeqs.filter keep
    reissued := (if r = 0 then y.reissued else y.reissued ++ [r]).filter keep }

/-- Of the ledger an acceptance changes the stream and the journal, where the new entry stands last. -/
theorem acceptTicket_led (w : Nat) (bs : List Byte) (land : Nat) (sealed : Bool) (s : State) :
    (acceptTicket w bs land sealed s).led = { (modStrm w (acceptStrm bs) s).led with
      tickets := s.led.tickets
        ++ [acceptedTicket w bs land (stamp (liveDie (strm w s).home s) s) sealed (strm w s).home (strm w s)] } := by
  unfold acceptTicket
  dsimp only
  obtain ⟨m, a, b, h⟩ := traceEv_eq _ _ _ _ _
  rw [settle_led, h]
  rfl

theorem acceptTicket_host (w : Nat) (bs : List Byte) (land : Nat) (sealed : Bool) (s : State) :
    (acceptTicket w bs land sealed s).host = { s.host with accepted := true } := by
  unfold acceptTicket
  dsimp only
  obtain ⟨m, a, b, h⟩ := traceEv_eq _ _ _ _ _
  rw [settle_host, h]
  rfl

/-- While the journals are mirrored an accepted landing waits for its receipt. -/
theorem judgeLanding_accept {l : Landing} {s : State} (hv : verdictOf l.window (some l.slot) l.bytes s = 0) (hmir : s.led.mirrorOk = true) :
    judgeLanding l s = acceptTicket l.window l.bytes l.stamp false s := by
  have hkept : (acceptTicket l.window l.bytes l.stamp false s).led.mirrorOk = true := by rw [acceptTicket_led]; exact hmir
  simp only [judgeLanding, hv, hkept, if_true]

theorem judgeLanding_reject {l : Landing} {s : State} (hv : verdictOf l.window (some l.slot) l.bytes s ≠ 0) (hen : s.led.rcptEnable = true) :
    judgeLanding l s = writeReceipt (fieldLe l.bytes 0 8) l.stamp (verdictOf l.window (some l.slot) l.bytes s) l.window s := by
  simp [judgeLanding, hv, hen]

theorem releaseHeld_none {s : State} (h : s.led.heldWrites = []) : releaseHeld s = s := by
  simp [releaseHeld, h]

section Verdict

variable {home : Nat} {l : Landing} {r : List Landing} {s : State}

theorem ticketVerdict_judged (htake : takeLanding home s s.led.intake = some (l, r)) (hfree : heldGroup (0x100 + l.window) s = false)
    (hup : dieUp home s = true) : ticketVerdict home s = releaseHeld (judgeLanding l (withIntake r s)) := by
  simp [ticketVerdict, htake, hfree, hup, withIntake]

/-- With no write held back, a landing found in order is accepted. -/
theorem ticketVerdict_accept (htake : takeLanding home s s.led.intake = some (l, r)) (hfree : heldGroup (0x100 + l.window) s = false)
    (hup : dieUp home s = true) (hheld : s.led.heldWrites = []) (hv : verdictOf l.window (some l.slot) l.bytes (withIntake r s) = 0)
    (hmir : s.led.mirrorOk = true) : ticketVerdict home s = acceptTicket l.window l.bytes l.stamp false (withIntake r s) := by
  rw [ticketVerdict_judged htake hfree hup, judgeLanding_accept hv hmir, releaseHeld_none]
  rw [acceptTicket_led]
  exact hheld

/-- With no write held back, any other landing is rejected and its receipt written. -/
theorem ticketVerdict_reject (htake : takeLanding home s s.led.intake = some (l, r)) (hfree : heldGroup (0x100 + l.window) s = false)
    (hup : dieUp home s = true) (hheld : s.led.heldWrites = []) (hv : verdictOf l.window (some l.slot) l.bytes (withIntake r s) ≠ 0)
    (hen : s.led.rcptEnable = true) (hcar : carried s.led.rcptPort s = true) :
    let u := withReceipt (fieldLe l.bytes 0 8) l.stamp (verdictOf l.window (some l.slot) l.bytes (withIntake r s)) l.window
      (modStrm l.window countReject (withIntake r s))
    ∃ h : HostState, ticketVerdict home s = { u with host := h } ∧ h.mem = u.host.mem := by
  obtain ⟨h, hwrite, hmem⟩ := writeReceipt_reject_host (seq := fieldLe l.bytes 0 8) (stmp := l.stamp) (st := l.window)
    (s := withIntake r s) hv hen hcar
  refine ⟨h, ?_, hmem⟩
  rw [ticketVerdict_judged htake hfree hup, judgeLanding_reject hv hen, hwrite]
  exact releaseHeld_none hheld

/-- A landing of a group held at a seam, or of a die out of service, stays in the queue. -/
theorem ticketVerdict_waits (htake : takeLanding home s s.led.intake = some (l, r))
    (hwait : heldGroup (0x100 + l.window) s = true ∨ dieUp home s = false) : ticketVerdict home s = s := by
  simp [ticketVerdict, htake, hwait]

end Verdict

/-! ### The mirrored journals (R203) -/

/-- A ticket both journals hold. -/
def Ticket.mirrored (k : Ticket) : Ticket := { k with inJ0 := true, inJ1 := true }

/-- A ticket whose ACCEPT receipt is no longer owed. -/
def Ticket.receipted (k : Ticket) : Ticket := { k with rcptPending := false }

/-- A change that keeps a ticket's stream and number is seen by the lookup of that ticket. -/
theorem ticket_modTicket {st q : Nat} {f : Ticket → Ticket} (s : State) (hst : ∀ k, (f k).stream = k.stream) (hseq : ∀ k, (f k).seq = k.seq) :
    ticket st q (modTicket st q f s) = (ticket st q s).map f := by
  unfold ticket modTicket mapTickets setTickets
  dsimp only
  induction s.led.tickets with
  | nil => rfl
  | cons k ks ih =>
    by_cases hk : k.stream = st ∧ k.seq = q
    · simp [hk, hst, hseq]
    · rw [List.map_cons, if_neg hk, List.find?_cons_of_neg (by simpa using hk), List.find?_cons_of_neg (by simpa using hk), ih]

theorem ticket_mirrored (st q : Nat) (s : State) : ticket st q (modTicket st q Ticket.mirrored s) = (ticket st q s).map Ticket.mirrored :=
  ticket_modTicket s (fun _ => rfl) (fun _ => rfl)

theorem ticket_receipted (st q : Nat) (s : State) : ticket st q (modTicket st q Ticket.receipted s) = (ticket st q s).map Ticket.receipted :=
  ticket_modTicket s (fun _ => rfl) (fun _ => rfl)

/-- A ticket that owes its receipt, and is no sealed request, gets it written. -/
theorem ackTicket_pending {st q : Nat} {k : Ticket} {s : State} (hk : ticket st q s = some k) (hp : k.rcptPending = true)
    (hs : k.sealed_ = false) : ackTicket st q s = writeReceipt q k.landing 0 st (modTicket st q Ticket.receipted s) := by
  simp only [ackTicket, hk, hp, hs, if_true, Bool.false_eq_true, if_false]
  rfl

/-- The mirror's acknowledgement marks both journals and releases the receipt. -/
theorem mirrorAck_pending {st q : Nat} {k : Ticket} {s : State} (hk : ticket st q s = some k) (hp : k.rcptPending = true)
    (hmir : s.led.mirrorOk = true) (h0 : dieUp 0 s = true) (h1 : dieUp 1 s = true) (hs : k.sealed_ = false)
    (hen : s.led.rcptEnable = true) (hcar : carried s.led.rcptPort s = true) :
    mirrorAck st q s = withReceipt q k.landing 0 st (modTicket st q Ticket.receipted (modTicket st q Ticket.mirrored s)) := by
  have hmarked : ticket st q (modTicket st q Ticket.mirrored s) = some k.mirrored := by
    rw [ticket_mirrored, hk]; rfl
  have hack : mirrorAck st q s = ackTicket st q (modTicket st q Ticket.mirrored s) := by
    simp only [mirrorAck, hk, hp, hmir, h0, h1, and_self, if_true]
    rfl
  rw [hack, ackTicket_pending hmarked hp hs]
  exact writeReceipt_accept hen hcar

end Sys2Proof.Machine

namespace Sys2Proof

open Sys2Proof.Machine

/-- Settles O42: a write acts byte by byte on its slot, a verdict is an acceptance or one receipt, and the mirrored journals release
the receipt an acceptance owes. That an intact record for a secure stream's window is among the rejected ones (REJ_STREAM) is assumption 19. -/
theorem ticketsLandAreJudgedAndReceipted : Obligations.TicketsLandAreJudgedAndReceipted := by
  refine ⟨fun t port w slot bytes s0 hw hslot => ?_, fun t home l r s0 => ?_, fun t st q k s0 => ?_⟩
  · intro s off d
    have hexec : ∀ ok, Machine.exec (.bar4Write t port off bytes ok) s0 = .next (bar4Write port off bytes ok s) := fun _ => rfl
    clear_value s
    refine ⟨fun hdown ok => (hexec ok).trans (congrArg _ (bar4Write_down hdown)), fun hup => ⟨?_, fun hfull => ?_, fun hroom hheld => ⟨?_, ?_⟩⟩⟩
    · exact ⟨_, (hexec _).trans (congrArg _ (bar4Write_bad hup)), by simp, rfl⟩
    · exact ⟨_, (hexec _).trans (congrArg _ (bar4Write_held hup hfull)), rfl⟩
    · intro hlen htail hbound
      obtain ⟨slots, hland⟩ := bar4Write_whole hw hslot hup hroom hheld hlen htail hbound
      exact ⟨_, (hexec _).trans (congrArg _ hland), rfl, rfl⟩
    · intro hlen
      exact ⟨_, hexec _, bar4Write_front hw hslot hup hroom hheld hlen⟩
  · intro s x v htake hheld
    have hexec : Machine.exec (.ticketVerdict t home) s0 = .next (ticketVerdict home s) := rfl
    clear_value s
    refine ⟨fun hfree hup => ⟨fun hv hmir => ?_, fun hv hen hcar => ?_⟩, fun hwait => hexec.trans (congrArg _ (ticketVerdict_waits htake hwait))⟩
    · have hled := acceptTicket_led l.window l.bytes l.stamp false (withIntake r s)
      have hhost := acceptTicket_host l.window l.bytes l.stamp false (withIntake r s)
      have hstrm : ∀ n, strm n (acceptTicket l.window l.bytes l.stamp false (withIntake r s)) = strm n (modStrm l.window (acceptStrm l.bytes) s) :=
        fun n => by unfold strm; rw [hled]; rfl
      refine ⟨_, _, hexec.trans (congrArg _ (ticketVerdict_accept htake hfree hup hheld hv hmir)), by rw [hled]; rfl, ?_, ?_,
        by rw [hled]; rfl, rfl, rfl, rfl, rfl, rfl, by rw [hled]; rfl, by rw [hhost]; rfl, fun n hn => ?_⟩
      · rw [hstrm, strm_modStrm_same]; rfl
      · rw [hstrm, strm_modStrm_same]; rfl
      · rw [hstrm, strm_modStrm_ne _ _ hn]
    · obtain ⟨h, hreject, hmem⟩ := ticketVerdict_reject htake hfree hup hheld hv hen hcar
      have hcount : strm l.window (modStrm l.window countReject (withIntake r s)) = countReject x := strm_modStrm_same _ _ _
      rw [withReceipt_mem, hcount, avail_countReject] at hmem
      exact ⟨_, hexec.trans (congrArg _ hreject), rfl, rfl, hcount, rfl, hmem, fun n hn => strm_modStrm_ne countReject (withIntake r s) hn⟩
  · intro s hk hp hmir h0 h1 hs hen hcar
    have hexec : Machine.exec (.journalMirrorAck t st q) s0 = .next (mirrorAck st q s) := rfl
    clear_value s
    refine ⟨_, hexec.trans (congrArg _ (mirrorAck_pending hk hp hmir h0 h1 hs hen hcar)), ?_, rfl, rfl, withReceipt_mem _ _ _ _ _,
      withReceipt_setTickets _ _ _ _ _ _⟩
    refine (ticket_receipted st q _).trans ?_
    rw [ticket_mirrored, hk]
    rfl

end Sys2Proof

/-!
SUPPORT. The proof of the statement about sensor intake: packets, frames, samples, stalls and links.
-/

namespace Sys2Proof.Machine

/-! ### What tokens, event records and loop samples leave as it was -/

/-- A fold of steps that each keep a part of the state keeps it. -/
theorem foldl_keeps {α β : Type} (view : State → β) (f : State → α → State) (h : ∀ a i, view (f a i) = view a) (l : List α) (s : State) :
    view (l.foldl f s) = view s := by
  induction l generalizing s with
  | nil => rfl
  | cons i r ih => rw [List.foldl_cons, ih, h]

/-- A token sent or withheld changes the edges only. -/
theorem offerToken_eq (e : Nat) (tk : Token) (s : State) : ∃ es, offerToken e tk s = { s with fab := { s.fab with edges := es } } := by
  unfold offerToken; split
  · exact ⟨s.fab.edges, rfl⟩
  · exact ⟨_, rfl⟩

@[simp] theorem offerToken_sense (e : Nat) (tk : Token) (s : State) : (offerToken e tk s).sense = s.sense := by
  obtain ⟨es, h⟩ := offerToken_eq e tk s; rw [h]

/-- A fusion event record changes the host's side and the two event rings only (R253). -/
theorem fuseEvt_eq (d kind g a b fseq st detail stream : Nat) (s : State) :
    ∃ h x y, fuseEvt d kind g a b fseq st detail stream s = { s with host := h, sense := { s.sense with evt0 := x, evt1 := y } } := by
  unfold fuseEvt; dsimp only; split
  · exact ⟨_, _, _, rfl⟩
  · obtain ⟨m, hm⟩ := hostWr_eq (evtRing d s).port ((evtRing d s).base + (evtRing d s).wr % 1024 * 32)
      (leBytes 1 kind ++ leBytes 1 (128 * phaseOf 1024 (evtRing d s).wr) ++ leBytes 1 g ++ leBytes 1 a ++ leBytes 1 b ++ zeroBytes 3
        ++ leBytes 8 fseq ++ leBytes 8 st ++ leBytes 4 detail ++ leBytes 1 stream ++ zeroBytes 3) s
    rw [hm]
    have hring : ∀ u : State, ∃ x y, modEvt d (fun r => { r with wr := wrapAdd 16 r.wr 1 }) u
        = { u with sense := { u.sense with evt0 := x, evt1 := y } } := by
      intro u; unfold modEvt; split
      · exact ⟨_, u.sense.evt1, rfl⟩
      · exact ⟨u.sense.evt0, _, rfl⟩
    obtain ⟨x, y, hxy⟩ := hring { s with host := { s.host with mem := m } }
    rw [hxy]
    split
    · obtain ⟨p, q, l, h⟩ := sendVec_eq (evtRing d s).port (evtRing d s).vector
        { s with host := { s.host with mem := m }, sense := { s.sense with evt0 := x, evt1 := y } }
      exact ⟨_, x, y, h⟩
    · exact ⟨_, x, y, rfl⟩

@[simp] theorem traceEv_sense (d src kind data : Nat) (s : State) : (traceEv d src kind data s).sense = s.sense := by
  obtain ⟨m, a, b, h⟩ := traceEv_eq d src kind data s; rw [h]

/-- A frame of a loop slot leaves the sensor intake and the fusion engines as they were. -/
@[simp] theorem safeFrame_sense (n : Nat) (s : State) : (safeFrame n s).sense = s.sense := by
  unfold safeFrame
  obtain ⟨⟨t, l, h⟩, -⟩ := sendFrame_spec n (stamp (n / 8) s) 0
    (modLoop n (fun y => { y with outs := y.outs.map (safeStep (fsec y.periodUs)), waiting := none, safeAt := s.time.now }) s)
  rw [h]; rfl

@[simp] theorem trigger_sense (n st : Nat) (s : State) : (trigger n st s).sense = s.sense := by
  unfold trigger; dsimp only; split <;> simp

@[simp] theorem loopSample1_sense (id arrival : Nat) (payload : List Byte) (n : Nat) (s : State) :
    (loopSample1 id arrival payload n s).sense = s.sense := by
  unfold loopSample1; dsimp only; (repeat' split) <;> simp

@[simp] theorem loopSample_sense (id arrival : Nat) (payload : List Byte) (s : State) : (loopSample id arrival payload s).sense = s.sense :=
  foldl_keeps (·.sense) _ (fun _ _ => loopSample1_sense _ _ _ _ _) _ _

/-! ### Samples (R225, R228 to R230, R255) -/

/-- Counting a late sample leaves every stream as it was. -/
theorem lateGroup_streams (n : Nat) (p : Sample) (gi : Nat) (s : State) : (lateGroup n p gi s).sense.streams = s.sense.streams := by
  refine foldl_keeps (·.sense.streams) _ (fun a m => ?_) _ _
  dsimp only
  split
  · rfl
  · split
    · obtain ⟨h, x, y, he⟩ := fuseEvt_eq _ _ _ _ _ _ _ _ _ _
      rw [he]; rfl
    · rfl

@[simp] theorem offerSample_sense (n : Nat) (p : Sample) (s : State) : (offerSample n p s).sense = s.sense :=
  foldl_keeps (·.sense) _ (fun _ _ => offerToken_sense _ _ _) _ _

/-- A stream's record once the sample of entry `q`, complete in `q'`, came to its end at `now`. -/
def SensStream.completed (q q' : Sample) (now : Nat) (x : SensStream) : SensStream :=
  { x with
    entries := x.entries.map (fun y => if y.seq = q.seq then q' else y)
    inFrame := false, noEntry := false, bad := false
    stall := false, count := wrapAdd 32 x.count 1, compAt := now }

/-- What a complete sample does to its stream; late slots, tokens and loop channels do not touch it. -/
theorem sens_completeSample (n : Nat) (q : Sample) (payload : List Byte) (s : State) :
    sens n (completeSample n q payload s)
      = (sens n s).completed q { q with complete := true, compStamp := shortStamp (sensDie (sens n s)) s } s.time.now := by
  have hstreams : (completeSample n q payload s).sense.streams
      = (modSens n (SensStream.completed q { q with complete := true, compStamp := shortStamp (sensDie (sens n s)) s } s.time.now) s).sense.streams := by
    have hlate : ∀ (q' : Sample) (gs : List Nat) (u : State), (gs.foldl (fun a g => lateGroup n q' g a) u).sense.streams = u.sense.streams :=
      fun q' gs u => foldl_keeps (·.sense.streams) _ (fun a g => lateGroup_streams n q' g a) gs u
    unfold completeSample
    dsimp only
    split
    · rw [loopSample_sense, offerSample_sense, hlate]; rfl
    · rw [offerSample_sense, hlate]; rfl
  exact (congrArg (tget ({} : SensStream) n) hstreams).trans (sens_modSens_same n _ s)

/-- The sample a stream begins with an arrival stamp: its number, its arrival and measurement stamps (R228). -/
def SensStream.next (st : Nat) (x : SensStream) : Sample := { seq := x.last + 1, arrival := st, meas := st - x.offsetNs }

/-- A stream's record once that sample has its entry. -/
def SensStream.began (st : Nat) (x : SensStream) : SensStream :=
  { x with last := x.last + 1, entries := x.entries ++ [x.next st], inFrame := true, noEntry := false, bad := false }

/-- With an unwritten entry a sample begins in it (R229). -/
theorem beginSample_room {n : Nat} (st : Nat) {s : State} (h : (sens n s).entries.length < (sens n s).ring) :
    ∃ f, beginSample n st s = (some ((sens n s).next st), modSens n f s) ∧ f (sens n s) = (sens n s).began st := by
  unfold beginSample ringRoom
  simp only [h, if_true]
  exact ⟨_, rfl, rfl⟩

/-! ### CSI-2 packets (R223 to R225) -/

/-- A working port hears a packet: its link is up, and a corrected header counts. -/
def heard (p : Nat) (corrected : Bool) (s : State) : State :=
  modCsi p (fun c => { c with
    link := true, seenAt := s.time.now, eccCorr := if corrected then satAdd 16 c.eccCorr 1 else c.eccCorr }) s

theorem csi_heard (p : Nat) (c : Bool) (s : State) : csi p (heard p c s) = { csi p s with
    link := true, seenAt := s.time.now, eccCorr := if c then satAdd 16 (csi p s).eccCorr 1 else (csi p s).eccCorr } :=
  csi_modCsi_same _ _ _

theorem csiPacketRx_lost {p : Nat} {s : State} (h : isIso (0x20 + p) s = true ∨ dieUp (p / 4) s = false) (c : Bool) (k : CsiPacket) :
    csiPacketRx p c k s = s := by
  unfold csiPacketRx; rw [if_pos (by simpa using h)]

theorem csiPacketRx_heard {p : Nat} {s : State} (hiso : isIso (0x20 + p) s = false) (hup : dieUp (p / 4) s = true) (c : Bool) (k : CsiPacket) :
    csiPacketRx p c k s = csiPacket p k (heard p c s) := by
  unfold csiPacketRx; rw [if_neg (by simp [hiso, hup])]; rfl

/-- A Frame Start of a stream between frames begins its next sample. -/
theorem csiStart_room {n : Nat} {s : State} (hin : (sens n s).inFrame = false) (h : (sens n s).entries.length < (sens n s).ring) :
    ∃ f, csiStart n s = modSens n f s ∧ f (sens n s) = (sens n s).began (stamp (sensDie (sens n s)) s) := by
  obtain ⟨f, hb, hf⟩ := beginSample_room (stamp (sensDie (sens n s)) s) h
  refine ⟨f, ?_, hf⟩
  unfold csiStart
  simp only [hin, Bool.false_eq_true, false_and, if_false, hb]

/-- A Frame End of a spoilt or short frame discards its sample. -/
theorem csiEnd_spoilt {n : Nat} {q : Sample} {s : State} (hin : (sens n s).inFrame = true) (hno : (sens n s).noEntry = false)
    (hq : current n s = some q) (hbad : (sens n s).bad = true ∨ q.count ≠ (sens n s).height) : csiEnd n s = discardSample n q.seq s := by
  simp [csiEnd, hin, hno, hq, hbad]

/-- A Frame End of a good frame completes its sample. -/
theorem csiEnd_good {n : Nat} {q : Sample} {s : State} (hin : (sens n s).inFrame = true) (hno : (sens n s).noEntry = false)
    (hq : current n s = some q) (hbad : (sens n s).bad = false) (hcount : q.count = (sens n s).height) :
    csiEnd n s = completeSample n q q.data s := by
  simp [csiEnd, hin, hno, hq, hbad, hcount]

/-- The ring entry of the frame being received, with one more line in it. -/
def SensStream.lineIn (dt : Nat) (px : List Nat) (x : SensStream) (p : Sample) : Sample :=
  { p with data := p.data ++ px.flatMap (pixelBytes x.pixFmt dt), count := p.count + 1 }

/-- A line of a frame adds its pixels to the open entry, and spoils the frame when its CRC or its pixel count is wrong. -/
theorem sens_csiLine {n : Nat} {s : State} (dt : Nat) (px : List Nat) (ok : Bool) (hin : (sens n s).inFrame = true) :
    sens n (csiLine n dt px ok s) = { sens n s with
      bad := (sens n s).bad || (!ok || decide (px.length ≠ (sens n s).width * dtChannels dt))
      entries := (sens n s).entries.map (fun p => if p.seq = (sens n s).last ∧ !p.complete then (sens n s).lineIn dt px p else p) } := by
  unfold csiLine
  dsimp only
  rw [if_neg (by simp [hin])]
  exact (sens_modSens_same n _ s).trans rfl

/-- A line reaches the last entry alone when that is the open one. -/
theorem map_open_entry {x : SensStream} {r : List Sample} {q : Sample} (f : Sample → Sample) (hx : x.entries = r ++ [q]) (hq : q.seq = x.last)
    (hopen : q.complete = false) (hr : ∀ y ∈ r, y.seq ≠ q.seq) :
    x.entries.map (fun p => if p.seq = x.last ∧ !p.complete then f p else p) = r ++ [f q] := by
  have hrest : r.map (fun p => if p.seq = x.last ∧ !p.complete then f p else p) = r := by
    refine (List.map_congr_left fun y hy => if_neg ?_).trans (List.map_id' r)
    exact fun h => hr y hy (h.1.trans hq.symm)
  rw [hx, List.map_append, hrest]
  simp [hq, hopen]

/-- A long packet of no stream counts UNMATCHED, data type 0x12 excepted. -/
theorem csiPacket_unmatched {p vc dt : Nat} {s : State} (h : csiStreams p (fun x => x.vc == vc && x.dt == dt) s = []) (px : List Nat) (ok : Bool) :
    csiPacket p (.long vc dt px ok) s = if dt = 0x12 then s else modCsi p (fun c => { c with unmatched := satAdd 16 c.unmatched 1 }) s := by
  simp only [csiPacket, h]

/-- A long packet of one stream is a line of it. -/
theorem csiPacket_line {p vc dt n : Nat} {s : State} (h : csiStreams p (fun x => x.vc == vc && x.dt == dt) s = [n]) (px : List Nat) (ok : Bool) :
    csiPacket p (.long vc dt px ok) s = csiLine n dt px ok s := by
  simp only [csiPacket, h, List.foldl_cons, List.foldl_nil]

theorem csiPacket_frameStart {p vc n : Nat} {s : State} (h : csiStreams p (fun x => x.vc == vc) s = [n]) :
    csiPacket p (.frameStart vc) s = csiStart n s := by
  simp only [csiPacket, h, List.foldl_cons, List.foldl_nil]

theorem csiPacket_frameEnd {p vc n : Nat} {s : State} (h : csiStreams p (fun x => x.vc == vc) s = [n]) :
    csiPacket p (.frameEnd vc) s = csiEnd n s := by
  simp only [csiPacket, h, List.foldl_cons, List.foldl_nil]

/-- An uncorrectable header spoils the frames of its port and touches no source beside the port's. -/
theorem fsrc_badHeader (p i : Nat) (s : State) : fsrc i (csiPacket p .badHeader s) = fsrc i (latch (srcCsi p 1) p s) := by
  unfold csiPacket
  dsimp only
  split
  · rfl
  · exact foldl_keeps (fsrc i) (fun a n => modSens n (fun y => { y with bad := true }) a) (fun _ _ => rfl) _ _

/-- The frame under way on the port's only receiving stream is spoilt. -/
theorem sens_badHeader {p n : Nat} {s : State} (h : csiStreams p (fun x => x.inFrame) s = [n]) :
    sens n (csiPacket p .badHeader s) = { sens n s with bad := true } := by
  simp only [csiPacket, h, List.foldl_cons, List.foldl_nil]
  exact sens_modSens_same n _ _

/-! ### Ethernet flows (R226, R227) -/

/-- The streams of a port whose flow a frame matches. -/
def flowTakers (e : Nat) (f : EthFrame) (s : State) : List Nat :=
  (declaredSens s).filter (fun n => (sens n s).eth && (sens n s).port == e && (flowMatch (sens n s) f).isSome)

theorem ethFrameRx_discarded {e : Nat} {f : EthFrame} {s : State} (h : ethUp e s = false ∨ f.fcsOk = false) : ethFrameRx e f s = s := by
  unfold ethFrameRx
  rw [if_pos]
  rcases h with h | h <;> simp [h]

section Received

variable {e : Nat} {f : EthFrame} {s : State} (hup : ethUp e s = true) (hfcs : f.fcsOk = true) (hlen : (ethBytes f).length ≤ 9216)
include hup hfcs hlen

/-- Such a frame passes the MAC. -/
theorem frame_not_discarded : ¬((!ethUp e s) = true ∨ (!f.fcsOk) = true ∨ 9216 < (ethBytes f).length) := by
  rw [hup, hfcs]
  rintro (h | h | h)
  · cases h
  · cases h
  · exact Nat.not_lt.2 hlen h

/-- A frame that no flow takes is the agent's, the partner's or the host's. -/
theorem ethFrameRx_unmatched (h : flowTakers e f s = []) : ethFrameRx e f s = if ownFrame f then s else hostRx e f s := by
  unfold flowTakers at h
  unfold ethFrameRx
  rw [if_neg (frame_not_discarded hup hfcs hlen)]
  simp only [h]

theorem ethFrameRx_fragment {n : Nat} {r : List Nat} {pl : List Byte} (h : flowTakers e f s = n :: r)
    (hm : flowMatch (sens n s) f = some (pl, true)) : ethFrameRx e f s = modSens n (fun y => { y with err := satAdd 16 y.err 1 }) s := by
  unfold flowTakers at h
  unfold ethFrameRx
  rw [if_neg (frame_not_discarded hup hfcs hlen)]
  simp only [h, hm]

theorem ethFrameRx_sample {n : Nat} {r : List Nat} {pl : List Byte} (h : flowTakers e f s = n :: r)
    (hm : flowMatch (sens n s) f = some (pl, false)) : ethFrameRx e f s = flowSample n (ingressStamp e s) pl s := by
  unfold flowTakers at h
  unfold ethFrameRx
  rw [if_neg (frame_not_discarded hup hfcs hlen)]
  simp only [h, hm]

end Received

/-- Extracting points keeps the number and the stamps of a sample, and stores the payload. -/
theorem withPoints_kept (x : SensStream) (payload : List Byte) (p : Sample) :
    (withPoints x payload p).seq = p.seq ∧ (withPoints x payload p).arrival = p.arrival ∧ (withPoints x payload p).meas = p.meas
      ∧ (withPoints x payload p).data = payload := by
  unfold withPoints; split <;> exact ⟨rfl, rfl, rfl, rfl⟩

/-- Replacing the entry of a new number changes the last entry only. -/
theorem map_new_entry {es : List Sample} {k : Nat} {p : Sample} (hp : p.seq = k) (hes : ∀ y ∈ es, y.seq ≠ k) (q : Sample) :
    (es ++ [p]).map (fun z => if z.seq = k then q else z) = es ++ [q] := by
  rw [List.map_append, (List.map_congr_left fun y hy => if_neg (hes y hy)).trans (List.map_id' es)]
  simp [hp]

/-- The record of a flow whose frame carries `full`: a payload beyond MAX_LEN counts an error. -/
def SensStream.cut (full : List Byte) (x : SensStream) : SensStream :=
  { x with err := if x.width < full.length then satAdd 16 x.err 1 else x.err }

/-- A frame of a flow makes one complete sample of the payload up to MAX_LEN (R226). -/
theorem sens_flowSample {n st : Nat} {full : List Byte} {s : State} (hroom : (sens n s).entries.length < (sens n s).ring)
    (hseq : ∀ y ∈ (sens n s).entries, y.seq ≤ (sens n s).last) :
    ∃ q q', sens n (flowSample n st full s)
        = { (((sens n s).cut full).began st).completed q q' s.time.now with entries := (sens n s).entries ++ [q'] }
      ∧ q'.complete = true ∧ q'.seq = (sens n s).last + 1 ∧ q'.arrival = st ∧ q'.meas = st - (sens n s).offsetNs
      ∧ q'.data = full.take (sens n s).width := by
  obtain ⟨s1, hs1, hnow, hx⟩ : ∃ s1, (if (sens n s).width < full.length then modSens n (fun y => { y with err := satAdd 16 y.err 1 }) s else s) = s1
      ∧ s1.time = s.time ∧ sens n s1 = (sens n s).cut full := by
    refine ⟨_, rfl, ?_⟩
    unfold SensStream.cut
    split
    · exact ⟨rfl, sens_modSens_same _ _ _⟩
    · exact ⟨rfl, rfl⟩
  obtain ⟨f, hbegin, hf⟩ := beginSample_room (n := n) st (s := s1) (by rw [hx]; exact hroom)
  obtain ⟨hqseq, hqarr, hqmeas, hqdata⟩ := withPoints_kept (sens n s) (full.take (sens n s).width) ((sens n s1).next st)
  unfold flowSample
  dsimp only
  rw [hs1, hbegin]
  dsimp only
  generalize withPoints (sens n s) (full.take (sens n s).width) ((sens n s1).next st) = q at *
  rw [hx] at hf hqseq hqarr hqmeas
  have hnew : ∀ y ∈ (sens n s).entries, y.seq ≠ q.seq := by
    intro y hy
    have hlast := hseq y hy
    have hq : q.seq = (sens n s).last + 1 := hqseq
    omega
  obtain ⟨stamped, hdone⟩ : ∃ cs, ∀ s2, s2 = modSens n (fun y => { y with entries := y.entries.map (fun z => if z.seq = q.seq then q else z) }) (modSens n f s1) →
      sens n (completeSample n q (full.take (sens n s).width) s2) = (sens n s2).completed q { q with complete := true, compStamp := cs } s.time.now :=
    ⟨_, fun s2 h => by subst h; rw [← hnow]; exact sens_completeSample _ _ _ _⟩
  rw [hdone _ rfl, sens_modSens_same, sens_modSens_same, hx, hf]
  refine ⟨q, { q with complete := true, compStamp := stamped }, ?_, rfl, hqseq, hqarr, hqmeas, hqdata⟩
  have hentries : (((sens n s).cut full).began st).entries = (sens n s).entries ++ [((sens n s).cut full).next st] := rfl
  unfold SensStream.completed
  dsimp only
  rw [hentries, map_new_entry hqseq.symm hnew, map_new_entry rfl hnew]

/-! ### Stalls and links (R223, R230, R309, R348) -/

theorem streamStall_due {n : Nat} {s : State} (hdecl : (sens n s).declared = true) (hst : (sens n s).stall = false)
    (hdue : (sens n s).compAt + 3 * (sens n s).periodUs * 1000 ≤ s.time.now) :
    streamStall n s = latch (sensDie (sens n s) * 0x400 + 0x100 + n) n (modSens n (fun y => { y with stall := true }) s) := by
  unfold streamStall; dsimp only; rw [if_pos ⟨hdecl, by simp [hst], hdue⟩]

theorem streamStall_idle {n : Nat} {s : State}
    (h : s.time.now < (sens n s).compAt + 3 * (sens n s).periodUs * 1000 ∨ (sens n s).stall = true) : streamStall n s = s := by
  unfold streamStall; dsimp only
  rw [if_neg]
  rintro ⟨-, hst, hdue⟩
  rcases h with h | h
  · omega
  · simp [h] at hst

/-- The link bit of a CSI port goes out after 1 ms without traffic; nothing else changes. -/
theorem csiLinkLost_spec (p : Nat) (s : State) :
    (csi p (csiLinkLost p s)).link = ((csi p s).link && decide (s.time.now < (csi p s).seenAt + 1000000))
    ∧ csiLinkLost p s = { s with sense := { s.sense with csi := (csiLinkLost p s).sense.csi } } := by
  unfold csiLinkLost
  split
  · next h => exact ⟨by rw [csi_modCsi_same]; simp [h.2], rfl⟩
  · next h =>
    refine ⟨?_, rfl⟩
    cases hl : (csi p s).link
    · rfl
    · simp [hl] at h; simp [h]

end Sys2Proof.Machine

namespace Sys2Proof

open Sys2Proof.Machine

/-- Settles O44: a packet or frame acts on the one stream that takes it, and a stall or a link event on its own record. -/
theorem sensorPacketsAndFramesBecomeSamples : Obligations.SensorPacketsAndFramesBecomeSamples := by
  refine ⟨fun t p c s0 hp => ?_, fun t e f s0 => ?_, fun t n e p fast s0 => ?_⟩
  · intro s counted
    have hexec : ∀ k, Machine.exec (.csiPacketRx t p c k) s0 = .next (csiPacketRx p c k s) := fun _ => rfl
    clear_value s
    refine ⟨fun hlost k => (hexec k).trans (congrArg _ (csiPacketRx_lost hlost c k)), fun hiso hup => ?_⟩
    have hrx : ∀ k, Machine.exec (.csiPacketRx t p c k) s0 = .next (csiPacket p k (heard p c s)) :=
      fun k => (hexec k).trans (congrArg _ (csiPacketRx_heard hiso hup c k))
    refine ⟨fun vc n hvc => ?_, fun vc dt px ok n hvc hin => ?_, fun vc dt px ok hvc => ?_, ?_⟩
    · intro x
      refine ⟨fun hin hroom => ?_, fun q hin hno hq => ⟨fun hbad => ?_, fun hbad hcount heth => ?_⟩⟩
      · obtain ⟨f, hstart, hf⟩ := csiStart_room (n := n) (s := heard p c s) hin hroom
        refine ⟨_, (hrx _).trans (congrArg _ ((csiPacket_frameStart (s := heard p c s) hvc).trans hstart)), ?_, ?_, ?_, fun j hj => ?_, rfl⟩
        · exact (sens_modSens_same _ _ _).trans hf
        · simp [csi_heard]
        · simp [csi_heard, counted]
        · exact sens_modSens_ne _ _ hj
      · refine ⟨_, (hrx _).trans (congrArg _ ((csiPacket_frameEnd (s := heard p c s) hvc).trans (csiEnd_spoilt (s := heard p c s) hin hno hq hbad))), ?_, rfl⟩
        refine (sens_modSens_same _ _ _).trans ?_
        rw [← hno]; rfl
      · refine ⟨_, (hrx _).trans (congrArg _ ((csiPacket_frameEnd (s := heard p c s) hvc).trans (csiEnd_good (s := heard p c s) hin hno hq hbad hcount))), ?_⟩
        rw [sens_completeSample]
        exact ⟨rfl, rfl, rfl, rfl, rfl, rfl⟩
    · refine ⟨_, (hrx _).trans (congrArg _ (csiPacket_line (s := heard p c s) hvc px ok)), ?_, fun q r hr hq hopen hother => ?_⟩
      · rw [sens_csiLine (s := heard p c s) dt px ok hin, Bool.or_assoc]; rfl
      · rw [sens_csiLine (s := heard p c s) dt px ok hin]
        exact map_open_entry (x := sens n s) _ hr hq hopen hother
    · refine ⟨_, (hrx _).trans (congrArg _ (csiPacket_unmatched (s := heard p c s) hvc px ok)), ?_, ?_⟩
      · split <;> simp [csi_heard, counted]
      · split <;> rfl
    · refine ⟨_, hrx _, ?_, ?_, fun n hn => sens_badHeader hn⟩
      · rw [fsrc_badHeader, fsrc_latch_same]
      · rw [fsrc_badHeader, fsrc_latch_same]
  · intro s mine
    have hexec : Machine.exec (.ethFrameRx t e f) s0 = .next (ethFrameRx e f s) := rfl
    clear_value s
    refine ⟨fun h => hexec.trans (congrArg _ (ethFrameRx_discarded h)), fun hup hfcs hlen => ⟨fun n r pl hmine hm hroom hseq => ?_,
      fun n r pl hmine hm => ?_, fun hmine hown => ?_, fun hmine hown hrx => ?_⟩⟩
    · obtain ⟨q, q', hsens, hq⟩ := sens_flowSample hroom hseq
      refine ⟨_, hexec.trans (congrArg _ (ethFrameRx_sample hup hfcs hlen hmine hm)), ?_⟩
      rw [hsens]
      exact ⟨rfl, rfl, rfl, q', rfl, hq⟩
    · exact ⟨_, hexec.trans (congrArg _ (ethFrameRx_fragment hup hfcs hlen hmine hm)), sens_modSens_same _ _ _, rfl⟩
    · exact hexec.trans (congrArg _ ((ethFrameRx_unmatched hup hfcs hlen hmine).trans (if_pos hown)))
    · have hdrop : hostRx e f s = modEth e (fun p => { p with drop := satAdd 16 p.drop 1 }) s := by
        unfold hostRx; dsimp only; rw [if_pos (by simp [hrx])]
      refine ⟨_, hexec.trans (congrArg _ ((ethFrameRx_unmatched hup hfcs hlen hmine).trans ((if_neg (by simp [hown])).trans hdrop))), ?_, rfl⟩
      exact eport_modEth_same _ _ _
  · intro s x due
    have hstall : Machine.exec (.streamStall t n) s0 = .next (streamStall n s) := rfl
    have hcsi : Machine.exec (.csiLinkLost t p) s0 = .next (csiLinkLost p s) := rfl
    have hdown : Machine.exec (.ethLinkDown t e) s0 = .next (ethLinkDown e s) := rfl
    have hlink : Machine.exec (.ethLinkUp t e fast) s0 = .next (ethLinkUp e fast s) := rfl
    clear_value s
    refine ⟨fun hd hs hdue => ?_, fun h => hstall.trans (congrArg _ (streamStall_idle h)), ⟨_, hcsi, csiLinkLost_spec p s⟩, fun hl => ?_,
      fun hl => ?_, fun hiso hup => ?_, fun h => ?_⟩
    · refine ⟨_, hstall.trans (congrArg _ (streamStall_due hd hs hdue)), ?_, ?_, ?_, fun j hj => ?_, rfl⟩
      · rw [sens_latch]; exact sens_modSens_same _ _ _
      · rw [fsrc_latch_same]
      · rw [fsrc_latch_same]
      · rw [sens_latch]; exact sens_modSens_ne _ _ hj
    · refine ⟨_, hdown.trans (congrArg _ (if_pos hl)), ?_, ?_, fun j hj => ?_, rfl⟩
      · rw [eport_latch]; exact eport_modEth_same _ _ _
      · rw [fsrc_latch_same]
      · rw [eport_latch]; exact eport_modEth_ne _ _ hj
    · exact hdown.trans (congrArg _ (if_neg (by simp [hl])))
    · exact ⟨_, hlink.trans (congrArg _ (if_neg (by simp [hiso, hup]))), eport_modEth_same _ _ _, fun j hj => eport_modEth_ne _ _ hj, rfl⟩
    · exact hlink.trans (congrArg _ (if_pos (by simpa using h)))

end Sys2Proof

/-!
SUPPORT. The proofs of the statements about fusion groups: slots and their decisions, emission, reports and the move of a group.
-/

namespace Sys2Proof.Machine

/-! ### Members and frames of a slot (R235 to R240) -/

/-- A decision leaves no member undecided. -/
theorem decideMember_decided (g tov : Nat) (mask : Bool) (s : State) (m : SlotMember) : (decideMember g tov mask s m).st ≠ .undecided := by
  unfold decideMember
  dsimp only
  split
  · assumption
  · split
    · simp
    · split
      · split
        · cases mask <;> simp
        · dsimp only; split <;> simp
      · split <;> simp

/-- The FRAME record is never empty. -/
theorem frameRecord_ne_nil (g : Nat) (x : FuseSlot) (oldFree dec : Nat) (deg : Bool) (s : State) : frameRecord g x oldFree dec deg s ≠ [] := by
  intro h
  have hlen := congrArg List.length h
  unfold frameRecord at hlen
  simp only [List.length_append, length_leBytes, List.length_nil] at hlen
  omega

/-! ### The decision of a slot (R237) -/

@[simp] theorem group_traceEv (j d src kind data : Nat) (s : State) : group j (traceEv d src kind data s) = group j s := by
  unfold group; rw [traceEv_sense]

/-- The slot a decision or a limit of FSEQ `k` finds: the first that still waits. -/
def FuseGroup.waiting (k : Nat) (x : FuseGroup) : Option FuseSlot := x.open_.find? (fun y => y.fseq == k && !y.emitting)

theorem FuseGroup.waiting_fseq {k : Nat} {x : FuseGroup} {f : FuseSlot} (h : x.waiting k = some f) : f.fseq = k := by
  have := List.find?_some h
  simp only [Bool.and_eq_true, beq_iff_eq] at this
  exact this.1

/-- The content `f'` that a decision, forced or not, gives the waiting slot `f`. -/
structure SlotFixed (g : Nat) (forced : Bool) (s : State) (f f' : FuseSlot) : Prop where
  fseq : f'.fseq = f.fseq
  emitting : f'.emitting = true
  forcedFlag : f'.forced = forced
  degraded : forced = true → f'.degraded = true
  decided : f'.decided = shortStamp (group g s).home s
  frame : f'.frame ≠ []
  members : f'.members = f.members.map (decideMember g f.tov true s)

/-- The slot a decision in `s` makes of `f`: its record is formed with the free value `free`, in the state `s1` after the draw. -/
def FuseSlot.fix (g : Nat) (forced : Bool) (s s1 : State) (free : Nat) (f : FuseSlot) : FuseSlot :=
  let ms := f.members.map (decideMember g f.tov true s)
  let deg := forced || ms.any (fun m => m.st.isMissed || m.st == .blocked)
  let f1 := { f with members := ms, forced := forced }
  { f1 with
    emitting := true, decided := shortStamp (group g s).home s, degraded := deg
    frame := frameRecord g f1 free (shortStamp (group g s).home s) deg s1, depth := depthsOf g f1 s1 }

theorem FuseSlot.fix_fixed (g : Nat) (forced : Bool) (s s1 : State) (free : Nat) (f : FuseSlot) :
    SlotFixed g forced s f (f.fix g forced s s1 free) :=
  ⟨rfl, rfl, rfl, by rintro rfl; rfl, rfl, frameRecord_ne_nil _ _ _ _ _ _, rfl⟩

/-- A group whose slot of FSEQ `k` is fixed as `f'`, with the confidences `cs` remembered and the counters brought up to date. -/
def FuseGroup.withFixed (k : Nat) (f' : FuseSlot) (forced : Bool) (cs : List Nat) (x : FuseGroup) : FuseGroup :=
  { x with
    open_ := x.open_.map (fun y => if y.fseq = k then f' else y)
    frames := (k, cs, f'.degraded) :: x.frames.take 63
    members := x.members.map (confAfter x f')
    degraded := if f'.degraded then satAdd 16 x.degraded 1 else x.degraded
    forced := if forced then satAdd 10 x.forced 1 else x.forced }

/-- A decision fixes the waiting slot in its group, and changes no other group. -/
theorem decideSlot_fixes {g k : Nat} (forced : Bool) {s : State} {f : FuseSlot} (h : (group g s).waiting k = some f) :
    ∃ f' cs, SlotFixed g forced s f f' ∧ group g (decideSlot g k forced s) = (group g s).withFixed k f' forced cs
      ∧ ∀ j, j ≠ g → group j (decideSlot g k forced s) = group j s := by
  unfold FuseGroup.waiting at h
  unfold decideSlot
  simp only [h]
  generalize hdraw : (if (usedSamples (f.members.map (decideMember g f.tov true s)) s).isEmpty then drawFree s else (0, s)) = d
  have hgroup : ∀ j, group j d.2 = group j s := by
    intro j; rw [← hdraw]; split <;> rfl
  obtain ⟨free, s1⟩ := d
  dsimp only at hgroup ⊢
  refine ⟨f.fix g forced s s1 free, (List.range 32).map (fun i => (memberReg g i s1).conf), FuseSlot.fix_fixed g forced s s1 free f,
    (group_traceEv _ _ _ _ _ _).trans ((group_modGroup_same _ _ _).trans ?_), fun j hj => ?_⟩
  · rw [hgroup]; rfl
  · rw [group_traceEv, group_modGroup_ne _ _ hj, hgroup]

/-- Every slot of FSEQ `k` holds the content the decision gave it. -/
theorem FuseGroup.mem_withFixed {k : Nat} {f' y : FuseSlot} {forced : Bool} {cs : List Nat} {x : FuseGroup}
    (hy : y ∈ (x.withFixed k f' forced cs).open_) (hk : y.fseq = k) : y = f' := by
  obtain ⟨z, -, hz⟩ := List.mem_map.1 hy
  split at hz
  · exact hz.symm
  · next hne => subst hz; exact absurd hk hne

/-- What every slot of FSEQ `k` holds after its decision. -/
theorem FuseGroup.fixed_of_withFixed {g k : Nat} {forced : Bool} {s : State} {f f' : FuseSlot} {cs : List Nat} {x : FuseGroup}
    (h : SlotFixed g forced s f f') {y : FuseSlot} (hy : y ∈ (x.withFixed k f' forced cs).open_) (hk : y.fseq = k) :
    y.emitting = true ∧ y.forced = forced ∧ y.decided = shortStamp (group g s).home s ∧ y.frame ≠ [] := by
  rw [FuseGroup.mem_withFixed hy hk]
  exact ⟨h.emitting, h.forcedFlag, h.decided, h.frame⟩

/-! ### Waiting limits and member decisions (R236, R237) -/

theorem slotWaitLimit_early {g k : Nat} {s : State} {f : FuseSlot} (h : (group g s).waiting k = some f)
    (hlt : stamp (group g s).home s < f.tov + f.waitUs * 1000) : slotWaitLimit g k s = s := by
  unfold FuseGroup.waiting at h
  simp only [slotWaitLimit, h, hlt, if_true]

theorem slotWaitLimit_due {g k : Nat} {s : State} {f : FuseSlot} (h : (group g s).waiting k = some f)
    (hle : f.tov + f.waitUs * 1000 ≤ stamp (group g s).home s) : slotWaitLimit g k s = decideSlot g k false s := by
  unfold FuseGroup.waiting at h
  simp only [slotWaitLimit, h, Nat.not_lt.2 hle, if_false]

/-- The members of a slot once its member `i` is decided. -/
def FuseSlot.decideAt (g i : Nat) (s : State) (f : FuseSlot) : List SlotMember :=
  f.members.map (fun z => if z.index = i then decideMember g f.tov false s z else z)

/-- A group whose slots of FSEQ `k` have the members `ms`. -/
def FuseGroup.withMembers (k : Nat) (ms : List SlotMember) (x : FuseGroup) : FuseGroup :=
  { x with open_ := x.open_.map (fun y => if y.fseq = k then { y with members := ms } else y) }

/-- New members do not change which slot waits. -/
theorem FuseGroup.waiting_withMembers {k : Nat} {x : FuseGroup} {f : FuseSlot} (ms : List SlotMember) (h : x.waiting k = some f) :
    (x.withMembers k ms).waiting k = some { f with members := ms } := by
  unfold FuseGroup.waiting at h
  have hsame : (fun y : FuseSlot => y.fseq == k && !y.emitting) ∘ (fun y => if y.fseq = k then { y with members := ms } else y)
      = fun y => y.fseq == k && !y.emitting := by
    funext y
    dsimp only [Function.comp]
    split <;> rfl
  unfold FuseGroup.waiting FuseGroup.withMembers
  rw [List.find?_map, hsame, h, Option.map_some, if_pos (FuseGroup.waiting_fseq h)]

section MemberDecision

variable {g k i : Nat} {s : State} {f : FuseSlot} {m : SlotMember} (h : (group g s).waiting k = some f)
  (hm : f.members.find? (fun y => y.index == i) = some m)
include h hm

theorem memberDecide_early (hearly : stamp (group g s).home s < f.tov + m.after * 1000 + m.offsetNs ∨ windowInFlight m f.tov s = true) :
    memberDecide g k i s = s := by
  unfold FuseGroup.waiting at h
  simp only [memberDecide, h, hm, hearly, if_true]

theorem memberDecide_due (hle : f.tov + m.after * 1000 + m.offsetNs ≤ stamp (group g s).home s) (hfl : windowInFlight m f.tov s = false) :
    memberDecide g k i s = if (f.decideAt g i s).all (fun z => z.st ≠ .undecided)
      then decideSlot g k false (modGroup g (FuseGroup.withMembers k (f.decideAt g i s)) s)
      else modGroup g (FuseGroup.withMembers k (f.decideAt g i s)) s := by
  unfold FuseGroup.waiting at h
  simp only [memberDecide, h, hm, Nat.not_lt.2 hle, hfl, Bool.false_eq_true, or_self, if_false]
  rfl

end MemberDecision

/-- A member other than the decided one keeps its state. -/
theorem FuseSlot.decideAt_pending {g i : Nat} {s : State} {f : FuseSlot} (h : ∃ y ∈ f.members, y.index ≠ i ∧ y.st = .undecided) :
    (f.decideAt g i s).all (fun z => z.st ≠ .undecided) = false := by
  obtain ⟨y, hy, hi, hst⟩ := h
  rw [List.all_eq_false]
  exact ⟨y, List.mem_map.2 ⟨y, hy, if_neg hi⟩, by simp [hst]⟩

/-- When every other member is decided, the decided one was the last. -/
theorem FuseSlot.decideAt_complete {g i : Nat} {s : State} {f : FuseSlot} (h : ∀ y ∈ f.members, y.index ≠ i → y.st ≠ .undecided) :
    (f.decideAt g i s).all (fun z => z.st ≠ .undecided) = true := by
  rw [List.all_eq_true]
  intro z hz
  obtain ⟨y, hy, rfl⟩ := List.mem_map.1 hz
  rw [decide_eq_true_eq]
  split
  · exact decideMember_decided _ _ _ _ _
  · next hi => exact h y hy hi

/-! ### The opening of a slot (R234, R239) -/

section Opening

variable {g tau : Nat} {s : State} (hdecl : (group g s).declared = true) (hup : dieUp (group g s).home s = true)
  (hgrid : gridNow (group g s).home ((group g s).periodUs * 1000) (group g s).phaseNs s = some tau)
include hdecl hup hgrid

theorem slotOpen_seen (h : (group g s).lastT = some tau) : slotOpen g s = s := by
  simp [slotOpen, hdecl, hup, hgrid, h]

variable (hnew : (group g s).lastT ≠ some tau)
include hnew

theorem slotOpen_used (h : fseqUsed (group g s) (tau / ((group g s).periodUs * 1000)) = true) :
    slotOpen g s = modGroup g (fun y => { y with lastT := some tau }) s := by
  simp [slotOpen, hdecl, hup, hgrid, hnew, h]

variable (hfree : fseqUsed (group g s) (tau / ((group g s).periodUs * 1000)) = false)
include hfree

theorem slotOpen_room (h : (group g s).open_.length < (group g s).slots) :
    slotOpen g s = openSlot g (tau / ((group g s).periodUs * 1000)) tau (modGroup g (fun y => { y with lastT := some tau }) s) := by
  simp [slotOpen, hdecl, hup, hgrid, hnew, hfree, h]

/-- With every slot taken, the first that waits is forced, once the group has noted the slot that waits for it. -/
theorem slotOpen_forces {f : FuseSlot} (h : (group g s).slots ≤ (group g s).open_.length)
    (hf : (group g s).open_.find? (fun y => !y.emitting) = some f) :
    ∃ u, slotOpen g s = decideSlot g f.fseq true u
      ∧ group g u = { group g s with
          lastT := some tau, opening := (group g s).opening ++ [(tau / ((group g s).periodUs * 1000), tau)] }
      ∧ (∀ j, j ≠ g → group j u = group j s) ∧ ∀ d, shortStamp d u = shortStamp d s := by
  refine ⟨modGroup g (fun y => { y with opening := y.opening ++ [(tau / ((group g s).periodUs * 1000), tau)] })
    (modGroup g (fun y => { y with lastT := some tau }) s), ?_, ?_, fun j hj => ?_, fun _ => rfl⟩
  · simp [slotOpen, hdecl, hup, hgrid, hnew, hfree, Nat.not_lt.2 h, hf]
  · rw [group_modGroup_same, group_modGroup_same]
  · rw [group_modGroup_ne _ _ hj, group_modGroup_ne _ _ hj]

theorem slotOpen_skips (h : (group g s).slots ≤ (group g s).open_.length) (hall : ∀ y ∈ (group g s).open_, y.emitting = true) :
    slotOpen g s = modGroup g (fun y => { y with skipped := satAdd 10 y.skipped 1 }) (modGroup g (fun y => { y with lastT := some tau }) s) := by
  have hnone : (group g s).open_.find? (fun y => !y.emitting) = none := List.find?_eq_none.2 fun y hy => by simp [hall y hy]
  simp [slotOpen, hdecl, hup, hgrid, hnew, hfree, Nat.not_lt.2 h, hnone]

end Opening

/-- The first slot that waits is the waiting slot of its number. -/
theorem FuseGroup.waiting_of_first {x : FuseGroup} {f : FuseSlot} (h : x.open_.find? (fun y => !y.emitting) = some f) :
    x.waiting f.fseq = some f := by
  unfold FuseGroup.waiting
  rw [List.find?_eq_some_iff_append] at h ⊢
  obtain ⟨hf, as, bs, hlist, hbefore⟩ := h
  exact ⟨by simpa using hf, as, bs, hlist, fun a ha => by simpa using Or.inr (by simpa using hbefore a ha)⟩

/-! ### Conflicts and blocks (R252, R254) -/

@[simp] theorem fuseEvt_fab (d kind g a b fseq st detail stream : Nat) (s : State) : (fuseEvt d kind g a b fseq st detail stream s).fab = s.fab := by
  obtain ⟨h, x, y, he⟩ := fuseEvt_eq d kind g a b fseq st detail stream s; rw [he]

@[simp] theorem fuseEvt_streams (d kind g a b fseq st detail stream : Nat) (s : State) :
    (fuseEvt d kind g a b fseq st detail stream s).sense.streams = s.sense.streams := by
  obtain ⟨h, x, y, he⟩ := fuseEvt_eq d kind g a b fseq st detail stream s; rw [he]

@[simp] theorem group_fuseEvt (j d kind g a b fseq st detail stream : Nat) (s : State) :
    group j (fuseEvt d kind g a b fseq st detail stream s) = group j s := by
  obtain ⟨h, x, y, he⟩ := fuseEvt_eq d kind g a b fseq st detail stream s; rw [he]; rfl

/-- A conflict counter after `n` more conflicts. -/
def countConflicts (c : Nat) : Nat → Nat
  | 0 => c
  | n + 1 => satAdd 16 (countConflicts c n) 1

theorem countConflicts_one (c : Nat) : countConflicts c 1 = satAdd 16 c 1 := rfl

theorem countConflicts_add (c m n : Nat) : countConflicts (countConflicts c m) n = countConflicts c (n + m) := by
  induction n with
  | zero => rw [Nat.zero_add]; rfl
  | succ n ih => rw [Nat.succ_add, countConflicts, countConflicts, ih]

/-- Between `s` and `u`, `n` conflicts of group `g` were counted, with their penalties, records and blocks: of the group the members,
the penalties, the history and the persistent pairs may differ, and every other group, the streams and the fabric are as they were. -/
structure Conflicts (g n : Nat) (s u : State) : Prop where
  own : group g u = { group g s with
    members := (group g u).members, penalized := (group g u).penalized, history := (group g u).history
    persistent := (group g u).persistent, conflicts := countConflicts (group g s).conflicts n }
  others : ∀ j, j ≠ g → group j u = group j s
  streams : u.sense.streams = s.sense.streams
  fab : u.fab = s.fab

theorem Conflicts.refl (g : Nat) (s : State) : Conflicts g 0 s s := ⟨rfl, fun _ _ => rfl, rfl, rfl⟩

theorem Conflicts.trans {g m n : Nat} {s u v : State} (h : Conflicts g m s u) (h' : Conflicts g n u v) : Conflicts g (n + m) s v := by
  refine ⟨?_, fun j hj => (h'.others j hj).trans (h.others j hj), h'.streams.trans h.streams, h'.fab.trans h.fab⟩
  rw [h'.own, h.own, countConflicts_add]

/-- An event record is no conflict of its own. -/
theorem Conflicts.fuseEvt {g n : Nat} {s u : State} (h : Conflicts g n s u) (d kind i a b fseq st detail stream : Nat) :
    Conflicts g n s (fuseEvt d kind i a b fseq st detail stream u) := by
  refine ⟨?_, fun j hj => (group_fuseEvt _ _ _ _ _ _ _ _ _ _ _).trans (h.others j hj), (fuseEvt_streams _ _ _ _ _ _ _ _ _ _).trans h.streams,
    (fuseEvt_fab _ _ _ _ _ _ _ _ _ _).trans h.fab⟩
  rw [group_fuseEvt]; exact h.own

/-- A change of the group's members and bookkeeping counts no conflict. -/
theorem conflicts_modGroup {g n : Nat} {f : FuseGroup → FuseGroup} {s : State} (h : f (group g s) = { group g s with
    members := (f (group g s)).members, penalized := (f (group g s)).penalized, history := (f (group g s)).history
    persistent := (f (group g s)).persistent, conflicts := countConflicts (group g s).conflicts n }) :
    Conflicts g n s (modGroup g f s) := by
  refine ⟨?_, fun j hj => group_modGroup_ne _ _ hj, rfl, rfl⟩
  rw [group_modGroup_same]; exact h

theorem penalize_conflicts (g fseq i : Nat) (s : State) : Conflicts g 0 s (penalize g fseq i s) := by
  unfold penalize; dsimp only; split
  · exact Conflicts.refl g s
  · exact conflicts_modGroup rfl

theorem blockMember_conflicts (g i : Nat) (s : State) : Conflicts g 0 s (blockMember g i s) := by
  unfold blockMember; dsimp only; split
  · exact Conflicts.refl g s
  · exact (conflicts_modGroup rfl).fuseEvt _ _ _ _ _ _ _ _ _

/-- The conflict of a pair counts once. -/
theorem conflictPair_conflicts (g kind fseq a b detail : Nat) (s : State) : Conflicts g 1 s (conflictPair g kind fseq a b detail s) := by
  unfold conflictPair
  dsimp only
  exact (((conflicts_modGroup (n := 1) rfl).fuseEvt _ _ _ _ _ _ _ _ _).trans (penalize_conflicts _ _ _ _)).trans (penalize_conflicts _ _ _ _)

/-- The islands' judgement blocks members and latches a source; it counts no conflict. -/
theorem judgeConflicts_conflicts (g : Nat) (s : State) : Conflicts g 0 s (judgeConflicts g s) := by
  unfold judgeConflicts
  dsimp only
  split
  · exact Conflicts.refl g s
  · have hstep : ∀ (p : Nat × Nat) (ps : List (Nat × Nat)) (u : State), Conflicts g 0 u
        (if partners ps p.2 < partners ps p.1 then blockMember g p.1 u
          else if partners ps p.1 < partners ps p.2 then blockMember g p.2 u
          else latch ((group g s).home * 0x400 + 0x180 + g) (p.1 + 256 * p.2) u) := by
      intro p ps u
      split
      · exact blockMember_conflicts _ _ _
      · split
        · exact blockMember_conflicts _ _ _
        · exact ⟨rfl, fun _ _ => rfl, rfl, rfl⟩
    exact List.foldlRecOn (motive := Conflicts g 0 s) _ _ (conflicts_modGroup rfl) (fun u hu p _ => hu.trans (hstep p _ u))

/-- A report counts each of its conflicts. -/
theorem reportConflicts_conflicts (g kind fseq : Nat) (cs : List ((Nat × Nat) × Nat)) (s : State) :
    Conflicts g cs.length s (reportConflicts g kind fseq cs s) := by
  have hpairs : ∀ (l : List ((Nat × Nat) × Nat)) (u : State),
      Conflicts g l.length u (l.foldl (fun a c => conflictPair g kind fseq c.1.1 c.1.2 c.2 a) u) := by
    intro l
    induction l with
    | nil => exact Conflicts.refl g
    | cons c r ih => exact fun u => (conflictPair_conflicts _ _ _ _ _ _ u).trans (ih _)
  unfold reportConflicts
  split
  · next h => rw [List.isEmpty_iff.1 h]; exact Conflicts.refl g s
  · have := (hpairs cs s).trans (judgeConflicts_conflicts g _)
    rwa [Nat.zero_add] at this

/-! ### Emission (R237, R241, R242) and the projection (R245, R367) -/

/-- The edges a slot's tokens leave on: all of its group but the track table's. -/
def frameEdges (g : Nat) (s : State) : List GEdge := (edgesFrom 3 (group g s).id s).filter (fun e => e.srcPort != 1)

/-- The slot of FSEQ `k` that waits for its emission. -/
def FuseGroup.ready (k : Nat) (x : FuseGroup) : Option FuseSlot := x.open_.find? (fun y => y.fseq == k && y.emitting)

/-- A group that has emitted its slot `f` of FSEQ `k`. -/
def FuseGroup.emitted (k : Nat) (f : FuseSlot) (y : FuseGroup) : FuseGroup :=
  { y with
    open_ := y.open_.filter (fun z => z.fseq != k)
    past := f :: y.past.take 2047
    lastFseq := k
    history := ((k, []) :: y.history).take 64 }

/-- The state once the tokens of a slot have left on the edges `es`. -/
def tokensLeft (f : FuseSlot) (s : State) (es : List GEdge) (u : State) : State :=
  es.foldl (fun a e => match slotToken f e s with | none => a | some tk => sendToken e.id tk a) u

/-- The tokens of a slot change the edges only. -/
theorem tokensLeft_eq (f : FuseSlot) (s : State) (es : List GEdge) (u : State) :
    ∃ t, tokensLeft f s es u = { u with fab := { u.fab with edges := t } } := by
  induction es generalizing u with
  | nil => exact ⟨u.fab.edges, rfl⟩
  | cons e r ih =>
    unfold tokensLeft at ih ⊢
    rw [List.foldl_cons]
    cases slotToken f e s with
    | none => exact ih u
    | some tk =>
      obtain ⟨t, h⟩ := ih (sendToken e.id tk u)
      exact ⟨t, h⟩

/-- On a single edge a token leaves for one credit. -/
theorem tokensLeft_single {f : FuseSlot} {s : State} {e : GEdge} {tk : Token} (h : slotToken f e s = some tk) :
    tokensLeft f s [e] s = sendToken e.id tk s := by
  simp only [tokensLeft, List.foldl_cons, List.foldl_nil, h]

section Emission

variable {g k : Nat} {s : State} {f : FuseSlot} (h : (group g s).ready k = some f)
include h

theorem slotEmit_waits (hwait : (group g s).raw = true ∧ f.projDone = false ∨ (∃ e ∈ frameEdges g s, (edge e.id s).credits = 0)
    ∨ dieUp (group g s).home s = false) : slotEmit g k s = s := by
  unfold FuseGroup.ready at h
  unfold frameEdges at hwait
  simp only [slotEmit, h]
  rw [if_pos (by simpa [and_assoc] using hwait)]

theorem slotEmit_leaves (hproj : (group g s).raw = false ∨ f.projDone = true) (hcred : ∀ e ∈ frameEdges g s, (edge e.id s).credits ≠ 0)
    (hup : dieUp (group g s).home s = true) (hopening : (group g s).opening = []) :
    slotEmit g k s = judgeConflicts g (modGroup g (FuseGroup.emitted k f) (tokensLeft f s (frameEdges g s) s)) := by
  obtain ⟨es, hes⟩ := tokensLeft_eq f s (frameEdges g s) s
  have hafter : (group g (modGroup g (FuseGroup.emitted k f) (tokensLeft f s (frameEdges g s) s))).opening = [] := by
    rw [group_modGroup_same, hes]; exact hopening
  unfold FuseGroup.ready at h
  unfold frameEdges at hcred
  simp only [slotEmit, h]
  rw [if_neg (by rcases hproj with hp | hp <;> simpa [hp, hup] using hcred)]
  split
  · rfl
  · next heq => exact absurd (hafter.symm.trans heq) (by simp)

/-- The emission of a slot: its group gives it up, its tokens leave, and what the judgement after it may touch. -/
theorem slotEmit_emits (hproj : (group g s).raw = false ∨ f.projDone = true) (hcred : ∀ e ∈ frameEdges g s, (edge e.id s).credits ≠ 0)
    (hup : dieUp (group g s).home s = true) (hopening : (group g s).opening = []) :
    ∃ ms ps hist per, group g (slotEmit g k s)
        = { (group g s).emitted k f with members := ms, penalized := ps, history := hist, persistent := per }
      ∧ (∀ j, j ≠ g → group j (slotEmit g k s) = group j s) ∧ (slotEmit g k s).sense.streams = s.sense.streams
      ∧ ∀ j, edge j (slotEmit g k s) = edge j (tokensLeft f s (frameEdges g s) s) := by
  rw [slotEmit_leaves h hproj hcred hup hopening]
  obtain ⟨hown, hothers, hstreams, hfab⟩ :=
    judgeConflicts_conflicts g (modGroup g (FuseGroup.emitted k f) (tokensLeft f s (frameEdges g s) s))
  obtain ⟨t, ht⟩ := tokensLeft_eq f s (frameEdges g s) s
  have hgroups : ∀ j, group j (tokensLeft f s (frameEdges g s) s) = group j s := by intro j; rw [ht]; rfl
  rw [group_modGroup_same, hgroups] at hown
  refine ⟨_, _, _, _, hown, fun j hj => ?_, ?_, fun j => ?_⟩
  · rw [hothers j hj, group_modGroup_ne _ _ hj, hgroups]
  · rw [hstreams, ht]; rfl
  · unfold edge; rw [hfab]; rfl

end Emission

/-- A projection that is done marks its emitting slot. -/
theorem projectionDone_marks {g k : Nat} {s : State} (hraw : (group g s).raw = true) (hunits : 0 < unitsUp (group g s).home s) :
    projectionDone g k s = modGroup g (fun x => { x with open_ := x.open_.map (fun f =>
      if f.fseq = k ∧ f.emitting then { f with projDone := true } else f) }) s := by
  unfold projectionDone; rw [if_pos ⟨hraw, hunits⟩]

end Sys2Proof.Machine

namespace Sys2Proof

open Sys2Proof.Machine

/-- Settles O45: each event of a slot is one change of its group, and the emission is followed by a judgement that leaves the group's
slots alone. That an emitted slot is remembered among the group's last 2,048 is assumption 38. -/
theorem fusionSlotsOpenAreDecidedAndEmitted : Obligations.FusionSlotsOpenAreDecidedAndEmitted := by
  intro t g k i s0 s x others fixedAs waits
  have hopen : Machine.exec (.slotOpen t g) s0 = .next (slotOpen g s) := rfl
  have hlimit : Machine.exec (.slotWaitLimit t g k) s0 = .next (slotWaitLimit g k s) := rfl
  have hmember : Machine.exec (.memberDecide t g k i) s0 = .next (memberDecide g k i s) := rfl
  have hproj : Machine.exec (.projectionDone t g k) s0 = .next (projectionDone g k s) := rfl
  have hcheck : ∀ ok, Machine.exec (.projectionRecompute t i ok) s0 = .next (projectionRecompute i ok s) := fun _ => rfl
  have hemit : Machine.exec (.slotEmit t g k) s0 = .next (slotEmit g k s) := rfl
  clear_value s
  refine ⟨fun tau hdecl hup hgrid => ⟨fun h => hopen.trans (congrArg _ (slotOpen_seen hdecl hup hgrid h)), fun hnew hused => ?_, fun hnew hfree =>
      ⟨fun hroom => ?_, fun f hfull hf hk => ?_, fun hfull hall => ?_⟩⟩,
    fun f hf => ⟨fun h => hlimit.trans (congrArg _ (slotWaitLimit_early hf h)), fun hdue => ?_, fun m hm =>
      ⟨fun h => hmember.trans (congrArg _ (memberDecide_early hf hm h)), fun hdue hfl => ⟨fun hpending => ?_, fun hlast => ?_⟩⟩⟩,
    fun hraw hunits => ?_, fun h => ?_, fun hin => ?_, hcheck true, fun f hf => ?_⟩
  · exact ⟨_, hopen.trans (congrArg _ (slotOpen_used hdecl hup hgrid hnew hused)), group_modGroup_same _ _ _,
      fun j hj => group_modGroup_ne _ _ hj, rfl⟩
  · refine ⟨_, hopen.trans (congrArg _ (slotOpen_room hdecl hup hgrid hnew hfree hroom)), ?_, fun j hj => ?_, rfl⟩
    · unfold openSlot; dsimp only
      rw [group_modGroup_same, group_modGroup_same]; rfl
    · unfold openSlot; dsimp only
      rw [group_modGroup_ne _ _ hj, group_modGroup_ne _ _ hj]
  · subst hk
    obtain ⟨v, hforce, hown, hothers, hstamp⟩ := slotOpen_forces hdecl hup hgrid hnew hfree hfull hf
    obtain ⟨f', cs, hfix, hgroup, hrest⟩ := decideSlot_fixes true (g := g) (k := f.fseq) (s := v) (f := f)
      (by rw [hown]; exact FuseGroup.waiting_of_first (x := x) hf)
    refine ⟨_, hopen.trans (congrArg _ hforce), fun y hy hk => ?_, fun j hj => (hrest j hj).trans (hothers j hj), ?_, ?_, ?_, ?_⟩
    · rw [hgroup] at hy
      obtain ⟨hem, hfo, hdec, hfr⟩ := FuseGroup.fixed_of_withFixed hfix hy hk
      refine ⟨hem, hfo, ?_, hfr⟩
      rw [hdec, hown]; exact hstamp _
    · rw [hgroup, hown]; rfl
    · rw [hgroup, hown]; rfl
    · rw [hgroup, hown]; exact if_pos (hfix.degraded rfl)
    · rw [hgroup, hown]; rfl
  · refine ⟨_, hopen.trans (congrArg _ (slotOpen_skips hdecl hup hgrid hnew hfree hfull hall)), ?_, fun j hj => ?_, rfl⟩
    · rw [group_modGroup_same, group_modGroup_same]
    · rw [group_modGroup_ne _ _ hj, group_modGroup_ne _ _ hj]
  · obtain ⟨f', cs, hfix, hgroup, hrest⟩ := decideSlot_fixes false hf
    refine ⟨_, hlimit.trans (congrArg _ (slotWaitLimit_due hf hdue)), fun y hy hk => ?_, hrest, by rw [hgroup]; rfl, fun y hy hk => ?_⟩
    · rw [hgroup] at hy
      exact FuseGroup.fixed_of_withFixed hfix hy hk
    · rw [hgroup] at hy
      rw [FuseGroup.mem_withFixed hy hk, hfix.members]
      refine ⟨rfl, fun m hm => ?_⟩
      obtain ⟨z, -, rfl⟩ := List.mem_map.1 hm
      exact decideMember_decided _ _ _ _ _
  · have hmore := memberDecide_due hf hm hdue hfl
    rw [FuseSlot.decideAt_pending hpending, if_neg (by simp)] at hmore
    exact ⟨_, hmember.trans (congrArg _ hmore), group_modGroup_same _ _ _, fun j hj => group_modGroup_ne _ _ hj, rfl⟩
  · have hfixed := memberDecide_due hf hm hdue hfl
    rw [FuseSlot.decideAt_complete hlast, if_pos rfl] at hfixed
    obtain ⟨f', cs, hfix, hgroup, hrest⟩ := decideSlot_fixes false (s := modGroup g (FuseGroup.withMembers k (f.decideAt g i s)) s)
      (by rw [group_modGroup_same]; exact FuseGroup.waiting_withMembers _ hf)
    refine ⟨_, hmember.trans (congrArg _ hfixed), fun y hy hk => ?_, fun j hj => (hrest j hj).trans (group_modGroup_ne _ _ hj)⟩
    rw [hgroup] at hy
    obtain ⟨hem, hfo, hdec, hfr⟩ := FuseGroup.fixed_of_withFixed hfix hy hk
    refine ⟨hem, hfo, ?_, hfr⟩
    rw [hdec, group_modGroup_same]; rfl
  · exact ⟨_, hproj.trans (congrArg _ (projectionDone_marks hraw hunits)), group_modGroup_same _ _ _,
      fun j hj => group_modGroup_ne _ _ hj, rfl⟩
  · refine hproj.trans (congrArg _ (if_neg ?_))
    rintro ⟨hraw, hunits⟩
    rcases h with h | h
    · rw [h] at hraw; simp at hraw
    · exact Nat.ne_of_gt hunits h
  · have hout : projectionRecompute i false s
        = latch (i / 4 * 0x400 + 0x149 + i % 4) i { s with sense := { s.sense with unitsOut := s.sense.unitsOut ++ [i] } } :=
      if_neg (by simpa using hin)
    exact ⟨_, (hcheck false).trans (congrArg _ hout), rfl, by rw [fsrc_latch_same], rfl⟩
  · refine ⟨fun h => hemit.trans (congrArg _ (slotEmit_waits hf h)), fun hpr hcred hup hopening => ?_⟩
    obtain ⟨ms, ps, hist, per, hown, hothers, hstreams, hedges⟩ := slotEmit_emits hf hpr hcred hup hopening
    refine ⟨_, hemit, by rw [hown]; rfl, by rw [hown]; rfl, by rw [hown]; rfl, hothers, hstreams, fun e tk he htk => ?_⟩
    have hleft : ∀ j, edge j (slotEmit g k s) = edge j (sendToken e.id tk s) := by
      intro j; rw [hedges, show frameEdges g s = [e] from he, tokensLeft_single htk]
    have hpos : (edge e.id s).credits ≠ 0 := hcred e (he ▸ List.mem_singleton_self e)
    rw [hleft, sendToken, edge_modEdge_same]
    refine ⟨rfl, Nat.sub_add_cancel (Nat.pos_of_ne_zero hpos), fun j hj => ?_⟩
    rw [hleft, sendToken, edge_modEdge_ne _ _ hj]

end Sys2Proof

namespace Sys2Proof.Machine

/-! ### Reports that arrive on an edge (R57, R247, R252) -/

@[simp] theorem group_takeArriving (j e : Nat) (s : State) : group j (takeArriving e s) = group j s := rfl

theorem edge_takeArriving (e : Nat) (s : State) : edge e (takeArriving e s)
    = { edge e s with flight := (edge e s).flight.drop 1, creditFlight := (edge e s).creditFlight + 1 } := edge_modEdge_same _ _ _

/-- Taking the token that arrives moves its buffer from the tokens in flight to the credits on their way back. -/
theorem balanced_takeArriving {e : Nat} {s : State} {tk : Token} (h : arriving e s = some tk) (hb : Balanced (edge e s)) :
    Balanced (edge e (takeArriving e s)) := by
  have hlen : 0 < (edge e s).flight.length := by
    rw [List.length_pos_iff]
    intro hnil
    rw [arriving, hnil] at h
    simp at h
  rw [edge_takeArriving]
  unfold Balanced at hb ⊢
  simp only [List.length_drop]
  omega

theorem conflictSummary_none {e : Nat} {s : State} (h : arriving e s = none) : conflictSummary e s = s := by
  simp only [conflictSummary, h]

/-- A report without a conflict changes nothing. -/
theorem reportConflicts_nil (g kind fseq : Nat) (s : State) : reportConflicts g kind fseq [] s = s := rfl

/-- A summary of a grid of two members reports their pair when it has cells in conflict. -/
theorem conflictSummary_pair {e g a b : Nat} {tk : Token} {s : State} (htk : arriving e s = some tk) (hg : groupOfEdge e s = some (g, 5))
    (hm : gridMembers e s = [a, b]) : ∃ fseq, conflictSummary e s = takeArriving e (reportConflicts g 1 fseq
      (if fieldLe tk.data 4 4 = 0 then [] else [((a, b), fieldLe tk.data 4 4)]) s) := by
  refine ⟨fieldLe tk.data 16 4 + 2 ^ 32 * fieldLe tk.data 20 4, ?_⟩
  simp only [conflictSummary, htk, hg, hm]
  congr 2
  by_cases hc : fieldLe tk.data 4 4 = 0 <;> simp [List.range_succ, hc]

/-! ### The track table (R250, R251) -/

@[simp] theorem length_tableOf (x : FuseGroup) : (tableOf x).length = x.maxTracks := by
  simp only [tableOf, List.length_take, List.length_append, List.length_replicate]
  omega

/-- Emitting the track table changes the edges only. -/
theorem emitTable_eq (g : Nat) (deg : Bool) (s : State) : ∃ es, emitTable g deg s = { s with fab := { s.fab with edges := es } } :=
  List.foldlRecOn (motive := fun u : State => ∃ es, u = { s with fab := { s.fab with edges := es } }) _ _ ⟨s.fab.edges, rfl⟩
    (fun u hu e _ => by
      obtain ⟨es, rfl⟩ := hu
      exact offerToken_eq _ _ _)

@[simp] theorem group_emitTable (j g : Nat) (deg : Bool) (s : State) : group j (emitTable g deg s) = group j s := by
  obtain ⟨es, h⟩ := emitTable_eq g deg s; rw [h]; rfl

/-- A group whose table is that of the list `q`: MAX_TRACKS records. -/
def FuseGroup.TableOfList (q n : Nat) (x : FuseGroup) : Prop := x.tableFseq = q ∧ x.maxTracks = n ∧ x.tracks.length = n

/-- A new track takes a free record of the table, and leaves its list and its size. -/
theorem startTrack_table {deg : Bool} {fseq tov q n : Nat} {x : FuseGroup} (d : Detection) (h : x.TableOfList q n) :
    (startTrack deg fseq tov x d).TableOfList q n := by
  obtain ⟨hq, hn, hlen⟩ := h
  unfold startTrack
  dsimp only
  split
  · exact ⟨hq, hn, hlen⟩
  · exact ⟨hq, hn, by dsimp only; rw [List.length_set, length_tableOf, hn]⟩

theorem foldl_startTrack_table {deg : Bool} {fseq tov q n : Nat} {x : FuseGroup} (ds : List Detection) (h : x.TableOfList q n) :
    (ds.foldl (startTrack deg fseq tov) x).TableOfList q n :=
  List.foldlRecOn (motive := FuseGroup.TableOfList q n) _ _ h (fun _ hx d _ => startTrack_table d hx)

/-- A list that counts no record holds no detection. -/
theorem detections_empty {bs : List Byte} (x : FuseGroup) (s : State) (h : fieldLe bs 8 4 = 0) : detections x bs s = [] := by
  simp [detections, h]

/-- A free record of the table stays free. -/
theorem stepTrack_free {x : FuseGroup} {conf : Nat → Nat} {deg : Bool} {fseq tov : Nat} {ds : List Detection} {r : Track} (h : r.st = 0) :
    stepTrack x conf deg fseq tov ds r = r := by
  simp [stepTrack, h]

/-- A track without a detection counts a miss; at MISS_MAX it leaves the table. -/
theorem stepTrack_miss {x : FuseGroup} {conf : Nat → Nat} {deg : Bool} {fseq tov : Nat} {r : Track} (h : r.st ≠ 0) :
    ∃ r', stepTrack x conf deg fseq tov [] r = (if x.missMax ≤ satAdd 8 r.misses 1 then {} else r')
      ∧ r'.id = r.id ∧ r'.misses = satAdd 8 r.misses 1 ∧ r'.hits = r.hits * 2 % 256 ∧ r'.fseq = fseq := by
  unfold stepTrack
  rw [if_neg h]
  simp only [List.foldl_nil, trackConflicts, List.isEmpty_nil, Bool.not_true, Bool.false_eq_true, if_false, if_true]
  split
  · exact ⟨_, rfl, rfl, rfl, rfl, rfl⟩
  · exact ⟨_, rfl, rfl, rfl, rfl, rfl⟩

/-- What a detection list makes of its group: `mine` are the detections each track takes, `starts` those that start one. -/
def FuseGroup.listed (x : FuseGroup) (conf : Nat → Nat) (deg : Bool) (q tov : Nat) (mine : Nat → List Detection) (starts : List Detection)
    (y : FuseGroup) : FuseGroup :=
  starts.foldl (startTrack deg q tov)
    { y with tracks := (tableOf x).mapIdx (fun i t => stepTrack x conf deg q tov (mine i) t), tableFseq := q }

/-- A new list steps the table, reports the conflicts among its detections and sends the table on. -/
theorem processList_eq (g q : Nat) (bs : List Byte) (s : State) :
    ∃ conf deg tov mine starts cs, processList g q bs s
        = emitTable g deg (reportConflicts g 2 q cs (modGroup g ((group g s).listed conf deg q tov mine starts) s))
      ∧ (detections (group g s) bs s = [] → starts = [] ∧ ∀ i, mine i = []) := by
  unfold processList
  dsimp only
  generalize frameInfo (group g s) q = info
  obtain ⟨confs, deg⟩ := info
  refine ⟨_, _, _, _, _, _, rfl, fun hnone => ⟨?_, fun i => ?_⟩⟩
  · simp [hnone]
  · simp [hnone]

/-- After a new list its FSEQ is the table's, the table has MAX_TRACKS records, and no other group changed. -/
theorem processList_table (g q : Nat) (bs : List Byte) (s : State) :
    (group g (processList g q bs s)).TableOfList q (group g s).maxTracks ∧ ∀ j, j ≠ g → group j (processList g q bs s) = group j s := by
  obtain ⟨conf, deg, tov, mine, starts, cs, heq, -⟩ := processList_eq g q bs s
  rw [heq]
  obtain ⟨hown, hothers, -, -⟩ := reportConflicts_conflicts g 2 q cs (modGroup g ((group g s).listed conf deg q tov mine starts) s)
  constructor
  · have hlisted : ((group g s).listed conf deg q tov mine starts (group g s)).TableOfList q (group g s).maxTracks :=
      foldl_startTrack_table starts ⟨rfl, rfl, by simp⟩
    rw [group_emitTable, hown, group_modGroup_same]
    exact hlisted
  · intro j hj
    rw [group_emitTable, hothers j hj, group_modGroup_ne _ _ hj]

/-- After a new list without a detection every record was stepped without one. -/
theorem processList_empty {g q : Nat} {bs : List Byte} {s : State} (h : fieldLe bs 8 4 = 0) :
    ∃ conf deg tov, (group g (processList g q bs s)).tracks = (tableOf (group g s)).map (stepTrack (group g s) conf deg q tov []) := by
  obtain ⟨conf, deg, tov, mine, starts, cs, heq, hempty⟩ := processList_eq g q bs s
  obtain ⟨rfl, hmine⟩ := hempty (detections_empty _ _ h)
  obtain ⟨hown, -, -, -⟩ := reportConflicts_conflicts g 2 q cs (modGroup g ((group g s).listed conf deg q tov mine []) s)
  refine ⟨conf, deg, tov, ?_⟩
  rw [heq, group_emitTable, hown, group_modGroup_same]
  simp only [FuseGroup.listed, hmine, List.foldl_nil]
  exact List.ext_getElem? fun i => by simp

theorem detectionList_none {e : Nat} {s : State} (h : arriving e s = none) : detectionList e s = s := by
  simp only [detectionList, h]

/-- A list that arrives at a group is taken; only an object group's newer list is processed. -/
theorem detectionList_some {e g : Nat} {tk : Token} {s : State} (htk : arriving e s = some tk) (hg : groupOfEdge e s = some (g, 4)) :
    detectionList e s = if (group g s).object = false then takeArriving e s
      else if fieldLe tk.data 0 8 ≤ (group g s).tableFseq then emitTable g false (takeArriving e s)
      else processList g (fieldLe tk.data 0 8) tk.data (takeArriving e s) := by
  simp only [detectionList, htk, hg, Bool.not_eq_true']

/-! ### The move of a group (R256) -/

/-- A group without its open slots and its table, at the other die's engine; `lost` tells which members' ports are out. -/
def FuseGroup.moved (lost : Member → Bool) (y : FuseGroup) : FuseGroup :=
  { y with
    home := 1 - y.home, open_ := [], opening := [], past := [], tracks := [], tableLost := y.tableLost || y.object
    members := y.members.map (fun m => { m with portLost := m.portLost || lost m }) }

theorem groupMove_moves {g : Nat} {s : State} (hdecl : (group g s).declared = true) (hlost : dieUp (group g s).home s = false)
    (hother : dieUp (1 - (group g s).home) s = true) :
    groupMove g s = modGroup g (FuseGroup.moved (fun m => !sensUp (sens m.stream s) s)) s := by
  unfold groupMove
  dsimp only
  rw [if_neg (by simp [hdecl, hlost, hother])]
  rfl

theorem groupMove_stays {g : Nat} {s : State}
    (h : (group g s).declared = false ∨ dieUp (group g s).home s = true ∨ dieUp (1 - (group g s).home) s = false) : groupMove g s = s := by
  unfold groupMove
  dsimp only
  rw [if_pos (by simpa using h)]

end Sys2Proof.Machine

namespace Sys2Proof

open Sys2Proof.Machine

/-- Settles O46: a report is taken off its edge and touches its group alone, and the move of a group is one change of it. -/
theorem reportsToTheFusionEngineAndTheMoveOfAGroup : Obligations.ReportsToTheFusionEngineAndTheMoveOfAGroup := by
  refine ⟨fun t e s0 => ?_, fun t g s0 => ?_⟩
  · intro s
    have hsum : Machine.exec (.conflictSummaryRx t e) s0 = .next (conflictSummary e s) := rfl
    have hlist : Machine.exec (.detectionListRx t e) s0 = .next (detectionList e s) := rfl
    clear_value s
    refine ⟨fun h => ⟨hsum.trans (congrArg _ (conflictSummary_none h)), hlist.trans (congrArg _ (detectionList_none h))⟩,
      fun tk g a b htk hg hm => ?_, fun tk g htk hg => ?_⟩
    · obtain ⟨fseq, hpair⟩ := conflictSummary_pair htk hg hm
      generalize hcs : (if fieldLe tk.data 4 4 = 0 then [] else [((a, b), fieldLe tk.data 4 4)]) = cs at hpair
      obtain ⟨hown, hothers, -, hfab⟩ := reportConflicts_conflicts g 1 fseq cs s
      have hedge : edge e (takeArriving e (reportConflicts g 1 fseq cs s)) = edge e (takeArriving e s) := by
        rw [edge_takeArriving, edge_takeArriving]; unfold edge; rw [hfab]
      refine ⟨_, hsum.trans (congrArg _ hpair), hedge.trans (edge_takeArriving e s), fun hb => ?_, fun hzero => ?_, fun hsome => ?_⟩
      · rw [hedge]; exact balanced_takeArriving htk hb
      · rw [if_pos hzero] at hcs
        rw [← hcs, reportConflicts_nil]; rfl
      · rw [if_neg hsome] at hcs
        subst hcs
        simp only [group_takeArriving]
        rw [List.length_singleton, countConflicts_one] at hown
        exact ⟨by rw [hown], by rw [hown], by rw [hown], hothers⟩
    · intro x q
      have htaken := detectionList_some htk hg
      refine ⟨fun hobj => ?_, fun hobj hold => ?_, fun hobj hnew => ?_⟩
      · rw [if_pos hobj] at htaken
        exact ⟨_, hlist.trans (congrArg _ htaken), edge_takeArriving e s, rfl⟩
      · rw [if_neg (ne_false_of_eq_true hobj), if_pos hold] at htaken
        obtain ⟨es, hes⟩ := emitTable_eq g false (takeArriving e s)
        exact ⟨_, hlist.trans (congrArg _ (htaken.trans hes)), rfl⟩
      · rw [if_neg (ne_false_of_eq_true hobj), if_neg (Nat.not_le.2 hnew)] at htaken
        obtain ⟨⟨hfseq, -, hlen⟩, hothers⟩ := processList_table g q tk.data (takeArriving e s)
        refine ⟨_, hlist.trans (congrArg _ htaken), hfseq, hlen, hothers, fun hzero n r hr => ?_⟩
        obtain ⟨conf, deg, tov, htracks⟩ := processList_empty (g := g) (q := q) (s := takeArriving e s) hzero
        refine ⟨stepTrack x conf deg q tov [] r, ?_, stepTrack_free, fun hst hmax => ?_, fun hst hmax => ?_⟩
        · rw [htracks, List.getElem?_map]
          exact congrArg (Option.map _) hr
        · obtain ⟨r', heq, -⟩ := stepTrack_miss (x := x) (conf := conf) (deg := deg) (fseq := q) (tov := tov) hst
          rw [heq, if_pos hmax]
        · obtain ⟨r', heq, hid, hmiss, hhits, hf⟩ := stepTrack_miss (x := x) (conf := conf) (deg := deg) (fseq := q) (tov := tov) hst
          rw [heq, if_neg (Nat.not_le.2 hmax)]
          exact ⟨hid, hmiss, hhits, hf⟩
  · intro s x
    have hmove : Machine.exec (.fusionGroupMove t g) s0 = .next (groupMove g s) := rfl
    clear_value s
    refine ⟨fun hdecl hlost hother => ?_, fun h => hmove.trans (congrArg _ (groupMove_stays h))⟩
    exact ⟨_, hmove.trans (congrArg _ (groupMove_moves hdecl hlost hother)), group_modGroup_same _ _ _, fun j hj => group_modGroup_ne _ _ hj, rfl⟩

end Sys2Proof

/-!
SUPPORT. The proof of the statement about plan requests: their start, the ends of a search, the deadline, the result sent and the
injected tests.
-/

namespace Sys2Proof.Machine

/-! ### What the planner's operations leave as it was -/

/-- The planner alone changed, and `rs` are its requests. -/
def RequestsBecome (rs : List PlanReq) (s u : State) : Prop := u.plan.reqs = rs ∧ u = { s with plan := u.plan }

theorem RequestsBecome.refl (s : State) : RequestsBecome s.plan.reqs s s := ⟨rfl, rfl⟩

theorem RequestsBecome.setReq {rs : List PlanReq} {s u : State} (h : RequestsBecome rs s u) (i : Nat) (r : PlanReq) :
    RequestsBecome (rs.set i r) s (setReq i r u) := by
  obtain ⟨hreqs, hframe⟩ := h
  exact ⟨congrArg (List.set · i r) hreqs, by rw [hframe]; rfl⟩

/-- The planner of a die holds no requests. -/
theorem RequestsBecome.modPdie {rs : List PlanReq} {s u : State} (h : RequestsBecome rs s u) (d : Nat) (f : PlanDie → PlanDie) :
    RequestsBecome rs s (modPdie d f u) := by
  obtain ⟨hreqs, hframe⟩ := h
  unfold Machine.modPdie
  split
  · exact ⟨hreqs, by rw [hframe]⟩
  · exact ⟨hreqs, by rw [hframe]⟩

theorem RequestsBecome.foldl {α : Type} {rs : List PlanReq} {s : State} {f : State → α → State}
    (hf : ∀ a x, RequestsBecome rs s a → RequestsBecome rs s (f a x)) (l : List α) {u : State} (h : RequestsBecome rs s u) :
    RequestsBecome rs s (l.foldl f u) := by
  induction l generalizing u with
  | nil => exact h
  | cons x r ih => exact ih (hf u x h)

theorem countTests_requests (slices : List Nat) (js : List (Nat × Nat)) (s : State) :
    RequestsBecome s.plan.reqs s (countTests slices js s) := by
  unfold countTests
  split
  · exact .refl s
  · exact .foldl (fun _ _ h => h.modPdie _ _) js (.refl s)

theorem countHeap_requests (slices : List Nat) (h : HSearch) (s : State) : RequestsBecome s.plan.reqs s (countHeap slices h s) := by
  cases slices with
  | nil => exact .refl s
  | cons n r => exact (RequestsBecome.refl s).modPdie _ _

@[simp] theorem modPdie_reqs (d : Nat) (f : PlanDie → PlanDie) (s : State) : (modPdie d f s).plan.reqs = s.plan.reqs :=
  ((RequestsBecome.refl s).modPdie d f).1

/-! ### The start of a request (R266, R271, R276) -/

/-- A request with the values it binds at its start. -/
def PlanReq.started (s : State) (r : PlanReq) : PlanReq :=
  { r with
    cfg := some s.plan.cfg, pin := newestCommon s
    deadline := if fieldLe r.bytes 16 8 = 0 then r.arrival + s.plan.budgetUs * 1000 else fieldLe r.bytes 16 8 }

/-- The state once request `i` has started as `q`: its epoch is live on both dies. -/
def startAs (i : Nat) (q : PlanReq) (s : State) : State := keepLive (newestCommon s) 0 (keepLive (newestCommon s) 1 (setReq i q s))

theorem startAs_requests (i : Nat) (q : PlanReq) (s : State) : RequestsBecome (s.plan.reqs.set i q) s (startAs i q s) :=
  (((RequestsBecome.refl s).setReq i q).modPdie 1 _).modPdie 0 _

theorem requestStart_none {s : State} (h : nextReq s = none) : requestStart s = s := by
  simp only [requestStart, h]

section Start

variable {i : Nat} {r : PlanReq} {s : State} (h : nextReq s = some (i, r))
include h

theorem requestStart_held (hoff : s.plan.enabled = false ∨ heldGroup 0x050 s = true) : requestStart s = s := by
  simp only [requestStart, h]
  rw [if_pos (by simpa using hoff)]

theorem requestStart_refused (hon : s.plan.enabled = true) (hheld : heldGroup 0x050 s = false)
    (hbad : rqReason r.bytes s.plan.cfg s ≠ 0) :
    requestStart s
      = startAs i { r.started s with result := some (emptyResult 3 (rqReason r.bytes s.plan.cfg s) 0 (newestCommon s) s) } s := by
  simp only [requestStart, h]
  rw [if_neg (by simp [hon, hheld]), if_pos hbad]
  rfl

/-- Where no request holds a slice, an all-at-once request takes every slice in service. -/
theorem requestStart_takes (hon : s.plan.enabled = true) (hheld : heldGroup 0x050 s = false) (hgood : rqReason r.bytes s.plan.cfg s = 0)
    (hall : rqSearch r.bytes s.plan.cfg ≠ 2) (hfree : ∀ q ∈ s.plan.reqs, q.slices = []) (hup : slicesUp s ≠ []) :
    requestStart s = startAs i { r.started s with slices := slicesUp s } s := by
  have hnone : heldSlices s = [] := List.flatMap_eq_nil_iff.2 hfree
  have hslices : (slicesUp s).filter (fun n => !(heldSlices s).contains n) = slicesUp s := by simp [hnone]
  simp only [requestStart, h]
  rw [if_neg (by simp [hon, hheld]), if_neg (not_not_intro hgood), if_neg (by simpa using hup), if_neg hall, hslices]
  refine if_neg ?_
  rintro (hbusy | hempty)
  · obtain ⟨q, hq, hholds⟩ := List.any_eq_true.1 hbusy
    rw [hfree q hq] at hholds
    split at hholds <;> simp at hholds
  · exact hup (List.isEmpty_iff.1 hempty)

end Start

/-! ### Lists and results of an all-at-once search (R271, R275) -/

theorem insertBy_perm {α : Type} (before : α → α → Bool) (x : α) (l : List α) : (insertBy before x l).Perm (x :: l) := by
  induction l with
  | nil => exact .refl _
  | cons y r ih =>
    unfold insertBy
    split
    · exact .refl _
    · exact (ih.cons y).trans (.swap x y r)

theorem orderBy_perm {α : Type} (before : α → α → Bool) (xs : List α) : (orderBy before xs).Perm xs := by
  induction xs with
  | nil => exact .refl _
  | cons x r ih => exact (insertBy_perm before x _).trans (ih.cons x)

theorem mem_orderBy {α : Type} {before : α → α → Bool} {xs : List α} {x : α} : x ∈ orderBy before xs ↔ x ∈ xs :=
  (orderBy_perm before xs).mem_iff

theorem allList_length (b : List Byte) (c : PlanCfg) (js : List Judged) : (allList b c js).1.length ≤ rq8 b 26 := by
  unfold allList
  dsimp only
  split
  · exact List.length_take_le _ _
  · exact List.length_take_le _ _

/-- Of a list that is not partial no candidate collides. -/
theorem allList_free {b : List Byte} {c : PlanCfg} {js : List Judged} (hwhole : (allList b c js).2 = false) :
    ∀ k ∈ (allList b c js).1, k.firstHit = 0xFF := by
  unfold allList at hwhole ⊢
  dsimp only at hwhole ⊢
  split
  · next hnone =>
    rw [if_pos hnone] at hwhole
    intro k hk
    have hmem := mem_orderBy.1 (List.mem_of_mem_take hk)
    rw [List.isEmpty_iff.1 ((Bool.not_eq_false' _).mp hwhole)] at hmem
    exact absurd hmem List.not_mem_nil
  · intro k hk
    obtain ⟨j, hj, rfl⟩ := List.mem_map.1 (List.mem_filter.1 (mem_orderBy.1 (List.mem_of_mem_take hk))).1
    exact congrArg (Option.getD · 0xFF) (Option.isNone_iff_eq_none.1 (List.mem_filter.1 hj).2)

/-- The result of a search that judged every candidate is FOUND or NO_PATH, by the candidates it found. -/
theorem allResult_status (r : PlanReq) (c : PlanCfg) (js : List Judged) (s : State) :
    ((allResult r c js true s).status = 0 ∨ (allResult r c js true s).status = 1)
      ∧ ((allResult r c js true s).status = 0 ↔ (allResult r c js true s).found ≠ 0) := by
  have hstatus : (allResult r c js true s).status = if (allResult r c js true s).found = 0 then 1 else 0 := rfl
  rw [hstatus]
  split <;> simp [*]

/-- What was found is listed, and does not collide. -/
theorem allResult_found {r : PlanReq} {c : PlanCfg} {js : List Judged} {all : Bool} {s : State} (h : (allResult r c js all s).found ≠ 0) :
    (allResult r c js all s).found = (allResult r c js all s).list.length
      ∧ ∀ k ∈ (allResult r c js all s).list, k.firstHit = 0xFF := by
  have hfound : (allResult r c js all s).found = if (allList r.bytes c js).2 then 0 else (allList r.bytes c js).1.length := rfl
  rw [hfound] at h ⊢
  have hwhole : (allList r.bytes c js).2 = false :=
    eq_false_of_ne_true fun hpart => h (if_pos hpart)
  exact ⟨if_neg (ne_true_of_eq_false hwhole), allList_free hwhole⟩

@[simp] theorem length_judgeCands (b : List Byte) (c : PlanCfg) (v : MapVer) (ns : List Nat) (s : State) :
    (judgeCands b c v ns s).length = ns.length := List.length_map _

/-- A result is rechecked only where its epoch is old, RECHECK asks for it and its deadline has not ended it (R276). -/
theorem fixResult_kept {r : PlanReq} {c : PlanCfg} {x : PlanResult} {again : Bool} {s : State}
    (h : (epochNow s).epoch = r.pin.epoch ∨ c.recheck = false ∨ again = false) : fixResult r c x again s = x :=
  if_pos (by simpa using h)

/-! ### The end of a search and the deadline (R273, R275) -/

theorem running_eq_some {i : Nat} {r : PlanReq} {c : PlanCfg} {s : State} (h : running i s = some (r, c)) :
    s.plan.reqs[i]? = some r ∧ r.cfg = some c := by
  unfold running at h
  split at h
  · cases h
  · next q hq =>
    split at h
    · next hcfg _ => cases h; exact ⟨hq, hcfg⟩
    · cases h

theorem running_answered {i : Nat} {r : PlanReq} {s : State} (hr : s.plan.reqs[i]? = some r) (hdone : r.result.isSome = true) :
    running i s = none := by
  obtain ⟨x, hx⟩ := Option.isSome_iff_exists.1 hdone
  simp only [running, hr, hx]
  cases r.cfg <;> rfl

theorem searchEnd_none {i : Nat} {s : State} (h : running i s = none) : searchEnd i s = s := by simp only [searchEnd, h]

theorem endEarly_none {i : Nat} {s : State} (h : running i s = none) (done : List Nat) (n : Nat) (ended : Bool) :
    endEarly i done n ended s = s := by simp only [endEarly, h]

theorem planDeadline_started {i : Nat} {r : PlanReq} {s : State} (hr : s.plan.reqs[i]? = some r) (hcfg : r.cfg.isSome = true)
    (done : List Nat) (n : Nat) : planDeadline i done n s = if pastDeadline r s then endEarly i done n false s else s := by
  obtain ⟨c, hc⟩ := Option.isSome_iff_exists.1 hcfg
  simp only [planDeadline, hr, hc]

/-- The candidates that stand judged at a deadline. -/
def candsDone (b : List Byte) (done : List Nat) : List Nat := (List.range (candCount b)).filter (done.contains ·)

theorem length_candsDone_le (b : List Byte) (done : List Nat) : (candsDone b done).length ≤ candCount b :=
  Nat.le_trans (List.length_filter_le _ _) (Nat.le_of_eq List.length_range)

section Search

variable {i : Nat} {r : PlanReq} {c : PlanCfg} {s : State} (h : running i s = some (r, c))
include h

theorem searchEnd_late (hlate : pastDeadline r s = true) : searchEnd i s = s := by
  simp only [searchEnd, h]
  rw [if_pos hlate]

theorem searchEnd_heap (hlate : pastDeadline r s = false) (hheap : rqSearch r.bytes c = 2) :
    ∃ x, RequestsBecome (s.plan.reqs.set i { r with result := some x }) s (searchEnd i s) := by
  simp only [searchEnd, h]
  rw [if_neg (ne_true_of_eq_false hlate), if_pos hheap]
  exact ⟨_, (countHeap_requests _ _ s).setReq i _⟩

/-- An all-at-once search that ends judged every candidate. -/
theorem searchEnd_all (hlate : pastDeadline r s = false) (hall : rqSearch r.bytes c ≠ 2) :
    RequestsBecome (s.plan.reqs.set i { r with
      result := some (fixResult r c (allResult r c (judgeCands r.bytes c r.pin (List.range (candCount r.bytes)) s) true s) true s) }) s
      (searchEnd i s) := by
  simp only [searchEnd, h]
  rw [if_neg (ne_true_of_eq_false hlate), if_neg hall]
  exact (countTests_requests _ _ s).setReq i _

/-- An all-at-once search that is ended keeps what it judged. -/
theorem endEarly_all (hall : rqSearch r.bytes c ≠ 2) (done : List Nat) (n : Nat) (ended : Bool) :
    RequestsBecome (s.plan.reqs.set i { r with
      result := some (allResult r c (judgeCands r.bytes c r.pin (candsDone r.bytes done) s) false s) }) s (endEarly i done n ended s) := by
  simp only [endEarly, h]
  rw [if_neg hall, fixResult_kept (.inr (.inr rfl))]
  exact (countTests_requests _ _ s).setReq i _

theorem planDeadline_early (hlate : pastDeadline r s = false) (done : List Nat) (n : Nat) : planDeadline i done n s = s := by
  obtain ⟨hr, hcfg⟩ := running_eq_some h
  rw [planDeadline_started hr (Option.isSome_of_eq_some hcfg), if_neg (ne_true_of_eq_false hlate)]

theorem planDeadline_late (hlate : pastDeadline r s = true) (done : List Nat) (n : Nat) :
    planDeadline i done n s = endEarly i done n false s := by
  obtain ⟨hr, hcfg⟩ := running_eq_some h
  rw [planDeadline_started hr (Option.isSome_of_eq_some hcfg), if_pos hlate]

end Search

/-- The deadline of a request that has its result changes nothing. -/
theorem planDeadline_answered {i : Nat} {r : PlanReq} {s : State} (hr : s.plan.reqs[i]? = some r) (hcfg : r.cfg.isSome = true)
    (hdone : r.result.isSome = true) (done : List Nat) (n : Nat) : planDeadline i done n s = s := by
  rw [planDeadline_started hr hcfg, endEarly_none (running_answered hr hdone), ite_self]

/-! ### The result sent (R274, R276) -/

/-- The planner of a die once it has sent a result of a status. -/
def PlanDie.answered (status : Nat) (stale : Bool) (p : PlanDie) : PlanDie :=
  { p with
    done := satAdd 16 p.done 1
    stale := if stale then satAdd 16 p.stale 1 else p.stale
    noPath := if status = 1 then satAdd 16 p.noPath 1 else p.noPath
    timeout := if status = 2 then satAdd 16 p.timeout 1 else p.timeout }

/-- The token left on the edges `es`, the tickets of request `r` took its flags and the request's buffer is free. -/
def resultLeft (es : List GEdge) (tk : Token) (r : PlanReq) (s : State) : State :=
  releaseToken r.edge (markTags tk.degraded tk.stale r.tags (es.foldl (fun a e => sendToken e.id tk a) s))

/-- Request `i` leaves the order of requests. -/
def dropReq (i : Nat) (s : State) : State := { s with plan := { s.plan with reqs := s.plan.reqs.eraseIdx i } }

@[simp] theorem edge_dropReq (e i : Nat) (s : State) : edge e (dropReq i s) = edge e s := rfl

@[simp] theorem resultLeft_plan (es : List GEdge) (tk : Token) (r : PlanReq) (s : State) : (resultLeft es tk r s).plan = s.plan :=
  foldl_keeps State.plan (fun a (e : GEdge) => sendToken e.id tk a) (fun _ _ => rfl) es s

/-- On a single edge the token leaves for one credit. -/
theorem edge_resultLeft_single {e : GEdge} {r : PlanReq} (hne : e.id ≠ r.edge) (tk : Token) (s : State) :
    edge e.id (resultLeft [e] tk r s)
      = { edge e.id s with credits := (edge e.id s).credits - 1, flight := (edge e.id s).flight ++ [tk] } :=
  (edge_modEdge_ne _ _ hne).trans (edge_modEdge_same _ _ _)

theorem pdie_modPdie_both (d : Nat) (f : PlanDie → PlanDie) (s : State) : pdie d (modPdie 0 f (modPdie 1 f s)) = f (pdie d s) := by
  by_cases h : d = 0
  · subst h; rfl
  · simp [pdie, modPdie, h]

/-- Of a planner the release of epochs changes the other live epoch alone (R264). -/
theorem pdie_releaseEpochs (d : Nat) (s : State) : ∃ o, pdie d (releaseEpochs s) = { pdie d s with old := o } := by
  unfold releaseEpochs
  rw [pdie_modPdie_both]
  split
  · exact ⟨_, rfl⟩
  · split
    · exact ⟨_, rfl⟩
    · exact ⟨none, rfl⟩

@[simp] theorem releaseEpochs_reqs (s : State) : (releaseEpochs s).plan.reqs = s.plan.reqs := by simp [releaseEpochs]

@[simp] theorem edge_releaseEpochs (e : Nat) (s : State) : edge e (releaseEpochs s) = edge e s := by simp [releaseEpochs]

section Send

variable {ch i : Nat} {r : PlanReq} {s : State} (h : chanHead ch s = some (i, r))
include h

theorem resultSend_waits (hwait : r.result = none ∨ ∃ e ∈ resultEdges ch s, (edge e.id s).credits = 0) : resultSend ch s = s := by
  cases hx : r.result with
  | none => simp only [resultSend, h, hx]
  | some x =>
    simp only [hx, reduceCtorEq, false_or] at hwait
    simp only [resultSend, h, hx]
    rw [if_pos (by simpa using hwait)]

theorem resultSend_eq {x : PlanResult} (hx : r.result = some x) (hcred : ∀ e ∈ resultEdges ch s, (edge e.id s).credits ≠ 0) :
    ∃ tk : Token, tk.tags = r.tags ∧ resultSend ch s = releaseEpochs
      (modPdie (liveDie 0 s) (PlanDie.answered x.status tk.stale) (dropReq i (resultLeft (resultEdges ch s) tk r s))) := by
  simp only [resultSend, h, hx]
  rw [if_neg (by simpa using hcred)]
  exact ⟨_, rfl, rfl⟩

/-- A result that is sent ends its request, is counted by the sending die and leaves as a token. -/
theorem resultSend_sends {x : PlanResult} (hx : r.result = some x) (hcred : ∀ e ∈ resultEdges ch s, (edge e.id s).credits ≠ 0) :
    ∃ (tk : Token) (o : Option MapVer), tk.tags = r.tags ∧ (resultSend ch s).plan.reqs = s.plan.reqs.eraseIdx i
      ∧ pdie (liveDie 0 s) (resultSend ch s) = { (pdie (liveDie 0 s) s).answered x.status tk.stale with old := o }
      ∧ ∀ e, resultEdges ch s = [e] → e.id ≠ r.edge → edge e.id (resultSend ch s)
          = { edge e.id s with credits := (edge e.id s).credits - 1, flight := (edge e.id s).flight ++ [tk] } := by
  obtain ⟨tk, htags, heq⟩ := resultSend_eq h hx hcred
  have hdie : pdie (liveDie 0 s) (dropReq i (resultLeft (resultEdges ch s) tk r s)) = pdie (liveDie 0 s) s := by
    simp only [pdie, dropReq, resultLeft_plan]
  obtain ⟨o, hold⟩ := pdie_releaseEpochs (liveDie 0 s)
    (modPdie (liveDie 0 s) (PlanDie.answered x.status tk.stale) (dropReq i (resultLeft (resultEdges ch s) tk r s)))
  rw [pdie_modPdie_same, hdie] at hold
  rw [heq]
  refine ⟨tk, o, htags, ?_, hold, fun e he hne => ?_⟩
  · simp only [releaseEpochs_reqs, modPdie_reqs, dropReq, resultLeft_plan]
  · rw [edge_releaseEpochs, edge_modPdie, edge_dropReq, he, edge_resultLeft_single hne]

end Send

/-! ### Injected tests (R367) -/

theorem plannerTest_right (n : Nat) (s : State) : plannerTest n true s = s := if_pos (.inl rfl)

theorem plannerTest_out {n : Nat} {s : State} (hout : sliceUp n s = false) (ok : Bool) : plannerTest n ok s = s :=
  if_pos (.inr (by rw [hout]; rfl))

theorem plannerTest_wrong {n : Nat} {s : State} (hup : sliceUp n s = true) :
    plannerTest n false s = latch (srcSlice (n / 8) (n % 8) 0) 0 s := if_neg (by simp [hup])

end Sys2Proof.Machine

namespace Sys2Proof

open Sys2Proof.Machine

/-- Settles O48: each command is one of the planner's operations, and each operation one change of the requests. -/
theorem planRequestsStartAreSearchedAndAnswered : Obligations.PlanRequestsStartAreSearchedAndAnswered := by
  intro t i s0 s
  have hstart : Machine.exec (.planRequestStart t) s0 = .next (requestStart s) := rfl
  have hend : Machine.exec (.planSearchEnd t i) s0 = .next (searchEnd i s) := rfl
  have hdeadline : ∀ done n, Machine.exec (.planDeadline t i done n) s0 = .next (planDeadline i done n s) := fun _ _ => rfl
  have hsend : ∀ ch, Machine.exec (.planResultSend t ch) s0 = .next (resultSend ch s) := fun _ => rfl
  have htest : ∀ n ok, Machine.exec (.plannerTestInjection t n ok) s0 = .next (plannerTest n ok s) := fun _ _ => rfl
  clear_value s
  refine ⟨fun h => hstart.trans (congrArg _ (requestStart_none h)), fun r h => ?_, fun r c h => ?_, fun r hr hcfg hdone done n => ?_,
    fun ch r h => ?_, fun n _ => ?_⟩
  · refine ⟨fun hoff => hstart.trans (congrArg _ (requestStart_held h hoff)),
      fun hon hheld => ⟨fun hbad => ?_, fun hgood hall hfree hup => ?_⟩⟩
    · obtain ⟨hreqs, hframe⟩ := startAs_requests i
        { r.started s with result := some (emptyResult 3 (rqReason r.bytes s.plan.cfg s) 0 (newestCommon s) s) } s
      exact ⟨_, _, hstart.trans (congrArg _ (requestStart_refused h hon hheld hbad)), hreqs, rfl, rfl, rfl, rfl, hframe⟩
    · obtain ⟨hreqs, hframe⟩ := startAs_requests i { r.started s with slices := slicesUp s } s
      exact ⟨_, hstart.trans (congrArg _ (requestStart_takes h hon hheld hgood hall hfree hup)), hreqs, hframe⟩
  · refine ⟨fun hlate => hend.trans (congrArg _ (searchEnd_late h hlate)), fun hlate hall hfresh => ?_, fun hlate hheap => ?_,
      fun done n hlate => (hdeadline done n).trans (congrArg _ (planDeadline_early h hlate done n)), fun done n hlate hall => ?_⟩
    · obtain ⟨hreqs, hframe⟩ := searchEnd_all h hlate hall
      rw [fixResult_kept (hfresh.imp_right .inl)] at hreqs
      obtain ⟨hends, hfound⟩ := allResult_status r c (judgeCands r.bytes c r.pin (List.range (candCount r.bytes)) s) s
      exact ⟨_, _, hend, hreqs, (length_judgeCands _ _ _ _ _).trans List.length_range, allList_length _ _ _, rfl, hends, hfound,
        fun h0 => allResult_found (hfound.1 h0), hframe⟩
    · obtain ⟨x, hreqs, hframe⟩ := searchEnd_heap h hlate hheap
      exact ⟨_, x, hend, hreqs, hframe⟩
    · obtain ⟨hreqs, hframe⟩ := endEarly_all h hall done n false
      exact ⟨_, _, (hdeadline done n).trans (congrArg _ (planDeadline_late h hlate done n)), hreqs, rfl,
        Nat.le_trans (Nat.le_of_eq (length_judgeCands _ _ _ _ _)) (length_candsDone_le _ _), hframe⟩
  · exact ⟨hend.trans (congrArg _ (searchEnd_none (running_answered hr hdone))),
      (hdeadline done n).trans (congrArg _ (planDeadline_answered hr hcfg hdone done n))⟩
  · refine ⟨fun hwait => (hsend ch).trans (congrArg _ (resultSend_waits h hwait)), fun x hx hcred => ?_⟩
    obtain ⟨tk, o, htags, hreqs, hdie, hedge⟩ := resultSend_sends h hx hcred
    refine ⟨_, hsend ch, hreqs, by rw [hdie]; rfl, by rw [hdie]; rfl, by rw [hdie]; rfl, fun e he hne => ⟨tk, ?_⟩⟩
    have hpos : (edge e.id s).credits ≠ 0 := hcred e (he ▸ List.mem_singleton_self e)
    rw [hedge e he hne]
    exact ⟨rfl, htags, Nat.sub_add_cancel (Nat.one_le_iff_ne_zero.2 hpos)⟩
  · refine ⟨fun hup => ?_, fun hout => (htest n false).trans (congrArg _ (plannerTest_out hout false)),
      (htest n true).trans (congrArg _ (plannerTest_right n s))⟩
    exact ⟨_, (htest n false).trans (congrArg _ (plannerTest_wrong hup)), by rw [fsrc_latch_same], rfl⟩

end Sys2Proof

/-!
SUPPORT. The proofs of the statements about the loop engine: tokens to a slot, requests, evaluations and gate lists.
-/

namespace Sys2Proof.Machine

/-! ### FEEDBACK_TOKEN (R282, R306) -/

/-- A token gives an EDGE channel its value and its stamp, and no step has been made since that stamp. -/
theorem feedbackToken_channel {e n p : Nat} {tk : Token} {c : LoopChan} {s : State} (htk : arriving e s = some tk)
    (hslot : loopOfEdge e s = some (n, p)) (hp : 8 ≤ p) (hc : (lslot n s).chans[p - 8]? = some c) (hedge : c.edgeSrc = true) :
    (lslot n (feedbackToken e s)).chans[p - 8]? = some { c with
      value := chanY c (fieldLe tk.data (4 * c.offset) 4), at_ := some (stamp (n / 8) s), stepSum := 0 } := by
  have htaken : feedbackToken e s = takeArriving e
      (modLoop n (fun y => { y with chans := y.chans.modify (p - 8) (chanEdge (stamp (n / 8) s) tk.data) }) s) := by
    simp only [feedbackToken, htk, hslot, hp, if_true]
  have hslots : ∀ u : State, lslot n (takeArriving e u) = lslot n u := fun _ => rfl
  rw [htaken, hslots, lslot_modLoop_same]
  simp [hc, chanEdge, hedge]

/-- A pattern with one edge, 4, from operator 1 to the first channel (sub-port 8) of the SLOT stitch 30. -/
def feedbackImage : Image :=
  { stitches := [⟨6, 1, 4, zeroBytes 8 ++ leBytes 4 1 ++ leBytes 4 30 ++ leBytes 4 2 ++ [0#8, 0#8, 5#8, 8#8, 2#8, 0#8, 1#8, 1#8]⟩] }

/-- A slot whose EDGE channel holds a value of stamp 0, since which the timebase was stepped by 1 ns. -/
def steppedFeedbackSlot : LoopSlot :=
  { declared := true, id := 30, chans := [{ edgeSrc := true, at_ := some 0, stepSum := 1 }] }

/-- Slot 0 is that slot, and a token is on its way to the channel. -/
def steppedFeedbackState : State :=
  { State.reset with
    loop := { slots := [(0, steppedFeedbackSlot)] }
    pat := { image := some feedbackImage }
    fab := { edges := [(4, { depth := 2, credits := 1, flight := [{}] })] } }

end Sys2Proof.Machine

namespace Sys2Proof
open Sys2Proof.Machine

/-- Refutes O49: a token that reaches an EDGE channel also clears the steps counted since the channel's stamp, as R306 asks,
where the statement lets the channel keep them. -/
theorem not_loopSlotsAreTriggeredFedAndWatched : ¬ Obligations.LoopSlotsAreTriggeredFedAndWatched := by
  intro h
  have htk : arriving 4 (advanceTo 0 steppedFeedbackState) = some {} := rfl
  have hslot : loopOfEdge 4 (advanceTo 0 steppedFeedbackState) = some (0, 8) := by decide
  obtain ⟨-, -, hfeed, -⟩ := h.2 0 4 0 8 {} steppedFeedbackState htk hslot
  obtain ⟨u, hexec, -, hchan, -⟩ := hfeed (Nat.le_refl 8)
  have hu : u = feedbackToken 4 (advanceTo 0 steppedFeedbackState) := (Host.Outcome.next.inj hexec).symm
  have hkept := hchan { edgeSrc := true, at_ := some 0, stepSum := 1 } rfl rfl
  have hcleared := feedbackToken_channel htk hslot (Nat.le_refl 8) (c := { edgeSrc := true, at_ := some 0, stepSum := 1 }) rfl rfl
  rw [hu, hcleared] at hkept
  have hsum := congrArg LoopChan.stepSum (Option.some.inj hkept)
  exact absurd hsum (by decide)

end Sys2Proof

namespace Sys2Proof.Machine

/-! ### Requests and manual values (R292, R295) -/

theorem reqTarget_manual {n : Nat} {s : State} : (reqTarget n 1 s).isSome = true ↔
    (lslot n s).st = .stopped ∨ (lslot n s).st = .auto ∨ ((lslot n s).st = .safeOut ∧ notSafe s = true) := by
  cases hst : (lslot n s).st <;> simp [reqTarget, hst]

theorem reqTarget_auto {n : Nat} {s : State} : (reqTarget n 2 s).isSome = true ↔
    (lslot n s).st = .manual ∧ ((lslot n s).outer = 0xFF ∨ (lslot (lslot n s).outer s).st ≠ .stopped) := by
  cases hst : (lslot n s).st <;> simp [reqTarget, hst, Classical.or_iff_not_imp_left]

theorem reqTarget_stop {n : Nat} {s : State} : (reqTarget n 3 s).isSome = true ↔
    ((lslot n s).st = .manual ∨ (lslot n s).st = .auto) ∧ notSafe s = true ∧ ∀ k ∈ innersOf n s, (lslot k s).st ≠ .auto := by
  cases hst : (lslot n s).st <;> simp [reqTarget, hst]

theorem loopHostReq_secure {n : Nat} {s : State} (h : (lslot n s).secure = true) (r : Nat) : loopHostReq n r s = s :=
  if_pos (.inl h)

/-- A host's request that is judged waits where it has a target, and is refused where it has none. -/
theorem loopHostReq_judged {n : Nat} {s : State} (hsec : (lslot n s).secure = false) (hdecl : (lslot n s).declared = true)
    (hup : engineUp n s = true) (hoff : offBlocked (0x001C1004 + n * 0x200) s = false) (r : Nat) :
    loopHostReq n r s = modLoop n (fun y => if (reqTarget n r s).isSome then { y with req := r } else { y with refused := true }) s := by
  unfold loopHostReq
  rw [if_neg (by rw [hsec, hoff]; decide)]
  unfold loopReq
  dsimp only
  rw [if_neg (by rw [hdecl, hup]; decide)]
  split <;> rfl

theorem loopMan_secure {n : Nat} {s : State} (h : (lslot n s).secure = true) (j v : Nat) : loopMan n j v s = s :=
  if_pos (.inr (.inl h))

theorem loopMan_stores {n : Nat} {s : State} (hsec : (lslot n s).secure = false) (hdecl : (lslot n s).declared = true)
    (hoff : offBlocked (0x001C1040 + n * 0x200) s = false) (j v : Nat) :
    loopMan n j v s = modLoop n (fun y => { y with outs := y.outs.modify j (fun o => { o with man := v % 2 ^ 32 }) }) s :=
  if_neg (by rw [hdecl, hsec, hoff]; decide)

/-! ### What traces, counters and frames leave of the slots -/

@[simp] theorem lslot_traceEv (j d src kind data : Nat) (s : State) : lslot j (traceEv d src kind data s) = lslot j s := by
  obtain ⟨m, a, b, h⟩ := traceEv_eq d src kind data s; rw [h]; rfl

@[simp] theorem lslot_loopTrace (j n : Nat) (o : LoopSt) (s : State) : lslot j (loopTrace n o s) = lslot j s := by
  unfold loopTrace; dsimp only; split
  · rfl
  · exact lslot_traceEv _ _ _ _ _ _

@[simp] theorem lslot_countEval (j n : Nat) (s : State) : lslot j (countEval n s) = lslot j s := by
  unfold countEval; split <;> rfl

/-- The residual source may latch; of the slot only its mark changes. -/
theorem lslot_raiseResidual (j n : Nat) (s : State) : lslot j (raiseResidual n s)
    = if j = n then { lslot n s with resRaised := resExceeded (lslot n s) } else lslot j s := by
  unfold raiseResidual
  dsimp only
  split
  · exact (lslot_latch _ _ _ _).trans (lslot_modLoop _ _ _ _)
  · exact lslot_modLoop _ _ _ _

/-- A safe frame moves the outputs one step, ends a waiting evaluation, and counts in its own slot only. -/
theorem safeFrame_slot (n : Nat) (s : State) :
    (∃ a b c d e, lslot n (safeFrame n s) = { lslot n s with
      outs := (lslot n s).outs.map (safeStep (fsec (lslot n s).periodUs)), waiting := none, safeAt := s.time.now
      ctr := a, latLast := b, latMax := c, replaced := d, dropped := e })
    ∧ ∀ j, j ≠ n → lslot j (safeFrame n s) = lslot j s := by
  unfold safeFrame
  obtain ⟨-, -, hothers, a, b, c, d, e, hown⟩ := sendFrame_spec n (stamp (n / 8) s) 0
    (modLoop n (fun y => { y with outs := y.outs.map (safeStep (fsec y.periodUs)), waiting := none, safeAt := s.time.now }) s)
  rw [lslot_modLoop_same] at hown
  exact ⟨⟨a, b, c, d, e, hown⟩, fun j hj => (hothers j hj).trans (lslot_modLoop_ne _ _ hj)⟩

/-! ### SAFE_OUT of a slot (R292, R294) -/

/-- The inner slots that follow a slot into SAFE_OUT are others: it is no longer MANUAL or AUTO. -/
theorem lslot_slotSafe_same (n : Nat) (s : State) : lslot n (slotSafe n s) = lslot n (enterSafe n s) := by
  have hsafe : (lslot n (enterSafe n s)).st = .safeOut := by
    obtain ⟨-, -, -, ⟨a, b, c, d, e, h⟩, -⟩ := enterSafe_spec n s
    rw [h]
  unfold slotSafe
  refine List.foldlRecOn (motive := fun u => lslot n u = lslot n (enterSafe n s)) _ _ rfl (fun u hu k _ => ?_)
  have hne : ∀ z, (lslot k u).st = z → z ≠ .safeOut → lslot n (enterSafe k u) = lslot n (enterSafe n s) := by
    intro z hz hns
    have hkn : n ≠ k := by
      rintro rfl
      exact hns (hz.symm.trans ((congrArg LoopSlot.st hu).trans hsafe))
    obtain ⟨-, -, hothers, -, -⟩ := enterSafe_spec k u
    exact (hothers n hkn).trans hu
  split
  · next hz => exact hne _ hz (by decide)
  · next hz => exact hne _ hz (by decide)
  · exact hu

/-- The slot itself is in SAFE_OUT, no evaluation of it waits, and its loss counter is as it was. -/
theorem slotSafe_slot (n : Nat) (s : State) : (lslot n (slotSafe n s)).st = .safeOut
    ∧ (lslot n (slotSafe n s)).waiting = none ∧ (lslot n (slotSafe n s)).cFb = (lslot n s).cFb := by
  obtain ⟨-, -, -, ⟨a, b, c, d, e, h⟩, -⟩ := enterSafe_spec n s
  rw [lslot_slotSafe_same, h]
  exact ⟨rfl, rfl, rfl⟩

/-! ### Requests applied at an evaluation (R292) -/

theorem applyReq_none {n : Nat} {s : State} (h : (lslot n s).req = 0) : applyReq n s = s := if_pos h

/-- A STOPPED slot that goes to MANUAL starts afresh. -/
theorem applyReq_stopped_manual {n : Nat} {s : State} (hst : (lslot n s).st = .stopped) (hreq : (lslot n s).req = 1) :
    applyReq n s = loopTrace n .stopped (modLoop n (fun y => toManual true { y with req := 0 }) s) := by
  simp [applyReq, hreq, hst, reqTarget]

/-- An AUTO slot without inner slots that is to stop does so. -/
theorem applyReq_auto_stop {n : Nat} {s : State} (hst : (lslot n s).st = .auto) (hreq : (lslot n s).req = 3)
    (hsafe : notSafe s = true) (hinner : innersOf n s = []) :
    applyReq n s = loopTrace n .auto (modLoop n (fun y => { y with req := 0, st := .stopped, track := false }) s) := by
  simp [applyReq, hreq, hst, reqTarget, hsafe, hinner]

/-! ### Feedback of an evaluation (R284, R288) -/

/-- The feedback the model of a slot predicts. -/
def LoopSlot.predicted (x : LoopSlot) : List Nat := fmatVec (lmat x 7 x.m x.q) x.q x.xm x.m

/-- A channel of a slot is stale at the trigger stamp `w`. -/
def LoopSlot.lost (w : Nat) (x : LoopSlot) : Bool := x.chans.any (chanStale w x.stepSum)

theorem LoopSlot.lost_eq_true {w : Nat} {x : LoopSlot} : x.lost w = true ↔ ∃ c ∈ x.chans, chanStale w x.stepSum c = true :=
  List.any_eq_true

theorem LoopSlot.lost_eq_false {w : Nat} {x : LoopSlot} : x.lost w = false ↔ ∀ c ∈ x.chans, chanStale w x.stepSum c = false := by
  simp [LoopSlot.lost]

/-- The slot `y` once the evaluation of stamp `w` has taken and counted the feedback that `x` gives. -/
def LoopSlot.fed (w : Nat) (x y : LoopSlot) : LoopSlot :=
  let f := feedback x w x.predicted
  countFeedback f.2.1 f.2.2 { y with chans := f.1, waiting := none, trigStamp := w }

/-- A slot once its own feedback at stamp `w` is taken and its residual window judged. -/
def LoopSlot.counted (w : Nat) (x : LoopSlot) : LoopSlot := { LoopSlot.fed w x x with resRaised := resExceeded (LoopSlot.fed w x x) }

@[simp] theorem LoopSlot.counted_st (w : Nat) (x : LoopSlot) : (x.counted w).st = x.st := rfl
@[simp] theorem LoopSlot.counted_req (w : Nat) (x : LoopSlot) : (x.counted w).req = x.req := rfl
@[simp] theorem LoopSlot.counted_law (w : Nat) (x : LoopSlot) : (x.counted w).law = x.law := rfl
@[simp] theorem LoopSlot.counted_outs (w : Nat) (x : LoopSlot) : (x.counted w).outs = x.outs := rfl
@[simp] theorem LoopSlot.counted_periodUs (w : Nat) (x : LoopSlot) : (x.counted w).periodUs = x.periodUs := rfl
@[simp] theorem LoopSlot.counted_waiting (w : Nat) (x : LoopSlot) : (x.counted w).waiting = none := rfl
@[simp] theorem LoopSlot.counted_trigStamp (w : Nat) (x : LoopSlot) : (x.counted w).trigStamp = w := rfl

theorem LoopSlot.counted_fbStale (w : Nat) (x : LoopSlot) : (x.counted w).fbStale = x.lost w := rfl

theorem LoopSlot.counted_fbRun (w : Nat) (x : LoopSlot) : (x.counted w).fbRun = if x.lost w then x.fbRun + 1 else 0 := rfl

theorem LoopSlot.counted_cFb (w : Nat) (x : LoopSlot) : (x.counted w).cFb = if x.lost w then satAdd 16 x.cFb 1 else x.cFb := rfl

/-- The state at which slot `n` goes on with its law, or gives it up. -/
def fedState (n w : Nat) (s : State) : State := raiseResidual n (countEval n (modLoop n (LoopSlot.fed w (lslot n s)) s))

theorem lslot_fedState_same (n w : Nat) (s : State) : lslot n (fedState n w s) = (lslot n s).counted w := by
  rw [fedState, lslot_raiseResidual, if_pos rfl, lslot_countEval, lslot_modLoop_same]
  rfl

theorem lslot_fedState_ne {j n : Nat} (w : Nat) (s : State) (h : j ≠ n) : lslot j (fedState n w s) = lslot j s := by
  rw [fedState, lslot_raiseResidual, if_neg h, lslot_countEval, lslot_modLoop_ne _ _ h]

/-- FB_LOSS_N evaluations in a row with a stale channel take the slot to SAFE_OUT. -/
theorem evaluate_lost {n w : Nat} {s : State} (hlost : (lslot n s).lost w = true) (hrun : (lslot n s).fbLossN ≤ (lslot n s).fbRun + 1)
    (was : LoopSt) : evaluate n w was s = latch (srcLoop n 1) n (slotSafe n (fedState n w s)) := by
  have hfed : (lslot n (fedState n w s)).fbRun = (lslot n s).fbRun + 1 := by
    rw [lslot_fedState_same, LoopSlot.counted_fbRun, if_pos hlost]
  exact if_pos ⟨hfed ▸ hrun, hlost⟩

/-! ### Laws (R289) -/

/-- A slot once its law and its model have made their step. -/
def LoopSlot.lawStep (cs : List LoopChan) (tr : Bool) (mode : LawMode) (yhat : List Nat) (x : LoopSlot) : LoopSlot :=
  modelStep (evalLaw { x with chans := cs, track := tr } mode) yhat

/-- A law changes its own states and the outputs. -/
theorem evalLaw_eq (x : LoopSlot) (mode : LawMode) : ∃ yf d i r yp xs ws os, evalLaw x mode
    = { x with yf := yf, dState := d, iState := i, rPrev := r, yfPrev := yp, x := xs, w := ws, outs := os } := by
  unfold evalLaw
  split
  · unfold pidLaw
    cases mode <;> exact ⟨_, _, _, _, _, _, _, _, rfl⟩
  · exact ⟨_, _, _, _, _, _, _, _, rfl⟩

/-- The model's step changes its state only. -/
theorem modelStep_eq (x : LoopSlot) (yhat : List Nat) : ∃ m, modelStep x yhat = { x with xm := m } := by
  unfold modelStep; split
  · exact ⟨x.xm, rfl⟩
  · exact ⟨_, rfl⟩

theorem lawStep_eq (cs : List LoopChan) (tr : Bool) (mode : LawMode) (yhat : List Nat) (x : LoopSlot) :
    ∃ yf d i r yp xs ws os m, x.lawStep cs tr mode yhat = { x with
      chans := cs, track := tr, yf := yf, dState := d, iState := i, rPrev := r, yfPrev := yp, x := xs, w := ws, outs := os, xm := m } := by
  obtain ⟨yf, d, i, r, yp, xs, ws, os, hlaw⟩ := evalLaw_eq { x with chans := cs, track := tr } mode
  obtain ⟨m, hm⟩ := modelStep_eq (evalLaw { x with chans := cs, track := tr } mode) yhat
  exact ⟨yf, d, i, r, yp, xs, ws, os, m, by rw [LoopSlot.lawStep, hm, hlaw]⟩

/-- The outputs when the law is forced to the manual values: each is its manual value, limited. -/
def LoopSlot.manualOuts (x : LoopSlot) : List LoopOut :=
  x.outs.map (fun o => { o with u := limitOut (fsec x.periodUs) o o.man })

/-- A PID slot has one output; a state-space slot limits each of its own. -/
theorem evalLaw_forced {x : LoopSlot} (h : x.law ≠ 0 ∨ x.outs.length = 1) :
    (evalLaw x (.forced (x.outs.map (·.man)))).outs = x.manualOuts := by
  unfold evalLaw
  split
  · next hlaw =>
    obtain ⟨o, ho⟩ := List.length_eq_one_iff.1 (h.resolve_left (fun hne => hne hlaw))
    simp [pidLaw, LoopSlot.manualOuts, ho]
  · simp [ssLaw, LoopSlot.manualOuts, List.zipWith_map_right, List.zipWith_self]

theorem lawStep_forced {x : LoopSlot} (h : x.law ≠ 0 ∨ x.outs.length = 1) (cs : List LoopChan) (tr : Bool) (yhat : List Nat) :
    (x.lawStep cs tr (.forced (x.outs.map (·.man))) yhat).outs = x.manualOuts := by
  obtain ⟨m, hm⟩ := modelStep_eq (evalLaw { x with chans := cs, track := tr } (.forced (x.outs.map (·.man)))) yhat
  rw [LoopSlot.lawStep, hm]
  exact evalLaw_forced (x := { x with chans := cs, track := tr }) h

/-! ### An evaluation in MANUAL (R284, R293) -/

/-- The frame of an evaluation, which the outer slot of a cascade does not send. -/
def frameAfter (n w : Nat) (steps : Int) (s : State) : State := if isOuter n s then s else sendFrame n w steps s

theorem frameAfter_slot (n w : Nat) (steps : Int) (s : State) :
    (∃ a b c d e, lslot n (frameAfter n w steps s) = { lslot n s with ctr := a, latLast := b, latMax := c, replaced := d, dropped := e })
    ∧ ∀ j, j ≠ n → lslot j (frameAfter n w steps s) = lslot j s := by
  unfold frameAfter; split
  · exact ⟨⟨_, _, _, _, _, rfl⟩, fun _ _ => rfl⟩
  · obtain ⟨-, -, hothers, hown⟩ := sendFrame_spec n w steps s
    exact ⟨hown, hothers⟩

/-- What an evaluation of slot `n` with stamp `w` in MANUAL makes of `s`. -/
structure ManualEvaluated (n w : Nat) (s u : State) : Prop where
  st : (lslot n u).st = .manual
  req : (lslot n u).req = (lslot n s).req
  waiting : (lslot n u).waiting = none
  trigStamp : (lslot n u).trigStamp = w
  fbStale : (lslot n u).fbStale = false
  fbRun : (lslot n u).fbRun = 0
  outs : (lslot n s).law ≠ 0 ∨ (lslot n s).outs.length = 1 → (lslot n u).outs = (lslot n s).manualOuts
  others : ∀ k, k ≠ n → lslot k u = lslot k s

/-- With fresh channels a MANUAL slot goes on to its law, forced to the manual values. -/
theorem evaluate_manual {n w : Nat} {s : State} (hst : (lslot n s).st = .manual) (hfresh : (lslot n s).lost w = false) (was : LoopSt) :
    ∃ (cs : LoopSlot → List LoopChan) (tr : Bool), evaluate n w was s = frameAfter n w (lslot n s).stepSum (modLoop n
      (fun y => y.lawStep (cs y) tr (.forced ((lslot n s).outs.map (·.man))) (lslot n s).predicted) (fedState n w s)) := by
  have hman : (lslot n (fedState n w s)).st = .manual := by rw [lslot_fedState_same, LoopSlot.counted_st, hst]
  have houts : (lslot n (fedState n w s)).outs = (lslot n s).outs := by rw [lslot_fedState_same, LoopSlot.counted_outs]
  have hmode : lawMode n was (fedState n w s) = .forced ((lslot n s).outs.map (·.man)) := by
    simp only [lawMode, hman, houts]
  rw [← hmode]
  refine ⟨fun y => setpoints y w (fedState n w s), decide ((trackedInner n (fedState n w s)).isSome), ?_⟩
  refine (if_neg (fun h => ?_)).trans (if_neg (fun h => ?_))
  · exact absurd (hfresh.symm.trans h.2) (by decide)
  · exact absurd (hst.symm.trans h.2.2) (by decide)

theorem evaluate_manual_slot {n w : Nat} {s : State} (hst : (lslot n s).st = .manual) (hfresh : (lslot n s).lost w = false) (was : LoopSt) :
    ManualEvaluated n w s (evaluate n w was s) := by
  obtain ⟨cs, tr, heval⟩ := evaluate_manual hst hfresh was
  obtain ⟨⟨a, b, c, d, e, hown⟩, hothers⟩ := frameAfter_slot n w (lslot n s).stepSum (modLoop n
      (fun y => y.lawStep (cs y) tr (.forced ((lslot n s).outs.map (·.man))) (lslot n s).predicted) (fedState n w s))
  rw [← heval, lslot_modLoop_same, lslot_fedState_same] at hown
  rw [← heval] at hothers
  obtain ⟨yf, dd, i, r, yp, xs, ws, os, m, hstep⟩ := lawStep_eq (cs ((lslot n s).counted w)) tr (.forced ((lslot n s).outs.map (·.man)))
    (lslot n s).predicted ((lslot n s).counted w)
  have hlimited := lawStep_forced (x := (lslot n s).counted w) (cs := cs ((lslot n s).counted w)) (tr := tr) (yhat := (lslot n s).predicted)
  rw [LoopSlot.counted_law, LoopSlot.counted_outs, LoopSlot.manualOuts, LoopSlot.counted_outs, LoopSlot.counted_periodUs] at hlimited
  constructor
  case outs => intro hlaw; rw [hown]; exact hlimited hlaw
  case others => intro k hk; rw [hothers k hk, lslot_modLoop_ne _ _ hk, lslot_fedState_ne _ _ hk]
  case st => simp only [hown, hstep, LoopSlot.counted_st, hst]
  case req => simp only [hown, hstep, LoopSlot.counted_req]
  case waiting => simp only [hown, hstep, LoopSlot.counted_waiting]
  case trigStamp => simp only [hown, hstep, LoopSlot.counted_trigStamp]
  case fbStale => simp only [hown, hstep, LoopSlot.counted_fbStale, hfresh]
  case fbRun => simp [hown, hstep, LoopSlot.counted_fbRun, hfresh]

/-! ### LOOP_EVAL (R284) -/

theorem loopEval_none {n : Nat} {s : State} (h : (lslot n s).waiting = none) : loopEval n s = s := by
  simp only [loopEval, h]

theorem loopEval_waits {n w : Nat} {s : State} (hw : (lslot n s).waiting = some w)
    (h : engineUp n s = false ∨ 4 ≤ aheadOf n w s ∨ outerDone n w s = false ∨ heldGroup (0x020 + n) s = true) : loopEval n s = s := by
  simp only [loopEval, hw]
  exact if_pos (by simpa using h)

/-- The waiting evaluation of stamp `w` takes a unit of its engine. -/
structure TakesUnit (n w : Nat) (s : State) : Prop where
  waiting : (lslot n s).waiting = some w
  up : engineUp n s = true
  unit : aheadOf n w s < 4
  outer : outerDone n w s = true
  free : heldGroup (0x020 + n) s = false

section Taken

variable {n w : Nat} {s : State} (h : TakesUnit n w s)
include h

/-- Nothing holds the evaluation back. -/
theorem TakesUnit.goes : ¬((!engineUp n s) = true ∨ 4 ≤ aheadOf n w s ∨ (!outerDone n w s) = true ∨ heldGroup (0x020 + n) s = true) := by
  simp [h.up, h.unit, h.outer, h.free]

theorem TakesUnit.stopped (hst : (lslot n (applyReq n s)).st = .stopped) :
    loopEval n s = modLoop n (fun y => { y with waiting := none }) (applyReq n s) := by
  simp only [loopEval, h.waiting, hst]
  exact if_neg h.goes

theorem TakesUnit.safeOut (hst : (lslot n (applyReq n s)).st = .safeOut) : loopEval n s = safeFrame n (applyReq n s) := by
  simp only [loopEval, h.waiting, hst]
  exact if_neg h.goes

theorem TakesUnit.evaluates (hst : (lslot n (applyReq n s)).st = .manual ∨ (lslot n (applyReq n s)).st = .auto) :
    loopEval n s = evaluate n w (lslot n s).st (applyReq n s) := by
  rcases hst with hst | hst
  · simp only [loopEval, h.waiting, hst]
    exact if_neg h.goes
  · simp only [loopEval, h.waiting, hst]
    exact if_neg h.goes

/-- A STOPPED slot without a request drops the evaluation. -/
theorem loopEval_dropped (hst : (lslot n s).st = .stopped) (hreq : (lslot n s).req = 0) :
    loopEval n s = modLoop n (fun y => { y with waiting := none }) s := by
  have happ := applyReq_none hreq
  rw [h.stopped (by rw [happ]; exact hst), happ]

/-- A STOPPED slot asked into MANUAL is evaluated there at once. -/
theorem loopEval_to_manual (hst : (lslot n s).st = .stopped) (hreq : (lslot n s).req = 1) (hfresh : (lslot n s).lost w = false) :
    ∃ v, (lslot n v).req = 0 ∧ (∀ k, k ≠ n → lslot k v = lslot k s) ∧ ManualEvaluated n w v (loopEval n s) := by
  have happ := applyReq_stopped_manual hst hreq
  have hslot : lslot n (applyReq n s) = toManual true { lslot n s with req := 0 } := by
    rw [happ, lslot_loopTrace, lslot_modLoop_same]
  have hman : (lslot n (applyReq n s)).st = .manual := by rw [hslot]; rfl
  refine ⟨applyReq n s, by rw [hslot]; rfl, fun k hk => ?_, ?_⟩
  · rw [happ, lslot_loopTrace, lslot_modLoop_ne _ _ hk]
  · rw [h.evaluates (.inl hman)]
    exact evaluate_manual_slot hman (by rw [hslot]; exact hfresh) _

/-- An AUTO slot without inner slots that is asked to stop drops the evaluation. -/
theorem loopEval_stops (hst : (lslot n s).st = .auto) (hreq : (lslot n s).req = 3) (hsafe : notSafe s = true) (hinner : innersOf n s = []) :
    lslot n (loopEval n s) = { lslot n s with req := 0, st := .stopped, track := false, waiting := none }
    ∧ ∀ k, k ≠ n → lslot k (loopEval n s) = lslot k s := by
  have happ := applyReq_auto_stop hst hreq hsafe hinner
  have hslot : lslot n (applyReq n s) = { lslot n s with req := 0, st := .stopped, track := false } := by
    rw [happ, lslot_loopTrace, lslot_modLoop_same]
  rw [h.stopped (by rw [hslot])]
  refine ⟨by rw [lslot_modLoop_same, hslot], fun k hk => ?_⟩
  rw [lslot_modLoop_ne _ _ hk, happ, lslot_loopTrace, lslot_modLoop_ne _ _ hk]

theorem loopEval_manual (hst : (lslot n s).st = .manual) (hreq : (lslot n s).req = 0) (hfresh : (lslot n s).lost w = false) :
    ManualEvaluated n w s (loopEval n s) := by
  have happ := applyReq_none hreq
  rw [h.evaluates (.inl (by rw [happ]; exact hst)), happ]
  exact evaluate_manual_slot hst hfresh _

/-- The evaluation that makes FB_LOSS_N in a row is counted, and takes the slot to SAFE_OUT. -/
theorem loopEval_lost (hst : (lslot n s).st = .manual ∨ (lslot n s).st = .auto) (hreq : (lslot n s).req = 0)
    (hlost : (lslot n s).lost w = true) (hrun : (lslot n s).fbLossN ≤ (lslot n s).fbRun + 1) :
    (lslot n (loopEval n s)).st = .safeOut ∧ (fsrc (srcLoop n 1) (loopEval n s)).latched = true
    ∧ (lslot n (loopEval n s)).cFb = satAdd 16 (lslot n s).cFb 1 ∧ (lslot n (loopEval n s)).waiting = none := by
  have happ := applyReq_none hreq
  obtain ⟨hsafe, hwait, hcount⟩ := slotSafe_slot n (fedState n w s)
  have hfed : (lslot n (fedState n w s)).cFb = satAdd 16 (lslot n s).cFb 1 := by
    rw [lslot_fedState_same, LoopSlot.counted_cFb, if_pos hlost]
  rw [h.evaluates (by rw [happ]; exact hst), happ, evaluate_lost hlost hrun, lslot_latch, fsrc_latch_same]
  exact ⟨hsafe, rfl, hcount.trans hfed, hwait⟩

theorem loopEval_safe (hst : (lslot n s).st = .safeOut) (hreq : (lslot n s).req = 0) : loopEval n s = safeFrame n s := by
  have happ := applyReq_none hreq
  rw [h.safeOut (by rw [happ]; exact hst), happ]

end Taken

/-! ### Gate lists (R291) -/

/-- Between `s` and `u` frames have left port `e` at most: its gates, the gate lists and the other ports are as they were. -/
structure FramesLeft (e : Nat) (s u : State) : Prop where
  lists : ∀ j, gateCtl j u = gateCtl j s
  gates : (eport e u).gates = (eport e s).gates
  others : ∀ j, j ≠ e → eport j u = eport j s

theorem FramesLeft.refl (e : Nat) (s : State) : FramesLeft e s s := ⟨fun _ => rfl, rfl, fun _ _ => rfl⟩

theorem FramesLeft.trans {e : Nat} {s t u : State} (h : FramesLeft e s t) (k : FramesLeft e t u) : FramesLeft e s u :=
  ⟨fun j => (k.lists j).trans (h.lists j), k.gates.trans h.gates, fun j hj => (k.others j hj).trans (h.others j hj)⟩

/-- A change of a port that keeps its gates. -/
theorem framesLeft_modEth {e : Nat} {f : EthPort → EthPort} (hf : ∀ p, (f p).gates = p.gates) (s : State) : FramesLeft e s (modEth e f s) :=
  ⟨fun _ => rfl, by rw [eport_modEth_same, hf], fun _ hj => eport_modEth_ne _ _ hj⟩

theorem framesLeft_ethEmit (e : Nat) (f : EthFrame) (o : TxOwner) (s : State) : FramesLeft e s (ethEmit e f o s) := by
  have hsent : FramesLeft e s (modEth e (fun p => { p with sent := (stamp (e / 2) s, f) :: p.sent }) s) :=
    framesLeft_modEth (by intro p; rfl) s
  cases o with
  | plain => exact hsent
  | loop _ => exact hsent
  | agentReq q => exact ⟨hsent.lists, hsent.gates, hsent.others⟩
  | stamped id => exact hsent.trans (framesLeft_modEth (by intro p; split <;> rfl) _)

theorem framesLeft_ethDrainClass (e tc k : Nat) (s : State) : FramesLeft e s (ethDrainClass e tc k s) := by
  induction k generalizing s with
  | zero => exact .refl e s
  | succ k ih =>
    unfold ethDrainClass
    split
    · exact .refl e s
    · split
      · exact ((framesLeft_modEth (by intro p; rfl) s).trans (framesLeft_ethEmit e _ _ _)).trans (ih _)
      · exact .refl e s

theorem framesLeft_ethDrain (e : Nat) (s : State) : FramesLeft e s (ethDrain e s) :=
  List.foldlRecOn (motive := FramesLeft e s) _ _ (.refl e s) (fun u hu tc _ => hu.trans (framesLeft_ethDrainClass e tc _ u))

/-- A port with nothing queued has nothing to send. -/
theorem ethDrain_nil {e : Nat} {s : State} (h : (eport e s).queued = []) : ethDrain e s = s := by
  refine List.foldlRecOn (motive := (· = s)) _ _ rfl (fun u hu tc _ => ?_)
  subst hu
  rw [h]; rfl

theorem gateEntry_none {e i : Nat} {s : State} (h : (gateCtl e s).oper[i]? = none) : gateEntry e i s = s := by
  simp only [gateEntry, h]

/-- Entry `i` has been taken and its gates stand as it says; no frame has left yet. -/
def gateTaken (e i : Nat) (g : GateEntry) (s : State) : State :=
  modEth e (fun p => { p with gates := g.gates % 256 }) (modGates e (fun y => { y with idx := i, at_ := s.time.now }) s)

theorem gateEntry_some {e i : Nat} {g : GateEntry} {s : State} (h : (gateCtl e s).oper[i]? = some g) :
    gateEntry e i s = ethDrain e (gateTaken e i g s) := by
  simp only [gateEntry, h]; rfl

/-- An entry sets the gates of its port and its place in the list, and changes no other port. -/
theorem gateEntry_spec {e i : Nat} {g : GateEntry} {s : State} (h : (gateCtl e s).oper[i]? = some g) :
    (eport e (gateEntry e i s)).gates = g.gates % 256
    ∧ gateCtl e (gateEntry e i s) = { gateCtl e s with idx := i, at_ := s.time.now }
    ∧ ∀ j, j ≠ e → eport j (gateEntry e i s) = eport j s ∧ gateCtl j (gateEntry e i s) = gateCtl j s := by
  obtain ⟨hlists, hgates, hothers⟩ := framesLeft_ethDrain e (gateTaken e i g s)
  have hport : eport e (gateTaken e i g s) = { eport e s with gates := g.gates % 256 } := eport_modEth_same _ _ _
  rw [gateEntry_some h, hgates, hlists, hport]
  refine ⟨rfl, gateCtl_modGates_same _ _ _, fun j hj => ⟨?_, ?_⟩⟩
  · exact (hothers j hj).trans (eport_modEth_ne _ _ hj)
  · exact (hlists j).trans (gateCtl_modGates_ne _ _ hj)

theorem gateEntry_nothing_queued {e i : Nat} {g : GateEntry} {s : State} (h : (gateCtl e s).oper[i]? = some g)
    (hq : (eport e s).queued = []) : eport e (gateEntry e i s) = { eport e s with gates := g.gates % 256 } := by
  have hport : eport e (gateTaken e i g s) = { eport e s with gates := g.gates % 256 } := eport_modEth_same _ _ _
  rw [gateEntry_some h, ethDrain_nil (by rw [hport]; exact hq), hport]

/-- The entries of a gate list as it is written. -/
def gateEntries (l : List (Nat × Nat)) : List GateEntry := l.map (fun y => { gates := y.1 % 256, ns := y.2 })

/-- A gate control with the list `es` in force from `base` on. -/
def GateCtl.withList (base cycle : Nat) (es : List GateEntry) (y : GateCtl) : GateCtl :=
  { y with oper := es, operBase := base, operCycle := cycle, admin := es, adminBase := base, adminCycle := cycle }

theorem adminBase_wrong {cycle : Nat} {l : List (Nat × Nat)} (h : gateListOk cycle l = false) (e base : Nat) (s : State) :
    adminBase e base cycle l s = s := if_pos (by rw [h]; rfl)

theorem adminBase_allowed {cycle : Nat} {l : List (Nat × Nat)} (h : gateListOk cycle l = true) (e base : Nat) (s : State) :
    adminBase e base cycle l s = gateEntry e 0 (modGates e (GateCtl.withList base cycle (gateEntries l)) s) :=
  if_neg (by rw [h]; decide)

end Sys2Proof.Machine

namespace Sys2Proof
open Sys2Proof.Machine

/-- Settles O50: a request is judged by what it would lead to, an evaluation that takes a unit applies it and goes on as the
slot's state asks, and an entry of a gate list sets its port's gates before frames leave. That an evaluation waits behind four
others is assumption 33, that the one at FB_LOSS_N counts is assumption 31, and that a gate list is an operand is assumption 34. -/
theorem loopRequestsWaitAndEvaluationsApplyThem : Obligations.LoopRequestsWaitAndEvaluationsApplyThem := by
  refine ⟨fun t n j v s0 => ?_, fun t n s0 => ?_, fun t e i base cycle l s0 => ?_⟩
  · intro s x others only judged
    have hmanual : Machine.exec (.loopReqManual t n) s0 = .next (loopHostReq n 1 s) := rfl
    have hauto : Machine.exec (.loopReqAuto t n) s0 = .next (loopHostReq n 2 s) := rfl
    have hstop : Machine.exec (.loopReqStop t n) s0 = .next (loopHostReq n 3 s) := rfl
    have hwrite : Machine.exec (.loopManWrite t n j v) s0 = .next (loopMan n j v s) := rfl
    clear_value s
    have hjudged : ∀ c r (ok : Prop), Machine.exec c s0 = .next (loopHostReq n r s) → ((reqTarget n r s).isSome = true ↔ ok) →
        judged c r ok := by
      intro c r ok hexec hok
      refine ⟨fun hsec => hexec.trans (congrArg _ (loopHostReq_secure hsec r)), fun hsec hdecl hup hoff =>
        ⟨_, hexec.trans (congrArg _ (loopHostReq_judged hsec hdecl hup hoff r)), fun k hk => lslot_modLoop_ne _ _ hk, rfl,
          fun h => ?_, fun h => ?_⟩⟩
      · exact (lslot_modLoop_same _ _ _).trans (if_pos (hok.2 h))
      · exact (lslot_modLoop_same _ _ _).trans (if_neg (fun hs => h (hok.1 hs)))
    refine ⟨hjudged _ 1 _ hmanual reqTarget_manual, hjudged _ 2 _ hauto reqTarget_auto, hjudged _ 3 _ hstop reqTarget_stop,
      fun hsec => hwrite.trans (congrArg _ (loopMan_secure hsec j v)), fun hsec hdecl hoff => ?_⟩
    exact ⟨_, hwrite.trans (congrArg _ (loopMan_stores hsec hdecl hoff j v)), fun k hk => lslot_modLoop_ne _ _ hk, rfl,
      lslot_modLoop_same _ _ _⟩
  · intro s x
    have heval : Machine.exec (.loopEval t n) s0 = .next (loopEval n s) := rfl
    clear_value s
    refine ⟨fun h => heval.trans (congrArg _ (loopEval_none h)), fun w hw => ⟨fun h => heval.trans (congrArg _ (loopEval_waits hw h)),
      fun hup hunit houter hheld => ?_⟩⟩
    have h : TakesUnit n w s := ⟨hw, hup, hunit, houter, hheld⟩
    refine ⟨fun hst hreq => ?_, fun hst hreq hfresh => ?_, fun hst hreq hsafe hinner => ?_, fun hst hreq hfresh hlaw => ?_,
      fun hst hreq hlost hrun => ?_, fun hst hreq => ?_⟩
    · exact ⟨_, heval.trans (congrArg _ (loopEval_dropped h hst hreq)), lslot_modLoop_same _ _ _, fun k hk => lslot_modLoop_ne _ _ hk, rfl⟩
    · obtain ⟨v, hvreq, hv, hdone⟩ := loopEval_to_manual h hst hreq (LoopSlot.lost_eq_false.2 hfresh)
      exact ⟨_, heval, hdone.st, hdone.req.trans hvreq, hdone.waiting, fun k hk => (hdone.others k hk).trans (hv k hk)⟩
    · obtain ⟨hslot, hothers⟩ := loopEval_stops h hst hreq hsafe hinner
      exact ⟨_, heval, by rw [hslot], by rw [hslot], by rw [hslot], by rw [hslot], hothers⟩
    · have hdone := loopEval_manual h hst hreq (LoopSlot.lost_eq_false.2 hfresh)
      exact ⟨_, heval, hdone.outs hlaw, hdone.st, hdone.waiting, hdone.trigStamp, hdone.fbStale, hdone.fbRun, hdone.others⟩
    · exact ⟨_, heval, loopEval_lost h hst hreq (LoopSlot.lost_eq_true.2 hlost) hrun⟩
    · obtain ⟨⟨a, b, c, d, e, hown⟩, hothers⟩ := safeFrame_slot n s
      exact ⟨_, heval.trans (congrArg _ (loopEval_safe h hst hreq)), by rw [hown], by rw [hown]; exact hst, by rw [hown], hothers⟩
  · intro s
    have hgate : Machine.exec (.qbvGateEvent t e i) s0 = .next (gateEntry e i s) := rfl
    have hadmin : Machine.exec (.adminBaseTime t e base cycle l) s0 = .next (adminBase e base cycle l s) := rfl
    clear_value s
    refine ⟨fun h => hgate.trans (congrArg _ (gateEntry_none h)), fun g h => ?_, fun h => hadmin.trans (congrArg _ (adminBase_wrong h e base s)),
      fun g r hl h => ?_⟩
    · obtain ⟨hgates, hctl, hothers⟩ := gateEntry_spec h
      exact ⟨_, hgate, hgates, hctl, hothers, gateEntry_nothing_queued h⟩
    · subst hl
      have hctl : gateCtl e (modGates e (GateCtl.withList base cycle (gateEntries (g :: r))) s)
          = (gateCtl e s).withList base cycle (gateEntries (g :: r)) := gateCtl_modGates_same _ _ _
      obtain ⟨hgates, hown, hothers⟩ := gateEntry_spec (e := e) (i := 0) (g := { gates := g.1 % 256, ns := g.2 })
        (s := modGates e (GateCtl.withList base cycle (gateEntries (g :: r))) s) (by rw [hctl]; rfl)
      refine ⟨_, hadmin.trans (congrArg _ (adminBase_allowed h e base s)), ?_⟩
      rw [hgates, hown, hctl]
      refine ⟨rfl, rfl, rfl, rfl, rfl, rfl, Nat.mod_mod _ _, fun j hj => ⟨?_, ?_⟩⟩
      · exact (hothers j hj).1
      · exact ((hothers j hj).2).trans (gateCtl_modGates_ne _ _ hj)

end Sys2Proof

/-!
SUPPORT. The proof of the statement about RATE and the trim of IOD1: every operation but a few leaves both as they are, and those
few clamp what they set.
-/

namespace Sys2Proof.Machine

/-! ### What leaves the rate corrections as they are -/

/-- The two corrections a timebase runs with: RATE (R301) and the local trim of IOD1 (R302). -/
def rates (s : State) : Int × Int := (s.time.rate, s.time.trim)

@[simp ↓] theorem rates_update {s : State} {t : TimeState} {p c f l pt fb d h i lo se x sc pl}
    (hr : t.rate = s.time.rate) (ht : t.trim = s.time.trim) :
    rates ⟨s.pending, t, p, c, f, l, pt, fb, d, h, i, lo, se, x, sc, pl⟩ = rates s := by
  simp only [rates, hr, ht]

@[simp ↓] theorem rates_ite (c : Prop) [Decidable c] (a b : State) :
    rates (if c then a else b) = if c then rates a else rates b := by split <;> rfl

@[simp ↓] theorem rates_foldl {α : Type} (f : State → α → State) (hf : ∀ s a, rates (f s a) = rates s) (l : List α) (s : State) :
    rates (l.foldl f s) = rates s := by
  induction l generalizing s with
  | nil => rfl
  | cons a r ih => rw [List.foldl_cons, ih, hf]

/-! #### Machine/Ops -/

@[simp ↓] theorem rates_modChan (ch f s) : rates (modChan ch f s) = rates s := by simp [modChan]
@[simp ↓] theorem rates_setQueued (a b s) : rates (setQueued a b s) = rates s := by simp [setQueued]
@[simp ↓] theorem rates_devWr8 (a b s) : rates (devWr8 a b s) = rates s := by simp [devWr8]

@[simp ↓] theorem rates_devWr (a bs s) : rates (devWr a bs s) = rates s := by
  induction bs generalizing a s with
  | nil => rfl
  | cons b r ih => simp [devWr, ih]

@[simp ↓] theorem rates_setTrace (d u s) : rates (setTrace d u s) = rates s := by simp [setTrace]
@[simp ↓] theorem rates_tracePut (d src kind data s) : rates (tracePut d src kind data s) = rates s := by simp [tracePut]
@[simp ↓] theorem rates_traceEv (d src kind data s) : rates (traceEv d src kind data s) = rates s := by simp [traceEv]
@[simp ↓] theorem rates_modPort (p f s) : rates (modPort p f s) = rates s := by simp [modPort]
@[simp ↓] theorem rates_hostWr (p a bs s) : rates (hostWr p a bs s) = rates s := by simp [hostWr]
@[simp ↓] theorem rates_sendVec (p v s) : rates (sendVec p v s) = rates s := by simp [sendVec]
@[simp ↓] theorem rates_attachVec (s) : rates (attachVec s) = rates s := by simp [attachVec]
@[simp ↓] theorem rates_modEth (e f s) : rates (modEth e f s) = rates s := by simp [modEth]
@[simp ↓] theorem rates_pushTxts (e x s) : rates (pushTxts e x s) = rates s := by simp [pushTxts]
@[simp ↓] theorem rates_ethEmit (e f o s) : rates (ethEmit e f o s) = rates s := by unfold ethEmit; split <;> simp
@[simp ↓] theorem rates_dropWaiting (e o s) : rates (dropWaiting e o s) = rates s := by unfold dropWaiting; split <;> simp
@[simp ↓] theorem rates_ethSend (e tc f o s) : rates (ethSend e tc f o s) = rates s := by simp [ethSend]
@[simp ↓] theorem rates_ethDrainClass (e tc n s) : rates (ethDrainClass e tc n s) = rates s := by fun_induction ethDrainClass <;> simp [*]
@[simp ↓] theorem rates_ethDrain (e s) : rates (ethDrain e s) = rates s := rates_foldl _ (fun _ _ => rates_ethDrainClass _ _ _ _) _ _
@[simp ↓] theorem rates_modSrc (id f s) : rates (modSrc id f s) = rates s := by simp [modSrc]
@[simp ↓] theorem rates_latch (id detail s) : rates (latch id detail s) = rates s := by simp [latch]
@[simp ↓] theorem rates_latchBoth (idx detail s) : rates (latchBoth idx detail s) = rates s := by simp [latchBoth]
@[simp ↓] theorem rates_latchWrite (half off s) : rates (latchWrite half off s) = rates s := by simp [latchWrite]

@[simp ↓] theorem rates_rwWrite {busy act : State → State} (hb : ∀ z, rates (busy z) = rates z)
    (ha : ∀ z, rates (act z) = rates z) (idle off s) : rates (rwWrite idle off busy act s) = rates s := by simp [rwWrite, hb, ha]

@[simp ↓] theorem rates_drawFree (s) : rates (drawFree s).2 = rates s := by simp [drawFree]

/-! #### Machine/ModState -/

@[simp ↓] theorem rates_settle (s) : rates (settle s) = rates s := by simp [settle]

/-! #### Machine/LedgerOps -/

@[simp ↓] theorem rates_modStrm (n f s) : rates (modStrm n f s) = rates s := by simp [modStrm]
@[simp ↓] theorem rates_setTickets (ts s) : rates (setTickets ts s) = rates s := by simp [setTickets]
@[simp ↓] theorem rates_mapTickets (f s) : rates (mapTickets f s) = rates s := by simp [mapTickets]
@[simp ↓] theorem rates_modTicket (st q f s) : rates (modTicket st q f s) = rates s := by simp [modTicket]
@[simp ↓] theorem rates_watchPush (st miss s) : rates (watchPush st miss s) = rates s := by simp [watchPush]
@[simp ↓] theorem rates_watchEnd (k s) : rates (watchEnd k s) = rates s := by unfold watchEnd; split <;> simp
@[simp ↓] theorem rates_voidWhere (p cause part quad detail s) : rates (voidWhere p cause part quad detail s) = rates s := by
  simp [voidWhere]

@[simp ↓] theorem rates_voidTags (tags cause part quad detail s) : rates (voidTags tags cause part quad detail s) = rates s := by
  simp [voidTags]

@[simp ↓] theorem rates_voidAll (cause part s) : rates (voidAll cause part s) = rates s := by simp [voidAll]
@[simp ↓] theorem rates_voidStream (st cause part quad s) : rates (voidStream st cause part quad s) = rates s := by simp [voidStream]
@[simp ↓] theorem rates_disableStream (st cause part quad s) : rates (disableStream st cause part quad s) = rates s := by
  simp [disableStream]

@[simp ↓] theorem rates_disableStreams (sts cause part quad s) : rates (disableStreams sts cause part quad s) = rates s := by
  simp [disableStreams]

@[simp ↓] theorem rates_writeReceipt (seq stmp verdict st s) : rates (writeReceipt seq stmp verdict st s) = rates s := by
  simp [writeReceipt]

@[simp ↓] theorem rates_acceptTicket (w bs land sealed s) : rates (acceptTicket w bs land sealed s) = rates s := by simp [acceptTicket]
@[simp ↓] theorem rates_ackTicket (st q s) : rates (ackTicket st q s) = rates s := by unfold ackTicket; split <;> simp
@[simp ↓] theorem rates_endTicket (st q s) : rates (endTicket st q s) = rates s := by simp [endTicket]
@[simp ↓] theorem rates_signalOutcome (st isVoid s) : rates (signalOutcome st isVoid s) = rates s := by simp [signalOutcome]
@[simp ↓] theorem rates_deliverOutcome (k s) : rates (deliverOutcome k s) = rates s := by simp [deliverOutcome]
@[simp ↓] theorem rates_modEdge (e f s) : rates (modEdge e f s) = rates s := by simp [modEdge]
@[simp ↓] theorem rates_sendToken (e tk s) : rates (sendToken e tk s) = rates s := by simp [sendToken]

/-! #### Machine/Image -/

@[simp ↓] theorem rates_modMitten (m f s) : rates (modMitten m f s) = rates s := by simp [modMitten]
@[simp ↓] theorem rates_mapMittens (f s) : rates (mapMittens f s) = rates s := by simp [mapMittens]
@[simp ↓] theorem rates_takeArriving (e s) : rates (takeArriving e s) = rates s := by simp [takeArriving]
@[simp ↓] theorem rates_offerToken (e tk s) : rates (offerToken e tk s) = rates s := by simp [offerToken]

/-! #### Machine/Fault -/

@[simp ↓] theorem rates_modColl (c f s) : rates (modColl c f s) = rates s := by simp [modColl]
@[simp ↓] theorem rates_copyRec (r s) : rates (copyRec r s) = rates s := by simp [copyRec]
@[simp ↓] theorem rates_writeRec (c r s) : rates (writeRec c r s) = rates s := by simp [writeRec]
@[simp ↓] theorem rates_faultVec (s) : rates (faultVec s) = rates s := by simp [faultVec]
@[simp ↓] theorem rates_askSafe (id cause s) : rates (askSafe id cause s) = rates s := by simp [askSafe]
@[simp ↓] theorem rates_completeSrc (id action s) : rates (completeSrc id action s) = rates s := by simp [completeSrc]
@[simp ↓] theorem rates_expireSrc (id s) : rates (expireSrc id s) = rates s := by simp [expireSrc]
@[simp ↓] theorem rates_actMajor (id grave s) : rates (actMajor id grave s) = rates s := by simp [actMajor]
@[simp ↓] theorem rates_recognize (grave id s) : rates (recognize grave id s) = rates s := by simp [recognize]
@[simp ↓] theorem rates_recognizeAll (c s) : rates (recognizeAll c s) = rates s := by simp [recognizeAll]
@[simp ↓] theorem rates_lineBroken (id s) : rates (lineBroken id s) = rates s := by simp [lineBroken]
@[simp ↓] theorem rates_timerExpire (id s) : rates (timerExpire id s) = rates s := by simp [timerExpire]
@[simp ↓] theorem rates_fwAck (id s) : rates (fwAck id s) = rates s := by simp [fwAck]
@[simp ↓] theorem rates_fwIsolate (id part s) : rates (fwIsolate id part s) = rates s := by simp [fwIsolate]
@[simp ↓] theorem rates_dropIso (part s) : rates (dropIso part s) = rates s := by simp [dropIso]

@[simp ↓] theorem rates_isoUnconfirmed (part s) : rates (isoUnconfirmed part s) = rates s := by
  unfold isoUnconfirmed
  repeat' split
  all_goals simp

@[simp ↓] theorem rates_collectorParity (c s) : rates (collectorParity c s) = rates s := by
  unfold collectorParity
  repeat' split
  all_goals simp

/-! #### Machine/Loop -/

@[simp ↓] theorem rates_modLoop (n f s) : rates (modLoop n f s) = rates s := by simp [modLoop]
@[simp ↓] theorem rates_sendFrame (n st steps s) : rates (sendFrame n st steps s) = rates s := by
  unfold sendFrame; dsimp only; split <;> simp

@[simp ↓] theorem rates_loopTrace (n o s) : rates (loopTrace n o s) = rates s := by simp [loopTrace]
@[simp ↓] theorem rates_safeFrame (n s) : rates (safeFrame n s) = rates s := by simp [safeFrame]
@[simp ↓] theorem rates_enterSafe (n s) : rates (enterSafe n s) = rates s := by simp [enterSafe]
@[simp ↓] theorem rates_slotSafe (n s) : rates (slotSafe n s) = rates s :=
  (rates_foldl _ (fun a k => by split <;> simp) _ _).trans (rates_enterSafe n s)

@[simp ↓] theorem rates_safeOutAll (s) : rates (safeOutAll s) = rates s := by simp [safeOutAll]
@[simp ↓] theorem rates_trigger (n st s) : rates (trigger n st s) = rates s := by simp [trigger]
@[simp ↓] theorem rates_loopTimer (n s) : rates (loopTimer n s) = rates s := by fun_cases loopTimer <;> simp
@[simp ↓] theorem rates_loopWatchdog (n s) : rates (loopWatchdog n s) = rates s := by simp [loopWatchdog]
@[simp ↓] theorem rates_loopSample1 (id arrival payload n s) : rates (loopSample1 id arrival payload n s) = rates s := by simp [loopSample1]
@[simp ↓] theorem rates_loopSample (id arrival payload s) : rates (loopSample id arrival payload s) = rates s := by simp [loopSample]
@[simp ↓] theorem rates_setpointToken (e s) : rates (setpointToken e s) = rates s := by unfold setpointToken; split <;> simp
@[simp ↓] theorem rates_feedbackToken (e s) : rates (feedbackToken e s) = rates s := by unfold feedbackToken; split <;> simp
@[simp ↓] theorem rates_setpointStale (n s) : rates (setpointStale n s) = rates s := by simp [setpointStale]
@[simp ↓] theorem rates_loopReq (n r s) : rates (loopReq n r s) = rates s := by simp [loopReq]
@[simp ↓] theorem rates_loopHostReq (n r s) : rates (loopHostReq n r s) = rates s := by simp [loopHostReq]
@[simp ↓] theorem rates_loopMan (n j v s) : rates (loopMan n j v s) = rates s := by simp [loopMan]

@[simp ↓] theorem rates_applyReq (n s) : rates (applyReq n s) = rates s := by
  unfold applyReq
  dsimp only
  repeat' split
  all_goals simp

@[simp ↓] theorem rates_raiseResidual (n s) : rates (raiseResidual n s) = rates s := by simp [raiseResidual]
@[simp ↓] theorem rates_countEval (n s) : rates (countEval n s) = rates s := by simp [countEval]
@[simp ↓] theorem rates_evaluate (n st was s) : rates (evaluate n st was s) = rates s := by simp [evaluate]

@[simp ↓] theorem rates_loopEval (n s) : rates (loopEval n s) = rates s := by
  unfold loopEval
  dsimp only
  repeat' split
  all_goals simp

@[simp ↓] theorem rates_loopRecompute (n ok s) : rates (loopRecompute n ok s) = rates s := by simp [loopRecompute]
@[simp ↓] theorem rates_modGates (e f s) : rates (modGates e f s) = rates s := by simp [modGates]
@[simp ↓] theorem rates_gateEntry (e i s) : rates (gateEntry e i s) = rates s := by unfold gateEntry; dsimp only; split <;> simp
@[simp ↓] theorem rates_adminBase (e base cycle l s) : rates (adminBase e base cycle l s) = rates s := by simp [adminBase]

/-! #### Machine/Start -/

@[simp ↓] theorem rates_modIsland (i f s) : rates (modIsland i f s) = rates s := by simp [modIsland]
@[simp ↓] theorem rates_modFlash (i f s) : rates (modFlash i f s) = rates s := by simp [modFlash]
@[simp ↓] theorem rates_abortFlash (s) : rates (abortFlash s) = rates s := by unfold abortFlash; split <;> simp
@[simp ↓] theorem rates_resetHalves (s) : rates (resetHalves s) = rates s := by simp [resetHalves]
@[simp ↓] theorem rates_endJoin (s) : rates (endJoin s) = rates s := by simp [endJoin]
@[simp ↓] theorem rates_enterBoot (s) : rates (enterBoot s) = rates s := by simp [enterBoot]
@[simp ↓] theorem rates_assertPins (s) : rates (assertPins s) = rates s := by simp [assertPins]
@[simp ↓] theorem rates_stopStart (code s) : rates (stopStart code s) = rates s := by simp [stopStart]
@[simp ↓] theorem rates_bootDone (s) : rates (bootDone s) = rates s := by simp [bootDone]
@[simp ↓] theorem rates_restart (s) : rates (restart s) = rates s := by simp [restart]
@[simp ↓] theorem rates_fence (cause s) : rates (fence cause s) = rates s := by simp [fence]
@[simp ↓] theorem rates_wake (s) : rates (wake s) = rates s := by simp [wake]

/-! #### Machine/FabricOps -/

@[simp ↓] theorem rates_freeFiring (f s) : rates (freeFiring f s) = rates s := by simp [freeFiring]
@[simp ↓] theorem rates_abandonFiring (free m s) : rates (abandonFiring free m s) = rates s := by unfold abandonFiring; split <;> simp
@[simp ↓] theorem rates_voidFiring (free m cause part quad detail s) : rates (voidFiring free m cause part quad detail s) = rates s := by
  simp [voidFiring]

@[simp ↓] theorem rates_setStateTensor (id bs s) : rates (setStateTensor id bs s) = rates s := by simp [setStateTensor]
@[simp ↓] theorem rates_resetStateTensor (id s) : rates (resetStateTensor id s) = rates s := by simp [resetStateTensor]
@[simp ↓] theorem rates_resetEdge (e part quad s) : rates (resetEdge e part quad s) = rates s := by simp [resetEdge]
@[simp ↓] theorem rates_resetLostStates (old part s) : rates (resetLostStates old part s) = rates s := by simp [resetLostStates]
@[simp ↓] theorem rates_modScene (m f s) : rates (modScene m f s) = rates s := by simp [modScene]
@[simp ↓] theorem rates_loseScenes (old changed part s) : rates (loseScenes old changed part s) = rates s := by simp [loseScenes]
@[simp ↓] theorem rates_startDrains (old new s) : rates (startDrains old new s) = rates s := by simp [startDrains]

@[simp ↓] theorem rates_switchFit (new part s) : rates (switchFit new part s) = rates s := by
  unfold switchFit
  simp only [rates_startDrains, rates_update, rates_mapMittens]
  refine (rates_foldl _ (fun a m => ?_) _ _).trans ?_
  · split <;> simp
  · simp

/-! #### Machine/Time -/

@[simp ↓] theorem rates_judgeStep (s) : rates (judgeStep s) = rates s := by simp [judgeStep]
@[simp ↓] theorem rates_timeStepRequest (s) : rates (timeStepRequest s) = rates s := by simp [timeStepRequest]
@[simp ↓] theorem rates_stepEvents (die d s) : rates (stepEvents die d s) = rates s := by simp [stepEvents]
@[simp ↓] theorem rates_stepBlocks (die d s0 s) : rates (stepBlocks die d s0 s) = rates s := by simp [stepBlocks]
@[simp ↓] theorem rates_stepDie (die d s) : rates (stepDie die d s) = rates s := by simp [stepDie]
@[simp ↓] theorem rates_applyStep (d ok s) : rates (applyStep d ok s) = rates s := by simp [applyStep]
@[simp ↓] theorem rates_takeStep (ok s) : rates (takeStep ok s) = rates s := by simp [takeStep]
@[simp ↓] theorem rates_exchangeFail (s) : rates (exchangeFail s) = rates s := by simp [exchangeFail]
@[simp ↓] theorem rates_setAgent (n s) : rates (setAgent n s) = rates s := by simp [setAgent]
@[simp ↓] theorem rates_dropExchange (s) : rates (dropExchange s) = rates s := by simp [dropExchange]
@[simp ↓] theorem rates_timeAgentWrite (on s) : rates (timeAgentWrite on s) = rates s := by simp [timeAgentWrite]
@[simp ↓] theorem rates_gptpSync (e q two s) : rates (gptpSync e q two s) = rates s := by simp [gptpSync]
@[simp ↓] theorem rates_agentJudge (off s) : rates (agentJudge off s) = rates s := by unfold agentJudge; split <;> simp
@[simp ↓] theorem rates_pdelayReqSend (s) : rates (pdelayReqSend s) = rates s := by simp [pdelayReqSend]
@[simp ↓] theorem rates_pdelayReqRx (e q s) : rates (pdelayReqRx e q s) = rates s := by simp [pdelayReqRx]
@[simp ↓] theorem rates_pdelayRespRx (e q fu v s) : rates (pdelayRespRx e q fu v s) = rates s := by fun_cases pdelayRespRx <;> simp
@[simp ↓] theorem rates_announceRx (e ident prio s) : rates (announceRx e ident prio s) = rates s := by simp [announceRx]
@[simp ↓] theorem rates_syncTimeout (s) : rates (syncTimeout s) = rates s := by unfold syncTimeout; split <;> simp
@[simp ↓] theorem rates_ppsOutRise (s) : rates (ppsOutRise s) = rates s := by simp [ppsOutRise]
@[simp ↓] theorem rates_ppsOutFall (s) : rates (ppsOutFall s) = rates s := by simp [ppsOutFall]
@[simp ↓] theorem rates_txtsPop (e v s) : rates (txtsPop e v s) = rates s := by simp [txtsPop]
@[simp ↓] theorem rates_timeCfgBusy (s) : rates (timeCfgBusy s) = rates s := by simp [timeCfgBusy]
@[simp ↓] theorem rates_traceCopyGo (d v s) : rates (traceCopyGo d v s) = rates s := by simp [traceCopyGo]
@[simp ↓] theorem rates_traceCopyDone (d s) : rates (traceCopyDone d s) = rates s := by simp [traceCopyDone]

/-! #### Machine/HostPath -/

@[simp ↓] theorem rates_hostRx (e f s) : rates (hostRx e f s) = rates s := by simp [hostRx]

@[simp ↓] theorem rates_hostTx (e n s) : rates (hostTx e n s) = rates s := by
  induction n generalizing s with
  | zero => rfl
  | succ n ih => simp [hostTx, ih]

@[simp ↓] theorem rates_hostServe (e s) : rates (hostServe e s) = rates s := by simp [hostServe]
@[simp ↓] theorem rates_ethTxProduce (e prod s) : rates (ethTxProduce e prod s) = rates s := by simp [ethTxProduce]
@[simp ↓] theorem rates_modEvt (d f s) : rates (modEvt d f s) = rates s := by simp [modEvt]
@[simp ↓] theorem rates_fuseEvt (d kind g a b fseq st detail stream s) : rates (fuseEvt d kind g a b fseq st detail stream s) = rates s := by
  simp [fuseEvt]

/-! #### Machine/FuseOps -/

@[simp ↓] theorem rates_modSens (n f s) : rates (modSens n f s) = rates s := by simp [modSens]
@[simp ↓] theorem rates_modGroup (g f s) : rates (modGroup g f s) = rates s := by simp [modGroup]
@[simp ↓] theorem rates_offerSample (n p s) : rates (offerSample n p s) = rates s := by simp [offerSample]
@[simp ↓] theorem rates_lateGroup (n p gi s) : rates (lateGroup n p gi s) = rates s :=
  rates_foldl _ (fun a m => by dsimp only; split <;> simp) _ _

@[simp ↓] theorem rates_completeSample (n p payload s) : rates (completeSample n p payload s) = rates s := by simp [completeSample]
@[simp ↓] theorem rates_discardSample (n seq s) : rates (discardSample n seq s) = rates s := by simp [discardSample]
@[simp ↓] theorem rates_beginSample (n st s) : rates (beginSample n st s).2 = rates s := by unfold beginSample; split <;> simp

/-! #### Machine/Sense -/

@[simp ↓] theorem rates_modCsi (p f s) : rates (modCsi p f s) = rates s := by simp [modCsi]
@[simp ↓] theorem rates_csiStart (n s) : rates (csiStart n s) = rates s := by simp [csiStart]
@[simp ↓] theorem rates_csiLine (n dt px crcOk s) : rates (csiLine n dt px crcOk s) = rates s := by simp [csiLine]
@[simp ↓] theorem rates_csiEnd (n s) : rates (csiEnd n s) = rates s := by unfold csiEnd; split <;> simp

@[simp ↓] theorem rates_csiPacket (p k s) : rates (csiPacket p k s) = rates s := by
  unfold csiPacket
  repeat' split
  all_goals simp

@[simp ↓] theorem rates_csiPacketRx (p corrected k s) : rates (csiPacketRx p corrected k s) = rates s := by simp [csiPacketRx]
@[simp ↓] theorem rates_csiLinkLost (p s) : rates (csiLinkLost p s) = rates s := by simp [csiLinkLost]

@[simp ↓] theorem rates_flowSample (n st full s) : rates (flowSample n st full s) = rates s := by
  unfold flowSample
  dsimp only
  split
  all_goals
    next h => simpa using (congrArg (fun r => rates r.2) h).symm

@[simp ↓] theorem rates_ethFrameRx (e f s) : rates (ethFrameRx e f s) = rates s := by fun_cases ethFrameRx <;> simp
@[simp ↓] theorem rates_streamStall (n s) : rates (streamStall n s) = rates s := by simp [streamStall]
@[simp ↓] theorem rates_ethLinkDown (e s) : rates (ethLinkDown e s) = rates s := by simp [ethLinkDown]
@[simp ↓] theorem rates_ethLinkUp (e fast s) : rates (ethLinkUp e fast s) = rates s := by simp [ethLinkUp]

/-! #### Machine/Fuse -/

@[simp ↓] theorem rates_openSlot (g k t s) : rates (openSlot g k t s) = rates s := by simp [openSlot]

@[simp ↓] theorem rates_decideSlot (g fseq forced s) : rates (decideSlot g fseq forced s) = rates s := by
  unfold decideSlot
  dsimp only
  repeat' split
  all_goals simp

@[simp ↓] theorem rates_memberDecide (g fseq i s) : rates (memberDecide g fseq i s) = rates s := by
  unfold memberDecide
  repeat' split
  all_goals simp

@[simp ↓] theorem rates_slotWaitLimit (g fseq s) : rates (slotWaitLimit g fseq s) = rates s := by unfold slotWaitLimit; split <;> simp

@[simp ↓] theorem rates_slotOpen (g s) : rates (slotOpen g s) = rates s := by
  unfold slotOpen
  dsimp only
  repeat' split
  all_goals simp

@[simp ↓] theorem rates_projectionDone (g fseq s) : rates (projectionDone g fseq s) = rates s := by simp [projectionDone]
@[simp ↓] theorem rates_projectionRecompute (unit ok s) : rates (projectionRecompute unit ok s) = rates s := by simp [projectionRecompute]
@[simp ↓] theorem rates_penalize (g fseq i s) : rates (penalize g fseq i s) = rates s := by simp [penalize]
@[simp ↓] theorem rates_conflictPair (g kind fseq a b detail s) : rates (conflictPair g kind fseq a b detail s) = rates s := by
  simp [conflictPair]

@[simp ↓] theorem rates_blockMember (g i s) : rates (blockMember g i s) = rates s := by simp [blockMember]
@[simp ↓] theorem rates_judgeConflicts (g s) : rates (judgeConflicts g s) = rates s := by simp [judgeConflicts]
@[simp ↓] theorem rates_reportConflicts (g kind fseq cs s) : rates (reportConflicts g kind fseq cs s) = rates s := by simp [reportConflicts]

@[simp ↓] theorem rates_slotEmit (g fseq s) : rates (slotEmit g fseq s) = rates s := by
  unfold slotEmit
  dsimp only
  split
  · rfl
  · rw [rates_ite, rates_judgeConflicts]
    split
    · rfl
    · split
      · rw [rates_modGroup]
        exact rates_foldl _ (fun a e => by split <;> simp) _ _
      · rw [rates_ite, rates_openSlot, rates_modGroup, rates_modGroup, ite_self]
        exact rates_foldl _ (fun a e => by split <;> simp) _ _

@[simp ↓] theorem rates_conflictSummary (e s) : rates (conflictSummary e s) = rates s := by unfold conflictSummary; split <;> simp
@[simp ↓] theorem rates_emitTable (g deg s) : rates (emitTable g deg s) = rates s := by simp [emitTable]
@[simp ↓] theorem rates_processList (g fseq bs s) : rates (processList g fseq bs s) = rates s := by simp [processList]
@[simp ↓] theorem rates_detectionList (e s) : rates (detectionList e s) = rates s := by unfold detectionList; split <;> simp
@[simp ↓] theorem rates_groupMove (g s) : rates (groupMove g s) = rates s := by simp [groupMove]
@[simp ↓] theorem rates_unblockMember (g i s) : rates (unblockMember g i s) = rates s := by simp [unblockMember]

/-! #### Machine/Ddr -/

@[simp ↓] theorem rates_ringError (n seq s) : rates (ringError n seq s) = rates s := by simp [ringError]
@[simp ↓] theorem rates_losePage (mem slot s) : rates (losePage mem slot s) = rates s := by simp [losePage]
@[simp ↓] theorem rates_errorResponse (w line cause part s) : rates (errorResponse w line cause part s) = rates s := by
  unfold errorResponse; split <;> simp

@[simp ↓] theorem rates_refuse (a write w s) : rates (refuse a write w s) = rates s := by unfold refuse; split <;> simp
@[simp ↓] theorem rates_modWrites (ch f s) : rates (modWrites ch f s) = rates s := by simp [modWrites]
@[simp ↓] theorem rates_enterRead (ch line w secure s) : rates (enterRead ch line w secure s) = rates s := by
  unfold enterRead; split <;> simp

@[simp ↓] theorem rates_enterWrite (ch line bs w secure s) : rates (enterWrite ch line bs w secure s) = rates s := by simp [enterWrite]
@[simp ↓] theorem rates_ddrEnter (a write w secure s) : rates (ddrEnter a write w secure s) = rates s := by fun_cases ddrEnter <;> simp
@[simp ↓] theorem rates_issueWrite (ch b w s) : rates (issueWrite ch b w s) = rates s := by simp [issueWrite]
@[simp ↓] theorem rates_commandIssue (ch ready s) : rates (commandIssue ch ready s) = rates s := by fun_cases commandIssue <;> simp
@[simp ↓] theorem rates_ddrLog (ch line kind syms req errs s) : rates (ddrLog ch line kind syms req errs s) = rates s := by simp [ddrLog]
@[simp ↓] theorem rates_ddrRaise (ch off line errs s) : rates (ddrRaise ch off line errs s) = rates s := by simp [ddrRaise]
@[simp ↓] theorem rates_countCe (ch line req errs s) : rates (countCe ch line req errs s) = rates s := by simp [countCe]
@[simp ↓] theorem rates_xorLine (ch line mask s) : rates (xorLine ch line mask s) = rates s := by simp [xorLine]
@[simp ↓] theorem rates_countUe (ch s) : rates (countUe ch s) = rates s := by simp [countUe]
@[simp ↓] theorem rates_requeueWaiters (ch line s) : rates (requeueWaiters ch line s) = rates s := by unfold requeueWaiters; split <;> simp
@[simp ↓] theorem rates_decodeMerge (ch r errs s) : rates (decodeMerge ch r errs s) = rates s := by unfold decodeMerge; split <;> simp
@[simp ↓] theorem rates_decodeDemand (ch r errs s) : rates (decodeDemand ch r errs s) = rates s := by unfold decodeDemand; split <;> simp

@[simp ↓] theorem rates_readDecode (ch errs s) : rates (readDecode ch errs s) = rates s := by
  unfold readDecode
  dsimp only
  repeat' split
  all_goals simp

@[simp ↓] theorem rates_scrubNext (ch s) : rates (scrubNext ch s) = rates s := by simp [scrubNext]

@[simp ↓] theorem rates_scrubRead (ch errs s) : rates (scrubRead ch errs s) = rates s := by
  unfold scrubRead
  dsimp only
  repeat' split
  all_goals simp

@[simp ↓] theorem rates_caParity (ch back s) : rates (caParity ch back s) = rates s := by simp [caParity]
@[simp ↓] theorem rates_writeCrc (ch line s) : rates (writeCrc ch line s) = rates s := by unfold writeCrc; split <;> simp
@[simp ↓] theorem rates_controllerParity (ch s) : rates (controllerParity ch s) = rates s := by simp [controllerParity]
@[simp ↓] theorem rates_refreshDue (ch s) : rates (refreshDue ch s) = rates s := by simp [refreshDue]
@[simp ↓] theorem rates_refreshWatchdog (ch s) : rates (refreshWatchdog ch s) = rates s := by simp [refreshWatchdog]
@[simp ↓] theorem rates_tempRead (ch deg s) : rates (tempRead ch deg s) = rates s := by simp [tempRead]
@[simp ↓] theorem rates_zqcs (ch s) : rates (zqcs ch s) = rates s := by simp [zqcs]
@[simp ↓] theorem rates_powerDown (ch s) : rates (powerDown ch s) = rates s := by simp [powerDown]
@[simp ↓] theorem rates_selfRefresh (ch s) : rates (selfRefresh ch s) = rates s := by simp [selfRefresh]
@[simp ↓] theorem rates_trainingDone (ch ok seeds step device us s) : rates (trainingDone ch ok seeds step device us s) = rates s := by
  simp [trainingDone]

@[simp ↓] theorem rates_isolateChannel (ch s) : rates (isolateChannel ch s) = rates s := by simp [isolateChannel]

/-! #### Machine/Attach -/

@[simp ↓] theorem rates_failReads (p src flight s) : rates (failReads p src flight s) = rates s := by simp [failReads]
@[simp ↓] theorem rates_flushRecord (s) : rates (flushRecord s) = rates s := by simp [flushRecord]
@[simp ↓] theorem rates_linkUp (p s) : rates (linkUp p s) = rates s := by simp [linkUp]
@[simp ↓] theorem rates_goDown (p orderly flight s) : rates (goDown p orderly flight s) = rates s := by simp [goDown]
@[simp ↓] theorem rates_rewriteRing (st s) : rates (rewriteRing st s) = rates s := by simp [rewriteRing]
@[simp ↓] theorem rates_failover (p s) : rates (failover p s) = rates s := by simp [failover]
@[simp ↓] theorem rates_cmdRej (s) : rates (cmdRej s) = rates s := by simp [cmdRej]
@[simp ↓] theorem rates_unredirect (s) : rates (unredirect s) = rates s := by simp [unredirect]
@[simp ↓] theorem rates_perstAssert (p flight s) : rates (perstAssert p flight s) = rates s := by simp [perstAssert]
@[simp ↓] theorem rates_perstDeassert (p s) : rates (perstDeassert p s) = rates s := by simp [perstDeassert]
@[simp ↓] theorem rates_d3Entry (p flight s) : rates (d3Entry p flight s) = rates s := by simp [d3Entry]
@[simp ↓] theorem rates_d3Exit (p s) : rates (d3Exit p s) = rates s := by simp [d3Exit]
@[simp ↓] theorem rates_readCompletion (p who status s) : rates (readCompletion p who status s) = rates s := by simp [readCompletion]
@[simp ↓] theorem rates_completionTimeout (p who s) : rates (completionTimeout p who s) = rates s := by simp [completionTimeout]
@[simp ↓] theorem rates_msixUnmask (p v s) : rates (msixUnmask p v s) = rates s := by simp [msixUnmask]
@[simp ↓] theorem rates_lineWrite (a bs line s) : rates (lineWrite a bs line s) = rates s := by simp [lineWrite]
@[simp ↓] theorem rates_hostRead (p a len s) : rates (hostRead p a len s) = rates s := by unfold hostRead; dsimp only; split <;> simp
@[simp ↓] theorem rates_bar2Access (p off write len ok s) : rates (bar2Access p off write len ok s) = rates s := by
  fun_cases bar2Access <;> simp

@[simp ↓] theorem rates_quiesce (s) : rates (quiesce s) = rates s := by simp [quiesce]
@[simp ↓] theorem rates_quiesceLimit (s) : rates (quiesceLimit s) = rates s := by simp [quiesceLimit]
@[simp ↓] theorem rates_quiesceComplete (s) : rates (quiesceComplete s) = rates s := by simp [quiesceComplete]
@[simp ↓] theorem rates_resume (s) : rates (resume s) = rates s := by simp [resume]
@[simp ↓] theorem rates_join (s) : rates (join s) = rates s := by simp [join]
@[simp ↓] theorem rates_restartRequest (s) : rates (restartRequest s) = rates s := by simp [restartRequest]
@[simp ↓] theorem rates_attachRestart (key s) : rates (attachRestart key s) = rates s := by simp [attachRestart]

/-! #### Machine/Crown -/

@[simp ↓] theorem rates_modCrown (f s) : rates (modCrown f s) = rates s := by simp [modCrown]
@[simp ↓] theorem rates_crownLatch (idx s) : rates (crownLatch idx s) = rates s := by simp [crownLatch]
@[simp ↓] theorem rates_retainRequest (s) : rates (retainRequest s) = rates s := by simp [retainRequest]
@[simp ↓] theorem rates_pwrCtrlWrite (v s) : rates (pwrCtrlWrite v s) = rates s := by simp [pwrCtrlWrite]
@[simp ↓] theorem rates_dropLink (p s) : rates (dropLink p s) = rates s := by simp [dropLink]
@[simp ↓] theorem rates_lifeLogWrite (s) : rates (lifeLogWrite s) = rates s := by simp [lifeLogWrite]
@[simp ↓] theorem rates_retainEntered (s) : rates (retainEntered s) = rates s := by simp [retainEntered]
@[simp ↓] theorem rates_retainWakeStamp (s) : rates (retainWakeStamp s) = rates s := by simp [retainWakeStamp]
@[simp ↓] theorem rates_backstop (s) : rates (backstop s) = rates s := by simp [backstop]
@[simp ↓] theorem rates_powerSample (mw s) : rates (powerSample mw s) = rates s := by simp [powerSample]
@[simp ↓] theorem rates_throttleUpdate (above forecast s) : rates (throttleUpdate above forecast s) = rates s := by simp [throttleUpdate]
@[simp ↓] theorem rates_coolTrack (s) : rates (coolTrack s) = rates s := by simp [coolTrack]
@[simp ↓] theorem rates_coolCritical (s) : rates (coolCritical s) = rates s := by simp [coolCritical]
@[simp ↓] theorem rates_coolQuiesced (s) : rates (coolQuiesced s) = rates s := by simp [coolQuiesced]
@[simp ↓] theorem rates_coolExit (s) : rates (coolExit s) = rates s := by unfold coolExit; split <;> simp
@[simp ↓] theorem rates_readPair (x s) : rates (readPair x s) = rates s := by simp [readPair]

@[simp ↓] theorem rates_thermalRead (rs s) : rates (thermalRead rs s) = rates s := by
  unfold thermalRead
  dsimp only
  repeat' split
  all_goals simp

@[simp ↓] theorem rates_shadowTakeover (s) : rates (shadowTakeover s) = rates s := by simp [shadowTakeover]
@[simp ↓] theorem rates_trayRules (s) : rates (trayRules s) = rates s := by simp [trayRules]
@[simp ↓] theorem rates_trayRead (ack bs s) : rates (trayRead ack bs s) = rates s := by simp [trayRead]
@[simp ↓] theorem rates_trayWrite (ok s) : rates (trayWrite ok s) = rates s := by simp [trayWrite]
@[simp ↓] theorem rates_trayStale (s) : rates (trayStale s) = rates s := by simp [trayStale]
@[simp ↓] theorem rates_coolantLowClear (s) : rates (coolantLowClear s) = rates s := by unfold coolantLowClear; split <;> simp
@[simp ↓] theorem rates_lifeMinute (s) : rates (lifeMinute s) = rates s := by simp [lifeMinute]
@[simp ↓] theorem rates_ageingRead (k d s) : rates (ageingRead k d s) = rates s := by simp [ageingRead]
@[simp ↓] theorem rates_crownCfgBusy (s) : rates (crownCfgBusy s) = rates s := by simp [crownCfgBusy]
@[simp ↓] theorem rates_calWrite (v s) : rates (calWrite v s) = rates s := by simp [calWrite]
@[simp ↓] theorem rates_calDone (ok s) : rates (calDone ok s) = rates s := by simp [calDone]

/-! #### Machine/Seal -/

@[simp ↓] theorem rates_modStores (f s) : rates (modStores f s) = rates s := by simp [modStores]
@[simp ↓] theorem rates_commitStores (f s) : rates (commitStores f s) = rates s := by simp [commitStores]
@[simp ↓] theorem rates_takeCounter (n c s) : rates (takeCounter n c s) = rates s := by simp [takeCounter]

/-- A sealed command takes its counter and runs; it sets no correction when its body sets none. -/
@[simp ↓] theorem rates_sealedRun {f : List Byte → State → Answer} (hf : ∀ b z, rates (f b z).2.2 = rates z) (kind body m s) :
    rates (sealedRun kind body m s f).2.2.2 = rates s := by fun_cases sealedRun <;> simp [hf]

@[simp ↓] theorem rates_plainRun {f : List Byte → State → Answer} (hf : ∀ b z, rates (f b z).2.2 = rates z) (body m s) :
    rates (plainRun body m s f).2.2.2 = rates s := by fun_cases plainRun <;> simp [hf]

/-! #### Machine/Boot -/

theorem rates_of_mergeStores {s u : State} (h : mergeStores s = some u) : rates u = rates s := by
  unfold mergeStores at h
  simp only at h
  (repeat' split at h) <;> cases h <;> simp

@[simp ↓] theorem rates_bootRom (s) : rates (bootRom s) = rates s := by
  unfold bootRom
  split
  · rfl
  · cases h : mergeStores s with
    | none => simp
    | some u => simp [rates_of_mergeStores h]

@[simp ↓] theorem rates_applyOwner (n bs s) : rates (applyOwner n bs s) = rates s := by simp [applyOwner]
@[simp ↓] theorem rates_mgmtSend (i dst mtag bs s) : rates (mgmtSend i dst mtag bs s) = rates s := by simp [mgmtSend]
@[simp ↓] theorem rates_mgmtAnswer (i g r) : rates (mgmtAnswer i g r) = rates r.2.2.2 := by simp [mgmtAnswer]
@[simp ↓] theorem rates_mgmtComplete (i g s) : rates (mgmtComplete i g s) = rates s := by simp [mgmtComplete]
@[simp ↓] theorem rates_mgmtFragment (i src dst bytes s) : rates (mgmtFragment i src dst bytes s) = rates s := by
  fun_cases mgmtFragment <;> simp

@[simp ↓] theorem rates_mgmtTimeout (i s) : rates (mgmtTimeout i s) = rates s := by unfold mgmtTimeout; split <;> simp

@[simp ↓] theorem rates_mgmtDo {f : List Byte → State → Option Seal × Answer} (hf : ∀ m z, rates (f m z).2.2.2 = rates z)
    (i cmd s) : rates (mgmtDo i cmd s f) = rates s := by fun_cases mgmtDo <;> simp [hf]

@[simp ↓] theorem rates_mgmtIdentity (i s) : rates (mgmtIdentity i s) = rates s := by simp [mgmtIdentity]
@[simp ↓] theorem rates_mgmtAttest (i s) : rates (mgmtAttest i s) = rates s := by simp [mgmtAttest]
@[simp ↓] theorem rates_enroll (b s) : rates (enroll b s).2.2 = rates s := by unfold enroll; dsimp only; (repeat' split) <;> simp

@[simp ↓] theorem rates_mgmtEnroll (i s) : rates (mgmtEnroll i s) = rates s :=
  rates_mgmtDo (fun _ _ => by split <;> simp) i _ s

@[simp ↓] theorem rates_revoke (b s) : rates (revoke b s).2.2 = rates s := by unfold revoke; dsimp only; split <;> simp
@[simp ↓] theorem rates_mgmtRevoke (i s) : rates (mgmtRevoke i s) = rates s := by simp [mgmtRevoke]
@[simp ↓] theorem rates_setFloor (b s) : rates (setFloor b s).2.2 = rates s := by fun_cases setFloor <;> simp
@[simp ↓] theorem rates_mgmtSetFloor (i s) : rates (mgmtSetFloor i s) = rates s := by simp [mgmtSetFloor]
@[simp ↓] theorem rates_mgmtFlash (i cmd body s start) : rates (mgmtFlash i cmd body s start) = rates s := by
  fun_cases mgmtFlash <;> simp +zetaDelta

@[simp ↓] theorem rates_mgmtFirmware (i s) : rates (mgmtFirmware i s) = rates s := by simp [mgmtFirmware]
@[simp ↓] theorem rates_mgmtStore (i s) : rates (mgmtStore i s) = rates s := by simp [mgmtStore]
@[simp ↓] theorem rates_flashDone (ok s) : rates (flashDone ok s) = rates s := by unfold flashDone; split <;> simp

/-! #### Machine/Ledger -/

@[simp ↓] theorem rates_slotByte (port w slot o b s) : rates (slotByte port w slot o b s) = rates s := by simp [slotByte]
@[simp ↓] theorem rates_windowBytes (port off bs s) : rates (windowBytes port off bs s) = rates s := by
  fun_induction windowBytes <;> simp [*]

@[simp ↓] theorem rates_bar4Write (port off bytes ok s) : rates (bar4Write port off bytes ok s) = rates s := by simp [bar4Write]
@[simp ↓] theorem rates_releaseHeld (s) : rates (releaseHeld s) = rates s := by unfold releaseHeld; split <;> simp
@[simp ↓] theorem rates_judgeLanding (l s) : rates (judgeLanding l s) = rates s := by simp [judgeLanding]
@[simp ↓] theorem rates_ticketVerdict (home s) : rates (ticketVerdict home s) = rates s := by unfold ticketVerdict; split <;> simp
@[simp ↓] theorem rates_mirrorAck (st q s) : rates (mirrorAck st q s) = rates s := by unfold mirrorAck; split <;> simp
@[simp ↓] theorem rates_injectDesc (x tg d s) : rates (injectDesc x tg d s) = rates s := by unfold injectDesc; split <;> simp

@[simp ↓] theorem rates_ticketInject (st s) : rates (ticketInject st s) = rates s := by
  unfold ticketInject
  dsimp only
  repeat' split
  all_goals simp

@[simp ↓] theorem rates_deadlineDrop (st q s) : rates (deadlineDrop st q s) = rates s := by
  unfold deadlineDrop
  repeat' split
  all_goals simp

@[simp ↓] theorem rates_ticketEnded (st q s) : rates (ticketEnded st q s) = rates s := by unfold ticketEnded; split <;> simp
@[simp ↓] theorem rates_budgetOutcome (k s) : rates (budgetOutcome k s) = rates s := by unfold budgetOutcome; split <;> simp
@[simp ↓] theorem rates_outcomeDeliver (st s) : rates (outcomeDeliver st s) = rates s := by unfold outcomeDeliver; split <;> simp
@[simp ↓] theorem rates_outcomeIrqTimer (st s) : rates (outcomeIrqTimer st s) = rates s := by simp [outcomeIrqTimer]
@[simp ↓] theorem rates_consumeOutcomes (st n s) : rates (consumeOutcomes st n s) = rates s := by simp [consumeOutcomes]
@[simp ↓] theorem rates_consWrite (st v s) : rates (consWrite st v s) = rates s := by simp [consWrite]
@[simp ↓] theorem rates_takeBack (k s) : rates (takeBack k s) = rates s := by simp [takeBack]
@[simp ↓] theorem rates_ledgerTakeover (d s) : rates (ledgerTakeover d s) = rates s := by simp [ledgerTakeover]

/-! #### Machine/Plan -/

@[simp ↓] theorem rates_modPdie (d f s) : rates (modPdie d f s) = rates s := by simp [modPdie]
@[simp ↓] theorem rates_mapReqs (f s) : rates (mapReqs f s) = rates s := by simp [mapReqs]
@[simp ↓] theorem rates_markTags (deg stale tags s) : rates (markTags deg stale tags s) = rates s := by simp [markTags]
@[simp ↓] theorem rates_releaseToken (e s) : rates (releaseToken e s) = rates s := by simp [releaseToken]
@[simp ↓] theorem rates_planToken (g k s) : rates (planToken g k s) = rates s := by simp [planToken]
@[simp ↓] theorem rates_popUpdate (d e s) : rates (popUpdate d e s) = rates s := by simp [popUpdate]

@[simp ↓] theorem rates_mapBuilt (d used s) : rates (mapBuilt d used s) = rates s := by
  unfold mapBuilt
  repeat' split
  all_goals simp

@[simp ↓] theorem rates_mapCommit (d s) : rates (mapCommit d s) = rates s := by unfold mapCommit; dsimp only; split <;> simp
@[simp ↓] theorem rates_releaseEpochs (s) : rates (releaseEpochs s) = rates s := by simp [releaseEpochs]
@[simp ↓] theorem rates_keepLive (v d s) : rates (keepLive v d s) = rates s := by simp [keepLive]
@[simp ↓] theorem rates_setReq (i r s) : rates (setReq i r s) = rates s := by simp [setReq]

@[simp ↓] theorem rates_requestStart (s) : rates (requestStart s) = rates s := by
  unfold requestStart
  dsimp only
  repeat' split
  all_goals simp

@[simp ↓] theorem rates_countTests (slices js s) : rates (countTests slices js s) = rates s := by simp [countTests]
@[simp ↓] theorem rates_countHeap (slices h s) : rates (countHeap slices h s) = rates s := by unfold countHeap; split <;> simp
@[simp ↓] theorem rates_searchEnd (i s) : rates (searchEnd i s) = rates s := by unfold searchEnd; split <;> simp
@[simp ↓] theorem rates_endEarly (i done expansions ended s) : rates (endEarly i done expansions ended s) = rates s := by
  unfold endEarly; split <;> simp

@[simp ↓] theorem rates_planDeadline (i done expansions s) : rates (planDeadline i done expansions s) = rates s := by
  fun_cases planDeadline <;> simp

@[simp ↓] theorem rates_resultSend (ch s) : rates (resultSend ch s) = rates s := by
  unfold resultSend
  repeat' split
  all_goals simp

@[simp ↓] theorem rates_plannerTest (n ok s) : rates (plannerTest n ok s) = rates s := by simp [plannerTest]
@[simp ↓] theorem rates_reqLost (lost i s) : rates (reqLost lost i s) = rates s := by unfold reqLost; split <;> simp
@[simp ↓] theorem rates_slicesLost (lost s) : rates (slicesLost lost s) = rates s := by simp [slicesLost]
@[simp ↓] theorem rates_heapError (n s) : rates (heapError n s) = rates s := rates_foldl _ (fun a i => by dsimp only; split <;> simp) _ _
@[simp ↓] theorem rates_poisonMap (d tl bx bY s) : rates (poisonMap d tl bx bY s) = rates s := by simp [poisonMap]
@[simp ↓] theorem rates_planDieLost (d s) : rates (planDieLost d s) = rates s := by simp [planDieLost]
@[simp ↓] theorem rates_planEpoch0 (s) : rates (planEpoch0 s) = rates s := by simp [planEpoch0]

/-! #### Machine/Island -/

@[simp ↓] theorem rates_emptyWindows (i s) : rates (emptyWindows i s) = rates s := by simp [emptyWindows]
@[simp ↓] theorem rates_goSilent (i s) : rates (goSilent i s) = rates s := by simp [goSilent]
@[simp ↓] theorem rates_heartbeatCheck (i s) : rates (heartbeatCheck i s) = rates s := by simp [heartbeatCheck]
@[simp ↓] theorem rates_voterMismatch (i minority s) : rates (voterMismatch i minority s) = rates s := by
  unfold voterMismatch; split <;> simp

@[simp ↓] theorem rates_coreTestStart (i s) : rates (coreTestStart i s) = rates s := by simp [coreTestStart]

@[simp ↓] theorem rates_coreTestDone (i failed s) : rates (coreTestDone i failed s) = rates s := by
  unfold coreTestDone
  dsimp only
  repeat' split
  all_goals simp

@[simp ↓] theorem rates_voterInjection (i ok s) : rates (voterInjection i ok s) = rates s := by simp [voterInjection]
@[simp ↓] theorem rates_checkerInjection (i kind caught s) : rates (checkerInjection i kind caught s) = rates s := by
  simp [checkerInjection]

@[simp ↓] theorem rates_modCheck (c f s) : rates (modCheck c f s) = rates s := by simp [modCheck]
@[simp ↓] theorem rates_checkToken (e s) : rates (checkToken e s) = rates s := by fun_cases checkToken <;> simp
@[simp ↓] theorem rates_suspectTags (id tags s) : rates (suspectTags id tags s) = rates s := by simp [suspectTags]
@[simp ↓] theorem rates_isolateQuad (q src s) : rates (isolateQuad q src s) = rates s := by simp [isolateQuad]
@[simp ↓] theorem rates_requestWithdraw (q s) : rates (requestWithdraw q s) = rates s := by simp [requestWithdraw]

@[simp ↓] theorem rates_reachK (i c s) : rates (reachK i c s) = rates s := by
  unfold reachK
  dsimp only
  repeat' split
  all_goals simp

@[simp ↓] theorem rates_pushWindow (i c e s) : rates (pushWindow i c e s) = rates s := by simp [pushWindow]
@[simp ↓] theorem rates_freeFrame (c f s) : rates (freeFrame c f s) = rates s := by simp [freeFrame]
@[simp ↓] theorem rates_closeFrame (c f s) : rates (closeFrame c f s) = rates s := by simp [closeFrame]
@[simp ↓] theorem rates_applyVerdict (i c f v s) : rates (applyVerdict i c f v s) = rates s := by unfold applyVerdict; split <;> simp
@[simp ↓] theorem rates_checkVerdict (c s) : rates (checkVerdict c s) = rates s := by fun_cases checkVerdict <;> simp
@[simp ↓] theorem rates_verdictTimeout (c s) : rates (verdictTimeout c s) = rates s := by unfold verdictTimeout; split <;> simp
@[simp ↓] theorem rates_putMrt (bs i s) : rates (putMrt bs i s) = rates s := by simp [putMrt]
@[simp ↓] theorem rates_mrtToken (e s) : rates (mrtToken e s) = rates s := by unfold mrtToken; split <;> simp
@[simp ↓] theorem rates_mrtAged (i s) : rates (mrtAged i s) = rates s := by simp [mrtAged]
@[simp ↓] theorem rates_deadlineMiss (st q s) : rates (deadlineMiss st q s) = rates s := by unfold deadlineMiss; split <;> simp
@[simp ↓] theorem rates_modMbx (i f s) : rates (modMbx i f s) = rates s := by simp [modMbx]
@[simp ↓] theorem rates_mbxAnswer (i m r) : rates (mbxAnswer i m r) = rates r.2.2.2 := by simp [mbxAnswer]
@[simp ↓] theorem rates_mbxSend (i s) : rates (mbxSend i s) = rates s := by simp [mbxSend]

@[simp ↓] theorem rates_mbxDo {f : List Byte → State → Option Seal × Answer} (hf : ∀ m z, rates (f m z).2.2.2 = rates z)
    (i cmd s) : rates (mbxDo i cmd s f) = rates s := by simp [mbxDo, hf]

@[simp ↓] theorem rates_mbxSealed {f : List Byte → State → Answer} (hf : ∀ b z, rates (f b z).2.2 = rates z)
    (i cmd body s) : rates (mbxSealed i cmd body s f) = rates s := rates_mbxDo (fun m z => by split <;> simp [hf]) i cmd s

@[simp ↓] theorem rates_mbxStatus (i s) : rates (mbxStatus i s) = rates s := by simp [mbxStatus]
@[simp ↓] theorem rates_mbxMrtGet (i s) : rates (mbxMrtGet i s) = rates s :=
  rates_mbxDo (fun _ _ => rates_plainRun (fun _ _ => by split <;> rfl) _ _ _) i _ s

@[simp ↓] theorem rates_sealedTicket (i b s) : rates (sealedTicket i b s).2.2 = rates s := by
  unfold sealedTicket
  dsimp only
  repeat' split
  all_goals simp

@[simp ↓] theorem rates_mbxTicket (i s) : rates (mbxTicket i s) = rates s := by simp [mbxTicket]
@[simp ↓] theorem rates_outcomeGet (i b s) : rates (outcomeGet i b s).2.2 = rates s := by unfold outcomeGet; dsimp only; split <;> simp
@[simp ↓] theorem rates_mbxOutcomeGet (i s) : rates (mbxOutcomeGet i s) = rates s := by simp [mbxOutcomeGet]
@[simp ↓] theorem rates_loopMode (b s) : rates (loopMode b s).2.2 = rates s := by unfold loopMode; dsimp only; split <;> simp
@[simp ↓] theorem rates_mbxLoopMode (i s) : rates (mbxLoopMode i s) = rates s := by simp [mbxLoopMode]
@[simp ↓] theorem rates_mbxUnblock (i s) : rates (mbxUnblock i s) = rates s := rates_mbxSealed (fun _ _ => by split <;> simp) i _ _ s
@[simp ↓] theorem rates_checkClear (i b s) : rates (checkClear i b s).2.2 = rates s := by fun_cases checkClear <;> simp
@[simp ↓] theorem rates_mbxCheckClear (i s) : rates (mbxCheckClear i s) = rates s := by simp [mbxCheckClear]
@[simp ↓] theorem rates_patternAuth (b s) : rates (patternAuth b s).2.2 = rates s := by simp [patternAuth]
@[simp ↓] theorem rates_mbxPatternAuth (i s) : rates (mbxPatternAuth i s) = rates s := by simp [mbxPatternAuth]
@[simp ↓] theorem rates_authExpire (s) : rates (authExpire s) = rates s := by unfold authExpire; split <;> simp

/-! #### Machine/Install -/

@[simp ↓] theorem rates_installStreams (im s) : rates (installStreams im s) = rates s := by simp [installStreams]
@[simp ↓] theorem rates_installSensors (im s) : rates (installSensors im s) = rates s := by simp [installSensors]
@[simp ↓] theorem rates_installPlanner (im s) : rates (installPlanner im s) = rates s := by unfold installPlanner; split <;> simp
@[simp ↓] theorem rates_installLoops (im s) : rates (installLoops im s) = rates s := by simp [installLoops]
@[simp ↓] theorem rates_installChecks (im s) : rates (installChecks im s) = rates s := by simp [installChecks]
@[simp ↓] theorem rates_installScenes (im s) : rates (installScenes im s) = rates s := by simp [installScenes]
@[simp ↓] theorem rates_installEnvelope (im s) : rates (installEnvelope im s) = rates s := by simp [installEnvelope]
@[simp ↓] theorem rates_installGuards (im fit s) : rates (installGuards im fit s) = rates s := by simp [installGuards]
@[simp ↓] theorem rates_installFit (im fit s) : rates (installFit im fit s) = rates s := by simp [installFit]
@[simp ↓] theorem rates_installBlocks (im fit s) : rates (installBlocks im fit s) = rates s := by simp [installBlocks]
@[simp ↓] theorem rates_restartBlocks (s) : rates (restartBlocks s) = rates s := by simp [restartBlocks]

/-! #### Machine/Fire -/

@[simp ↓] theorem rates_takeFiring (m s) : rates (takeFiring m s) = rates s := by simp [takeFiring]
@[simp ↓] theorem rates_loseT3 (rs s) : rates (loseT3 rs s) = rates s := by simp [loseT3]

@[simp ↓] theorem rates_firingStart (m allow s) : rates (firingStart m allow s) = rates s := by
  unfold firingStart
  repeat' split
  all_goals simp

@[simp ↓] theorem rates_countEvents (gs es s) : rates (countEvents gs es s) = rates s := by simp [countEvents]
@[simp ↓] theorem rates_countTickets (tags sat nan failed s) : rates (countTickets tags sat nan failed s) = rates s := by
  simp [countTickets]

@[simp ↓] theorem rates_commitTensors (m v s) : rates (commitTensors m v s) = rates s :=
  rates_foldl _ (fun a o => by dsimp only; split <;> simp) _ _

@[simp ↓] theorem rates_commitOp (m s v) : rates (commitOp m s v) = rates s := by
  unfold commitOp
  repeat' split
  all_goals simp

@[simp ↓] theorem rates_firingComplete (m s) : rates (firingComplete m s) = rates s := by unfold firingComplete; split <;> simp
@[simp ↓] theorem rates_mittenWake (m s) : rates (mittenWake m s) = rates s := by simp [mittenWake]
@[simp ↓] theorem rates_gloveGate (g s) : rates (gloveGate g s) = rates s := by unfold gloveGate; split <;> simp
@[simp ↓] theorem rates_prefetchDone (n reader seq stalled s) : rates (prefetchDone n reader seq stalled s) = rates s := by
  unfold prefetchDone; split <;> simp

@[simp ↓] theorem rates_writeResult (st sub data s q) : rates (writeResult st sub data s q) = rates s := by
  unfold writeResult; dsimp only; split <;> simp

@[simp ↓] theorem rates_resultToken (g k s) : rates (resultToken g k s) = rates s := by unfold resultToken; split <;> simp
@[simp ↓] theorem rates_tokenArrive (e s) : rates (tokenArrive e s) = rates s := by fun_cases tokenArrive <;> simp
@[simp ↓] theorem rates_creditReturn (e s) : rates (creditReturn e s) = rates s := by simp [creditReturn]

/-! #### Machine/SeamOps -/

@[simp ↓] theorem rates_modPat (f s) : rates (modPat f s) = rates s := by simp [modPat]
@[simp ↓] theorem rates_modEngine (e f s) : rates (modEngine e f s) = rates s := by simp [modEngine]
@[simp ↓] theorem rates_dropPending (g s) : rates (dropPending g s) = rates s := by simp [dropPending]
@[simp ↓] theorem rates_applyField (key v s) : rates (applyField key v s) = rates s := by simp [applyField]

@[simp ↓] theorem rates_switchGroup (g s) : rates (switchGroup g s) = rates s := by
  unfold switchGroup
  rw [rates_dropPending]
  exact rates_foldl _ (fun a e => by split <;> simp) _ _

@[simp ↓] theorem rates_withdrawGroup (g detail s) : rates (withdrawGroup g detail s).1 = rates s := by
  unfold withdrawGroup
  dsimp only
  repeat' split
  all_goals simp

@[simp ↓] theorem rates_withdrawGroups (detail gs s) : rates (withdrawGroups detail gs s).1 = rates s := by
  induction gs generalizing s with
  | nil => rfl
  | cons g r ih => simp [withdrawGroups, ih]

@[simp ↓] theorem rates_drainDie (k s) : rates (drainDie k s) = rates s := by simp [drainDie]

/-! #### Machine/Load -/

@[simp ↓] theorem rates_dropAuth (id gen s) : rates (dropAuth id gen s) = rates s := by unfold dropAuth; split <;> simp
@[simp ↓] theorem rates_patCfgBusy (s) : rates (patCfgBusy s) = rates s := by simp [patCfgBusy]
@[simp ↓] theorem rates_loadCtrlFields (v s) : rates (loadCtrlFields v s) = rates s := by simp [loadCtrlFields]
@[simp ↓] theorem rates_startJob (v boot s) : rates (startJob v boot s) = rates s := by simp [startJob]
@[simp ↓] theorem rates_goWrite (v s) : rates (goWrite v s) = rates s := by simp [goWrite]
@[simp ↓] theorem rates_loadFullGo (v s) : rates (loadFullGo v s) = rates s := by simp [loadFullGo]
@[simp ↓] theorem rates_patchGo (v s) : rates (patchGo v s) = rates s := by simp [patchGo]
@[simp ↓] theorem rates_storeRead (s) : rates (storeRead s) = rates s := by unfold storeRead; split <;> simp

@[simp ↓] theorem rates_failJob (code bad s) : rates (failJob code bad s) = rates s := by
  unfold failJob
  repeat' split
  all_goals simp

@[simp ↓] theorem rates_verifyDone (s) : rates (verifyDone s) = rates s := by unfold verifyDone; split <;> simp
@[simp ↓] theorem rates_fitterSource (c s) : rates (fitterSource c s) = rates s := by simp [fitterSource]
@[simp ↓] theorem rates_fitDone (c0 f0 c1 f1 s) : rates (fitDone c0 f0 c1 f1 s) = rates s := by fun_cases fitDone <;> simp

@[simp ↓] theorem rates_loadComplete (s) : rates (loadComplete s) = rates s := by
  unfold loadComplete
  repeat' split
  all_goals simp

@[simp ↓] theorem rates_patchStaged (s) : rates (patchStaged s) = rates s := by fun_cases patchStaged <;> simp
@[simp ↓] theorem rates_patchSeam (s) : rates (patchSeam s) = rates s := by unfold patchSeam; split <;> simp
@[simp ↓] theorem rates_patchStream (p s) : rates (patchStream p s) = rates s := by simp [patchStream]
@[simp ↓] theorem rates_patchSense (im p s) : rates (patchSense im p s) = rates s := by simp [patchSense]
@[simp ↓] theorem rates_patchPlan (p s) : rates (patchPlan p s) = rates s := by unfold patchPlan; split <;> simp
@[simp ↓] theorem rates_patchLoops (im p s) : rates (patchLoops im p s) = rates s := rates_foldl _ (fun a t => by split <;> simp) _ _
@[simp ↓] theorem rates_patchChecks (im p s) : rates (patchChecks im p s) = rates s := by simp [patchChecks]
@[simp ↓] theorem rates_patchScenes (p s) : rates (patchScenes p s) = rates s := by simp [patchScenes]
@[simp ↓] theorem rates_patchEnvelope (p s) : rates (patchEnvelope p s) = rates s := by simp [patchEnvelope]
@[simp ↓] theorem rates_patchRefills (p s) : rates (patchRefills p s) = rates s := by simp [patchRefills]
@[simp ↓] theorem rates_patchSwitch (j s) : rates (patchSwitch j s) = rates s := by simp [patchSwitch]
@[simp ↓] theorem rates_refillDone (m s) : rates (refillDone m s) = rates s := by unfold refillDone; split <;> simp
@[simp ↓] theorem rates_reinstall (s) : rates (reinstall s) = rates s := by simp [reinstall]
@[simp ↓] theorem rates_retainExitDone (s) : rates (retainExitDone s) = rates s := by simp [retainExitDone]

/-! #### Machine/Replace -/

@[simp ↓] theorem rates_altComputeDone (bs s) : rates (altComputeDone bs s) = rates s := by simp [altComputeDone]
@[simp ↓] theorem rates_endReplace (src conf s) : rates (endReplace src conf s) = rates s := by simp [endReplace]

@[simp ↓] theorem rates_alternateSwitch (s) : rates (alternateSwitch s) = rates s := by
  unfold alternateSwitch
  repeat' split
  all_goals simp

@[simp ↓] theorem rates_dropShadows (gs s) : rates (dropShadows gs s) = rates s := by simp [dropShadows]

@[simp ↓] theorem rates_deviceRefitDone (c0 f0 c1 f1 s) : rates (deviceRefitDone c0 f0 c1 f1 s) = rates s := by
  unfold deviceRefitDone
  repeat' split
  all_goals simp

/-! #### Machine/SelfTest -/

@[simp ↓] theorem rates_modGlove (g f s) : rates (modGlove g f s) = rates s := by simp [modGlove]
@[simp ↓] theorem rates_defer (h s) : rates (defer h s) = rates s := by simp [defer]
@[simp ↓] theorem rates_testSlice (g s) : rates (testSlice g s) = rates s := by simp [testSlice]
@[simp ↓] theorem rates_sliceDone (g ok s) : rates (sliceDone g ok s) = rates s := by simp [sliceDone]
@[simp ↓] theorem rates_withdrawRequest (g s) : rates (withdrawRequest g s) = rates s := by simp [withdrawRequest]
@[simp ↓] theorem rates_testInterval (g s) : rates (testInterval g s) = rates s := by simp [testInterval]

@[simp ↓] theorem rates_moveFit (new s) : rates (moveFit new s) = rates s := by
  unfold moveFit
  simp only [rates_installGuards, rates_startDrains, rates_modPat, rates_update, rates_mapMittens]
  refine rates_foldl _ (fun a m => ?_) _ _
  split <;> simp

@[simp ↓] theorem rates_testSeamStep {done : State → State} (hd : ∀ z, rates (done z) = rates z) (q back new s) :
    rates (testSeamStep q back new done s) = rates s := by fun_cases testSeamStep <;> simp +zetaDelta [hd]

@[simp ↓] theorem rates_quadWithdraw (q s) : rates (quadWithdraw q s) = rates s := by unfold quadWithdraw; split <;> simp
@[simp ↓] theorem rates_quadReturn (q s) : rates (quadReturn q s) = rates s := by unfold quadReturn; split <;> simp

/-! #### Machine/Isolate -/

@[simp ↓] theorem rates_dropPackets (lost s) : rates (dropPackets lost s) = rates s := by simp [dropPackets]
@[simp ↓] theorem rates_noteLoss (part src used s) : rates (noteLoss part src used s) = rates s := by fun_cases noteLoss <;> simp
@[simp ↓] theorem rates_loseQuad (q src s) : rates (loseQuad q src s) = rates s := by simp [loseQuad]
@[simp ↓] theorem rates_loseStack (k src s) : rates (loseStack k src s) = rates s := by simp [loseStack]
@[simp ↓] theorem rates_dropSamples (lost s) : rates (dropSamples lost s) = rates s := by simp [dropSamples]
@[simp ↓] theorem rates_loseCsi (p s) : rates (loseCsi p s) = rates s := by simp [loseCsi]
@[simp ↓] theorem rates_loseEth (e s) : rates (loseEth e s) = rates s := by simp [loseEth]
@[simp ↓] theorem rates_failOnLoss (s) : rates (failOnLoss s) = rates s := by simp [failOnLoss]
@[simp ↓] theorem rates_loseDie (d s) : rates (loseDie d s) = rates s := by simp [loseDie]
@[simp ↓] theorem rates_loseEffects (part src s) : rates (loseEffects part src s) = rates s := by simp [loseEffects]
@[simp ↓] theorem rates_budgetConf (src s) : rates (budgetConf src s) = rates s := by unfold budgetConf; split <;> simp
@[simp ↓] theorem rates_completeFor (cmds s) : rates (completeFor cmds s) = rates s := rates_foldl _ (fun a c => by split <;> simp) _ _
@[simp ↓] theorem rates_cutOff (part src s) : rates (cutOff part src s) = rates s := by simp [cutOff]
@[simp ↓] theorem rates_isolationConfirm (part s) : rates (isolationConfirm part s) = rates s := by unfold isolationConfirm; split <;> simp
@[simp ↓] theorem rates_noteSafe (id cause st s) : rates (noteSafe id cause st s) = rates s := by simp [noteSafe]
@[simp ↓] theorem rates_peerRecord (c s) : rates (peerRecord c s) = rates s := by simp [peerRecord]
@[simp ↓] theorem rates_safeStart (cause s) : rates (safeStart cause s) = rates s := by simp [safeStart]
@[simp ↓] theorem rates_safeEnter (col s) : rates (safeEnter col s) = rates s := by unfold safeEnter; split <;> simp
@[simp ↓] theorem rates_thermalTrip (pair ring raw s) : rates (thermalTrip pair ring raw s) = rates s := by simp [thermalTrip]
@[simp ↓] theorem rates_bootPattern (s) : rates (bootPattern s) = rates s := by simp [bootPattern]

@[simp ↓] theorem rates_sweepDone (miss s) : rates (sweepDone miss s) = rates s := by
  unfold sweepDone
  repeat' split
  all_goals simp

@[simp ↓] theorem rates_sweepTimeout (s) : rates (sweepTimeout s) = rates s := by unfold sweepTimeout; split <;> simp
@[simp ↓] theorem rates_modBank (k f s) : rates (modBank k f s) = rates s := by simp [modBank]

@[simp ↓] theorem rates_losePageOf (cands s) : rates (losePageOf cands s) = rates s := by
  unfold losePageOf
  dsimp only
  repeat' split
  all_goals simp

@[simp ↓] theorem rates_storageError (k off detail s) : rates (storageError k off detail s) = rates s := by
  unfold storageError
  repeat' split
  all_goals simp

@[simp ↓] theorem rates_raiseEffect (c i detail s) : rates (raiseEffect c i detail s) = rates s := by simp [raiseEffect]
@[simp ↓] theorem rates_latchExt (c l s) : rates (latchExt c l s) = rates s := by fun_induction latchExt <;> simp [*]
@[simp ↓] theorem rates_faultRaise (c ext s) : rates (faultRaise c ext s) = rates s := by simp [faultRaise]

/-! #### Machine/Mesh -/

@[simp ↓] theorem rates_serve (q s) : rates (serve q s) = rates s := by simp [serve]

@[simp ↓] theorem rates_refusePacket (q p s) : rates (refusePacket q p s) = rates s := by
  unfold refusePacket
  dsimp only
  repeat' split
  all_goals simp

@[simp ↓] theorem rates_packetAt (pl input p s) : rates (packetAt pl input p s) = rates s := by
  unfold packetAt
  repeat' split
  all_goals simp

@[simp ↓] theorem rates_inject (pl p s) : rates (inject pl p s) = rates s := by fun_cases inject <;> simp
@[simp ↓] theorem rates_packetArrive (pl via header payload s) : rates (packetArrive pl via header payload s) = rates s := by
  fun_cases packetArrive <;> simp

@[simp ↓] theorem rates_routeSwap (k s) : rates (routeSwap k s) = rates s := by unfold routeSwap; split <;> simp
@[simp ↓] theorem rates_modLining (k b f s) : rates (modLining k b f s) = rates s := by simp [modLining]
@[simp ↓] theorem rates_liningScrub (k b err s) : rates (liningScrub k b err s) = rates s := by simp [liningScrub]
@[simp ↓] theorem rates_gloveNumClr (g v s) : rates (gloveNumClr g v s) = rates s := by simp [gloveNumClr]
@[simp ↓] theorem rates_palmClr (g v s) : rates (palmClr g v s) = rates s := by simp [palmClr]
@[simp ↓] theorem rates_liningClr (k b v s) : rates (liningClr k b v s) = rates s := by simp [liningClr]

/-! #### Machine/Partner -/

@[simp ↓] theorem rates_heartbeatSend (s) : rates (heartbeatSend s) = rates s := by simp [heartbeatSend]
@[simp ↓] theorem rates_heartbeatRx (bs s) : rates (heartbeatRx bs s) = rates s := by simp [heartbeatRx]
@[simp ↓] theorem rates_peerTimeout (s) : rates (peerTimeout s) = rates s := by simp [peerTimeout]
@[simp ↓] theorem rates_beaconSend (i s) : rates (beaconSend i s) = rates s := by simp [beaconSend]
@[simp ↓] theorem rates_leaseExpire (s) : rates (leaseExpire s) = rates s := by simp [leaseExpire]
@[simp ↓] theorem rates_leaseGrace (s) : rates (leaseGrace s) = rates s := by simp [leaseGrace]
@[simp ↓] theorem rates_renew (job epoch s) : rates (renew job epoch s) = rates s := by simp [renew]
@[simp ↓] theorem rates_lease (i dst bs s0) : rates (lease i dst bs s0) = rates s0 := by simp [lease]
@[simp ↓] theorem rates_fenceFrame (i dst bs s) : rates (fenceFrame i dst bs s) = rates s := by simp [fenceFrame]
@[simp ↓] theorem rates_restartFrame (i dst bs s) : rates (restartFrame i dst bs s) = rates s := by simp [restartFrame]
@[simp ↓] theorem rates_wakeFrame (i dst bs s) : rates (wakeFrame i dst bs s) = rates s := by simp [wakeFrame]

/-! #### Machine/Power -/

@[simp ↓] theorem rates_vinSeen (mv s) : rates (vinSeen mv s) = rates s := by simp [vinSeen]
@[simp ↓] theorem rates_inputQualified (mv s) : rates (inputQualified mv s) = rates s := by simp [inputQualified]

/-- A start gives no correction: both are as the loss of power left them. -/
@[simp ↓] theorem rates_coldStart (s) : rates (coldStart s) = rates s := by
  cases hold : oldJepoch s.power.jepochA s.power.jepochB with
  | none => simp [coldStart_none s hold, railsUp]
  | some j => simp [coldStart_some s hold, railsUp]

@[simp ↓] theorem rates_pgoodRelease (s) : rates (pgoodRelease s) = rates s := by simp [pgoodRelease]

@[simp ↓] theorem rates_inputWarn (mv s0) : rates (inputWarn mv s0) = rates s0 := by simp [inputWarn]
@[simp ↓] theorem rates_refclkLoss (half ppm s) : rates (refclkLoss half ppm s) = rates s := by simp [refclkLoss]
@[simp ↓] theorem rates_readBack (stays s) : rates (readBack stays s) = rates s := by simp [readBack]
@[simp ↓] theorem rates_biasLoss (mv s) : rates (biasLoss mv s) = rates s := by simp [biasLoss]

/-! #### Machine/Seam -/

@[simp ↓] theorem rates_seamArm (e v s) : rates (seamArm e v s) = rates s := by simp [seamArm]
@[simp ↓] theorem rates_seamCancel (e v s) : rates (seamCancel e v s) = rates s := by simp [seamCancel]
@[simp ↓] theorem rates_seamDiscard (e v s) : rates (seamDiscard e v s) = rates s := by simp [seamDiscard]
@[simp ↓] theorem rates_stageField (f s) : rates (stageField f s) = rates s := by unfold stageField; split <;> simp
@[simp ↓] theorem rates_strmCfgBits (off v staged armed s) : rates (strmCfgBits off v staged armed s) = rates s := by simp [strmCfgBits]
@[simp ↓] theorem rates_rwsWrite (off v s) : rates (rwsWrite off v s) = rates s := by unfold rwsWrite; split <;> simp
@[simp ↓] theorem rates_traceSwitch (e s) : rates (traceSwitch e s) = rates s := by simp [traceSwitch]
@[simp ↓] theorem rates_finishBlocks (e s) : rates (finishBlocks e s) = rates s := by simp [finishBlocks]
@[simp ↓] theorem rates_blockSeam (e g s) : rates (blockSeam e g s) = rates s := by simp [blockSeam]
@[simp ↓] theorem rates_drainGroups (gs s) : rates (drainGroups gs s) = rates s := by simp [drainGroups]
@[simp ↓] theorem rates_globalStamp (e s) : rates (globalStamp e s) = rates s := by simp [globalStamp]
@[simp ↓] theorem rates_noteWithdrawn (e n s) : rates (noteWithdrawn e n s) = rates s := by simp [noteWithdrawn]
@[simp ↓] theorem rates_seamExpire (e s) : rates (seamExpire e s) = rates s := by unfold seamExpire; split <;> simp

@[simp ↓] theorem rates_globalSwitch (e s) : rates (globalSwitch e s) = rates s := by
  unfold globalSwitch
  repeat' split
  all_goals simp

/-! #### Machine/Regs -/

@[simp ↓] theorem rates_noBusyBit (s) : rates (noBusyBit s) = rates s := by simp [noBusyBit]
@[simp ↓] theorem rates_strmCfgBusy (n s) : rates (strmCfgBusy n s) = rates s := by simp [strmCfgBusy]
@[simp ↓] theorem rates_modRing (e r f s) : rates (modRing e r f s) = rates s := by simp [modRing]
@[simp ↓] theorem rates_wideSet (w off v s) : rates (wideSet w off v s) = rates s := by unfold wideSet; split <;> simp
@[simp ↓] theorem rates_writeHalf (high off v w s) : rates (writeHalf high off v w s) = rates s := by simp [writeHalf]
@[simp ↓] theorem rates_writeMod (off v s) : rates (writeMod off v s) = rates s := by simp [writeMod]
@[simp ↓] theorem rates_writeCrown (off v s) : rates (writeCrown off v s) = rates s := by simp [writeCrown]
@[simp ↓] theorem rates_timeCfgWrite (v s) : rates (timeCfgWrite v s) = rates s := by simp [timeCfgWrite]
@[simp ↓] theorem rates_outCfgWrite (n off v s) : rates (outCfgWrite n off v s) = rates s := by simp [outCfgWrite]
@[simp ↓] theorem rates_writeLedger (off v s) : rates (writeLedger off v s) = rates s := by simp [writeLedger]
@[simp ↓] theorem rates_seamCtrlWrite (e v s) : rates (seamCtrlWrite e v s) = rates s := by simp [seamCtrlWrite]
@[simp ↓] theorem rates_writeEngine (e r off v s) : rates (writeEngine e r off v s) = rates s := by simp [writeEngine]
@[simp ↓] theorem rates_writePattern (off v s) : rates (writePattern off v s) = rates s := by simp [writePattern]
@[simp ↓] theorem rates_writeFault (off v s) : rates (writeFault off v s) = rates s := by simp [writeFault]
@[simp ↓] theorem rates_ddrCfgWrite (ch off v s) : rates (ddrCfgWrite ch off v s) = rates s := by simp [ddrCfgWrite]
@[simp ↓] theorem rates_writeDdr (off v s) : rates (writeDdr off v s) = rates s := by simp [writeDdr]
@[simp ↓] theorem rates_csiCtrlWrite (p off v s) : rates (csiCtrlWrite p off v s) = rates s := by simp [csiCtrlWrite]
@[simp ↓] theorem rates_writeCsi (off v s) : rates (writeCsi off v s) = rates s := by simp [writeCsi]
@[simp ↓] theorem rates_hrCfgWrite (e r v s) : rates (hrCfgWrite e r v s) = rates s := by simp [hrCfgWrite]
@[simp ↓] theorem rates_writeEthPort (e r off v s) : rates (writeEthPort e r off v s) = rates s := by simp [writeEthPort]
@[simp ↓] theorem rates_writeEth (off v s) : rates (writeEth off v s) = rates s := by unfold writeEth; split <;> simp
@[simp ↓] theorem rates_writeFuse (off v s) : rates (writeFuse off v s) = rates s := by fun_cases writeFuse <;> simp
@[simp ↓] theorem rates_writePlan (off v s) : rates (writePlan off v s) = rates s := by simp [writePlan]
@[simp ↓] theorem rates_loopModeWrite (n v s) : rates (loopModeWrite n v s) = rates s := by simp [loopModeWrite]
@[simp ↓] theorem rates_writeLoop (off v s) : rates (writeLoop off v s) = rates s := by simp [writeLoop]

@[simp ↓] theorem rates_ctrlBit {f : State → State} (hf : ∀ z, rates (f z) = rates z) (v i s) :
    rates (ctrlBit v i f s) = rates s := by simp [ctrlBit, hf]

@[simp ↓] theorem rates_attachCtrl (v s) : rates (attachCtrl v s) = rates s := by simp [attachCtrl]
@[simp ↓] theorem rates_writeAttach (off v s) : rates (writeAttach off v s) = rates s := by simp [writeAttach]
@[simp ↓] theorem rates_writeMsix (port off v s) : rates (writeMsix port off v s) = rates s := by simp [writeMsix]
@[simp ↓] theorem rates_writeGlove (off v s) : rates (writeGlove off v s) = rates s := by simp [writeGlove]
@[simp ↓] theorem rates_writeLining (off v s) : rates (writeLining off v s) = rates s := by simp [writeLining]

/-! #### Machine/Spot -/

@[simp ↓] theorem rates_spotDone (c items s) : rates (spotDone c items s) = rates s := by unfold spotDone; dsimp only; split <;> simp

/-! ### What sets a rate correction (R301, R302, R411) -/

/-- A value of RATE within 500 ppm (R301). -/
def RateInRange (r : Int) : Prop := -rateMax ≤ r ∧ r ≤ rateMax

/-- A trim within 200 ppm (R302). -/
def TrimInRange (r : Int) : Prop := -trimMax ≤ r ∧ r ≤ trimMax

/-- Each correction that is within its range in `p` is within it in `q`. -/
def InRangeKept (p q : Int × Int) : Prop := (RateInRange p.1 → RateInRange q.1) ∧ (TrimInRange p.2 → TrimInRange q.2)

theorem clampI_between {lo hi : Int} (h : lo ≤ hi) (x : Int) : lo ≤ clampI lo hi x ∧ clampI lo hi x ≤ hi := by
  unfold clampI
  split
  · exact ⟨Int.le_refl lo, h⟩
  · split
    · exact ⟨h, Int.le_refl hi⟩
    · omega

theorem rateInRange_clampI (r : Int) : RateInRange (clampI (-rateMax) rateMax r) := clampI_between (by decide) r
theorem trimInRange_clampI (r : Int) : TrimInRange (clampI (-trimMax) trimMax r) := clampI_between (by decide) r

@[simp] theorem inRangeKept_refl (p : Int × Int) : InRangeKept p p := ⟨id, id⟩

@[simp] theorem inRangeKept_ite (p q r : Int × Int) (c : Prop) [Decidable c] :
    InRangeKept p (if c then q else r) ↔ (c → InRangeKept p q) ∧ (¬c → InRangeKept p r) := by split <;> simp [*]

theorem rates_setRate (r : Int) (s : State) : rates (setRate r s) = (clampI (-rateMax) rateMax r, (rates s).2) := by
  unfold setRate
  rw [rates_traceEv, rates_traceEv]
  rfl

theorem rates_exchangeOk (trim : Int) (s : State) :
    rates (exchangeOk trim s) = ((rates s).1, clampI (-trimMax) trimMax trim) := by
  unfold exchangeOk
  extract_lets s0 k far valid s1
  have hs0 : rates s0 = rates s := by
    unfold s0
    split
    · rfl
    · exact rates_stepDie 1 _ s
  rw [rates_ite, rates_latchBoth, ite_self, ← hs0]
  rfl

/-- Full power loss takes both corrections to 0 (R8). -/
theorem rates_turnOff (s : State) : rates (turnOff s) = (0, 0) := by rw [turnOff, rates_settle]; rfl

theorem inRangeKept_turnOff (p : Int × Int) (s : State) : InRangeKept p (rates (turnOff s)) := by
  rw [rates_turnOff]
  exact ⟨fun _ => (by decide : -rateMax ≤ 0 ∧ 0 ≤ rateMax), fun _ => (by decide : -trimMax ≤ 0 ∧ 0 ≤ trimMax)⟩

/-- The calibration set gives both corrections anew, clamped (R411). -/
theorem inRangeKept_readCal (p : Int × Int) (s : State) : InRangeKept p (rates (readCal s)) := by
  unfold readCal
  extract_lets _ _ _ _ z rate trim z1
  have hrate : RateInRange (rates z1).1 := by
    rw [show rates z1 = _ from rates_setRate rate z]
    exact rateInRange_clampI rate
  clear_value z1
  exact ⟨fun _ => hrate, fun _ => trimInRange_clampI trim⟩

section Kept

variable {p : Int × Int} {s : State} (h : InRangeKept p (rates s))
include h

theorem inRangeKept_setRate (r : Int) : InRangeKept p (rates (setRate r s)) := by
  rw [rates_setRate]
  exact ⟨fun _ => rateInRange_clampI r, h.2⟩

theorem inRangeKept_exchangeOk (trim : Int) : InRangeKept p (rates (exchangeOk trim s)) := by
  rw [rates_exchangeOk]
  exact ⟨h.1, fun _ => trimInRange_clampI trim⟩

/-! #### The commands that do -/

theorem inRangeKept_rateWrite (v : Nat) : InRangeKept p (rates (rateWrite v s)) := by
  simp [rateWrite, inRangeKept_setRate, h]

theorem inRangeKept_alignmentExchange (ok : Bool) (trim : Int) : InRangeKept p (rates (alignmentExchange ok trim s)) := by
  simp [alignmentExchange, inRangeKept_exchangeOk, h]

theorem inRangeKept_agentSteer (gm loc : Int) : InRangeKept p (rates (agentSteer gm loc s)) := by
  simp [agentSteer, inRangeKept_setRate, h]

theorem inRangeKept_gptpFollowUp (e q origin : Nat) : InRangeKept p (rates (gptpFollowUp e q origin s)) := by
  unfold gptpFollowUp
  split
  · exact h
  · split
    · exact h
    · simp [inRangeKept_agentSteer, h]

theorem inRangeKept_ppsInEdge : InRangeKept p (rates (ppsInEdge s)) := by
  simp [ppsInEdge, inRangeKept_agentSteer, h]

theorem inRangeKept_firmwareSelect (repairOk : Bool) : InRangeKept p (rates (firmwareSelect repairOk s)) := by
  unfold firmwareSelect
  split
  · exact h
  · split
    · simpa using h
    · dsimp only
      rw [rates_ite, inRangeKept_ite, rates_ite, inRangeKept_ite, rates_settle]
      refine ⟨fun _ => by simpa using h, fun _ => ⟨fun _ => ?_, fun _ => inRangeKept_readCal _ _⟩⟩
      split <;> simpa using h

theorem inRangeKept_mateStage (stage : Nat) (coolant : Bool) : InRangeKept p (rates (mateStage stage coolant s)) := by
  simp [mateStage, inRangeKept_turnOff, h]

theorem inRangeKept_inputUnder (mv ns : Nat) : InRangeKept p (rates (inputUnder mv ns s)) := by
  simp [inputUnder, inRangeKept_turnOff, h]

theorem inRangeKept_inputOver (mv ns : Nat) : InRangeKept p (rates (inputOver mv ns s)) := by
  simp [inputOver, inRangeKept_turnOff, h]

theorem inRangeKept_pwrEnLow (ns : Nat) : InRangeKept p (rates (pwrEnLow ns s)) := by
  simp [pwrEnLow, inRangeKept_turnOff, h]

theorem inRangeKept_presenceLoss : InRangeKept p (rates (presenceLoss s)) := by
  simp [presenceLoss, inRangeKept_turnOff, h]

theorem inRangeKept_aonLost (half : Nat) : InRangeKept p (rates (aonLost half s)) := by
  simp [aonLost, inRangeKept_turnOff, h]

theorem inRangeKept_railOut (half rail : Nat) : InRangeKept p (rates (railOut half rail s)) := by
  simp [railOut, inRangeKept_aonLost, h]

theorem inRangeKept_writeTime (off v : Nat) : InRangeKept p (rates (writeTime off v s)) := by
  simp [writeTime, inRangeKept_rateWrite, h]

theorem inRangeKept_writeBlock (port off v : Nat) : InRangeKept p (rates (writeBlock port off v s)) := by
  simp [writeBlock, inRangeKept_writeTime, h]

theorem inRangeKept_write32 (port off v : Nat) : InRangeKept p (rates (write32 port off v s)) := by
  fun_cases write32 <;> simp [inRangeKept_writeBlock, h]

theorem inRangeKept_write64 (port off v : Nat) : InRangeKept p (rates (write64 port off v s)) := by
  fun_cases write64 <;> simp [inRangeKept_write32, h]

theorem inRangeKept_regWrite (port off size v : Nat) : InRangeKept p (rates (regWrite port off size v s)) := by
  simp [regWrite, inRangeKept_write32, inRangeKept_write64, h]

end Kept

/-! #### Every command -/

theorem rates_advanceTo (t : Nat) (s : State) : rates (advanceTo t s) = rates s := by simp [rates]

/-- RATE_WRITE and the register write of it, the exchange, the agent's measurements, the calibration at BOOT and the loss of
all power apart, a command leaves both corrections as they are. -/
theorem exec_inRangeKept {c : Instr} {s u : State} (hexec : exec c s = .next u) : InRangeKept (rates s) (rates u) := by
  have h : ∀ t, InRangeKept (rates s) (rates (advanceTo t s)) := fun t => by simp [rates_advanceTo]
  cases c <;> cases hexec
  case rateWrite => exact inRangeKept_rateWrite (h _) _
  case registerWrite => exact inRangeKept_regWrite (h _) _ _ _ _
  case alignmentExchange => exact inRangeKept_alignmentExchange (h _) _ _
  case gptpFollowUp => exact inRangeKept_gptpFollowUp (h _) _ _ _
  case ppsInEdge => exact inRangeKept_ppsInEdge (h _)
  case firmwareSelect => exact inRangeKept_firmwareSelect (h _) _
  case mateStage => exact inRangeKept_mateStage (h _) _ _
  case inputUndervoltageOff => exact inRangeKept_inputUnder (h _) _ _
  case inputOvervoltageOff => exact inRangeKept_inputOver (h _) _ _
  case pwrEnLowOff => exact inRangeKept_pwrEnLow (h _) _
  case presenceLossOff => exact inRangeKept_presenceLoss (h _)
  case railOutOfRegulation => exact inRangeKept_railOut (h _) _ _
  all_goals simp [h]

end Sys2Proof.Machine

namespace Sys2Proof

open Sys2Proof.Machine

/-- Settles O28: every write of a correction clamps it or takes it to 0, and nothing else touches one. -/
theorem rateAndTrimStayWithinTheirLimits : Obligations.RateAndTrimStayWithinTheirLimits :=
  ⟨fun _ _ _ hexec => exec_inRangeKept hexec, rfl, rfl⟩

end Sys2Proof

/-!
SUPPORT. The proofs of the statements about the safety islands: the voted core, the checks, and the self-test of gloves.
-/

namespace Sys2Proof.Machine

/-! ### One island and its peer (R320) -/

/-- Changing an island leaves its peer as it is. -/
theorem island_modIsland_peer {i : Nat} (hi : i < 2) (f : Island → Island) (s : State) :
    island (1 - i) (modIsland i f s) = island (1 - i) s := by
  obtain rfl | rfl : i = 0 ∨ i = 1 := by omega
  · rfl
  · rfl

/-- Changing an island changes the islands only. -/
theorem modIsland_only (i : Nat) (f : Island → Island) (s : State) : modIsland i f s = { s with isl := (modIsland i f s).isl } := by
  unfold modIsland; split <;> rfl

/-- Sources of one collector with different indices are different. -/
theorem isrc_ne {i a b : Nat} (h : a ≠ b) : isrc i a ≠ isrc i b := by unfold isrc; omega

/-- A latch of one source of a collector leaves its others as they are. -/
theorem fsrc_latch_isrc {i a b : Nat} (h : a ≠ b) (d : Nat) (s : State) : fsrc (isrc i a) (latch (isrc i b) d s) = fsrc (isrc i a) s :=
  fsrc_latch_ne d s (isrc_ne h)

theorem fsrc_latch_latched (id d : Nat) (s : State) : (fsrc id (latch id d s)).latched = true := by simp

theorem fsrc_latch_detail (id d : Nat) (s : State) : (fsrc id (latch id d s)).detail = d := by simp

/-! ### Silence (R324) -/

/-- What an island keeps when it goes SILENT. -/
def Island.silenced (x : Island) : Island := { x with vote := .silent, testing := false, due := none, asm := none, msg := none }

/-- Island `i` with record `x` has gone SILENT since `s`: its SAFE pin is low and its source latched, the peer is as it was, and
only the islands, the fault block and the module state may have changed. -/
def GoneSilent (i : Nat) (x : Island) (s u : State) : Prop :=
  island i u = x.silenced ∧ island (1 - i) u = island (1 - i) s ∧ (coll i u).pinLow = true ∧ (fsrc (isrc i 0x1AB) u).latched = true
    ∧ u = { s with isl := u.isl, fault := u.fault, power := u.power }

@[simp] theorem island_emptyWindows (j i : Nat) (s : State) : island j (emptyWindows i s) = island j s := rfl
@[simp] theorem fsrc_emptyWindows (j i : Nat) (s : State) : fsrc j (emptyWindows i s) = fsrc j s := rfl

theorem islandRuns_iff {i : Nat} {s : State} : islandRuns i s = true ↔ (island i s).vote ≠ .silent := by simp [islandRuns]

theorem islandVoted_iff {i : Nat} {s : State} : islandVoted i s = true ↔ (island i s).vote = .triple ∨ (island i s).vote = .pair := by
  unfold islandVoted; cases (island i s).vote <;> simp

theorem runs_of_voted {v : Vote} (h : v = .triple ∨ v = .pair) : v ≠ .silent := by
  rcases h with rfl | rfl <;> decide

/-- A silent island stays as it is. -/
theorem goSilent_silent {i : Nat} {s : State} (h : (island i s).vote = .silent) : goSilent i s = s := by
  simp [goSilent, islandRuns, h]

theorem goSilent_runs {i : Nat} {s : State} (h : (island i s).vote ≠ .silent) :
    goSilent i s = settle (latch (isrc i 0x1AB) 0
      (modColl i (fun c => { c with pinLow := true }) (modIsland i Island.silenced (emptyWindows i s)))) :=
  if_neg (by simp [islandRuns_iff.2 h])

/-- Going SILENT latches its own source only. -/
theorem fsrc_goSilent {i a : Nat} (h : a ≠ 0x1AB) (s : State) : fsrc (isrc i a) (goSilent i s) = fsrc (isrc i a) s := by
  by_cases hrun : (island i s).vote = .silent
  · rw [goSilent_silent hrun]
  · simp [goSilent_runs hrun, fsrc_latch_isrc h]

/-- An island that runs goes SILENT, whatever the command did to the sources and to the island's counts before. -/
theorem goSilent_gone {i : Nat} {x : Island} {s z : State} (hi : i < 2) (hrun : (island i z).vote ≠ .silent)
    (hown : (island i z).silenced = x.silenced) (hpeer : island (1 - i) z = island (1 - i) s)
    (honly : z = { s with isl := z.isl, fault := z.fault }) : GoneSilent i x s (goSilent i z) := by
  have honly' : goSilent i z = { z with isl := (goSilent i z).isl, fault := (goSilent i z).fault, power := (goSilent i z).power } := by
    obtain ⟨a, b, hsettle⟩ := settle_eq (latch (isrc i 0x1AB) 0
      (modColl i (fun c => { c with pinLow := true }) (modIsland i Island.silenced (emptyWindows i z))))
    rw [goSilent_runs hrun, hsettle]
    obtain rfl | rfl : i = 0 ∨ i = 1 := by omega
    · rfl
    · rfl
  refine ⟨?_, ?_, ?_, ?_, honly'.trans (by rw [honly])⟩
  · simp [goSilent_runs hrun, hown]
  · simp [goSilent_runs hrun, island_modIsland_peer hi, hpeer]
  · simp [goSilent_runs hrun]
  · simp [goSilent_runs hrun]

/-- A latch before an island goes SILENT. -/
theorem goSilent_latch {i : Nat} {s : State} (hi : i < 2) (hrun : (island i s).vote ≠ .silent) (id d : Nat) :
    GoneSilent i (island i s) s (goSilent i (latch id d s)) := goSilent_gone hi hrun rfl rfl rfl

/-! ### The heartbeat (R320) -/

theorem heartbeatCheck_stopped {i : Nat} {s : State} (h : (island i s).vote = .silent ∨ s.power.on = false) : heartbeatCheck i s = s :=
  if_pos (by simpa [islandRuns] using h)

section Heartbeat

variable {i : Nat} {s : State} (hrun : (island i s).vote ≠ .silent) (hon : s.power.on = true)
include hrun hon

theorem heartbeatCheck_runs : ¬ ((!islandRuns i s) = true ∨ (!s.power.on) = true) := by simp [islandRuns_iff.2 hrun, hon]

theorem heartbeatCheck_heard (hpeer : (island (1 - i) s).vote ≠ .silent) :
    heartbeatCheck i s = modIsland i (fun x => { x with peerLost := false, peerBeat := s.time.now }) s := by
  rw [heartbeatCheck, if_neg (heartbeatCheck_runs hrun hon), if_pos (islandRuns_iff.2 hpeer)]

theorem heartbeatCheck_unheard (hpeer : (island (1 - i) s).vote = .silent) :
    heartbeatCheck i s = if max (island i s).peerBeat s.sec.pgoodAt + 300000 ≤ s.time.now ∧ (island i s).peerLost = false then
      latch (isrc i 0x1A8) 0 (modIsland i (fun x => { x with peerLost := true }) s) else s := by
  have hsilent : ¬ islandRuns (1 - i) s = true := by simp [islandRuns, hpeer]
  rw [heartbeatCheck, if_neg (heartbeatCheck_runs hrun hon), if_neg hsilent]
  simp

end Heartbeat

/-! ### Mismatches, tests and monitors of the triplet (R322, R323, R345) -/

theorem voterMismatch_majority {i : Nat} {s : State} (hvote : (island i s).vote = .triple) (htest : (island i s).testing = false) (m : Nat) :
    voterMismatch i (some m) s
      = modIsland i (fun x => { x with due := some (x.due.getD (m, s.time.now)) }) (latch (isrc i 0x1A9) 0 s) := by
  simp [voterMismatch, hvote, htest]

theorem voterMismatch_fatal {i : Nat} {o : Option Nat} {s : State}
    (h : ((island i s).vote = .triple ∧ (o = none ∨ (island i s).testing = true)) ∨ (island i s).vote = .pair) :
    voterMismatch i o s = goSilent i (latch (isrc i 0x1A9) 0 s) := by
  rcases h with ⟨hvote, rfl | htest⟩ | hvote
  · simp [voterMismatch, hvote]
  · cases o <;> simp [voterMismatch, hvote, htest]
  · cases o <;> simp [voterMismatch, hvote]

theorem voterMismatch_unvoted {i : Nat} {s : State} (h : (island i s).vote = .silent ∨ (island i s).vote = .split) (o : Option Nat) :
    voterMismatch i o s = s := by
  rcases h with h | h <;> cases o <;> simp [voterMismatch, h]

/-- An island whose core test has ended, counted. -/
def Island.tested (x : Island) : Island := { x with testing := false, due := none, tests := satAdd 16 x.tests 1 }

theorem coreTestDone_idle {i : Nat} {s : State} (h : (island i s).testing = false) (o : Option Nat) : coreTestDone i o s = s := by
  simp [coreTestDone, h]

theorem coreTestDone_triple_passed {i : Nat} {s : State} (htest : (island i s).testing = true) (hvote : (island i s).vote = .triple) :
    coreTestDone i none s = modIsland i (fun y => { y with
      transient := if (island i s).due.isSome then satAdd 16 y.transient 1 else y.transient }) (modIsland i Island.tested s) := by
  simp only [coreTestDone, htest, hvote]; rfl

/-- The core of three that failed is retired (R322); a core that no mismatch pointed at is counted as unexplained. -/
theorem coreTestDone_triple_failed {i : Nat} {s : State} (htest : (island i s).testing = true) (hvote : (island i s).vote = .triple) (c : Nat) :
    ∃ f : Nat → Nat, coreTestDone i (some c) s = latch (isrc i 0x1AA) c
      (modIsland i (fun y => { y with vote := .pair, retired := retiredCode c, unexplained := f y.unexplained })
        (modIsland i Island.tested s)) := by
  simp only [coreTestDone, htest, hvote]
  cases (island i s).due with
  | none => exact ⟨id, rfl⟩
  | some d => exact ⟨fun n => if (d.1 != c) = true then n + 1 else n, rfl⟩

theorem coreTestDone_pair_passed {i : Nat} {s : State} (htest : (island i s).testing = true) (hvote : (island i s).vote = .pair) :
    coreTestDone i none s = modIsland i Island.tested s := by
  simp only [coreTestDone, htest, hvote]; rfl

theorem coreTestDone_pair_failed {i : Nat} {s : State} (htest : (island i s).testing = true) (hvote : (island i s).vote = .pair) (c : Nat) :
    coreTestDone i (some c) s = goSilent i (modIsland i Island.tested s) := by
  simp only [coreTestDone, htest, hvote]; rfl

theorem voterInjection_missed {i : Nat} {s : State} (h : islandVoted i s = true) : voterInjection i false s = goSilent i s := by
  simp [voterInjection, h]

theorem checkerInjection_missed {i : Nat} {s : State} (h : islandVoted i s = true) (k : Nat) :
    checkerInjection i k false s = goSilent i (latch (isrc i 0x1AD) k s) := by
  simp [checkerInjection, h]

end Sys2Proof.Machine

namespace Sys2Proof
open Sys2Proof.Machine

/-- Settles O51: every command of the voted core is either one change of the island, or ends in `goSilent`, which leaves the
peer as it is and latches no source but its own. -/
theorem islandCoresAreVotedTestedAndSilenced : Obligations.IslandCoresAreVotedTestedAndSilenced := by
  intro t i s0 hi s x peer only silenced
  have hbeat : Machine.exec (.islandHeartbeatCheck t i) s0 = .next (heartbeatCheck i s) := rfl
  have hmismatch : ∀ o, Machine.exec (.voterMismatch t i o) s0 = .next (voterMismatch i o s) := fun _ => rfl
  have hstart : Machine.exec (.coreTestStart t i) s0 = .next (coreTestStart i s) := rfl
  have hdone : ∀ o, Machine.exec (.coreTestDone t i o) s0 = .next (coreTestDone i o s) := fun _ => rfl
  have htrip : Machine.exec (.islandMonitorTrip t i) s0 = .next (goSilent i s) := rfl
  have hvoter : ∀ ok, Machine.exec (.voterInjection t i ok) s0 = .next (voterInjection i ok s) := fun _ => rfl
  have hchecker : ∀ k ok, Machine.exec (.checkerInjection t i k ok) s0 = .next (checkerInjection i k ok s) := fun _ _ => rfl
  clear_value s
  refine ⟨fun h => hbeat.trans (congrArg _ (heartbeatCheck_stopped h)), fun hrun hon => ⟨fun hpeer => ?_, fun hpeer hlost hlate => ?_,
    fun hpeer hsoon => ?_⟩, fun m hvote htest => ?_, fun o h => ?_, fun o h => (hmismatch o).trans (congrArg _ (voterMismatch_unvoted h o)),
    fun h => ?_, fun h => ?_, fun o h => (hdone o).trans (congrArg _ (coreTestDone_idle h o)), fun htest => ?_, fun hrun => ?_,
    fun h => htrip.trans (congrArg _ (goSilent_silent h)), fun hvoted => ?_, ?_, fun k => ?_⟩
  · exact ⟨_, hbeat.trans (congrArg _ (heartbeatCheck_heard hrun hon hpeer)), island_modIsland_same _ _ _,
      island_modIsland_peer hi _ _, modIsland_only _ _ _⟩
  · refine ⟨_, hbeat.trans (congrArg _ ((heartbeatCheck_unheard hrun hon hpeer).trans (if_pos ⟨hlate, hlost⟩))), ?_, ?_, ?_⟩
    · exact island_modIsland_same _ _ _
    · exact island_modIsland_peer hi _ _
    · exact fsrc_latch_latched _ _ _
  · refine hbeat.trans (congrArg _ ((heartbeatCheck_unheard hrun hon hpeer).trans (if_neg ?_)))
    rintro ⟨hlate, hnot⟩
    rcases hsoon with h | h
    · exact absurd h (ne_true_of_eq_false hnot)
    · exact absurd hlate (Nat.not_le.2 h)
  · refine ⟨_, (hmismatch _).trans (congrArg _ (voterMismatch_majority hvote htest m)), island_modIsland_same _ _ _,
      island_modIsland_peer hi _ _, ?_⟩
    rw [fsrc_modIsland]; exact fsrc_latch_latched _ _ _
  · have hrun : (island i s).vote ≠ .silent := runs_of_voted (h.imp_left And.left)
    refine ⟨_, (hmismatch o).trans (congrArg _ (voterMismatch_fatal h)), goSilent_latch hi hrun _ _, ?_⟩
    rw [fsrc_goSilent (by decide)]; exact fsrc_latch_latched _ _ _
  · exact ⟨_, hstart.trans (congrArg _ (if_pos h)), island_modIsland_same _ _ _, island_modIsland_peer hi _ _, modIsland_only _ _ _⟩
  · exact hstart.trans (congrArg _ (if_neg (ne_true_of_eq_false h)))
  · refine ⟨fun hvote => ?_, fun c hvote hc => ?_, fun hvote => ?_, fun c hvote => ?_⟩
    · refine ⟨_, (hdone none).trans (congrArg _ (coreTestDone_triple_passed htest hvote)), ?_, ?_, ?_⟩
      · exact (island_modIsland_peer hi _ _).trans (island_modIsland_peer hi _ _)
      · rw [modIsland_only i _ (modIsland i _ s), modIsland_only i Island.tested s]
      · rw [island_modIsland_same, island_modIsland_same]; rfl
    · obtain ⟨f, hfailed⟩ := coreTestDone_triple_failed htest hvote c
      have hown : island i (coreTestDone i (some c) s) = { x.tested with
          vote := .pair, retired := retiredCode c, unexplained := f x.tested.unexplained } := by
        rw [hfailed, island_latch, island_modIsland_same, island_modIsland_same]
      refine ⟨_, hdone _, ?_, by rw [hown], by rw [hown]; rfl, by rw [hown]; rfl, by rw [hown]; rfl, ?_, ?_⟩
      · rw [hfailed]; exact (island_modIsland_peer hi _ _).trans (island_modIsland_peer hi _ _)
      · rw [hfailed]; exact fsrc_latch_latched _ _ _
      · rw [hfailed]; exact fsrc_latch_detail _ _ _
    · exact ⟨_, (hdone none).trans (congrArg _ (coreTestDone_pair_passed htest hvote)), island_modIsland_peer hi _ _, modIsland_only _ _ _,
        island_modIsland_same _ _ _⟩
    · refine ⟨_, (hdone _).trans (congrArg _ (coreTestDone_pair_failed htest hvote c)), goSilent_gone hi ?_ ?_ (island_modIsland_peer hi _ _) ?_⟩
      · rw [island_modIsland_same]; exact runs_of_voted (.inr hvote)
      · rw [island_modIsland_same]; rfl
      · exact (modIsland_only _ _ _).trans (by rw [modIsland_fault])
  · exact ⟨_, htrip, goSilent_gone hi hrun rfl rfl rfl⟩
  · have hrun : (island i s).vote ≠ .silent := runs_of_voted (islandVoted_iff.1 hvoted)
    refine ⟨⟨_, (hvoter false).trans (congrArg _ (voterInjection_missed hvoted)), goSilent_gone hi hrun rfl rfl rfl⟩, fun k =>
      ⟨_, (hchecker k false).trans (congrArg _ (checkerInjection_missed hvoted k)), goSilent_latch hi hrun _ _, ?_, ?_⟩⟩
    · rw [fsrc_goSilent (by decide)]; exact fsrc_latch_latched _ _ _
    · rw [fsrc_goSilent (by decide)]; exact fsrc_latch_detail _ _ _
  · exact (hvoter true).trans (congrArg _ (if_pos (.inl rfl)))
  · exact (hchecker k true).trans (congrArg _ (if_pos (.inl rfl)))

end Sys2Proof

namespace Sys2Proof.Machine

/-! ### CHECK_TOKEN_RX (R112, R328) -/

/-- While a seam of the CHECK parameters is TAKING, a token that would open a frame stays in flight. -/
theorem checkToken_held {e c i : Nat} {g : GEdge} {k : Token} {s : State} (hg : gEdgeOf e s = some g) (hk : arriving e s = some k)
    (htap : g.dstKind = 6) (hc : checkOf g.dst s = some c) (hi : hostIsland (check c s).owner s = some i)
    (hempty : (check c s).frames = []) (hheld : heldGroup 0x060 s = true) : checkToken e s = s := by
  simp [checkToken, hg, hk, htap, hc, hi, hempty, addToken, hheld]

/-- Edge 3, from operator 1 to sub-port 0 of the tap of CHECK 11. -/
def tapEdge : GEdge :=
  { id := 3, src := 1, dst := 11, tensor := 1, srcKind := 0, srcPort := 0, dstKind := 6, dstPort := 0, depth := 2, init := 0
    consume := 1, produce := 1 }

/-- A pattern with that edge only. -/
def tapImage : Image :=
  { stitches := [⟨6, 1, 3, zeroBytes 8 ++ leBytes 4 1 ++ leBytes 4 11 ++ leBytes 4 1 ++ [0#8, 0#8, 6#8, 0#8, 2#8, 0#8, 1#8, 1#8]⟩] }

/-- A token is on its way to check 0, which has no frame, while the global seam of engine 0 over group 0x060 is TAKING. -/
def heldCheckState : State :=
  { State.reset with
    isl := { checks := [(0, { declared := true, id := 11 })] }
    pat := { image := some tapImage, e0 := { stamp := 1, st := 2, groups := [0x060] } }
    fab := { edges := [(3, { depth := 2, credits := 1, flight := [{}] })] } }

end Sys2Proof.Machine

namespace Sys2Proof
open Sys2Proof.Machine

/-- Refutes O52: a token that would open a frame while a seam of the CHECK parameters is TAKING waits on its edge, as R112 asks,
where the statement has every token for a hosted check taken. -/
theorem not_checksJudgeFramesAndTheMrtIsKept : ¬ Obligations.ChecksJudgeFramesAndTheMrtIsKept := by
  intro h
  obtain ⟨htokens, -⟩ := h
  have hg : gEdgeOf 3 (advanceTo 0 heldCheckState) = some tapEdge := by decide
  have hk : arriving 3 (advanceTo 0 heldCheckState) = some {} := rfl
  have hc : checkOf tapEdge.dst (advanceTo 0 heldCheckState) = some 0 := by decide
  have hi : hostIsland (check 0 (advanceTo 0 heldCheckState)).owner (advanceTo 0 heldCheckState) = some 0 := by decide
  have hheld : heldGroup 0x060 (advanceTo 0 heldCheckState) = true := by decide
  obtain ⟨-, htaken⟩ := htokens 0 3 0 0 tapEdge {} heldCheckState hg hk rfl hc
  obtain ⟨u, hexec, hedge, -⟩ := htaken hi
  have hu : u = checkToken 3 (advanceTo 0 heldCheckState) := (Host.Outcome.next.inj hexec).symm
  rw [hu, checkToken_held hg hk rfl hc hi rfl hheld] at hedge
  exact absurd (congrArg Edge.inUse hedge) (Nat.succ_ne_self _).symm

end Sys2Proof

namespace Sys2Proof.Machine

/-! ### Slices (R337, R343) -/

theorem testSlice_waits {g : Nat} {s : State}
    (h : testsRun (gloveHalf g) s = false ∨ serving s = false ∨ gloveIdle g s = false ∨ (glove g s).test = .selftest) :
    testSlice g s = s := if_pos (by simpa using h)

section Slice

variable {g : Nat} {s : State} (hrun : testsRun (gloveHalf g) s = true) (hserve : serving s = true) (hidle : gloveIdle g s = true)
  (hrest : (glove g s).test ≠ .selftest)
include hrun hserve hidle hrest

theorem testSlice_deferred (hsplit : bothSplit s = false) (hin : isWithdrawn (g / 4) s = false) (hsoon : reservedSoon g s = true) :
    testSlice g s = defer (gloveHalf g) s := by
  simp [testSlice, hrun, hserve, hidle, hrest, hsplit, hin, hsoon]

theorem testSlice_starts (h : bothSplit s = true ∨ isWithdrawn (g / 4) s = true ∨ reservedSoon g s = false) :
    testSlice g s = modGlove g (fun x => { x with test := .selftest }) s := by
  have hgo : ¬ ((!bothSplit s) = true ∧ (!isWithdrawn (g / 4) s) = true ∧ reservedSoon g s = true) := by
    rintro ⟨ha, hb, hc⟩
    rcases h with h | h | h
    · simp [h] at ha
    · simp [h] at hb
    · simp [h] at hc
  rw [testSlice, if_neg (by simp [hrun, hserve, hidle, hrest]), if_neg hgo]

end Slice

/-- A deferral is counted by the island that tests the half, and nothing else. -/
theorem defer_only (h : Nat) (s : State) : defer h s = { s with isl := (defer h s).isl } := modIsland_only _ _ _

theorem defer_counted (h : Nat) (s : State) :
    (island (testIsland h s) (defer h s)).deferred = satAdd 16 (island (testIsland h s) s).deferred 1 := by
  rw [defer, island_modIsland_same]

theorem defer_withdrawReq (h : Nat) (s : State) : (defer h s).isl.withdrawReq = s.isl.withdrawReq := by
  unfold defer modIsland; split <;> rfl

theorem sliceDone_outside {g : Nat} {s : State} (h : (glove g s).test ≠ .selftest) (ok : Bool) : sliceDone g ok s = s := if_pos h

section Ended

variable {g : Nat} {s : State} (htest : (glove g s).test = .selftest)
include htest

theorem sliceDone_passed (h : (glove g s).slices < 11) : sliceDone g true s
    = modGlove g (fun x => { x with test := restTest (g / 4) s, slices := x.slices + 1 }) s := by
  simp [sliceDone, htest, h]

theorem sliceDone_full (h : 11 ≤ (glove g s).slices) : sliceDone g true s
    = modGlove g (fun x => { x with
        test := restTest (g / 4) s, slices := 0, overdue := false, passAt := s.time.now
        lastPass := shortStamp (liveDie (gloveHalf g) s) s }) s := by
  simp [sliceDone, htest, Nat.not_lt.2 h]

theorem sliceDone_failed : sliceDone g false s = isolateQuad (g / 4) (some (srcQuad (g / 4)))
    (latch (srcQuad (g / 4)) 0 (modGlove g (fun x => { x with test := restTest (g / 4) s, slices := 0 }) s)) := by
  simp [sliceDone, htest]

end Ended

/-- The isolation of a quad in service is commanded; that of one isolated already is not (R343). -/
theorem isolateQuad_available {q : Nat} {s : State} (hq : q < 336) (h : quadAvail q s = true) (src : Option Nat) :
    (isolateQuad q src s).fault.isoPend = s.fault.isoPend ++ [⟨quadPart q, src, 3, s.time.now⟩] := by
  rw [isolateQuad, if_pos ⟨hq, h⟩]

theorem isolateQuad_isolated {q : Nat} {s : State} (h : quadAvail q s = false) (src : Option Nat) :
    (isolateQuad q src s).fault.isoPend = s.fault.isoPend := by
  rw [isolateQuad, if_neg (by simp [h])]

@[simp] theorem glove_isolateQuad (j q : Nat) (src : Option Nat) (s : State) : glove j (isolateQuad q src s) = glove j s := by
  unfold isolateQuad; split <;> rfl

@[simp] theorem fsrc_isolateQuad (j q : Nat) (src : Option Nat) (s : State) : fsrc j (isolateQuad q src s) = fsrc j s := by
  unfold isolateQuad; split <;> rfl

/-! ### The 55 s and the 60 s of a glove (R338) -/

theorem withdrawRequest_early {g : Nat} {s : State}
    (h : testsRun (gloveHalf g) s = false ∨ quadAvail (g / 4) s = false ∨ sincePass g s < 55000000000) : withdrawRequest g s = s :=
  if_pos (.inr (by simpa using h))

theorem withdrawRequest_due {g : Nat} {s : State} (hg : g < 1344) (hrun : testsRun (gloveHalf g) s = true)
    (havail : quadAvail (g / 4) s = true) (hlate : 55000000000 ≤ sincePass g s) :
    withdrawRequest g s = if hasAlternate (g / 4) s = true then requestWithdraw (g / 4) s else defer (gloveHalf g) s := by
  rw [withdrawRequest, if_neg]
  simp only [hrun, havail, Bool.not_true, Bool.false_eq_true, false_or]
  omega

/-- A request stands, or the quad is already withdrawn; nothing but the requests changes. -/
theorem requestWithdraw_stands (q : Nat) (s : State) :
    ((requestWithdraw q s).isl.withdrawReq.any (fun r => r.1 == q) = true ∨ isWithdrawn q (requestWithdraw q s) = true)
      ∧ requestWithdraw q s = { s with isl := { s.isl with withdrawReq := (requestWithdraw q s).isl.withdrawReq } } := by
  unfold requestWithdraw
  split
  · next h => exact ⟨h, rfl⟩
  · exact ⟨.inl (by simp), rfl⟩

theorem testInterval_reports {g : Nat} {s : State} (hg : g < 1344) (hover : gloveOverdue g s = true) (hfirst : (glove g s).overdue = false)
    (halt : hasAlternate (g / 4) s = false) (hrun : testsRun (gloveHalf g) s = true) :
    testInterval g s = latch (isrc (testIsland (gloveHalf g) s) 0x1AF) g (modGlove g (fun x => { x with overdue := true }) s) := by
  simp [testInterval, hg, hover, hfirst, halt, hrun]

theorem testInterval_unreported {g : Nat} {s : State}
    (h : gloveOverdue g s = false ∨ (glove g s).overdue = true ∨ hasAlternate (g / 4) s = true) : testInterval g s = s := by
  refine if_neg ?_
  rintro ⟨-, hover, hfirst, halt, -⟩
  rcases h with h | h | h
  · simp [h] at hover
  · simp [h] at hfirst
  · simp [h] at halt

/-! ### The gloves of a quad -/

/-- Changing the gloves of a quad changes each of them once, and no other. -/
theorem glove_quadGloves (q j : Nat) (f : Glove → Glove) (s : State) :
    glove j ((quadGloves q).foldl (fun a g => modGlove g f a) s) = if j / 4 = q then f (glove j s) else glove j s := by
  have hq : quadGloves q = [q * 4 + 0, q * 4 + 1, q * 4 + 2, q * 4 + 3] := rfl
  simp only [hq, List.foldl_cons, List.foldl_nil, glove_modGlove]
  by_cases h : j / 4 = q
  · rw [if_pos h]
    obtain rfl | rfl | rfl | rfl : j = q * 4 + 0 ∨ j = q * 4 + 1 ∨ j = q * 4 + 2 ∨ j = q * 4 + 3 := by omega
    all_goals simp
  · rw [if_neg h, if_neg (by omega), if_neg (by omega), if_neg (by omega), if_neg (by omega)]

theorem mem_quadGloves {q j : Nat} : j ∈ quadGloves q ↔ j / 4 = q := by
  simp only [quadGloves, List.mem_map, List.mem_range]
  exact ⟨by rintro ⟨k, hk, rfl⟩; omega, fun h => ⟨j % 4, by omega, by omega⟩⟩

/-- Changing the gloves of a quad changes the gloves only. -/
theorem foldl_modGlove_eq (l : List Nat) (f : Glove → Glove) (s : State) :
    ∃ gs, l.foldl (fun a g => modGlove g f a) s = { s with fab := { s.fab with gloves := gs } } :=
  List.foldlRecOn (motive := fun u : State => ∃ gs, u = { s with fab := { s.fab with gloves := gs } }) _ _ ⟨s.fab.gloves, rfl⟩
    (fun u hu g _ => by obtain ⟨gs, rfl⟩ := hu; exact ⟨_, rfl⟩)

/-! ### The move to another placement (R107, R338) -/

/-- The move changes the mittens, the drains, the descriptors and the guards of the placement; of the PATTERN block it sets the
placement in force and counts the switch. -/
theorem moveFit_eq (new : List Stitch) (s : State) : ∃ ms ds x, moveFit new s = { s with
    fab := { s.fab with mittens := ms, draining := ds, dma := fitDma new }
    sec := x
    pat := { s.pat with fit := new, switches := satAdd 16 s.pat.switches 1, testSeam := none, seamEnd := s.time.now } } := by
  generalize hu : moveFit new s = u
  unfold moveFit at hu
  extract_lets old s1 s2 at hu
  have hfold : ∃ ms, s1 = { s with fab := { s.fab with mittens := ms } } :=
    List.foldlRecOn (motive := fun v : State => ∃ ms, v = { s with fab := { s.fab with mittens := ms } }) _ _ ⟨s.fab.mittens, rfl⟩
      (fun v hv m _ => by
        obtain ⟨ms, rfl⟩ := hv
        split
        · exact ⟨_, rfl⟩
        · exact ⟨_, rfl⟩)
  obtain ⟨ms, hms⟩ := hfold
  clear_value s1
  subst hms hu
  exact ⟨_, _, _, rfl⟩

theorem groupWorks_mitten (m : Nat) (s : State) : groupWorks (0x400 + m) s = (mitten (leadOf m s) s).firing.isSome := by
  simp [groupWorks]

/-- Some mitten that a switch to `new` changes works, itself or its lead part (R54). -/
def ChangedWork (new : List Stitch) (s : State) : Prop := ∃ m ∈ changedMittens s.pat.fit new, (mitten (leadOf m s) s).firing.isSome = true

theorem changedWork_iff {new : List Stitch} {s : State} :
    ((changedMittens s.pat.fit new).map (0x400 + ·)).any (fun g => groupWorks g s) = true ↔ ChangedWork new s := by
  simp only [List.any_map, List.any_eq_true, Function.comp, groupWorks_mitten, ChangedWork]

theorem not_changedWork {new : List Stitch} {s : State} :
    ¬ ChangedWork new s ↔ ∀ m ∈ changedMittens s.pat.fit new, (mitten (leadOf m s) s).firing = none := by
  simp [ChangedWork]

theorem testSeam_of_free {s : State} (h : anyTaking s = false) : s.pat.testSeam = none := by
  simp only [anyTaking, Bool.or_eq_false_iff] at h
  simpa using h.1.2

section Seam

variable {s : State} (hfree : anyTaking s = false) (hrefit : s.pat.refitAt = none)
include hfree hrefit

/-- With no other seam TAKING, the seam of a withdrawal or return switches at once when none of its mittens works. -/
theorem testSeamStep_switches {new : List Stitch} (hidle : ¬ ChangedWork new s) (q : Nat) (back : Bool) (done : State → State) :
    testSeamStep q back new done s = done (moveFit new s) := by
  simp only [testSeamStep, testSeam_of_free hfree]
  rw [if_neg (by simp [hfree, hrefit]), if_neg (mt changedWork_iff.1 hidle)]

/-- It holds them otherwise. -/
theorem testSeamStep_holds {new : List Stitch} (hwork : ChangedWork new s) (q : Nat) (back : Bool) (done : State → State) :
    testSeamStep q back new done s
      = modPat (fun p => { p with testSeam := some (q, back, (changedMittens s.pat.fit new).map (0x400 + ·), s.time.now) }) s := by
  simp only [testSeamStep, testSeam_of_free hfree]
  rw [if_neg (by simp [hfree, hrefit]), if_pos (changedWork_iff.2 hwork)]

end Seam

/-! ### Withdrawal and return of a quad (R338) -/

/-- What the switch of a withdrawal adds: island `i` counts the quad as withdrawn at `at_`. -/
def withdrawQuad (q i at_ : Nat) (s : State) : State :=
  let s1 := (quadGloves q).foldl (fun a g => modGlove g (fun x => { x with test := .withdrawn, slices := 0 }) a)
    (modPat (fun p => { p with altKind := 1, altIndex := q, testAlt := true }) s)
  modIsland i (fun x => { x with withdrawn := satAdd 8 x.withdrawn 1 }) { s1 with isl := { s1.isl with
    withdrawReq := s1.isl.withdrawReq.filter (fun r => r.1 != q)
    withdrawnQuads := s1.isl.withdrawnQuads ++ [(q, at_)] } }

/-- What the switch of a return adds. -/
def returnQuad (q : Nat) (s : State) : State :=
  let s1 := (quadGloves q).foldl (fun a g => modGlove g (fun x => { x with test := .none }) a)
    (modPat (fun p => { p with altKind := 0, altIndex := 0, testAlt := false }) s)
  { s1 with isl := { s1.isl with withdrawnQuads := s1.isl.withdrawnQuads.filter (fun w => w.1 != q) } }

theorem withdrawQuad_spec (q i at_ : Nat) (s : State) :
    (withdrawQuad q i at_ s).pat = { s.pat with altKind := 1, altIndex := q, testAlt := true }
      ∧ (withdrawQuad q i at_ s).isl.withdrawReq = s.isl.withdrawReq.filter (fun r => r.1 != q)
      ∧ isWithdrawn q (withdrawQuad q i at_ s) = true
      ∧ ∀ j, glove j (withdrawQuad q i at_ s) = if j / 4 = q then { glove j s with test := .withdrawn, slices := 0 } else glove j s := by
  have hglove := fun j => glove_quadGloves q j (fun x => { x with test := .withdrawn, slices := 0 })
    (modPat (fun p => { p with altKind := 1, altIndex := q, testAlt := true }) s)
  obtain ⟨gs, hgs⟩ := foldl_modGlove_eq (quadGloves q) (fun x => { x with test := .withdrawn, slices := 0 })
    (modPat (fun p => { p with altKind := 1, altIndex := q, testAlt := true }) s)
  unfold withdrawQuad
  rw [hgs] at hglove ⊢
  refine ⟨?_, ?_, ?_, fun j => ?_⟩
  · simp
  · unfold modIsland; split <;> rfl
  · unfold modIsland isWithdrawn; split <;> simp
  · rw [glove_modIsland]; exact hglove j

theorem returnQuad_spec (q : Nat) (s : State) :
    (returnQuad q s).pat = { s.pat with altKind := 0, altIndex := 0, testAlt := false } ∧ isWithdrawn q (returnQuad q s) = false
      ∧ ∀ j, glove j (returnQuad q s) = if j / 4 = q then { glove j s with test := .none } else glove j s := by
  have hglove := fun j => glove_quadGloves q j (fun x => { x with test := .none })
    (modPat (fun p => { p with altKind := 0, altIndex := 0, testAlt := false }) s)
  obtain ⟨gs, hgs⟩ := foldl_modGlove_eq (quadGloves q) (fun x => { x with test := .none })
    (modPat (fun p => { p with altKind := 0, altIndex := 0, testAlt := false }) s)
  unfold returnQuad
  rw [hgs] at hglove ⊢
  exact ⟨rfl, by simp [isWithdrawn], hglove⟩

theorem quadWithdraw_none {q : Nat} {s : State}
    (h : s.isl.withdrawReq.find? (fun r => r.1 == q) = none ∨ matchingAlt (quadPart q) s = none) : quadWithdraw q s = s := by
  unfold quadWithdraw
  rcases h with h | h
  · simp only [h]
  · rw [h]; cases s.isl.withdrawReq.find? (fun r => r.1 == q) <;> rfl

section Withdrawal

variable {q : Nat} {s : State} {r : Nat × Nat} {a : Nat} {f : Nat × List Stitch}
  (hreq : s.isl.withdrawReq.find? (fun y => y.1 == q) = some r) (halt : matchingAlt (quadPart q) s = some (a, f))
include hreq halt

theorem quadWithdraw_early (h : s.time.now < wholeMs r.2) : quadWithdraw q s = s := by
  simp only [quadWithdraw, hreq, halt]
  exact if_pos (.inl h)

theorem quadWithdraw_due (h : wholeMs r.2 ≤ s.time.now) (havail : quadAvail q s = true) :
    quadWithdraw q s = testSeamStep q false f.2 (withdrawQuad q (testIsland (q / 168) s) s.time.now) s := by
  simp only [quadWithdraw, hreq, halt]
  rw [if_neg (by simp [havail, h])]
  rfl

end Withdrawal

theorem quadReturn_none {q : Nat} {s : State} (h : isWithdrawn q s = false) : quadReturn q s = s := by
  have hnone : s.isl.withdrawnQuads.find? (fun w => w.1 == q) = none := by
    simpa [isWithdrawn] using h
  simp only [quadReturn, hnone]

section Return

variable {q : Nat} {s : State} {w : Nat × Nat} (hout : s.isl.withdrawnQuads.find? (fun y => y.1 == q) = some w)
include hout

theorem quadReturn_untested (h : ∃ j, j / 4 = q ∧ (glove j s).passAt ≤ w.2) : quadReturn q s = s := by
  obtain ⟨j, hj, hpass⟩ := h
  simp only [quadReturn, hout]
  refine if_pos (.inr (.inl (List.any_eq_true.2 ⟨j, mem_quadGloves.2 hj, ?_⟩)))
  simp [hpass]

theorem quadReturn_due (halt : s.pat.testAlt = true)
    (hpass : ∀ j, j / 4 = q → w.2 < (glove j s).passAt ∧ (glove j s).test ≠ .selftest) (hfit : fitAvailable s.pat.primary s = true) :
    quadReturn q s = testSeamStep q true s.pat.primary (returnQuad q) s := by
  simp only [quadReturn, hout]
  rw [if_neg]
  · rfl
  · have hall : (quadGloves q).any (fun g => decide ((glove g s).passAt ≤ w.2) || (glove g s).test == .selftest) = false := by
      rw [List.any_eq_false]
      intro j hj
      obtain ⟨hlate, hrest⟩ := hpass j (mem_quadGloves.1 hj)
      simp [hlate, hrest]
    simp [halt, hall, hfit]

end Return

end Sys2Proof.Machine

namespace Sys2Proof
open Sys2Proof.Machine

/-- Settles O53: a slice, a request and a report change one glove, island or list; a withdrawal and a return are the move to
another placement, which leaves the gloves and the islands, followed by the change of the quad's four gloves. That a failed
slice commands the isolation is assumption 105, and when the seam of a withdrawal is due is assumption 104. -/
theorem glovesAreTestedAndQuadsWithdrawn : Obligations.GlovesAreTestedAndQuadsWithdrawn := by
  intro t g q s0 hg hq s h x rest gloves
  have hslice : Machine.exec (.gloveTestSlice t g) s0 = .next (testSlice g s) := rfl
  have hdone : ∀ ok, Machine.exec (.gloveTestSliceDone t g ok) s0 = .next (sliceDone g ok s) := fun _ => rfl
  have hrequest : Machine.exec (.gloveWithdrawRequest t g) s0 = .next (withdrawRequest g s) := rfl
  have hinterval : Machine.exec (.testIntervalPassed t g) s0 = .next (testInterval g s) := rfl
  have hwithdraw : Machine.exec (.quadWithdrawSeam t q) s0 = .next (quadWithdraw q s) := rfl
  have hreturn : Machine.exec (.quadReturnSeam t q) s0 = .next (quadReturn q s) := rfl
  clear_value s
  refine ⟨fun hw => hslice.trans (congrArg _ (testSlice_waits hw)), fun hrun hserve hidle hrest => ⟨fun hsplit hin hsoon => ?_, fun hgo => ?_⟩,
    fun ok hout => (hdone ok).trans (congrArg _ (sliceDone_outside hout ok)), fun htest => ⟨fun hfew => ?_, fun hlast => ?_, ?_⟩,
    fun hw => hrequest.trans (congrArg _ (withdrawRequest_early hw)), fun hrun havail hlate => ⟨fun halt => ?_, fun halt => ?_⟩,
    fun hover hfirst halt hrun => ?_, fun hw => hinterval.trans (congrArg _ (testInterval_unreported hw)),
    fun hw => hwithdraw.trans (congrArg _ (quadWithdraw_none hw)), fun r a f hreq halt =>
      ⟨fun hearly => ?_, fun hdue havail hfree hrefit => ⟨fun hidle => ?_, fun hwork => ?_⟩⟩,
    fun hin => hreturn.trans (congrArg _ (quadReturn_none hin)), fun w hout => ⟨fun hwait => ?_, fun halt hpass hfit hfree hrefit hidle => ?_⟩⟩
  · exact ⟨_, hslice.trans (congrArg _ (testSlice_deferred hrun hserve hidle hrest hsplit hin hsoon)), glove_modIsland _ _ _ _,
      fun _ => defer_counted _ _, defer_only _ _⟩
  · exact ⟨_, hslice.trans (congrArg _ (testSlice_starts hrun hserve hidle hrest hgo)), glove_modGlove_same _ _ _, rfl⟩
  · exact ⟨_, (hdone true).trans (congrArg _ (sliceDone_passed htest hfew)), glove_modGlove_same _ _ _, rfl⟩
  · exact ⟨_, (hdone true).trans (congrArg _ (sliceDone_full htest hlast)), rfl, glove_modGlove_same _ _ _⟩
  · refine ⟨_, (hdone false).trans (congrArg _ (sliceDone_failed htest)), ?_, ?_, fun havail => ?_, fun hiso => ?_⟩
    · rw [glove_isolateQuad, glove_latch]; exact glove_modGlove_same _ _ _
    · rw [fsrc_isolateQuad]; exact fsrc_latch_latched _ _ _
    · refine isolateQuad_available (by omega) ?_ _
      exact havail
    · refine isolateQuad_isolated ?_ _
      exact hiso
  · obtain ⟨hstands, honly⟩ := requestWithdraw_stands (g / 4) s
    exact ⟨_, hrequest.trans (congrArg _ ((withdrawRequest_due hg hrun havail hlate).trans (if_pos halt))), hstands, honly⟩
  · exact ⟨_, hrequest.trans (congrArg _ ((withdrawRequest_due hg hrun havail hlate).trans (if_neg (ne_true_of_eq_false halt)))),
      fun _ => defer_counted _ _, defer_withdrawReq _ _, defer_only _ _⟩
  · refine ⟨_, hinterval.trans (congrArg _ (testInterval_reports hg hover hfirst halt hrun)), ?_, ?_, ?_⟩
    · rw [glove_latch]; exact glove_modGlove_same _ _ _
    · exact fsrc_latch_latched _ _ _
    · exact fsrc_latch_detail _ _ _
  · exact hwithdraw.trans (congrArg _ (quadWithdraw_early hreq halt hearly))
  · have hswitch := (quadWithdraw_due hreq halt hdue havail).trans (testSeamStep_switches hfree hrefit (not_changedWork.2 hidle) _ _ _)
    obtain ⟨ms, ds, y, hmove⟩ := moveFit_eq f.2 s
    obtain ⟨hpat, hreqs, hin, hgloves⟩ := withdrawQuad_spec q (testIsland (q / 168) s) s.time.now (moveFit f.2 s)
    refine ⟨_, hwithdraw.trans (congrArg _ hswitch), ?_, ?_, ?_, ?_, ?_, hin, ?_, fun j hj => ?_, fun j hj => ?_⟩
    · rw [hpat, hmove]
    · rw [hpat]
    · rw [hpat]
    · rw [hpat]
    · rw [hpat, hmove]
    · rw [hreqs, hmove]
    · rw [hgloves, if_pos hj]
    · rw [hgloves, if_neg hj, hmove]; rfl
  · exact ⟨_, hwithdraw.trans (congrArg _ ((quadWithdraw_due hreq halt hdue havail).trans (testSeamStep_holds hfree hrefit hwork _ _ _))),
      rfl, rfl, rfl⟩
  · exact hreturn.trans (congrArg _ (quadReturn_untested hout hwait))
  · have hswitch := (quadReturn_due hout halt hpass hfit).trans (testSeamStep_switches hfree hrefit (not_changedWork.2 hidle) _ _ _)
    obtain ⟨ms, ds, y, hmove⟩ := moveFit_eq s.pat.primary s
    obtain ⟨hpat, hback, hgloves⟩ := returnQuad_spec q (moveFit s.pat.primary s)
    refine ⟨_, hreturn.trans (congrArg _ hswitch), ?_, ?_, ?_, hback, fun j hj => ?_, fun j hj => ?_⟩
    · rw [hpat, hmove]
    · rw [hpat]
    · rw [hpat]
    · rw [hgloves, if_pos hj]
    · rw [hgloves, if_neg hj, hmove]; rfl

end Sys2Proof

namespace Sys2Proof.Machine

/-! ### What an isolation's consequences leave to the collectors (R354, R356, R358) -/

/-- How far the reactions have come: the parts cut off, the commands awaiting their confirmation, the request for the module
safe state, and whether that state is in force. -/
structure Reactions where
  isolated : List Nat
  isoPend : List IsoCmd
  safeReq : Option (Nat × Nat × Nat)
  safe : Bool

/-- Of a state, how far the reactions have come. Its lemmas stand under `simp ↓`: a call is skipped before `simp` enters its
arguments. -/
def reactions (s : State) : Reactions := ⟨s.fault.isolated, s.fault.isoPend, s.fault.safeReq, s.power.safe⟩

/-- A record update that keeps those fields. -/
@[simp ↓] theorem reactions_update {s : State} {p : PowerState} {f : FaultState} {t c l pt fb d h i lo se x sc pl}
    (hi : f.isolated = s.fault.isolated) (hc : f.isoPend = s.fault.isoPend) (hr : f.safeReq = s.fault.safeReq)
    (hs : p.safe = s.power.safe) :
    reactions ⟨s.pending, t, p, c, f, l, pt, fb, d, h, i, lo, se, x, sc, pl⟩ = reactions s := by
  simp only [reactions, hi, hc, hr, hs]

@[simp ↓] theorem reactions_ite (c : Prop) [Decidable c] (a b : State) :
    reactions (if c then a else b) = if c then reactions a else reactions b := by split <;> rfl

@[simp ↓] theorem reactions_foldl {α : Type} (f : State → α → State) (hf : ∀ s a, reactions (f s a) = reactions s) (l : List α)
    (s : State) : reactions (l.foldl f s) = reactions s := by
  induction l generalizing s with
  | nil => rfl
  | cons a r ih => rw [List.foldl_cons, ih, hf]

/-! #### Traces, messages, sources and collectors -/

@[simp ↓] theorem reactions_setTrace (d u s) : reactions (setTrace d u s) = reactions s := by simp [setTrace]
@[simp ↓] theorem reactions_traceEv (d src kind data s) : reactions (traceEv d src kind data s) = reactions s := by
  obtain ⟨_, _, _, h⟩ := traceEv_eq d src kind data s
  rw [h]; rfl
@[simp ↓] theorem reactions_modPort (p f s) : reactions (modPort p f s) = reactions s := by simp [modPort]
@[simp ↓] theorem reactions_hostWr (p a bs s) : reactions (hostWr p a bs s) = reactions s := by simp [hostWr]
@[simp ↓] theorem reactions_latch (id d s) : reactions (latch id d s) = reactions s := rfl
@[simp ↓] theorem reactions_modColl (c f s) : reactions (modColl c f s) = reactions s := by simp [modColl]
@[simp ↓] theorem reactions_settle (s) : reactions (settle s) = reactions s := by simp [settle]
@[simp ↓] theorem reactions_writeRec (c r s) : reactions (writeRec c r s) = reactions s := by simp [writeRec, copyRec]
@[simp ↓] theorem reactions_completeSrc (id action s) : reactions (completeSrc id action s) = reactions s := by
  simp [completeSrc, modSrc]

/-! #### Tickets and firings -/

@[simp ↓] theorem reactions_watchEnd (k s) : reactions (watchEnd k s) = reactions s := by unfold watchEnd; split <;> simp [watchPush]
@[simp ↓] theorem reactions_voidWhere (p cause part quad detail s) : reactions (voidWhere p cause part quad detail s) = reactions s := by
  simp [voidWhere, mapTickets, setTickets]
@[simp ↓] theorem reactions_disableStreams (sts cause part quad s) : reactions (disableStreams sts cause part quad s) = reactions s := by
  simp [disableStreams, disableStream, voidStream, modStrm]
@[simp ↓] theorem reactions_freeFiring (f s) : reactions (freeFiring f s) = reactions s := by simp [freeFiring, modEdge]
@[simp ↓] theorem reactions_abandonFiring (free m s) : reactions (abandonFiring free m s) = reactions s := by
  unfold abandonFiring; split <;> simp [modMitten]
@[simp ↓] theorem reactions_voidFiring (free m cause part quad detail s) :
    reactions (voidFiring free m cause part quad detail s) = reactions s := by simp [voidFiring, voidTags]

/-! #### Memories, channels and ports -/

@[simp ↓] theorem reactions_ringError (n seq s) : reactions (ringError n seq s) = reactions s := by
  simp [ringError, modGroup, drawFree]
@[simp ↓] theorem reactions_errorResponse (w line cause part s) : reactions (errorResponse w line cause part s) = reactions s := by
  unfold errorResponse; split <;> simp [voidTags, losePage, modScene]
@[simp ↓] theorem reactions_isolateChannel (ch s) : reactions (isolateChannel ch s) = reactions s := by simp [isolateChannel, modChan]
@[simp ↓] theorem reactions_goDown (p orderly flight s) : reactions (goDown p orderly flight s) = reactions s := by
  simp [goDown, failReads]
@[simp ↓] theorem reactions_dropSamples (lost s) : reactions (dropSamples lost s) = reactions s := by
  simp [dropSamples, discardSample, modSens]
@[simp ↓] theorem reactions_loseCsi (p s) : reactions (loseCsi p s) = reactions s := by simp [loseCsi, modCsi]
@[simp ↓] theorem reactions_loseEth (e s) : reactions (loseEth e s) = reactions s := by simp [loseEth, modEth, modLoop]

/-! #### The planner, the load in progress and the islands -/

@[simp ↓] theorem reactions_modPdie (d f s) : reactions (modPdie d f s) = reactions s := by simp [modPdie]
@[simp ↓] theorem reactions_countTests (slices js s) : reactions (countTests slices js s) = reactions s := by simp [countTests]
@[simp ↓] theorem reactions_countHeap (slices h s) : reactions (countHeap slices h s) = reactions s := by unfold countHeap; split <;> simp
@[simp ↓] theorem reactions_endEarly (i done expansions ended s) : reactions (endEarly i done expansions ended s) = reactions s := by
  unfold endEarly; split <;> simp [setReq]
@[simp ↓] theorem reactions_reqLost (lost i s) : reactions (reqLost lost i s) = reactions s := by
  unfold reqLost; split <;> simp [setReq, drawFree]
@[simp ↓] theorem reactions_slicesLost (lost s) : reactions (slicesLost lost s) = reactions s := by simp [slicesLost]
@[simp ↓] theorem reactions_planDieLost (d s) : reactions (planDieLost d s) = reactions s := by simp [planDieLost, releaseToken, modEdge]
@[simp ↓] theorem reactions_modPat (f s) : reactions (modPat f s) = reactions s := by simp [modPat]
@[simp ↓] theorem reactions_dropAuth (id gen s) : reactions (dropAuth id gen s) = reactions s := by unfold dropAuth; split <;> simp
@[simp ↓] theorem reactions_stopStart (code s) : reactions (stopStart code s) = reactions s := by simp [stopStart, assertPins]
@[simp ↓] theorem reactions_bootDone (s) : reactions (bootDone s) = reactions s := by simp [bootDone]
@[simp ↓] theorem reactions_failJob (code bad s) : reactions (failJob code bad s) = reactions s := by
  unfold failJob
  repeat' split
  all_goals simp

@[simp ↓] theorem reactions_failOnLoss (s) : reactions (failOnLoss s) = reactions s := by simp [failOnLoss]
@[simp ↓] theorem reactions_goSilent (i s) : reactions (goSilent i s) = reactions s := by simp [goSilent, modIsland, emptyWindows]

/-! #### Machine/Isolate -/

@[simp ↓] theorem reactions_dropPackets (lost s) : reactions (dropPackets lost s) = reactions s := by simp [dropPackets]
@[simp ↓] theorem reactions_noteLoss (part src used s) : reactions (noteLoss part src used s) = reactions s := by
  fun_cases noteLoss <;> simp
@[simp ↓] theorem reactions_loseQuad (q src s) : reactions (loseQuad q src s) = reactions s := by simp [loseQuad]
@[simp ↓] theorem reactions_loseStack (k src s) : reactions (loseStack k src s) = reactions s := by simp [loseStack]
@[simp ↓] theorem reactions_loseDie (d s) : reactions (loseDie d s) = reactions s := by simp [loseDie]
@[simp ↓] theorem reactions_loseEffects (part src s) : reactions (loseEffects part src s) = reactions s := by simp [loseEffects]
@[simp ↓] theorem reactions_budgetConf (src s) : reactions (budgetConf src s) = reactions s := by unfold budgetConf; split <;> simp
@[simp ↓] theorem reactions_completeFor (cmds s) : reactions (completeFor cmds s) = reactions s :=
  reactions_foldl _ (fun a c => by split <;> simp) _ _

/-! ### A part is cut off, and its command dropped (R356) -/

theorem isIso_of_reactions {s u : State} (h : reactions u = reactions s) (p : Nat) : isIso p u = isIso p s :=
  congrArg (List.contains · p) (congrArg Reactions.isolated h)

theorem isoCmd_of_reactions {s u : State} (h : reactions u = reactions s) (p : Nat) : isoCmd p u = isoCmd p s :=
  congrArg (List.find? (fun x : IsoCmd => x.part == p)) (congrArg Reactions.isoPend h)

@[simp] theorem isIso_advanceTo (p t : Nat) (s : State) : isIso p (advanceTo t s) = isIso p s := by simp [isIso]

@[simp] theorem isoCmd_advanceTo (p t : Nat) (s : State) : isoCmd p (advanceTo t s) = isoCmd p s := by simp [isoCmd]

@[simp] theorem isoCmd_dropIso (part : Nat) (s : State) : isoCmd part (dropIso part s) = none := by
  simp [isoCmd, dropIso]

theorem mem_partsBehind_self (part : Nat) : part ∈ partsBehind part := by
  unfold partsBehind
  split
  · next h => simp [h]
  · split
    · next h => simp [h]
    · exact List.mem_singleton_self part

/-- Cutting a part off isolates it and every part behind it, and asks for nothing else. -/
theorem reactions_cutOff (part : Nat) (src : Option Nat) (s : State) :
    reactions (cutOff part src s) = { reactions s with isolated := (s.fault.isolated ++ partsBehind part).eraseDups } := by
  simp only [cutOff, reactions_loseEffects, reactions_traceEv]
  rfl

theorem isIso_cutOff (p part : Nat) (src : Option Nat) (s : State) :
    isIso p (cutOff part src s) = true ↔ isIso p s = true ∨ p ∈ partsBehind part := by
  have hcut : (cutOff part src s).fault.isolated = (s.fault.isolated ++ partsBehind part).eraseDups :=
    congrArg Reactions.isolated (reactions_cutOff part src s)
  simp [isIso, hcut]

theorem isoCmd_cutOff (p part : Nat) (src : Option Nat) (s : State) : isoCmd p (cutOff part src s) = isoCmd p s :=
  congrArg (List.find? (fun x : IsoCmd => x.part == p)) (congrArg Reactions.isoPend (reactions_cutOff part src s))

/-! ### ISOLATION_CONFIRM and ISOLATION_UNCONFIRMED -/

/-- A gate that reports closed in time leaves the isolations and commands as its cut, where one is due, does. -/
theorem reactions_isolationConfirm {part : Nat} {x : IsoCmd} {s : State} (hcmd : isoCmd part s = some x)
    (hsoon : s.time.now ≤ x.at_ + 5000) (hknown : partKnown part = true) :
    ∃ v, reactions v = reactions (dropIso part s)
      ∧ reactions (isolationConfirm part s) = reactions (if isIso part s = true then v else cutOff part x.src v) := by
  refine ⟨budgetConf x.src (dropIso part s), reactions_budgetConf _ _, ?_⟩
  have hiso : isIso part (budgetConf x.src (dropIso part s)) = isIso part s := isIso_of_reactions (reactions_budgetConf _ _) part
  have hgo : ¬ (x.at_ + 5000 < s.time.now ∨ (!partKnown part) = true) := by
    rw [hknown]
    rintro (h | h)
    · omega
    · simp at h
  simp only [isolationConfirm, hcmd, if_neg hgo, reactions_settle, reactions_completeFor, hiso]

/-- A gate that reports closed in time isolates the part, with every part behind it unless it was isolated before. -/
theorem isIso_isolationConfirm {part : Nat} {x : IsoCmd} {s : State} (hcmd : isoCmd part s = some x)
    (hsoon : s.time.now ≤ x.at_ + 5000) (hknown : partKnown part = true) (p : Nat) :
    isIso p (isolationConfirm part s) = true ↔ isIso p s = true ∨ (isIso part s = false ∧ p ∈ partsBehind part) := by
  obtain ⟨v, hv, hu⟩ := reactions_isolationConfirm hcmd hsoon hknown
  have hkept : isIso p v = isIso p s := isIso_of_reactions hv p
  rw [isIso_of_reactions hu]
  cases hiso : isIso part s with
  | true => simp [hkept]
  | false => simp [isIso_cutOff, hkept]

theorem isoCmd_isolationConfirm {part : Nat} {x : IsoCmd} {s : State} (hcmd : isoCmd part s = some x)
    (hsoon : s.time.now ≤ x.at_ + 5000) (hknown : partKnown part = true) : isoCmd part (isolationConfirm part s) = none := by
  obtain ⟨v, hv, hu⟩ := reactions_isolationConfirm hcmd hsoon hknown
  have hdrop : isoCmd part v = none := (isoCmd_of_reactions hv part).trans (isoCmd_dropIso part s)
  rw [isoCmd_of_reactions hu]
  split
  · exact hdrop
  · rw [isoCmd_cutOff, hdrop]

/-- A request for the safe state changes that request only. -/
theorem askSafe_eq (id cause : Nat) (s : State) : ∃ q, askSafe id cause s = { s with fault := { s.fault with safeReq := q } } := by
  unfold askSafe
  split
  · exact ⟨s.fault.safeReq, rfl⟩
  · exact ⟨_, rfl⟩

theorem askSafe_stands (id cause : Nat) {s : State} (h : s.fault.safeReq.isSome = true ∨ s.power.safe = true) :
    askSafe id cause s = s := if_pos h

theorem askSafe_asks (id cause : Nat) {s : State} (hreq : s.fault.safeReq = none) (hsafe : s.power.safe = false) :
    askSafe id cause s = { s with fault := { s.fault with safeReq := some (id, cause, stamp (id / 0x400) s) } } :=
  if_neg (by simp [hreq, hsafe])

/-- A gate that does not report closed in time: the command is dropped, the source's record may be written, and the safe state
is asked for. -/
theorem isoUnconfirmed_late {part : Nat} {x : IsoCmd} {s : State} (hcmd : isoCmd part s = some x) (hlate : x.at_ + 5000 < s.time.now) :
    ∃ v, reactions v = reactions (dropIso part s)
      ∧ isoUnconfirmed part s = askSafe (x.src.getD (partHalf part * 0x400 + 0x1C0)) 2 v := by
  simp only [isoUnconfirmed, hcmd, if_pos hlate]
  cases x.src with
  | none => exact ⟨_, rfl, rfl⟩
  | some id => exact ⟨_, reactions_completeSrc _ _ _, rfl⟩

end Sys2Proof.Machine

namespace Sys2Proof
open Sys2Proof.Machine

/-- Settles O20: of the isolations and the commands, the consequences of a cut change nothing, and neither does the record of a
reaction's end. -/
theorem isolationsAreConfirmedOrEndInTheSafeState : Obligations.IsolationsAreConfirmedOrEndInTheSafeState := by
  refine ⟨fun t part x s hcmd hsoon hknown => ?_, fun t part x s hcmd hlate hreq hsafe => ?_⟩
  · rw [← isoCmd_advanceTo part t] at hcmd
    have hexec : Machine.exec (.isolationConfirm t part) s = .next (isolationConfirm part (advanceTo t s)) := rfl
    have hiso := isIso_isolationConfirm hcmd hsoon hknown
    simp only [isIso_advanceTo] at hiso
    refine ⟨_, hexec, (hiso part).2 ?_, fun hnot p hp => (hiso p).2 (.inr ⟨hnot, hp⟩), fun p hp => (hiso p).2 (.inl hp),
      isoCmd_isolationConfirm hcmd hsoon hknown⟩
    cases hpart : isIso part s with
    | true => exact .inl rfl
    | false => exact .inr ⟨rfl, mem_partsBehind_self part⟩
  · rw [← isoCmd_advanceTo part t] at hcmd
    have hexec : Machine.exec (.isolationUnconfirmed t part) s = .next (isoUnconfirmed part (advanceTo t s)) := rfl
    obtain ⟨v, hv, hu⟩ := isoUnconfirmed_late hcmd hlate
    have hcmds : isoCmd part v = none := (isoCmd_of_reactions hv part).trans (isoCmd_dropIso part _)
    simp only [reactions, Reactions.mk.injEq, dropIso, advanceTo_fault, advanceTo_power] at hv
    obtain ⟨hisolated, -, hvreq, hvsafe⟩ := hv
    rw [askSafe_asks _ _ (hvreq.trans hreq) (hvsafe.trans hsafe)] at hu
    refine ⟨_, hexec, ?_⟩
    rw [hu]
    exact ⟨⟨_, _, rfl, rfl⟩, hcmds, hisolated⟩

end Sys2Proof

namespace Sys2Proof

open Sys2Proof.Machine

/-! ### The end of a reaction timer (R354, R366) -/

/-- What a record leaves to differ covers the request for the safe state. -/
theorem Recorded.askSafe {c : Nat} {r : FaultRec} {s u : State} (h : Recorded c r s u) (id cause : Nat) :
    Recorded c r s (Machine.askSafe id cause u) := by
  obtain ⟨q, hq⟩ := askSafe_eq id cause u
  obtain ⟨hring, hrest, hcoll, hother, hcopied, hkept, hdev, hframe⟩ := h
  rw [hq]
  exact ⟨hring, hrest, hcoll, hother, hcopied, hkept, hdev.of_ddr rfl rfl, by rw [hframe]⟩

end Sys2Proof

namespace Sys2Proof.Machine

/-- The timer of a source is freed, and an isolation awaits its confirmation. -/
def commandIso (id : Nat) (x : IsoCmd) (s : State) : State :=
  let v := modSrc id (fun y => { y with timer := none }) s
  { v with fault := { v.fault with isoPend := v.fault.isoPend ++ [x] } }

@[simp] theorem fsrc_commandIso (id : Nat) (x : IsoCmd) (s : State) : fsrc id (commandIso id x s) = { fsrc id s with timer := none } :=
  fsrc_modSrc_same id (fun y => { y with timer := none }) s

theorem fsrc_commandIso_ne {j id : Nat} (h : j ≠ id) (x : IsoCmd) (s : State) : fsrc j (commandIso id x s) = fsrc j s :=
  fsrc_modSrc_ne (fun y => { y with timer := none }) s h

theorem commandIso_frame (id : Nat) (x : IsoCmd) (s : State) : commandIso id x s = { s with fault := { s.fault with
    src := (commandIso id x s).fault.src, isoPend := s.fault.isoPend ++ [x] } } := rfl

/-- PART of a raise: the part that the raise names, or else the part of its source (R349). -/
def raisedPart (id : Nat) (s : State) : Nat := if (fsrc id s).part = 0xFF then srcPart id else (fsrc id s).part

section Timer

variable {id : Nat} {s : State}

/-- At the expiry hardware isolates the part. -/
theorem expireSrc_part (h : raisedPart id s ≠ 0xFF) :
    expireSrc id s = commandIso id ⟨raisedPart id s, some id, 4, s.time.now⟩ s := if_neg h

/-- At the expiry without a part the reaction ends and the safe state is asked for. -/
theorem expireSrc_partless (h : raisedPart id s = 0xFF) : expireSrc id s = askSafe id 2 (completeSrc id 6 s) := if_pos h

theorem timerExpire_due (h : timerDue id s = true) : timerExpire id s = expireSrc id s := if_pos h
theorem fwAck_due (h : timerDue id s = true) : fwAck id s = expireSrc id s := if_pos h
theorem fwIsolate_due (part : Nat) (h : timerDue id s = true) : fwIsolate id part s = expireSrc id s := if_pos h

theorem timerExpire_early (h : timerDue id s = false) : timerExpire id s = s := if_neg (ne_true_of_eq_false h)

theorem fwAck_counts (h : timerDue id s = false) (hruns : (fsrc id s).timer.isSome = true) (hfw : fwHandles (id / 0x400) s = true) :
    fwAck id s = completeSrc id 2 s := by
  rw [fwAck, if_neg (ne_true_of_eq_false h), if_pos ⟨hruns, hfw⟩]

theorem fwIsolate_counts (part : Nat) (h : timerDue id s = false) (hruns : (fsrc id s).timer.isSome = true)
    (hfw : fwHandles (id / 0x400) s = true) :
    fwIsolate id part s = commandIso id ⟨part, some id, 3, s.time.now⟩ s := by
  rw [fwIsolate, if_neg (ne_true_of_eq_false h), if_pos ⟨hruns, hfw⟩]
  rfl

theorem not_answered (h : (fsrc id s).timer = none ∨ fwHandles (id / 0x400) s = false) :
    ¬ ((fsrc id s).timer.isSome = true ∧ fwHandles (id / 0x400) s = true) := by
  rintro ⟨hruns, hfw⟩
  rcases h with h | h
  · simp [h] at hruns
  · simp [h] at hfw

theorem fwAck_idle (h : timerDue id s = false) (hno : (fsrc id s).timer = none ∨ fwHandles (id / 0x400) s = false) : fwAck id s = s := by
  rw [fwAck, if_neg (ne_true_of_eq_false h), if_neg (not_answered hno)]

theorem fwIsolate_idle (part : Nat) (h : timerDue id s = false) (hno : (fsrc id s).timer = none ∨ fwHandles (id / 0x400) s = false) :
    fwIsolate id part s = s := by
  rw [fwIsolate, if_neg (ne_true_of_eq_false h), if_neg (not_answered hno)]

end Timer

end Sys2Proof.Machine

namespace Sys2Proof
open Sys2Proof.Machine

/-- Settles O19: an acknowledgement is the end of the reaction, an expiry without a part that end with a request for the safe state,
and the isolations only free the timer and wait for their confirmation. That an isolation command ends the timer at the command is
assumption 171, and that the expiry comes first is assumption 163. -/
theorem reactionTimersEndByFirmwareOrByIsolation : Obligations.ReactionTimersEndByFirmwareOrByIsolation := by
  intro t id part s0 hid s c x p ended
  have hack : Machine.exec (.fwFaultAck t id) s0 = .next (fwAck id s) := rfl
  have hcommand : Machine.exec (.fwIsolateCmd t id part) s0 = .next (fwIsolate id part s) := rfl
  have hexpire : Machine.exec (.reactionTimerExpire t id) s0 = .next (timerExpire id s) := rfl
  clear_value s
  refine ⟨fun hearly hruns hfw => ⟨?_, ?_⟩, fun hearly hno => ⟨?_, ?_⟩, fun hearly => ?_, fun hdue => ?_⟩
  · obtain ⟨hsrc, hothers, hopen, hpend, hrec, hreq, -, -⟩ := completeSrc_ended id 2 s hid
    exact ⟨_, hack.trans (congrArg _ (fwAck_counts hearly hruns hfw)), ⟨hsrc, hothers, hopen, hpend, hrec⟩, hreq⟩
  · exact ⟨_, hcommand.trans (congrArg _ (fwIsolate_counts part hearly hruns hfw)), fsrc_commandIso _ _ _,
      fun j hj => fsrc_commandIso_ne hj _ _, commandIso_frame _ _ _⟩
  · exact hack.trans (congrArg _ (fwAck_idle hearly hno))
  · exact hcommand.trans (congrArg _ (fwIsolate_idle part hearly hno))
  · exact hexpire.trans (congrArg _ (timerExpire_early hearly))
  · refine ⟨_, hexpire.trans (congrArg _ (timerExpire_due hdue)), hack.trans (congrArg _ (fwAck_due hdue)),
      hcommand.trans (congrArg _ (fwIsolate_due part hdue)), fun hpart => ?_, fun hnone => ?_⟩
    · rw [expireSrc_part hpart]
      exact ⟨fsrc_commandIso _ _ _, fun j hj => fsrc_commandIso_ne hj _ _, commandIso_frame _ _ _⟩
    · obtain ⟨hsrc, hothers, hopen, hpend, hrec, hreq, hpower, hstamp⟩ := completeSrc_ended id 6 s hid
      rw [expireSrc_partless hnone]
      refine ⟨?_, fun hnoreq hnosafe => ?_, fun hasked => ?_⟩
      · obtain ⟨q, hq⟩ := askSafe_eq id 2 (completeSrc id 6 s)
        refine ⟨?_, ?_, ?_, ?_, hrec.askSafe id 2⟩ <;> rw [hq]
        · exact hsrc
        · exact hothers
        · exact hopen
        · exact hpend
      · rw [askSafe_asks _ _ (hreq.trans hnoreq) (by rw [hpower, hnosafe])]
        exact congrArg (fun st => some (id, 2, st)) (hstamp c)
      · rw [askSafe_stands _ _ (by rwa [hreq, hpower]), hreq]

end Sys2Proof

namespace Sys2Proof.Machine

/-! ### A MAJOR raise that finds no free timer (R354) -/

/-- What holds of the default record and of every listed one holds of whatever a table is read for. -/
theorem tget_forall {α : Type} {P : α → Prop} {d : α} {t : Tbl α} (hd : P d) (h : ∀ e ∈ t, P e.2) (k : Nat) : P (tget d k t) := by
  induction t with
  | nil => exact hd
  | cons e r ih =>
    obtain ⟨hhead, htail⟩ := List.forall_mem_cons.1 h
    rw [tget]
    split
    · exact hhead
    · exact ih htail

/-- After reset, quads 0 to 31 raise in one sample: the 32 reaction timers of collector 0 run. -/
def timersTaken : State := faultRaise 0 ((List.range 32).map (fun q => (q, 0))) State.reset

theorem timersTaken_hits (j : Nat) : (fsrc j timersTaken).hits = 0 :=
  tget_forall (P := fun x : FaultSrc => x.hits = 0) rfl (by decide +kernel) j

theorem rseq_timersTaken : (coll 0 timersTaken).rseq = 32 := by decide +kernel

/-- The deadline window of stream 255 raises there: with no timer free it counts as expired at once, and its records take RSEQ 32
and 33. -/
theorem rseq_timersTaken_raise : (coll 0 (faultRaise 0 [(0x3FF, 0)] (advanceTo 0 timersTaken))).rseq = 34 := by
  decide +kernel

end Sys2Proof.Machine

namespace Sys2Proof
open Sys2Proof.Machine

/-- Refutes O18: a partless MAJOR raise that finds the 32 timers taken is treated as expired at once (R354), so its action is
complete and the second record of R351 follows the first: RSEQ advances by two, where the statement has it advance by one. -/
theorem not_raisesAreRecordedAndActedOnBySeverity : ¬ Obligations.RaisesAreRecordedAndActedOnBySeverity := by
  rintro ⟨hraise, -⟩
  obtain ⟨u, hexec, -, -, hrseq, -⟩ := hraise 0 0 0x3FF 0 timersTaken (by decide) (by decide) (by decide) (by decide +kernel)
    timersTaken_hits (by decide +kernel) (by decide +kernel) (by decide +kernel) (by decide +kernel) (by decide +kernel)
  have hu : u = faultRaise 0 [(0x3FF, 0)] (advanceTo 0 timersTaken) := (Host.Outcome.next.inj hexec).symm
  rw [hu, rseq_timersTaken_raise, rseq_timersTaken] at hrseq
  exact absurd hrseq (by decide)

end Sys2Proof


/-!
SUPPORT. The proofs of the statements about every step and about the state after reset: a step takes the front command, time
never turns back, and every byte memory stays canonical.
-/

namespace Sys2Proof.Machine

/-! ### What every operation keeps -/

/-- `s` was reached from `s₀` with the waiting commands untouched, without time turned back, and with every byte memory canonical
if it was so in `s₀`. -/
def Kept (s₀ s : State) : Prop := s.pending = s₀.pending ∧ s₀.time.now ≤ s.time.now ∧ (MemWf s₀ → MemWf s)

/-- Both buffers of an island's mailbox are in canonical form. -/
def MbxWf (x : Island) : Prop := Memory.wf x.mbx.inBuf = true ∧ Memory.wf x.mbx.outBuf = true

section Operations

-- Many `grind` proofs side by side would each hold a thread's stack; one at a time they need little memory.
set_option Elab.async false

variable {s₀ s : State}

theorem kept_refl : Kept s s := ⟨rfl, Nat.le_refl _, id⟩

/-- A change of the state that keeps each of its memories canonical. -/
theorem kept_write {t po cr fa le pa fab ddr ho isl lo se sec sc pl} (h : Kept s₀ s) (hnow : t.now = s.time.now)
    (hddr : Memory.wf s.ddr.mem = true → Memory.wf ddr.mem = true) (hhost : Memory.wf s.host.mem = true → Memory.wf ho.mem = true)
    (ha : MbxWf s.isl.a → MbxWf isl.a) (hb : MbxWf s.isl.b → MbxWf isl.b) :
    Kept s₀ ⟨s.pending, t, po, cr, fa, le, pa, fab, ddr, ho, isl, lo, se, sec, sc, pl⟩ := by
  obtain ⟨hp, ht, hm⟩ := h
  refine ⟨hp, Nat.le_trans ht (Nat.le_of_eq hnow.symm), fun h0 => ?_⟩
  obtain ⟨m1, m2, m3, m4, m5, m6⟩ := hm h0
  obtain ⟨a1, a2⟩ := ha ⟨m3, m4⟩
  exact ⟨hddr m1, hhost m2, a1, a2, hb ⟨m5, m6⟩⟩

/-- A change of the state that touches none of its memories. -/
theorem kept_update {t po cr fa le pa fab ddr ho isl lo se sec sc pl} (h : Kept s₀ s) (hnow : t.now = s.time.now := by rfl)
    (hddr : ddr.mem = s.ddr.mem := by rfl) (hhost : ho.mem = s.host.mem := by rfl)
    (ha : isl.a.mbx = s.isl.a.mbx := by rfl) (hb : isl.b.mbx = s.isl.b.mbx := by rfl) :
    Kept s₀ ⟨s.pending, t, po, cr, fa, le, pa, fab, ddr, ho, isl, lo, se, sec, sc, pl⟩ :=
  kept_write h hnow (fun h => by rwa [hddr]) (fun h => by rwa [hhost]) (fun h => by rwa [MbxWf, ha])
    (fun h => by rwa [MbxWf, hb])

theorem kept_ite {c : Prop} [Decidable c] {a b : State} (ha : Kept s₀ a) (hb : Kept s₀ b) : Kept s₀ (if c then a else b) := by
  split <;> assumption

theorem kept_foldl {α : Type} {f : State → α → State} {l : List α} (hf : ∀ s a, Kept s₀ s → Kept s₀ (f s a)) (h : Kept s₀ s) :
    Kept s₀ (l.foldl f s) := by
  induction l generalizing s with
  | nil => exact h
  | cons a r ih => exact ih (hf s a h)

/-! #### Machine/Ops -/

@[simp] theorem kept_modChan {ch f} (h : Kept s₀ s) : Kept s₀ (modChan ch f s) := kept_update h

@[simp] theorem kept_setQueued {a b} (h : Kept s₀ s) : Kept s₀ (setQueued a b s) := by
  grind [setQueued, kept_modChan, kept_update]

@[simp] theorem kept_devWr8 {a b} (h : Kept s₀ s) : Kept s₀ (devWr8 a b s) := by
  unfold devWr8
  grind [kept_setQueued, kept_write, wf_wr8]

@[simp] theorem kept_devWr {a bs} (h : Kept s₀ s) : Kept s₀ (devWr a bs s) := by
  induction bs generalizing a s with
  | nil => exact h
  | cons b r ih => exact ih (kept_devWr8 h)

@[simp] theorem kept_setTrace {d u} (h : Kept s₀ s) : Kept s₀ (setTrace d u s) := by
  grind [setTrace, kept_update]

@[simp] theorem kept_tracePut {d src kind data} (h : Kept s₀ s) : Kept s₀ (tracePut d src kind data s) := by
  grind [tracePut, kept_devWr, kept_setTrace, kept_update]

@[simp] theorem kept_traceEv {d src kind data} (h : Kept s₀ s) : Kept s₀ (traceEv d src kind data s) := by
  grind [traceEv, kept_setTrace, kept_tracePut, kept_update]

@[simp] theorem kept_modPort {p f} (h : Kept s₀ s) : Kept s₀ (modPort p f s) := by
  grind [modPort, kept_update]

@[simp] theorem kept_hostWr {p a bs} (h : Kept s₀ s) : Kept s₀ (hostWr p a bs s) := by
  unfold hostWr
  grind [kept_write, wf_wrBytes]

@[simp] theorem kept_sendVec {p v} (h : Kept s₀ s) : Kept s₀ (sendVec p v s) := by
  grind [sendVec, kept_modPort, kept_update]

@[simp] theorem kept_attachVec (h : Kept s₀ s) : Kept s₀ (attachVec s) := by
  grind [attachVec, kept_sendVec]

@[simp] theorem kept_modEth {e f} (h : Kept s₀ s) : Kept s₀ (modEth e f s) := kept_update h

@[simp] theorem kept_pushTxts {e x} (h : Kept s₀ s) : Kept s₀ (pushTxts e x s) := by
  grind [pushTxts, kept_modEth, kept_update]

@[simp] theorem kept_ethEmit {e f o} (h : Kept s₀ s) : Kept s₀ (ethEmit e f o s) := by
  unfold ethEmit
  grind [kept_modEth, kept_pushTxts, kept_update]

@[simp] theorem kept_dropWaiting {e o} (h : Kept s₀ s) : Kept s₀ (dropWaiting e o s) := by
  unfold dropWaiting
  grind [kept_modEth, kept_update]

@[simp] theorem kept_ethSend {e tc f o} (h : Kept s₀ s) : Kept s₀ (ethSend e tc f o s) := by
  grind [ethSend, kept_modEth, kept_ethEmit, kept_dropWaiting, kept_update]

@[simp] theorem kept_ethDrainClass {e tc n} (h : Kept s₀ s) : Kept s₀ (ethDrainClass e tc n s) := by
  fun_induction ethDrainClass e tc n s <;> grind [kept_modEth, kept_ethEmit]

@[simp] theorem kept_ethDrain {e} (h : Kept s₀ s) : Kept s₀ (ethDrain e s) := by
  grind [ethDrain, kept_ethDrainClass, kept_foldl]

@[simp] theorem kept_modSrc {id f} (h : Kept s₀ s) : Kept s₀ (modSrc id f s) := kept_update h

@[simp] theorem kept_latch {id detail} (h : Kept s₀ s) : Kept s₀ (latch id detail s) := by
  grind [latch, kept_modSrc, kept_update]

@[simp] theorem kept_latchBoth {idx detail} (h : Kept s₀ s) : Kept s₀ (latchBoth idx detail s) := kept_latch h

@[simp] theorem kept_latchWrite {half off} (h : Kept s₀ s) : Kept s₀ (latchWrite half off s) := kept_latch h

theorem kept_rwWrite {busy act : State → State} (hb : ∀ z, Kept s₀ z → Kept s₀ (busy z))
    (ha : ∀ z, Kept s₀ z → Kept s₀ (act z)) {idle off} (h : Kept s₀ s) : Kept s₀ (rwWrite idle off busy act s) := by
  unfold rwWrite
  split
  · exact ha s h
  · exact kept_latchWrite (hb s h)

@[simp] theorem kept_drawFree (h : Kept s₀ s) : Kept s₀ ((drawFree s).2) := kept_update h

/-! #### Machine/ModState -/

@[simp] theorem kept_settle (h : Kept s₀ s) : Kept s₀ (settle s) := by
  grind [settle, kept_update]

/-! #### Machine/LedgerOps -/

@[simp] theorem kept_modStrm {n f} (h : Kept s₀ s) : Kept s₀ (modStrm n f s) := kept_update h

@[simp] theorem kept_setTickets {ts} (h : Kept s₀ s) : Kept s₀ (setTickets ts s) := kept_update h

@[simp] theorem kept_mapTickets {f} (h : Kept s₀ s) : Kept s₀ (mapTickets f s) := kept_setTickets h

@[simp] theorem kept_modTicket {st q f} (h : Kept s₀ s) : Kept s₀ (modTicket st q f s) := by
  grind [modTicket, kept_mapTickets]

@[simp] theorem kept_watchPush {st miss} (h : Kept s₀ s) : Kept s₀ (watchPush st miss s) := kept_update h

@[simp] theorem kept_watchEnd {k} (h : Kept s₀ s) : Kept s₀ (watchEnd k s) := by
  grind [watchEnd, kept_watchPush]

@[simp] theorem kept_voidWhere {p cause part quad detail} (h : Kept s₀ s) : Kept s₀ (voidWhere p cause part quad detail s) := by
  grind [voidWhere, kept_mapTickets, kept_watchEnd, kept_foldl, kept_update]

@[simp] theorem kept_voidTags {tags cause part quad detail} (h : Kept s₀ s) : Kept s₀ (voidTags tags cause part quad detail s) :=
  kept_voidWhere h

@[simp] theorem kept_voidAll {cause part} (h : Kept s₀ s) : Kept s₀ (voidAll cause part s) := kept_voidWhere h

@[simp] theorem kept_voidStream {st cause part quad} (h : Kept s₀ s) : Kept s₀ (voidStream st cause part quad s) :=
  kept_voidWhere h

@[simp] theorem kept_disableStream {st cause part quad} (h : Kept s₀ s) : Kept s₀ (disableStream st cause part quad s) :=
  kept_voidStream h

@[simp] theorem kept_disableStreams {sts cause part quad} (h : Kept s₀ s) : Kept s₀ (disableStreams sts cause part quad s) := by
  grind [disableStreams, kept_disableStream, kept_foldl]

@[simp] theorem kept_writeReceipt {seq stmp verdict st} (h : Kept s₀ s) : Kept s₀ (writeReceipt seq stmp verdict st s) := by
  grind [writeReceipt, kept_hostWr, kept_sendVec, kept_modStrm, kept_update]

@[simp] theorem kept_acceptTicket {w bs land sealed} (h : Kept s₀ s) : Kept s₀ (acceptTicket w bs land sealed s) := by
  unfold acceptTicket
  grind [kept_traceEv, kept_settle, kept_modStrm, kept_setTickets, kept_update]

@[simp] theorem kept_ackTicket {st q} (h : Kept s₀ s) : Kept s₀ (ackTicket st q s) := by
  grind [ackTicket, kept_modTicket, kept_writeReceipt, kept_update]

@[simp] theorem kept_endTicket {st q} (h : Kept s₀ s) : Kept s₀ (endTicket st q s) := by
  grind [endTicket, kept_modTicket, kept_watchEnd, kept_foldl, kept_update]

@[simp] theorem kept_signalOutcome {st isVoid} (h : Kept s₀ s) : Kept s₀ (signalOutcome st isVoid s) := by
  grind [signalOutcome, kept_sendVec, kept_modStrm, kept_update]

@[simp] theorem kept_deliverOutcome {k} (h : Kept s₀ s) : Kept s₀ (deliverOutcome k s) := by
  grind [deliverOutcome, kept_traceEv, kept_hostWr, kept_modStrm, kept_modTicket, kept_signalOutcome, kept_update]

@[simp] theorem kept_modEdge {e f} (h : Kept s₀ s) : Kept s₀ (modEdge e f s) := kept_update h

@[simp] theorem kept_sendToken {e tk} (h : Kept s₀ s) : Kept s₀ (sendToken e tk s) := kept_update h

/-! #### Machine/Image -/

@[simp] theorem kept_modMitten {m f} (h : Kept s₀ s) : Kept s₀ (modMitten m f s) := kept_update h

@[simp] theorem kept_mapMittens {f} (h : Kept s₀ s) : Kept s₀ (mapMittens f s) := kept_update h

@[simp] theorem kept_takeArriving {e} (h : Kept s₀ s) : Kept s₀ (takeArriving e s) := kept_update h

@[simp] theorem kept_offerToken {e tk} (h : Kept s₀ s) : Kept s₀ (offerToken e tk s) := by
  grind [offerToken, kept_sendToken]

/-! #### Machine/Fault -/

@[simp] theorem kept_modColl {c f} (h : Kept s₀ s) : Kept s₀ (modColl c f s) := by
  grind [modColl, kept_update]

@[simp] theorem kept_copyRec {r} (h : Kept s₀ s) : Kept s₀ (copyRec r s) := by
  grind [copyRec, kept_hostWr, kept_update]

@[simp] theorem kept_writeRec {c r} (h : Kept s₀ s) : Kept s₀ (writeRec c r s) := by
  grind [writeRec, kept_traceEv, kept_modColl, kept_copyRec, kept_update]

@[simp] theorem kept_faultVec (h : Kept s₀ s) : Kept s₀ (faultVec s) := kept_sendVec h

@[simp] theorem kept_askSafe {id cause} (h : Kept s₀ s) : Kept s₀ (askSafe id cause s) := by
  grind [askSafe, kept_update]

@[simp] theorem kept_completeSrc {id action} (h : Kept s₀ s) : Kept s₀ (completeSrc id action s) := by
  grind [completeSrc, kept_modSrc, kept_modColl, kept_writeRec, kept_update]

@[simp] theorem kept_expireSrc {id} (h : Kept s₀ s) : Kept s₀ (expireSrc id s) := by
  grind [expireSrc, kept_modSrc, kept_askSafe, kept_completeSrc, kept_update]

@[simp] theorem kept_actMajor {id grave} (h : Kept s₀ s) : Kept s₀ (actMajor id grave s) := by
  grind [actMajor, kept_modSrc, kept_modColl, kept_writeRec, kept_faultVec, kept_expireSrc, kept_update]

@[simp] theorem kept_recognize {grave id} (h : Kept s₀ s) : Kept s₀ (recognize grave id s) := by
  grind [recognize, kept_modSrc, kept_modColl, kept_writeRec, kept_faultVec, kept_askSafe, kept_actMajor, kept_update]

@[simp] theorem kept_recognizeAll {c} (h : Kept s₀ s) : Kept s₀ (recognizeAll c s) := by
  grind [recognizeAll, kept_recognize, kept_foldl]

@[simp] theorem kept_lineBroken {id} (h : Kept s₀ s) : Kept s₀ (lineBroken id s) := by
  grind [lineBroken, kept_modSrc, kept_latch, kept_update]

@[simp] theorem kept_timerExpire {id} (h : Kept s₀ s) : Kept s₀ (timerExpire id s) := by
  grind [timerExpire, kept_expireSrc]

@[simp] theorem kept_fwAck {id} (h : Kept s₀ s) : Kept s₀ (fwAck id s) := by
  grind [fwAck, kept_completeSrc, kept_expireSrc]

@[simp] theorem kept_fwIsolate {id part} (h : Kept s₀ s) : Kept s₀ (fwIsolate id part s) := by
  grind [fwIsolate, kept_modSrc, kept_expireSrc, kept_update]

@[simp] theorem kept_dropIso {part} (h : Kept s₀ s) : Kept s₀ (dropIso part s) := kept_update h

@[simp] theorem kept_isoUnconfirmed {part} (h : Kept s₀ s) : Kept s₀ (isoUnconfirmed part s) := by
  grind [isoUnconfirmed, kept_askSafe, kept_completeSrc, kept_dropIso]

@[simp] theorem kept_collectorParity {c} (h : Kept s₀ s) : Kept s₀ (collectorParity c s) := by
  grind [collectorParity, kept_modSrc, kept_latch, kept_writeRec, kept_askSafe, kept_expireSrc, kept_recognize, kept_update]

/-! #### Machine/Loop -/

@[simp] theorem kept_modLoop {n f} (h : Kept s₀ s) : Kept s₀ (modLoop n f s) := kept_update h

@[simp] theorem kept_sendFrame {n st steps} (h : Kept s₀ s) : Kept s₀ (sendFrame n st steps s) := by
  grind [sendFrame, kept_ethSend, kept_modLoop, kept_update]

@[simp] theorem kept_loopTrace {n o} (h : Kept s₀ s) : Kept s₀ (loopTrace n o s) := by
  grind [loopTrace, kept_traceEv]

@[simp] theorem kept_safeFrame {n} (h : Kept s₀ s) : Kept s₀ (safeFrame n s) := kept_sendFrame h

@[simp] theorem kept_enterSafe {n} (h : Kept s₀ s) : Kept s₀ (enterSafe n s) := by
  grind [enterSafe, kept_modLoop, kept_loopTrace, kept_safeFrame, kept_update]

@[simp] theorem kept_slotSafe {n} (h : Kept s₀ s) : Kept s₀ (slotSafe n s) := by
  grind [slotSafe, kept_enterSafe, kept_foldl]

@[simp] theorem kept_safeOutAll (h : Kept s₀ s) : Kept s₀ (safeOutAll s) := by
  grind [safeOutAll, kept_enterSafe, kept_foldl]

@[simp] theorem kept_trigger {n st} (h : Kept s₀ s) : Kept s₀ (trigger n st s) := by
  grind [trigger, kept_modLoop, kept_safeFrame, kept_update]

@[simp] theorem kept_loopTimer {n} (h : Kept s₀ s) : Kept s₀ (loopTimer n s) := by
  grind [loopTimer, kept_safeFrame, kept_trigger]

@[simp] theorem kept_loopWatchdog {n} (h : Kept s₀ s) : Kept s₀ (loopWatchdog n s) := by
  grind [loopWatchdog, kept_latch, kept_slotSafe]

@[simp] theorem kept_loopSample1 {id arrival payload n} (h : Kept s₀ s) : Kept s₀ (loopSample1 id arrival payload n s) := by
  grind [loopSample1, kept_modLoop, kept_trigger, kept_update]

@[simp] theorem kept_loopSample {id arrival payload} (h : Kept s₀ s) : Kept s₀ (loopSample id arrival payload s) := by
  grind [loopSample, kept_loopSample1, kept_foldl]

@[simp] theorem kept_setpointToken {e} (h : Kept s₀ s) : Kept s₀ (setpointToken e s) := by
  grind [setpointToken, kept_takeArriving, kept_modLoop, kept_update]

@[simp] theorem kept_feedbackToken {e} (h : Kept s₀ s) : Kept s₀ (feedbackToken e s) := by
  grind [feedbackToken, kept_takeArriving, kept_modLoop, kept_update]

@[simp] theorem kept_setpointStale {n} (h : Kept s₀ s) : Kept s₀ (setpointStale n s) := by
  grind [setpointStale, kept_latch, kept_modLoop, kept_update]

@[simp] theorem kept_loopReq {n r} (h : Kept s₀ s) : Kept s₀ (loopReq n r s) := by
  grind [loopReq, kept_modLoop, kept_update]

@[simp] theorem kept_loopHostReq {n r} (h : Kept s₀ s) : Kept s₀ (loopHostReq n r s) := by
  grind [loopHostReq, kept_loopReq]

@[simp] theorem kept_loopMan {n j v} (h : Kept s₀ s) : Kept s₀ (loopMan n j v s) := by
  grind [loopMan, kept_modLoop, kept_update]

@[simp] theorem kept_applyReq {n} (h : Kept s₀ s) : Kept s₀ (applyReq n s) := by
  grind [applyReq, kept_modLoop, kept_loopTrace, kept_update]

@[simp] theorem kept_raiseResidual {n} (h : Kept s₀ s) : Kept s₀ (raiseResidual n s) := by
  grind [raiseResidual, kept_latch, kept_modLoop, kept_update]

@[simp] theorem kept_countEval {n} (h : Kept s₀ s) : Kept s₀ (countEval n s) := by
  grind [countEval, kept_update]

@[simp] theorem kept_evaluate {n st was} (h : Kept s₀ s) : Kept s₀ (evaluate n st was s) := by
  grind [evaluate, kept_latch, kept_modLoop, kept_sendFrame, kept_slotSafe, kept_raiseResidual, kept_countEval, kept_update]

@[simp] theorem kept_loopEval {n} (h : Kept s₀ s) : Kept s₀ (loopEval n s) := by
  grind [loopEval, kept_modLoop, kept_safeFrame, kept_applyReq, kept_evaluate, kept_update]

@[simp] theorem kept_loopRecompute {n ok} (h : Kept s₀ s) : Kept s₀ (loopRecompute n ok s) := by
  grind [loopRecompute, kept_latch]

@[simp] theorem kept_modGates {e f} (h : Kept s₀ s) : Kept s₀ (modGates e f s) := kept_update h

@[simp] theorem kept_gateEntry {e i} (h : Kept s₀ s) : Kept s₀ (gateEntry e i s) := by
  grind [gateEntry, kept_modEth, kept_ethDrain, kept_modGates, kept_update]

@[simp] theorem kept_adminBase {e base cycle l} (h : Kept s₀ s) : Kept s₀ (adminBase e base cycle l s) := by
  grind [adminBase, kept_modGates, kept_gateEntry, kept_update]

/-! #### Machine/Start -/

theorem kept_modIsland {i} {f : Island → Island} (h : Kept s₀ s) (hf : ∀ x, MbxWf x → MbxWf (f x) := by exact fun _ => id) :
    Kept s₀ (modIsland i f s) := by
  unfold modIsland
  split
  · exact kept_write h rfl id id (hf _) id
  · exact kept_write h rfl id id id (hf _)

@[simp] theorem kept_modFlash {i f} (h : Kept s₀ s) : Kept s₀ (modFlash i f s) := by
  grind [modFlash, kept_update]

@[simp] theorem kept_abortFlash (h : Kept s₀ s) : Kept s₀ (abortFlash s) := by
  grind [abortFlash, kept_modFlash, kept_update]

@[simp] theorem kept_powerLost (h : Kept s₀ s) : Kept s₀ (powerLost s) := by
  have ha := kept_abortFlash h
  exact kept_write ha rfl (fun _ => wf_nil) id (fun _ => ⟨wf_nil, wf_nil⟩) (fun _ => ⟨wf_nil, wf_nil⟩)

@[simp] theorem kept_turnOff (h : Kept s₀ s) : Kept s₀ (turnOff s) := kept_settle (kept_powerLost h)

@[simp] theorem kept_resetHalves (h : Kept s₀ s) : Kept s₀ (resetHalves s) := kept_update h

@[simp] theorem kept_endJoin (h : Kept s₀ s) : Kept s₀ (endJoin s) := kept_update h

@[simp] theorem kept_enterBoot (h : Kept s₀ s) : Kept s₀ (enterBoot s) := by
  have h1 := kept_resetHalves h
  unfold enterBoot
  generalize resetHalves s = s1 at h1
  exact kept_traceEv (kept_traceEv (kept_settle (kept_endJoin (kept_update h1))))

@[simp] theorem kept_assertPins (h : Kept s₀ s) : Kept s₀ (assertPins s) := kept_update h

@[simp] theorem kept_stopStart {code} (h : Kept s₀ s) : Kept s₀ (stopStart code s) := kept_update h

@[simp] theorem kept_bootDone (h : Kept s₀ s) : Kept s₀ (bootDone s) := kept_settle h

@[simp] theorem kept_restart (h : Kept s₀ s) : Kept s₀ (restart s) := by
  grind [restart, kept_voidAll, kept_abortFlash, kept_enterBoot]

@[simp] theorem kept_fence {cause} (h : Kept s₀ s) : Kept s₀ (fence cause s) := by
  grind [fence, kept_settle, kept_voidAll, kept_safeOutAll, kept_endJoin, kept_update]

@[simp] theorem kept_wake (h : Kept s₀ s) : Kept s₀ (wake s) := by
  grind [wake, kept_settle, kept_update]

/-! #### Machine/FabricOps -/

@[simp] theorem kept_freeFiring {f} (h : Kept s₀ s) : Kept s₀ (freeFiring f s) := by
  grind [freeFiring, kept_modEdge, kept_foldl, kept_update]

@[simp] theorem kept_abandonFiring {free m} (h : Kept s₀ s) : Kept s₀ (abandonFiring free m s) := by
  grind [abandonFiring, kept_modMitten, kept_freeFiring, kept_update]

@[simp] theorem kept_voidFiring {free m cause part quad detail} (h : Kept s₀ s) : Kept s₀ (voidFiring free m cause part quad detail s) :=
  kept_abandonFiring (kept_voidTags h)

@[simp] theorem kept_setStateTensor {id bs} (h : Kept s₀ s) : Kept s₀ (setStateTensor id bs s) := kept_update h

@[simp] theorem kept_resetStateTensor {id} (h : Kept s₀ s) : Kept s₀ (resetStateTensor id s) := kept_update h

@[simp] theorem kept_resetEdge {e part quad} (h : Kept s₀ s) : Kept s₀ (resetEdge e part quad s) := kept_voidTags h

@[simp] theorem kept_resetLostStates {old part} (h : Kept s₀ s) : Kept s₀ (resetLostStates old part s) := by
  grind [resetLostStates, kept_resetStateTensor, kept_foldl]

@[simp] theorem kept_modScene {m f} (h : Kept s₀ s) : Kept s₀ (modScene m f s) := kept_update h

@[simp] theorem kept_loseScenes {old changed part} (h : Kept s₀ s) : Kept s₀ (loseScenes old changed part s) := by
  grind [loseScenes, kept_update]

@[simp] theorem kept_startDrains {old new} (h : Kept s₀ s) : Kept s₀ (startDrains old new s) := kept_update h

@[simp] theorem kept_switchFit {new part} (h : Kept s₀ s) : Kept s₀ (switchFit new part s) := by
  unfold switchFit
  refine kept_startDrains (kept_update (kept_mapMittens (kept_foldl (fun a m ha => ?_) ?_)))
  · split <;> exact kept_modMitten ha
  · exact kept_loseScenes (kept_resetLostStates (kept_foldl (fun _ _ => kept_resetEdge) (kept_foldl (fun _ _ => kept_voidFiring) h)))

/-! #### Machine/Time -/

@[simp] theorem kept_setRate {r} (h : Kept s₀ s) : Kept s₀ (setRate r s) := by
  grind [setRate, kept_traceEv, kept_update]

@[simp] theorem kept_rateWrite {v} (h : Kept s₀ s) : Kept s₀ (rateWrite v s) := by
  grind [rateWrite, kept_setRate]

@[simp] theorem kept_judgeStep (h : Kept s₀ s) : Kept s₀ (judgeStep s) := by
  grind [judgeStep, kept_latchBoth, kept_update]

@[simp] theorem kept_timeStepRequest (h : Kept s₀ s) : Kept s₀ (timeStepRequest s) := by
  grind [timeStepRequest, kept_judgeStep]

@[simp] theorem kept_stepEvents {die d} (h : Kept s₀ s) : Kept s₀ (stepEvents die d s) := by
  grind [stepEvents, kept_traceEv]

@[simp] theorem kept_stepBlocks {die d s0} (h : Kept s₀ s) : Kept s₀ (stepBlocks die d s0 s) := kept_update h

@[simp] theorem kept_stepDie {die d} (h : Kept s₀ s) : Kept s₀ (stepDie die d s) := by
  grind [stepDie, kept_mapTickets, kept_stepEvents, kept_stepBlocks, kept_update]

@[simp] theorem kept_applyStep {d ok} (h : Kept s₀ s) : Kept s₀ (applyStep d ok s) := by
  grind [applyStep, kept_stepDie, kept_update]

@[simp] theorem kept_takeStep {ok} (h : Kept s₀ s) : Kept s₀ (takeStep ok s) := by
  grind [takeStep, kept_latchBoth, kept_applyStep, kept_update]

@[simp] theorem kept_exchangeOk {trim} (h : Kept s₀ s) : Kept s₀ (exchangeOk trim s) := by
  grind [exchangeOk, kept_latchBoth, kept_stepDie, kept_update]

@[simp] theorem kept_exchangeFail (h : Kept s₀ s) : Kept s₀ (exchangeFail s) := by
  grind [exchangeFail, kept_latch, kept_update]

@[simp] theorem kept_alignmentExchange {ok trim} (h : Kept s₀ s) : Kept s₀ (alignmentExchange ok trim s) := by
  grind [alignmentExchange, kept_takeStep, kept_exchangeOk, kept_exchangeFail]

@[simp] theorem kept_setAgent {n} (h : Kept s₀ s) : Kept s₀ (setAgent n s) := by
  grind [setAgent, kept_traceEv, kept_latchBoth, kept_update]

@[simp] theorem kept_dropExchange (h : Kept s₀ s) : Kept s₀ (dropExchange s) := kept_update h

@[simp] theorem kept_timeAgentWrite {on} (h : Kept s₀ s) : Kept s₀ (timeAgentWrite on s) := by
  grind [timeAgentWrite, kept_setAgent, kept_dropExchange, kept_update]

@[simp] theorem kept_gptpSync {e q two} (h : Kept s₀ s) : Kept s₀ (gptpSync e q two s) := by
  grind [gptpSync, kept_update]

@[simp] theorem kept_agentJudge {off} (h : Kept s₀ s) : Kept s₀ (agentJudge off s) := by
  grind [agentJudge, kept_setAgent, kept_update]

@[simp] theorem kept_agentSteer {gm loc} (h : Kept s₀ s) : Kept s₀ (agentSteer gm loc s) := by
  grind [agentSteer, kept_setRate, kept_judgeStep, kept_agentJudge, kept_update]

@[simp] theorem kept_gptpFollowUp {e q origin} (h : Kept s₀ s) : Kept s₀ (gptpFollowUp e q origin s) := by
  grind [gptpFollowUp, kept_gptpSync, kept_agentSteer, kept_update]

@[simp] theorem kept_pdelayReqSend (h : Kept s₀ s) : Kept s₀ (pdelayReqSend s) := by
  grind [pdelayReqSend, kept_ethSend, kept_update]

@[simp] theorem kept_pdelayReqRx {e q} (h : Kept s₀ s) : Kept s₀ (pdelayReqRx e q s) := by
  grind [pdelayReqRx, kept_ethSend]

@[simp] theorem kept_pdelayRespRx {e q fu v} (h : Kept s₀ s) : Kept s₀ (pdelayRespRx e q fu v s) := by
  grind [pdelayRespRx, kept_update]

@[simp] theorem kept_announceRx {e ident prio} (h : Kept s₀ s) : Kept s₀ (announceRx e ident prio s) := by
  grind [announceRx, kept_traceEv, kept_update]

@[simp] theorem kept_syncTimeout (h : Kept s₀ s) : Kept s₀ (syncTimeout s) := by
  unfold syncTimeout
  split
  · split
    · exact kept_setAgent (kept_update h)
    · exact h
  · exact h

@[simp] theorem kept_ppsInEdge (h : Kept s₀ s) : Kept s₀ (ppsInEdge s) := by
  grind [ppsInEdge, kept_traceEv, kept_latchBoth, kept_agentSteer, kept_update]

@[simp] theorem kept_ppsOutRise (h : Kept s₀ s) : Kept s₀ (ppsOutRise s) := by
  grind [ppsOutRise, kept_update]

@[simp] theorem kept_ppsOutFall (h : Kept s₀ s) : Kept s₀ (ppsOutFall s) := by
  grind [ppsOutFall, kept_update]

@[simp] theorem kept_txtsPop {e v} (h : Kept s₀ s) : Kept s₀ (txtsPop e v s) := by
  unfold txtsPop
  split
  · exact h
  · exact kept_modEth h

@[simp] theorem kept_timeCfgBusy (h : Kept s₀ s) : Kept s₀ (timeCfgBusy s) := kept_update h

@[simp] theorem kept_traceCopyGo {d v} (h : Kept s₀ s) : Kept s₀ (traceCopyGo d v s) := by
  grind [traceCopyGo, kept_setTrace, kept_rwWrite, kept_timeCfgBusy, kept_update]

@[simp] theorem kept_traceCopyDone {d} (h : Kept s₀ s) : Kept s₀ (traceCopyDone d s) := by
  grind [traceCopyDone, kept_setTrace, kept_hostWr, kept_update]

/-! #### Machine/HostPath -/

@[simp] theorem kept_hostRx {e f} (h : Kept s₀ s) : Kept s₀ (hostRx e f s) := by
  grind [hostRx, kept_hostWr, kept_sendVec, kept_modEth, kept_update]

@[simp] theorem kept_hostTx {e n} (h : Kept s₀ s) : Kept s₀ (hostTx e n s) := by
  induction n generalizing s with
  | zero => exact h
  | succ n ih => unfold hostTx; grind [kept_modEth, kept_ethSend]

@[simp] theorem kept_hostServe {e} (h : Kept s₀ s) : Kept s₀ (hostServe e s) := by
  unfold hostServe
  exact kept_ite (kept_hostTx h) (kept_sendVec (kept_hostTx h))

@[simp] theorem kept_ethTxProduce {e prod} (h : Kept s₀ s) : Kept s₀ (ethTxProduce e prod s) := by
  unfold ethTxProduce
  split
  · exact h
  · exact kept_hostServe (kept_modEth h)

@[simp] theorem kept_modEvt {d f} (h : Kept s₀ s) : Kept s₀ (modEvt d f s) := by
  grind [modEvt, kept_update]

@[simp] theorem kept_fuseEvt {d kind g a b fseq st detail stream} (h : Kept s₀ s) : Kept s₀ (fuseEvt d kind g a b fseq st detail stream s) := by
  grind [fuseEvt, kept_hostWr, kept_sendVec, kept_modEvt, kept_update]

/-! #### Machine/FuseOps -/

@[simp] theorem kept_modSens {n f} (h : Kept s₀ s) : Kept s₀ (modSens n f s) := kept_update h

@[simp] theorem kept_modGroup {g f} (h : Kept s₀ s) : Kept s₀ (modGroup g f s) := kept_update h

@[simp] theorem kept_offerSample {n p} (h : Kept s₀ s) : Kept s₀ (offerSample n p s) := by
  grind [offerSample, kept_offerToken, kept_foldl, kept_update]

@[simp] theorem kept_lateGroup {n p gi} (h : Kept s₀ s) : Kept s₀ (lateGroup n p gi s) := by
  grind [lateGroup, kept_fuseEvt, kept_modGroup, kept_foldl, kept_update]

@[simp] theorem kept_completeSample {n p payload} (h : Kept s₀ s) : Kept s₀ (completeSample n p payload s) := by
  grind [completeSample, kept_loopSample, kept_modSens, kept_offerSample, kept_lateGroup, kept_foldl, kept_update]

@[simp] theorem kept_discardSample {n seq} (h : Kept s₀ s) : Kept s₀ (discardSample n seq s) := kept_update h

@[simp] theorem kept_beginSample {n st} (h : Kept s₀ s) : Kept s₀ ((beginSample n st s).2) := by
  grind [beginSample, kept_modSens, kept_update]

/-! #### Machine/Sense -/

@[simp] theorem kept_modCsi {p f} (h : Kept s₀ s) : Kept s₀ (modCsi p f s) := kept_update h

@[simp] theorem kept_csiStart {n} (h : Kept s₀ s) : Kept s₀ (csiStart n s) := by
  grind [csiStart, kept_discardSample, kept_beginSample]

@[simp] theorem kept_csiLine {n dt px crcOk} (h : Kept s₀ s) : Kept s₀ (csiLine n dt px crcOk s) := by
  grind [csiLine, kept_modSens, kept_update]

@[simp] theorem kept_csiEnd {n} (h : Kept s₀ s) : Kept s₀ (csiEnd n s) := by
  grind [csiEnd, kept_modSens, kept_completeSample, kept_discardSample, kept_update]

@[simp] theorem kept_csiPacket {p k} (h : Kept s₀ s) : Kept s₀ (csiPacket p k s) := by
  unfold csiPacket
  grind [kept_latch, kept_modSens, kept_modCsi, kept_csiStart, kept_csiLine, kept_csiEnd, kept_foldl, kept_update]

@[simp] theorem kept_csiPacketRx {p corrected k} (h : Kept s₀ s) : Kept s₀ (csiPacketRx p corrected k s) := by
  grind [csiPacketRx, kept_modCsi, kept_csiPacket, kept_update]

@[simp] theorem kept_csiLinkLost {p} (h : Kept s₀ s) : Kept s₀ (csiLinkLost p s) := by
  grind [csiLinkLost, kept_modCsi, kept_update]

@[simp] theorem kept_flowSample {n st full} (h : Kept s₀ s) : Kept s₀ (flowSample n st full s) := by
  grind [flowSample, kept_modSens, kept_completeSample, kept_beginSample, kept_update]

@[simp] theorem kept_ethFrameRx {e f} (h : Kept s₀ s) : Kept s₀ (ethFrameRx e f s) := by
  grind [ethFrameRx, kept_hostRx, kept_modSens, kept_flowSample, kept_update]

@[simp] theorem kept_streamStall {n} (h : Kept s₀ s) : Kept s₀ (streamStall n s) := by
  grind [streamStall, kept_latch, kept_modSens, kept_update]

@[simp] theorem kept_ethLinkDown {e} (h : Kept s₀ s) : Kept s₀ (ethLinkDown e s) := by
  grind [ethLinkDown, kept_modEth, kept_latch, kept_update]

@[simp] theorem kept_ethLinkUp {e fast} (h : Kept s₀ s) : Kept s₀ (ethLinkUp e fast s) := by
  grind [ethLinkUp, kept_modEth, kept_update]

/-! #### Machine/Fuse -/

@[simp] theorem kept_openSlot {g k t} (h : Kept s₀ s) : Kept s₀ (openSlot g k t s) := kept_update h

@[simp] theorem kept_decideSlot {g fseq forced} (h : Kept s₀ s) : Kept s₀ (decideSlot g fseq forced s) := by
  grind [decideSlot, kept_traceEv, kept_drawFree, kept_modGroup, kept_update]

@[simp] theorem kept_memberDecide {g fseq i} (h : Kept s₀ s) : Kept s₀ (memberDecide g fseq i s) := by
  grind [memberDecide, kept_modGroup, kept_decideSlot, kept_update]

@[simp] theorem kept_slotWaitLimit {g fseq} (h : Kept s₀ s) : Kept s₀ (slotWaitLimit g fseq s) := by
  grind [slotWaitLimit, kept_decideSlot]

@[simp] theorem kept_slotOpen {g} (h : Kept s₀ s) : Kept s₀ (slotOpen g s) := by
  grind [slotOpen, kept_modGroup, kept_openSlot, kept_decideSlot, kept_update]

@[simp] theorem kept_projectionDone {g fseq} (h : Kept s₀ s) : Kept s₀ (projectionDone g fseq s) := by
  grind [projectionDone, kept_modGroup, kept_update]

@[simp] theorem kept_projectionRecompute {unit ok} (h : Kept s₀ s) : Kept s₀ (projectionRecompute unit ok s) := by
  grind [projectionRecompute, kept_latch, kept_update]

@[simp] theorem kept_penalize {g fseq i} (h : Kept s₀ s) : Kept s₀ (penalize g fseq i s) := by
  grind [penalize, kept_modGroup, kept_update]

@[simp] theorem kept_conflictPair {g kind fseq a b detail} (h : Kept s₀ s) : Kept s₀ (conflictPair g kind fseq a b detail s) := by
  grind [conflictPair, kept_fuseEvt, kept_modGroup, kept_penalize, kept_update]

@[simp] theorem kept_blockMember {g i} (h : Kept s₀ s) : Kept s₀ (blockMember g i s) := by
  grind [blockMember, kept_fuseEvt, kept_modGroup, kept_update]

@[simp] theorem kept_judgeConflicts {g} (h : Kept s₀ s) : Kept s₀ (judgeConflicts g s) := by
  grind [judgeConflicts, kept_latch, kept_modGroup, kept_blockMember, kept_foldl, kept_update]

@[simp] theorem kept_reportConflicts {g kind fseq cs} (h : Kept s₀ s) : Kept s₀ (reportConflicts g kind fseq cs s) := by
  grind [reportConflicts, kept_conflictPair, kept_judgeConflicts, kept_foldl]

@[simp] theorem kept_slotEmit {g fseq} (h : Kept s₀ s) : Kept s₀ (slotEmit g fseq s) := by
  unfold slotEmit
  dsimp only
  split
  · exact h
  · next f _ =>
    split
    · exact h
    · have h1 : Kept s₀ (((edgesFrom 3 (group g s).id s).filter (fun e => e.srcPort != 1)).foldl (fun a e => match slotToken f e s with
        | none => a
        | some tk => sendToken e.id tk a) s) := kept_foldl (fun a e ha => by
          split
          · exact ha
          · exact kept_sendToken ha) h
      refine kept_judgeConflicts ?_
      split
      · exact kept_modGroup h1
      · split
        · exact kept_openSlot (kept_modGroup (kept_modGroup h1))
        · exact kept_modGroup h1

@[simp] theorem kept_conflictSummary {e} (h : Kept s₀ s) : Kept s₀ (conflictSummary e s) := by
  grind [conflictSummary, kept_takeArriving, kept_reportConflicts]

@[simp] theorem kept_emitTable {g deg} (h : Kept s₀ s) : Kept s₀ (emitTable g deg s) := by
  grind [emitTable, kept_offerToken, kept_foldl, kept_update]

@[simp] theorem kept_processList {g fseq bs} (h : Kept s₀ s) : Kept s₀ (processList g fseq bs s) := by
  grind [processList, kept_modGroup, kept_reportConflicts, kept_emitTable, kept_foldl, kept_update]

@[simp] theorem kept_detectionList {e} (h : Kept s₀ s) : Kept s₀ (detectionList e s) := by
  grind [detectionList, kept_takeArriving, kept_emitTable, kept_processList]

@[simp] theorem kept_groupMove {g} (h : Kept s₀ s) : Kept s₀ (groupMove g s) := by
  grind [groupMove, kept_modGroup, kept_update]

@[simp] theorem kept_unblockMember {g i} (h : Kept s₀ s) : Kept s₀ (unblockMember g i s) := by
  grind [unblockMember, kept_fuseEvt, kept_modGroup, kept_judgeConflicts, kept_update]

/-! #### Machine/Ddr -/

@[simp] theorem kept_ringError {n seq} (h : Kept s₀ s) : Kept s₀ (ringError n seq s) := by
  grind [ringError, kept_drawFree, kept_modGroup, kept_foldl, kept_update]

@[simp] theorem kept_losePage {mem slot} (h : Kept s₀ s) : Kept s₀ (losePage mem slot s) := by
  grind [losePage, kept_modScene, kept_update]

@[simp] theorem kept_errorResponse {w line cause part} (h : Kept s₀ s) : Kept s₀ (errorResponse w line cause part s) := by
  unfold errorResponse
  grind [kept_setTrace, kept_voidTags, kept_disableStreams, kept_voidFiring, kept_ringError, kept_losePage, kept_update]

@[simp] theorem kept_refuse {a write w} (h : Kept s₀ s) : Kept s₀ (refuse a write w s) := by
  unfold refuse
  grind [kept_modPort, kept_latch, kept_errorResponse, kept_update]

@[simp] theorem kept_modWrites {ch f} (h : Kept s₀ s) : Kept s₀ (modWrites ch f s) := kept_update h

@[simp] theorem kept_enterRead {ch line w secure} (h : Kept s₀ s) : Kept s₀ (enterRead ch line w secure s) := by
  grind [enterRead, kept_modChan, kept_update]

@[simp] theorem kept_enterWrite {ch line bs w secure} (h : Kept s₀ s) : Kept s₀ (enterWrite ch line bs w secure s) := by
  grind [enterWrite, kept_modChan, kept_update]

@[simp] theorem kept_ddrEnter {a write w secure} (h : Kept s₀ s) : Kept s₀ (ddrEnter a write w secure s) := by
  unfold ddrEnter
  grind [kept_errorResponse, kept_refuse, kept_enterRead, kept_enterWrite]

theorem wf_foldl_wr8 {m : Mem} {base : Nat} {l : List (Nat × Byte)} (h : Memory.wf m = true) :
    Memory.wf (l.foldl (fun m x => wr8 m (base + x.1) x.2) m) = true := by
  induction l generalizing m with
  | nil => exact h
  | cons x r ih => exact ih (wf_wr8 h)

@[simp] theorem kept_issueWrite {ch b w} (h : Kept s₀ s) : Kept s₀ (issueWrite ch b w s) :=
  kept_write (kept_modChan h) rfl wf_foldl_wr8 id id id

@[simp] theorem kept_commandIssue {ch ready} (h : Kept s₀ s) : Kept s₀ (commandIssue ch ready s) := by
  grind [commandIssue, kept_modChan, kept_issueWrite, kept_update]

@[simp] theorem kept_ddrLog {ch line kind syms req errs} (h : Kept s₀ s) : Kept s₀ (ddrLog ch line kind syms req errs s) := by
  grind [ddrLog, kept_modChan, kept_update]

@[simp] theorem kept_ddrRaise {ch off line errs} (h : Kept s₀ s) : Kept s₀ (ddrRaise ch off line errs s) := kept_latch h

@[simp] theorem kept_countCe {ch line req errs} (h : Kept s₀ s) : Kept s₀ (countCe ch line req errs s) := by
  grind [countCe, kept_modChan, kept_ddrLog, kept_ddrRaise, kept_foldl, kept_update]

@[simp] theorem kept_xorLine {ch line mask} (h : Kept s₀ s) : Kept s₀ (xorLine ch line mask s) := by
  unfold xorLine
  grind [kept_write, wf_wrBytes]

@[simp] theorem kept_countUe {ch} (h : Kept s₀ s) : Kept s₀ (countUe ch s) := kept_update h

@[simp] theorem kept_requeueWaiters {ch line} (h : Kept s₀ s) : Kept s₀ (requeueWaiters ch line s) := by
  grind [requeueWaiters, kept_modChan, kept_update]

@[simp] theorem kept_decodeMerge {ch r errs} (h : Kept s₀ s) : Kept s₀ (decodeMerge ch r errs s) := by
  grind [decodeMerge, kept_modChan, kept_modWrites, kept_ddrLog, kept_countCe, kept_requeueWaiters, kept_update]

@[simp] theorem kept_decodeDemand {ch r errs} (h : Kept s₀ s) : Kept s₀ (decodeDemand ch r errs s) := by
  grind [decodeDemand, kept_errorResponse, kept_ddrLog, kept_ddrRaise, kept_countCe, kept_xorLine, kept_countUe]

@[simp] theorem kept_readDecode {ch errs} (h : Kept s₀ s) : Kept s₀ (readDecode ch errs s) := by
  grind [readDecode, kept_modChan, kept_decodeMerge, kept_decodeDemand, kept_update]

@[simp] theorem kept_scrubNext {ch} (h : Kept s₀ s) : Kept s₀ (scrubNext ch s) := by
  grind [scrubNext, kept_modChan, kept_update]

@[simp] theorem kept_scrubRead {ch errs} (h : Kept s₀ s) : Kept s₀ (scrubRead ch errs s) := by
  grind [scrubRead, kept_modChan, kept_ddrLog, kept_ddrRaise, kept_countCe, kept_xorLine, kept_countUe, kept_scrubNext,
    kept_update]

@[simp] theorem kept_caParity {ch back} (h : Kept s₀ s) : Kept s₀ (caParity ch back s) := by
  grind [caParity, kept_modChan, kept_ddrLog, kept_ddrRaise, kept_update]

@[simp] theorem kept_writeCrc {ch line} (h : Kept s₀ s) : Kept s₀ (writeCrc ch line s) := by
  grind [writeCrc, kept_modChan, kept_modWrites, kept_ddrLog, kept_ddrRaise, kept_update]

@[simp] theorem kept_controllerParity {ch} (h : Kept s₀ s) : Kept s₀ (controllerParity ch s) := by
  grind [controllerParity, kept_latch]

@[simp] theorem kept_refreshDue {ch} (h : Kept s₀ s) : Kept s₀ (refreshDue ch s) := by
  grind [refreshDue, kept_modChan, kept_update]

@[simp] theorem kept_refreshWatchdog {ch} (h : Kept s₀ s) : Kept s₀ (refreshWatchdog ch s) := by
  grind [refreshWatchdog, kept_latch]

@[simp] theorem kept_tempRead {ch deg} (h : Kept s₀ s) : Kept s₀ (tempRead ch deg s) := by
  grind [tempRead, kept_modChan, kept_settle, kept_update]

@[simp] theorem kept_zqcs {ch} (h : Kept s₀ s) : Kept s₀ (zqcs ch s) := by
  grind [zqcs, kept_modChan, kept_update]

@[simp] theorem kept_powerDown {ch} (h : Kept s₀ s) : Kept s₀ (powerDown ch s) := by
  grind [powerDown, kept_modChan, kept_update]

@[simp] theorem kept_selfRefresh {ch} (h : Kept s₀ s) : Kept s₀ (selfRefresh ch s) := by
  grind [selfRefresh, kept_modChan, kept_powerDown, kept_update]

@[simp] theorem kept_trainingDone {ch ok seeds step device us} (h : Kept s₀ s) : Kept s₀ (trainingDone ch ok seeds step device us s) := by
  grind [trainingDone, kept_modChan, kept_latch, kept_stopStart, kept_update]

@[simp] theorem kept_isolateChannel {ch} (h : Kept s₀ s) : Kept s₀ (isolateChannel ch s) := by
  grind [isolateChannel, kept_modChan, kept_errorResponse, kept_foldl, kept_update]

/-! #### Machine/Attach -/

@[simp] theorem kept_failReads {p src flight} (h : Kept s₀ s) : Kept s₀ (failReads p src flight s) := by
  grind [failReads, kept_latch, kept_errorResponse, kept_foldl]

@[simp] theorem kept_flushRecord (h : Kept s₀ s) : Kept s₀ (flushRecord s) := by
  grind [flushRecord, kept_hostWr, kept_update]

@[simp] theorem kept_linkUp {p} (h : Kept s₀ s) : Kept s₀ (linkUp p s) := by
  grind [linkUp, kept_modPort, kept_flushRecord, kept_update]

@[simp] theorem kept_goDown {p orderly flight} (h : Kept s₀ s) : Kept s₀ (goDown p orderly flight s) := by
  grind [goDown, kept_modPort, kept_latch, kept_failReads, kept_update]

@[simp] theorem kept_rewriteRing {st} (h : Kept s₀ s) : Kept s₀ (rewriteRing st s) := by
  grind [rewriteRing, kept_hostWr, kept_sendVec, kept_foldl]

@[simp] theorem kept_failover {p} (h : Kept s₀ s) : Kept s₀ (failover p s) := by
  grind [failover, kept_modPort, kept_attachVec, kept_flushRecord, kept_rewriteRing, kept_foldl, kept_update]

@[simp] theorem kept_cmdRej (h : Kept s₀ s) : Kept s₀ (cmdRej s) := kept_update h

@[simp] theorem kept_unredirect (h : Kept s₀ s) : Kept s₀ (unredirect s) := by
  grind [unredirect, kept_modPort, kept_cmdRej, kept_update]

@[simp] theorem kept_perstAssert {p flight} (h : Kept s₀ s) : Kept s₀ (perstAssert p flight s) := kept_modPort (kept_goDown h)

@[simp] theorem kept_perstDeassert {p} (h : Kept s₀ s) : Kept s₀ (perstDeassert p s) := by
  grind [perstDeassert, kept_modPort, kept_wake, kept_update]

@[simp] theorem kept_d3Entry {p flight} (h : Kept s₀ s) : Kept s₀ (d3Entry p flight s) := by
  grind [d3Entry, kept_modPort, kept_failReads, kept_update]

@[simp] theorem kept_d3Exit {p} (h : Kept s₀ s) : Kept s₀ (d3Exit p s) := by
  grind [d3Exit, kept_modPort, kept_flushRecord, kept_update]

@[simp] theorem kept_readCompletion {p who status} (h : Kept s₀ s) : Kept s₀ (readCompletion p who status s) := by
  grind [readCompletion, kept_failReads]

@[simp] theorem kept_completionTimeout {p who} (h : Kept s₀ s) : Kept s₀ (completionTimeout p who s) := kept_failReads h

@[simp] theorem kept_msixUnmask {p v} (h : Kept s₀ s) : Kept s₀ (msixUnmask p v s) := by
  grind [msixUnmask, kept_modPort, kept_update]

@[simp] theorem kept_lineWrite {a bs line} (h : Kept s₀ s) : Kept s₀ (lineWrite a bs line s) := by
  grind [lineWrite, kept_modChan, kept_devWr, kept_ddrLog, kept_update]

@[simp] theorem kept_hostRead {p a len} (h : Kept s₀ s) : Kept s₀ (hostRead p a len s) := by
  grind [hostRead, kept_ddrLog, kept_ddrRaise, kept_countUe, kept_update]

@[simp] theorem kept_bar2Access {p off write len ok} (h : Kept s₀ s) : Kept s₀ (bar2Access p off write len ok s) := by
  grind [bar2Access, kept_latch, kept_refuse, kept_lineWrite, kept_hostRead, kept_foldl]

@[simp] theorem kept_quiesce (h : Kept s₀ s) : Kept s₀ (quiesce s) := by
  grind [quiesce, kept_settle, kept_voidWhere, kept_cmdRej, kept_update]

@[simp] theorem kept_quiesceLimit (h : Kept s₀ s) : Kept s₀ (quiesceLimit s) := by
  grind [quiesceLimit, kept_settle, kept_voidAll]

@[simp] theorem kept_quiesceComplete (h : Kept s₀ s) : Kept s₀ (quiesceComplete s) := by
  grind [quiesceComplete, kept_attachVec, kept_flushRecord, kept_update]

@[simp] theorem kept_resume (h : Kept s₀ s) : Kept s₀ (resume s) := by
  grind [resume, kept_update]

@[simp] theorem kept_join (h : Kept s₀ s) : Kept s₀ (join s) := by
  grind [join, kept_cmdRej, kept_update]

@[simp] theorem kept_restartRequest (h : Kept s₀ s) : Kept s₀ (restartRequest s) := by
  grind [restartRequest, kept_restart, kept_cmdRej]

@[simp] theorem kept_attachRestart {key} (h : Kept s₀ s) : Kept s₀ (attachRestart key s) := by
  grind [attachRestart, kept_restartRequest]

/-! #### Machine/Crown -/

@[simp] theorem kept_modCrown {f} (h : Kept s₀ s) : Kept s₀ (modCrown f s) := kept_update h

@[simp] theorem kept_crownLatch {idx} (h : Kept s₀ s) : Kept s₀ (crownLatch idx s) := kept_latch h

@[simp] theorem kept_retainRequest (h : Kept s₀ s) : Kept s₀ (retainRequest s) := by
  grind [retainRequest, kept_update]

@[simp] theorem kept_pwrCtrlWrite {v} (h : Kept s₀ s) : Kept s₀ (pwrCtrlWrite v s) := by
  grind [pwrCtrlWrite, kept_latchWrite, kept_retainRequest, kept_update]

@[simp] theorem kept_dropLink {p} (h : Kept s₀ s) : Kept s₀ (dropLink p s) := kept_modPort h

@[simp] theorem kept_lifeLogWrite (h : Kept s₀ s) : Kept s₀ (lifeLogWrite s) := by
  grind [lifeLogWrite, kept_modFlash, kept_update]

@[simp] theorem kept_retainEntered (h : Kept s₀ s) : Kept s₀ (retainEntered s) := by
  unfold retainEntered
  split
  · exact h
  · dsimp only
    split
    · exact kept_wake (kept_settle (kept_dropLink (kept_dropLink (kept_update (kept_mapMittens (kept_lifeLogWrite h))))))
    · exact kept_settle (kept_dropLink (kept_dropLink (kept_update (kept_mapMittens (kept_lifeLogWrite h)))))

@[simp] theorem kept_retainWakeStamp (h : Kept s₀ s) : Kept s₀ (retainWakeStamp s) := by
  grind [retainWakeStamp, kept_wake]

@[simp] theorem kept_backstop (h : Kept s₀ s) : Kept s₀ (backstop s) := by
  grind [backstop, kept_modCrown, kept_crownLatch, kept_update]

@[simp] theorem kept_powerSample {mw} (h : Kept s₀ s) : Kept s₀ (powerSample mw s) := by
  grind [powerSample, kept_modCrown, kept_backstop, kept_update]

@[simp] theorem kept_throttleUpdate {above forecast} (h : Kept s₀ s) : Kept s₀ (throttleUpdate above forecast s) := by
  grind [throttleUpdate, kept_mapMittens, kept_modCrown, kept_update]

@[simp] theorem kept_coolTrack (h : Kept s₀ s) : Kept s₀ (coolTrack s) := by
  grind [coolTrack, kept_modCrown, kept_update]

@[simp] theorem kept_coolCritical (h : Kept s₀ s) : Kept s₀ (coolCritical s) := by
  grind [coolCritical, kept_settle, kept_modCrown, kept_crownLatch, kept_update]

@[simp] theorem kept_coolQuiesced (h : Kept s₀ s) : Kept s₀ (coolQuiesced s) := by
  grind [coolQuiesced, kept_settle, kept_voidAll, kept_mapMittens, kept_modCrown, kept_update]

@[simp] theorem kept_coolExit (h : Kept s₀ s) : Kept s₀ (coolExit s) := by
  grind [coolExit, kept_settle, kept_modCrown, kept_update]

@[simp] theorem kept_readPair {x} (h : Kept s₀ s) : Kept s₀ (readPair x s) := by
  grind [readPair, kept_latch, kept_modCrown, kept_update]

@[simp] theorem kept_thermalRead {rs} (h : Kept s₀ s) : Kept s₀ (thermalRead rs s) := by
  grind [thermalRead, kept_modCrown, kept_coolTrack, kept_coolCritical, kept_readPair, kept_foldl, kept_update]

@[simp] theorem kept_shadowTakeover (h : Kept s₀ s) : Kept s₀ (shadowTakeover s) := by
  grind [shadowTakeover, kept_settle, kept_modCrown, kept_update]

@[simp] theorem kept_trayRules (h : Kept s₀ s) : Kept s₀ (trayRules s) := by
  grind [trayRules, kept_settle, kept_modCrown, kept_crownLatch, kept_coolTrack, kept_coolCritical, kept_update]

@[simp] theorem kept_trayRead {ack bs} (h : Kept s₀ s) : Kept s₀ (trayRead ack bs s) := by
  grind [trayRead, kept_modCrown, kept_trayRules, kept_update]

@[simp] theorem kept_trayWrite {ok} (h : Kept s₀ s) : Kept s₀ (trayWrite ok s) := by
  grind [trayWrite, kept_modCrown, kept_update]

@[simp] theorem kept_trayStale (h : Kept s₀ s) : Kept s₀ (trayStale s) := by
  grind [trayStale, kept_settle, kept_modCrown, kept_crownLatch, kept_update]

@[simp] theorem kept_coolantLowClear (h : Kept s₀ s) : Kept s₀ (coolantLowClear s) := by
  grind [coolantLowClear, kept_modCrown, kept_update]

@[simp] theorem kept_lifeMinute (h : Kept s₀ s) : Kept s₀ (lifeMinute s) := by
  grind [lifeMinute, kept_modCrown, kept_update]

@[simp] theorem kept_ageingRead {k d} (h : Kept s₀ s) : Kept s₀ (ageingRead k d s) := by
  grind [ageingRead, kept_modCrown, kept_update]

theorem kept_restoreLife (h : Kept s₀ s) : Kept s₀ (restoreLife s) := by
  grind [restoreLife, kept_modCrown]

@[simp] theorem kept_readCal (h : Kept s₀ s) : Kept s₀ (readCal s) := by
  have h1 := kept_restoreLife h
  unfold readCal
  generalize restoreLife s = s1 at h1
  exact kept_update (kept_setRate (kept_modCrown h1))

@[simp] theorem kept_crownCfgBusy (h : Kept s₀ s) : Kept s₀ (crownCfgBusy s) := kept_update h

@[simp] theorem kept_calWrite {v} (h : Kept s₀ s) : Kept s₀ (calWrite v s) := by
  grind [calWrite, kept_rwWrite, kept_modCrown, kept_crownCfgBusy, kept_update]

@[simp] theorem kept_calDone {ok} (h : Kept s₀ s) : Kept s₀ (calDone ok s) := by
  grind [calDone, kept_modFlash, kept_modCrown, kept_update]

/-! #### Machine/Seal -/

@[simp] theorem kept_modStores {f} (h : Kept s₀ s) : Kept s₀ (modStores f s) := kept_update h

@[simp] theorem kept_commitStores {f} (h : Kept s₀ s) : Kept s₀ (commitStores f s) := kept_update h

@[simp] theorem kept_takeCounter {n c} (h : Kept s₀ s) : Kept s₀ (takeCounter n c s) := by
  grind [takeCounter, kept_modStores, kept_update]

theorem kept_sealedRun {f : List Byte → State → Answer} (hf : ∀ b z, Kept s₀ z → Kept s₀ (f b z).2.2) {kind body m} (h : Kept s₀ s) :
    Kept s₀ (sealedRun kind body m s f).2.2.2 := by
  unfold sealedRun
  split
  · exact h
  · exact hf _ _ (kept_takeCounter h)

theorem kept_plainRun {f : List Byte → State → Answer} (hf : ∀ b z, Kept s₀ z → Kept s₀ (f b z).2.2) {body m} (h : Kept s₀ s) :
    Kept s₀ (plainRun body m s f).2.2.2 := by
  unfold plainRun
  split
  · exact h
  · exact hf _ _ h

/-! #### Machine/Boot -/

theorem kept_of_mergeStores {u} (h : Kept s₀ s) (hm : mergeStores s = some u) : Kept s₀ u := by
  unfold mergeStores at hm
  grind [kept_modStores, kept_update]

@[simp] theorem kept_bootRom (h : Kept s₀ s) : Kept s₀ (bootRom s) := by
  unfold bootRom
  grind [kept_stopStart, kept_of_mergeStores, kept_update]

@[simp] theorem kept_applyOwner {n bs} (h : Kept s₀ s) : Kept s₀ (applyOwner n bs s) :=
  kept_modIsland (kept_modIsland (kept_modColl (kept_modColl (kept_update h))))

@[simp] theorem kept_firmwareSelect {ok} (h : Kept s₀ s) : Kept s₀ (firmwareSelect ok s) := by
  unfold firmwareSelect
  grind [kept_latchBoth, kept_settle, kept_modFlash, kept_stopStart, kept_readCal, kept_applyOwner, kept_update]

@[simp] theorem kept_mgmtSend {i dst mtag bs} (h : Kept s₀ s) : Kept s₀ (mgmtSend i dst mtag bs s) := kept_update h

@[simp] theorem kept_mgmtAnswer {i g r} (h : Kept s₀ r.2.2.2) : Kept s₀ (mgmtAnswer i g r) :=
  kept_mgmtSend (kept_modIsland h)

@[simp] theorem kept_mgmtComplete {i g} (h : Kept s₀ s) : Kept s₀ (mgmtComplete i g s) := by
  unfold mgmtComplete
  grind [MbxWf, kept_modIsland, kept_mgmtAnswer, kept_update]

@[simp] theorem kept_mgmtFragment {i src dst bytes} (h : Kept s₀ s) : Kept s₀ (mgmtFragment i src dst bytes s) := by
  unfold mgmtFragment
  grind [MbxWf, kept_modIsland, kept_mgmtComplete, kept_update]

@[simp] theorem kept_mgmtTimeout {i} (h : Kept s₀ s) : Kept s₀ (mgmtTimeout i s) := by
  unfold mgmtTimeout
  split
  · exact h
  · split
    · exact kept_modIsland h
    · exact h

theorem kept_mgmtDo {f : List Byte → State → Option Seal × Answer} (hf : ∀ m z, Kept s₀ z → Kept s₀ (f m z).2.2.2)
    {i cmd} (h : Kept s₀ s) : Kept s₀ (mgmtDo i cmd s f) := by
  unfold mgmtDo
  grind [kept_mgmtAnswer]

@[simp] theorem kept_mgmtIdentity {i} (h : Kept s₀ s) : Kept s₀ (mgmtIdentity i s) := by
  grind [mgmtIdentity, kept_plainRun, kept_mgmtDo]

@[simp] theorem kept_mgmtAttest {i} (h : Kept s₀ s) : Kept s₀ (mgmtAttest i s) := by
  grind [mgmtAttest, kept_plainRun, kept_mgmtDo]

@[simp] theorem kept_enroll {b} (h : Kept s₀ s) : Kept s₀ ((enroll b s).2.2) := by
  grind [enroll, kept_commitStores, kept_update]

@[simp] theorem kept_mgmtEnroll {i} (h : Kept s₀ s) : Kept s₀ (mgmtEnroll i s) := by
  grind [mgmtEnroll, kept_sealedRun, kept_plainRun, kept_mgmtDo, kept_enroll]

@[simp] theorem kept_revoke {b} (h : Kept s₀ s) : Kept s₀ ((revoke b s).2.2) := by
  grind [revoke, kept_commitStores, kept_update]

@[simp] theorem kept_mgmtRevoke {i} (h : Kept s₀ s) : Kept s₀ (mgmtRevoke i s) := by
  grind [mgmtRevoke, kept_sealedRun, kept_mgmtDo, kept_revoke]

@[simp] theorem kept_setFloor {b} (h : Kept s₀ s) : Kept s₀ ((setFloor b s).2.2) := by
  grind [setFloor, kept_commitStores, kept_update]

@[simp] theorem kept_mgmtSetFloor {i} (h : Kept s₀ s) : Kept s₀ (mgmtSetFloor i s) := by
  grind [mgmtSetFloor, kept_sealedRun, kept_mgmtDo, kept_setFloor]

@[simp] theorem kept_mgmtFlash {i cmd body start} (h : Kept s₀ s) : Kept s₀ (mgmtFlash i cmd body s start) := by
  unfold mgmtFlash
  split
  · exact h
  · split
    · exact h
    · split
      · exact kept_mgmtAnswer h
      · dsimp only
        split
        · exact kept_mgmtAnswer (kept_takeCounter h)
        · exact kept_modIsland (kept_update (kept_takeCounter h))

@[simp] theorem kept_mgmtFirmware {i} (h : Kept s₀ s) : Kept s₀ (mgmtFirmware i s) := by
  grind [mgmtFirmware, kept_mgmtFlash]

@[simp] theorem kept_mgmtStore {i} (h : Kept s₀ s) : Kept s₀ (mgmtStore i s) := by
  grind [mgmtStore, kept_mgmtFlash]

@[simp] theorem kept_flashDone {ok} (h : Kept s₀ s) : Kept s₀ (flashDone ok s) := by
  grind [flashDone, kept_mgmtSend, kept_update]

/-! #### Machine/Ledger -/

@[simp] theorem kept_slotByte {port w slot o b} (h : Kept s₀ s) : Kept s₀ (slotByte port w slot o b s) := by
  grind [slotByte, kept_update]

@[simp] theorem kept_windowBytes {port off bs} (h : Kept s₀ s) : Kept s₀ (windowBytes port off bs s) := by
  induction bs generalizing off s with
  | nil => exact h
  | cons b r ih => exact ih (kept_slotByte h)

@[simp] theorem kept_bar4Write {port off bytes ok} (h : Kept s₀ s) : Kept s₀ (bar4Write port off bytes ok s) := by
  grind [bar4Write, kept_latch, kept_windowBytes, kept_update]

@[simp] theorem kept_releaseHeld (h : Kept s₀ s) : Kept s₀ (releaseHeld s) := by
  grind [releaseHeld, kept_windowBytes, kept_update]

@[simp] theorem kept_judgeLanding {l} (h : Kept s₀ s) : Kept s₀ (judgeLanding l s) := by
  grind [judgeLanding, kept_writeReceipt, kept_acceptTicket, kept_ackTicket]

@[simp] theorem kept_ticketVerdict {home} (h : Kept s₀ s) : Kept s₀ (ticketVerdict home s) := by
  grind [ticketVerdict, kept_releaseHeld, kept_judgeLanding, kept_update]

@[simp] theorem kept_mirrorAck {st q} (h : Kept s₀ s) : Kept s₀ (mirrorAck st q s) := by
  grind [mirrorAck, kept_modTicket, kept_ackTicket, kept_update]

@[simp] theorem kept_injectDesc {x tg d} (h : Kept s₀ s) : Kept s₀ (injectDesc x tg d s) := by
  grind [injectDesc, kept_sendToken, kept_update]

@[simp] theorem kept_ticketInject {st} (h : Kept s₀ s) : Kept s₀ (ticketInject st s) := by
  grind [ticketInject, kept_latch, kept_settle, kept_modTicket, kept_voidTags, kept_injectDesc, kept_foldl, kept_update]

@[simp] theorem kept_deadlineDrop {st q} (h : Kept s₀ s) : Kept s₀ (deadlineDrop st q s) := by
  unfold deadlineDrop
  grind [kept_settle, kept_modTicket, kept_watchEnd, kept_update]

@[simp] theorem kept_ticketEnded {st q} (h : Kept s₀ s) : Kept s₀ (ticketEnded st q s) := by
  grind [ticketEnded, kept_settle, kept_endTicket]

@[simp] theorem kept_budgetOutcome {k} (h : Kept s₀ s) : Kept s₀ (budgetOutcome k s) := by
  grind [budgetOutcome, kept_update]

@[simp] theorem kept_outcomeDeliver {st} (h : Kept s₀ s) : Kept s₀ (outcomeDeliver st s) := by
  grind [outcomeDeliver, kept_deliverOutcome, kept_budgetOutcome]

@[simp] theorem kept_outcomeIrqTimer {st} (h : Kept s₀ s) : Kept s₀ (outcomeIrqTimer st s) := by
  grind [outcomeIrqTimer, kept_sendVec, kept_modStrm, kept_update]

@[simp] theorem kept_consumeOutcomes {st n} (h : Kept s₀ s) : Kept s₀ (consumeOutcomes st n s) := kept_update h

@[simp] theorem kept_consWrite {st v} (h : Kept s₀ s) : Kept s₀ (consWrite st v s) := by
  unfold consWrite
  exact kept_ite (kept_modStrm (kept_consumeOutcomes h)) (kept_latchWrite (kept_modStrm h))

@[simp] theorem kept_takeBack {k} (h : Kept s₀ s) : Kept s₀ (takeBack k s) := by
  grind [takeBack, kept_modStrm, kept_update]

@[simp] theorem kept_ledgerTakeover {d} (h : Kept s₀ s) : Kept s₀ (ledgerTakeover d s) := by
  unfold ledgerTakeover
  grind [kept_settle, kept_modStrm, kept_setTickets, kept_voidWhere, kept_ackTicket, kept_takeBack, kept_foldl, kept_update]

/-! #### Machine/Plan -/

@[simp] theorem kept_modPdie {d f} (h : Kept s₀ s) : Kept s₀ (modPdie d f s) := by
  grind [modPdie, kept_update]

@[simp] theorem kept_mapReqs {f} (h : Kept s₀ s) : Kept s₀ (mapReqs f s) := kept_update h

@[simp] theorem kept_markTags {deg stale tags} (h : Kept s₀ s) : Kept s₀ (markTags deg stale tags s) := by
  grind [markTags, kept_mapTickets, kept_update]

@[simp] theorem kept_releaseToken {e} (h : Kept s₀ s) : Kept s₀ (releaseToken e s) := kept_update h

@[simp] theorem kept_planToken {g k} (h : Kept s₀ s) : Kept s₀ (planToken g k s) := by
  grind [planToken, kept_modEdge, kept_modPdie, kept_update]

@[simp] theorem kept_popUpdate {d e} (h : Kept s₀ s) : Kept s₀ (popUpdate d e s) := by
  grind [popUpdate, kept_modPdie, kept_releaseToken, kept_update]

@[simp] theorem kept_mapBuilt {d used} (h : Kept s₀ s) : Kept s₀ (mapBuilt d used s) := by
  unfold mapBuilt
  grind [kept_latch, kept_refuse, kept_modPdie, kept_markTags, kept_popUpdate, kept_update]

@[simp] theorem kept_mapCommit {d} (h : Kept s₀ s) : Kept s₀ (mapCommit d s) := by
  grind [mapCommit, kept_traceEv, kept_modPdie, kept_update]

@[simp] theorem kept_releaseEpochs (h : Kept s₀ s) : Kept s₀ (releaseEpochs s) := by
  grind [releaseEpochs, kept_modPdie, kept_update]

@[simp] theorem kept_keepLive {v d} (h : Kept s₀ s) : Kept s₀ (keepLive v d s) := by
  grind [keepLive, kept_modPdie, kept_update]

@[simp] theorem kept_setReq {i r} (h : Kept s₀ s) : Kept s₀ (setReq i r s) := kept_update h

@[simp] theorem kept_requestStart (h : Kept s₀ s) : Kept s₀ (requestStart s) := by
  grind [requestStart, kept_keepLive, kept_setReq, kept_update]

@[simp] theorem kept_countTests {slices js} (h : Kept s₀ s) : Kept s₀ (countTests slices js s) := by
  grind [countTests, kept_modPdie, kept_foldl, kept_update]

@[simp] theorem kept_countHeap {slices} {h' : HSearch} (h : Kept s₀ s) : Kept s₀ (countHeap slices h' s) := by
  unfold countHeap
  split
  · exact h
  · exact kept_modPdie h

@[simp] theorem kept_searchEnd {i} (h : Kept s₀ s) : Kept s₀ (searchEnd i s) := by
  unfold searchEnd
  grind [kept_setReq, kept_countTests, kept_countHeap]

@[simp] theorem kept_endEarly {i done expansions ended} (h : Kept s₀ s) : Kept s₀ (endEarly i done expansions ended s) := by
  unfold endEarly
  grind [kept_setReq, kept_countTests, kept_countHeap]

@[simp] theorem kept_planDeadline {i done expansions} (h : Kept s₀ s) : Kept s₀ (planDeadline i done expansions s) := by
  grind [planDeadline, kept_setReq, kept_endEarly, kept_update]

@[simp] theorem kept_resultSend {ch} (h : Kept s₀ s) : Kept s₀ (resultSend ch s) := by
  unfold resultSend
  split
  · exact h
  · split
    · exact h
    · dsimp only
      split
      · exact h
      · exact kept_releaseEpochs (kept_modPdie (kept_update
          (kept_releaseToken (kept_markTags (kept_foldl (fun _ _ => kept_sendToken) h)))))

@[simp] theorem kept_plannerTest {n ok} (h : Kept s₀ s) : Kept s₀ (plannerTest n ok s) := by
  grind [plannerTest, kept_latch]

@[simp] theorem kept_reqLost {lost i} (h : Kept s₀ s) : Kept s₀ (reqLost lost i s) := by
  grind [reqLost, kept_drawFree, kept_setReq, kept_endEarly, kept_update]

@[simp] theorem kept_slicesLost {lost} (h : Kept s₀ s) : Kept s₀ (slicesLost lost s) := by
  grind [slicesLost, kept_reqLost, kept_foldl]

@[simp] theorem kept_heapError {n} (h : Kept s₀ s) : Kept s₀ (heapError n s) := by
  grind [heapError, kept_drawFree, kept_setReq, kept_endEarly, kept_foldl, kept_update]

@[simp] theorem kept_poisonMap {d tl bx bY} (h : Kept s₀ s) : Kept s₀ (poisonMap d tl bx bY s) := by
  grind [poisonMap, kept_modPdie, kept_mapReqs, kept_update]

@[simp] theorem kept_planDieLost {d} (h : Kept s₀ s) : Kept s₀ (planDieLost d s) := by
  grind [planDieLost, kept_modPdie, kept_releaseToken, kept_slicesLost, kept_foldl]

@[simp] theorem kept_planEpoch0 (h : Kept s₀ s) : Kept s₀ (planEpoch0 s) := kept_update h

/-! #### Machine/Island -/

@[simp] theorem kept_emptyWindows {i} (h : Kept s₀ s) : Kept s₀ (emptyWindows i s) := kept_update h

@[simp] theorem kept_goSilent {i} (h : Kept s₀ s) : Kept s₀ (goSilent i s) := by
  unfold goSilent
  grind [MbxWf, kept_latch, kept_settle, kept_modColl, kept_modIsland, kept_emptyWindows, kept_update]

@[simp] theorem kept_heartbeatCheck {i} (h : Kept s₀ s) : Kept s₀ (heartbeatCheck i s) := by
  unfold heartbeatCheck
  split
  · exact h
  · split
    · exact kept_modIsland h
    · split
      · exact kept_latch (kept_modIsland h)
      · exact h

@[simp] theorem kept_voterMismatch {i minority} (h : Kept s₀ s) : Kept s₀ (voterMismatch i minority s) := by
  unfold voterMismatch
  grind [MbxWf, kept_latch, kept_modIsland, kept_goSilent, kept_update]

@[simp] theorem kept_coreTestStart {i} (h : Kept s₀ s) : Kept s₀ (coreTestStart i s) := by
  unfold coreTestStart
  grind [MbxWf, kept_modIsland, kept_update]

@[simp] theorem kept_coreTestDone {i failed} (h : Kept s₀ s) : Kept s₀ (coreTestDone i failed s) := by
  unfold coreTestDone
  grind [MbxWf, kept_latch, kept_modIsland, kept_goSilent, kept_update]

@[simp] theorem kept_voterInjection {i ok} (h : Kept s₀ s) : Kept s₀ (voterInjection i ok s) := by
  grind [voterInjection, kept_goSilent]

@[simp] theorem kept_checkerInjection {i kind caught} (h : Kept s₀ s) : Kept s₀ (checkerInjection i kind caught s) := by
  grind [checkerInjection, kept_latch, kept_goSilent]

@[simp] theorem kept_modCheck {c f} (h : Kept s₀ s) : Kept s₀ (modCheck c f s) := kept_update h

@[simp] theorem kept_checkToken {e} (h : Kept s₀ s) : Kept s₀ (checkToken e s) := by
  unfold checkToken
  grind [kept_modEdge, kept_modCheck, kept_update]

@[simp] theorem kept_suspectTags {id tags} (h : Kept s₀ s) : Kept s₀ (suspectTags id tags s) := by
  grind [suspectTags, kept_mapTickets, kept_update]

@[simp] theorem kept_isolateQuad {q src} (h : Kept s₀ s) : Kept s₀ (isolateQuad q src s) := by
  grind [isolateQuad, kept_update]

@[simp] theorem kept_requestWithdraw {q} (h : Kept s₀ s) : Kept s₀ (requestWithdraw q s) := by
  grind [requestWithdraw, kept_update]

@[simp] theorem kept_reachK {i c} (h : Kept s₀ s) : Kept s₀ (reachK i c s) := by
  grind [reachK, kept_modSrc, kept_latch, kept_isolateQuad, kept_requestWithdraw, kept_update]

@[simp] theorem kept_pushWindow {i c e} (h : Kept s₀ s) : Kept s₀ (pushWindow i c e s) := by
  grind [pushWindow, kept_modCheck, kept_reachK, kept_update]

@[simp] theorem kept_freeFrame {c f} (h : Kept s₀ s) : Kept s₀ (freeFrame c f s) := by
  grind [freeFrame, kept_modEdge, kept_modCheck, kept_foldl, kept_update]

@[simp] theorem kept_closeFrame {c f} (h : Kept s₀ s) : Kept s₀ (closeFrame c f s) := kept_modCheck (kept_freeFrame h)

@[simp] theorem kept_applyVerdict {i c f v} (h : Kept s₀ s) : Kept s₀ (applyVerdict i c f v s) := by
  unfold applyVerdict
  grind [kept_modCheck, kept_suspectTags, kept_pushWindow, kept_closeFrame, kept_update]

@[simp] theorem kept_checkVerdict {c} (h : Kept s₀ s) : Kept s₀ (checkVerdict c s) := by
  grind [checkVerdict, kept_applyVerdict]

@[simp] theorem kept_verdictTimeout {c} (h : Kept s₀ s) : Kept s₀ (verdictTimeout c s) := by
  grind [verdictTimeout, kept_applyVerdict]

@[simp] theorem kept_putMrt {bs i} (h : Kept s₀ s) : Kept s₀ (putMrt bs i s) := by
  unfold putMrt
  grind [MbxWf, kept_modIsland, kept_update]

@[simp] theorem kept_mrtToken {e} (h : Kept s₀ s) : Kept s₀ (mrtToken e s) := by
  unfold mrtToken
  grind [MbxWf, kept_takeArriving, kept_modIsland, kept_putMrt, kept_update]

@[simp] theorem kept_mrtAged {i} (h : Kept s₀ s) : Kept s₀ (mrtAged i s) := by
  unfold mrtAged
  grind [MbxWf, kept_latch, kept_modIsland, kept_update]

@[simp] theorem kept_deadlineMiss {st q} (h : Kept s₀ s) : Kept s₀ (deadlineMiss st q s) := by
  grind [deadlineMiss, kept_traceEv, kept_latch, kept_modTicket, kept_watchPush, kept_update]

theorem kept_modMbx {i} {f : Mailbox → Mailbox} (h : Kept s₀ s) (hf : ∀ m, Memory.wf m.inBuf = true ∧ Memory.wf m.outBuf = true →
      Memory.wf (f m).inBuf = true ∧ Memory.wf (f m).outBuf = true) : Kept s₀ (modMbx i f s) :=
  kept_modIsland h (fun x => hf x.mbx)

@[simp] theorem kept_mbxAnswer {i m r} (h : Kept s₀ r.2.2.2) : Kept s₀ (mbxAnswer i m r) := by
  unfold mbxAnswer
  grind [kept_modMbx, kept_sendVec, wf_wrBytes, wf_nil]

@[simp] theorem kept_mbxSend {i} (h : Kept s₀ s) : Kept s₀ (mbxSend i s) := by
  grind [mbxSend, kept_modMbx, kept_mbxAnswer, kept_update]

theorem kept_mbxDo {f : List Byte → State → Option Seal × Answer} (hf : ∀ m z, Kept s₀ z → Kept s₀ (f m z).2.2.2)
    {i cmd} (h : Kept s₀ s) : Kept s₀ (mbxDo i cmd s f) := by
  unfold mbxDo
  grind [kept_mbxAnswer]

theorem kept_mbxSealed {f : List Byte → State → Answer} (hf : ∀ b z, Kept s₀ z → Kept s₀ (f b z).2.2)
    {i cmd body} (h : Kept s₀ s) : Kept s₀ (mbxSealed i cmd body s f) :=
  kept_mbxDo (fun m z hz => by
    split
    · exact kept_sealedRun hf hz
    · exact hz) h

@[simp] theorem kept_mbxStatus {i} (h : Kept s₀ s) : Kept s₀ (mbxStatus i s) := by
  grind [mbxStatus, kept_plainRun, kept_mbxDo]

@[simp] theorem kept_mbxMrtGet {i} (h : Kept s₀ s) : Kept s₀ (mbxMrtGet i s) := by
  grind [mbxMrtGet, kept_plainRun, kept_mrtAged, kept_mbxDo]

@[simp] theorem kept_sealedTicket {i b} (h : Kept s₀ s) : Kept s₀ ((sealedTicket i b s).2.2) := by
  grind [sealedTicket, kept_modStrm, kept_modTicket, kept_acceptTicket, kept_ackTicket, kept_update]

@[simp] theorem kept_mbxTicket {i} (h : Kept s₀ s) : Kept s₀ (mbxTicket i s) := by
  grind [mbxTicket, kept_mbxSealed, kept_sealedTicket]

@[simp] theorem kept_outcomeGet {i b} (h : Kept s₀ s) : Kept s₀ ((outcomeGet i b s).2.2) := by
  grind [outcomeGet, kept_settle, kept_modStrm, kept_consumeOutcomes, kept_update]

@[simp] theorem kept_mbxOutcomeGet {i} (h : Kept s₀ s) : Kept s₀ (mbxOutcomeGet i s) := by
  grind [mbxOutcomeGet, kept_mbxSealed, kept_outcomeGet]

@[simp] theorem kept_loopMode {b} (h : Kept s₀ s) : Kept s₀ ((loopMode b s).2.2) := by
  grind [loopMode, kept_loopReq]

@[simp] theorem kept_mbxLoopMode {i} (h : Kept s₀ s) : Kept s₀ (mbxLoopMode i s) := by
  grind [mbxLoopMode, kept_mbxSealed, kept_loopMode]

@[simp] theorem kept_mbxUnblock {i} (h : Kept s₀ s) : Kept s₀ (mbxUnblock i s) := by
  grind [mbxUnblock, kept_unblockMember, kept_mbxSealed]

@[simp] theorem kept_checkClear {i b} (h : Kept s₀ s) : Kept s₀ ((checkClear i b s).2.2) := by
  grind [checkClear, kept_modCheck, kept_update]

@[simp] theorem kept_mbxCheckClear {i} (h : Kept s₀ s) : Kept s₀ (mbxCheckClear i s) := by
  grind [mbxCheckClear, kept_mbxSealed, kept_checkClear]

@[simp] theorem kept_patternAuth {b} (h : Kept s₀ s) : Kept s₀ ((patternAuth b s).2.2) := kept_update h

@[simp] theorem kept_mbxPatternAuth {i} (h : Kept s₀ s) : Kept s₀ (mbxPatternAuth i s) := by
  grind [mbxPatternAuth, kept_mbxSealed, kept_patternAuth]

@[simp] theorem kept_authExpire (h : Kept s₀ s) : Kept s₀ (authExpire s) := by
  grind [authExpire, kept_update]

/-! #### Machine/Install -/

@[simp] theorem kept_installStreams {im} (h : Kept s₀ s) : Kept s₀ (installStreams im s) := by
  grind [installStreams, kept_modStrm, kept_foldl, kept_update]

@[simp] theorem kept_installSensors {im} (h : Kept s₀ s) : Kept s₀ (installSensors im s) := kept_update h

@[simp] theorem kept_installPlanner {im} (h : Kept s₀ s) : Kept s₀ (installPlanner im s) := by
  grind [installPlanner, kept_planEpoch0, kept_update]

@[simp] theorem kept_installLoops {im} (h : Kept s₀ s) : Kept s₀ (installLoops im s) := kept_update h

@[simp] theorem kept_installChecks {im} (h : Kept s₀ s) : Kept s₀ (installChecks im s) := kept_update h

@[simp] theorem kept_installScenes {im} (h : Kept s₀ s) : Kept s₀ (installScenes im s) := kept_update h

@[simp] theorem kept_installEnvelope {im} (h : Kept s₀ s) : Kept s₀ (installEnvelope im s) := kept_update h

@[simp] theorem kept_installGuards {im fit} (h : Kept s₀ s) : Kept s₀ (installGuards im fit s) := kept_update h

@[simp] theorem kept_installFit {im fit} (h : Kept s₀ s) : Kept s₀ (installFit im fit s) := kept_update h

@[simp] theorem kept_installBlocks {im fit} (h : Kept s₀ s) : Kept s₀ (installBlocks im fit s) :=
  kept_installFit (kept_installGuards (kept_installEnvelope (kept_installScenes (kept_installChecks (kept_installLoops
    (kept_installPlanner (kept_installSensors (kept_installStreams h))))))))

@[simp] theorem kept_restartBlocks (h : Kept s₀ s) : Kept s₀ (restartBlocks s) := by
  unfold restartBlocks
  dsimp only
  split
  · exact kept_planEpoch0 (kept_mapMittens (kept_update h))
  · exact kept_mapMittens (kept_update h)

/-! #### Machine/Fire -/

@[simp] theorem kept_takeFiring {m} (h : Kept s₀ s) : Kept s₀ (takeFiring m s) := by
  grind [takeFiring, kept_modEdge, kept_modMitten, kept_modScene, kept_foldl, kept_update]

@[simp] theorem kept_loseT3 {rs} (h : Kept s₀ s) : Kept s₀ (loseT3 rs s) := by
  grind [loseT3, kept_modScene, kept_foldl]

@[simp] theorem kept_firingStart {m allow} (h : Kept s₀ s) : Kept s₀ (firingStart m allow s) := by
  grind [firingStart, kept_latch, kept_settle, kept_voidFiring, kept_takeFiring, kept_loseT3]

@[simp] theorem kept_countEvents {gs es} (h : Kept s₀ s) : Kept s₀ (countEvents gs es s) := by
  grind [countEvents, kept_foldl, kept_update]

@[simp] theorem kept_countTickets {tags sat nan failed} (h : Kept s₀ s) : Kept s₀ (countTickets tags sat nan failed s) := by
  grind [countTickets, kept_mapTickets, kept_update]

@[simp] theorem kept_commitTensors {m v} (h : Kept s₀ s) : Kept s₀ (commitTensors m v s) := by
  grind [commitTensors, kept_setStateTensor, kept_foldl]

@[simp] theorem kept_commitOp {m v} (h : Kept s₀ s) : Kept s₀ (commitOp m s v) := by
  grind [commitOp, kept_devWr, kept_modScene, kept_commitTensors]

@[simp] theorem kept_firingComplete {m} (h : Kept s₀ s) : Kept s₀ (firingComplete m s) := by
  unfold firingComplete
  split
  · exact h
  · split
    · exact h
    · exact kept_markTags (kept_countTickets (kept_countEvents (kept_modMitten (kept_foldl (fun _ _ => kept_modEdge)
        (kept_foldl (fun _ _ => kept_modEdge) (kept_foldl (fun _ _ => kept_commitOp) (kept_update h)))))))

@[simp] theorem kept_mittenWake {m} (h : Kept s₀ s) : Kept s₀ (mittenWake m s) := by
  grind [mittenWake, kept_modMitten, kept_update]

@[simp] theorem kept_gloveGate {g} (h : Kept s₀ s) : Kept s₀ (gloveGate g s) := by
  grind [gloveGate, kept_modMitten, kept_update]

@[simp] theorem kept_prefetchDone {n reader seq stalled} (h : Kept s₀ s) : Kept s₀ (prefetchDone n reader seq stalled s) := by
  grind [prefetchDone, kept_modScene, kept_update]

@[simp] theorem kept_writeResult {st sub data q} (h : Kept s₀ s) : Kept s₀ (writeResult st sub data s q) := by
  grind [writeResult, kept_devWr, kept_hostWr, kept_settle, kept_modTicket, kept_voidTags, kept_update]

@[simp] theorem kept_resultToken {g k} (h : Kept s₀ s) : Kept s₀ (resultToken g k s) := by
  grind [resultToken, kept_takeArriving, kept_writeResult, kept_foldl]

@[simp] theorem kept_tokenArrive {e} (h : Kept s₀ s) : Kept s₀ (tokenArrive e s) := by
  grind [tokenArrive, kept_modEdge, kept_planToken, kept_resultToken, kept_update]

@[simp] theorem kept_creditReturn {e} (h : Kept s₀ s) : Kept s₀ (creditReturn e s) := by
  grind [creditReturn, kept_modEdge, kept_update]

/-! #### Machine/SeamOps -/

@[simp] theorem kept_modPat {f} (h : Kept s₀ s) : Kept s₀ (modPat f s) := kept_update h

@[simp] theorem kept_modEngine {e f} (h : Kept s₀ s) : Kept s₀ (modEngine e f s) := by
  grind [modEngine, kept_modPat, kept_update]

@[simp] theorem kept_dropPending {g} (h : Kept s₀ s) : Kept s₀ (dropPending g s) := kept_update h

@[simp] theorem kept_applyField {key v} (h : Kept s₀ s) : Kept s₀ (applyField key v s) := by
  grind [applyField, kept_modStrm, kept_modLoop, kept_update]

@[simp] theorem kept_switchGroup {g} (h : Kept s₀ s) : Kept s₀ (switchGroup g s) := by
  grind [switchGroup, kept_dropPending, kept_applyField, kept_foldl]

@[simp] theorem kept_withdrawGroup {g detail} (h : Kept s₀ s) : Kept s₀ ((withdrawGroup g detail s).1) := by
  grind [withdrawGroup, kept_voidTags, kept_voidFiring, kept_releaseToken, kept_freeFrame, kept_foldl, kept_update]

@[simp] theorem kept_withdrawGroups {detail gs} (h : Kept s₀ s) : Kept s₀ (withdrawGroups detail gs s).1 := by
  induction gs generalizing s with
  | nil => exact h
  | cons g r ih => exact ih (kept_withdrawGroup h)

@[simp] theorem kept_drainDie {k} (h : Kept s₀ s) : Kept s₀ (drainDie k s) := by
  grind [drainDie, kept_update]

/-! #### Machine/Load -/

@[simp] theorem kept_dropAuth {id gen} (h : Kept s₀ s) : Kept s₀ (dropAuth id gen s) := by
  grind [dropAuth, kept_modPat, kept_update]

@[simp] theorem kept_patCfgBusy (h : Kept s₀ s) : Kept s₀ (patCfgBusy s) := kept_update h

@[simp] theorem kept_loadCtrlFields {v} (h : Kept s₀ s) : Kept s₀ (loadCtrlFields v s) := by
  grind [loadCtrlFields, kept_rwWrite, kept_modPat, kept_patCfgBusy, kept_update]

@[simp] theorem kept_startJob {v boot} (h : Kept s₀ s) : Kept s₀ (startJob v boot s) := by
  grind [startJob, kept_modPat, kept_update]

@[simp] theorem kept_goWrite {v} (h : Kept s₀ s) : Kept s₀ (goWrite v s) := by
  grind [goWrite, kept_modPat, kept_loadCtrlFields, kept_startJob, kept_update]

@[simp] theorem kept_loadFullGo {v} (h : Kept s₀ s) : Kept s₀ (loadFullGo v s) := by
  grind [loadFullGo, kept_goWrite]

@[simp] theorem kept_patchGo {v} (h : Kept s₀ s) : Kept s₀ (patchGo v s) := by
  grind [patchGo, kept_goWrite]

@[simp] theorem kept_storeRead (h : Kept s₀ s) : Kept s₀ (storeRead s) := by
  grind [storeRead, kept_modPat, kept_update]

@[simp] theorem kept_failJob {code bad} (h : Kept s₀ s) : Kept s₀ (failJob code bad s) := by
  unfold failJob
  grind [kept_settle, kept_stopStart, kept_bootDone, kept_modPat, kept_dropAuth, kept_update]

@[simp] theorem kept_verifyDone (h : Kept s₀ s) : Kept s₀ (verifyDone s) := by
  grind [verifyDone, kept_modPat, kept_failJob, kept_update]

@[simp] theorem kept_fitterSource {c} (h : Kept s₀ s) : Kept s₀ (fitterSource c s) := by
  grind [fitterSource, kept_latchBoth]

@[simp] theorem kept_fitDone {c0 f0 c1 f1} (h : Kept s₀ s) : Kept s₀ (fitDone c0 f0 c1 f1 s) := by
  grind [fitDone, kept_modPat, kept_failJob, kept_fitterSource, kept_update]

@[simp] theorem kept_loadComplete (h : Kept s₀ s) : Kept s₀ (loadComplete s) := by
  unfold loadComplete
  split
  · exact h
  · split
    · exact h
    · split
      · exact kept_failJob h
      · dsimp only
        split
        · exact kept_bootDone (kept_dropAuth (kept_update (kept_modPat (kept_installBlocks (kept_modPat h)))))
        · exact kept_settle (kept_dropAuth (kept_update (kept_modPat (kept_installBlocks (kept_modPat h)))))

@[simp] theorem kept_patchStaged (h : Kept s₀ s) : Kept s₀ (patchStaged s) := by
  grind [patchStaged, kept_modPat, kept_failJob, kept_update]

@[simp] theorem kept_patchSeam (h : Kept s₀ s) : Kept s₀ (patchSeam s) := by
  grind [patchSeam, kept_modPat, kept_update]

@[simp] theorem kept_patchStream {p} (h : Kept s₀ s) : Kept s₀ (patchStream p s) := by
  grind [patchStream, kept_modStrm, kept_foldl, kept_update]

@[simp] theorem kept_patchSense {im p} (h : Kept s₀ s) : Kept s₀ (patchSense im p s) := by
  grind [patchSense, kept_foldl, kept_update]

@[simp] theorem kept_patchPlan {p} (h : Kept s₀ s) : Kept s₀ (patchPlan p s) := by
  grind [patchPlan, kept_update]

@[simp] theorem kept_patchLoops {im p} (h : Kept s₀ s) : Kept s₀ (patchLoops im p s) := by
  grind [patchLoops, kept_modLoop, kept_foldl]

@[simp] theorem kept_patchChecks {im p} (h : Kept s₀ s) : Kept s₀ (patchChecks im p s) := by
  grind [patchChecks, kept_foldl, kept_update]

@[simp] theorem kept_patchScenes {p} (h : Kept s₀ s) : Kept s₀ (patchScenes p s) := by
  grind [patchScenes, kept_update]

@[simp] theorem kept_patchEnvelope {p} (h : Kept s₀ s) : Kept s₀ (patchEnvelope p s) := by
  grind [patchEnvelope, kept_installEnvelope]

@[simp] theorem kept_patchRefills {p} (h : Kept s₀ s) : Kept s₀ (patchRefills p s) := by
  grind [patchRefills, kept_mapMittens, kept_update]

@[simp] theorem kept_patchSwitch {j} (h : Kept s₀ s) : Kept s₀ (patchSwitch j s) :=
  kept_dropAuth (kept_update (kept_modPat (kept_patchRefills (kept_patchEnvelope (kept_patchScenes (kept_patchChecks
    (kept_patchLoops (kept_patchPlan (kept_patchSense (kept_patchStream (kept_modPat h)))))))))))

@[simp] theorem kept_refillDone {m} (h : Kept s₀ s) : Kept s₀ (refillDone m s) := by
  grind [refillDone, kept_modMitten, kept_update]

@[simp] theorem kept_reinstall (h : Kept s₀ s) : Kept s₀ (reinstall s) := by
  grind [reinstall, kept_update]

@[simp] theorem kept_retainExitDone (h : Kept s₀ s) : Kept s₀ (retainExitDone s) := by
  grind [retainExitDone, kept_settle, kept_selfRefresh, kept_restartBlocks, kept_reinstall, kept_update]

/-! #### Machine/Replace -/

@[simp] theorem kept_altComputeDone {bs} (h : Kept s₀ s) : Kept s₀ (altComputeDone bs s) := by
  grind [altComputeDone, kept_modPat, kept_update]

@[simp] theorem kept_endReplace {src conf} (h : Kept s₀ s) : Kept s₀ (endReplace src conf s) := by
  grind [endReplace, kept_settle, kept_writeRec, kept_update]

@[simp] theorem kept_alternateSwitch (h : Kept s₀ s) : Kept s₀ (alternateSwitch s) := by
  unfold alternateSwitch
  split
  · exact h
  · split
    · exact h
    · split
      · extract_lets s1 s2
        have h2 : Kept s₀ s2 := kept_installGuards (kept_modPat (kept_switchFit h))
        split
        · exact kept_endReplace (kept_disableStreams h2)
        · exact kept_endReplace h2
      · split
        · exact kept_endReplace (kept_disableStreams (kept_loseScenes h))
        · exact kept_modPat h

@[simp] theorem kept_dropShadows {gs} (h : Kept s₀ s) : Kept s₀ (dropShadows gs s) := by
  grind [dropShadows, kept_modPat, kept_update]

@[simp] theorem kept_deviceRefitDone {c0 f0 c1 f1} (h : Kept s₀ s) : Kept s₀ (deviceRefitDone c0 f0 c1 f1 s) := by
  unfold deviceRefitDone
  split
  · split
    · exact h
    · split
      · exact h
      · exact kept_endReplace (kept_modPat (kept_disableStreams (kept_loseScenes (kept_fitterSource h))))
      · exact kept_endReplace (kept_modPat (kept_installGuards (kept_switchFit (kept_dropShadows h))))
  · exact h

/-! #### Machine/SelfTest -/

@[simp] theorem kept_modGlove {g f} (h : Kept s₀ s) : Kept s₀ (modGlove g f s) := kept_update h

@[simp] theorem kept_defer {g} (h : Kept s₀ s) : Kept s₀ (defer g s) := kept_modIsland h

@[simp] theorem kept_testSlice {g} (h : Kept s₀ s) : Kept s₀ (testSlice g s) := by
  unfold testSlice
  grind [kept_modGlove, kept_defer]

@[simp] theorem kept_sliceDone {g ok} (h : Kept s₀ s) : Kept s₀ (sliceDone g ok s) := by
  grind [sliceDone, kept_latch, kept_isolateQuad, kept_modGlove, kept_update]

@[simp] theorem kept_withdrawRequest {g} (h : Kept s₀ s) : Kept s₀ (withdrawRequest g s) := by
  unfold withdrawRequest
  grind [kept_requestWithdraw, kept_defer]

@[simp] theorem kept_testInterval {g} (h : Kept s₀ s) : Kept s₀ (testInterval g s) := by
  grind [testInterval, kept_latch, kept_modGlove, kept_update]

@[simp] theorem kept_moveFit {new} (h : Kept s₀ s) : Kept s₀ (moveFit new s) := by
  unfold moveFit
  refine kept_installGuards (kept_startDrains (kept_modPat (kept_update (kept_mapMittens (kept_foldl (fun a m ha => ?_) h)))))
  split <;> exact kept_modMitten ha

theorem kept_testSeamStep {done : State → State} (hd : ∀ z, Kept s₀ z → Kept s₀ (done z)) {q back new} (h : Kept s₀ s) :
    Kept s₀ (testSeamStep q back new done s) := by
  unfold testSeamStep
  grind [kept_modPat, kept_moveFit, kept_withdrawGroups, kept_drawFree]

@[simp] theorem kept_quadWithdraw {q} (h : Kept s₀ s) : Kept s₀ (quadWithdraw q s) := by
  unfold quadWithdraw
  split
  · split
    · exact h
    · refine kept_testSeamStep (fun z hz => ?_) h
      have h2 := kept_foldl (l := quadGloves q) (f := fun a g => modGlove g (fun x => { x with test := .withdrawn, slices := 0 }) a)
        (fun _ _ => kept_modGlove) (kept_modPat (f := fun p => { p with altKind := 1, altIndex := q, testAlt := true }) hz)
      dsimp only
      generalize (quadGloves q).foldl _ _ = z2 at h2 ⊢
      exact kept_modIsland (kept_update h2)
  · exact h

@[simp] theorem kept_quadReturn {q} (h : Kept s₀ s) : Kept s₀ (quadReturn q s) := by
  grind [quadReturn, kept_modPat, kept_modGlove, kept_testSeamStep, kept_foldl, kept_update]

/-! #### Machine/Isolate -/

@[simp] theorem kept_dropPackets {lost} (h : Kept s₀ s) : Kept s₀ (dropPackets lost s) := kept_update h

@[simp] theorem kept_noteLoss {part src used} (h : Kept s₀ s) : Kept s₀ (noteLoss part src used s) := by
  grind [noteLoss, kept_update]

@[simp] theorem kept_loseQuad {q src} (h : Kept s₀ s) : Kept s₀ (loseQuad q src s) := by
  grind [loseQuad, kept_voidFiring, kept_dropPackets, kept_noteLoss, kept_foldl, kept_update]

@[simp] theorem kept_loseStack {k src} (h : Kept s₀ s) : Kept s₀ (loseStack k src s) := by
  grind [loseStack, kept_voidFiring, kept_dropPackets, kept_noteLoss, kept_foldl]

@[simp] theorem kept_dropSamples {lost} (h : Kept s₀ s) : Kept s₀ (dropSamples lost s) := by
  grind [dropSamples, kept_modSens, kept_discardSample, kept_foldl, kept_update]

@[simp] theorem kept_loseCsi {p} (h : Kept s₀ s) : Kept s₀ (loseCsi p s) := kept_dropSamples h

@[simp] theorem kept_loseEth {e} (h : Kept s₀ s) : Kept s₀ (loseEth e s) := by
  grind [loseEth, kept_modEth, kept_modLoop, kept_foldl, kept_update]

@[simp] theorem kept_failOnLoss (h : Kept s₀ s) : Kept s₀ (failOnLoss s) := by
  grind [failOnLoss, kept_failJob]

@[simp] theorem kept_loseDie {d} (h : Kept s₀ s) : Kept s₀ (loseDie d s) := by
  have h1 := kept_foldl (l := (boundMittens s).filter (fun m => (mitten m s).stack / 2 == d))
    (f := fun a m => voidFiring false m 1 (4 + d) 0xFFFF 0 a) (fun _ _ => kept_voidFiring) (kept_dropPackets (lost := atHalf d) h)
  have h2 := kept_foldl (l := List.range 4) (f := fun a p => loseCsi (4 * d + p) a) (fun _ _ => kept_loseCsi)
    (kept_foldl (l := List.range 6) (f := fun a c => isolateChannel (6 * d + c) a) (fun _ _ => kept_isolateChannel) h1)
  have h3 := kept_foldl (l := List.range 2) (f := fun a e => loseEth (2 * d + e) a) (fun _ _ => kept_loseEth) h2
  exact kept_noteLoss (kept_disableStreams (kept_modPat (kept_failOnLoss (kept_update (kept_planDieLost (kept_goDown h3))))))

@[simp] theorem kept_loseEffects {part src} (h : Kept s₀ s) : Kept s₀ (loseEffects part src s) := by
  grind [loseEffects, kept_isolateChannel, kept_goDown, kept_slicesLost, kept_goSilent, kept_noteLoss, kept_loseQuad,
    kept_loseStack, kept_loseCsi, kept_loseEth, kept_loseDie]

@[simp] theorem kept_budgetConf {src} (h : Kept s₀ s) : Kept s₀ (budgetConf src s) := by
  grind [budgetConf, kept_update]

@[simp] theorem kept_completeFor {cmds} (h : Kept s₀ s) : Kept s₀ (completeFor cmds s) := by
  grind [completeFor, kept_completeSrc, kept_foldl]

@[simp] theorem kept_cutOff {part src} (h : Kept s₀ s) : Kept s₀ (cutOff part src s) := kept_loseEffects (kept_traceEv h)

@[simp] theorem kept_isolationConfirm {part} (h : Kept s₀ s) : Kept s₀ (isolationConfirm part s) := by
  grind [isolationConfirm, kept_settle, kept_dropIso, kept_budgetConf, kept_completeFor, kept_cutOff]

@[simp] theorem kept_noteSafe {id cause st} (h : Kept s₀ s) : Kept s₀ (noteSafe id cause st s) := kept_update h

@[simp] theorem kept_peerRecord {c} (h : Kept s₀ s) : Kept s₀ (peerRecord c s) := by
  grind [peerRecord, kept_modSrc, kept_writeRec, kept_faultVec, kept_update]

@[simp] theorem kept_safeStart {cause} (h : Kept s₀ s) : Kept s₀ (safeStart cause s) := by
  grind [safeStart, kept_stopStart]

@[simp] theorem kept_safeEnter {col} (h : Kept s₀ s) : Kept s₀ (safeEnter col s) := by
  unfold safeEnter
  split
  · exact h
  · split
    · exact h
    · exact kept_settle (kept_update (kept_voidAll (kept_safeOutAll (kept_peerRecord (kept_noteSafe (kept_assertPins
        (kept_safeStart h)))))))

@[simp] theorem kept_thermalTrip {pair ring raw} (h : Kept s₀ s) : Kept s₀ (thermalTrip pair ring raw s) := by
  grind [thermalTrip, kept_latch, kept_recognize, kept_safeEnter]

@[simp] theorem kept_bootPattern (h : Kept s₀ s) : Kept s₀ (bootPattern s) := by
  grind [bootPattern, kept_stopStart, kept_bootDone, kept_modPat, kept_startJob, kept_update]

@[simp] theorem kept_sweepDone {miss} (h : Kept s₀ s) : Kept s₀ (sweepDone miss s) := by
  grind [sweepDone, kept_modColl, kept_stopStart, kept_bootPattern, kept_update]

@[simp] theorem kept_sweepTimeout (h : Kept s₀ s) : Kept s₀ (sweepTimeout s) := by
  grind [sweepTimeout, kept_stopStart, kept_update]

@[simp] theorem kept_modBank {k f} (h : Kept s₀ s) : Kept s₀ (modBank k f s) := kept_update h

@[simp] theorem kept_losePageOf {cands} (h : Kept s₀ s) : Kept s₀ (losePageOf cands s) := by
  grind [losePageOf, kept_drawFree, kept_modScene, kept_update]

@[simp] theorem kept_storageError {k off detail} (h : Kept s₀ s) : Kept s₀ (storageError k off detail s) := by
  unfold storageError
  grind [kept_voidFiring, kept_modGlove, kept_modBank, kept_losePageOf, kept_update]

@[simp] theorem kept_raiseEffect {c i detail} (h : Kept s₀ s) : Kept s₀ (raiseEffect c i detail s) := by
  grind [raiseEffect, kept_slotSafe, kept_modGroup, kept_ringError, kept_heapError, kept_poisonMap, kept_storageError,
    kept_update]

@[simp] theorem kept_latchExt {c l} (h : Kept s₀ s) : Kept s₀ (latchExt c l s) := by
  induction l generalizing s with
  | nil => exact h
  | cons x r ih => exact ih (kept_latch (kept_raiseEffect h))

@[simp] theorem kept_faultRaise {c ext} (h : Kept s₀ s) : Kept s₀ (faultRaise c ext s) := kept_recognizeAll (kept_latchExt h)

/-! #### Machine/Mesh -/

@[simp] theorem kept_serve {q} (h : Kept s₀ s) : Kept s₀ (serve q s) := kept_update h

@[simp] theorem kept_refusePacket {q p} (h : Kept s₀ s) : Kept s₀ (refusePacket q p s) := by
  grind [refusePacket, kept_latch, kept_settle, kept_voidFiring, kept_update]

@[simp] theorem kept_packetAt {pl input p} (h : Kept s₀ s) : Kept s₀ (packetAt pl input p s) := by
  unfold packetAt
  grind [kept_latch, kept_refusePacket, kept_update]

@[simp] theorem kept_inject {pl p} (h : Kept s₀ s) : Kept s₀ (inject pl p s) := by
  grind [inject, kept_packetAt, kept_update]

@[simp] theorem kept_packetArrive {pl via header payload} (h : Kept s₀ s) : Kept s₀ (packetArrive pl via header payload s) := by
  unfold packetArrive
  grind [kept_serve, kept_packetAt, kept_inject]

@[simp] theorem kept_routeSwap {k} (h : Kept s₀ s) : Kept s₀ (routeSwap k s) := by
  grind [routeSwap, kept_foldl, kept_update]

@[simp] theorem kept_modLining {k b f} (h : Kept s₀ s) : Kept s₀ (modLining k b f s) := kept_update h

@[simp] theorem kept_liningScrub {k b err} (h : Kept s₀ s) : Kept s₀ (liningScrub k b err s) := by
  grind [liningScrub, kept_latch, kept_modLining, kept_update]

@[simp] theorem kept_gloveNumClr {g v} (h : Kept s₀ s) : Kept s₀ (gloveNumClr g v s) := by
  grind [gloveNumClr, kept_modGlove, kept_update]

@[simp] theorem kept_palmClr {g v} (h : Kept s₀ s) : Kept s₀ (palmClr g v s) := by
  grind [palmClr, kept_modGlove, kept_update]

@[simp] theorem kept_liningClr {k b v} (h : Kept s₀ s) : Kept s₀ (liningClr k b v s) := by
  grind [liningClr, kept_modLining, kept_update]

/-! #### Machine/Partner -/

@[simp] theorem kept_heartbeatSend (h : Kept s₀ s) : Kept s₀ (heartbeatSend s) := by
  grind [heartbeatSend, kept_ethSend, kept_update]

@[simp] theorem kept_heartbeatRx {bs} (h : Kept s₀ s) : Kept s₀ (heartbeatRx bs s) := by
  grind [heartbeatRx, kept_foldl, kept_update]

@[simp] theorem kept_peerTimeout (h : Kept s₀ s) : Kept s₀ (peerTimeout s) := by
  grind [peerTimeout, kept_attachVec, kept_update]

@[simp] theorem kept_beaconSend {i} (h : Kept s₀ s) : Kept s₀ (beaconSend i s) := by
  grind [beaconSend, kept_update]

@[simp] theorem kept_leaseExpire (h : Kept s₀ s) : Kept s₀ (leaseExpire s) := by
  grind [leaseExpire, kept_fence]

@[simp] theorem kept_leaseGrace (h : Kept s₀ s) : Kept s₀ (leaseGrace s) := by
  grind [leaseGrace, kept_update]

@[simp] theorem kept_renew {job epoch} (h : Kept s₀ s) : Kept s₀ (renew job epoch s) := kept_update h

@[simp] theorem kept_lease {i dst bs} (h : Kept s₀ s) : Kept s₀ (lease i dst bs s) := by
  grind [lease, kept_leaseExpire, kept_renew]

@[simp] theorem kept_fenceFrame {i dst bs} (h : Kept s₀ s) : Kept s₀ (fenceFrame i dst bs s) := by
  grind [fenceFrame, kept_fence]

@[simp] theorem kept_restartFrame {i dst bs} (h : Kept s₀ s) : Kept s₀ (restartFrame i dst bs s) := by
  grind [restartFrame, kept_restartRequest]

@[simp] theorem kept_wakeFrame {i dst bs} (h : Kept s₀ s) : Kept s₀ (wakeFrame i dst bs s) := by
  grind [wakeFrame, kept_wake]

/-! #### Machine/Power -/

@[simp] theorem kept_mateStage {stage coolant} (h : Kept s₀ s) : Kept s₀ (mateStage stage coolant s) := by
  grind [mateStage, kept_turnOff, kept_update]

@[simp] theorem kept_vinSeen {mv} (h : Kept s₀ s) : Kept s₀ (vinSeen mv s) := kept_update h

@[simp] theorem kept_inputQualified {mv} (h : Kept s₀ s) : Kept s₀ (inputQualified mv s) := by
  grind [inputQualified, kept_update]

@[simp] theorem kept_coldStart (h : Kept s₀ s) : Kept s₀ (coldStart s) := by
  grind [coldStart, kept_latchBoth, kept_enterBoot, kept_stopStart, kept_update]

@[simp] theorem kept_pgoodRelease (h : Kept s₀ s) : Kept s₀ (pgoodRelease s) := by
  grind [pgoodRelease, kept_coldStart, kept_update]

@[simp] theorem kept_inputWarn {mv} (h : Kept s₀ s) : Kept s₀ (inputWarn mv s) := by
  grind [inputWarn, kept_latchBoth, kept_vinSeen]

@[simp] theorem kept_inputUnder {mv ns} (h : Kept s₀ s) : Kept s₀ (inputUnder mv ns s) := by
  grind [inputUnder, kept_turnOff, kept_vinSeen]

@[simp] theorem kept_inputOver {mv ns} (h : Kept s₀ s) : Kept s₀ (inputOver mv ns s) := by
  grind [inputOver, kept_turnOff, kept_vinSeen]

@[simp] theorem kept_pwrEnLow {ns} (h : Kept s₀ s) : Kept s₀ (pwrEnLow ns s) := by
  grind [pwrEnLow, kept_turnOff, kept_update]

@[simp] theorem kept_presenceLoss (h : Kept s₀ s) : Kept s₀ (presenceLoss s) := by
  grind [presenceLoss, kept_turnOff, kept_update]

@[simp] theorem kept_aonLost {half} (h : Kept s₀ s) : Kept s₀ (aonLost half s) := by
  unfold aonLost
  grind [MbxWf, kept_settle, kept_modColl, kept_modIsland, kept_turnOff, kept_update]

@[simp] theorem kept_railOut {half rail} (h : Kept s₀ s) : Kept s₀ (railOut half rail s) := by
  grind [railOut, kept_latch, kept_aonLost, kept_update]

@[simp] theorem kept_refclkLoss {half ppm} (h : Kept s₀ s) : Kept s₀ (refclkLoss half ppm s) := by
  unfold refclkLoss
  grind [kept_latch, kept_update]

@[simp] theorem kept_readBack {stays} (h : Kept s₀ s) : Kept s₀ (readBack stays s) := by
  grind [readBack, kept_latch, kept_foldl]

@[simp] theorem kept_biasLoss {mv} (h : Kept s₀ s) : Kept s₀ (biasLoss mv s) := by
  grind [biasLoss, kept_drawFree, kept_vinSeen, kept_readBack]

/-! #### Machine/Seam -/

@[simp] theorem kept_seamArm {e v} (h : Kept s₀ s) : Kept s₀ (seamArm e v s) := by
  grind [seamArm, kept_latchWrite, kept_modEngine, kept_update]

@[simp] theorem kept_seamCancel {e v} (h : Kept s₀ s) : Kept s₀ (seamCancel e v s) := by
  grind [seamCancel, kept_latchWrite, kept_modEngine, kept_update]

@[simp] theorem kept_seamDiscard {e v} (h : Kept s₀ s) : Kept s₀ (seamDiscard e v s) := by
  grind [seamDiscard, kept_latchWrite, kept_dropPending, kept_foldl]

@[simp] theorem kept_stageField {f} (h : Kept s₀ s) : Kept s₀ (stageField f s) := by
  grind [stageField, kept_modPat, kept_update]

@[simp] theorem kept_strmCfgBits {off v staged armed} (h : Kept s₀ s) : Kept s₀ (strmCfgBits off v staged armed s) := by
  grind [strmCfgBits, kept_latchWrite, kept_modStrm, kept_update]

@[simp] theorem kept_rwsWrite {off v} (h : Kept s₀ s) : Kept s₀ (rwsWrite off v s) := by
  grind [rwsWrite, kept_latchWrite, kept_modEngine, kept_stageField, kept_strmCfgBits, kept_foldl, kept_update]

@[simp] theorem kept_traceSwitch {e} (h : Kept s₀ s) : Kept s₀ (traceSwitch e s) := kept_traceEv h

@[simp] theorem kept_finishBlocks {e} (h : Kept s₀ s) : Kept s₀ (finishBlocks e s) := by
  grind [finishBlocks, kept_modEngine, kept_traceSwitch, kept_update]

@[simp] theorem kept_blockSeam {e g} (h : Kept s₀ s) : Kept s₀ (blockSeam e g s) := by
  grind [blockSeam, kept_modEngine, kept_switchGroup, kept_finishBlocks, kept_update]

@[simp] theorem kept_drainGroups {gs} (h : Kept s₀ s) : Kept s₀ (drainGroups gs s) := by
  grind [drainGroups, kept_drainDie, kept_foldl]

@[simp] theorem kept_globalStamp {e} (h : Kept s₀ s) : Kept s₀ (globalStamp e s) := by
  grind [globalStamp, kept_modEngine, kept_drainGroups, kept_update]

@[simp] theorem kept_noteWithdrawn {e n} (h : Kept s₀ s) : Kept s₀ (noteWithdrawn e n s) := by
  grind [noteWithdrawn, kept_modPat, kept_modEngine, kept_update]

@[simp] theorem kept_seamExpire {e} (h : Kept s₀ s) : Kept s₀ (seamExpire e s) := by
  grind [seamExpire, kept_withdrawGroups, kept_noteWithdrawn]

@[simp] theorem kept_globalSwitch {e} (h : Kept s₀ s) : Kept s₀ (globalSwitch e s) := by
  grind [globalSwitch, kept_modPat, kept_modEngine, kept_switchGroup, kept_patchSwitch, kept_traceSwitch, kept_foldl, kept_update]

/-! #### Machine/Regs -/

@[simp] theorem kept_noBusyBit (h : Kept s₀ s) : Kept s₀ (noBusyBit s) := by
  grind [noBusyBit]

@[simp] theorem kept_strmCfgBusy {n} (h : Kept s₀ s) : Kept s₀ (strmCfgBusy n s) := kept_update h

@[simp] theorem kept_modRing {e r f} (h : Kept s₀ s) : Kept s₀ (modRing e r f s) := by
  grind [modRing, kept_modEth, kept_update]

@[simp] theorem kept_wideSet {w off v} (h : Kept s₀ s) : Kept s₀ (wideSet w off v s) := by
  unfold wideSet
  grind [kept_setTrace, kept_rwWrite, kept_modStrm, kept_timeCfgBusy, kept_modEvt, kept_modCrown, kept_crownCfgBusy, kept_modPat,
    kept_modEngine, kept_patCfgBusy, kept_noBusyBit, kept_strmCfgBusy, kept_modRing, kept_update]

@[simp] theorem kept_writeHalf {high off v w} (h : Kept s₀ s) : Kept s₀ (writeHalf high off v w s) := by
  grind [writeHalf, kept_wideSet]

@[simp] theorem kept_writeMod {off v} (h : Kept s₀ s) : Kept s₀ (writeMod off v s) := by
  unfold writeMod
  dsimp only
  have h1 : Kept s₀ (modMbx ((off - 0x110) / 0x40) (fun m => { m with vector := bits v 5 1, port := bits v 6 6, irq := bit v 7 }) s) :=
    kept_modMbx h (fun _ => id)
  exact kept_ite (kept_pwrCtrlWrite h) (kept_ite (kept_ite (kept_mbxSend h1) h1)
    (kept_ite (kept_modMbx h (fun _ => id)) (kept_ite (kept_modMbx h (fun _ hm => ⟨wf_wrBytes hm.1, hm.2⟩)) h)))

@[simp] theorem kept_writeCrown {off v} (h : Kept s₀ s) : Kept s₀ (writeCrown off v s) := by
  grind [writeCrown, kept_modCrown, kept_calWrite, kept_rwsWrite, kept_update]

@[simp] theorem kept_timeCfgWrite {v} (h : Kept s₀ s) : Kept s₀ (timeCfgWrite v s) := by
  grind [timeCfgWrite, kept_rwWrite, kept_timeAgentWrite, kept_timeCfgBusy, kept_update]

@[simp] theorem kept_writeTime {off v} (h : Kept s₀ s) : Kept s₀ (writeTime off v s) := by
  grind [writeTime, kept_setTrace, kept_rwWrite, kept_rateWrite, kept_timeStepRequest, kept_timeCfgBusy, kept_traceCopyGo,
    kept_timeCfgWrite, kept_update]

@[simp] theorem kept_outCfgWrite {n off v} (h : Kept s₀ s) : Kept s₀ (outCfgWrite n off v s) := by
  grind [outCfgWrite, kept_rwWrite, kept_modStrm, kept_strmCfgBusy, kept_update]

@[simp] theorem kept_writeLedger {off v} (h : Kept s₀ s) : Kept s₀ (writeLedger off v s) := by
  grind [writeLedger, kept_rwWrite, kept_consWrite, kept_rwsWrite, kept_noBusyBit, kept_outCfgWrite, kept_update]

@[simp] theorem kept_seamCtrlWrite {e v} (h : Kept s₀ s) : Kept s₀ (seamCtrlWrite e v s) := by
  grind [seamCtrlWrite, kept_latchWrite, kept_seamArm, kept_seamCancel, kept_seamDiscard]

@[simp] theorem kept_writeEngine {e r off v} (h : Kept s₀ s) : Kept s₀ (writeEngine e r off v s) := by
  grind [writeEngine, kept_rwWrite, kept_modEngine, kept_patCfgBusy, kept_seamCtrlWrite, kept_update]

@[simp] theorem kept_writePattern {off v} (h : Kept s₀ s) : Kept s₀ (writePattern off v s) := by
  grind [writePattern, kept_rwWrite, kept_modPat, kept_patCfgBusy, kept_loadCtrlFields, kept_goWrite, kept_writeEngine,
    kept_update]

@[simp] theorem kept_writeFault {off v} (h : Kept s₀ s) : Kept s₀ (writeFault off v s) := by
  grind [writeFault, kept_update]

@[simp] theorem kept_ddrCfgWrite {ch off v} (h : Kept s₀ s) : Kept s₀ (ddrCfgWrite ch off v s) := by
  grind [ddrCfgWrite, kept_modChan, kept_rwWrite, kept_update]

@[simp] theorem kept_writeDdr {off v} (h : Kept s₀ s) : Kept s₀ (writeDdr off v s) := by
  grind [writeDdr, kept_modChan, kept_rwWrite, kept_ddrCfgWrite, kept_update]

@[simp] theorem kept_csiCtrlWrite {p off v} (h : Kept s₀ s) : Kept s₀ (csiCtrlWrite p off v s) := by
  grind [csiCtrlWrite, kept_rwWrite, kept_modCsi, kept_update]

@[simp] theorem kept_writeCsi {off v} (h : Kept s₀ s) : Kept s₀ (writeCsi off v s) := by
  grind [writeCsi, kept_rwsWrite, kept_csiCtrlWrite]

@[simp] theorem kept_hrCfgWrite {e r v} (h : Kept s₀ s) : Kept s₀ (hrCfgWrite e r v s) := by
  grind [hrCfgWrite, kept_hostServe, kept_modRing, kept_update]

@[simp] theorem kept_writeEthPort {e r off v} (h : Kept s₀ s) : Kept s₀ (writeEthPort e r off v s) := by
  grind [writeEthPort, kept_modEth, kept_rwWrite, kept_txtsPop, kept_ethTxProduce, kept_rwsWrite, kept_noBusyBit, kept_modRing,
    kept_hrCfgWrite, kept_update]

@[simp] theorem kept_writeEth {off v} (h : Kept s₀ s) : Kept s₀ (writeEth off v s) := by
  grind [writeEth, kept_writeEthPort]

@[simp] theorem kept_writeFuse {off v} (h : Kept s₀ s) : Kept s₀ (writeFuse off v s) := by
  grind [writeFuse, kept_modEvt, kept_modGroup, kept_rwsWrite, kept_update]

@[simp] theorem kept_writePlan {off v} (h : Kept s₀ s) : Kept s₀ (writePlan off v s) := by
  grind [writePlan, kept_modPdie, kept_rwsWrite, kept_update]

@[simp] theorem kept_loopModeWrite {n v} (h : Kept s₀ s) : Kept s₀ (loopModeWrite n v s) := by
  grind [loopModeWrite, kept_modLoop, kept_loopHostReq, kept_update]

@[simp] theorem kept_writeLoop {off v} (h : Kept s₀ s) : Kept s₀ (writeLoop off v s) := by
  grind [writeLoop, kept_modLoop, kept_loopMan, kept_rwsWrite, kept_loopModeWrite, kept_update]

theorem kept_ctrlBit {f : State → State} (hf : ∀ z, Kept s₀ z → Kept s₀ (f z)) {v i} (h : Kept s₀ s) :
    Kept s₀ (ctrlBit v i f s) := by
  unfold ctrlBit
  grind

@[simp] theorem kept_attachCtrl {v} (h : Kept s₀ s) : Kept s₀ (attachCtrl v s) := by
  grind [attachCtrl, kept_fence, kept_unredirect, kept_quiesce, kept_resume, kept_join, kept_attachRestart, kept_ctrlBit]

@[simp] theorem kept_writeAttach {off v} (h : Kept s₀ s) : Kept s₀ (writeAttach off v s) := by
  grind [writeAttach, kept_modPort, kept_rwWrite, kept_failover, kept_cmdRej, kept_attachCtrl, kept_update]

@[simp] theorem kept_writeMsix {port off v} (h : Kept s₀ s) : Kept s₀ (writeMsix port off v s) := by
  grind [writeMsix, kept_modPort, kept_msixUnmask, kept_update]

@[simp] theorem kept_writeGlove {off v} (h : Kept s₀ s) : Kept s₀ (writeGlove off v s) := by
  grind [writeGlove, kept_modGlove, kept_gloveNumClr, kept_palmClr, kept_update]

@[simp] theorem kept_writeLining {off v} (h : Kept s₀ s) : Kept s₀ (writeLining off v s) := by
  grind [writeLining, kept_liningClr]

@[simp] theorem kept_writeBlock {port off v} (h : Kept s₀ s) : Kept s₀ (writeBlock port off v s) :=
  kept_ite (kept_writeMod h) (kept_ite (kept_writeCrown h) (kept_ite (kept_writeTime h) (kept_ite (kept_writeLedger h)
    (kept_ite (kept_writePattern h) (kept_ite (kept_writeFault h) (kept_ite h (kept_ite (kept_writeDdr h) (kept_ite h
    (kept_ite (kept_writeCsi h) (kept_ite h (kept_ite (kept_writeEth h) (kept_ite h (kept_ite (kept_writeFuse h)
    (kept_ite (kept_writePlan h) (kept_ite (kept_writeLoop h) (kept_ite (kept_writeAttach h) (kept_ite (kept_writeMsix h)
    (kept_ite h (kept_ite (kept_writeGlove h) (kept_ite h (kept_ite (kept_writeLining h) h)))))))))))))))))))))

@[simp] theorem kept_write32 {port off v} (h : Kept s₀ s) : Kept s₀ (write32 port off v s) := by
  grind [write32, kept_writeHalf, kept_writeBlock]

@[simp] theorem kept_write64 {port off v} (h : Kept s₀ s) : Kept s₀ (write64 port off v s) := by
  grind [write64, kept_wideSet, kept_write32]

@[simp] theorem kept_regWrite {port off size v} (h : Kept s₀ s) : Kept s₀ (regWrite port off size v s) := by
  grind [regWrite, kept_write32, kept_write64]

/-! #### Machine/Spot -/

@[simp] theorem kept_spotDone {c items} (h : Kept s₀ s) : Kept s₀ (spotDone c items s) := by
  grind [spotDone, kept_drawFree, kept_modCheck, kept_update]

end Operations

/-! #### Every command -/

theorem kept_advanceTo (t : Nat) (s : State) : Kept s (advanceTo t s) := by
  refine ⟨advanceTo_pending t s, ?_, fun h => ?_⟩
  · rw [advanceTo_now]
    exact Nat.le_max_left _ _
  · unfold MemWf
    rw [advanceTo_ddr, advanceTo_host, advanceTo_isl]
    exact h

/-- No command touches the waiting ones, turns time back, or takes a byte memory out of its canonical form. -/
theorem exec_kept {c : Instr} {s u : State} (hexec : exec c s = .next u) : Kept s u := by
  have h : ∀ t, Kept s (advanceTo t s) := fun t => kept_advanceTo t s
  cases c <;> cases hexec
  case rateDriftCheck => exact kept_ite (h _) (kept_latch (h _))
  case mbxDoneClear => exact kept_modMbx (h _) (fun _ => id)
  all_goals simp [h]

end Sys2Proof.Machine

namespace Sys2Proof

open Sys2Proof.Machine

theorem step_of_pending {s : State} {c : Instr} {rest : List Instr} (h : s.pending = c :: rest) :
    Machine.step s = Machine.exec c { s with pending := rest } := by
  unfold Machine.step
  rw [h]

theorem step_of_idle {s : State} (h : s.pending = []) : Machine.step s = .next s := by
  unfold Machine.step
  rw [h]

/-- Settles O1: a step looks at the queue alone to find its command. -/
theorem stepRunsTheFrontCommand : Obligations.StepRunsTheFrontCommand :=
  ⟨fun _ _ _ => rfl, fun _ => step_of_idle⟩

/-- Settles O2: the front command is taken before it is carried out, and no command touches the rest of the queue or turns
time back. -/
theorem everyStepTakesOneCommandAndTimeNeverTurnsBack : Obligations.EveryStepTakesOneCommandAndTimeNeverTurnsBack := by
  intro s t c rest hq hstep
  rw [step_of_pending hq] at hstep
  obtain ⟨hp, hnow, -⟩ := exec_kept hstep
  exact ⟨hp, hnow⟩

/-- Settles O3: the commands keep the canonical form one by one, and an idle step changes nothing. -/
theorem everyMemoryStaysCanonical : Obligations.EveryMemoryStaysCanonical := by
  intro s t hwf hstep
  cases hq : s.pending with
  | nil =>
    rw [step_of_idle hq] at hstep
    cases hstep
    exact hwf
  | cons c rest =>
    rw [step_of_pending hq] at hstep
    obtain ⟨-, -, hmem⟩ := exec_kept hstep
    exact hmem hwf

/-- Settles O4: every memory is empty after reset. -/
theorem resetMemoriesAreCanonical : Obligations.ResetMemoriesAreCanonical :=
  ⟨⟨wf_nil, wf_nil, wf_nil, wf_nil, wf_nil, wf_nil⟩, rfl⟩

end Sys2Proof

/-! SUPPORT. Registers after reset. -/

namespace Sys2Proof

open Sys2Proof.Machine

/-- Settles O5: for either port every listed register evaluates to its reset value. -/
theorem resetRegistersReadAsTheTablesSay : Obligations.ResetRegistersReadAsTheTablesSay := by
  unfold Obligations.ResetRegistersReadAsTheTablesSay
  intro p hp
  obtain rfl | rfl : p = 0 ∨ p = 1 := by omega
  · exact ⟨rfl, rfl, rfl, rfl, rfl, rfl, rfl, rfl, rfl, rfl, rfl⟩
  · exact ⟨rfl, rfl, rfl, rfl, rfl, rfl, rfl, rfl, rfl, rfl, rfl⟩

end Sys2Proof

/-! SUPPORT. The DDR channel's own rules (R373, R375, R383): what a change of one channel leaves alone, what the DRAIN rule
and the bank arbiter may answer, and one equation for each case of DDR_COMMAND_ISSUE. -/

namespace Sys2Proof.Machine

/-! ### A change of one channel -/

/-- `u` differs from `s` in the record of channel `ch` only. -/
def OnlyChan (ch : Nat) (s u : State) : Prop :=
  (∀ j, j ≠ ch → chan j u = chan j s) ∧ u.ddr.mem = s.ddr.mem ∧ u = { s with ddr := u.ddr }

theorem onlyChan_modChan (ch : Nat) (f : DdrChan → DdrChan) (s : State) : OnlyChan ch s (modChan ch f s) :=
  ⟨fun _ h => chan_modChan_ne f s h, rfl, rfl⟩

/-! ### DRAIN mode -/

/-- The DRAIN rule changes its two flags and nothing else. -/
theorem drainMode_eq (c : DdrChan) : ∃ a b, drainMode c = { c with drain := a, drainIdle := b } := by
  unfold drainMode
  dsimp only
  (repeat' split) <;> exact ⟨_, _, rfl⟩

@[simp] theorem drainMode_reads (c : DdrChan) : (drainMode c).reads = c.reads := by
  obtain ⟨a, b, h⟩ := drainMode_eq c; rw [h]

@[simp] theorem drainMode_writes (c : DdrChan) : (drainMode c).writes = c.writes := by
  obtain ⟨a, b, h⟩ := drainMode_eq c; rw [h]

@[simp] theorem drainMode_flight (c : DdrChan) : (drainMode c).flight = c.flight := by
  obtain ⟨a, b, h⟩ := drainMode_eq c; rw [h]

@[simp] theorem drainMode_poison (c : DdrChan) : (drainMode c).poison = c.poison := by
  obtain ⟨a, b, h⟩ := drainMode_eq c; rw [h]

/-! ### The bank arbiter -/

section Arbiter
variable {α : Type} {lineOf ordOf : α → Nat} {xs : List α} {x : α}

/-- The older of a kept request and the next one: the step of the arbiter's search. -/
theorem foldl_oldest_mem (a : Option α) (h : xs.foldl (fun a x => match a with
    | none => some x
    | some y => if ordOf x < ordOf y then some x else some y) a = some x) : a = some x ∨ x ∈ xs := by
  induction xs generalizing a with
  | nil => exact .inl h
  | cons z zs ih =>
    rcases ih _ h with hz | hm
    · cases a with
      | none => cases hz; exact .inr (by simp)
      | some y =>
        dsimp only at hz
        split at hz
        · cases hz; exact .inr (by simp)
        · exact .inl hz
    · exact .inr (List.mem_cons_of_mem _ hm)

/-- The arbiter picks a waiting request of the bank it looks at. -/
theorem bankPick_mem {b : Nat} {c : DdrChan} (h : bankPick lineOf ordOf b c xs = some x) :
    x ∈ xs ∧ bankIx (lineOf x) = b := by
  have hmine : x ∈ xs.filter (fun x => bankIx (lineOf x) == b) := by
    unfold bankPick at h
    dsimp only at h
    split at h
    · split at h
      · next y hy => cases h; exact List.mem_of_find?_eq_some hy
      · exact (foldl_oldest_mem _ h).resolve_left (by simp)
    · exact (foldl_oldest_mem _ h).resolve_left (by simp)
  simpa using hmine

/-- The bank served is ready, and the request is one of that bank. -/
theorem firstBank_mem {b : Nat} {c : DdrChan} {ready : List Nat} (h : firstBank ready lineOf ordOf c xs = some (b, x)) :
    b ∈ ready ∧ x ∈ xs ∧ bankIx (lineOf x) = b := by
  obtain ⟨b', hb', hx⟩ := List.exists_of_findSome?_eq_some h
  obtain ⟨y, hy, heq⟩ := Option.map_eq_some_iff.1 hx
  cases heq
  exact ⟨by simpa using (List.mem_filter.1 hb').2, bankPick_mem hy⟩

end Arbiter

theorem mem_writable {w : DdrWrite} {c : DdrChan} (h : w ∈ writable c) :
    w ∈ c.writes ∧ w.merge = false ∧ w.stuck = false := by
  obtain ⟨hw, hp⟩ := List.mem_filter.1 h
  simp only [Bool.and_eq_true, Bool.not_eq_true'] at hp
  exact ⟨hw, hp.1.1, hp.1.2⟩

/-! ### Bytes stored one by one -/

/-- Storing listed bytes leaves every other byte alone. -/
theorem rd8_foldl_wr8_out (bs : List (Nat × Byte)) (m : Mem) (base a : Nat) (h : ∀ x ∈ bs, a ≠ base + x.1) :
    rd8 (bs.foldl (fun m x => wr8 m (base + x.1) x.2) m) a = rd8 m a := by
  induction bs generalizing m with
  | nil => rfl
  | cons y ys ih =>
    rw [List.foldl_cons, ih _ (fun x hx => h x (List.mem_cons_of_mem _ hx)), rd8_wr8, if_neg (h y (by simp))]

/-- A byte stored at an offset that is listed once reads back. -/
theorem rd8_foldl_wr8_in (bs : List (Nat × Byte)) (m : Mem) (base : Nat) (hn : (bs.map (·.1)).Nodup) :
    ∀ x ∈ bs, rd8 (bs.foldl (fun m x => wr8 m (base + x.1) x.2) m) (base + x.1) = x.2 := by
  induction bs generalizing m with
  | nil => simp
  | cons y ys ih =>
    rw [List.map_cons, List.nodup_cons] at hn
    intro x hx
    rcases List.mem_cons.1 hx with rfl | hx
    · rw [List.foldl_cons, rd8_foldl_wr8_out, rd8_wr8, if_pos rfl]
      intro z hz heq
      exact hn.1 (List.mem_map.2 ⟨z, hz, by omega⟩)
    · exact ih _ hn.2 x hx

/-! ### DDR_COMMAND_ISSUE, case by case -/

section Issue
variable {ch : Nat} {ready : List Nat} {s : State}

/-- The channel is active, works, and neither a refresh nor a ZQ calibration waits. -/
def MayIssue (ch : Nat) (s : State) : Prop :=
  chanUp ch s = true ∧ (drainMode (chan ch s)).st = .active ∧ (drainMode (chan ch s)).refDue = false
    ∧ (drainMode (chan ch s)).zqDue = false

theorem commandIssue_refresh (hup : chanUp ch s = true) (hst : (drainMode (chan ch s)).st = .active)
    (hdue : (drainMode (chan ch s)).refDue = true) :
    commandIssue ch ready s = modChan ch (fun _ => issueRefresh s.time.now (drainMode (chan ch s))) s := by
  simp [commandIssue, hup, hst, hdue]

theorem commandIssue_zq (hup : chanUp ch s = true) (hst : (drainMode (chan ch s)).st = .active)
    (hdue : (drainMode (chan ch s)).refDue = false) (hzq : (drainMode (chan ch s)).zqDue = true) :
    commandIssue ch ready s = modChan ch (fun _ => { drainMode (chan ch s) with zqDue := false }) s := by
  simp [commandIssue, hup, hst, hdue, hzq]

theorem commandIssue_merge {w : DdrWrite} (h : MayIssue ch s) (hw : mergeRead (drainMode (chan ch s)) = some w) :
    ∃ f : DdrChan → DdrChan, commandIssue ch ready s = modChan ch f s
      ∧ (f (chan ch s)).writes = (chan ch s).writes ∧ (f (chan ch s)).reads = (chan ch s).reads
      ∧ (f (chan ch s)).flight = (chan ch s).flight ++ [{ line := w.line, who := w.who, secure := w.secure, ord := w.ord
                                                          merge := true, poison := (chan ch s).poison.contains w.line }] := by
  obtain ⟨hup, hst, hdue, hzq⟩ := h
  refine ⟨_, by simp only [commandIssue, hup, hst, hdue, hzq, hw]; rfl, ?_, ?_, ?_⟩ <;> simp [picked]

theorem commandIssue_read {b : Nat} {r : DdrRead} (h : MayIssue ch s) (hm : mergeRead (drainMode (chan ch s)) = none)
    (hd : (drainMode (chan ch s)).drain = false)
    (hr : firstBank ready DdrRead.line DdrRead.ord (drainMode (chan ch s)) (drainMode (chan ch s)).reads = some (b, r)) :
    ∃ f : DdrChan → DdrChan, commandIssue ch ready s = modChan ch f s
      ∧ (f (chan ch s)).writes = (chan ch s).writes
      ∧ (f (chan ch s)).reads = (chan ch s).reads.filter (fun x => x.ord != r.ord)
      ∧ (f (chan ch s)).flight = (chan ch s).flight ++ [{ r with poison := (chan ch s).poison.contains r.line }] := by
  obtain ⟨hup, hst, hdue, hzq⟩ := h
  refine ⟨_, by simp only [commandIssue, hup, hst, hdue, hzq, hm, hd, hr]; rfl, ?_, ?_, ?_⟩ <;> simp [picked]

theorem commandIssue_write {b : Nat} {w : DdrWrite} (h : MayIssue ch s) (hm : mergeRead (drainMode (chan ch s)) = none)
    (hd : (drainMode (chan ch s)).drain = true)
    (hw : firstBank ready DdrWrite.line DdrWrite.ord (drainMode (chan ch s)) (writable (drainMode (chan ch s))) = some (b, w)) :
    commandIssue ch ready s = issueWrite ch b w s := by
  obtain ⟨hup, hst, hdue, hzq⟩ := h
  simp [commandIssue, hup, hst, hdue, hzq, hm, hd, hw]

end Issue

/-! ### The write that leaves the queue -/

section IssueWrite
variable (ch b : Nat) (w : DdrWrite) (s : State)

theorem issueWrite_mem :
    (issueWrite ch b w s).ddr.mem = w.bytes.foldl (fun m x => wr8 m (lineAddr ch w.line + x.1) x.2) s.ddr.mem := rfl

theorem issueWrite_frame : issueWrite ch b w s = { s with ddr := (issueWrite ch b w s).ddr } := rfl

theorem chan_issueWrite (j : Nat) : chan j (issueWrite ch b w s)
    = chan j (modChan ch (fun c => drainMode (picked b w.line 2 (overtakes DdrWrite.line DdrWrite.ord b c (writable c) w)
        { c with writes := c.writes.filter (fun x => x.line != w.line), poison := c.poison.filter (· != w.line) })) s) := rfl

theorem chan_issueWrite_same :
    (chan ch (issueWrite ch b w s)).writes = (chan ch s).writes.filter (fun x => x.line != w.line)
    ∧ w.line ∉ (chan ch (issueWrite ch b w s)).poison
    ∧ (chan ch (issueWrite ch b w s)).reads = (chan ch s).reads
    ∧ (chan ch (issueWrite ch b w s)).flight = (chan ch s).flight := by
  rw [chan_issueWrite, chan_modChan_same]
  refine ⟨?_, ?_, ?_, ?_⟩ <;> simp [picked]

theorem chan_issueWrite_ne {j : Nat} (h : j ≠ ch) : chan j (issueWrite ch b w s) = chan j s := by
  rw [chan_issueWrite, chan_modChan_ne _ _ h]

end IssueWrite

/-! ### Refresh, watchdog, temperature and calibration -/

section Refresh
variable {ch : Nat} {s : State}

/-- DDR_REFRESH_DUE of a channel that refreshes, once tREFI is over. -/
theorem refreshDue_of_due (hr : refreshes ch s = true) (hd : (chan ch s).refDue = false)
    (ht : (chan ch s).lastRef + ((chan ch s).postponed + 1) * trefi (chan ch s) ≤ s.time.now) :
    refreshDue ch s =
      if (chan ch s).reads.isEmpty then modChan ch (issueRefresh s.time.now) s
      else if (chan ch s).postponed < 4 then
        modChan ch (fun x => { x with postponed := x.postponed + 1, postMax := max x.postMax (x.postponed + 1) }) s
      else modChan ch (fun x => { x with refDue := true }) s := by
  simp [refreshDue, hr, hd, Nat.not_lt.2 ht]

theorem tempRead_of_refreshes (deg : Int) (hr : refreshes ch s = true) :
    tempRead ch deg s
      = settle (modChan ch (fun c => { c with ref2x := decide (85 < deg), tempHigh := decide (95 < deg) }) s) := by
  simp [tempRead, hr]

end Refresh

end Sys2Proof.Machine

namespace Sys2Proof

open Sys2Proof.Machine

/-- Settles O24: each kind of command is one equation for `commandIssue`, and the arbiter's answer is a waiting request of
a ready bank. -/
theorem ddrCommandsRefreshesAndTemperature : Obligations.DdrCommandsRefreshesAndTemperature := by
  unfold Obligations.DdrCommandsRefreshesAndTemperature
  intro t ch s0 s c d only
  refine ⟨fun hup hst ready => ⟨fun hdue => ?_, fun hdue hzq => ?_, fun w hdue hzq hw => ?_, fun hdue hzq hm =>
    ⟨fun b r hd hr => ?_, fun b w hd hw => ?_⟩⟩, fun hr hdue ht => ?_, fun hr ht => ?_, fun ht => ?_, fun deg hr => ?_,
    fun hr hdue => ?_, fun h => ?_⟩
  · refine ⟨_, congrArg Host.Outcome.next (commandIssue_refresh hup hst hdue), onlyChan_modChan _ _ _, ?_⟩
    rw [chan_modChan_same]; rfl
  · refine ⟨_, congrArg Host.Outcome.next (commandIssue_zq hup hst hdue hzq), onlyChan_modChan _ _ _, ?_⟩
    rw [chan_modChan_same]
  · obtain ⟨f, hf, hwr, hrd, hfl⟩ := commandIssue_merge (ready := ready) ⟨hup, hst, hdue, hzq⟩ hw
    refine ⟨_, congrArg Host.Outcome.next hf, onlyChan_modChan _ _ _, ?_⟩
    rw [chan_modChan_same]
    exact ⟨hwr, hrd, hfl⟩
  · obtain ⟨f, hf, hwr, hrd, hfl⟩ := commandIssue_read ⟨hup, hst, hdue, hzq⟩ hm hd hr
    obtain ⟨hb, hmem, hix⟩ := firstBank_mem hr
    rw [drainMode_reads] at hmem
    refine ⟨_, congrArg Host.Outcome.next hf, onlyChan_modChan _ _ _, hmem, hb, hix, ?_⟩
    rw [chan_modChan_same]
    exact ⟨hfl, hrd, hwr⟩
  · obtain ⟨hb, hmem, hix⟩ := firstBank_mem hw
    obtain ⟨hw', hmerge, hstuck⟩ := mem_writable hmem
    rw [drainMode_writes] at hw'
    refine ⟨_, congrArg Host.Outcome.next (commandIssue_write ⟨hup, hst, hdue, hzq⟩ hm hd hw), hw', hmerge, hstuck, hb, hix, ?_⟩
    obtain ⟨hwr, hpo, hrd, hfl⟩ := chan_issueWrite_same ch b w s
    exact ⟨hwr, hpo, hrd, hfl, fun hn => rd8_foldl_wr8_in _ _ _ hn, fun a ha => rd8_foldl_wr8_out _ _ _ _ ha,
      fun j hj => chan_issueWrite_ne ch b w s hj, issueWrite_frame ch b w s⟩
  · refine ⟨_, congrArg Host.Outcome.next (refreshDue_of_due hr hdue ht), ?_, fun h0 => ?_, fun h0 hp => ?_, fun h0 hp => ?_⟩
    · (repeat' split) <;> exact onlyChan_modChan _ _ _
    · rw [if_pos (by simpa [c, s] using h0), chan_modChan_same]; rfl
    · rw [if_neg (by simpa [c, s] using h0), if_pos hp, chan_modChan_same]
    · rw [if_neg (by simpa [c, s] using h0), if_neg (Nat.not_lt.2 hp), chan_modChan_same]
  · refine ⟨_, congrArg Host.Outcome.next (if_pos ⟨hr, ht⟩), by simp, rfl⟩
  · exact congrArg Host.Outcome.next (if_neg fun h => Nat.not_le.2 ht h.2)
  · refine ⟨_, congrArg Host.Outcome.next (tempRead_of_refreshes deg hr), ?_, fun j hj => ?_, ?_⟩
    · rw [chan_settle, chan_modChan_same]
    · rw [chan_settle, chan_modChan_ne _ _ hj]
    · obtain ⟨a, b, h⟩ := settle_eq (modChan ch (fun c => { c with ref2x := decide (85 < deg), tempHigh := decide (95 < deg) }) s)
      rw [h]
      exact ⟨rfl, rfl⟩
  · refine ⟨_, congrArg Host.Outcome.next (if_pos ⟨hr, hdue⟩), onlyChan_modChan _ _ _, ?_⟩
    rw [chan_modChan_same]
  · refine congrArg Host.Outcome.next (if_neg fun h' => ?_)
    rcases h with h | h
    · exact absurd h'.1 (by rw [h]; decide)
    · exact absurd h'.2 (by rw [h]; decide)

end Sys2Proof

/-! SUPPORT. What the error records of a DDR channel change (R377 to R382): the log, the counters and the latched sources
of one channel, and nothing else. -/

namespace Sys2Proof.Machine

/-! ### A change of one channel and of latched sources -/

/-- `u` differs from `s` in the record of channel `ch` and in latched sources only. -/
def OnlyChanAndSources (ch : Nat) (s u : State) : Prop :=
  (∀ j, j ≠ ch → chan j u = chan j s) ∧ u.ddr.mem = s.ddr.mem
    ∧ u = { s with ddr := u.ddr, fault := { s.fault with src := u.fault.src } }

theorem OnlyChanAndSources.trans {ch : Nat} {s u v : State} (h : OnlyChanAndSources ch s u)
    (k : OnlyChanAndSources ch u v) : OnlyChanAndSources ch s v := by
  obtain ⟨hc, hm, hu⟩ := h
  obtain ⟨kc, km, kv⟩ := k
  refine ⟨fun j hj => (kc j hj).trans (hc j hj), km.trans hm, ?_⟩
  calc v = { u with ddr := v.ddr, fault := { u.fault with src := v.fault.src } } := kv
    _ = _ := by rw [hu]

theorem onlyChanAndSources_modChan (ch : Nat) (f : DdrChan → DdrChan) (s : State) :
    OnlyChanAndSources ch s (modChan ch f s) := ⟨fun _ h => chan_modChan_ne f s h, rfl, rfl⟩

theorem onlyChanAndSources_latch (ch id d : Nat) (s : State) : OnlyChanAndSources ch s (latch id d s) :=
  ⟨fun _ _ => rfl, rfl, rfl⟩

/-! ### The error log and the sources -/

section Log
variable (ch line kind syms req : Nat) (errs : List (Nat × Nat)) (s : State)

/-- One log entry (R381): it stands at the write index, which moves on; the rest of the channel is as it was. -/
theorem chan_ddrLog : ∃ e : DdrLog, chan ch (ddrLog ch line kind syms req errs s)
      = { chan ch s with
          elogWr := wrapAdd 16 (chan ch s).elogWr 1, elog := tset {} ((chan ch s).elogWr % 16) e (chan ch s).elog }
    ∧ e.kind = kind ∧ e.symbols = syms ∧ e.req = req ∧ e.addr = lineAddr ch line :=
  ⟨_, chan_modChan_same _ _ _, rfl, rfl, rfl, rfl⟩

theorem onlyChanAndSources_ddrLog : OnlyChanAndSources ch s (ddrLog ch line kind syms req errs s) :=
  onlyChanAndSources_modChan _ _ _

@[simp] theorem chan_ddrRaise (j off : Nat) : chan j (ddrRaise ch off line errs s) = chan j s := rfl

theorem fsrc_ddrRaise (off : Nat) : (fsrc (srcDdr ch off) (ddrRaise ch off line errs s)).latched = true
    ∧ (fsrc (srcDdr ch off) (ddrRaise ch off line errs s)).detail = ddrDetail line errs := by
  simp [ddrRaise]

theorem onlyChanAndSources_ddrRaise (off : Nat) : OnlyChanAndSources ch s (ddrRaise ch off line errs s) :=
  onlyChanAndSources_latch _ _ _ _

end Log

/-- A logged error that is also raised: the frame of the two together. -/
theorem onlyChanAndSources_logRaise (ch off line kind syms req : Nat) (errs : List (Nat × Nat)) {s u : State}
    (h : OnlyChanAndSources ch s u) :
    OnlyChanAndSources ch s (ddrRaise ch off line errs (ddrLog ch line kind syms req errs u)) :=
  (h.trans (onlyChanAndSources_ddrLog _ _ _ _ _ _ _)).trans (onlyChanAndSources_ddrRaise _ _ _ _ _)

/-! ### Bus errors (R382) -/

/-- Replaying the commands from the oldest on leaves open, bank by bank, the row of the newest command of the bank. -/
theorem tget_replayed (b : Nat) (cmds : List (Nat × Nat)) :
    tget none b (cmds.foldr (fun x t => tset none (bankIx x.1) (some (rowOf x.1)) t) [])
      = (cmds.find? (fun x => bankIx x.1 == b)).map (fun x => rowOf x.1) := by
  induction cmds with
  | nil => rfl
  | cons x xs ih =>
    rw [List.foldr_cons, tget_tset, List.find?_cons]
    by_cases hb : bankIx x.1 = b
    · simp [hb]
    · rw [if_neg (Ne.symm hb), ih, beq_eq_false_iff_ne.2 hb]

theorem caParity_of_runs {ch : Nat} {s : State} (back : Nat) (h : chanRuns ch s = true) :
    ∃ line, caParity ch back s = ddrRaise ch 2 line [] (ddrLog ch line 6 0xFF (reqCode .scrub false) []
      (modChan ch (fun c => { c with caPar := satAdd 16 c.caPar 1, openRow := reopened back c, rowHits := [] }) s)) := by
  unfold caParity
  rw [h]
  exact ⟨_, rfl⟩

/-- Re-issues a write may have (R382); the register's 0 counts as 1. -/
def crcLimit (c : DdrChan) : Nat := if c.wcrcRetry = 0 then 1 else c.wcrcRetry

theorem writeCrc_retry {ch line : Nat} {s : State} {w : DdrWrite} (hr : chanRuns ch s = true)
    (hw : queuedWrite ch line s = some w) (hs : w.stuck = false) (hl : w.retries < crcLimit (chan ch s)) :
    writeCrc ch line s = modChan ch (fun c => { c with
      wcrc := satAdd 16 c.wcrc 1
      writes := c.writes.map (fun x => if x.line = line then { x with retries := x.retries + 1 } else x) }) s := by
  unfold crcLimit at hl
  simp only [writeCrc, hw, hr, hs, hl]
  rfl

theorem writeCrc_stuck {ch line : Nat} {s : State} {w : DdrWrite} (hr : chanRuns ch s = true)
    (hw : queuedWrite ch line s = some w) (hs : w.stuck = false) (hl : crcLimit (chan ch s) ≤ w.retries) :
    writeCrc ch line s = ddrRaise ch 3 line [] (ddrLog ch line 7 0xFF (reqCode w.who true) []
      (modWrites ch (fun ws => ws.map (fun x => if x.line = line then { x with stuck := true } else x)) s)) := by
  unfold crcLimit at hl
  simp only [writeCrc, hw, hr, hs, Nat.not_lt.2 hl]
  rfl

/-- The queued write of a line after a change of that line's entries. -/
theorem queuedWrite_of_map {ch line : Nat} {s u : State} {w : DdrWrite} {f : DdrWrite → DdrWrite}
    (hf : ∀ x, (f x).line = x.line) (hw : queuedWrite ch line s = some w)
    (hu : (chan ch u).writes = (chan ch s).writes.map (fun x => if x.line = line then f x else x)) :
    queuedWrite ch line u = some (f w) := by
  unfold queuedWrite at hw ⊢
  have hline : w.line = line := by simpa using List.find?_some hw
  rw [hu, find_map_line line _ (fun x => by split <;> simp [hf]), hw, Option.map_some, if_pos hline]

theorem controllerParity_of_runs {ch : Nat} {s : State} (h : chanRuns ch s = true) :
    controllerParity ch s = latch (srcDdr ch 7) 0 s := by
  unfold controllerParity; rw [h]; rfl

/-! ### Low-power states and training (R384 to R386) -/

theorem powerDown_of_busy {ch : Nat} {s : State} (h : chanIdle (chan ch s) = false) : powerDown ch s = s := by
  simp [powerDown, h]

theorem selfRefresh_of_busy {ch : Nat} {s : State} (h : chanIdle (chan ch s) = false) : selfRefresh ch s = s := by
  simp [selfRefresh, h]

section Training
variable {ch : Nat} {s : State} (step device us : Nat)

theorem trainingDone_failed (seeds : Bool) (hb : booting s = true) (hst : s.sec.stage = 3) (hch : ch < 12)
    (hna : (chan ch s).st ≠ .active) :
    trainingDone ch false seeds step device us s = stopStart 0x06 (latch (srcDdr ch 5) 0 (modChan ch (fun c => { c with
      st := .trainFailed, trainResult := 3, trainStep := step % 8, trainDevice := device % 16, trainUs := us % 2 ^ 32 }) s)) := by
  unfold trainingDone
  rw [if_neg (by simp [hb, hst, hna]; omega)]
  rfl

/-- The channel after a successful training. -/
def trainedChan (seeds : Bool) (us : Nat) (s : State) (c : DdrChan) : DdrChan :=
  { c with
    st := .active, trainResult := if s.crown.calDdr ∧ seeds then 1 else 2, trainStep := 0, trainDevice := 0
    trainUs := us % 2 ^ 32, lastRef := s.time.now, lastUse := s.time.now }

theorem trainingDone_ok (seeds : Bool) (hb : booting s = true) (hst : s.sec.stage = 3) (hch : ch < 12)
    (hna : (chan ch s).st ≠ .active) :
    trainingDone ch true seeds step device us s =
      if allTrained (modChan ch (trainedChan seeds us s) s) then
        { modChan ch (trainedChan seeds us s) s with
          power := { s.power with trained := true }, sec := { s.sec with stage := 4 }
          fault := { s.fault with sweepAt := some s.time.now } }
      else modChan ch (trainedChan seeds us s) s := by
  unfold trainingDone
  rw [if_neg (by simp [hb, hst, hna]; omega)]
  rfl

/-- The twelfth channel to be trained is the last: every other one is active. -/
theorem allTrained_modChan (f : DdrChan → DdrChan) (hf : (f (chan ch s)).st = .active) :
    allTrained (modChan ch f s) = true ↔ ∀ j, j < 12 → j ≠ ch → (chan j s).st = .active := by
  simp only [allTrained, List.all_eq_true, List.mem_range, beq_iff_eq]
  refine forall_congr' fun j => imp_congr_right fun _ => ?_
  by_cases hj : j = ch
  · subst hj; simp [hf]
  · simp [hj, chan_modChan_ne]

end Training

end Sys2Proof.Machine

namespace Sys2Proof

open Sys2Proof.Machine

/-- Settles O26: each command is one equation of its operation on a channel that runs, and the log and the sources are
written by the same two operations each time. -/
theorem ddrBusErrorsLowPowerStatesAndTraining : Obligations.DdrBusErrorsLowPowerStatesAndTraining := by
  unfold Obligations.DdrBusErrorsLowPowerStatesAndTraining
  intro t ch s0 s c only
  refine ⟨fun hr => ⟨fun back => ?_, fun line w hw hs => ?_, ?_⟩, fun hup hidle => ⟨fun hst hdue hpd ht => ?_, fun hst hsr => ?_⟩,
    fun hbusy => ?_, fun ok seeds step device us hb hstage hch hna => ?_⟩
  · obtain ⟨line, hu⟩ := caParity_of_runs back hr
    refine ⟨_, congrArg Host.Outcome.next hu,
      onlyChanAndSources_logRaise _ _ _ _ _ _ _ (onlyChanAndSources_modChan _ _ _), ?_⟩
    rw [chan_ddrRaise]
    obtain ⟨e, hlog, hkind, -⟩ := chan_ddrLog ch line 6 0xFF (reqCode .scrub false) []
      (modChan ch (fun c => { c with caPar := satAdd 16 c.caPar 1, openRow := reopened back c, rowHits := [] }) s)
    rw [hlog, chan_modChan_same]
    exact ⟨rfl, fun b => tget_replayed b _, by rw [tget_tset_same, hkind], (fsrc_ddrRaise _ _ _ _ _).1, rfl, rfl, rfl⟩
  · rcases Nat.lt_or_ge w.retries (crcLimit c) with hl | hl
    · refine ⟨_, congrArg Host.Outcome.next (writeCrc_retry hr hw hs hl), onlyChanAndSources_modChan _ _ _,
        fun _ => ⟨by rw [chan_modChan_same], rfl, ?_⟩, fun h => absurd h (Nat.not_le.2 hl)⟩
      exact queuedWrite_of_map (f := fun x => { x with retries := x.retries + 1 }) (fun _ => rfl) hw (by rw [chan_modChan_same])
    · refine ⟨_, congrArg Host.Outcome.next (writeCrc_stuck hr hw hs hl),
        onlyChanAndSources_logRaise _ _ _ _ _ _ _ (onlyChanAndSources_modChan _ _ _),
        fun h => absurd h (Nat.not_lt.2 hl), fun _ => ?_⟩
      obtain ⟨e, hlog, hkind, -⟩ := chan_ddrLog ch line 7 0xFF (reqCode w.who true) []
        (modWrites ch (fun ws => ws.map (fun x => if x.line = line then { x with stuck := true } else x)) s)
      refine ⟨queuedWrite_of_map (f := fun x => { x with stuck := true }) (fun _ => rfl) hw ?_, ?_, (fsrc_ddrRaise _ _ _ _ _).1⟩
      · rw [chan_ddrRaise, hlog, modWrites, chan_modChan_same]
      · rw [chan_ddrRaise, hlog]
        simp only [modWrites, chan_modChan_same]
        rw [tget_tset_same, hkind]
  · exact ⟨_, congrArg Host.Outcome.next (controllerParity_of_runs hr), by simp, rfl⟩
  · refine ⟨_, congrArg Host.Outcome.next (if_pos ⟨hup, hst, hidle, by rw [hdue]; rfl, hpd, ht⟩),
      onlyChanAndSources_modChan _ _ _, rfl, ?_⟩
    rw [chan_modChan_same]
  · refine ⟨_, congrArg Host.Outcome.next (if_pos ⟨hup, hst, hidle, hsr⟩), onlyChanAndSources_modChan _ _ _, rfl, ?_⟩
    rw [chan_modChan_same]
    exact ⟨rfl, rfl⟩
  · exact ⟨congrArg Host.Outcome.next (powerDown_of_busy hbusy), congrArg Host.Outcome.next (selfRefresh_of_busy hbusy)⟩
  · cases ok with
    | false =>
      refine ⟨_, congrArg Host.Outcome.next (trainingDone_failed step device us seeds hb hstage hch hna), nofun, fun _ => ?_⟩
      have hchan := chan_modChan_same ch (fun c => { c with
        st := .trainFailed, trainResult := 3, trainStep := step % 8, trainDevice := device % 16, trainUs := us % 2 ^ 32 }) s
      exact ⟨congrArg (·.st) hchan, congrArg (·.trainStep) hchan, congrArg (·.trainDevice) hchan, rfl, rfl,
        stopStart_pinsLow _ _, by rw [fsrc_stopStart, fsrc_latch_same]⟩
    | true =>
      refine ⟨_, congrArg Host.Outcome.next (trainingDone_ok step device us seeds hb hstage hch hna), fun _ => ?_, nofun⟩
      have hall := allTrained_modChan (ch := ch) (s := s) (trainedChan seeds us s) rfl
      have hchan : ∀ p sec fault j, chan j { modChan ch (trainedChan seeds us s) s with power := p, sec := sec, fault := fault }
        = chan j (modChan ch (trainedChan seeds us s) s) := fun _ _ _ _ => rfl
      split
      · next h =>
        rw [hchan, chan_modChan_same]
        refine ⟨rfl, rfl, fun _ => ⟨rfl, rfl⟩, fun ⟨j, hj, hne, hn⟩ => absurd (hall.1 h j hj hne) hn, fun j hj => ?_⟩
        rw [hchan, chan_modChan_ne _ _ hj]
      · next h =>
        rw [chan_modChan_same]
        exact ⟨rfl, rfl, fun h' => absurd (hall.2 h') h, fun _ => ⟨rfl, rfl⟩, fun j hj => chan_modChan_ne _ _ hj⟩

end Sys2Proof

/-! SUPPORT. The decoding of a read (R376 to R381), case by case of R376's classification. -/

namespace Sys2Proof.Machine

/-! ### Counters -/

section Counts
variable (ch line kind req : Nat) (es : List (Nat × Nat)) (s : State)

theorem onlyChanAndSources_countCe : OnlyChanAndSources ch s (countCe ch line req es s) :=
  onlyChanAndSources_logRaise _ _ _ _ _ _ _ (onlyChanAndSources_modChan _ _ _)

/-- A corrected line (R377): the counters and a log entry of KIND 1. -/
theorem chan_countCe : ∃ e : DdrLog, ∃ dev, chan ch (countCe ch line req es s)
      = { chan ch s with
          ce := satAdd 16 (chan ch s).ce 1, devCe := dev, elogWr := wrapAdd 16 (chan ch s).elogWr 1
          elog := tset {} ((chan ch s).elogWr % 16) e (chan ch s).elog }
    ∧ e.kind = 1 ∧ e.symbols = es.length ∧ e.req = req ∧ e.addr = lineAddr ch line := by
  unfold countCe
  rw [chan_ddrRaise]
  obtain ⟨e, he, hf⟩ := chan_ddrLog ch line 1 es.length req es (modChan ch (fun c => { c with
    ce := satAdd 16 c.ce 1
    devCe := (errDevices es).foldl (fun t d => tmod 0 d (fun v => satAdd 16 v 1) t) c.devCe }) s)
  rw [he, chan_modChan_same]
  exact ⟨e, _, rfl, hf⟩

theorem fsrc_countCe : (fsrc (srcDdr ch 0) (countCe ch line req es s)).latched = true
    ∧ (fsrc (srcDdr ch 0) (countCe ch line req es s)).detail = ddrDetail line es := fsrc_ddrRaise _ _ _ _ _

/-- A read that cannot be delivered (R377): the count, the log entry and the UE source, before the error response. -/
def countBad (ch line kind req : Nat) (es : List (Nat × Nat)) (s : State) : State :=
  ddrRaise ch 1 line es (ddrLog ch line kind 0xFF req es (countUe ch s))

theorem onlyChanAndSources_countBad : OnlyChanAndSources ch s (countBad ch line kind req es s) :=
  onlyChanAndSources_logRaise _ _ _ _ _ _ _ (onlyChanAndSources_modChan _ _ _)

theorem chan_logUe : ∃ e : DdrLog, chan ch (ddrLog ch line kind 0xFF req es (countUe ch s))
      = { chan ch s with
          ue := satAdd 16 (chan ch s).ue 1, elogWr := wrapAdd 16 (chan ch s).elogWr 1
          elog := tset {} ((chan ch s).elogWr % 16) e (chan ch s).elog }
    ∧ e.kind = kind ∧ e.addr = lineAddr ch line := by
  obtain ⟨e, he, hk, -, -, ha⟩ := chan_ddrLog ch line kind 0xFF req es (countUe ch s)
  rw [he, countUe, chan_modChan_same]
  exact ⟨e, rfl, hk, ha⟩

end Counts

/-! ### Demand reads -/

section Demand
variable {ch : Nat} {r : DdrRead} {es : List (Nat × Nat)} {s : State}

theorem decodeDemand_clean (h : decodeLine es = .clean) : decodeDemand ch r es s = s := by simp [decodeDemand, h]

theorem decodeDemand_corrected {n : Nat} (h : decodeLine es = .corrected n) :
    decodeDemand ch r es s = countCe ch r.line (reqCode r.who false) es s := by simp [decodeDemand, h]

theorem decodeDemand_bad (h : decodeLine es = .uncorrectable ∨ decodeLine es = .poisoned) :
    decodeDemand ch r es s = errorResponse r.who 64 2 (0x10 + ch)
      (countBad ch r.line (if decodeLine es = .poisoned then 5 else 2) (reqCode r.who false) es s) := by
  rcases h with h | h <;> simp [decodeDemand, countBad, h]

end Demand

/-- A corrected line has as many symbols as errors were seen. -/
theorem length_of_corrected {es : List (Nat × Nat)} {n : Nat} (h : decodeLine es = .corrected n) : es.length = n := by
  unfold decodeLine at h
  split at h
  · cases h
  · split at h
    · cases h
    · split at h
      · cases h; rfl
      · split at h
        · cases h
        · split at h <;> cases h

/-- Only the pattern 0x5A in every check symbol reads as poison (R378). -/
theorem eq_poisonErrs {es : List (Nat × Nat)} (h : decodeLine es = .poisoned) : es = poisonErrs := by
  unfold decodeLine at h
  split at h
  · cases h
  · split at h
    · next hp => exact hp
    · split at h
      · cases h
      · split at h
        · cases h
        · split at h <;> cases h

/-! ### Merge reads -/

section Merge
variable {ch : Nat} {r : DdrRead} {es : List (Nat × Nat)} {s : State}

/-- The bytes read go under the new ones, and the entry waits no more. -/
def filled (old : List Byte) (x : DdrWrite) : DdrWrite :=
  { x with bytes := mergeBytes (old.mapIdx (fun i b => (i, b))) x.bytes, merge := false, waiters := [] }

theorem filled_line (old : List Byte) (x : DdrWrite) : (filled old x).line = x.line := rfl

theorem decodeMerge_clean (h : decodeLine es = .clean) :
    decodeMerge ch r es s = modWrites ch (fun ws => ws.map (fun x =>
      if x.line = r.line then filled (rdBytes s.ddr.mem (lineAddr ch r.line) 64) x else x)) s := by
  simp only [decodeMerge, h]
  rfl

/-- A merge read that finds poison is counted as discarded (R378). -/
def countDiscarded (es : List (Nat × Nat)) (ch : Nat) (s : State) : State :=
  if decodeLine es = .poisoned then modChan ch (fun c => { c with discarded := satAdd 16 c.discarded 1 }) s else s

theorem decodeMerge_bad (h : decodeLine es = .uncorrectable ∨ decodeLine es = .poisoned) :
    decodeMerge ch r es s
      = requeueWaiters ch r.line (ddrLog ch r.line 4 0xFF (reqCode r.who true) es (countDiscarded es ch s)) := by
  rcases h with h | h <;> simp [decodeMerge, countDiscarded, h]

/-- Of the channel, the count touches the discarded writes only. -/
theorem chan_countDiscarded : ∃ n, chan ch (countDiscarded es ch s) = { chan ch s with discarded := n }
    ∧ (decodeLine es = .poisoned → n = satAdd 16 (chan ch s).discarded 1) := by
  unfold countDiscarded
  split
  · exact ⟨_, chan_modChan_same _ _ _, fun _ => rfl⟩
  · next h => exact ⟨_, rfl, fun hp => absurd hp h⟩

theorem onlyChanAndSources_countDiscarded : OnlyChanAndSources ch s (countDiscarded es ch s) := by
  unfold countDiscarded
  split
  · exact onlyChanAndSources_modChan _ _ _
  · exact ⟨fun _ _ => rfl, rfl, rfl⟩

theorem requeueWaiters_some {line : Nat} {w : DdrWrite} (h : queuedWrite ch line s = some w) :
    requeueWaiters ch line s = modChan ch (fun c => { c with
      writes := c.writes.filter (fun x => x.line != line), reads := w.waiters ++ c.reads }) s := by
  unfold requeueWaiters; rw [h]

end Merge

/-! ### DDR_READ_DECODE -/

section ReadDecode
variable {ch : Nat} {errs : List (Nat × Nat)} {r : DdrRead} {rest : List DdrRead} {s : State}

/-- The state once the oldest read has left the flight. -/
def landed (ch : Nat) (rest : List DdrRead) (s : State) : State := modChan ch (fun c => { c with flight := rest }) s

@[simp] theorem chan_landed : chan ch (landed ch rest s) = { chan ch s with flight := rest } := chan_modChan_same _ _ _

theorem onlyChanAndSources_landed : OnlyChanAndSources ch s (landed ch rest s) := onlyChanAndSources_modChan _ _ _

theorem queuedWrite_landed (line : Nat) : queuedWrite ch line (landed ch rest s) = queuedWrite ch line s := by
  simp [queuedWrite]

theorem readDecode_demand (hf : (chan ch s).flight = r :: rest) (hm : r.merge = false) :
    readDecode ch errs s = decodeDemand ch r (seenErrs r.poison errs) (landed ch rest s) := by
  simp [readDecode, hf, hm, landed]

theorem readDecode_merge {w : DdrWrite} (hf : (chan ch s).flight = r :: rest) (hm : r.merge = true)
    (hq : queuedWrite ch r.line s = some w) (hw : w.merge = true) :
    readDecode ch errs s = decodeMerge ch r (seenErrs r.poison errs) (landed ch rest s) := by
  have hq' := (queuedWrite_landed (rest := rest) r.line).trans hq
  unfold landed at hq'
  simp [readDecode, hf, hm, hq', hw, landed]

end ReadDecode

/-! ### DDR_SCRUB_READ -/

section Scrub
variable {ch : Nat} {errs : List (Nat × Nat)} {s : State}

/-- The scrub may read its line (R379): the channel works, is idle and owes neither a refresh nor a calibration. -/
def MayScrub (ch : Nat) (s : State) : Prop :=
  chanUp ch s = true ∧ (chan ch s).scrubOn = true ∧ chanIdle (chan ch s) = true ∧ (chan ch s).refDue = false
    ∧ (chan ch s).zqDue = false ∧ ((chan ch s).st = .active ∨ (chan ch s).st = .powerDown)

/-- What the scrub sees on its line. -/
def scrubSees (ch : Nat) (errs : List (Nat × Nat)) (s : State) : List (Nat × Nat) :=
  seenErrs ((chan ch s).poison.contains (chan ch s).scrubLine) errs

/-- A line the scrub cannot correct becomes poisoned (R379). -/
def poisonLine (ch line : Nat) (s : State) : State :=
  modChan ch (fun x => { x with
    poison := if x.poison.contains line then x.poison else x.poison ++ [line]
    poisoned := if x.poison.contains line then x.poisoned else satAdd 16 x.poisoned 1 }) s

/-- What the scrub records of a line, before it moves on; a miscorrected line stands aside. -/
def scrubRecord (ch line : Nat) (es : List (Nat × Nat)) (s : State) : State :=
  match decodeLine es with
  | .clean => s
  | .corrected _ => countCe ch line 4 es s
  | .wrong m => countCe ch line 4 es (xorLine ch line m s)
  | .poisoned => ddrLog ch line 5 0xFF 4 es (countUe ch s)
  | .uncorrectable => ddrRaise ch 4 line es (ddrLog ch line 3 0xFF 4 es (poisonLine ch line (countUe ch s)))

theorem scrubRead_of_may (h : MayScrub ch s) :
    scrubRead ch errs s = scrubNext ch (scrubRecord ch (chan ch s).scrubLine (scrubSees ch errs s) s) := by
  obtain ⟨hup, hon, hidle, hdue, hzq, hst⟩ := h
  unfold scrubRead
  rw [if_neg (by rcases hst with hst | hst <;> simp [hup, hon, hidle, hdue, hzq, hst])]
  rfl

theorem onlyChanAndSources_scrubRecord {line : Nat} {es : List (Nat × Nat)} (h : ∀ m, decodeLine es ≠ .wrong m) :
    OnlyChanAndSources ch s (scrubRecord ch line es s) := by
  unfold scrubRecord
  split
  · exact ⟨fun _ _ => rfl, rfl, rfl⟩
  · exact onlyChanAndSources_countCe _ _ _ _ _
  · next m hm => exact absurd hm (h m)
  · exact (onlyChanAndSources_modChan _ _ _).trans (onlyChanAndSources_ddrLog _ _ _ _ _ _ _)
  · exact onlyChanAndSources_logRaise _ _ _ _ _ _ _
      ((onlyChanAndSources_modChan _ _ _).trans (onlyChanAndSources_modChan _ _ _))

/-- The scrub's move to its next line touches its position and the stamp of the pass. -/
theorem chan_scrubNext : ∃ n st, chan ch (scrubNext ch s) = { chan ch s with scrubLine := n, scrubLast := st }
    ∧ n = if (chan ch s).scrubLine + 1 = 2 ^ 28 then 0 else (chan ch s).scrubLine + 1 := by
  unfold scrubNext
  rw [chan_modChan_same]
  split
  · exact ⟨_, _, rfl, rfl⟩
  · exact ⟨_, _, rfl, rfl⟩

@[simp] theorem fsrc_scrubNext (id : Nat) : fsrc id (scrubNext ch s) = fsrc id s := rfl

theorem onlyChanAndSources_scrubNext : OnlyChanAndSources ch s (scrubNext ch s) := onlyChanAndSources_modChan _ _ _

section Cases
variable {line : Nat} {es : List (Nat × Nat)}

theorem scrubRecord_clean (h : decodeLine es = .clean) : scrubRecord ch line es s = s := by
  unfold scrubRecord; rw [h]

theorem scrubRecord_corrected {n : Nat} (h : decodeLine es = .corrected n) :
    scrubRecord ch line es s = countCe ch line 4 es s := by
  unfold scrubRecord; rw [h]

theorem scrubRecord_poisoned (h : decodeLine es = .poisoned) :
    scrubRecord ch line es s = ddrLog ch line 5 0xFF 4 es (countUe ch s) := by
  unfold scrubRecord; rw [h]

theorem scrubRecord_uncorrectable (h : decodeLine es = .uncorrectable) : scrubRecord ch line es s
    = ddrRaise ch 4 line es (ddrLog ch line 3 0xFF 4 es (poisonLine ch line (countUe ch s))) := by
  unfold scrubRecord; rw [h]

theorem fsrc_scrubRecord_uncorrectable (h : decodeLine es = .uncorrectable) :
    (fsrc (srcDdr ch 4) (scrubRecord ch line es s)).latched = true := by
  rw [scrubRecord_uncorrectable h]
  exact (fsrc_ddrRaise _ _ _ _ _).1

end Cases

/-- An uncorrectable line: counted, logged with KIND 3 and poisoned. -/
theorem chan_scrubRecord_uncorrectable {line : Nat} {es : List (Nat × Nat)} (h : decodeLine es = .uncorrectable) :
    ∃ e : DdrLog, ∃ n ps, chan ch (scrubRecord ch line es s) = { chan ch s with
        ue := satAdd 16 (chan ch s).ue 1, poison := ps, poisoned := n, elogWr := wrapAdd 16 (chan ch s).elogWr 1
        elog := tset {} ((chan ch s).elogWr % 16) e (chan ch s).elog }
      ∧ e.kind = 3 ∧ line ∈ ps := by
  rw [scrubRecord_uncorrectable h, chan_ddrRaise]
  obtain ⟨e, he, hk, -⟩ := chan_ddrLog ch line 3 0xFF 4 es (poisonLine ch line (countUe ch s))
  rw [he, poisonLine, chan_modChan_same, countUe, chan_modChan_same]
  refine ⟨e, _, _, rfl, hk, ?_⟩
  split
  · next hc => simpa using hc
  · simp

/-- The scrub moves its line by one whatever it finds. -/
theorem scrubLine_scrubRecord {line : Nat} {es : List (Nat × Nat)} (h : ∀ m, decodeLine es ≠ .wrong m) :
    (chan ch (scrubRecord ch line es s)).scrubLine = (chan ch s).scrubLine := by
  cases hd : decodeLine es with
  | wrong m => exact absurd hd (h m)
  | clean => rw [scrubRecord_clean hd]
  | corrected n =>
    obtain ⟨e, dev, he, -⟩ := chan_countCe ch line 4 es s
    rw [scrubRecord_corrected hd, he]
  | poisoned =>
    obtain ⟨e, he, -⟩ := chan_logUe ch line 5 4 es s
    rw [scrubRecord_poisoned hd, he]
  | uncorrectable =>
    obtain ⟨e, n, ps, he, -⟩ := chan_scrubRecord_uncorrectable (ch := ch) (s := s) (line := line) hd
    rw [he]

end Scrub

/-! ### The parts of the statement -/

section Parts
variable {ch : Nat} {errs : List (Nat × Nat)} {r : DdrRead} {rest : List DdrRead} {s : State}

/-- A corrected demand read. -/
theorem decodeDemand_corrected_spec {es : List (Nat × Nat)} {n : Nat} (h : decodeLine es = .corrected n) :
    let u := decodeDemand ch r es (landed ch rest s)
    let c := chan ch s
    OnlyChanAndSources ch s u ∧ (chan ch u).flight = rest ∧ (chan ch u).ce = satAdd 16 c.ce 1 ∧ (chan ch u).ue = c.ue
      ∧ (chan ch u).elogWr = wrapAdd 16 c.elogWr 1 ∧ (tget {} (c.elogWr % 16) (chan ch u).elog).kind = 1
      ∧ (tget {} (c.elogWr % 16) (chan ch u).elog).symbols = n
      ∧ (tget {} (c.elogWr % 16) (chan ch u).elog).addr = lineAddr ch r.line
      ∧ (fsrc (srcDdr ch 0) u).latched = true ∧ (fsrc (srcDdr ch 0) u).detail = ddrDetail r.line es := by
  dsimp only
  rw [decodeDemand_corrected h]
  obtain ⟨e, dev, he, hk, hs, -, ha⟩ := chan_countCe ch r.line (reqCode r.who false) es (landed ch rest s)
  obtain ⟨hl, hdet⟩ := fsrc_countCe ch r.line (reqCode r.who false) es (landed ch rest s)
  rw [he, chan_landed]
  refine ⟨onlyChanAndSources_landed.trans (onlyChanAndSources_countCe _ _ _ _ _), rfl, rfl, rfl, rfl, ?_, ?_, ?_, hl, hdet⟩ <;>
    simp [hk, hs, ha, length_of_corrected h]

/-- A demand read that cannot be delivered, before its requester is answered. -/
theorem countBad_spec {es : List (Nat × Nat)} (kind req : Nat) :
    let v := countBad ch r.line kind req es (landed ch rest s)
    let c := chan ch s
    OnlyChanAndSources ch s v ∧ (chan ch v).flight = rest ∧ (chan ch v).ue = satAdd 16 c.ue 1 ∧ (chan ch v).ce = c.ce
      ∧ (chan ch v).poison = c.poison ∧ (tget {} (c.elogWr % 16) (chan ch v).elog).kind = kind
      ∧ (tget {} (c.elogWr % 16) (chan ch v).elog).addr = lineAddr ch r.line ∧ (fsrc (srcDdr ch 1) v).latched = true := by
  dsimp only
  obtain ⟨e, he, hk, ha⟩ := chan_logUe ch r.line kind req es (landed ch rest s)
  have hc : chan ch (countBad ch r.line kind req es (landed ch rest s)) = _ := he
  rw [hc, chan_landed]
  refine ⟨onlyChanAndSources_landed.trans (onlyChanAndSources_countBad _ _ _ _ _ _), rfl, rfl, rfl, rfl, ?_, ?_,
    (fsrc_ddrRaise _ _ _ _ _).1⟩ <;> simp [hk, ha]

/-- A host that reads a bad line gets a poisoned completion. -/
theorem errorResponse_host {v : State} {w : Requester} {p : Nat} (h : OnlyChanAndSources ch s v) (hw : w = .host p) (part : Nat) :
    errorResponse w 64 2 part v = { v with host := { s.host with resps := .poisoned p 64 :: s.host.resps } } := by
  obtain ⟨-, -, hv⟩ := h
  have hh : v.host = s.host := by rw [hv]
  rw [hw, ← hh]
  rfl

/-- A merge read of a good line completes the entry. -/
theorem decodeMerge_clean_spec {es : List (Nat × Nat)} {w : DdrWrite} (hq : queuedWrite ch r.line s = some w)
    (h : decodeLine es = .clean) :
    let u := decodeMerge ch r es (landed ch rest s)
    OnlyChanAndSources ch s u ∧ (chan ch u).flight = rest
      ∧ ∃ y, queuedWrite ch r.line u = some y ∧ y.merge = false ∧ y.waiters = [] := by
  dsimp only
  rw [decodeMerge_clean h]
  have hwr : (chan ch (modWrites ch (fun ws => ws.map (fun x => if x.line = r.line then
      filled (rdBytes (landed ch rest s).ddr.mem (lineAddr ch r.line) 64) x else x)) (landed ch rest s))).writes
      = (chan ch s).writes.map (fun x => if x.line = r.line then
        filled (rdBytes (landed ch rest s).ddr.mem (lineAddr ch r.line) 64) x else x) := by
    rw [modWrites, chan_modChan_same, chan_landed]
  have hy := queuedWrite_of_map (f := filled (rdBytes (landed ch rest s).ddr.mem (lineAddr ch r.line) 64)) (filled_line _) hq hwr
  exact ⟨onlyChanAndSources_landed.trans (onlyChanAndSources_modChan _ _ _), by rw [modWrites, chan_modChan_same, chan_landed],
    _, hy, rfl, rfl⟩

/-- A merge read of a bad line drops the entry and puts back the reads that waited for it. -/
theorem decodeMerge_bad_spec {es : List (Nat × Nat)} {w : DdrWrite} (hq : queuedWrite ch r.line s = some w)
    (h : decodeLine es = .uncorrectable ∨ decodeLine es = .poisoned) :
    let u := decodeMerge ch r es (landed ch rest s)
    let c := chan ch s
    OnlyChanAndSources ch s u ∧ (chan ch u).flight = rest ∧ queuedWrite ch r.line u = none
      ∧ (chan ch u).reads = w.waiters ++ c.reads ∧ (tget {} (c.elogWr % 16) (chan ch u).elog).kind = 4
      ∧ (chan ch u).poison = c.poison ∧ (decodeLine es = .poisoned → (chan ch u).discarded = satAdd 16 c.discarded 1) := by
  dsimp only
  rw [decodeMerge_bad h]
  obtain ⟨n, hn, hdisc⟩ := chan_countDiscarded (ch := ch) (es := es) (s := landed ch rest s)
  obtain ⟨e, he, hk, -⟩ := chan_ddrLog ch r.line 4 0xFF (reqCode r.who true) es (countDiscarded es ch (landed ch rest s))
  have hlog := onlyChanAndSources_ddrLog ch r.line 4 0xFF (reqCode r.who true) es (countDiscarded es ch (landed ch rest s))
  generalize ddrLog ch r.line 4 0xFF (reqCode r.who true) es (countDiscarded es ch (landed ch rest s)) = x at he hlog ⊢
  rw [hn, chan_landed] at he
  have hqx : queuedWrite ch r.line x = some w := by unfold queuedWrite at hq ⊢; rw [he]; exact hq
  rw [requeueWaiters_some hqx]
  unfold queuedWrite
  rw [chan_modChan_same, he]
  refine ⟨((onlyChanAndSources_landed.trans onlyChanAndSources_countDiscarded).trans hlog).trans (onlyChanAndSources_modChan _ _ _),
    rfl, ?_, rfl, ?_, rfl, fun hp => ?_⟩
  · rw [List.find?_eq_none]
    intro y hy
    simpa using (List.mem_filter.1 hy).2
  · simp [hk]
  · rw [hdisc hp, chan_landed]

/-- What the scrub leaves, for each class of line. -/
theorem scrub_spec {line : Nat} {es : List (Nat × Nat)} (hline : (chan ch s).scrubLine = line)
    (hw : ∀ m, decodeLine es ≠ .wrong m) :
    let u := scrubNext ch (scrubRecord ch line es s)
    let c := chan ch s
    let entry := tget {} (c.elogWr % 16) (chan ch u).elog
    (chan ch u).scrubLine = (if line + 1 = 2 ^ 28 then 0 else line + 1)
      ∧ (∀ j, j ≠ ch → chan j u = chan j s) ∧ u.ddr.mem = s.ddr.mem
      ∧ u = { s with ddr := u.ddr, fault := { s.fault with src := u.fault.src } }
      ∧ (decodeLine es = .clean → (chan ch u).elogWr = c.elogWr ∧ u.fault = s.fault)
      ∧ (∀ n, decodeLine es = .corrected n → (chan ch u).ce = satAdd 16 c.ce 1 ∧ entry.kind = 1 ∧ entry.req = 4
          ∧ (fsrc (srcDdr ch 0) u).latched = true)
      ∧ (decodeLine es = .uncorrectable → (chan ch u).ue = satAdd 16 c.ue 1 ∧ entry.kind = 3
          ∧ line ∈ (chan ch u).poison ∧ (fsrc (srcDdr ch 4) u).latched = true)
      ∧ (decodeLine es = .poisoned → entry.kind = 5 ∧ (chan ch u).poison = c.poison) := by
  dsimp only
  obtain ⟨n, st, hnext, hn⟩ := chan_scrubNext (ch := ch) (s := scrubRecord ch line es s)
  obtain ⟨hc, hmem, hu⟩ := (onlyChanAndSources_scrubRecord hw).trans onlyChanAndSources_scrubNext
  rw [scrubLine_scrubRecord hw, hline] at hn
  rw [hnext]
  refine ⟨hn, hc, hmem, hu, fun h => ?_, fun m h => ?_, fun h => ?_, fun h => ?_⟩
  · rw [scrubRecord_clean h]
    exact ⟨rfl, rfl⟩
  · obtain ⟨e, dev, he, hk, -, hreq, -⟩ := chan_countCe ch line 4 es s
    rw [fsrc_scrubNext, scrubRecord_corrected h, he]
    exact ⟨rfl, by rw [tget_tset_same, hk], by rw [tget_tset_same, hreq], (fsrc_countCe _ _ _ _ _).1⟩
  · obtain ⟨e, k, ps, he, hk, hps⟩ := chan_scrubRecord_uncorrectable (ch := ch) (s := s) (line := line) h
    rw [fsrc_scrubNext, he]
    exact ⟨rfl, by rw [tget_tset_same, hk], hps, fsrc_scrubRecord_uncorrectable h⟩
  · obtain ⟨e, he, hk, -⟩ := chan_logUe ch line 5 4 es s
    rw [scrubRecord_poisoned h, he]
    exact ⟨by rw [tget_tset_same, hk], rfl⟩

end Parts

end Sys2Proof.Machine

namespace Sys2Proof

open Sys2Proof.Machine

/-- Settles O25: one case of R376's classification after the other, for demand reads, merge reads and the scrub. -/
theorem ddrReadsAreDecodedCountedAndLogged : Obligations.DdrReadsAreDecodedCountedAndLogged := by
  unfold Obligations.DdrReadsAreDecodedCountedAndLogged
  refine ⟨fun t ch errs r rest s0 => ?_, fun t ch errs s0 => ?_, by decide, fun errs h => eq_poisonErrs h⟩
  · intro s c es entry only hflight
    refine ⟨fun hm => ?_, fun w hm hq hw => ?_⟩
    · have hexec : Machine.exec (.ddrReadDecode t ch errs) s0 = .next (decodeDemand ch r es (landed ch rest s)) :=
        congrArg Host.Outcome.next (readDecode_demand hflight hm)
      refine ⟨fun h => ?_, fun n h => ?_, fun h => ?_⟩
      · rw [decodeDemand_clean h] at hexec
        obtain ⟨hc, hmem, hu⟩ := onlyChanAndSources_landed (ch := ch) (rest := rest) (s := s)
        exact ⟨_, hexec, ⟨hc, hmem, by rw [chan_landed], hu⟩, chan_landed, rfl⟩
      · obtain ⟨⟨hc, hmem, hu⟩, hfl, hrest⟩ := decodeDemand_corrected_spec (ch := ch) (r := r) (rest := rest) (s := s) h
        exact ⟨_, hexec, ⟨hc, hmem, hfl, hu⟩, hrest⟩
      · rw [decodeDemand_bad h] at hexec
        obtain ⟨hfr, hfl, hue, hce, hpo, hk, ha, hl⟩ := countBad_spec (ch := ch) (r := r) (rest := rest) (s := s) (es := es)
          (if decodeLine es = .poisoned then 5 else 2) (reqCode r.who false)
        exact ⟨_, hexec, ⟨hfr.1, hfr.2.1, hfl, hfr.2.2⟩, hue, hce, hpo, hk, ha, hl,
          fun p hp => errorResponse_host hfr hp _⟩
    · have hexec : Machine.exec (.ddrReadDecode t ch errs) s0 = .next (decodeMerge ch r es (landed ch rest s)) :=
        congrArg Host.Outcome.next (readDecode_merge hflight hm hq hw)
      refine ⟨fun h => ?_, fun h => ?_⟩
      · obtain ⟨⟨hc, hmem, hu⟩, hfl, hy⟩ := decodeMerge_clean_spec (rest := rest) hq h
        exact ⟨_, hexec, ⟨hc, hmem, hfl, hu⟩, hy⟩
      · obtain ⟨⟨hc, hmem, hu⟩, hfl, hrest⟩ := decodeMerge_bad_spec (rest := rest) hq h
        exact ⟨_, hexec, ⟨hc, hmem, hfl, hu⟩, hrest⟩
  · intro s c es entry hup hon hidle hdue hzq hst hwrong
    exact ⟨_, congrArg Host.Outcome.next (scrubRead_of_may ⟨hup, hon, hidle, hdue, hzq, hst⟩), scrub_spec rfl hwrong⟩

end Sys2Proof

/-! SUPPORT. The crown's operations (R390 to R412): one equation per case, and what each changes. -/

namespace Sys2Proof.Machine

/-! ### RETAIN (R390, R391, R413, R472) -/

/-- The passage of time touches the clock block only. -/
theorem advanceTo_eq (t : Nat) (s : State) : ∃ time, advanceTo t s = { s with time := time } := by
  unfold advanceTo
  split
  · exact ⟨s.time, rfl⟩
  · exact ⟨_, rfl⟩

/-- R391's reasons for a refusal. -/
theorem retainRefused_iff (s : State) : retainRefused s = true ↔
    (s.power.st ≠ .standby ∧ s.power.st ≠ .degraded) ∨ anyOpen s = true ∨ loopActive s = true ∨ s.pat.job.isSome = true
      ∨ (engines s).any engBusy = true ∨ s.crown.calBusy = true := by
  simp only [retainRefused, Bool.or_eq_true, Bool.not_eq_true', Bool.or_eq_false_iff, beq_eq_false_iff_ne, or_assoc]

theorem settle_prev_of_change (s : State) (h : (settle s).power.st ≠ s.power.st) : (settle s).power.prev = s.power.st :=
  settle_prev s (by rw [settle_st] at h; exact h.symm)

/-- The fields of MOD_PWR_CTRL that a write changes before its request acts (R472). -/
def pwrCtrlFields (v : Nat) (s : State) : State :=
  let h := bits v 15 8
  let s1 := { s with power := { s.power with
    refused := s.power.refused && !bit v 2, wakeEn := bit v 3, pwrCfgBusy := s.power.pwrCfgBusy && !bit v 4 } }
  if h = s.power.holdMs then s1
  else if s.power.st = .standby then { s1 with power := { s1.power with holdMs := h } }
  else latchWrite 0 0x30 { s1 with power := { s1.power with pwrCfgBusy := true } }

theorem pwrCtrlWrite_request {v : Nat} (s : State) (h : bits v 1 0 = 1) :
    pwrCtrlWrite v s = retainRequest (pwrCtrlFields v s) := if_pos h

/-- HOLD_MS changes only in STANDBY; elsewhere a change is refused and reported. -/
theorem pwrCtrlFields_spec (v : Nat) (s : State) :
    let w := pwrCtrlFields v s
    w.power.holdMs = (if s.power.st = .standby then bits v 15 8 else s.power.holdMs)
      ∧ w.power.wakeEn = bit v 3 ∧ w.power.retainEntry = s.power.retainEntry ∧ retainRefused w = retainRefused s
      ∧ (s.power.st ≠ .standby → bits v 15 8 ≠ s.power.holdMs →
          w.power.pwrCfgBusy = true ∧ (fsrc 0x142 w).latched = true ∧ (fsrc 0x142 w).detail = 0x30)
      ∧ w = { s with power := w.power, fault := w.fault } := by
  dsimp only
  unfold pwrCtrlFields
  dsimp only
  by_cases hh : bits v 15 8 = s.power.holdMs
  · rw [if_pos hh]
    exact ⟨by simp [hh], rfl, rfl, rfl, fun _ hne => absurd hh hne, rfl⟩
  · rw [if_neg hh]
    by_cases hst : s.power.st = .standby
    · rw [if_pos hst, if_pos hst]
      exact ⟨rfl, rfl, rfl, rfl, fun hne => absurd hst hne, rfl⟩
    · rw [if_neg hst, if_neg hst]
      exact ⟨rfl, rfl, rfl, rfl, fun _ _ => ⟨rfl, by simp [latchWrite], by simp [latchWrite]⟩, rfl⟩

/-- A request outside an entry is refused or begins the entry. -/
theorem retainRequest_spec (s : State) (hentry : s.power.retainEntry = false) :
    retainRequest s = if retainRefused s then { s with power := { s.power with refused := true } }
      else { s with power := { s.power with retainEntry := true }, led := { s.led with stopRetain := true } } := by
  unfold retainRequest
  rw [if_neg (by simp [hentry])]

/-- The request part of O13. -/
theorem pwrCtrlWrite_spec {v : Nat} (s : State) (hv : bits v 1 0 = 1) (hentry : s.power.retainEntry = false) :
    let u := pwrCtrlWrite v s
    (retainRefused s = true → u.power.refused = true ∧ u.power.retainEntry = false ∧ u.led = s.led)
      ∧ (¬ retainRefused s = true → u.power.retainEntry = true ∧ u.led = { s.led with stopRetain := true })
      ∧ u.power.wakeEn = bit v 3
      ∧ u.power.holdMs = (if s.power.st = .standby then bits v 15 8 else s.power.holdMs)
      ∧ (s.power.st ≠ .standby → bits v 15 8 ≠ s.power.holdMs →
          u.power.pwrCfgBusy = true ∧ (fsrc 0x142 u).latched = true ∧ (fsrc 0x142 u).detail = 0x30)
      ∧ u = { s with power := u.power, led := u.led, fault := u.fault } := by
  dsimp only
  obtain ⟨hhold, hwake, hkeep, href, hbusy, hframe⟩ := pwrCtrlFields_spec v s
  rw [pwrCtrlWrite_request s hv, retainRequest_spec _ (hkeep.trans hentry), href]
  generalize pwrCtrlFields v s = w at hhold hwake hkeep hbusy hframe ⊢
  have hled : w.led = s.led := by rw [hframe]
  by_cases hr : retainRefused s = true
  · rw [if_pos hr]
    refine ⟨fun _ => ⟨rfl, hkeep.trans hentry, hled⟩, fun h => absurd hr h, hwake, hhold, hbusy, ?_⟩
    rw [hframe]
  · rw [if_neg hr]
    refine ⟨fun h => absurd h hr, fun _ => ⟨rfl, by rw [hled]⟩, hwake, hhold, hbusy, ?_⟩
    rw [hframe]

/-! ### Entry to RETAIN and the wake -/

/-- LIFE_LOG_WRITE changes the log of FLASH_A and nothing else. -/
theorem lifeLogWrite_eq (s : State) : ∃ f, lifeLogWrite s = { s with sec := { s.sec with flashA := f } }
    ∧ (s.power.on = true → islandRuns 0 s = true → s.sec.flashA.ok = true →
        f = { s.sec.flashA with lifeLog := (s.crown.lifeH, s.crown.lifeUsed) }) := by
  unfold lifeLogWrite
  split
  · exact ⟨_, rfl, fun _ _ _ => rfl⟩
  · next h => exact ⟨s.sec.flashA, rfl, fun hon hr hok => absurd ⟨hon, hr, hok⟩ h⟩

theorem wake_inRetain {s : State} (he : s.power.retainEntry = false) (hr : s.power.inRetain = true) :
    wake s = settle { s with power := { s.power with inRetain := false, retainExit := true } } := by
  simp [wake, he, hr]

/-- A wake in RETAIN begins the exit and touches the power block only. -/
theorem wake_inRetain_spec {s : State} (he : s.power.retainEntry = false) (hr : s.power.inRetain = true) :
    (wake s).power.inRetain = false ∧ (wake s).power.retainExit = true ∧ (wake s).power.retainEntry = false
      ∧ wake s = { s with power := (wake s).power } := by
  rw [wake_inRetain he hr]
  obtain ⟨a, b, hs⟩ := settle_eq { s with power := { s.power with inRetain := false, retainExit := true } }
  rw [hs]
  exact ⟨rfl, rfl, he, rfl⟩

/-- RETAIN as it is entered, before a wake that waited is served: gated mittens, empty queues, both links down. -/
def retainBegun (s : State) : State :=
  let s1 := mapMittens (fun _ m => { m with waitConst := m.bound, firing := none, gated := true }) (lifeLogWrite s)
  settle (dropLink 0 (dropLink 1 { s1 with
    fab := { s1.fab with queued := [] }
    power := { s1.power with retainEntry := false, inRetain := true, wakePend := false } }))

theorem retainEntered_eq {s : State} (he : s.power.retainEntry = true) (hd : ddrAsleep s = true) :
    retainEntered s = if s.power.wakePend then wake (retainBegun s) else retainBegun s := by
  unfold retainEntered
  rw [if_neg (by simp [he, hd])]
  rfl

theorem retainBegun_spec (s : State) :
    let u := retainBegun s
    u.power.retainEntry = false ∧ u.power.inRetain = true ∧ u.host.p0.link = false ∧ u.host.p1.link = false
      ∧ u.fab.queued = []
      ∧ (s.power.on = true → islandRuns 0 s = true → s.sec.flashA.ok = true →
          u.sec.flashA = { s.sec.flashA with lifeLog := (s.crown.lifeH, s.crown.lifeUsed) })
      ∧ u = { s with power := u.power, host := u.host, fab := u.fab, sec := { s.sec with flashA := u.sec.flashA } } := by
  dsimp only
  obtain ⟨f, hf, hlog⟩ := lifeLogWrite_eq s
  unfold retainBegun
  rw [hf]
  dsimp only
  generalize hw : dropLink 0 (dropLink 1 _) = w
  obtain ⟨a, b, hs⟩ := settle_eq w
  rw [hs, ← hw]
  exact ⟨rfl, rfl, rfl, rfl, rfl, hlog, rfl⟩

/-- The entry part of O13. -/
theorem retainEntered_spec {s : State} (he : s.power.retainEntry = true) (hd : ddrAsleep s = true) :
    let u := retainEntered s
    u.power.retainEntry = false ∧ u.host.p0.link = false ∧ u.host.p1.link = false ∧ u.fab.queued = []
      ∧ (s.power.wakePend = false → u.power.inRetain = true) ∧ (s.power.wakePend = true → u.power.retainExit = true)
      ∧ (s.power.on = true → islandRuns 0 s = true → s.sec.flashA.ok = true →
          u.sec.flashA = { s.sec.flashA with lifeLog := (s.crown.lifeH, s.crown.lifeUsed) })
      ∧ u = { s with power := u.power, host := u.host, fab := u.fab, sec := { s.sec with flashA := u.sec.flashA } } := by
  dsimp only
  obtain ⟨hentry, hin, hl0, hl1, hq, hlog, hframe⟩ := retainBegun_spec s
  rw [retainEntered_eq he hd]
  cases hp : s.power.wakePend with
  | false =>
    rw [if_neg (by decide)]
    exact ⟨hentry, hl0, hl1, hq, fun _ => hin, nofun, hlog, hframe⟩
  | true =>
    rw [if_pos rfl]
    obtain ⟨-, hexit, hno, hw⟩ := wake_inRetain_spec hentry hin
    generalize wake (retainBegun s) = u at hexit hno hw ⊢
    have hhost : u.host = (retainBegun s).host := by rw [hw]
    have hfab : u.fab = (retainBegun s).fab := by rw [hw]
    have hsec : u.sec = (retainBegun s).sec := by rw [hw]
    refine ⟨hno, hhost ▸ hl0, hhost ▸ hl1, hfab ▸ hq, nofun, fun _ => hexit, hsec ▸ hlog, ?_⟩
    rw [hhost, hfab, hsec]
    calc u = { retainBegun s with power := u.power } := hw
      _ = _ := by rw [hframe]

end Sys2Proof.Machine

namespace Sys2Proof

open Sys2Proof.Machine

/-- Settles O13: the request is judged on the state the write found, and a wake in RETAIN acts on the power block alone. -/
theorem retainIsRequestedEnteredAndLeft : Obligations.RetainIsRequestedEnteredAndLeft := by
  unfold Obligations.RetainIsRequestedEnteredAndLeft
  refine ⟨fun t v s hv he => ?_, fun t s he hd => ?_, fun t s hen hin he hst => ?_, fun t s => ?_⟩
  · obtain ⟨time, ht⟩ := advanceTo_eq t s
    rw [show Machine.exec (.retainRequest t v) s = .next (pwrCtrlWrite v (advanceTo t s)) from rfl, ht]
    have h := pwrCtrlWrite_spec { s with time := time } hv he
    rw [retainRefused_iff] at h
    exact ⟨_, rfl, h⟩
  · obtain ⟨time, ht⟩ := advanceTo_eq t s
    rw [show Machine.exec (.retainEntered t) s = .next (retainEntered (advanceTo t s)) from rfl, ht]
    exact ⟨_, rfl, retainEntered_spec (s := { s with time := time }) he hd⟩
  · obtain ⟨time, ht⟩ := advanceTo_eq t s
    rw [show Machine.exec (.retainWakeStamp t) s = .next (retainWakeStamp (advanceTo t s)) from rfl]
    rw [ht] at hst ⊢
    obtain ⟨h1, h2, -, h3⟩ := wake_inRetain_spec (s := { s with time := time }) he hin
    exact ⟨_, congrArg Host.Outcome.next (if_pos ⟨hen, hst⟩), h1, h2, h3⟩
  · obtain ⟨a, b, h⟩ := settle_eq (advanceTo t s)
    refine ⟨_, rfl, settle_st _, fun hne => ?_, ?_⟩
    · have := settle_prev_of_change (advanceTo t s)
      rw [advanceTo_power] at this
      exact this hne
    · rw [h, advanceTo_power]

end Sys2Proof

/-! SUPPORT. Power samples and the throttle level (R394 to R398). -/

namespace Sys2Proof.Machine

/-! ### Tables changed as a whole -/

/-- A listed record is changed by a change of every listed record. -/
theorem tget_tmapAll_of_ne {α : Type} [DecidableEq α] {d : α} (f : Nat → α → α) {t : Tbl α} {k : Nat}
    (hk : tget d k t ≠ d) : tget d k (tmapAll d f t) = f k (tget d k t) := by
  induction t with
  | nil => exact absurd rfl hk
  | cons e r ih =>
    obtain ⟨a, v⟩ := e
    unfold tmapAll
    by_cases ha : a = k
    · subst ha
      split
      · next hv => rw [tget_terase, if_pos rfl]; simp [tget, hv]
      · simp [tget]
    · have hr : tget d k r ≠ d := by simpa [tget, ha] using hk
      split
      · rw [tget_terase, if_neg (Ne.symm ha), ih hr]; simp [tget, ha]
      · simp [tget, ha, ih hr]

/-! ### CROWN_POWER_SAMPLE -/

theorem backstop_spec (s : State) :
    (backstop s).crown.hardCap = true
      ∧ (s.crown.hardCap = false → (backstop s).crown.excursions = satAdd 12 s.crown.excursions 1
          ∧ (fsrc (crownColl s * 0x400 + 0x1BB) (backstop s)).latched = true)
      ∧ (backstop s).crown = { s.crown with hardCap := true, excursions := (backstop s).crown.excursions }
      ∧ backstop s = { s with crown := (backstop s).crown, fault := (backstop s).fault } := by
  unfold backstop
  split
  · next h => exact ⟨h, fun h' => absurd h (by simp [h']), by rw [← h], rfl⟩
  · exact ⟨rfl, fun _ => ⟨rfl, congrArg (·.latched) (fsrc_latch_same _ _ _)⟩, rfl, rfl⟩

/-- The sample enters the sums; a cap in force stays only above 0.9 E_run. -/
def powerSampled (mw : Nat) (s : State) : State :=
  modCrown (fun c => { c with
    sumMw := c.sumMw + mw, sumN := c.sumN + 1, peakW := max c.peakW (satU 10 (mw / 1000))
    overShort := if eShortMw s < mw then c.overShort + 1 else 0
    overRunAt := if decide (eRunMw s < mw) then some (c.overRunAt.getD s.time.now) else none
    hardCap := c.hardCap && decide (eRunMw s * 9 < mw * 10) }) s

/-- The input has been above E_run for longer than the short limit. -/
def overRunLong (now : Nat) (c : CrownState) : Bool :=
  match c.overRunAt with
  | none => false
  | some a => decide (a + c.shortMs * 1000000 < now)

/-- A sample trips the backstop, or leaves the cap as `powerSampled` has it: below both envelopes it never trips. -/
theorem powerSample_cases (mw : Nat) (s : State) (hon : s.power.on = true) :
    (powerSample mw s = backstop (powerSampled mw s) ∧ ¬ (mw ≤ eShortMw s ∧ mw ≤ eRunMw s))
      ∨ (powerSample mw s = powerSampled mw s ∧ ¬ (eShortMw s < mw ∧ s.crown.overShort ≠ 0)) := by
  have hps : powerSample mw s = if 2 ≤ (powerSampled mw s).crown.overShort ∨ overRunLong s.time.now (powerSampled mw s).crown
      then backstop (powerSampled mw s) else powerSampled mw s := by
    unfold powerSample
    rw [hon]
    rfl
  rw [hps]
  split
  · next h =>
    refine .inl ⟨rfl, fun ⟨hs, hr⟩ => ?_⟩
    have h1 : (powerSampled mw s).crown.overShort = 0 := if_neg (Nat.not_lt.2 hs)
    have h2 : (powerSampled mw s).crown.overRunAt = none := if_neg (by simpa using hr)
    simp [overRunLong, h1, h2] at h
  · next h =>
    refine .inr ⟨rfl, fun ⟨hs, hn⟩ => h (.inl ?_)⟩
    have h1 : (powerSampled mw s).crown.overShort = s.crown.overShort + 1 := if_pos hs
    omega

theorem powerSample_spec (mw : Nat) (s : State) (hon : s.power.on = true) :
    let u := powerSample mw s
    u.crown.sumMw = s.crown.sumMw + mw ∧ u.crown.sumN = s.crown.sumN + 1
      ∧ u.crown.peakW = max s.crown.peakW (satU 10 (mw / 1000))
      ∧ (eShortMw s < mw → s.crown.overShort ≠ 0 → u.crown.hardCap = true)
      ∧ (eShortMw s < mw → s.crown.overShort ≠ 0 → s.crown.hardCap = false →
          u.crown.excursions = satAdd 12 s.crown.excursions 1 ∧ (fsrc (crownColl s * 0x400 + 0x1BB) u).latched = true)
      ∧ (mw ≤ eShortMw s → mw * 10 ≤ eRunMw s * 9 → u.crown.hardCap = false)
      ∧ u = { s with crown := u.crown, fault := u.fault } := by
  dsimp only
  rcases powerSample_cases mw s hon with ⟨hu, hno⟩ | ⟨hu, hno⟩
  · obtain ⟨hcap, hexc, hcrown, hframe⟩ := backstop_spec (powerSampled mw s)
    have hlow : s.crown.hardCap = false → (powerSampled mw s).crown.hardCap = false := fun h => by simp [powerSampled, modCrown, h]
    rw [hu]
    refine ⟨by rw [hcrown]; rfl, by rw [hcrown]; rfl, by rw [hcrown]; rfl, fun _ _ => hcap, fun _ _ h => hexc (hlow h),
      fun hs hr => absurd ⟨hs, by omega⟩ hno, ?_⟩
    calc backstop (powerSampled mw s) = _ := hframe
      _ = _ := rfl
  · rw [hu]
    refine ⟨rfl, rfl, rfl, fun hs hn => absurd ⟨hs, hn⟩ hno, fun hs hn => absurd ⟨hs, hn⟩ hno, fun _ hr => ?_, rfl⟩
    simp [powerSampled, modCrown, Nat.not_lt.2 hr]

/-! ### CROWN_THROTTLE_UPDATE -/

/-- The level rises by one above E_run, stays at 0.9 E_run or more, and falls by at most one below. -/
theorem nextLevel_spec (avg : Nat) (s : State) :
    (eRunMw s < avg → (nextLevel avg s).1 = min 3 (s.crown.level + 1))
      ∧ (avg ≤ eRunMw s → eRunMw s * 9 ≤ avg * 10 → (nextLevel avg s).1 = s.crown.level)
      ∧ (avg ≤ eRunMw s → (nextLevel avg s).1 = s.crown.level ∨ (nextLevel avg s).1 = s.crown.level - 1) := by
  unfold nextLevel
  dsimp only
  by_cases hup : eRunMw s < avg
  · rw [if_pos hup]
    exact ⟨fun _ => rfl, fun h => absurd hup (Nat.not_lt.2 h), fun h => absurd hup (Nat.not_lt.2 h)⟩
  · rw [if_neg hup]
    by_cases hlow : avg * 10 < eRunMw s * 9
    · rw [if_pos hlow]
      refine ⟨fun h => absurd h hup, fun _ h => absurd hlow (Nat.not_lt.2 h), fun _ => ?_⟩
      split
      · exact .inr rfl
      · exact .inl rfl
    · rw [if_neg hlow]
      exact ⟨fun h => absurd h hup, fun _ _ => rfl, fun _ => .inl rfl⟩

theorem throttleUpdate_spec (above forecast : List Nat) (s : State) (hup : crownUp s = true) :
    let u := throttleUpdate above forecast s
    let avg := if s.crown.sumN = 0 then 0 else s.crown.sumMw / s.crown.sumN
    u.crown.level = (nextLevel avg s).1 ∧ u.crown.nowW = satU 10 (avg / 1000) ∧ u.crown.sumMw = 0 ∧ u.crown.sumN = 0
      ∧ (∀ m, (mitten m s).bound = true → (mitten m u).halfNext = (above.contains m && budgeted m s))
      ∧ u = { s with crown := u.crown, fab := { s.fab with mittens := u.fab.mittens } } := by
  dsimp only
  unfold throttleUpdate
  rw [if_neg (by simp [hup])]
  refine ⟨rfl, rfl, rfl, rfl, fun m hm => ?_, rfl⟩
  have hne : tget {} m s.fab.mittens ≠ ({} : Mitten) := fun h => by simp [mitten, h] at hm
  exact congrArg (·.halfNext)
    (tget_tmapAll_of_ne (fun m x => { x with halfNext := above.contains m && budgeted m s }) hne)

end Sys2Proof.Machine

namespace Sys2Proof

open Sys2Proof.Machine

/-- Settles O14: a sample below both envelopes leaves the backstop alone, and the level follows `nextLevel`. -/
theorem powerSamplesDriveTheBackstopAndTheLevels : Obligations.PowerSamplesDriveTheBackstopAndTheLevels := by
  unfold Obligations.PowerSamplesDriveTheBackstopAndTheLevels
  refine ⟨fun t mw s hon => ?_, fun t above forecast s hup => ?_⟩
  · obtain ⟨time, ht⟩ := advanceTo_eq t s
    rw [show Machine.exec (.crownPowerSample t mw) s = .next (powerSample mw (advanceTo t s)) from rfl, ht]
    exact ⟨_, rfl, powerSample_spec mw { s with time := time } hon⟩
  · obtain ⟨time, ht⟩ := advanceTo_eq t s
    rw [show Machine.exec (.crownThrottleUpdate t above forecast) s = .next (throttleUpdate above forecast (advanceTo t s)) from rfl, ht]
    obtain ⟨hlevel, hnow, hmw, hn, hhalf, hframe⟩ := throttleUpdate_spec above forecast { s with time := time } hup
    obtain ⟨hrise, hstay, hfall⟩ := nextLevel_spec (if s.crown.sumN = 0 then 0 else s.crown.sumMw / s.crown.sumN) { s with time := time }
    exact ⟨_, rfl, fun h => hlevel.trans (hrise h), fun h h' => hlevel.trans (hstay h h'),
      fun h => (hfall h).imp hlevel.trans hlevel.trans, hnow, hmw, hn, fun _ => hhalf, hframe⟩

end Sys2Proof

/-! SUPPORT. Thermal sensor pairs (R405 to R407): the record of a pair after a read, and what the rest of a thermal read
leaves alone. -/

namespace Sys2Proof.Machine

/-! ### One pair -/

section Pair
variable (i : Nat) (d r : Int) (s : State)

theorem nextPair_readings : (nextPair i d r s).diode = d ∧ (nextPair i d r s).ring = r
    ∧ (nextPair i d r s).maskD = ((tpair i s).maskD || outOfRange d)
    ∧ (nextPair i d r s).maskR = ((tpair i s).maskR || outOfRange r) := ⟨rfl, rfl, rfl, rfl⟩

/-- The hot spot (R406): the higher reading, or the one left plus 3 K, or the default of a pair with none left. -/
theorem nextPair_hot :
    ((nextPair i d r s).maskD = false → (nextPair i d r s).maskR = false → (d - r).natAbs ≤ 6 * 128 →
        (nextPair i d r s).hot = some (max d r))
      ∧ ((nextPair i d r s).maskD = true → (nextPair i d r s).maskR = false → (nextPair i d r s).hot = some (r + 3 * 128))
      ∧ ((nextPair i d r s).maskD = false → (nextPair i d r s).maskR = true → (nextPair i d r s).hot = some (d + 3 * 128))
      ∧ ((nextPair i d r s).maskD = true → (nextPair i d r s).maskR = true →
        (nextPair i d r s).hot = if i < 336 then none else some (105 * 128)) := by
  unfold nextPair
  dsimp only
  refine ⟨fun hD hR hnear => ?_, fun hD hR => ?_, fun hD hR => ?_, fun hD hR => ?_⟩ <;> rw [hD, hR]
  · have hfar : decide (6 * 128 < (d - r).natAbs) = false := decide_eq_false (Nat.not_lt.2 hnear)
    simp only [hfar]
    simp
  · simp
  · simp
  · simp

/-- The thresholds of R407 move together, so a hot spot below the lower one is below the upper one. -/
theorem hotLimit_mono {a b : Int} (h : a ≤ b) : hotLimit a s ≤ hotLimit b s := by
  unfold hotLimit
  split <;> omega

/-- R407 on the hot spot: each request is made at its threshold and withdrawn below the lower one. -/
theorem nextPair_requests {h : Int} (hh : (nextPair i d r s).hot = some h) :
    (hotLimit 100 s ≤ h → (nextPair i d r s).halfRate = true) ∧ (hotLimit 104 s ≤ h → (nextPair i d r s).held = true)
      ∧ (h < hotLimit 97 s → (nextPair i d r s).halfRate = false) ∧ (h < hotLimit 102 s → (nextPair i d r s).held = false) := by
  have h97 := hotLimit_mono s (show (97 : Int) ≤ 100 by decide)
  have h102 := hotLimit_mono s (show (102 : Int) ≤ 104 by decide)
  unfold nextPair at hh ⊢
  dsimp only at hh ⊢
  rw [hh]
  refine ⟨fun hl => ?_, fun hl => ?_, fun hl => ?_, fun hl => ?_⟩
  · simp [hl]
  · simp [hl]
  · simp [Int.not_le.2 hl, Int.not_le.2 (Int.lt_of_lt_of_le hl h97)]
  · simp [Int.not_le.2 hl, Int.not_le.2 (Int.lt_of_lt_of_le hl h102)]

end Pair

/-! ### One reading -/

/-- A latch under a condition changes nothing but the sources. -/
theorem latch_ite_eq {c : Prop} [Decidable c] {id d : Nat} {s u : State}
    (h : ∃ x, u = { s with fault := { s.fault with src := x } }) :
    ∃ x, (if c then latch id d u else u) = { s with fault := { s.fault with src := x } } := by
  obtain ⟨x, rfl⟩ := h
  split
  · exact ⟨_, rfl⟩
  · exact ⟨x, rfl⟩

/-- The record a reading writes. -/
def pairRead (x : Nat × Int × Int) (s : State) : SensePair :=
  nextPair x.1 (x.2.1 + tget 0 x.1 s.crown.offD) (x.2.2 + tget 0 x.1 s.crown.offR) s

/-- A reading of a pair in service writes its record, and may latch sources; any other reading does nothing. -/
theorem readPair_eq (x : Nat × Int × Int) (s : State) :
    (¬ (x.1 < 344 ∧ dieUp (pairHalf x.1) s = true) → readPair x s = s)
      ∧ (x.1 < 344 → dieUp (pairHalf x.1) s = true → ∃ f, readPair x s = { s with
          crown := { s.crown with pairs := tset {} x.1 (pairRead x s) s.crown.pairs }, fault := { s.fault with src := f } }) := by
  obtain ⟨i, rd, rr⟩ := x
  unfold readPair
  dsimp only
  refine ⟨fun h => if_pos ?_, fun hi hd => ?_⟩
  · refine Classical.byContradiction fun hn => ?_
    rw [not_or] at hn
    exact h ⟨by omega, by simpa using hn.2⟩
  · rw [if_neg (by simp [hd]; omega)]
    exact latch_ite_eq (latch_ite_eq (latch_ite_eq (latch_ite_eq
      (s := { s with crown := { s.crown with pairs := tset {} i (pairRead (i, rd, rr) s) s.crown.pairs } }) ⟨_, rfl⟩)))

theorem tpair_readPair_same {x : Nat × Int × Int} {s : State} (hi : x.1 < 344) (hd : dieUp (pairHalf x.1) s = true) :
    tpair x.1 (readPair x s) = pairRead x s := by
  obtain ⟨f, h⟩ := (readPair_eq x s).2 hi hd
  rw [h]
  exact tget_tset_same _ _ _ _

theorem tpair_readPair_ne (x : Nat × Int × Int) (s : State) {j : Nat} (hj : j ≠ x.1) :
    tpair j (readPair x s) = tpair j s := by
  by_cases h : x.1 < 344 ∧ dieUp (pairHalf x.1) s = true
  · obtain ⟨f, h⟩ := (readPair_eq x s).2 h.1 h.2
    rw [h]
    exact tget_tset_ne _ _ _ hj
  · rw [(readPair_eq x s).1 h]

/-- A masked sensor stays masked. -/
theorem readPair_masks (x : Nat × Int × Int) (s : State) (i : Nat) :
    ((tpair i s).maskD = true → (tpair i (readPair x s)).maskD = true)
      ∧ ((tpair i s).maskR = true → (tpair i (readPair x s)).maskR = true) := by
  by_cases hi : i = x.1
  · subst hi
    by_cases h : x.1 < 344 ∧ dieUp (pairHalf x.1) s = true
    · rw [tpair_readPair_same h.1 h.2]
      exact ⟨fun hm => by simp [pairRead, nextPair, hm], fun hm => by simp [pairRead, nextPair, hm]⟩
    · rw [(readPair_eq x s).1 h]
      exact ⟨id, id⟩
  · rw [tpair_readPair_ne x s hi]
    exact ⟨id, id⟩

theorem foldl_readPair_masks (rs : List (Nat × Int × Int)) (s : State) (i : Nat) :
    ((tpair i s).maskD = true → (tpair i (rs.foldl (fun a x => readPair x a) s)).maskD = true)
      ∧ ((tpair i s).maskR = true → (tpair i (rs.foldl (fun a x => readPair x a) s)).maskR = true) := by
  induction rs generalizing s with
  | nil => exact ⟨id, id⟩
  | cons x xs ih =>
    obtain ⟨hD, hR⟩ := readPair_masks x s i
    obtain ⟨kD, kR⟩ := ih (readPair x s)
    exact ⟨fun h => kD (hD h), fun h => kR (hR h)⟩

/-! ### The hottest spot and COOL_HOLD -/

/-- `u` has the sensor pairs of `s`, and differs from it in the crown, the faults, the ledger and the power block only. -/
def KeepsPairs (s u : State) : Prop :=
  u.crown.pairs = s.crown.pairs ∧ u = { s with crown := u.crown, fault := u.fault, led := u.led, power := u.power }

theorem KeepsPairs.trans {s u v : State} (h : KeepsPairs s u) (k : KeepsPairs u v) : KeepsPairs s v := by
  obtain ⟨hp, hu⟩ := h
  obtain ⟨kp, kv⟩ := k
  refine ⟨kp.trans hp, ?_⟩
  calc v = { u with crown := v.crown, fault := v.fault, led := v.led, power := v.power } := kv
    _ = _ := by rw [hu]

theorem keepsPairs_coolTrack (s : State) : KeepsPairs s (coolTrack s) := ⟨rfl, rfl⟩

theorem keepsPairs_coolCritical (s : State) : KeepsPairs s (coolCritical s) := by
  unfold coolCritical
  split
  · exact ⟨rfl, rfl⟩
  · dsimp only
    generalize hv : ({ crownLatch 0x1B5 _ with led := _ } : State) = v
    obtain ⟨a, b, h⟩ := settle_eq v
    rw [h, ← hv]
    exact ⟨rfl, rfl⟩

theorem keepsPairs_ite_coolCritical (c : Prop) [Decidable c] (s : State) :
    KeepsPairs s (if c then coolCritical s else s) := by
  split
  · exact keepsPairs_coolCritical s
  · exact ⟨rfl, rfl⟩

/-- What follows the readings leaves the pairs alone. -/
theorem keepsPairs_thermalRead (rs : List (Nat × Int × Int)) (s : State) (hup : crownUp s = true) :
    KeepsPairs (rs.foldl (fun a x => readPair x a) s) (thermalRead rs s) := by
  unfold thermalRead
  rw [if_neg (by simp [hup])]
  dsimp only
  generalize rs.foldl (fun a x => readPair x a) s = s1
  split
  · exact keepsPairs_coolTrack s1
  · generalize hs2 : modCrown _ s1 = s2
    have h2 : KeepsPairs s1 s2 := by rw [← hs2]; exact ⟨rfl, rfl⟩
    exact (h2.trans (keepsPairs_coolTrack s2)).trans (keepsPairs_ite_coolCritical _ _)

theorem thermalRead_masks (rs : List (Nat × Int × Int)) (s : State) (i : Nat) :
    ((tpair i s).maskD = true → (tpair i (thermalRead rs s)).maskD = true)
      ∧ ((tpair i s).maskR = true → (tpair i (thermalRead rs s)).maskR = true) := by
  by_cases hup : crownUp s = true
  · have h : tpair i (thermalRead rs s) = tpair i (rs.foldl (fun a x => readPair x a) s) :=
      congrArg (tget ({} : SensePair) i) (keepsPairs_thermalRead rs s hup).1
    rw [h]
    exact foldl_readPair_masks rs s i
  · have h : thermalRead rs s = s := by unfold thermalRead; rw [if_pos (by simpa using hup)]
    rw [h]
    exact ⟨id, id⟩

/-- A thermal read of one pair in service. -/
theorem thermalRead_one (i : Nat) (rd rr : Int) (s : State) (hup : crownUp s = true) (hi : i < 344)
    (hd : dieUp (pairHalf i) s = true) :
    let u := thermalRead [(i, rd, rr)] s
    tpair i u = nextPair i (rd + tget 0 i s.crown.offD) (rr + tget 0 i s.crown.offR) s
      ∧ (∀ j, j ≠ i → tpair j u = tpair j s)
      ∧ u = { s with crown := u.crown, fault := u.fault, led := u.led, power := u.power } := by
  dsimp only
  obtain ⟨hp, hu⟩ := keepsPairs_thermalRead [(i, rd, rr)] s hup
  obtain ⟨f, hr⟩ := (readPair_eq (i, rd, rr) s).2 hi hd
  have hpair : ∀ j, tpair j (thermalRead [(i, rd, rr)] s) = tpair j (readPair (i, rd, rr) s) := fun j => congrArg (tget ({} : SensePair) j) hp
  refine ⟨(hpair i).trans (tpair_readPair_same (x := (i, rd, rr)) hi hd), fun j hj => (hpair j).trans (tpair_readPair_ne (i, rd, rr) s hj), ?_⟩
  refine hu.trans ?_
  rw [List.foldl_cons, List.foldl_nil, hr]

/-- The shadow crown takes over from an isolated IOD0. -/
theorem shadowTakeover_spec (s : State) (h0 : dieUp 0 s = false) (h1 : dieUp 1 s = true) :
    (shadowTakeover s).crown.acting = true
      ∧ shadowTakeover s = { s with crown := { s.crown with acting := true }, power := (shadowTakeover s).power } := by
  unfold shadowTakeover
  rw [if_neg (by simp [h0, h1])]
  obtain ⟨a, b, h⟩ := settle_eq (modCrown (fun c => { c with acting := true }) s)
  rw [h]
  exact ⟨rfl, rfl⟩

end Sys2Proof.Machine

namespace Sys2Proof

open Sys2Proof.Machine

/-- Settles O16: a read writes `nextPair` of the pair it reads, which never takes a mask back. -/
theorem thermalSensorsAreMaskedAndThrottle : Obligations.ThermalSensorsAreMaskedAndThrottle := by
  unfold Obligations.ThermalSensorsAreMaskedAndThrottle
  refine ⟨fun t i rd rr s hup hi hd => ?_, fun t rs s u hu i => ?_, fun t s h0 h1 => ?_⟩
  · obtain ⟨time, ht⟩ := advanceTo_eq t s
    rw [show Machine.exec (.crownThermalRead t [(i, rd, rr)]) s = .next (thermalRead [(i, rd, rr)] (advanceTo t s)) from rfl, ht]
    obtain ⟨hpair, hother, hframe⟩ := thermalRead_one i rd rr { s with time := time } hup hi hd
    obtain ⟨hboth, hring, hdiode, hnone⟩ := nextPair_hot i (rd + tget 0 i s.crown.offD) (rr + tget 0 i s.crown.offR) { s with time := time }
    refine ⟨_, rfl, ?_⟩
    dsimp only
    rw [hpair]
    refine ⟨rfl, rfl, rfl, rfl, hboth, hring, hdiode, hnone, fun h hh => ?_, hother, hframe⟩
    have hreq := nextPair_requests i _ _ _ hh
    simp only [hotLimit, Bool.not_eq_true'] at hreq
    exact hreq
  · cases hu
    obtain ⟨time, ht⟩ := advanceTo_eq t s
    rw [ht]
    exact thermalRead_masks rs { s with time := time } i
  · obtain ⟨time, ht⟩ := advanceTo_eq t s
    rw [show Machine.exec (.shadowCrownTakeover t) s = .next (shadowTakeover (advanceTo t s)) from rfl, ht]
    exact ⟨_, rfl, shadowTakeover_spec { s with time := time } h0 h1⟩

end Sys2Proof

/-! SUPPORT. Life counters, ageing and the writes of the calibration set (R409, R410, R412). -/

namespace Sys2Proof.Machine

theorem lifeMinute_spec (s : State) (hoff : s.power.st ≠ .off) (hret : s.power.st ≠ .retain) :
    (lifeMinute s).crown.lifeMin = (s.crown.lifeMin + 1) % 60
      ∧ (lifeMinute s).crown.lifeH = (if s.crown.lifeMin = 59 then wrapAdd 32 s.crown.lifeH 1 else s.crown.lifeH)
      ∧ (lifeMinute s).crown.lifeUsed = wrapAdd 32 s.crown.lifeUsed ((s.crown.lifeFrac + lifeAdd s.crown) / 2 ^ 32)
      ∧ lifeMinute s = { s with crown := (lifeMinute s).crown } := by
  unfold lifeMinute
  rw [if_neg (not_or.2 ⟨hoff, hret⟩)]
  exact ⟨rfl, rfl, rfl, rfl⟩

/-- R410's record of a die from its degradation in 0.01 %. -/
def ageRecord (d : Nat) : AgeReg :=
  { degrade := satU 16 d, trimMv := min 40 (5 * (d / 100)), limit := decide (8 < d / 100) }

theorem ageingRead_eq {k : Nat} (d : Nat) (s : State) (hk : k < 6) (hiso : isIso k s = false) (hup : crownUp s = true) :
    ageingRead k d s = modCrown (fun c => { c with age := tset {} k (ageRecord d) c.age }) s := by
  have hrec : ({ degrade := satU 16 d, trimMv := min 40 (d / 100 * 5), limit := decide (9 ≤ d / 100) } : AgeReg) = ageRecord d := by
    unfold ageRecord
    rw [Nat.mul_comm]
    rfl
  unfold ageingRead
  rw [if_neg (by simp [hiso, hup]; omega), hrec]

/-! ### CAL_WRITE -/

/-- R412's reasons to refuse a write. -/
def calRefused (s : State) : Prop :=
  (s.power.st ≠ .standby ∧ s.power.st ≠ .degraded) ∨ s.pat.job.isSome = true ∨ s.power.retainEntry = true
    ∨ s.crown.calBusy = true

/-- The write of CROWN_CAL_CTRL's length, or its refusal while the block is busy. -/
def calLenWrite (v : Nat) (s : State) : State :=
  rwWrite (!s.crown.calBusy) 0x00010070 crownCfgBusy (modCrown (fun c => { c with calLen := bits v 16 0 })) s

theorem calLenWrite_spec (v : Nat) (s : State) :
    (calLenWrite v s).crown.calBusy = s.crown.calBusy
      ∧ (s.crown.calBusy = false → (calLenWrite v s).crown.calLen = bits v 16 0)
      ∧ calLenWrite v s = { s with crown := (calLenWrite v s).crown, fault := (calLenWrite v s).fault } := by
  unfold calLenWrite
  cases h : s.crown.calBusy with
  | false => exact ⟨h, fun _ => rfl, rfl⟩
  | true => exact ⟨h, nofun, rfl⟩

theorem calWrite_refused {v : Nat} {s : State} (hv : bit v 31 = true) (h : calRefused s) :
    calWrite v s = modCrown (fun c => { c with calResult := 2 }) (calLenWrite v s) := by
  unfold calWrite
  rw [if_neg (by simp [hv]), if_pos ?_]
  · rfl
  · simpa [calRefused] using h

/-- A write that is not refused is judged on the set it finds in device memory. -/
theorem calWrite_judged {v : Nat} {s : State} (set : List Byte) (hset : set = devRd s.crown.calAddr 10028 s)
    (hv : bit v 31 = true) (h : ¬ calRefused s) :
    calWrite v s =
      if (calLenWrite v s).crown.calLen = 10028 ∧ fieldLe set 6 1 = 2 ∧ calVerifies set s = true then
        modCrown (fun c => { c with calBusy := true, calNew := set }) (calLenWrite v s)
      else modCrown (fun c => { c with calResult := 3 }) (calLenWrite v s) := by
  unfold calWrite
  rw [← hset]
  clear hset
  rw [if_neg (by simp [hv]), if_neg ?_]
  · rfl
  · simpa [calRefused] using h

theorem calWrite_spec {v : Nat} {s : State} (set : List Byte) (hset : set = devRd s.crown.calAddr 10028 s)
    (hv : bit v 31 = true) :
    (calRefused s → (calWrite v s).crown.calResult = 2 ∧ (calWrite v s).crown.calBusy = s.crown.calBusy)
      ∧ (¬ calRefused s → bits v 16 0 = 10028 → fieldLe set 6 1 = 2 → calVerifies set s = true →
          (calWrite v s).crown.calBusy = true ∧ (calWrite v s).crown.calNew = set)
      ∧ (¬ calRefused s → calVerifies set s = false → (calWrite v s).crown.calResult = 3 ∧ (calWrite v s).crown.calBusy = false)
      ∧ calWrite v s = { s with crown := (calWrite v s).crown, fault := (calWrite v s).fault } := by
  obtain ⟨hbusy, hlen, hframe⟩ := calLenWrite_spec v s
  by_cases h : calRefused s
  · rw [calWrite_refused hv h]
    refine ⟨fun _ => ⟨rfl, hbusy⟩, fun hn => absurd h hn, fun hn => absurd h hn, ?_⟩
    rw [hframe]
    rfl
  · have hidle : s.crown.calBusy = false := by
      refine Classical.byContradiction fun hc => ?_
      exact h (.inr (.inr (.inr (by simpa using hc))))
    rw [calWrite_judged set hset hv h, hlen hidle]
    refine ⟨fun hr => absurd hr h, fun _ h1 h2 h3 => ?_, fun _ h3 => ?_, ?_⟩
    · rw [if_pos ⟨h1, h2, h3⟩]
      exact ⟨rfl, rfl⟩
    · rw [if_neg (fun hc => by rw [h3] at hc; exact absurd hc.2.2 (by decide))]
      exact ⟨rfl, hbusy.trans hidle⟩
    · split
      · rw [hframe]; rfl
      · rw [hframe]; rfl

theorem calDone_spec (ok : Bool) (s : State) (h : s.crown.calBusy = true) :
    (calDone ok s).crown.calBusy = false ∧ (calDone ok s).crown.calResult = (if ok then 1 else 4)
      ∧ (calDone ok s).sec.flashA.cal = (if ok then s.crown.calNew else [])
      ∧ calDone ok s = { s with crown := (calDone ok s).crown, sec := { s.sec with flashA := (calDone ok s).sec.flashA } } := by
  unfold calDone
  rw [if_neg (by simp [h])]
  exact ⟨rfl, rfl, rfl, rfl⟩

end Sys2Proof.Machine

namespace Sys2Proof

open Sys2Proof.Machine

/-- Settles O17: each command is one equation of its operation once its guard is decided. -/
theorem lifeCountersAgeingAndCalibrationWrites : Obligations.LifeCountersAgeingAndCalibrationWrites := by
  unfold Obligations.LifeCountersAgeingAndCalibrationWrites
  refine ⟨fun t s hoff hret => ?_, fun t s hon hrun hok => ?_, fun t k d s hk hiso hup => ?_, fun t v s hv => ?_,
    fun t ok s hbusy => ?_⟩
  · obtain ⟨time, ht⟩ := advanceTo_eq t s
    rw [show Machine.exec (.lifeMinute t) s = .next (lifeMinute (advanceTo t s)) from rfl, ht]
    exact ⟨_, rfl, lifeMinute_spec { s with time := time } hoff hret⟩
  · obtain ⟨time, ht⟩ := advanceTo_eq t s
    rw [show Machine.exec (.lifeLogWrite t) s = .next (lifeLogWrite (advanceTo t s)) from rfl, ht]
    obtain ⟨f, hf, hlog⟩ := lifeLogWrite_eq { s with time := time }
    rw [hf]
    exact ⟨_, rfl, hlog hon hrun hok, rfl⟩
  · obtain ⟨time, ht⟩ := advanceTo_eq t s
    rw [show Machine.exec (.ageingRead t k d) s = .next (ageingRead k d (advanceTo t s)) from rfl, ht,
      ageingRead_eq d { s with time := time } hk hiso hup]
    exact ⟨_, rfl, tget_tset_same _ _ _ _, fun j hj => tget_tset_ne _ _ _ hj, rfl⟩
  · obtain ⟨time, ht⟩ := advanceTo_eq t s
    rw [show Machine.exec (.calWrite t v) s = .next (calWrite v (advanceTo t s)) from rfl, ht]
    generalize hset : devRd s.crown.calAddr 10028 { s with time := time } = set
    exact ⟨_, rfl, calWrite_spec (s := { s with time := time }) set hset.symm hv⟩
  · obtain ⟨time, ht⟩ := advanceTo_eq t s
    rw [show Machine.exec (.calWriteDone t ok) s = .next (calDone ok (advanceTo t s)) from rfl, ht]
    exact ⟨_, rfl, calDone_spec ok { s with time := time } hbusy⟩

end Sys2Proof

/-! SUPPORT. Partners, beacons and leases (R458 to R465): frames handed to a port, the fence, and a restart. -/

namespace Sys2Proof.Machine

/-! ### Frames without an owner -/

/-- A plain frame leaves at once or queues, and touches its port alone. -/
theorem ethSend_plain {e : Nat} (tc : Nat) (f : EthFrame) (s : State) (hup : ethUp e s = true) :
    ((eport e (ethSend e tc f .plain s)).sent = (stamp (e / 2) s, f) :: (eport e s).sent
        ∧ (eport e (ethSend e tc f .plain s)).queued = (eport e s).queued
      ∨ (eport e (ethSend e tc f .plain s)).queued = (eport e s).queued ++ [(tc, f, .plain)]
        ∧ (eport e (ethSend e tc f .plain s)).sent = (eport e s).sent)
      ∧ ∃ t, ethSend e tc f .plain s = { s with host := { s.host with eth := t } } := by
  unfold ethSend
  rw [if_neg (by simp [hup])]
  dsimp only
  split
  · refine ⟨.inl ?_, _, rfl⟩
    unfold ethEmit dropWaiting
    rw [eport_modEth_same]
    exact ⟨rfl, rfl⟩
  · refine ⟨.inr ?_, _, rfl⟩
    unfold dropWaiting
    rw [eport_modEth_same]
    exact ⟨rfl, rfl⟩

/-! ### HEARTBEAT_SEND and HEARTBEAT_RX -/

/-- The heartbeat's frame. -/
def heartbeatFrame (s : State) : EthFrame :=
  { dst := s.host.peerMac, src := portMac 3 s, etherType := 0x88B6, payload := heartbeatBytes s }

theorem heartbeatSend_eq {s : State} (hon : s.power.on = true) (hpos : partnerPos s = true) (hup : ethUp 3 s = true) :
    heartbeatSend s
      = ethSend 3 5 (heartbeatFrame s) .plain { s with host := { s.host with hbCtr := wrapAdd 32 s.host.hbCtr 1 } } := by
  unfold heartbeatSend
  rw [if_neg (by simp [hon, hpos, hup])]
  rfl

theorem heartbeatSend_spec {s : State} (hon : s.power.on = true) (hpos : partnerPos s = true) (hup : ethUp 3 s = true) :
    (heartbeatSend s).host.hbCtr = (s.host.hbCtr + 1) % 2 ^ 32
      ∧ ((eport 3 (heartbeatSend s)).sent = (stamp 1 s, heartbeatFrame s) :: (eport 3 s).sent
            ∧ (eport 3 (heartbeatSend s)).queued = (eport 3 s).queued
          ∨ (eport 3 (heartbeatSend s)).queued = (eport 3 s).queued ++ [(5, heartbeatFrame s, .plain)]
            ∧ (eport 3 (heartbeatSend s)).sent = (eport 3 s).sent)
      ∧ heartbeatSend s = { s with host := { s.host with
          hbCtr := (heartbeatSend s).host.hbCtr, eth := (heartbeatSend s).host.eth } } := by
  rw [heartbeatSend_eq hon hpos hup]
  obtain ⟨hsent, t, ht⟩ := ethSend_plain 5 (heartbeatFrame s)
    { s with host := { s.host with hbCtr := wrapAdd 32 s.host.hbCtr 1 } } hup
  refine ⟨by rw [ht]; rfl, hsent, ?_⟩
  rw [ht]

theorem heartbeatSend_idle {s : State} (h : s.power.on = false ∨ partnerPos s = false ∨ ethUp 3 s = false) :
    heartbeatSend s = s := by
  unfold heartbeatSend
  rw [if_pos (h.imp (by simp) (Or.imp (by simp) (by simp)))]

/-- A table filled from a list reads, at a listed key, what the list gives it. -/
theorem tget_foldl_tset {α : Type} [DecidableEq α] (d : α) (f : Nat → α) (ks : List Nat) (t : Tbl α) (n : Nat) :
    tget d n (ks.foldl (fun t k => tset d k (f k) t) t) = if n ∈ ks then f n else tget d n t := by
  induction ks generalizing t with
  | nil => simp
  | cons k ks ih =>
    rw [List.foldl_cons, ih, tget_tset]
    by_cases hk : n = k
    · subst hk; simp
    · simp [hk]

/-- The bytes are those of a heartbeat (R460). -/
def heartbeatGood (bs : List Byte) (s : State) : Prop :=
  ethUp 3 s = true ∧ fieldLe bs 0 1 = 1 ∧ fieldLe bs 1 1 = 1 ∧ fieldLe bs 36 1 ≤ 32 ∧ 40 + 12 * fieldLe bs 36 1 ≤ bs.length

theorem heartbeatRx_wrong {bs : List Byte} {s : State}
    (h : ethUp 3 s = false ∨ fieldLe bs 0 1 ≠ 1 ∨ fieldLe bs 1 1 ≠ 1 ∨ 32 < fieldLe bs 36 1) : heartbeatRx bs s = s := by
  unfold heartbeatRx
  rw [if_pos (h.imp (by simp) (Or.imp_right (Or.imp_right .inl)))]

theorem heartbeatRx_good {bs : List Byte} {s : State} (h : heartbeatGood bs s) :
    heartbeatRx bs s = { s with host := { s.host with
      peerState := fieldLe bs 32 1 % 16, peerFlags := fieldLe bs 33 1 % 16, peerJepoch := fieldLe bs 34 2
      peerLast := stamp 1 s, peerAt := some s.time.now, peerLost := false
      peerWm := (List.range 32).foldl (fun t i => tset {} i (peerEntry bs i) t) s.host.peerWm } } := by
  obtain ⟨hup, hkind, hver, hn, hlen⟩ := h
  unfold heartbeatRx
  rw [if_neg ?_]
  rw [hup]
  simp only [not_or, Classical.not_not]
  exact ⟨by decide, hkind, hver, Nat.not_lt.2 hn, Nat.not_lt.2 hlen⟩

/-! ### PEER_HEARTBEAT_TIMEOUT -/

/-- Nothing was heard of the partner for PEER_TO_MS (R461). -/
def peerLate (s : State) : Prop := s.host.peerAt = none ∨ ∃ a, s.host.peerAt = some a ∧ a + peerTo s ≤ s.time.now

theorem peerTimeout_cases (s : State) :
    (s.host.joined = true → partnerPos s = true → s.host.peerLost = false → peerLate s →
        peerTimeout s = attachVec { s with host := { s.host with peerLost := true } })
      ∧ (s.host.joined = false ∨ partnerPos s = false ∨ s.host.peerLost = true ∨ ¬ peerLate s → peerTimeout s = s) := by
  have hlate : (match s.host.peerAt with
      | none => true
      | some a => decide (a + peerTo s ≤ s.time.now)) = true ↔ peerLate s := by
    unfold peerLate
    cases s.host.peerAt with
    | none => simp
    | some a => simp
  unfold peerTimeout
  refine ⟨fun hj hp hl h => if_pos ⟨hj, hp, by rw [hl]; rfl, hlate.2 h⟩, fun h => if_neg ?_⟩
  rintro ⟨hj, hp, hl, hd⟩
  rcases h with h | h | h | h
  · rw [hj] at h; exact absurd h (by decide)
  · rw [hp] at h; exact absurd h (by decide)
  · rw [h] at hl; exact absurd hl (by decide)
  · exact h (hlate.1 hd)

/-- The attach vector touches the messages and the pending bits of the ports. -/
theorem attachVec_eq (s : State) : ∃ a b m, attachVec s = { s with host := { s.host with
    p0 := { s.host.p0 with msix := a }, p1 := { s.host.p1 with msix := b }, msgs := m } } := by
  unfold attachVec
  split
  · exact sendVec_eq _ _ _
  · exact ⟨s.host.p0.msix, s.host.p1.msix, s.host.msgs, rfl⟩

/-! ### BEACON_SEND -/

/-- The beacon's frame. -/
def beaconFrame (i : Nat) (s : State) : List Byte :=
  beBytes 6 s.host.fmMac ++ beBytes 6 (mgmtMac i s) ++ beBytes 2 0x88B6 ++ beaconBytes i s

theorem length_beBytes (n v : Nat) : (beBytes n v).length = n := by
  unfold beBytes; simp

theorem length_zeroBytes (n : Nat) : (zeroBytes n).length = n := by
  unfold zeroBytes; simp

/-- A beacon's frame has 70 bytes: the Ethernet header, R462's 32 bytes of header and its 24 bytes of fields. -/
theorem length_beaconFrame (i : Nat) (s : State) : (beaconFrame i s).length = 70 := by
  unfold beaconFrame beaconBytes p88Header
  simp only [List.length_append, length_beBytes, length_leBytes, length_zeroBytes]

theorem beaconSend_idle {i : Nat} {s : State} (h : mgmtUp i s = false ∨ farmPos s = false) : beaconSend i s = s := by
  unfold beaconSend
  rw [if_pos (h.imp (by simp) (by simp))]

theorem beaconSend_eq {i : Nat} {s : State} (hup : mgmtUp i s = true) (hpos : farmPos s = true) :
    beaconSend i s = { s with host := { s.host with
      mgmtSent := (i, beaconFrame i s) :: s.host.mgmtSent
      beaconCtrA := if i = 0 then wrapAdd 32 s.host.beaconCtrA 1 else s.host.beaconCtrA
      beaconCtrB := if i = 0 then s.host.beaconCtrB else wrapAdd 32 s.host.beaconCtrB 1 } } := by
  unfold beaconSend
  rw [if_neg (by simp [hup, hpos])]
  rfl

/-! ### The fence (R459, R463) -/

/-- The module may be fenced: it is on, and neither SAFE nor FENCED. -/
def canFence (s : State) : Prop := s.power.on = true ∧ s.power.safe = false ∧ s.power.fenced = false

/-- A fenced module: its cause, no join, no lease, no open ticket. -/
def FencedBy (u : State) (cause : Nat) : Prop :=
  u.power.fenced = true ∧ u.host.fenceCause = cause ∧ u.host.joined = false ∧ u.host.leaseHeld = false
    ∧ ∀ k ∈ u.led.tickets, ticketOpen k = false

/-- Voiding every ticket touches the tickets and the watch windows, and leaves none open. -/
theorem voidAll_spec (cause part : Nat) (s : State) :
    (∃ ks e w, voidAll cause part s
        = { s with led := { s.led with tickets := ks, lastEnd := e }, isl := { s.isl with watch := w } })
      ∧ ∀ k ∈ (voidAll cause part s).led.tickets, ticketOpen k = false := by
  obtain ⟨hvoid, heq⟩ := voidWhere_voided (fun _ => true) (fun _ => True) (fun _ => by simp) cause part s
  exact ⟨heq, allVoided_noOpen hvoid⟩

theorem fence_fences (cause : Nat) {s : State} (h : canFence s) : FencedBy (fence cause s) cause := by
  obtain ⟨hon, hsafe, hf⟩ := h
  obtain ⟨⟨ks, e, w, hv⟩, hclosed⟩ := voidAll_spec 4 0xFF s
  unfold fence
  rw [if_neg (by simp [hon, hsafe, hf])]
  dsimp only
  generalize hx : endJoin { voidAll 4 0xFF s with
    power := { (voidAll 4 0xFF s).power with fenced := true }
    host := { (voidAll 4 0xFF s).host with fenceCause := cause } } = x
  have hled : x.led = (voidAll 4 0xFF s).led := by rw [← hx]; rfl
  obtain ⟨⟨t, l, m, a, b, hsafeOut⟩, -⟩ := safeOutAll_spec x
  obtain ⟨st, prev, hset⟩ := settle_eq (safeOutAll x)
  have hout : (settle (safeOutAll x)).led = x.led := by rw [hset, hsafeOut]
  refine ⟨?_, ?_, ?_, ?_, ?_⟩
  · rw [hset, hsafeOut, ← hx]; rfl
  · rw [hset, hsafeOut, ← hx]; rfl
  · rw [hset, hsafeOut, ← hx]; rfl
  · rw [hset, hsafeOut, ← hx]; rfl
  · rw [hout, hled]; exact hclosed

/-! ### LEASE and LEASE_EXPIRE -/

theorem leaseExpire_over {s : State} (h : leaseOver s = true) : leaseExpire s = fence 2 s := if_pos h

theorem leaseExpire_running {s : State} (h : leaseOver s = false) : leaseExpire s = s := if_neg (by simp [h])

/-- What LEASE does once a lapsed lease has been fenced. -/
def leaseTaken (i dst : Nat) (bs : List Byte) (s : State) : State :=
  if !fmFrame i dst 3 16 bs s ∨ !farmPos s then s
  else if bit (fieldLe bs 44 1) 0 ∧ !s.power.fenced
      ∧ (if s.host.joined then decide (s.host.jobEpoch < fieldLe bs 40 4) else !s.host.accepted) then
    renew (fieldLe bs 32 8) (fieldLe bs 40 4) s
  else if s.host.joined ∧ s.host.jobId = fieldLe bs 32 8 ∧ s.host.jobEpoch = fieldLe bs 40 4 then
    renew (fieldLe bs 32 8) (fieldLe bs 40 4) s
  else s

theorem lease_eq (i dst : Nat) (bs : List Byte) (s : State) : lease i dst bs s = leaseTaken i dst bs (leaseExpire s) := rfl

section LeaseTaken
variable {i dst : Nat} {bs : List Byte} {s : State}

theorem leaseTaken_dropped (h : fmFrame i dst 3 16 bs s = false ∨ farmPos s = false) : leaseTaken i dst bs s = s :=
  if_pos (h.imp (by simp) (by simp))

/-- A module that is fenced without a join takes no lease. -/
theorem leaseTaken_fenced (hf : s.power.fenced = true) (hj : s.host.joined = false) : leaseTaken i dst bs s = s := by
  unfold leaseTaken
  split
  · rfl
  · rw [if_neg (by simp [hf]), if_neg (by simp [hj])]

section Right
variable (hframe : fmFrame i dst 3 16 bs s = true) (hpos : farmPos s = true)
include hframe hpos

/-- A frame that is right: it starts a later job or renews its own. -/
theorem leaseTaken_right : leaseTaken i dst bs s =
    if (bit (fieldLe bs 44 1) 0 = true ∧ s.power.fenced = false
          ∧ (s.host.joined = true ∧ s.host.jobEpoch < fieldLe bs 40 4 ∨ s.host.joined = false ∧ s.host.accepted = false))
        ∨ (s.host.joined = true ∧ s.host.jobId = fieldLe bs 32 8 ∧ s.host.jobEpoch = fieldLe bs 40 4) then
      renew (fieldLe bs 32 8) (fieldLe bs 40 4) s
    else s := by
  unfold leaseTaken
  rw [if_neg (by simp [hframe, hpos])]
  have hiff : (bit (fieldLe bs 44 1) 0 = true ∧ (!s.power.fenced) = true
      ∧ (if s.host.joined = true then decide (s.host.jobEpoch < fieldLe bs 40 4) else !s.host.accepted) = true)
      ↔ (bit (fieldLe bs 44 1) 0 = true ∧ s.power.fenced = false
          ∧ (s.host.joined = true ∧ s.host.jobEpoch < fieldLe bs 40 4 ∨ s.host.joined = false ∧ s.host.accepted = false)) := by
    cases s.host.joined <;> simp
  by_cases hstart : bit (fieldLe bs 44 1) 0 = true ∧ s.power.fenced = false
      ∧ (s.host.joined = true ∧ s.host.jobEpoch < fieldLe bs 40 4 ∨ s.host.joined = false ∧ s.host.accepted = false)
  · rw [if_pos (hiff.2 hstart), if_pos (.inl hstart)]
  · rw [if_neg (fun h => hstart (hiff.1 h))]
    by_cases hown : s.host.joined = true ∧ s.host.jobId = fieldLe bs 32 8 ∧ s.host.jobEpoch = fieldLe bs 40 4
    · rw [if_pos hown, if_pos (.inr hown)]
    · rw [if_neg hown, if_neg (fun h => h.elim hstart hown)]

end Right

end LeaseTaken

/-! ### Restart (R458) -/

/-- Entry to BOOT begins at stage 0 and counts the start. -/
theorem enterBoot_sec (s : State) : (enterBoot s).sec.stage = 0 ∧ (enterBoot s).sec.boots = (s.sec.boots + 1) % 256 := by
  unfold enterBoot
  dsimp only
  generalize hv : endJoin _ = v
  obtain ⟨a, b, hs⟩ := settle_eq v
  obtain ⟨m0, a0, b0, h0⟩ := traceEv_eq 0 0xE4 1 (settle v).power.jepoch (settle v)
  obtain ⟨m1, a1, b1, h1⟩ := traceEv_eq 1 0xE4 1 (settle v).power.jepoch (traceEv 0 0xE4 1 (settle v).power.jepoch (settle v))
  rw [h1, h0, hs, ← hv]
  exact ⟨rfl, rfl⟩

/-- A restart enters BOOT. -/
theorem restart_spec (s : State) : (restart s).power.booted = false ∧ (restart s).power.fenced = false
    ∧ (restart s).sec.stage = 0 ∧ (restart s).sec.boots = (s.sec.boots + 1) % 256 ∧ PinsLow (restart s) := by
  unfold restart
  obtain ⟨⟨ks, e, w, hv⟩, -⟩ := voidAll_spec 1 0xFF s
  obtain ⟨fa, fb, habort, -⟩ := abortFlash_spec (voidAll 1 0xFF s)
  have hboots : (abortFlash (voidAll 1 0xFF s)).sec.boots = s.sec.boots := by rw [habort, hv]
  obtain ⟨hstage, hcount⟩ := enterBoot_sec (abortFlash (voidAll 1 0xFF s))
  obtain ⟨v, hpower, hsettled⟩ := enterBoot_settles (abortFlash (voidAll 1 0xFF s))
  obtain ⟨a, b, hset⟩ := settle_eq v
  refine ⟨?_, ?_, hstage, by rw [hcount, hboots], enterBoot_pinsLow _⟩
  · rw [hpower, hset, hsettled]
  · rw [hpower, hset, hsettled]

/-- A RESTART frame of the last job to a fenced module asks for a restart (R463). -/
theorem restartFrame_right {i dst : Nat} {bs : List Byte} {s : State} (hframe : fmFrame i dst 6 16 bs s = true)
    (hpos : farmPos s = true) (hf : s.power.fenced = true) (hjob : s.host.lastJob = fieldLe bs 32 8) :
    restartFrame i dst bs s = if restartRefused s = true then cmdRej s else restart s := by
  unfold restartFrame restartRequest
  rw [if_pos ⟨hframe, hpos, hf, hjob⟩]

/-! ### WAKE_FRAME -/

theorem wake_cases (s : State) :
    (s.power.retainEntry = true → wake s = { s with power := { s.power with wakePend := true } })
      ∧ (s.power.retainEntry = false → s.power.inRetain = true → (wake s).power.inRetain = false
          ∧ (wake s).power.retainExit = true ∧ wake s = { s with power := (wake s).power })
      ∧ (s.power.retainEntry = false → s.power.inRetain = false → wake s = s) := by
  refine ⟨fun he => if_pos he, fun he hr => ?_, fun he hr => ?_⟩
  · obtain ⟨h1, h2, -, h3⟩ := wake_inRetain_spec he hr
    exact ⟨h1, h2, h3⟩
  · unfold wake
    rw [if_neg (by simp [he]), if_neg (by simp [hr])]

end Sys2Proof.Machine

namespace Sys2Proof

open Sys2Proof.Machine

/-- Settles O60: each frame and each deadline is one equation of its operation, and the fence leaves no ticket open. -/
theorem partnersHeartbeatAndLeasesFence : Obligations.PartnersHeartbeatAndLeasesFence := by
  unfold Obligations.PartnersHeartbeatAndLeasesFence
  intro t i dst bs s0 hi s h late canFence' fenced job epoch renewed
  refine ⟨fun hc => congrArg Host.Outcome.next (heartbeatSend_idle hc), fun hon hpos hup => ?_,
    fun hc => congrArg Host.Outcome.next (heartbeatRx_wrong hc), fun hup hkind hver hn hlen => ?_, fun hj hp hl hlate => ?_,
    fun hc => congrArg Host.Outcome.next ((peerTimeout_cases s).2 hc), fun hc => congrArg Host.Outcome.next (beaconSend_idle hc),
    fun hup hpos => ?_, fun hrun => ⟨fun hc => ?_, fun hframe hpos => ⟨fun hj hjob hep => ?_, fun hstart hf hnew => ?_,
      fun hstart hother => ?_⟩, ?_⟩, fun hover hcan => ?_, fun hj hl ht => congrArg Host.Outcome.next (if_pos ⟨hj, hl, ht⟩),
    fun hc => congrArg Host.Outcome.next (if_neg ?_), fun hframe hpos hj hjob hcan => ?_,
    fun hc => congrArg Host.Outcome.next (if_neg ?_), fun hframe hpos hf hjob => ⟨fun href => ?_, fun href => ?_⟩,
    fun hc => congrArg Host.Outcome.next (if_neg ?_), fun hc => congrArg Host.Outcome.next (if_neg ?_), fun hc => ?_⟩
  · obtain ⟨hctr, hsent, hframe⟩ := heartbeatSend_spec hon hpos hup
    exact ⟨_, heartbeatFrame s, rfl, hctr, rfl, rfl, rfl, hsent, hframe⟩
  · refine ⟨_, congrArg Host.Outcome.next (heartbeatRx_good ⟨hup, hkind, hver, hn, hlen⟩), rfl, rfl, rfl, rfl, fun n hn32 => ?_, rfl, rfl⟩
    exact (tget_foldl_tset {} (peerEntry bs) _ _ _).trans (if_pos (List.mem_range.2 hn32))
  · obtain ⟨a, b, m, hv⟩ := attachVec_eq { s with host := { s.host with peerLost := true } }
    exact ⟨_, congrArg Host.Outcome.next (((peerTimeout_cases s).1 hj hp hl hlate).trans hv), rfl, hj, rfl⟩
  · refine ⟨_, beaconFrame i s, congrArg Host.Outcome.next (beaconSend_eq hup hpos), rfl, length_beaconFrame i s, ?_, rfl⟩
    split
    · next h0 => exact ⟨rfl, rfl⟩
    · next h0 => exact ⟨rfl, rfl⟩
  · exact congrArg Host.Outcome.next ((lease_eq i dst bs s).trans (by rw [leaseExpire_running hrun, leaseTaken_dropped hc]))
  · exact congrArg Host.Outcome.next ((lease_eq i dst bs s).trans
      (by rw [leaseExpire_running hrun, leaseTaken_right hframe hpos, if_pos (.inr ⟨hj, hjob, hep⟩)]; rfl))
  · exact congrArg Host.Outcome.next ((lease_eq i dst bs s).trans
      (by rw [leaseExpire_running hrun, leaseTaken_right hframe hpos, if_pos (.inl ⟨hstart, hf, hnew⟩)]; rfl))
  · refine congrArg Host.Outcome.next ((lease_eq i dst bs s).trans ?_)
    rw [leaseExpire_running hrun, leaseTaken_right hframe hpos, if_neg]
    rintro (⟨hs, -⟩ | ⟨hj, hjob, hep⟩)
    · rw [hstart] at hs; exact absurd hs (by decide)
    · rcases hother with hne | hne | hne
      · rw [hne] at hj; exact absurd hj (by decide)
      · exact hne hjob
      · exact hne hep
  · exact congrArg Host.Outcome.next (leaseExpire_running hrun)
  · have hfence := fence_fences 2 hcan
    obtain ⟨hf, -, hj, -⟩ := hfence
    exact ⟨_, congrArg Host.Outcome.next (leaseExpire_over hover), fence_fences 2 hcan,
      congrArg Host.Outcome.next ((lease_eq i dst bs s).trans (by rw [leaseExpire_over hover, leaseTaken_fenced hf hj]))⟩
  · rintro ⟨hj, hl, ht⟩
    rcases hc with hc | hc | hc
    · rw [hj] at hc; exact absurd hc (by decide)
    · rw [hl] at hc; exact absurd hc (by decide)
    · exact absurd ht (Nat.not_le.2 hc)
  · exact ⟨_, congrArg Host.Outcome.next (if_pos ⟨hframe, hpos, hj, hjob⟩), fence_fences 3 hcan⟩
  · rintro ⟨hf, hp, hj, hjob⟩
    rcases hc with hc | hc | hc | hc
    · rw [hf] at hc; exact absurd hc (by decide)
    · rw [hp] at hc; exact absurd hc (by decide)
    · rw [hj] at hc; exact absurd hc (by decide)
    · exact hc hjob
  · exact congrArg Host.Outcome.next ((restartFrame_right hframe hpos hf hjob).trans (if_pos href))
  · exact ⟨_, congrArg Host.Outcome.next ((restartFrame_right hframe hpos hf hjob).trans (if_neg (by rw [href]; decide))),
      restart_spec s⟩
  · rintro ⟨hf, hp, hfd, hjob⟩
    rcases hc with hc | hc | hc | hc
    · rw [hf] at hc; exact absurd hc (by decide)
    · rw [hp] at hc; exact absurd hc (by decide)
    · rw [hfd] at hc; exact absurd hc (by decide)
    · exact hc hjob
  · rw [hc]; decide
  · exact ⟨_, congrArg Host.Outcome.next (if_pos hc), wake_cases s⟩

end Sys2Proof

/-! SUPPORT. HOST ports (R447 to R456): what an error response leaves of the links, the waiting watermark record, and the
outcomes that failover writes again. -/

namespace Sys2Proof.Machine

/-! ### What an error response leaves of the links and the sources -/

/-- The links of the two ports, and the fault sources. -/
def links (s : State) : HostPort × HostPort × FaultState := (s.host.p0, s.host.p1, s.fault)

theorem links_foldl {α : Type} (f : State → α → State) (hf : ∀ s a, links (f s a) = links s) (l : List α) (s : State) :
    links (l.foldl f s) = links s := by
  induction l generalizing s with
  | nil => rfl
  | cons a r ih => rw [List.foldl_cons, ih, hf]

theorem links_voidWhere (p : Ticket → Bool) (cause part quad detail : Nat) (s : State) :
    links (voidWhere p cause part quad detail s) = links s := by
  obtain ⟨_, _, _, h⟩ := (voidWhere_spec p cause part quad detail s).2.2
  rw [h]; rfl

theorem links_abandonFiring (free : Bool) (m : Nat) (s : State) : links (abandonFiring free m s) = links s := by
  unfold abandonFiring
  split
  · rfl
  · next f _ =>
    obtain ⟨_, h⟩ := freeFiring_eq f (modMitten m (fun x => { x with firing := none }) s)
    dsimp only
    split
    · rw [h]; rfl
    · rfl

theorem links_voidFiring (free : Bool) (m cause part quad detail : Nat) (s : State) :
    links (voidFiring free m cause part quad detail s) = links s :=
  (links_abandonFiring _ _ _).trans (links_voidWhere _ _ _ _ _ _)

theorem links_disableStreams (sts : List Nat) (cause part quad : Nat) (s : State) :
    links (disableStreams sts cause part quad s) = links s :=
  links_foldl (fun a st => disableStream st cause part quad a) (fun s st => links_voidWhere (·.stream == st) cause part quad 0 s) sts s

theorem links_ringError (n seq : Nat) (s : State) : links (ringError n seq s) = links s := by
  unfold ringError drawFree
  dsimp only
  rw [links_foldl]
  · rfl
  · exact fun _ _ => rfl

theorem links_errorResponse (w : Requester) (line cause part : Nat) (s : State) :
    links (errorResponse w line cause part s) = links s := by
  unfold errorResponse
  split
  case h_1 => exact links_voidFiring _ _ _ _ _ _ _
  case h_2 => exact links_voidWhere _ _ _ _ _ _
  case h_3 => exact links_voidFiring _ _ _ _ _ _ _
  case h_4 => exact links_ringError _ _ _
  case h_5 => exact links_disableStreams _ _ _ _ _
  case h_6 d =>
    obtain ⟨_, _, h⟩ := setTrace_eq d { trace d s with dropped := (trace d s).dropped + 4 } s
    rw [h]; rfl
  all_goals rfl

theorem hport_of_links {s u : State} (h : links u = links s) (p : Nat) : hport p u = hport p s := by
  unfold hport
  rw [show u.host.p0 = s.host.p0 from congrArg (·.1) h, show u.host.p1 = s.host.p1 from congrArg (·.2.1) h]

theorem fsrc_of_links {s u : State} (h : links u = links s) (id : Nat) : fsrc id u = fsrc id s := by
  unfold fsrc
  rw [show u.fault = s.fault from congrArg (·.2.2) h]

/-! ### Reads that end with an error -/

theorem failReads_cons (p src : Nat) (w : Requester) (fl : List Requester) (s : State) :
    failReads p src (w :: fl) s = failReads p src fl (latch (srcHost p src) 0 (errorResponse w 64 1 (0x48 + p) s)) := rfl

theorem hport_failReads (p src : Nat) (fl : List Requester) (q : Nat) (s : State) :
    hport q (failReads p src fl s) = hport q s := by
  induction fl generalizing s with
  | nil => rfl
  | cons w fl ih => rw [failReads_cons, ih, hport_latch, hport_of_links (links_errorResponse w _ _ _ s)]

theorem latched_failReads (p src : Nat) (fl : List Requester) (id : Nat) {s : State} (h : (fsrc id s).latched = true) :
    (fsrc id (failReads p src fl s)).latched = true := by
  induction fl generalizing s with
  | nil => exact h
  | cons w fl ih =>
    rw [failReads_cons]
    refine ih (latched_latch _ _ _ _ ?_)
    rw [fsrc_of_links (links_errorResponse w _ _ _ s), h]

/-- Reads that end latch the port's source. -/
theorem failReads_latches (p src : Nat) {fl : List Requester} (h : fl ≠ []) (s : State) :
    (fsrc (srcHost p src) (failReads p src fl s)).latched = true := by
  obtain ⟨w, rest, rfl⟩ := List.exists_cons_of_ne_nil h
  rw [failReads_cons]
  exact latched_failReads _ _ _ _ (by simp)

/-- An island that receives an error completion changes nothing of its own. -/
theorem failReads_island (p src i : Nat) (s : State) : failReads p src [.island i] s = latch (srcHost p src) 0 s := rfl

/-! ### One port -/

/-- The two ports' own fields are all that an operation on a port may change. -/
theorem modPort_frame (p : Nat) (f : HostPort → HostPort) (s : State) : modPort p f s
    = { s with host := { s.host with p0 := (modPort p f s).host.p0, p1 := (modPort p f s).host.p1 } } := by
  unfold modPort
  split <;> rfl

theorem hport_modPort_peer {p : Nat} (hp : p < 2) (f : HostPort → HostPort) (s : State) :
    hport (1 - p) (modPort p f s) = hport (1 - p) s := by
  obtain rfl | rfl : p = 0 ∨ p = 1 := by omega
  · rfl
  · rfl

theorem isIso_modPort (p q : Nat) (f : HostPort → HostPort) (s : State) : isIso q (modPort p f s) = isIso q s := by
  unfold isIso
  rw [modPort_fault]

/-- What `portUp` reads. -/
theorem portUp_of {s u : State} {p : Nat} (hl : (hport p u).link = (hport p s).link) (hd : (hport p u).d3hot = (hport p s).d3hot)
    (hi : u.fault = s.fault) : portUp p u = portUp p s := by
  unfold portUp isIso
  rw [hl, hd, hi]

/-! ### The watermark record that waits (R456) -/

theorem flushRecord_none {s : State} (h : s.host.wmPend = false) : flushRecord s = s := if_neg (by simp [h])

/-- Writing the record touches host memory and the note that it waits. -/
theorem flushRecord_eq (s : State) : ∃ m w, flushRecord s = { s with host := { s.host with mem := m, wmPend := w } } := by
  unfold flushRecord
  split
  · obtain ⟨m, hm⟩ := hostWr_eq s.host.port s.host.wmBase s.host.wmRec s
    rw [hm]
    exact ⟨_, _, rfl⟩
  · exact ⟨s.host.mem, s.host.wmPend, rfl⟩

theorem flushRecord_carried {s : State} (hw : s.host.wmPend = true) (hc : carried s.host.port s = true) : flushRecord s
    = { s with host := { s.host with mem := wrBytes s.host.mem s.host.wmBase s.host.wmRec, wmPend := false } } := by
  unfold flushRecord hostWr
  rw [if_pos ⟨hw, hc⟩, if_pos hc]

/-- A record that its port carries does not wait any longer. -/
theorem flushRecord_wmPend {s : State} (hc : carried s.host.port s = true) : (flushRecord s).host.wmPend = false := by
  cases hw : s.host.wmPend with
  | false => rw [flushRecord_none hw, hw]
  | true => rw [flushRecord_carried hw hc]

theorem hport_flushRecord (q : Nat) (s : State) : hport q (flushRecord s) = hport q s := by
  obtain ⟨_, _, h⟩ := flushRecord_eq s
  rw [h]; rfl

theorem flushRecord_power (s : State) : (flushRecord s).power = s.power := by
  obtain ⟨_, _, h⟩ := flushRecord_eq s
  rw [h]

/-! ### HOST_LINK_UP -/

/-- A port may train (R454). -/
def mayTrain (p : Nat) (s : State) : Prop :=
  (hport p s).link = false ∧ (hport p s).perst = false ∧ isIso (0x48 + p) s = false ∧ dieUp p s = true ∧ s.power.on = true
    ∧ s.power.inRetain = false ∧ (3 ≤ s.sec.stage ∨ s.power.booted = true)

/-- A port whose link has come up. -/
def linked (p : Nat) (s : State) : State := modPort p (fun x => { x with link := true, orderly := false }) s

theorem linkUp_idle {p : Nat} {s : State} (h : (hport p s).link = true ∨ (hport p s).perst = true ∨ isIso (0x48 + p) s = true
    ∨ dieUp p s = false ∨ s.power.on = false ∨ s.power.inRetain = true ∨ (s.sec.stage < 3 ∧ s.power.booted = false)) :
    linkUp p s = s := by
  unfold linkUp
  refine if_pos ?_
  simpa only [Bool.not_eq_true', eq_self_iff_true] using h

theorem linkUp_trains {p : Nat} {s : State} (h : mayTrain p s) : linkUp p s = flushRecord (linked p s) := by
  obtain ⟨hl, hp, hi, hd, ho, hr, hs⟩ := h
  unfold linkUp
  refine if_neg ?_
  rw [hl, hp, hi, hd, ho, hr]
  simp only [Bool.not_true, Bool.false_eq_true, false_or]
  rintro ⟨h, hb⟩
  rcases hs with hs | hs
  · omega
  · rw [hs] at hb; exact absurd hb (by decide)

theorem hport_linked (p : Nat) (s : State) : hport p (linked p s) = { hport p s with link := true, orderly := false } :=
  hport_modPort_same _ _ _

/-- A linked port that is neither redirected, nor in D3hot, nor isolated carries what is configured for it. -/
theorem carried_linked {p : Nat} {s : State} (hi : isIso (0x48 + p) s = false) (hr : (hport p s).redirect = false)
    (hd : (hport p s).d3hot = false) : carried p (linked p s) = true := by
  unfold carried carrier
  rw [hport_linked, if_neg (by simp [hr])]
  unfold portUp
  rw [hport_linked, linked, isIso_modPort, hi]
  simp [hd]

/-! ### HOST_LINK_DOWN -/

/-- The port whose link has gone down, with its source. -/
def linkLost (p : Nat) (s : State) : State :=
  latch (srcHost p 0) 0 (modPort p (fun x => { x with link := false, downAt := s.time.now, orderly := false }) s)

/-- The link has gone down; without an orderly end the surprise source is latched too. -/
def linkGone (p : Nat) (orderly : Bool) (s : State) : State :=
  if orderly ∨ (hport p s).orderly then linkLost p s else latch (srcHost p 1) 0 (linkLost p s)

theorem goDown_down {p : Nat} {s : State} (orderly : Bool) (fl : List Requester) (h : (hport p s).link = false) :
    goDown p orderly fl s = s := if_pos (by simp [h])

theorem goDown_linked {p : Nat} {s : State} (orderly : Bool) (fl : List Requester) (h : (hport p s).link = true) :
    goDown p orderly fl s = failReads p 2 fl (linkGone p orderly s) := if_neg (by simp [h])

theorem linkGone_cases (p : Nat) (orderly : Bool) (s : State) :
    (orderly = true ∨ (hport p s).orderly = true → linkGone p orderly s = linkLost p s)
      ∧ (orderly = false → (hport p s).orderly = false → linkGone p orderly s = latch (srcHost p 1) 0 (linkLost p s)) :=
  ⟨fun h => if_pos h, fun ho hh => if_neg (by simp [ho, hh])⟩

theorem hport_linkLost (p : Nat) (s : State) :
    hport p (linkLost p s) = { hport p s with link := false, downAt := s.time.now, orderly := false } := by
  unfold linkLost
  rw [hport_latch, hport_modPort_same]

theorem linkLost_latched (p : Nat) (s : State) : (fsrc (srcHost p 0) (linkLost p s)).latched = true := by
  unfold linkLost
  rw [fsrc_latch_same]

/-- The loss of a link changes its port and latches its source, and nothing else. -/
theorem linkLost_keeps {p : Nat} (hp : p < 2) (s : State) :
    fsrc (srcHost p 1) (linkLost p s) = fsrc (srcHost p 1) s ∧ hport (1 - p) (linkLost p s) = hport (1 - p) s
      ∧ linkLost p s = { s with
        host := { s.host with p0 := (linkLost p s).host.p0, p1 := (linkLost p s).host.p1 }
        fault := { s.fault with src := (linkLost p s).fault.src } } := by
  refine ⟨?_, ?_, ?_⟩
  · unfold linkLost
    rw [fsrc_latch_ne _ _ (by simp [srcHost]), fsrc_modPort]
  · unfold linkLost
    rw [hport_latch, hport_modPort_peer hp]
  · unfold linkLost modPort
    split <;> rfl

/-- The state of the port and of the two link sources once a link is gone, whatever was in flight. -/
theorem goDown_spec {p : Nat} {s : State} (orderly : Bool) (fl : List Requester) (h : (hport p s).link = true) :
    hport p (goDown p orderly fl s) = { hport p s with link := false, downAt := s.time.now, orderly := false }
      ∧ (fsrc (srcHost p 0) (goDown p orderly fl s)).latched = true
      ∧ (orderly = false → (hport p s).orderly = false → (fsrc (srcHost p 1) (goDown p orderly fl s)).latched = true)
      ∧ (fl ≠ [] → (fsrc (srcHost p 2) (goDown p orderly fl s)).latched = true) := by
  have hgone : hport p (linkGone p orderly s) = hport p (linkLost p s)
      ∧ (fsrc (srcHost p 0) (linkGone p orderly s)).latched = true := by
    unfold linkGone
    split
    · exact ⟨rfl, linkLost_latched p s⟩
    · exact ⟨hport_latch _ _ _ _, latched_latch _ _ _ _ (linkLost_latched p s)⟩
  rw [goDown_linked orderly fl h]
  refine ⟨by rw [hport_failReads, hgone.1, hport_linkLost], latched_failReads _ _ _ _ hgone.2, fun ho hh => ?_,
    fun hfl => failReads_latches _ _ hfl _⟩
  rw [(linkGone_cases p orderly s).2 ho hh]
  exact latched_failReads _ _ _ _ (by rw [fsrc_latch_same])

/-- An orderly end with nothing in flight. -/
theorem goDown_orderly {p : Nat} {s : State} (orderly : Bool) (h : (hport p s).link = true)
    (ho : orderly = true ∨ (hport p s).orderly = true) : goDown p orderly [] s = linkLost p s := by
  rw [goDown_linked orderly [] h, (linkGone_cases p orderly s).1 ho]
  rfl

/-! ### PORT_FAILOVER (R449, R450) -/

/-- `u` differs from `s` in host memory, in pending bits of the vectors and in the messages sent. -/
def OnlySignals (s u : State) : Prop := ∃ m a b g, u = { s with host := { s.host with
  mem := m, p0 := { s.host.p0 with msix := a }, p1 := { s.host.p1 with msix := b }, msgs := g } }

theorem OnlySignals.refl (s : State) : OnlySignals s s :=
  ⟨s.host.mem, s.host.p0.msix, s.host.p1.msix, s.host.msgs, rfl⟩

theorem OnlySignals.trans {s u w : State} (h : OnlySignals s u) (k : OnlySignals u w) : OnlySignals s w := by
  obtain ⟨m, a, b, g, rfl⟩ := h
  obtain ⟨m', a', b', g', rfl⟩ := k
  exact ⟨m', a', b', g', rfl⟩

theorem onlySignals_hostWr (p a : Nat) (bs : List Byte) (s : State) : OnlySignals s (hostWr p a bs s) := by
  obtain ⟨m, h⟩ := hostWr_eq p a bs s
  exact ⟨m, s.host.p0.msix, s.host.p1.msix, s.host.msgs, h⟩

theorem onlySignals_sendVec (p v : Nat) (s : State) : OnlySignals s (sendVec p v s) := by
  obtain ⟨a, b, g, h⟩ := sendVec_eq p v s
  exact ⟨s.host.mem, a, b, g, h⟩

theorem onlySignals_attachVec (s : State) : OnlySignals s (attachVec s) := by
  obtain ⟨a, b, g, h⟩ := attachVec_eq s
  exact ⟨s.host.mem, a, b, g, h⟩

theorem onlySignals_foldl {α : Type} (f : State → α → State) (hf : ∀ s a, OnlySignals s (f s a)) (l : List α) (s : State) :
    OnlySignals s (l.foldl f s) := by
  induction l generalizing s with
  | nil => exact OnlySignals.refl s
  | cons a r ih => exact (hf s a).trans (ih _)

theorem onlySignals_rewriteRing (st : Nat) (s : State) : OnlySignals s (rewriteRing st s) := by
  unfold rewriteRing
  dsimp only
  split
  · exact OnlySignals.refl s
  · exact (onlySignals_foldl _ (fun _ _ => onlySignals_hostWr _ _ _ _) _ s).trans (onlySignals_sendVec _ _ _)

/-- Signals leave the links as they are. -/
theorem OnlySignals.hport {s u : State} (h : OnlySignals s u) (q : Nat) :
    (hport q u).redirect = (hport q s).redirect ∧ (hport q u).link = (hport q s).link
      ∧ (hport q u).d3hot = (hport q s).d3hot := by
  obtain ⟨m, a, b, g, rfl⟩ := h
  unfold Machine.hport
  split <;> exact ⟨rfl, rfl, rfl⟩

theorem OnlySignals.carried {s u : State} (h : OnlySignals s u) (q : Nat) : carried q u = carried q s := by
  have hf : u.fault = s.fault := by obtain ⟨_, _, _, _, rfl⟩ := h; rfl
  unfold Machine.carried carrier
  rw [(h.hport q).1]
  exact portUp_of (h.hport _).2.1 (h.hport _).2.2 hf

/-- A port is redirected. -/
def redirected (p : Nat) (s : State) : State := modPort p (fun x => { x with redirect := true }) s

/-- Failover up to the record that waits: the streams of the port, then the attach vector. -/
def failedOver (p : Nat) (s : State) : State :=
  attachVec (((declaredStreams s).filter (fun n => (strm n s).port == p)).foldl (fun a st => rewriteRing st a) (redirected p s))

theorem failover_idle {p : Nat} {s : State} (h : s.host.failover = false ∨ (hport p s).redirect = true ∨ portUp p s = true
    ∨ portUp (1 - p) s = false ∨ s.time.now < (hport p s).downAt + s.host.foUs * 1000) : failover p s = s := by
  unfold failover
  refine if_pos ?_
  simpa only [Bool.not_eq_true', eq_self_iff_true] using h

theorem failover_due {p : Nat} {s : State} (hf : s.host.failover = true) (hr : (hport p s).redirect = false)
    (hu : portUp p s = false) (hq : portUp (1 - p) s = true) (ht : (hport p s).downAt + s.host.foUs * 1000 ≤ s.time.now) :
    failover p s = flushRecord (failedOver p s) := by
  have hs : (declaredStreams (redirected p s)).filter (fun n => (strm n (redirected p s)).port == p)
      = (declaredStreams s).filter (fun n => (strm n s).port == p) := by
    unfold redirected declaredStreams
    simp only [modPort_led, strm_modPort]
  unfold failover
  rw [if_neg]
  · dsimp only
    rw [show modPort p (fun x => { x with redirect := true }) s = redirected p s from rfl, hs]
    rfl
  · rw [hf, hr, hu, hq]
    simp only [Bool.not_true, Bool.false_eq_true, false_or]
    omega

theorem onlySignals_failedOver (p : Nat) (s : State) : OnlySignals (redirected p s) (failedOver p s) :=
  (onlySignals_foldl _ (fun _ _ => onlySignals_rewriteRing _ _) _ _).trans (onlySignals_attachVec _)

/-- What is configured for a redirected port is carried by the other. -/
theorem carried_redirected {p : Nat} {s : State} (hp : p < 2) (hq : portUp (1 - p) s = true) :
    carried p (redirected p s) = true := by
  unfold carried carrier redirected
  rw [hport_modPort_same, if_pos rfl, portUp_of (s := s) (by rw [hport_modPort_peer hp]) (by rw [hport_modPort_peer hp])
    (modPort_fault _ _ _), hq]

/-- The one unconsumed outcome of a stream is written again where its entry stands, under the PHASE of that entry. -/
theorem rewriteRing_one {st : Nat} {k : Ticket} {s : State} (hk : unconsumed st s = [k]) (hsec : (strm st s).secure = false)
    (hc : carried (strm st s).port s = true) : (rewriteRing st s).host.mem
      = wrBytes s.host.mem ((strm st s).outBase + (strm st s).cons % 65536 % ringSize (strm st s) * 64)
          (outcomeBytes k (if (strm st s).cons % 65536 / ringSize (strm st s) % 2 = 0 then 1 else 0) s.power.jepoch) := by
  unfold rewriteRing
  rw [hk, if_neg (by simp [hsec])]
  dsimp only [List.zipIdx_cons, List.zipIdx_nil, List.foldl_cons, List.foldl_nil]
  obtain ⟨_, _, _, hv⟩ := sendVec_eq (strm st s).port (strm st s).vector
    (hostWr (strm st s).port ((strm st s).outBase + ((strm st s).cons + 0) % 65536 % ringSize (strm st s) * 64)
      (outcomeBytes k (if ((strm st s).cons + 0) % 65536 / ringSize (strm st s) % 2 = 0 then 1 else 0) s.power.jepoch) s)
  rw [hv]
  unfold hostWr
  rw [if_pos hc, Nat.add_zero]

theorem failover_spec {p : Nat} {s : State} (hp : p < 2) (hf : s.host.failover = true) (hr : (hport p s).redirect = false)
    (hu : portUp p s = false) (hq : portUp (1 - p) s = true) (ht : (hport p s).downAt + s.host.foUs * 1000 ≤ s.time.now) :
    (hport p (failover p s)).redirect = true ∧ (hport p (failover p s)).link = (hport p s).link
      ∧ (hport (1 - p) (failover p s)).redirect = (hport (1 - p) s).redirect
      ∧ failover p s = { s with host := (failover p s).host }
      ∧ (s.host.port = p → (failover p s).host.wmPend = false) := by
  rw [failover_due hf hr hu hq ht]
  have hsig := onlySignals_failedOver p s
  have hport' : ∀ q, (hport q (flushRecord (failedOver p s))).redirect = (hport q (redirected p s)).redirect
      ∧ (hport q (flushRecord (failedOver p s))).link = (hport q (redirected p s)).link := fun q => by
    rw [hport_flushRecord]
    exact ⟨(hsig.hport q).1, (hsig.hport q).2.1⟩
  refine ⟨?_, ?_, ?_, ?_, fun hport => flushRecord_wmPend ?_⟩
  · rw [(hport' p).1, redirected, hport_modPort_same]
  · rw [(hport' p).2, redirected, hport_modPort_same]
  · rw [(hport' (1 - p)).1, redirected, hport_modPort_peer hp]
  · obtain ⟨_, _, hfl⟩ := flushRecord_eq (failedOver p s)
    obtain ⟨_, _, _, _, hs⟩ := hsig
    rw [hfl, hs]
    unfold redirected
    rw [modPort_frame]
  · have hpt : (failedOver p s).host.port = p := by
      obtain ⟨_, _, _, _, hs⟩ := hsig
      rw [hs, ← hport]
      unfold redirected modPort
      split <;> rfl
    rw [hpt, hsig.carried]
    exact carried_redirected hp hq

/-- Failover with one stream and one unconsumed outcome of it writes that outcome again. -/
theorem failover_rewrites {p st : Nat} {k : Ticket} {s : State} (hp : p < 2) (hf : s.host.failover = true)
    (hr : (hport p s).redirect = false) (hu : portUp p s = false) (hq : portUp (1 - p) s = true)
    (ht : (hport p s).downAt + s.host.foUs * 1000 ≤ s.time.now)
    (hst : (declaredStreams s).filter (fun n => (strm n s).port == p) = [st]) (hk : unconsumed st s = [k])
    (hsec : (strm st s).secure = false) (hw : s.host.wmPend = false) : (failover p s).host.mem
      = wrBytes s.host.mem ((strm st s).outBase + (strm st s).cons % 65536 % ringSize (strm st s) * 64)
          (outcomeBytes k (if (strm st s).cons % 65536 / ringSize (strm st s) % 2 = 0 then 1 else 0) s.power.jepoch) := by
  have hstp : (strm st s).port = p := by
    have hmem : st ∈ (declaredStreams s).filter (fun n => (strm n s).port == p) := by rw [hst]; exact List.mem_singleton.2 rfl
    simpa using (List.mem_filter.1 hmem).2
  have hstrm : strm st (redirected p s) = strm st s := strm_modPort _ _ _ _
  have hks : unconsumed st (redirected p s) = [k] := by
    unfold unconsumed redirected
    rw [modPort_led]
    exact hk
  have hmem : (redirected p s).host.mem = s.host.mem := by
    unfold redirected; rw [modPort_frame]
  have hpend : (failedOver p s).host.wmPend = false := by
    obtain ⟨_, _, _, _, hs⟩ := onlySignals_failedOver p s
    rw [hs]
    unfold redirected
    rw [modPort_frame]
    exact hw
  have hone := rewriteRing_one hks (by rw [hstrm]; exact hsec) (by rw [hstrm, hstp]; exact carried_redirected hp hq)
  rw [hstrm, hmem, redirected, modPort_power] at hone
  rw [failover_due hf hr hu hq ht, flushRecord_none hpend, failedOver, hst]
  obtain ⟨_, _, _, ha⟩ := attachVec_eq (rewriteRing st (redirected p s))
  rw [List.foldl_cons, List.foldl_nil, ha]
  exact hone

/-! ### PERST and D3hot -/

theorem hport_perstAssert (p : Nat) (fl : List Requester) (s : State) : hport p (perstAssert p fl s) = { ({} : HostPort) with
    perst := true, orderly := true, downAt := (hport p (goDown p true fl s)).downAt
    redirect := (hport p (goDown p true fl s)).redirect, win := (hport p (goDown p true fl s)).win } :=
  hport_modPort_same _ _ _

/-- PERST with nothing in flight: what it keeps. -/
theorem perstAssert_keeps {p : Nat} (hp : p < 2) (s : State) :
    let u := perstAssert p [] s
    hport (1 - p) u = hport (1 - p) s ∧ (hport p u).win = (hport p s).win ∧ (hport p u).redirect = (hport p s).redirect
      ∧ (hport p u).downAt = (if (hport p s).link then s.time.now else (hport p s).downAt)
      ∧ fsrc (srcHost p 1) u = fsrc (srcHost p 1) s ∧ u.power = s.power ∧ u.led = s.led := by
  intro u
  have hpeer : hport (1 - p) u = hport (1 - p) (goDown p true [] s) := hport_modPort_peer hp _ _
  have hsrc : fsrc (srcHost p 1) u = fsrc (srcHost p 1) (goDown p true [] s) := fsrc_modPort _ _ _ _
  have hpow : u.power = (goDown p true [] s).power := modPort_power _ _ _
  have hled : u.led = (goDown p true [] s).led := modPort_led _ _ _
  have hport' := hport_perstAssert p [] s
  rw [hpeer, hsrc, hpow, hled, hport']
  cases hl : (hport p s).link with
  | false =>
    rw [goDown_down true [] hl]
    exact ⟨rfl, rfl, rfl, rfl, rfl, rfl, rfl⟩
  | true =>
    obtain ⟨hk, hq, hfr⟩ := linkLost_keeps hp s
    rw [goDown_orderly true hl (.inl rfl), hport_linkLost, hk, hq]
    refine ⟨rfl, rfl, rfl, rfl, rfl, ?_, ?_⟩
    · rw [hfr]
    · rw [hfr]

theorem perstDeassert_idle {p : Nat} {s : State} (h : (hport p s).perst = false) : perstDeassert p s = s :=
  if_neg (by simp [h])

theorem perstDeassert_ends {p : Nat} {s : State} (h : (hport p s).perst = true) :
    perstDeassert p s = wake (modPort p (fun h => { h with perst := false }) s) := if_pos h

/-- A wake changes the power state alone. -/
theorem wake_frame (s : State) : wake s = { s with power := (wake s).power } := by
  unfold wake
  split
  · rfl
  · split
    · obtain ⟨_, _, h⟩ := settle_eq { s with power := { s.power with inRetain := false, retainExit := true } }
      rw [h]
    · rfl

theorem hport_wake (q : Nat) (s : State) : hport q (wake s) = hport q s := by
  rw [wake_frame]; rfl

theorem d3Entry_idle {p : Nat} {s : State} (fl : List Requester) (h : (hport p s).d3hot = true ∨ (hport p s).link = false) :
    d3Entry p fl s = s := if_pos (h.imp id (by simp))

theorem d3Entry_enters {p : Nat} {s : State} (hd : (hport p s).d3hot = false) (hl : (hport p s).link = true) :
    d3Entry p [] s = modPort p (fun h => { h with d3hot := true, downAt := s.time.now }) s := if_neg (by simp [hd, hl])

theorem d3Exit_idle {p : Nat} {s : State} (h : (hport p s).d3hot = false) : d3Exit p s = s := if_neg (by simp [h])

theorem d3Exit_exits {p : Nat} {s : State} (h : (hport p s).d3hot = true) :
    d3Exit p s = flushRecord (modPort p (fun h => { h with d3hot := false }) s) := if_pos h

end Sys2Proof.Machine

namespace Sys2Proof

open Sys2Proof.Machine

/-- Settles O57: each command is an equation of its operation; error responses keep the links, and failover only signals. -/
theorem hostLinksComeGoAndFailOver : Obligations.HostLinksComeGoAndFailOver := by
  unfold Obligations.HostLinksComeGoAndFailOver
  intro t p s0 hp s h peer port
  refine ⟨fun hidle => ?_, fun hl hpr hi hd ho hr hst => ?_, fun o fl hl => ?_, fun o fl hl => ?_, fun hidle => ?_,
    fun hf hr hu hq hdue => ?_, fun fl => ?_, fun hpr => ?_, fun hpr => ?_, fun fl hidle => ?_, fun hd hl => ?_,
    fun hd => ?_, fun hd => ?_⟩
  · exact congrArg Host.Outcome.next (linkUp_idle hidle)
  · have heq : linkUp p s = flushRecord (linked p s) := linkUp_trains ⟨hl, hpr, hi, hd, ho, hr, hst⟩
    refine ⟨_, congrArg Host.Outcome.next heq, ?_, ?_, fun hw => ?_, fun hw hpt hre hdh => ?_⟩
    · rw [hport_flushRecord, hport_linked]
    · show hport (1 - p) _ = _
      rw [hport_flushRecord, linked, hport_modPort_peer hp]
    · rw [flushRecord_none (by rw [linked, modPort_frame]; exact hw)]
      exact ⟨hport_modPort_peer hp _ _, modPort_frame _ _ _⟩
    · have hhost : (linked p s).host.port = p ∧ (linked p s).host.wmPend = true ∧ (linked p s).host.mem = s.host.mem
          ∧ (linked p s).host.wmBase = s.host.wmBase ∧ (linked p s).host.wmRec = s.host.wmRec := by
        rw [linked, modPort_frame]
        exact ⟨hpt, hw, rfl, rfl, rfl⟩
      obtain ⟨hport', hpend, hmem, hbase, hrec⟩ := hhost
      rw [flushRecord_carried hpend (by rw [hport']; exact carried_linked hi hre hdh), hmem, hbase, hrec]
      exact ⟨rfl, rfl⟩
  · exact congrArg Host.Outcome.next (goDown_down o fl hl)
  · obtain ⟨hport', h0, h1, h2⟩ := goDown_spec o fl hl
    refine ⟨_, rfl, ?_, ?_, h0, h1, h2, fun hfl hord => ?_⟩
    · exact congrArg HostPort.link hport'
    · exact congrArg HostPort.downAt hport'
    · subst hfl
      obtain ⟨hk, hq, hfr⟩ := linkLost_keeps hp s
      show fsrc (srcHost p 1) (goDown p o [] s) = _ ∧ hport p (goDown p o [] s) = _ ∧ hport (1 - p) (goDown p o [] s) = _
        ∧ goDown p o [] s = { s with
            host := { s.host with p0 := (goDown p o [] s).host.p0, p1 := (goDown p o [] s).host.p1 }
            fault := { s.fault with src := (goDown p o [] s).fault.src } }
      rw [goDown_orderly o hl hord]
      exact ⟨hk, hport_linkLost p s, hq, hfr⟩
  · exact congrArg Host.Outcome.next (failover_idle hidle)
  · obtain ⟨hre, hli, hpe, hfr, hwm⟩ := failover_spec hp hf hr hu hq hdue
    exact ⟨_, rfl, hre, hli, hpe, hfr, hwm,
      fun st k hst hk hsec hw => failover_rewrites hp hf hr hu hq hdue hst hk hsec hw⟩
  · have hport' : hport p (perstAssert p fl s) = _ := hport_perstAssert p fl s
    refine ⟨_, rfl, congrArg HostPort.perst hport', congrArg HostPort.link hport', congrArg HostPort.d3hot hport',
      congrArg HostPort.msix hport', fun hl => ?_, fun hfl => ?_⟩
    · show (fsrc (srcHost p 0) (perstAssert p fl s)).latched = true
      rw [perstAssert, fsrc_modPort]
      exact (goDown_spec true fl hl).2.1
    · subst hfl
      exact perstAssert_keeps hp s
  · exact congrArg Host.Outcome.next (perstDeassert_idle hpr)
  · have heq : perstDeassert p s = wake (modPort p (fun h => { h with perst := false }) s) := perstDeassert_ends hpr
    have hpow : (modPort p (fun h => { h with perst := false }) s).power = s.power := modPort_power _ _ _
    obtain ⟨wentry, wretain, wnone⟩ := wake_cases (modPort p (fun h => { h with perst := false }) s)
    rw [hpow] at wentry wretain wnone
    refine ⟨_, congrArg Host.Outcome.next heq, ?_, ?_, fun he => ?_, fun he hr => ?_, fun he hr => ?_⟩
    · rw [hport_wake, hport_modPort_same]
    · show hport (1 - p) _ = _
      rw [hport_wake, hport_modPort_peer hp]
    · rw [wentry he]
    · obtain ⟨hin, hex, -⟩ := wretain he hr
      exact ⟨hin, hex⟩
    · rw [wnone he hr]
      exact ⟨hport_modPort_peer hp _ _, modPort_frame _ _ _⟩
  · exact congrArg Host.Outcome.next (d3Entry_idle fl hidle)
  · exact ⟨_, congrArg Host.Outcome.next (d3Entry_enters hd hl), hport_modPort_same _ _ _, hport_modPort_peer hp _ _,
      modPort_frame _ _ _⟩
  · exact congrArg Host.Outcome.next (d3Exit_idle hd)
  · refine ⟨_, congrArg Host.Outcome.next (d3Exit_exits hd), ?_, ?_, ?_, fun hw => ?_⟩
    · rw [hport_flushRecord, hport_modPort_same]
    · show hport (1 - p) _ = _
      rw [hport_flushRecord, hport_modPort_peer hp]
    · rw [flushRecord_power, modPort_power]
    · rw [flushRecord_none (by rw [modPort_frame]; exact hw)]
      exact ⟨hport_modPort_peer hp _ _, modPort_frame _ _ _⟩

end Sys2Proof

/-! SUPPORT. Host accesses (R419, R444 to R453): refusals, reads and writes through BAR2, vectors and transmit rings. -/

namespace Sys2Proof.Machine

/-! ### Refused accesses (R419) -/

/-- A refused host access, read or write, is counted with its port, and leaves device memory alone. -/
def HostRefused (p a : Nat) (wr : Bool) (s u : State) : Prop :=
  u.sec.violHost = satAdd 16 s.sec.violHost 1 ∧ u.sec.lastPort = p ∧ u.sec.lastWrite = wr
    ∧ (fsrc (srcHost p 5) u).latched = true ∧ u.ddr = s.ddr ∧ u.sec.lastAddr = a

theorem refuse_read (p a : Nat) (s : State) : HostRefused p a false s (refuse a false (.host p) s)
    ∧ (refuse a false (.host p) s).host.resps = .unsupported p :: s.host.resps
    ∧ hport p (refuse a false (.host p) s) = hport p s := by
  refine ⟨⟨rfl, rfl, rfl, ?_, rfl, rfl⟩, rfl, rfl⟩
  unfold refuse
  rw [fsrc_latch_same]

theorem refuse_write (p a : Nat) (s : State) : HostRefused p a true s (refuse a true (.host p) s)
    ∧ (hport p (refuse a true (.host p) s)).aerUr = true ∧ (refuse a true (.host p) s).host.resps = s.host.resps := by
  unfold refuse HostRefused
  dsimp only
  simp only [if_true]
  rw [fsrc_latch_same, hport_latch, hport_modPort_same]
  refine ⟨⟨?_, ?_, ?_, rfl, ?_, ?_⟩, rfl, ?_⟩
  · exact congrArg SecState.violHost (modPort_sec _ _ _)
  · exact congrArg SecState.lastPort (modPort_sec _ _ _)
  · exact congrArg SecState.lastWrite (modPort_sec _ _ _)
  · exact modPort_ddr _ _ _
  · exact congrArg SecState.lastAddr (modPort_sec _ _ _)
  · unfold latch modSrc
    dsimp only
    rw [modPort_frame]

/-! ### BAR2_ACCESS (R445, R447) -/

/-- Every line of a range passes the guards. -/
def rangePasses (p a n : Nat) (wr : Bool) (s : State) : Bool :=
  (linesOf a n).all (fun l => guardPasses (max a l) wr false (.host p) s)

theorem bar2Access_portDown {p : Nat} {s : State} (h : portUp p s = false) (off : Nat) (wr : Option (List Byte)) (len : Nat)
    (ok : Bool) : bar2Access p off wr len ok s = s := if_pos (by simp [h])

theorem bar2Access_damaged {p : Nat} {s : State} (h : portUp p s = true) (off : Nat) (bs : List Byte) (len : Nat) :
    bar2Access p off (some bs) len false s = latch (srcHost p 4) 0 s := by
  unfold bar2Access
  rw [if_neg (by simp [h]), if_pos ⟨rfl, rfl⟩]

section Arrived
variable {p off len : Nat} {wr : Option (List Byte)} {s : State} (hup : portUp p s = true)
include hup

/-- An access outside a valid aperture. -/
theorem bar2Access_outside (h : bar2Addr p off ((wr.map List.length).getD len) s = none) :
    ∃ a, bar2Access p off wr len true s = refuse a wr.isSome (.host p) s := by
  unfold bar2Access
  rw [if_neg (by simp [hup]), if_neg (by simp)]
  dsimp only
  rw [h]
  exact ⟨_, rfl⟩

/-- An access inside the aperture that a guard refuses. -/
theorem bar2Access_guarded {a : Nat} (h : bar2Addr p off ((wr.map List.length).getD len) s = some a)
    (hg : rangePasses p a ((wr.map List.length).getD len) wr.isSome s = false) :
    bar2Access p off wr len true s = refuse a wr.isSome (.host p) s := by
  unfold rangePasses at hg
  unfold bar2Access
  rw [if_neg (by simp [hup]), if_neg (by simp)]
  dsimp only
  rw [h]
  dsimp only
  rw [hg]
  rfl

theorem bar2Access_read {a : Nat} (h : bar2Addr p off len s = some a) (hg : rangePasses p a len false s = true) :
    bar2Access p off none len true s = hostRead p a len s := by
  unfold rangePasses at hg
  unfold bar2Access
  rw [if_neg (by simp [hup]), if_neg (by simp)]
  dsimp only [Option.map_none, Option.getD_none, Option.isSome_none]
  rw [h]
  exact if_neg (by simpa using hg)

theorem bar2Access_write {a : Nat} {bs : List Byte} (h : bar2Addr p off bs.length s = some a)
    (hg : rangePasses p a bs.length true s = true) :
    bar2Access p off (some bs) len true s = (linesOf a bs.length).foldl (fun z l => lineWrite a bs l z) s := by
  unfold rangePasses at hg
  unfold bar2Access
  rw [if_neg (by simp [hup]), if_neg (by simp)]
  dsimp only [Option.map_some, Option.getD_some, Option.isSome_some]
  rw [h]
  exact if_neg (by simpa using hg)

end Arrived

/-- A line that a host read answers with its bytes. -/
def lineGood (s : State) (l : Nat) : Prop := chanUp (chanOf l) s = true ∧ poisonedAt l s = false

theorem hostRead_good {p a len : Nat} {s : State} (h : ∀ l ∈ linesOf a len, lineGood s l) :
    hostRead p a len s = { s with host := { s.host with resps := .data p (devRd a len s) :: s.host.resps } } := by
  have hnone : (linesOf a len).find? (fun l => !chanUp (chanOf l) s || poisonedAt l s) = none := by
    rw [List.find?_eq_none]
    intro l hl
    obtain ⟨hc, hp⟩ := h l hl
    simp [hc, hp]
  unfold hostRead
  dsimp only
  rw [hnone]

theorem hostRead_bad {p a len : Nat} {s : State}
    (h : ∃ l ∈ linesOf a len, chanUp (chanOf l) s = false ∨ poisonedAt l s = true) :
    (hostRead p a len s).host.resps = .poisoned p len :: s.host.resps ∧ (hostRead p a len s).ddr.mem = s.ddr.mem := by
  obtain ⟨l, hl, hbad⟩ := h
  cases hfind : (linesOf a len).find? (fun l => !chanUp (chanOf l) s || poisonedAt l s) with
  | none =>
    refine absurd (List.find?_eq_none.1 hfind l hl) ?_
    rcases hbad with hbad | hbad
    · simp [hbad]
    · simp [hbad]
  | some b =>
    unfold hostRead
    dsimp only
    rw [hfind]
    dsimp only
    split
    · exact ⟨rfl, rfl⟩
    · exact ⟨rfl, rfl⟩

/-! ### A write within a line -/

/-- A range within one line has that line alone. -/
theorem linesOf_one {a n : Nat} (hn : 0 < n) (h : a % 64 + n ≤ 64) : linesOf a n = [a / 64 * 64] := by
  unfold linesOf
  rw [show (a % 64 + n + 63) / 64 = 1 by omega]
  rfl

/-- A line's channel, and its number there, are those of each address in it. -/
theorem chanOf_line (a i : Nat) (h : a % 64 + i < 64) :
    chanOf (a + i) = chanOf (a / 64 * 64) ∧ localOf (a + i) / 64 = localOf (a / 64 * 64) / 64 := by
  unfold chanOf localOf
  omega

/-- The channel no longer holds the line as poisoned. -/
def unpoison (ch n : Nat) (s : State) : State := modChan ch (fun c => { c with poison := c.poison.filter (· != n) }) s

theorem devRd8_unpoison (ch n a : Nat) (s : State) : devRd8 a (unpoison ch n s) = devRd8 a s := by
  have hw : (chan (chanOf a) (unpoison ch n s)).writes = (chan (chanOf a) s).writes := by
    unfold unpoison
    rw [chan_modChan]
    split
    · next h => rw [h]
    · rfl
  unfold devRd8 queuedByte
  rw [hw]
  rfl

/-- A write within one line that is not poisoned stores all its bytes. -/
theorem lineWrite_inside {a : Nat} {bs : List Byte} {s : State} (h : a % 64 + bs.length ≤ 64) (hne : bs ≠ [])
    (hc : chanUp (chanOf a) s = true) (hp : poisonedAt a s = false) :
    lineWrite a bs (a / 64 * 64) s = devWr a bs (unpoison (chanOf a) (localOf a / 64) s) := by
  have hn : 0 < bs.length := List.length_pos_iff.2 hne
  obtain ⟨hch, hloc⟩ := chanOf_line a 0 (by omega)
  rw [Nat.add_zero] at hch hloc
  have hlo : max a (a / 64 * 64) = a := by omega
  have hhi : min (a + bs.length) (a / 64 * 64 + 64) - a = bs.length := by omega
  have hpart : slice bs (a - a) bs.length = bs := by
    unfold slice
    rw [Nat.sub_self, List.drop_zero, List.take_length]
  unfold poisonedAt at hp
  unfold lineWrite
  dsimp only
  rw [hlo, hhi, hpart, ← hch, ← hloc, if_neg (by simp [hc]), if_neg (by rw [hp]; simp)]
  rfl

theorem devRd_devWr {a : Nat} {bs : List Byte} {s : State} (h : ∀ j < bs.length, chanUp (chanOf (a + j)) s = true) :
    devRd a bs.length (devWr a bs s) = bs := by
  unfold devRd
  refine List.ext_getElem (by simp) fun i hi _ => ?_
  rw [List.getElem_map, List.getElem_range]
  exact devRd8_devWr a i bs s (by simpa using hi) h

/-- What a write within a line does: its bytes and no others. -/
theorem lineWrite_spec {a : Nat} {bs : List Byte} {s : State} (h : a % 64 + bs.length ≤ 64) (hne : bs ≠ [])
    (hc : chanUp (chanOf a) s = true) (hp : poisonedAt a s = false) :
    let u := lineWrite a bs (a / 64 * 64) s
    devRd a bs.length u = bs ∧ (∀ b, b < a ∨ a + bs.length ≤ b → devRd8 b u = devRd8 b s) ∧ u = { s with ddr := u.ddr } := by
  intro u
  have hu : u = devWr a bs (unpoison (chanOf a) (localOf a / 64) s) := lineWrite_inside h hne hc hp
  rw [hu]
  refine ⟨devRd_devWr fun j hj => ?_, fun b hb => ?_, ?_⟩
  · rw [chanUp_ddr _ s (unpoison _ _ s) rfl, (chanOf_line a j (by omega)).1, ← (chanOf_line a 0 (by omega)).1]
    exact hc
  · rw [(devWr_kept a bs _).1 b (by omega), devRd8_unpoison]
  · obtain ⟨m, hm⟩ := devWr_eq a bs (unpoison (chanOf a) (localOf a / 64) s)
    rw [hm]
    rfl

/-! ### Reads of the module on a port (R447) -/

theorem readCompletion_idle {p st : Nat} {s : State} (who : Requester) (h : st = 0 ∨ portUp p s = false) :
    readCompletion p who st s = s := if_pos (h.imp id (by simp))

theorem readCompletion_error {p st : Nat} {s : State} (who : Requester) (hst : st ≠ 0) (hup : portUp p s = true) :
    readCompletion p who st s = failReads p (if st = 3 then 4 else 2) [who] s := if_neg (by simp [hst, hup])

/-! ### MSIX_UNMASK (R448) -/

theorem msixUnmask_idle {p v : Nat} {s : State} (h : 32 ≤ v ∨ (tget ({} : MsixEntry) v (hport p s).msix).masked = false) :
    msixUnmask p v s = s := if_pos (h.imp id (by simp))

/-- The port with the vector unmasked and no longer pending. -/
def unmasked (p v : Nat) (s : State) : State :=
  modPort p (fun h => { h with msix := tmod {} v (fun x => { x with masked := false, pba := false }) h.msix }) s

theorem msixUnmask_masked {p v : Nat} {s : State} (hv : v < 32)
    (hm : (tget ({} : MsixEntry) v (hport p s).msix).masked = true) : msixUnmask p v s
      = if (tget ({} : MsixEntry) v (hport p s).msix).pba = true ∧ portUp p s = true then
          { unmasked p v s with host := { (unmasked p v s).host with msgs := ⟨p, v⟩ :: (unmasked p v s).host.msgs } }
        else unmasked p v s := if_neg (by simp [hm, hv])

/-- The messages of the host have been replaced. -/
def withMsgs (g : List Msg) (s : State) : State := { s with host := { s.host with msgs := g } }

/-- Unmasking sends the pending vector once. -/
theorem msixUnmask_sends {p v : Nat} {s : State} (hv : v < 32)
    (hm : (tget ({} : MsixEntry) v (hport p s).msix).masked = true) : msixUnmask p v s
      = withMsgs (if (tget ({} : MsixEntry) v (hport p s).msix).pba && portUp p s then ⟨p, v⟩ :: s.host.msgs else s.host.msgs)
          (unmasked p v s) := by
  have hg : (unmasked p v s).host.msgs = s.host.msgs := by
    unfold unmasked; rw [modPort_frame]
  rw [msixUnmask_masked hv hm]
  split
  · next h => rw [if_pos (by simp [h.1, h.2]), hg]; rfl
  · next h => rw [if_neg (by simpa using h), ← hg]; rfl

theorem msix_unmasked (p v : Nat) (s : State) : (hport p (unmasked p v s)).msix
    = tmod {} v (fun x => { x with masked := false, pba := false }) (hport p s).msix :=
  congrArg HostPort.msix (hport_modPort_same _ _ _)

/-! ### ETH_TX_PRODUCE (R453) -/

/-- Frames handed to port `e`: the clock's record and the ports' frames may change, no ring and no other port does. -/
def OnlyTransmits (e : Nat) (s u : State) : Prop :=
  (eport e u).tx = (eport e s).tx ∧ (∀ j, j ≠ e → eport j u = eport j s)
    ∧ ∃ t tm, u = { s with host := { s.host with eth := t }, time := tm }

theorem OnlyTransmits.refl (e : Nat) (s : State) : OnlyTransmits e s s := ⟨rfl, fun _ _ => rfl, s.host.eth, s.time, rfl⟩

theorem OnlyTransmits.trans {e : Nat} {s u w : State} (h : OnlyTransmits e s u) (k : OnlyTransmits e u w) :
    OnlyTransmits e s w := by
  obtain ⟨htx, hoth, t, tm, rfl⟩ := h
  obtain ⟨htx', hoth', t', tm', rfl⟩ := k
  exact ⟨htx'.trans htx, fun j hj => (hoth' j hj).trans (hoth j hj), t', tm', rfl⟩

theorem onlyTransmits_modEth (e : Nat) (f : EthPort → EthPort) (s : State) (h : (f (eport e s)).tx = (eport e s).tx) :
    OnlyTransmits e s (modEth e f s) :=
  ⟨by rw [eport_modEth_same, h], fun _ hj => eport_modEth_ne f s hj, _, _, rfl⟩

theorem onlyTransmits_pushTxts (e : Nat) (x : TxEntry) (s : State) : OnlyTransmits e s (pushTxts e x s) :=
  onlyTransmits_modEth _ _ _ (by split <;> rfl)

theorem onlyTransmits_ethEmit (e : Nat) (f : EthFrame) (o : TxOwner) (s : State) : OnlyTransmits e s (ethEmit e f o s) := by
  have hsent := onlyTransmits_modEth e (fun p => { p with sent := (stamp (e / 2) s, f) :: p.sent }) s rfl
  cases o with
  | plain => exact hsent
  | loop n => exact hsent
  | agentReq q => exact hsent.trans ⟨rfl, fun _ _ => rfl, _, _, rfl⟩
  | stamped id => exact hsent.trans (onlyTransmits_pushTxts _ _ _)

theorem onlyTransmits_dropWaiting (e : Nat) (o : TxOwner) (s : State) : OnlyTransmits e s (dropWaiting e o s) := by
  unfold dropWaiting
  split
  · exact onlyTransmits_modEth _ _ _ rfl
  · exact OnlyTransmits.refl e s

theorem onlyTransmits_ethSend (e tc : Nat) (f : EthFrame) (o : TxOwner) (s : State) : OnlyTransmits e s (ethSend e tc f o s) := by
  unfold ethSend
  split
  · exact OnlyTransmits.refl e s
  · refine (onlyTransmits_dropWaiting e o s).trans ?_
    dsimp only
    split
    · exact onlyTransmits_ethEmit _ _ _ _
    · exact onlyTransmits_modEth _ _ _ rfl

theorem hostTx_disabled {e : Nat} {s : State} (h : (eport e s).tx.enable = false) (n : Nat) : hostTx e n s = s := by
  cases n with
  | zero => rfl
  | succ n =>
    unfold hostTx
    exact if_pos (.inl (by simp [h]))

/-- One descriptor is served: a frame is handed over and DONE moves by one. -/
theorem hostTx_next {e : Nat} {s : State} (n : Nat) (hen : (eport e s).tx.enable = true)
    (hne : (eport e s).tx.prod ≠ (eport e s).tx.done) (hc : carried (eport e s).tx.port s = true) :
    ∃ u, OnlyTransmits e s u ∧ hostTx e (n + 1) s
      = hostTx e n (modEth e (fun p => { p with tx := { p.tx with done := wrapAdd 16 p.tx.done 1 } }) u) := by
  rw [hostTx]
  dsimp only
  rw [if_neg (by simp [hen, hne]), if_neg (by simp [hc])]
  exact ⟨_, onlyTransmits_ethSend _ _ _ _ _, rfl⟩

/-- A ring whose port is carried is served up to PROD. -/
theorem hostTx_serves {e : Nat} (n : Nat) {s : State} (hn : n < 65536) (hen : (eport e s).tx.enable = true)
    (hc : carried (eport e s).tx.port s = true) (hdone : (eport e s).tx.done < 65536)
    (hprod : ((eport e s).tx.done + n) % 65536 = (eport e s).tx.prod) :
    (eport e (hostTx e n s)).tx = { (eport e s).tx with done := (eport e s).tx.prod }
      ∧ (hostTx e n s).host.mem = s.host.mem ∧ ∀ j, j ≠ e → eport j (hostTx e n s) = eport j s := by
  induction n generalizing s with
  | zero =>
    have hd : (eport e s).tx.done = (eport e s).tx.prod := by omega
    exact ⟨by rw [← hd]; rfl, rfl, fun _ _ => rfl⟩
  | succ n ih =>
    obtain ⟨u, ⟨htx, hoth, t, tm, hu⟩, heq⟩ := hostTx_next n hen (by omega) hc
    have htx' := congrArg EthPort.tx
      (eport_modEth_same e (fun p => { p with tx := { p.tx with done := wrapAdd 16 p.tx.done 1 } }) u)
    dsimp only at htx'
    rw [htx] at htx'
    rw [heq]
    generalize hw : modEth e (fun p => { p with tx := { p.tx with done := wrapAdd 16 p.tx.done 1 } }) u = w at htx' ⊢
    have hcar : ∀ q, carried q w = carried q s := fun q => by rw [← hw, hu]; rfl
    have hmem : w.host.mem = s.host.mem := by rw [← hw, hu]; rfl
    have hothers : ∀ j, j ≠ e → eport j w = eport j s := fun j hj => by
      rw [← hw, eport_modEth_ne _ _ hj, hoth j hj]
    obtain ⟨h1, h2, h3⟩ := ih (s := w) (by omega) (by rw [htx']; exact hen) (by rw [htx', hcar]; exact hc)
      (by rw [htx']; exact Nat.mod_lt _ (by decide))
      (by rw [htx']; show (wrapAdd 16 _ 1 + n) % 65536 = (eport e s).tx.prod; unfold wrapAdd; omega)
    refine ⟨by rw [h1, htx'], h2.trans hmem, fun j hj => (h3 j hj).trans (hothers j hj)⟩

/-- PROD has been written. -/
def produced (e prod : Nat) (s : State) : State := modEth e (fun p => { p with tx := { p.tx with prod := prod % 65536 } }) s

theorem eport_produced (e prod : Nat) (s : State) :
    eport e (produced e prod s) = { eport e s with tx := { (eport e s).tx with prod := prod % 65536 } } :=
  eport_modEth_same _ _ _

theorem ethTxProduce_blocked {e : Nat} {s : State} (prod : Nat) (h : offBlocked (0x000E030C + e * 0x4000) s = true) :
    ethTxProduce e prod s = s := if_pos h

theorem ethTxProduce_open {e : Nat} {s : State} (prod : Nat) (h : offBlocked (0x000E030C + e * 0x4000) s = false) :
    ethTxProduce e prod s = hostServe e (produced e prod s) := if_neg (by simp [h])

theorem hostServe_disabled {e : Nat} {s : State} (h : (eport e s).tx.enable = false) : hostServe e s = s := by
  unfold hostServe
  dsimp only
  rw [hostTx_disabled h, if_pos rfl]

/-- Serving an enabled ring that is carried: DONE reaches PROD, host memory and the other ports are as before. -/
theorem hostServe_serves {e : Nat} {s : State} (hen : (eport e s).tx.enable = true)
    (hc : carried (eport e s).tx.port s = true) (hdone : (eport e s).tx.done < 65536) (hprod : (eport e s).tx.prod < 65536) :
    (eport e (hostServe e s)).tx = { (eport e s).tx with done := (eport e s).tx.prod }
      ∧ (hostServe e s).host.mem = s.host.mem ∧ ∀ j, j ≠ e → eport j (hostServe e s) = eport j s := by
  have hserved := hostTx_serves (((eport e s).tx.prod + 65536 - (eport e s).tx.done) % 65536)
    (Nat.mod_lt _ (by decide)) hen hc hdone (by omega)
  unfold hostServe
  dsimp only
  generalize hostTx e (((eport e s).tx.prod + 65536 - (eport e s).tx.done) % 65536) s = w at hserved ⊢
  split
  · exact hserved
  · obtain ⟨_, _, _, hv⟩ := sendVec_eq (eport e w).tx.port (eport e w).tx.vector w
    rw [hv]
    exact hserved

end Sys2Proof.Machine

namespace Sys2Proof

open Sys2Proof.Machine

/-- Settles O58: each access is one equation of its operation; a transmit ring is served by induction on its descriptors. -/
theorem hostAccessesAreGuardedAndAnswered : Obligations.HostAccessesAreGuardedAndAnswered := by
  unfold Obligations.HostAccessesAreGuardedAndAnswered
  intro t p s0 hp s refused
  have hread : ∀ a, refused (refuse a false (.host p) s) false := fun a => by
    obtain ⟨⟨hv, hlp, hlw, hl, hd, -⟩, hr, hh⟩ := refuse_read p a s
    exact ⟨hv, hlp, hlw, hl, hd, fun _ => ⟨hr, hh⟩, fun h => absurd h (by decide)⟩
  have hwrite : ∀ a, refused (refuse a true (.host p) s) true := fun a => by
    obtain ⟨⟨hv, hlp, hlw, hl, hd, -⟩, ha, hr⟩ := refuse_write p a s
    exact ⟨hv, hlp, hlw, hl, hd, fun h => absurd h (by decide), fun _ => ⟨ha, hr⟩⟩
  refine ⟨fun hup off wr len ok => congrArg Host.Outcome.next (bar2Access_portDown hup off wr len ok),
    fun hup off len bs => ?_, fun who st h => congrArg Host.Outcome.next (readCompletion_idle who h),
    fun who st hst hup => ?_, fun who => ?_, fun v => ?_, fun e prod _ => ?_⟩
  · intro all
    refine ⟨⟨_, congrArg Host.Outcome.next (bar2Access_damaged hup off bs len), by rw [fsrc_latch_same], rfl⟩,
      fun h => ?_, fun h => ?_, fun a h => ⟨fun hg => ?_, fun hg => ⟨fun hgood => ?_, fun hbad => ?_⟩⟩,
      fun a h => ⟨fun hg => ?_, fun hg hne hin hc hpo _ => ?_⟩⟩
    · obtain ⟨a, ha⟩ := bar2Access_outside (wr := none) hup h
      exact ⟨_, congrArg Host.Outcome.next ha, hread a⟩
    · obtain ⟨a, ha⟩ := bar2Access_outside (wr := some bs) (len := len) hup h
      exact ⟨_, congrArg Host.Outcome.next ha, hwrite a⟩
    · obtain ⟨⟨-, -, -, -, -, ha⟩, -⟩ := refuse_read p a s
      exact ⟨_, congrArg Host.Outcome.next (bar2Access_guarded (wr := none) hup h hg), hread a, ha⟩
    · exact ⟨_, congrArg Host.Outcome.next ((bar2Access_read hup h hg).trans (hostRead_good hgood)), rfl, rfl⟩
    · exact ⟨_, congrArg Host.Outcome.next (bar2Access_read hup h hg), hostRead_bad hbad⟩
    · obtain ⟨⟨-, -, -, -, -, ha⟩, -⟩ := refuse_write p a s
      exact ⟨_, congrArg Host.Outcome.next (bar2Access_guarded (wr := some bs) (len := len) hup h hg), hwrite a, ha⟩
    · have heq : bar2Access p off (some bs) len true s = lineWrite a bs (a / 64 * 64) s := by
        rw [bar2Access_write hup h hg, linesOf_one (List.length_pos_iff.2 hne) hin]
        rfl
      exact ⟨_, congrArg Host.Outcome.next heq, lineWrite_spec hin hne hc hpo⟩
  · refine ⟨_, congrArg Host.Outcome.next (readCompletion_error who hst hup), failReads_latches _ _ (by simp) _, ?_⟩
    rintro i rfl
    rfl
  · refine ⟨_, rfl, failReads_latches _ _ (by simp) _, ?_⟩
    rintro i rfl
    rfl
  · intro e
    refine ⟨fun h => congrArg Host.Outcome.next (msixUnmask_idle h), fun hv hm => ?_⟩
    refine ⟨_, congrArg Host.Outcome.next (msixUnmask_sends hv hm), ?_, fun n hn => ?_, rfl, ?_, ?_⟩
    · exact (congrArg (tget {} v) (msix_unmasked p v s)).trans (tget_tmod_same _ _ _ _)
    · exact (congrArg (tget {} n) (msix_unmasked p v s)).trans (tget_tmod_ne _ _ _ hn)
    · exact hport_modPort_peer hp _ s
    · unfold withMsgs unmasked
      rw [modPort_frame]
  · intro x
    refine ⟨fun h => congrArg Host.Outcome.next (ethTxProduce_blocked prod h), fun h => ⟨fun hen => ?_, fun hen hc hd => ?_⟩⟩
    · have hoff : (eport e (produced e prod s)).tx.enable = false := by rw [eport_produced]; exact hen
      exact ⟨_, congrArg Host.Outcome.next ((ethTxProduce_open prod h).trans (hostServe_disabled hoff)),
        eport_produced e prod s, fun j hj => eport_modEth_ne _ s hj, rfl⟩
    · have htx : (eport e (produced e prod s)).tx = { x.tx with prod := prod % 65536 } :=
        congrArg EthPort.tx (eport_produced e prod s)
      obtain ⟨h1, h2, h3⟩ := hostServe_serves (e := e) (s := produced e prod s) (by rw [htx]; exact hen) (by rw [htx]; exact hc)
        (by rw [htx]; exact hd) (by rw [htx]; exact Nat.mod_lt _ (by decide))
      exact ⟨_, congrArg Host.Outcome.next (ethTxProduce_open prod h), h1.trans (by rw [htx]), h2,
        fun j hj => (h3 j hj).trans (eport_modEth_ne _ s hj)⟩

end Sys2Proof

/-! SUPPORT. The device reserve and its guard (R98, R315, R417, R419). -/

namespace Sys2Proof.Machine

/-! ### The reserve (R98, R315) -/

theorem deviceReserve_size : Config.deviceBytes - 0x2F7F800000 = 2 ^ 31 + 2 ^ 23 := by
  unfold Config.deviceBytes
  omega

theorem traceRing_eq (d : Nat) : Config.traceRing d = 0x2F80000000 - 0x400000 * (d + 1) := by
  unfold Config.traceRing Config.patternArea Config.deviceBytes
  omega

theorem patternArea_eq : Config.patternArea = 0x2F80000000 := by
  unfold Config.patternArea Config.deviceBytes
  omega

/-- The reserve is the pattern area with the two trace rings below it. -/
theorem deviceReserve_iff {a : Nat} : 0x2F7F800000 ≤ a ↔
    Config.patternArea ≤ a ∨ ∃ d, d < 2 ∧ Config.traceRing d ≤ a ∧ a < Config.traceRing d + 2 ^ 22 := by
  simp only [patternArea_eq, traceRing_eq]
  constructor
  · intro h
    by_cases h2 : 0x2F80000000 ≤ a
    · exact .inl h2
    · by_cases h1 : 0x2F7FC00000 ≤ a
      · exact .inr ⟨0, by omega⟩
      · exact .inr ⟨1, by omega⟩
  · rintro (h | ⟨d, hd, hlow, -⟩) <;> omega

/-! ### Its guard (R417, R419) -/

theorem inReserve_eq_true {a : Nat} (h : 0x2F7F800000 ≤ a) : inReserve a = true := decide_eq_true h

theorem reserveAgent_iff (w : Requester) : reserveAgent w = true ↔
    w = .scrub ∨ w = .fitter ∨ (∃ m, w = .refill m) ∨ (∃ d, w = .trace d) ∨ ∃ i, w = .island i := by
  cases w <;> simp [reserveAgent]

/-- A host never passes the reserve guard, and every other requester passes it as an agent of the reserve only (R417). -/
theorem guardPasses_reserve {a : Nat} (h : 0x2F7F800000 ≤ a) (wr sec : Bool) (w : Requester) (s : State) :
    guardPasses a wr sec w s = reserveAgent w := by
  unfold guardPasses
  rw [inReserve_eq_true h]
  cases w <;> rfl

/-- A refused host request leaves device memory and the channels alone (R419). -/
theorem refuse_host_ddr (p a : Nat) (wr : Bool) (s : State) : (refuse a wr (.host p) s).ddr = s.ddr := by
  cases wr with
  | false =>
    obtain ⟨⟨-, -, -, -, hddr, -⟩, -⟩ := refuse_read p a s
    exact hddr
  | true =>
    obtain ⟨⟨-, -, -, -, hddr, -⟩, -⟩ := refuse_write p a s
    exact hddr

theorem ddrEnter_refused {a : Nat} {data : Option (List (Nat × Byte))} {w : Requester} {sec : Bool} {s : State}
    (ha : a < Config.deviceBytes) (hg : guardPasses a data.isSome sec w s = false) :
    ddrEnter a data w sec s = refuse a data.isSome w s := by
  simp [ddrEnter, Nat.not_le.mpr ha, hg]

end Sys2Proof.Machine

namespace Sys2Proof

open Sys2Proof.Machine

/-- Settles O27: inside the reserve the guard is the list of its agents alone, in which no host stands. -/
theorem deviceReserveAdmitsFixedAgentsOnly : Obligations.DeviceReserveAdmitsFixedAgentsOnly := by
  refine And.intro deviceReserve_size (And.intro (fun _ _ => deviceReserve_iff) ?_)
  intro a w wr sec s hr ha
  rw [guardPasses_reserve hr]
  refine ⟨reserveAgent_iff w, ?_⟩
  rintro ⟨p, rfl⟩ t data
  refine ⟨_, rfl, ?_⟩
  rw [ddrEnter_refused ha (guardPasses_reserve hr ..), refuse_host_ddr, advanceTo_ddr]

end Sys2Proof

/-! SUPPORT. The entries of the glove array and the records of the lining banks (R61, R62). -/

namespace Sys2Proof.Machine

/-! ### Glove entries (R61) -/

/-- Only the fire counter of a glove's entry is a 64-bit register. -/
theorem wideVal_glove {g r : Nat} (s : State) (hg : g < 1344) (hr : r < 0x100) : wideVal (0x00400000 + g * 0x100 + r) s =
    if r = 0x10 then some (if ((mittenOfGlove g s).map (fun k => (mitten k s).secure)).getD false then 0 else (glove g s).fires)
    else none := by
  have hi : (0x00400000 + g * 0x100 + r - 0x00400000) / 0x100 = g := by omega
  have hm : (0x00400000 + g * 0x100 + r) % 0x100 = r := by omega
  simp (disch := omega) only [wideVal, wideReg, ethAt, wideRoHigh, if_neg, hi]
  by_cases h : r = 0x10
  · rw [if_pos ⟨by omega, by omega, by omega⟩, if_pos h]
  · rw [if_neg (fun hh => h (by omega)), if_neg h]

theorem readBlock_glove (port : Nat) {g r : Nat} (s : State) (hg : g < 1344) (hr : r < 0x100) :
    readBlock port (0x00400000 + g * 0x100 + r) s = readGlove g r s := by
  have hi : (0x00400000 + g * 0x100 + r - 0x00400000) / 0x100 = g := by omega
  have hm : (0x00400000 + g * 0x100 + r) % 0x100 = r := by omega
  simp (disch := omega) only [readBlock, if_neg, if_pos, hi, hm]

theorem gloveCode_lt (g : Nat) (s : State) : gloveCode g s < 8 := by
  unfold gloveCode
  repeat' split
  all_goals omega

section
variable {g m : Nat} {s : State} (hm : mittenOfGlove g s = some m) (hs : (mitten m s).secure = true)
include hm hs

/-- Of a glove in the secure world the non-secure world reads STATE, WORLD and MITTEN. -/
theorem readGlove_secure (r : Nat) :
    readGlove g r s = if r = 0 then gloveCode g s + 2 ^ 4 + m % 2 ^ 11 * 2 ^ 16 else 0 := by
  have hc : gloveCode g s % 2 ^ 3 = gloveCode g s := Nat.mod_eq_of_lt (gloveCode_lt g s)
  simp only [readGlove, hm, Option.map_some, Option.getD_some, hs, hideFor, if_true, fld, flg, b2n, hc]
  split <;> omega

theorem wideVal_glove_secure {r : Nat} (hg : g < 1344) (hr : r < 0x100) :
    wideVal (0x00400000 + g * 0x100 + r) s = if r = 0x10 then some 0 else none := by
  rw [wideVal_glove s hg hr, hm]
  simp [hs]

/-- Each further word of the entry reads 0, a half of the fire counter among them. -/
theorem read32_glove_secure (port : Nat) {r : Nat} (hg : g < 1344) (hr : r < 0x100) (h0 : r ≠ 0) (h4 : r % 4 = 0) :
    read32 port (0x00400000 + g * 0x100 + r) s = 0 := by
  have hsub : 0x00400000 + g * 0x100 + r - 4 = 0x00400000 + g * 0x100 + (r - 4) := by omega
  have hw := wideVal_glove_secure hm hs hg hr
  have hw4 := wideVal_glove_secure hm hs hg (r := r - 4) (by omega)
  unfold read32
  rw [if_neg (by omega), hsub, hw, hw4]
  by_cases hr10 : r = 0x10
  · rw [if_pos hr10]
    rfl
  · rw [if_neg hr10]
    by_cases hr14 : r - 4 = 0x10
    · rw [if_pos hr14]
      rfl
    · rw [if_neg hr14]
      exact (readBlock_glove port s hg hr).trans ((readGlove_secure hm hs r).trans (if_neg h0))

/-- A 64-bit access beyond the first register reads 0. -/
theorem read64_glove_secure (port : Nat) {r : Nat} (hg : g < 1344) (hr : r < 0x100) (h0 : r ≠ 0) (h8 : r % 8 = 0) :
    read64 port (0x00400000 + g * 0x100 + r) s = 0 := by
  unfold read64
  rw [wideVal_glove_secure hm hs hg hr]
  by_cases hr10 : r = 0x10
  · rw [if_pos hr10]
  · rw [if_neg hr10]
    have hlow := read32_glove_secure hm hs port hg hr h0 (by omega)
    have hhigh := read32_glove_secure hm hs port hg (r := r + 4) (by omega) (by omega) (by omega)
    show read32 port _ s + read32 port (0x00400000 + g * 0x100 + (r + 4)) s * 2 ^ 32 = 0
    rw [hlow, hhigh, Nat.zero_mul]

end

/-! ### Lining records (R62) -/

/-- The lining block holds no 64-bit register. -/
theorem wideVal_lining {b : Nat} (s : State) (hlo : 0x0045FFFC ≤ b) (hhi : b < 0x00464000) : wideVal b s = none := by
  simp (disch := omega) only [wideVal, wideReg, ethAt, wideRoHigh, if_neg]

theorem read32_lining (port : Nat) {k b r : Nat} (s : State) (hk : k < 4) (hb : b < 64) (hr : r < 0x40) :
    read32 port (0x00460000 + k * 0x1000 + b * 0x40 + r) s = readLining k b r s := by
  have hi : (0x00460000 + k * 0x1000 + b * 0x40 + r - 0x00460000) / 0x1000 = k := by omega
  have hj : (0x00460000 + k * 0x1000 + b * 0x40 + r) % 0x1000 / 0x40 = b := by omega
  have hm : (0x00460000 + k * 0x1000 + b * 0x40 + r) % 0x40 = r := by omega
  rw [read32_block port s (by omega) (wideVal_lining s (by omega) (by omega)) (wideVal_lining s (by omega) (by omega))]
  simp (disch := omega) only [readBlock, if_neg, if_pos, hi, hj, hm]

/-- A secure guard of the stack covers part of the bank, 32 units of 64 KiB (R48). -/
theorem bankSecure_iff (k b : Nat) (s : State) : bankSecure k b s = true ↔
    ∃ g ∈ s.sec.linGuards, g.stack = k ∧ g.base < (b + 1) * 32 ∧ b * 32 < g.base + g.size := by
  simp [bankSecure, linOf]

theorem flg_eq (n : Nat) (b : Bool) : flg n b = b2n b * 2 ^ n := by cases b <;> rfl

theorem b2n_le_one (b : Bool) : b2n b ≤ 1 := by cases b <;> decide

theorem b2n_beq_one (b : Bool) : (b2n b == 1) = b := by cases b <;> rfl

/-- The fields of LINING_BANK: the count, UE and SECURE. -/
theorem liningBank_fields (c : Nat) (ue sec : Bool) :
    let v := fld 0 16 c + flg 16 ue + flg 17 sec
    v % 2 ^ 16 = c % 2 ^ 16 ∧ bit v 16 = ue ∧ bit v 17 = sec ∧ v < 2 ^ 18 := by
  intro v
  have hv : v = c % 2 ^ 16 + b2n ue * 2 ^ 16 + b2n sec * 2 ^ 17 := by simp only [v, fld, flg_eq]; omega
  have hue := b2n_le_one ue
  have hsec := b2n_le_one sec
  have h16 : v / 2 ^ 16 % 2 = b2n ue := by omega
  have h17 : v / 2 ^ 17 % 2 = b2n sec := by omega
  refine ⟨by omega, ?_, ?_, by omega⟩
  · rw [bit, h16, b2n_beq_one]
  · rw [bit, h17, b2n_beq_one]

end Sys2Proof.Machine

namespace Sys2Proof

open Sys2Proof.Machine

/-- Settles O36: of the entry only the first word shows anything, and the fire counter reads 0 as a whole and by halves. -/
theorem secureGloveEntriesShowStateWorldAndMittenOnly : Obligations.SecureGloveEntriesShowStateWorldAndMittenOnly := by
  intro p g r m s hg hr h4 hm hs
  have h32 : (regRead p (0x00400000 + g * 0x100 + r) 32 s).1 = read32 p (0x00400000 + g * 0x100 + r) s := by
    unfold regRead
    rw [if_pos ⟨rfl, by omega⟩]
  refine ⟨?_, fun h0 => ?_, fun h0 h8 => ?_⟩
  · rintro rfl
    exact h32.trans ((read32_gloveState p g s hg).trans ((readGlove_secure hm hs 0).trans (if_pos rfl)))
  · rw [h32, read32_glove_secure hm hs p hg hr h0 h4]
  · unfold regRead
    rw [if_neg (by omega), if_pos ⟨rfl, by omega⟩]
    exact read64_glove_secure hm hs p hg hr h0 h8

/-- Settles O37: a word of the lining block is a word of one record, and a record has three fields and a stamp. -/
theorem liningRecordsOf48BanksAndNoMore : Obligations.LiningRecordsOf48BanksAndNoMore := by
  intro p k b r s hk hb hr h4 v x
  have hv : v = readLining k b r s := by
    show (regRead p _ 32 s).1 = _
    unfold regRead
    rw [if_pos ⟨rfl, by omega⟩]
    exact read32_lining p s hk hb hr
  have hlow : b < 48 → ¬ 48 ≤ b := Nat.not_le.mpr
  refine ⟨fun h => ?_, fun h h0 => ?_, fun h h8 => ?_, fun h h0 h8 => ?_⟩
  · rw [hv]
    exact if_pos h
  · have hval : v = fld 0 16 x.ce + flg 16 x.ue + flg 17 (bankSecure k b s) := by
      rw [hv]
      exact (if_neg (hlow h)).trans (if_pos h0)
    obtain ⟨hce, hue, hsec, hlt⟩ := liningBank_fields x.ce x.ue (bankSecure k b s)
    rw [← bankSecure_iff, hval]
    exact ⟨hce, hue, hlt, by rw [hsec]⟩
  · rw [hv]
    refine ((if_neg (hlow h)).trans ((if_neg (by omega)).trans (if_pos h8))).trans ?_
    simp [fld, x]
  · rw [hv]
    exact (if_neg (hlow h)).trans ((if_neg h0).trans (if_neg h8))

end Sys2Proof

/-! SUPPORT. Clock gates, lining scrubs, prefetch copies and the counters of gloves and banks (R50, R61, R62, R74, R167, R393). -/

namespace Sys2Proof.Machine

/-! ### Clock gates (R393) -/

theorem mittenWake_wakes {m : Nat} {s : State} (hg : (mitten m s).gated = true) (hr : fireReady m s = true)
    (hf : fireFree m (modMitten m (fun x => { x with gated := false }) s) = true) :
    mittenWake m s = modMitten m (fun x => { x with gated := false }) s :=
  if_pos ⟨hg, hr, hf⟩

theorem mittenWake_sleeps {m : Nat} {s : State} (h : (mitten m s).gated = false ∨ fireReady m s = false
    ∨ fireFree m (modMitten m (fun x => { x with gated := false }) s) = false) : mittenWake m s = s := by
  refine if_neg ?_
  rintro ⟨hg, hr, hf⟩
  rcases h with h | h | h
  · simp [hg] at h
  · simp [hr] at h
  · simp [hf] at h

theorem gloveGate_none {g : Nat} {s : State} (h : mittenWithGlove g s = none) : gloveGate g s = s := by
  unfold gloveGate
  rw [h]

theorem gloveGate_some {g k m : Nat} {s : State} (hk : mittenWithGlove g s = some k) (hm : leadOf k s = m) :
    gloveGate g s = if (mitten m s).firing.isNone ∧ (mitten m s).lastFire + s.crown.parkUs * 1000 ≤ s.time.now then
      modMitten m (fun x => { x with gated := true }) s else s := by
  subst hm
  unfold gloveGate
  rw [hk]

/-! ### Lining banks (R50, R62) -/

/-- A bank after a scrub read that found `err`; `st` is the stamp of a pass that ends with it. -/
def Bank.scrubbed (st err : Nat) (x : Bank) : Bank :=
  { x with
    pos := if x.pos + 1 < bankWords then x.pos + 1 else 0
    lastPass := if x.pos + 1 < bankWords then x.lastPass else st
    ce := if err = 1 then satAdd 16 x.ce 1 else x.ce
    ue := x.ue || decide (err = 2) }

theorem liningBank_modLining_same (k b : Nat) (f : Bank → Bank) (s : State) :
    liningBank k b (modLining k b f s) = f (liningBank k b s) := tget_tmod_same _ _ _ _

theorem banks_modLining_ne {k b j : Nat} (f : Bank → Bank) (s : State) (h : j ≠ k * 48 + b) :
    tget {} j (modLining k b f s).fab.banks = tget {} j s.fab.banks := tget_tmod_ne _ _ _ h

/-- Only what a function makes of the bank's own record counts. -/
theorem modLining_congr {k b : Nat} {f g : Bank → Bank} {s : State} (h : f (liningBank k b s) = g (liningBank k b s)) :
    modLining k b f s = modLining k b g s := by
  unfold modLining tmod
  rw [show f (tget {} (k * 48 + b) s.fab.banks) = g (tget {} (k * 48 + b) s.fab.banks) from h]

theorem ite_le_swap {α : Type} (n w : Nat) (x y : α) : (if decide (w ≤ n) = true then x else y) = if n < w then y else x := by
  rcases Nat.lt_or_ge n w with h | h
  · rw [if_pos h, if_neg (by simpa using h)]
  · rw [if_neg (Nat.not_lt.2 h), if_pos (decide_eq_true h)]

/-- The latch of a scrub read: the source of corrected or of uncorrectable errors of the stack, with the bank. -/
def scrubLatch (k b err : Nat) (s : State) : State :=
  if err = 1 then latch (srcStack k 2) b s else if err = 2 then latch (srcStack k 3) b s else s

theorem liningScrub_available {k b err : Nat} {s : State} (hk : k < 4) (hb : b < 48) (ha : stackAvail k s = true)
    (hd : fastDown s = false) :
    liningScrub k b err s = scrubLatch k b err (modLining k b (Bank.scrubbed (shortStamp (k / 2) s) err) s) := by
  have hgo : ¬ (4 ≤ k ∨ 48 ≤ b ∨ (!stackAvail k s) = true ∨ fastDown s = true) := by simp [ha, hd]; omega
  rw [liningScrub, if_neg hgo]
  exact congrArg (scrubLatch k b err) (modLining_congr (by simp only [Bank.scrubbed, ite_le_swap]))

theorem liningScrub_blocked {k b err : Nat} {s : State} (h : stackAvail k s = false ∨ fastDown s = true) :
    liningScrub k b err s = s := by
  refine if_pos ?_
  rcases h with h | h <;> simp [h]

/-- A scrub's latch touches one source at most. -/
theorem scrubLatch_spec (k b err : Nat) (s : State) :
    (err = 1 → (fsrc (srcStack k 2) (scrubLatch k b err s)).latched = true ∧ (fsrc (srcStack k 2) (scrubLatch k b err s)).detail = b
      ∧ ∀ j, j ≠ srcStack k 2 → fsrc j (scrubLatch k b err s) = fsrc j s)
    ∧ (err = 2 → (fsrc (srcStack k 3) (scrubLatch k b err s)).latched = true ∧ (fsrc (srcStack k 3) (scrubLatch k b err s)).detail = b
      ∧ ∀ j, j ≠ srcStack k 3 → fsrc j (scrubLatch k b err s) = fsrc j s)
    ∧ (err ≠ 1 → err ≠ 2 → (scrubLatch k b err s).fault = s.fault)
    ∧ scrubLatch k b err s = { s with fault := { s.fault with src := (scrubLatch k b err s).fault.src } } := by
  by_cases h1 : err = 1
  · subst h1
    exact ⟨fun _ => ⟨fsrc_latch_latched .., fsrc_latch_detail .., fun _ hj => fsrc_latch_ne _ _ hj⟩, fun h => absurd h (by decide),
      fun h => absurd rfl h, rfl⟩
  · by_cases h2 : err = 2
    · subst h2
      exact ⟨fun h => absurd h (by decide), fun _ => ⟨fsrc_latch_latched .., fsrc_latch_detail .., fun _ hj => fsrc_latch_ne _ _ hj⟩,
        fun _ h => absurd rfl h, rfl⟩
    · have hs : scrubLatch k b err s = s := (if_neg h1).trans (if_neg h2)
      rw [hs]
      exact ⟨fun h => absurd h h1, fun h => absurd h h2, fun _ _ => rfl, rfl⟩

theorem liningClr_clears {k b : Nat} (v : Nat) {s : State} (hk : k < 4) (hb : b < 48)
    (h : offBlocked (0x00460000 + k * 0x1000 + b * 0x40) s = false) :
    liningClr k b v s = modLining k b (fun x => { x with ce := if bit v 31 then 0 else x.ce, ue := x.ue && !bit v 16 }) s :=
  if_pos ⟨hk, hb, by rw [h]; rfl⟩

theorem liningClr_blocked {k b : Nat} (v : Nat) {s : State} (h : offBlocked (0x00460000 + k * 0x1000 + b * 0x40) s = true) :
    liningClr k b v s = s :=
  if_neg (by simp [h])

/-! ### Counters of a glove (R61, R74) -/

theorem gloveNumClr_clears {g v : Nat} {s : State} (hg : g < 1344) (hb : offBlocked (0x00400028 + g * 0x100) s = false)
    (hv : bit v 31 = true) : gloveNumClr g v s = modGlove g (fun x => { x with
      sat := if x.evAt = s.time.now then satU 16 x.evSat else 0
      nan := if x.evAt = s.time.now then satU 14 x.evNan else 0 }) s :=
  if_pos ⟨hv, hg, by rw [hb]; rfl⟩

theorem gloveNumClr_ignored {g v : Nat} {s : State} (h : bit v 31 = false ∨ offBlocked (0x00400028 + g * 0x100) s = true) :
    gloveNumClr g v s = s := by
  refine if_neg ?_
  rcases h with h | h <;> simp [h]

theorem palmClr_clears {g : Nat} (v : Nat) {s : State} (hg : g < 1344) (hb : offBlocked (0x00400008 + g * 0x100) s = false) :
    palmClr g v s = modGlove g (fun x => { x with ce := if bit v 31 then 0 else x.ce, ue := x.ue && !bit v 16 }) s :=
  if_pos ⟨hg, by rw [hb]; rfl⟩

theorem palmClr_blocked {g : Nat} (v : Nat) {s : State} (h : offBlocked (0x00400008 + g * 0x100) s = true) : palmClr g v s = s :=
  if_neg (by simp [h])

/-! ### Prefetch copies (R167) -/

theorem Image.op_id {im : Image} {id : Nat} {o : GOp} (h : im.op id = some o) : o.id = id := by
  obtain ⟨t, ht, rfl⟩ := Option.map_eq_some_iff.1 h
  show t.id = id
  simpa using List.find?_some ht

/-- The copies of a page are complete. -/
def SceneMem.copied (reader seq : Nat) (x : SceneMem) : SceneMem :=
  { x with prefetch := x.prefetch.map (fun c => if c.reader == reader && c.seq == seq then { c with ready := true } else c) }

/-- A unit of the reader's firing waited for a copy. -/
def SceneMem.countStall (stalled : Bool) (x : SceneMem) : SceneMem :=
  { x with pfStall := if stalled then satAdd 16 x.pfStall 1 else x.pfStall }

theorem mem_copied {reader seq : Nat} {x : SceneMem} {c : Prefetch} (h : c ∈ (x.copied reader seq).prefetch)
    (hr : c.reader = reader) (hs : c.seq = seq) : c.ready = true := by
  obtain ⟨d, -, rfl⟩ := List.mem_map.1 h
  split
  · rfl
  · next hne =>
    rw [if_neg hne] at hr hs
    simp [hr, hs] at hne

/-- A page whose copy was waited for is among the complete ones. -/
theorem copied_mem {reader seq : Nat} {x : SceneMem} (h : ∃ c ∈ x.prefetch, c.reader = reader ∧ c.seq = seq) :
    ∃ c ∈ (x.copied reader seq).prefetch, c.reader = reader ∧ c.seq = seq ∧ c.ready = true := by
  obtain ⟨c, hc, rfl, rfl⟩ := h
  exact ⟨{ c with ready := true }, List.mem_map.2 ⟨c, hc, by simp⟩, rfl, rfl, rfl⟩

/-- Copies of other readers are as they were. -/
theorem mem_copied_other {reader seq : Nat} {x : SceneMem} {c : Prefetch} (h : c.reader ≠ reader) :
    c ∈ (x.copied reader seq).prefetch ↔ c ∈ x.prefetch := by
  constructor
  · intro hc
    obtain ⟨d, hd, rfl⟩ := List.mem_map.1 hc
    split at h
    · next heq => exact absurd (by simpa using (Bool.and_eq_true_iff.1 heq).1) h
    · next hne => rwa [if_neg hne]
  · intro hc
    exact List.mem_map.2 ⟨c, hc, by simp [h]⟩

/-- A refill starts copies of pages that the reader has not taken, for that reader alone. -/
theorem mem_pfRefill {o : GOp} {busy : Bool} {x : SceneMem} {c : Prefetch} (h : c ∈ (pfRefill o busy x).prefetch) :
    c ∈ x.prefetch ∨ (c.reader = o.id ∧ (o.id, c.seq) ∉ x.taken) := by
  rcases List.mem_append.1 h with h | h
  · exact .inl h
  · obtain ⟨q, hq, rfl⟩ := List.mem_map.1 h
    have hq := (List.mem_filter.1 (List.mem_of_mem_take hq)).2
    simp only [Bool.and_eq_true, Bool.not_eq_true', List.contains_eq_mem, decide_eq_false_iff_not] at hq
    exact .inr ⟨rfl, hq.2⟩

/-- What the reader takes: its complete copies. -/
theorem mem_taken_pfTake {o : GOp} {x : SceneMem} {q : Nat × Nat} :
    q ∈ (pfTake o x).taken ↔ q ∈ x.taken ∨ ∃ c ∈ x.prefetch, c.reader = o.id ∧ c.ready = true ∧ q = (o.id, c.seq) := by
  simp only [pfTake, pfRefill, List.mem_append, List.mem_map, List.mem_filter, Bool.and_eq_true, beq_iff_eq]
  refine or_congr_right ⟨?_, ?_⟩
  · rintro ⟨c, ⟨hc, hr, hy⟩, rfl⟩
    exact ⟨c, hc, hr, hy, rfl⟩
  · rintro ⟨c, hc, hr, hy, rfl⟩
    exact ⟨c, ⟨hc, hr, hy⟩, rfl⟩

/-- A page that the reader has taken is not among its copies any more. -/
theorem taken_not_copied {o : GOp} {x : SceneMem} {seq : Nat} (hall : ∀ c ∈ x.prefetch, c.reader = o.id → c.seq = seq → c.ready = true)
    (ht : (o.id, seq) ∈ (pfTake o x).taken) {c : Prefetch} (hc : c ∈ (pfTake o x).prefetch) (hr : c.reader = o.id) : c.seq ≠ seq := by
  rintro rfl
  rcases mem_pfRefill hc with h | ⟨-, h⟩
  · obtain ⟨hm, hk⟩ := List.mem_filter.1 h
    simp [hr, hall c hm hr rfl] at hk
  · exact h ht

theorem mem_pfTake_other {o : GOp} {x : SceneMem} {c : Prefetch} (h : c.reader ≠ o.id) :
    c ∈ (pfTake o x).prefetch ↔ c ∈ x.prefetch := by
  constructor
  · intro hc
    rcases mem_pfRefill hc with h' | ⟨h', -⟩
    · exact (List.mem_filter.1 h').1
    · exact absurd h' h
  · intro hc
    exact List.mem_append_left _ (List.mem_filter.2 ⟨hc, by simp [h]⟩)

/-- The record of the copies once the firing that waited for one has taken it, and the stall is counted. -/
theorem pfTake_copied_spec {o : GOp} {reader seq : Nat} {x : SceneMem} (stalled : Bool) (hid : o.id = reader)
    (h : ∃ c ∈ x.prefetch, c.reader = reader ∧ c.seq = seq) :
    let y := pfTake o ((x.copied reader seq).countStall stalled)
    ((reader, seq) ∈ y.taken ∧ (∀ c ∈ y.prefetch, c.reader = reader → c.seq ≠ seq) ∧ (∀ q, q ∈ x.taken → q ∈ y.taken)
      ∧ y.pfStall = (if stalled = true then satAdd 16 x.pfStall 1 else x.pfStall)
      ∧ y = { x with prefetch := y.prefetch, taken := y.taken, pfStall := y.pfStall })
    ∧ ∀ c, c.reader ≠ reader → (c ∈ y.prefetch ↔ c ∈ x.prefetch) := by
  subst hid
  have ht : (o.id, seq) ∈ (pfTake o ((x.copied o.id seq).countStall stalled)).taken := by
    obtain ⟨c, hc, h1, rfl, h3⟩ := copied_mem h
    exact mem_taken_pfTake.2 (.inr ⟨c, hc, h1, h3, rfl⟩)
  exact ⟨⟨ht, fun c hc hr => taken_not_copied (fun d hd h1 h2 => mem_copied hd h1 h2) ht hc hr, fun q hq => mem_taken_pfTake.2 (.inl hq),
    rfl, rfl⟩, fun c hc => (mem_pfTake_other hc).trans (mem_copied_other hc)⟩

section
variable {n reader seq m : Nat} {stalled : Bool} {o : GOp} {s : State}
  (ho : (curImage s).op reader = some o) (hm : mittenOf reader s = some m)
include ho hm

theorem prefetchDone_unwanted (h : ¬ ∃ c ∈ (scene n s).prefetch, c.reader = reader ∧ c.seq = seq ∧ c.ready = false) :
    prefetchDone n reader seq stalled s = s := by
  unfold prefetchDone
  simp only [ho, hm]
  refine if_pos ?_
  simp only [Bool.not_eq_true', List.any_eq_false, Bool.and_eq_true, beq_iff_eq, not_and, and_imp]
  exact fun c hc h1 h2 h3 => h ⟨c, hc, h1, h2, h3⟩

/-- A copy waited for is marked; a reader in its firing takes it and counts the stall. -/
theorem prefetchDone_wanted (h : ∃ c ∈ (scene n s).prefetch, c.reader = reader ∧ c.seq = seq ∧ c.ready = false) :
    prefetchDone n reader seq stalled s = modScene n (fun y =>
      if (mitten m s).firing.isSome then pfTake o ((y.copied reader seq).countStall stalled) else y.copied reader seq) s := by
  obtain ⟨c, hc, h1, h2, h3⟩ := h
  unfold prefetchDone
  simp only [ho, hm]
  have hw : (scene n s).prefetch.any (fun c => c.reader == reader && c.seq == seq && !c.ready) = true :=
    List.any_eq_true.2 ⟨c, hc, by simp [h1, h2, h3]⟩
  rw [hw]
  cases hf : (mitten m s).firing.isSome <;> simp [SceneMem.copied, SceneMem.countStall]

end

end Sys2Proof.Machine

namespace Sys2Proof

open Sys2Proof.Machine

/-- Settles O35: each command is one equation of its operation once its guard is decided. -/
theorem clocksScrubsPrefetchesAndCountersOfTheFabric : Obligations.ClocksScrubsPrefetchesAndCountersOfTheFabric := by
  refine ⟨fun t m s0 => ?_, fun t k b err s0 hk hb => ?_, fun t g v s0 hg => ?_, fun t n reader seq m stalled o s0 => ?_⟩
  · intro s woken
    refine ⟨fun hg hr hf => ?_, fun h => congrArg Host.Outcome.next (mittenWake_sleeps h), fun g k hk hm hf hl => ?_,
      fun g k hk hm h => ?_, fun g h => congrArg Host.Outcome.next (gloveGate_none h)⟩
    · exact ⟨_, congrArg Host.Outcome.next (mittenWake_wakes hg hr hf), mitten_modMitten_same .., fun j hj => mitten_modMitten_ne _ _ hj, rfl⟩
    · have hgate := (gloveGate_some hk hm).trans (if_pos ⟨by rw [hf]; rfl, hl⟩)
      exact ⟨_, congrArg Host.Outcome.next hgate, mitten_modMitten_same .., fun j hj => mitten_modMitten_ne _ _ hj, rfl⟩
    · refine congrArg Host.Outcome.next ((gloveGate_some hk hm).trans (if_neg ?_))
      rintro ⟨hf, hl⟩
      rcases h with h | h
      · exact h (Option.isNone_iff_eq_none.1 hf)
      · omega
  · intro s x
    refine ⟨fun ha hd => ?_, fun h => congrArg Host.Outcome.next (liningScrub_blocked h), fun v h => ?_,
      fun v h => congrArg Host.Outcome.next (liningClr_blocked v h)⟩
    · obtain ⟨hce, hue, hclean, hframe⟩ := scrubLatch_spec k b err (modLining k b (Bank.scrubbed (shortStamp (k / 2) s) err) s)
      have hbank : (scrubLatch k b err (modLining k b (Bank.scrubbed (shortStamp (k / 2) s) err) s)).fab
          = (modLining k b (Bank.scrubbed (shortStamp (k / 2) s) err) s).fab := by rw [hframe]
      refine ⟨_, congrArg Host.Outcome.next (liningScrub_available hk hb ha hd), ?_, fun j hj => ?_, hce, hue, hclean, ?_⟩
      · have hx : tget {} (k * 48 + b) (modLining k b (Bank.scrubbed (shortStamp (k / 2) s) err) s).fab.banks
            = x.scrubbed (shortStamp (k / 2) s) err := liningBank_modLining_same ..
        rw [hbank, hx]
        exact ⟨rfl, rfl, rfl, rfl⟩
      · rw [hbank, banks_modLining_ne _ _ hj]
      · rw [hframe]
        rfl
    · exact ⟨_, congrArg Host.Outcome.next (liningClr_clears v hk hb h), liningBank_modLining_same .., fun j hj => banks_modLining_ne _ _ hj, rfl⟩
  · intro s
    refine ⟨fun hb hv => ?_, fun h => congrArg Host.Outcome.next (gloveNumClr_ignored h), fun hb => ?_,
      fun h => congrArg Host.Outcome.next (palmClr_blocked v h)⟩
    · exact ⟨_, congrArg Host.Outcome.next (gloveNumClr_clears hg hb hv), glove_modGlove_same .., fun j hj => glove_modGlove_ne _ _ hj, rfl⟩
    · exact ⟨_, congrArg Host.Outcome.next (palmClr_clears v hg hb), glove_modGlove_same .., fun j hj => glove_modGlove_ne _ _ hj, rfl⟩
  · intro s waits ho hm
    refine ⟨fun h => congrArg Host.Outcome.next (prefetchDone_unwanted ho hm h), fun h => ?_⟩
    refine ⟨_, congrArg Host.Outcome.next (prefetchDone_wanted ho hm h), ?_⟩
    rw [scene_modScene_same]
    cases hf : (mitten m s).firing with
    | none =>
      rw [Option.isSome_none, if_neg Bool.false_ne_true]
      exact ⟨fun _ => ⟨fun c hc hr hs => mem_copied hc hr hs, List.length_map .., rfl⟩, fun hne => absurd rfl hne,
        fun c hc => mem_copied_other hc, fun j hj => scene_modScene_ne _ _ hj, rfl⟩
    | some f =>
      obtain ⟨htaken, hother⟩ := pfTake_copied_spec stalled (Image.op_id ho) (x := scene n s) (by
        obtain ⟨c, hc, h1, h2, -⟩ := h
        exact ⟨c, hc, h1, h2⟩)
      rw [Option.isSome_some, if_pos rfl]
      exact ⟨fun hn => absurd hn (Option.some_ne_none f), fun _ => htaken, hother, fun j hj => scene_modScene_ne _ _ hj, rfl⟩

end Sys2Proof

/-! SUPPORT. Seam engines and pending values (R109 to R113): what a change of an engine leaves, and the fields of a write. -/

namespace Sys2Proof.Machine

/-! ### Engines -/

theorem engine_modEngine_same {e : Nat} (f : SeamEngine → SeamEngine) (s : State) (he : e < 4) :
    engine e (modEngine e f s) = f (engine e s) := by
  interval_cases e <;> rfl

theorem engine_modEngine_ne {e j : Nat} (f : SeamEngine → SeamEngine) (s : State) (he : e < 4) (hj : j < 4) (h : j ≠ e) :
    engine j (modEngine e f s) = engine j s := by
  interval_cases e <;> interval_cases j <;> first | rfl | exact absurd rfl h

@[simp] theorem modEngine_shadow (e : Nat) (f : SeamEngine → SeamEngine) (s : State) :
    (modEngine e f s).pat.shadow = s.pat.shadow := by
  unfold modEngine
  repeat' split
  all_goals rfl

theorem modEngine_frame (e : Nat) (f : SeamEngine → SeamEngine) (s : State) :
    modEngine e f s = { s with pat := (modEngine e f s).pat } := by
  unfold modEngine
  repeat' split
  all_goals rfl

/-- One of several seam commands in a write stands alone. -/
theorem manyBits_eq_false {v : Nat} (h : b2n (bit v 0) + b2n (bit v 1) + b2n (bit v 2) = 1) : manyBits v = false := by
  simp [manyBits, h]

/-! ### SEAM_CTRL (R110, R113) -/

/-- An engine after an ARM with a code: busy, refused or armed with its valid groups. -/
def SeamEngine.judged (c : Nat) (x : SeamEngine) : SeamEngine :=
  if c = 1 then { x with code := 1 }
  else if c ≠ 0 then { x with code := c, st := 4 }
  else { x with code := 0, st := 1, groups := selected x, left := selected x }

section
variable {e v : Nat} {s : State} (he : e < 4) (hb : offBlocked (0x00040108 + e * 0x100) s = false)
include he hb

theorem seamArm_many (h0 : bit v 0 = true) (h : bit v 1 = true ∨ bit v 2 = true) :
    seamArm e v s = latch 0x142 (0x00040108 + e * 0x100) s := by
  have hmany : manyBits v = true := by
    rcases h with h | h <;> simp only [manyBits, h0, h, b2n, if_true] <;> exact decide_eq_true (by omega)
  unfold seamArm
  rw [if_neg (by simp only [seamCtrlOff, h0, hb]; simp; omega), if_pos hmany]
  rfl

/-- An ARM alone leaves the engine as its code says. -/
theorem seamArm_alone (h0 : bit v 0 = true) (h1 : bit v 1 = false) (h2 : bit v 2 = false) :
    seamArm e v s = modEngine e (SeamEngine.judged (armCode e s)) s := by
  have hone : manyBits v = false := manyBits_eq_false (by rw [h0, h1, h2]; rfl)
  unfold seamArm
  rw [if_neg (by simp only [seamCtrlOff, h0, hb]; simp; omega), if_neg (by rw [hone]; simp)]
  dsimp only
  by_cases hc1 : armCode e s = 1
  · rw [if_pos hc1, hc1]
    rfl
  · rw [if_neg hc1]
    by_cases hc0 : armCode e s = 0
    · rw [if_neg (fun h => h hc0), hc0]
      rfl
    · rw [if_pos hc0]
      exact congrArg (modEngine e · s) (funext fun x => by rw [SeamEngine.judged, if_neg hc1, if_pos hc0])

theorem seamCancel_alone (h1 : bit v 1 = true) (h0 : bit v 0 = false) (h2 : bit v 2 = false) :
    seamCancel e v s = if (engine e s).st = 1 then modEngine e (fun x => { x with st := 5, groups := [], left := [] }) s else s := by
  have hone : manyBits v = false := manyBits_eq_false (by rw [h0, h1, h2]; rfl)
  unfold seamCancel
  rw [if_neg (by simp only [seamCtrlOff, h1, hb]; simp; omega), if_neg (by rw [hone]; simp)]

theorem seamDiscard_alone (h2 : bit v 2 = true) (h0 : bit v 0 = false) (h1 : bit v 1 = false) :
    seamDiscard e v s = if engBusy (engine e s) then s else (selected (engine e s)).foldl (fun a g => dropPending g a) s := by
  have hone : manyBits v = false := manyBits_eq_false (by rw [h0, h1, h2]; rfl)
  unfold seamDiscard
  rw [if_neg (by simp only [seamCtrlOff, h2, hb]; simp; omega), if_neg (by rw [hone]; simp)]

end

/-- Dropping the pending values of several groups keeps those of the others, and changes nothing else. -/
theorem foldl_dropPending (gs : List Nat) (s : State) : gs.foldl (fun a g => dropPending g a) s =
    { s with pat := { s.pat with shadow := s.pat.shadow.filter (fun p => decide (p.1 / 8 ∉ gs)) } } := by
  induction gs generalizing s with
  | nil => simp
  | cons g r ih =>
    rw [List.foldl_cons, ih]
    simp only [dropPending, modPat, List.filter_filter, List.mem_cons, not_or]
    have hf : s.pat.shadow.filter (fun p => decide (p.1 / 8 ∉ r) && decide (p.1 / 8 ≠ g))
        = s.pat.shadow.filter (fun p => decide (p.1 / 8 ≠ g ∧ p.1 / 8 ∉ r)) :=
      List.filter_congr fun p _ => by simp [Bool.and_comm]
    rw [hf]

/-! ### The code of an ARM (R110) -/

section
variable {e : Nat} {s : State}

theorem armCode_busy (h : engBusy (engine e s) = true) : armCode e s = 1 := if_pos h

theorem armCode_empty (hb : engBusy (engine e s) = false) (h : selected (engine e s) = []) : armCode e s = 6 := by
  simp [armCode, hb, h]

theorem armCode_unknown (hb : engBusy (engine e s) = false) (h : ∃ g ∈ selected (engine e s), groupKnown g = false) :
    armCode e s = 5 := by
  obtain ⟨g, hg, hk⟩ := h
  have hne : selected (engine e s) ≠ [] := List.ne_nil_of_mem hg
  have hany : (selected (engine e s)).any (fun g => !groupKnown g) = true := List.any_eq_true.2 ⟨g, hg, by rw [hk]; rfl⟩
  simp only [armCode, hb, Bool.false_eq_true, if_false, List.isEmpty_iff, hne, hany, if_true]

/-- With known groups listed, an idle engine's code is judged by overlap, kind and stamp. -/
theorem armCode_known (hb : engBusy (engine e s) = false) (hne : selected (engine e s) ≠ [])
    (hk : ∀ g ∈ selected (engine e s), groupKnown g = true) : armCode e s =
    if ∃ g ∈ selected (engine e s), groupArmed (fun i => i != e) g s = true ∨ groupPatched g s = true then 2
    else if (engine e s).stamp = 0 ∧ ∃ g ∈ selected (engine e s), groupGlobal g = true then 4
    else if (engine e s).stamp ≠ 0 ∧ (engine e s).stamp < stamp (liveDie 0 s) s + 100000 then 3
    else 0 := by
  have hany : (selected (engine e s)).any (fun g => !groupKnown g) = false :=
    List.any_eq_false.2 fun g hg => by simp [hk g hg]
  simp only [armCode, hb, Bool.false_eq_true, if_false, List.isEmpty_iff, hne, hany, List.any_eq_true, Bool.or_eq_true]

end

/-! ### RWS fields (R109, R113) -/

/-- Staging fields changes the shadow alone: a field takes its value, and a key without one keeps its own. -/
theorem foldl_stageField (fs : List RwsField) (s : State) : ∃ sh, fs.foldl (fun a f => stageField f a) s
      = { s with pat := { s.pat with shadow := sh } }
    ∧ ∀ k, (∀ f ∈ fs, f.1 ≠ k ∨ f.2 = none) → tget none k sh = tget none k s.pat.shadow := by
  induction fs generalizing s with
  | nil => exact ⟨s.pat.shadow, rfl, fun _ _ => rfl⟩
  | cons f r ih =>
    obtain ⟨sh, heq, hkeep⟩ := ih (stageField f s)
    obtain ⟨key, val⟩ := f
    cases val with
    | none => exact ⟨sh, heq, fun k hk => hkeep k fun g hg => hk g (List.mem_cons_of_mem _ hg)⟩
    | some v =>
      refine ⟨sh, heq, fun k hk => ?_⟩
      have hne : k ≠ key := fun h => by simpa [h] using hk (key, some v) List.mem_cons_self
      exact (hkeep k fun g hg => hk g (List.mem_cons_of_mem _ hg)).trans (tget_tset_ne none (some v) s.pat.shadow hne)

theorem stageField_some (k v : Nat) (s : State) :
    stageField (k, some v) s = { s with pat := { s.pat with shadow := tset none k (some v) s.pat.shadow } } := rfl

/-- Every busy engine that lists the group notes the write. -/
def noteArmed (g : Nat) (s : State) : State :=
  (List.range 4).foldl (fun a e =>
    if engBusy (engine e s) ∧ (engine e s).groups.contains g then modEngine e (fun x => { x with writeArmed := true }) a else a) s

theorem foldl_noteArmed {p : Nat → Prop} [DecidablePred p] (es : List Nat) (hes : ∀ e ∈ es, e < 4) (s : State) :
    let u := es.foldl (fun a e => if p e then modEngine e (fun x => { x with writeArmed := true }) a else a) s
    u = { s with pat := u.pat } ∧ u.pat.shadow = s.pat.shadow
    ∧ ∀ j, j < 4 → (engine j s).writeArmed = true ∨ (j ∈ es ∧ p j) → (engine j u).writeArmed = true := by
  induction es generalizing s with
  | nil => exact ⟨rfl, rfl, fun j _ h => h.elim id fun hh => absurd hh.1 List.not_mem_nil⟩
  | cons e r ih =>
    have he : e < 4 := hes e List.mem_cons_self
    have ih := ih fun j hj => hes j (List.mem_cons_of_mem _ hj)
    simp only [List.foldl_cons]
    by_cases hp : p e
    · simp only [if_pos hp]
      obtain ⟨hframe, hshadow, hnote⟩ := ih (modEngine e (fun x => { x with writeArmed := true }) s)
      refine ⟨by rw [hframe, modEngine_frame], by rw [hshadow, modEngine_shadow], fun j hj h => hnote j hj ?_⟩
      by_cases hje : j = e
      · subst hje
        exact .inl (by rw [engine_modEngine_same _ _ hj])
      · rw [engine_modEngine_ne _ _ he hj hje]
        exact h.imp_right fun ⟨hm, hq⟩ => ⟨(List.mem_cons.1 hm).resolve_left hje, hq⟩
    · simp only [if_neg hp]
      obtain ⟨hframe, hshadow, hnote⟩ := ih s
      refine ⟨hframe, hshadow, fun j hj h => hnote j hj (h.imp_right fun ⟨hm, hq⟩ => ⟨?_, hq⟩)⟩
      exact (List.mem_cons.1 hm).resolve_left fun hje => hp (hje ▸ hq)

theorem noteArmed_spec (g : Nat) (s : State) : noteArmed g s = { s with pat := (noteArmed g s).pat }
    ∧ (noteArmed g s).pat.shadow = s.pat.shadow
    ∧ ∀ e, e < 4 → engBusy (engine e s) = true → g ∈ (engine e s).groups → (engine e (noteArmed g s)).writeArmed = true := by
  obtain ⟨hframe, hshadow, hnote⟩ := foldl_noteArmed (p := fun e => engBusy (engine e s) ∧ (engine e s).groups.contains g)
    (List.range 4) (fun e he => List.mem_range.1 he) s
  refine ⟨hframe, hshadow, fun e he hb hg => hnote e he (.inr ⟨List.mem_range.2 he, hb, ?_⟩)⟩
  simpa using hg

theorem rwsWrite_armed {off v : Nat} {fs : List RwsField} {s : State} (hb : offBlocked off s = false)
    (hfs : rwsFields off v s = some fs) (hg : groupArmed (fun _ => true) (fieldsGroup fs) s = true) :
    rwsWrite off v s = strmCfgBits off v false true (latchWrite (offHalf off) off (noteArmed (fieldsGroup fs) s)) := by
  simp only [rwsWrite, hb, Bool.false_eq_true, if_false, hfs, hg, if_true]
  rfl

theorem rwsWrite_staged {off v : Nat} {fs : List RwsField} {s : State} (hb : offBlocked off s = false)
    (hfs : rwsFields off v s = some fs) (hg : groupArmed (fun _ => true) (fieldsGroup fs) s = false) :
    rwsWrite off v s = strmCfgBits off v (fs.all (fun f => f.2.isSome)) false (fs.foldl (fun a f => stageField f a) s) := by
  simp only [rwsWrite, hb, Bool.false_eq_true, if_false, hfs, hg]

/-! ### STRM_CFG (R219) -/

theorem strmCfgBits_other {off : Nat} (v : Nat) (a b : Bool) (s : State) (h : off < 0x00031000 ∨ 0x00035000 ≤ off) :
    strmCfgBits off v a b s = s := if_pos h

/-- The W1C bits of STRM_CFG. -/
def Strm.cfgCleared (v : Nat) (x : Strm) : Strm :=
  { x with cfgBusy := x.cfgBusy && !bit v 5, limitRej := x.limitRej && !bit v 6, consErr := x.consErr && !bit v 7 }

section
variable {n : Nat} (v : Nat) (s : State) (hn : n < 256)
include hn

theorem strmCfgBits_strm (a b : Bool) : strmCfgBits (0x00031000 + n * 0x40) v a b s =
    if a = true ∨ b = true then modStrm n (Strm.cfgCleared v) s
    else latch 0x142 (0x00031000 + n * 0x40) (modStrm n (fun x => { x with limitRej := true }) (modStrm n (Strm.cfgCleared v) s)) := by
  have hi : (0x00031000 + n * 0x40 - 0x00031000) / 0x40 = n := by omega
  unfold strmCfgBits
  rw [if_neg (by omega), hi]
  rfl

/-- The credit limit is the one RWS field of STRM_CFG. -/
theorem rwsFields_strm : rwsFields (0x00031000 + n * 0x40) v s = some [((0x100 + n) * 8,
    if bits v 25 16 = 0 ∨ 512 < bits v 25 16 ∨ ringSize (strm n s) < bits v 25 16 ∨ 16384 < limitSum n (bits v 25 16) s then none
    else some (bits v 25 16))] := by
  have hi : (0x00031000 + n * 0x40 - 0x00031000) / 0x40 = n := by omega
  unfold rwsFields
  rw [if_neg (by omega), if_pos (by omega), hi]

theorem offHalf_strm : offHalf (0x00031000 + n * 0x40) = 0 := by
  simp (disch := omega) only [offHalf, if_neg]

end

theorem fieldsGroup_limit (n : Nat) (x : Option Nat) : fieldsGroup [((0x100 + n) * 8, x)] = 0x100 + n := by
  simp [fieldsGroup]

end Sys2Proof.Machine

namespace Sys2Proof

open Sys2Proof.Machine

/-- Settles O38: an ARM leaves what its code says, and a write of RWS fields stages them or is noted by the engines. -/
theorem seamEnginesAreArmedCancelledAndFed : Obligations.SeamEnginesAreArmedCancelledAndFed := by
  refine ⟨fun t e v s0 he => ?_, fun t off v fs s0 => ?_, fun t n v s0 hn => ?_⟩
  · intro s x gs others hb
    have hothers : ∀ f, others (modEngine e f s) := fun f j hj h => engine_modEngine_ne f s he hj h
    refine ⟨fun h0 h1 h2 => ?_, fun h1 h0 h2 => ⟨fun hst => ?_, fun hst => ?_⟩, fun h2 h0 h1 => ⟨fun hbusy => ?_, fun hbusy => ?_⟩,
      fun h0 h => ?_⟩
    · refine ⟨_, congrArg Host.Outcome.next (seamArm_alone he hb h0 h1 h2), hothers _, modEngine_shadow .., modEngine_frame .., ?_⟩
      rw [engine_modEngine_same _ _ he]
      refine ⟨fun hbusy => ?_, fun hbusy hgs => ?_, fun hbusy hgs => ?_, fun hbusy hne hk => ?_⟩
      · rw [armCode_busy hbusy]
        rfl
      · rw [armCode_empty hbusy hgs]
        rfl
      · rw [armCode_unknown hbusy hgs]
        rfl
      · rw [armCode_known hbusy hne hk]
        refine ⟨fun hov => ?_, fun hov => ?_⟩
        · rw [if_pos hov]
          rfl
        · have hno : ¬ ∃ g ∈ gs, groupArmed (fun i => i != e) g s = true ∨ groupPatched g s = true := by
            rintro ⟨g, hg, h | h⟩
            · simp [(hov g hg).1] at h
            · simp [(hov g hg).2] at h
          rw [if_neg hno]
          refine ⟨fun hst hgl => ?_, fun hst hpast => ?_, fun h => ?_⟩
          · rw [if_pos ⟨hst, hgl⟩]
            rfl
          · rw [if_neg (fun hh => hst hh.1), if_pos ⟨hst, hpast⟩]
            rfl
          · have h4 : ¬ (x.stamp = 0 ∧ ∃ g ∈ gs, groupGlobal g = true) := by
              rintro ⟨hst, g, hg, hgl⟩
              rcases h with ⟨-, hall⟩ | h
              · simp [hall g hg] at hgl
              · omega
            have h3 : ¬ (x.stamp ≠ 0 ∧ x.stamp < stamp (liveDie 0 s) s + 100000) := by
              rintro ⟨hst, hpast⟩
              rcases h with ⟨h, -⟩ | h
              · exact hst h
              · omega
            rw [if_neg h4, if_neg h3]
            rfl
    · exact ⟨_, congrArg Host.Outcome.next ((seamCancel_alone he hb h1 h0 h2).trans (if_pos hst)), engine_modEngine_same _ _ he,
        hothers _, modEngine_shadow .., modEngine_frame ..⟩
    · exact congrArg Host.Outcome.next ((seamCancel_alone he hb h1 h0 h2).trans (if_neg hst))
    · have heq := (seamDiscard_alone he hb h2 h0 h1).trans ((if_neg (by simp [x, hbusy])).trans (foldl_dropPending gs s))
      exact ⟨_, congrArg Host.Outcome.next heq, rfl, rfl⟩
    · exact congrArg Host.Outcome.next ((seamDiscard_alone he hb h2 h0 h1).trans (if_pos hbusy))
    · exact ⟨_, congrArg Host.Outcome.next (seamArm_many he hb h0 h), fsrc_latch_latched .., fsrc_latch_detail .., rfl⟩
  · intro s g hb hfs hoff
    refine ⟨fun hg => ?_, fun hg => ?_⟩
    · have heq := (rwsWrite_staged hb hfs hg).trans (strmCfgBits_other _ _ _ _ hoff)
      obtain ⟨sh, hsh, hkeep⟩ := foldl_stageField fs s
      refine ⟨_, congrArg Host.Outcome.next (heq.trans hsh), ?_, hkeep, rfl⟩
      rintro k w rfl
      rw [← hsh]
      exact tget_tset_same none k (some w) s.pat.shadow
    · obtain ⟨hframe, hshadow, hnote⟩ := noteArmed_spec g s
      have heq := (rwsWrite_armed hb hfs hg).trans (strmCfgBits_other _ _ _ _ hoff)
      refine ⟨_, congrArg Host.Outcome.next heq, hshadow, fsrc_latch_latched .., fsrc_latch_detail .., hnote, ?_⟩
      show latch _ _ (noteArmed g s) = _
      rw [hframe]
      rfl
  · intro s off l key bad hb
    have hgroup := fieldsGroup_limit n (if bad then none else some l)
    have hfs := rwsFields_strm v s hn
    cases hg : groupArmed (fun _ => true) (0x100 + n) s with
    | true =>
      obtain ⟨hframe, hshadow, -⟩ := noteArmed_spec (0x100 + n) s
      have heq := rwsWrite_armed hb hfs (by rw [hgroup]; exact hg)
      rw [hgroup, strmCfgBits_strm _ _ hn, if_pos (.inr rfl), offHalf_strm hn] at heq
      have hstrm : ∀ j, strm j (latchWrite 0 off (noteArmed (0x100 + n) s)) = strm j s := fun j => by
        show strm j (noteArmed (0x100 + n) s) = _
        rw [hframe]
        rfl
      refine ⟨_, congrArg Host.Outcome.next heq, ?_, ?_, ?_, fun _ => hshadow, fun h => absurd h (by simp), fun j hj => ?_, ?_⟩
      · rw [strm_modStrm_same, hstrm]
        rfl
      · rw [strm_modStrm_same, hstrm]
        rfl
      · rw [strm_modStrm_same, hstrm]
        rfl
      · rw [strm_modStrm_ne _ _ hj, hstrm]
      · show modStrm n _ (latchWrite 0 off (noteArmed (0x100 + n) s)) = _
        rw [hframe]
        rfl
    | false =>
      have heq := rwsWrite_staged hb hfs (by rw [hgroup]; exact hg)
      rw [strmCfgBits_strm _ _ hn] at heq
      by_cases hbad : bad
      · have hval : (if bad then none else some l) = none := if_pos hbad
        simp only [bad, l] at hval
        rw [hval] at heq
        refine ⟨_, congrArg Host.Outcome.next (heq.trans (if_neg (by simp))), ?_, ?_, ?_, fun h => absurd h (by simp), fun _ =>
          ⟨fun h => absurd hbad h, fun _ => ⟨rfl, ?_, fsrc_latch_latched .., fsrc_latch_detail ..⟩⟩, fun j hj => ?_, rfl⟩
        · simp only [strm_latch, strm_modStrm_same]
          rfl
        · simp only [strm_latch, strm_modStrm_same]
          rfl
        · simp only [strm_latch, strm_modStrm_same]
          rfl
        · simp only [strm_latch, strm_modStrm_same]
        · simp only [strm_latch, strm_modStrm_ne _ _ hj]
          rfl
      · have hval : (if bad then none else some l) = some l := if_neg hbad
        simp only [bad, l] at hval
        rw [hval] at heq
        refine ⟨_, congrArg Host.Outcome.next (heq.trans (if_pos (.inl rfl))), ?_, ?_, ?_, fun h => absurd h (by simp), fun _ =>
          ⟨fun _ => ⟨tget_tset_same none key (some l) s.pat.shadow, fun k hk => tget_tset_ne none (some l) s.pat.shadow hk, ?_, rfl⟩, fun h => absurd h hbad⟩, fun j hj => ?_, rfl⟩
        · rw [strm_modStrm_same]
          rfl
        · rw [strm_modStrm_same]
          rfl
        · rw [strm_modStrm_same]
          rfl
        · rw [strm_modStrm_same]
          rfl
        · rw [strm_modStrm_ne _ _ hj]
          rfl

end Sys2Proof

/-! SUPPORT. Block seams, global seams and the withdrawal of work items (R108, R111, R112). -/

namespace Sys2Proof.Machine

/-! ### Switching a group (R109) -/

theorem applyField_pat (key v : Nat) (s : State) : (applyField key v s).pat = s.pat := by
  unfold applyField
  dsimp only
  repeat' split
  all_goals rfl

theorem applyField_fab (key v : Nat) (s : State) : (applyField key v s).fab = s.fab := by
  unfold applyField
  dsimp only
  repeat' split
  all_goals rfl

/-- One pending value takes effect. -/
def applyPending (s : State) (e : Nat × Option Nat) : State :=
  match e.2 with
  | none => s
  | some v => applyField e.1 v s

theorem switchGroup_eq (g : Nat) (s : State) : switchGroup g s
    = dropPending g ((s.pat.shadow.filter (fun e => decide (e.1 / 8 = g))).foldl applyPending s) := rfl

/-- Pending values that take effect leave the PATTERN block and the fabric as they are. -/
theorem foldl_applyPending_kept (ps : List (Nat × Option Nat)) (s : State) :
    (ps.foldl applyPending s).pat = s.pat ∧ (ps.foldl applyPending s).fab = s.fab := by
  induction ps generalizing s with
  | nil => exact ⟨rfl, rfl⟩
  | cons e r ih =>
    obtain ⟨k, x⟩ := e
    cases x with
    | none => exact ih s
    | some v =>
      obtain ⟨hpat, hfab⟩ := ih (applyField k v s)
      exact ⟨hpat.trans (applyField_pat k v s), hfab.trans (applyField_fab k v s)⟩

theorem switchGroup_pat (g : Nat) (s : State) :
    (switchGroup g s).pat = { s.pat with shadow := s.pat.shadow.filter (fun p => decide (p.1 / 8 ≠ g)) } := by
  obtain ⟨hpat, -⟩ := foldl_applyPending_kept (s.pat.shadow.filter (fun e => decide (e.1 / 8 = g))) s
  rw [switchGroup_eq, dropPending, modPat_pat, hpat]

theorem switchGroup_fab (g : Nat) (s : State) : (switchGroup g s).fab = s.fab :=
  (foldl_applyPending_kept (s.pat.shadow.filter (fun e => decide (e.1 / 8 = g))) s).2

theorem engine_of_pat {s u : State} (e : Nat) (h : ∃ sh, u.pat = { s.pat with shadow := sh }) : engine e u = engine e s := by
  obtain ⟨sh, h⟩ := h
  unfold engine
  rw [h]

theorem engine_of_seamEnd (e n : Nat) (s : State) : engine e (modPat (fun p => { p with seamEnd := n }) s) = engine e s := rfl

theorem engine_switchGroup (e g : Nat) (s : State) : engine e (switchGroup g s) = engine e s :=
  engine_of_pat e ⟨_, switchGroup_pat g s⟩

/-- Switching several groups takes their pending values and leaves the fabric alone. -/
theorem foldl_switchGroup (gs : List Nat) (s : State) :
    (gs.foldl (fun a g => switchGroup g a) s).pat
      = { s.pat with shadow := s.pat.shadow.filter (fun p => decide (p.1 / 8 ∉ gs)) }
    ∧ (gs.foldl (fun a g => switchGroup g a) s).fab = s.fab := by
  induction gs generalizing s with
  | nil => simp
  | cons g r ih =>
    obtain ⟨hpat, hfab⟩ := ih (switchGroup g s)
    refine ⟨?_, hfab.trans (switchGroup_fab g s)⟩
    have hf : (s.pat.shadow.filter (fun p => decide (p.1 / 8 ≠ g))).filter (fun p => decide (p.1 / 8 ∉ r))
        = s.pat.shadow.filter (fun p => decide (p.1 / 8 ∉ g :: r)) := by
      rw [List.filter_filter]
      exact List.filter_congr fun p _ => by simp [Bool.and_comm]
    rw [List.foldl_cons, hpat, switchGroup_pat]
    simp only [hf]

/-- A loop group with one pending value takes its staleness limit. -/
theorem lslot_switchGroup {n w : Nat} {s : State} (hn : n < 16) (h : s.pat.shadow = [((0x020 + n) * 8, some w)]) :
    lslot n (switchGroup (0x020 + n) s) = { lslot n s with spStaleUs := w * 1000 } := by
  have hk : (0x020 + n) * 8 / 8 = 0x020 + n := by omega
  have hfield : applyField ((0x020 + n) * 8) w s = modLoop n (fun x => { x with spStaleUs := w * 1000 }) s := by
    unfold applyField
    simp (disch := omega) only [hk, if_neg, if_pos, Nat.add_sub_cancel_left]
  have hsw : switchGroup (0x020 + n) s = dropPending (0x020 + n) (applyField ((0x020 + n) * 8) w s) := by
    rw [switchGroup_eq, h]
    simp [hk, applyPending]
  rw [hsw, hfield]
  show lslot n (modLoop n _ s) = _
  rw [lslot_modLoop, if_pos rfl]

/-! ### Block seams (R111) -/

theorem traceSwitch_pat (e : Nat) (s : State) : (traceSwitch e s).pat = s.pat := by
  obtain ⟨m, a, b, h⟩ := traceEv_eq 0 0xE1 0x30 (e % 4) s
  rw [traceSwitch, h]

theorem traceSwitch_fab (e : Nat) (s : State) : (traceSwitch e s).fab = s.fab := by
  obtain ⟨m, a, b, h⟩ := traceEv_eq 0 0xE1 0x30 (e % 4) s
  rw [traceSwitch, h]

theorem engine_traceSwitch (j e : Nat) (s : State) : engine j (traceSwitch e s) = engine j s := by
  unfold engine
  rw [traceSwitch_pat]

theorem blockSeam_stays {e g : Nat} {s : State}
    (h : groupWorks g s = true ∨ groupIsolated g s = true ∨ (engine e s).left.contains g = false) : blockSeam e g s = s := by
  refine if_pos ?_
  rcases h with h | h | h
  · simp [h]
  · simp [h]
  · exact .inr (.inr (.inr (.inl (by rw [h]; rfl))))

/-- A block that may take its seam does, and its engine is done when no group is left. -/
theorem blockSeam_takes {e g : Nat} {s : State} (he : e < 4) (hst : (engine e s).st = 1) (hz : (engine e s).stamp = 0)
    (hl : (engine e s).left.contains g = true) (hw : groupWorks g s = false) (hi : groupIsolated g s = false) :
    blockSeam e g s = finishBlocks e (switchGroup g (modEngine e (fun y => { y with left := y.left.filter (· != g) }) s)) := by
  refine if_neg ?_
  simp only [hst, hz, hl, hw, hi]
  simp
  omega

/-- An engine with groups left goes on; one with none is DONE. -/
theorem finishBlocks_engine {e : Nat} (s : State) (he : e < 4) :
    (engine e (finishBlocks e s)).left = (engine e s).left
    ∧ ((engine e s).left ≠ [] → (engine e (finishBlocks e s)).st = (engine e s).st)
    ∧ ((engine e s).left = [] → (engine e (finishBlocks e s)).st = 3)
    ∧ (∀ j, j < 4 → j ≠ e → engine j (finishBlocks e s) = engine j s)
    ∧ (finishBlocks e s).pat.shadow = s.pat.shadow
    ∧ ∀ n, lslot n (finishBlocks e s) = lslot n s := by
  unfold finishBlocks
  by_cases h : (engine e s).left = []
  · rw [if_pos (by rw [h]; rfl)]
    refine ⟨?_, fun hne => absurd h hne, fun _ => ?_, fun j hj hje => ?_, ?_, fun n => ?_⟩
    · rw [engine_traceSwitch, engine_modEngine_same _ _ he]
    · rw [engine_traceSwitch, engine_modEngine_same _ _ he]
    · rw [engine_traceSwitch, engine_modEngine_ne _ _ he hj hje]
    · rw [traceSwitch_pat, modEngine_shadow]
    · rw [traceSwitch, lslot_traceEv, modEngine_frame]
      rfl
  · rw [if_neg (by simpa using h)]
    exact ⟨rfl, fun _ => rfl, fun hh => absurd hh h, fun _ _ _ => rfl, rfl, fun _ => rfl⟩

/-! ### Global seams (R112) -/

theorem foldl_drainDie (ks : List Nat) (s : State) :
    ∃ ds, ks.foldl (fun a k => drainDie k a) s = { s with fab := { s.fab with draining := ds } } := by
  induction ks generalizing s with
  | nil => exact ⟨s.fab.draining, rfl⟩
  | cons k r ih =>
    obtain ⟨ds, h⟩ := ih (drainDie k s)
    refine ⟨ds, ?_⟩
    rw [List.foldl_cons, h]
    unfold drainDie
    split <;> rfl

theorem globalStamp_waits {e : Nat} {s : State} (h : stamp (liveDie 0 s) s < (engine e s).stamp) : globalStamp e s = s :=
  if_pos (.inr (.inr (.inr h)))

theorem globalStamp_takes {e : Nat} {s : State} (he : e < 4) (hst : (engine e s).st = 1) (hz : (engine e s).stamp ≠ 0)
    (h : (engine e s).stamp ≤ stamp (liveDie 0 s) s) : globalStamp e s = drainGroups (engine e s).groups
      (modEngine e (fun y => { y with st := 2, takingAt := s.time.now, withdrawn := 0 }) s) := by
  refine if_neg ?_
  rintro (h4 | h4 | h4 | h4)
  · omega
  · exact h4 hst
  · exact hz h4
  · omega

theorem takingSeam_taking {e : Nat} {s : State} (he : e < 4) (hst : (engine e s).st = 2) :
    takingSeam e s = some ((engine e s).groups, (engine e s).takingAt, (engine e s).limitUs) :=
  (if_pos he).trans (if_pos hst)

theorem takingSeam_none {e : Nat} {s : State} (he : e < 4) (hst : (engine e s).st ≠ 2) : takingSeam e s = none :=
  (if_pos he).trans (if_neg hst)

/-- Voiding a firing ends it and leaves the PATTERN block alone. -/
theorem voidFiring_ends (free : Bool) (m cause part quad detail : Nat) (s : State) :
    (mitten m (voidFiring free m cause part quad detail s)).firing = none
    ∧ (voidFiring free m cause part quad detail s).pat = s.pat := by
  obtain ⟨-, -, ks, l, w, hv⟩ := voidWhere_spec
    (fun k => (firingTags m s).any (fun g => g.stream == k.stream && g.seq == k.seq)) cause part quad detail s
  have hv : voidTags (firingTags m s) cause part quad detail s = _ := hv
  unfold voidFiring abandonFiring
  cases hf : (mitten m (voidTags (firingTags m s) cause part quad detail s)).firing with
  | none => exact ⟨hf, by rw [hv]⟩
  | some f =>
    cases free with
    | false => exact ⟨by simp, by rw [hv]; rfl⟩
    | true =>
      obtain ⟨es, he⟩ := freeFiring_eq f
        (modMitten m (fun x => { x with firing := none }) (voidTags (firingTags m s) cause part quad detail s))
      simp only [if_true, he]
      refine ⟨?_, by rw [hv]; rfl⟩
      exact congrArg Mitten.firing (mitten_modMitten_same m (fun x => { x with firing := none })
        (voidTags (firingTags m s) cause part quad detail s))

/-- One mitten's firing is withdrawn with a count of 1. -/
theorem withdrawGroups_mitten {m detail : Nat} {s : State} (hm : leadOf m s = m) (hf : (mitten m s).firing.isSome = true) :
    withdrawGroups detail [0x400 + m] s = (voidFiring true m 3 0xFF 0xFFFF detail s, 1) := by
  have hg : withdrawGroup (0x400 + m) detail s = (voidFiring true m 3 0xFF 0xFFFF detail s, 1) := by
    simp only [withdrawGroup, Nat.add_sub_cancel_left, hm, hf, if_true, if_pos (Nat.le_add_right 0x400 m)]
  simp only [withdrawGroups, hg]

theorem wholeMicro_spec {s : State} {a : Nat} (h : wholeMicro s = some a) :
    a % 1000 = 0 ∧ a ≤ stamp (liveDie 0 s) s := by
  obtain ⟨-, h⟩ := Option.ite_none_right_eq_some.1 h
  obtain rfl := Option.some.inj h
  omega

section
variable {e : Nat} {s : State} (he : e < 4)
include he

theorem seamExpire_early (hst : (engine e s).st = 2)
    (h : s.time.now < (engine e s).takingAt + clampLimit (engine e s).limitUs * 1000) : seamExpire e s = s := by
  simp only [seamExpire, takingSeam_taking he hst, if_pos h]

theorem seamExpire_due (hst : (engine e s).st = 2)
    (h : (engine e s).takingAt + clampLimit (engine e s).limitUs * 1000 ≤ s.time.now) :
    seamExpire e s = noteWithdrawn e (withdrawGroups e (engine e s).groups s).2 (withdrawGroups e (engine e s).groups s).1 := by
  simp only [seamExpire, takingSeam_taking he hst, if_neg (Nat.not_lt.2 h)]

theorem seamExpire_idle (hst : (engine e s).st ≠ 2) : seamExpire e s = s := by
  simp only [seamExpire, takingSeam_none he hst]

theorem globalSwitch_idle (hst : (engine e s).st ≠ 2) : globalSwitch e s = s := by
  simp only [globalSwitch, takingSeam_none he hst]

theorem globalSwitch_waits (hst : (engine e s).st = 2)
    (h : (∃ g ∈ (engine e s).groups, groupWorks g s = true) ∨ wholeMicro s = none) : globalSwitch e s = s := by
  unfold globalSwitch
  rw [takingSeam_taking he hst]
  cases hw : wholeMicro s with
  | none => rfl
  | some a =>
    obtain ⟨g, hg, hgw⟩ := h.resolve_right (by simp [hw])
    exact if_pos (List.any_eq_true.2 ⟨g, hg, hgw⟩)

theorem globalSwitch_switches (hst : (engine e s).st = 2) (h : ∀ g ∈ (engine e s).groups, groupWorks g s = false) {a : Nat}
    (ha : wholeMicro s = some a) : globalSwitch e s = traceSwitch e (modPat (fun p => { p with seamEnd := s.time.now })
      (modEngine e (fun x => { x with st := 3, done := a, groups := [], left := [] })
        ((engine e s).groups.foldl (fun b g => switchGroup g b) s))) := by
  unfold globalSwitch
  rw [takingSeam_taking he hst, ha]
  exact (if_neg (by simpa using h)).trans (if_pos he)

end

end Sys2Proof.Machine

namespace Sys2Proof

open Sys2Proof.Machine

/-- Settles O39: each command is one equation of its operation, and a switch drops the pending values of its groups. -/
theorem blockSeamsAndGlobalSeamsSwitchTheirGroups : Obligations.BlockSeamsAndGlobalSeamsSwitchTheirGroups := by
  intro t e s0 he s x
  refine ⟨fun g hst hz hl hw hi => ?_, fun g h => congrArg Host.Outcome.next (blockSeam_stays h), fun hst hz => ⟨fun h => ?_, fun h => ?_⟩,
    fun hst => ⟨fun m hgs hm hf h => ?_, fun h => ?_, fun a h ha => ?_, fun h => ?_⟩, fun hst => ⟨?_, ?_⟩⟩
  · obtain ⟨hleft, hon, hdone, hothers, hshadow, hslot⟩ := finishBlocks_engine
      (switchGroup g (modEngine e (fun y => { y with left := y.left.filter (· != g) }) s)) he
    have heng : engine e (switchGroup g (modEngine e (fun y => { y with left := y.left.filter (· != g) }) s))
        = { x with left := x.left.filter (· != g) } := by
      rw [engine_switchGroup, engine_modEngine_same _ _ he]
    rw [heng] at hleft hon hdone
    have hsh : (finishBlocks e (switchGroup g (modEngine e (fun y => { y with left := y.left.filter (· != g) }) s))).pat.shadow
        = s.pat.shadow.filter (fun p => decide (p.1 / 8 ≠ g)) := by
      rw [hshadow, switchGroup_pat]
      simp only [modEngine_shadow]
    refine ⟨_, congrArg Host.Outcome.next (blockSeam_takes he hst hz hl hw hi), hleft, ?_, ?_, ?_, ?_, fun j hj hje => ?_, ?_⟩
    · rw [hsh]
      exact fun p hp => by simpa using (List.mem_filter.1 hp).2
    · rw [hsh]
      exact fun p hp hg => List.mem_filter.2 ⟨hp, by simpa using hg⟩
    · rintro ⟨j, hj, hjg⟩
      have hne : x.left.filter (· != g) ≠ [] := List.ne_nil_of_mem (List.mem_filter.2 ⟨hj, by simpa using hjg⟩)
      exact (hon hne).trans hst
    · exact fun hall => hdone (List.filter_eq_nil_iff.2 fun j hj => by simp [hall j hj])
    · rw [hothers j hj hje, engine_switchGroup, engine_modEngine_ne _ _ he hj hje]
    · rintro n w rfl hn hone
      rw [hslot, lslot_switchGroup hn (by rw [modEngine_shadow]; exact hone), modEngine_frame]
      rfl
  · obtain ⟨ds, hds⟩ := foldl_drainDie (x.groups.filter (· < 4))
      (modEngine e (fun y => { y with st := 2, takingAt := s.time.now, withdrawn := 0 }) s)
    have hframe := modEngine_frame e (fun y => { y with st := 2, takingAt := s.time.now, withdrawn := 0 }) s
    refine ⟨_, congrArg Host.Outcome.next ((globalStamp_takes he hst hz h).trans hds), ?_, modEngine_shadow .., fun j hj hje => ?_, ?_⟩
    · exact engine_modEngine_same (fun y => { y with st := 2, takingAt := s.time.now, withdrawn := 0 }) s he
    · exact engine_modEngine_ne (fun y => { y with st := 2, takingAt := s.time.now, withdrawn := 0 }) s he hj hje
    · rw [hframe]
  · exact congrArg Host.Outcome.next (globalStamp_waits h)
  · have heq := seamExpire_due he hst h
    rw [hgs, withdrawGroups_mitten hm hf] at heq
    obtain ⟨hend, hpat⟩ := voidFiring_ends true m 3 0xFF 0xFFFF e s
    have hx : engine e (noteWithdrawn e 1 (voidFiring true m 3 0xFF 0xFFFF e s)) = { x with withdrawn := satAdd 16 x.withdrawn 1 } := by
      rw [noteWithdrawn, if_pos he, engine_modEngine_same _ _ he]
      have : engine e (voidFiring true m 3 0xFF 0xFFFF e s) = x := engine_of_pat e ⟨_, hpat⟩
      rw [this]
    refine ⟨_, congrArg Host.Outcome.next heq, ?_, by rw [hx], by rw [hx]; exact hst⟩
    rw [noteWithdrawn, if_pos he, modEngine_frame]
    exact hend
  · exact congrArg Host.Outcome.next (seamExpire_early he hst h)
  · obtain ⟨hpat, hfab⟩ := foldl_switchGroup x.groups s
    obtain ⟨hmod, hle⟩ := wholeMicro_spec ha
    refine ⟨_, congrArg Host.Outcome.next (globalSwitch_switches he hst h ha), hmod, hle, ?_, ?_, fun j hj hje => ?_, ?_⟩
    · rw [engine_traceSwitch]
      refine (engine_of_seamEnd ..).trans ((engine_modEngine_same _ _ he).trans ?_)
      rw [engine_of_pat e ⟨_, hpat⟩]
    · rw [traceSwitch_pat]
      show ∀ p ∈ (modEngine e _ _).pat.shadow, _
      rw [modEngine_shadow, hpat]
      exact fun p hp => by simpa using (List.mem_filter.1 hp).2
    · rw [engine_traceSwitch]
      refine (engine_of_seamEnd ..).trans ((engine_modEngine_ne _ _ he hj hje).trans ?_)
      exact engine_of_pat j ⟨_, hpat⟩
    · rw [traceSwitch_fab, modPat_fab, modEngine_fab, hfab]
  · exact congrArg Host.Outcome.next (globalSwitch_waits he hst h)
  · exact congrArg Host.Outcome.next (seamExpire_idle he hst)
  · exact congrArg Host.Outcome.next (globalSwitch_idle he hst)

end Sys2Proof

/-! SUPPORT. Loads and patches from GO to LOADED (R97 to R102, R114 to R116, R342, R439, R473). -/

namespace Sys2Proof.Machine

/-! ### GO (R99, R473) -/

/-- The fields of a PATTERN_LOAD_CTRL write leave the job, the state, the pattern in force and its placement alone. -/
theorem loadCtrlFields_spec (v : Nat) (s : State) :
    (loadCtrlFields v s).pat.job = s.pat.job ∧ (loadCtrlFields v s).pat.st = s.pat.st
    ∧ (loadCtrlFields v s).pat.image = s.pat.image ∧ (loadCtrlFields v s).pat.fit = s.pat.fit
    ∧ loadCtrlFields v s = { s with
        pat := (loadCtrlFields v s).pat, fault := { s.fault with src := (loadCtrlFields v s).fault.src } } := by
  unfold loadCtrlFields rwWrite
  split <;> exact ⟨rfl, rfl, rfl, rfl, rfl⟩

/-- What a GO leaves: a code, or a job in VERIFYING; the pattern in force and its placement stay. -/
theorem goWrite_judged (v : Nat) (s : State) :
    (goCode v s ≠ 0 → (goWrite v s).pat.code = goCode v s ∧ (goWrite v s).pat.job = s.pat.job ∧ (goWrite v s).pat.st = s.pat.st
      ∧ (goWrite v s).led = s.led)
    ∧ (goCode v s = 0 → (goWrite v s).pat.st = .verifying ∧ ((goWrite v s).led.stopLoad = true ∨ bits v 2 1 = 1)
        ∧ ∃ j, (goWrite v s).pat.job = some j ∧ j.patch = decide (bits v 2 1 = 1) ∧ j.goAt = s.time.now ∧ j.stage = 0)
    ∧ (goWrite v s).pat.image = s.pat.image ∧ (goWrite v s).pat.fit = s.pat.fit
    ∧ goWrite v s = { s with
        pat := (goWrite v s).pat, led := { s.led with stopLoad := (goWrite v s).led.stopLoad }
        fault := { s.fault with src := (goWrite v s).fault.src } } := by
  obtain ⟨hjob, hst, himage, hfit, hframe⟩ := loadCtrlFields_spec v s
  by_cases hc : goCode v s = 0
  · have heq : goWrite v s = startJob v false (loadCtrlFields v s) := if_neg (fun h => h hc)
    have hnow : (loadCtrlFields v s).time.now = s.time.now := by rw [hframe]
    rw [heq]
    unfold startJob
    by_cases hp : bits v 2 1 = 1
    · rw [decide_eq_true hp]
      exact ⟨fun h => absurd hc h, fun _ => ⟨rfl, .inr hp, _, rfl, rfl, hnow, rfl⟩, himage, hfit, by rw [hframe]; rfl⟩
    · rw [decide_eq_false hp]
      exact ⟨fun h => absurd hc h, fun _ => ⟨rfl, .inl rfl, _, rfl, rfl, hnow, rfl⟩, himage, hfit, by rw [hframe]; rfl⟩
  · have heq : goWrite v s = modPat (fun p => { p with code := goCode v s }) (loadCtrlFields v s) := if_pos hc
    have hled : (loadCtrlFields v s).led = s.led := by rw [hframe]
    rw [heq]
    exact ⟨fun _ => ⟨rfl, hjob, hst, hled⟩, fun h => absurd h hc, himage, hfit, by rw [hframe]; rfl⟩

theorem loadFullGo_goes {v : Nat} {s : State} (h0 : bit v 0 = true) (hm : bits v 2 1 ≠ 1) (hb : offBlocked 0x0004000C s = false) :
    loadFullGo v s = goWrite v s := if_pos ⟨h0, hm, by rw [hb]; rfl⟩

theorem patchGo_goes {v : Nat} {s : State} (h0 : bit v 0 = true) (hm : bits v 2 1 = 1) (hb : offBlocked 0x0004000C s = false) :
    patchGo v s = goWrite v s := if_pos ⟨h0, hm, by rw [hb]; rfl⟩

theorem loadFullGo_ignored {v : Nat} {s : State} (h0 : bit v 0 = false) : loadFullGo v s = s := if_neg (by simp [h0])

theorem patchGo_ignored {v : Nat} {s : State} (h0 : bit v 0 = false) : patchGo v s = s := if_neg (by simp [h0])

/-- An image in device memory lies where a GO can name it. -/
def imageInReach (s : State) : Prop := s.pat.len % 8 = 0 ∧ s.pat.addr % 8 = 0 ∧ 0 < s.pat.len ∧ s.pat.len ≤ 0x01000000

/-- A full load while an outcome is owed or a job stands is BUSY. -/
theorem goCode_busy {v : Nat} {s : State} (hm : bits v 2 1 = 0) (h3 : bit v 3 = false) (hr : imageInReach s)
    (h : outcomeOwed s = true ∨ s.pat.job.isSome = true) : goCode v s = 0x11 := by
  obtain ⟨hl, ha, hpos, hmax⟩ := hr
  have hbusy : fullBusy s = true := by
    rcases h with h | h <;> simp [fullBusy, h]
  unfold goCode
  dsimp only
  rw [if_neg (by omega), if_neg (by rintro ⟨-, h⟩; omega), if_neg (by simp [h3]), if_neg (by simp [hm]), if_pos (.inl ⟨hm, hbusy⟩)]

/-- A patch without a pattern in force has the code PATCH_BASE. -/
theorem goCode_patchBase {v : Nat} {s : State} (hm : bits v 2 1 = 1) (h3 : bit v 3 = false) (hr : imageInReach s)
    (h : s.pat.image = none) : goCode v s = 0x13 := by
  obtain ⟨hl, ha, hpos, hmax⟩ := hr
  unfold goCode
  dsimp only
  rw [if_neg (by omega), if_neg (by rintro ⟨-, h⟩; omega), if_neg (by simp [h3]), if_pos ⟨hm, by rw [h]; rfl⟩]

/-- The judgement of a GO, with the kind of job that an accepted one starts. -/
theorem goWrite_judgedAs {v : Nat} {patch : Bool} (hp : decide (bits v 2 1 = 1) = patch) (s : State) :
    (goCode v s ≠ 0 → (goWrite v s).pat.code = goCode v s ∧ (goWrite v s).pat.job = s.pat.job ∧ (goWrite v s).pat.st = s.pat.st
      ∧ (goWrite v s).led = s.led)
    ∧ (goCode v s = 0 → (goWrite v s).pat.st = .verifying ∧ ((goWrite v s).led.stopLoad = true ∨ patch = true)
        ∧ ∃ j, (goWrite v s).pat.job = some j ∧ j.patch = patch ∧ j.goAt = s.time.now ∧ j.stage = 0)
    ∧ (goWrite v s).pat.image = s.pat.image ∧ (goWrite v s).pat.fit = s.pat.fit
    ∧ goWrite v s = { s with
        pat := (goWrite v s).pat, led := { s.led with stopLoad := (goWrite v s).led.stopLoad }
        fault := { s.fault with src := (goWrite v s).fault.src } } := by
  subst hp
  simpa only [decide_eq_true_eq] using goWrite_judged v s

/-! ### Installing the blocks of a pattern (R100) -/

theorem installStreams_pat (im : Image) (s : State) : (installStreams im s).pat = s.pat :=
  List.foldlRecOn (motive := fun u : State => u.pat = s.pat) _ _ rfl fun _ h _ _ => h

theorem installPlanner_pat (im : Image) (s : State) : (installPlanner im s).pat = s.pat := by
  unfold installPlanner
  split
  · rfl
  · exact (modPdie_pat ..).trans (modPdie_pat ..)

theorem installSensors_pat (im : Image) (s : State) : (installSensors im s).pat = s.pat := rfl
theorem installLoops_pat (im : Image) (s : State) : (installLoops im s).pat = s.pat := rfl
theorem installChecks_pat (im : Image) (s : State) : (installChecks im s).pat = s.pat := rfl
theorem installScenes_pat (im : Image) (s : State) : (installScenes im s).pat = s.pat := rfl
theorem installEnvelope_pat (im : Image) (s : State) : (installEnvelope im s).pat = s.pat := rfl
theorem installGuards_pat (im : Image) (fit : List Stitch) (s : State) : (installGuards im fit s).pat = s.pat := rfl
theorem installFit_pat (im : Image) (fit : List Stitch) (s : State) : (installFit im fit s).pat = s.pat := rfl

/-- Installing a pattern block by block leaves the PATTERN block itself alone. -/
theorem installBlocks_pat (im : Image) (fit : List Stitch) (s : State) : (installBlocks im fit s).pat = s.pat := by
  unfold installBlocks
  rw [installFit_pat, installGuards_pat, installEnvelope_pat, installScenes_pat, installChecks_pat, installLoops_pat,
    installPlanner_pat, installSensors_pat, installStreams_pat]

/-! ### The end of a job (R100, R116, R342) -/

theorem dropAuth_eq (id gen : Nat) (s : State) : ∃ a, dropAuth id gen s = { s with pat := { s.pat with auth := a } } := by
  unfold dropAuth
  split
  · exact ⟨s.pat.auth, rfl⟩
  · split
    · exact ⟨none, rfl⟩
    · exact ⟨s.pat.auth, rfl⟩

/-- A job of no boot chain that fails: its code, and the pattern in force as it was. -/
theorem failJob_spec {j : LoadJob} {s : State} (hj : s.pat.job = some j) (hb : j.boot = false) (c : Nat) (bad : Option Stitch) :
    (failJob c bad s).pat.st = .failed ∧ (failJob c bad s).pat.code = c ∧ (failJob c bad s).pat.job = none
    ∧ (failJob c bad s).pat.image = s.pat.image ∧ (failJob c bad s).pat.gen = s.pat.gen
    ∧ (j.patch = false → (failJob c bad s).led.stopLoad = false) := by
  obtain ⟨a, ha⟩ := dropAuth_eq (fieldLe j.raw 16 8) (fieldLe j.raw 24 4) s
  unfold failJob
  rw [hj]
  simp only [ha, hb, Bool.not_false, if_true]
  cases bad with
  | none => cases hp : j.patch <;> simp
  | some t => cases hp : j.patch <;> simp

section
variable {j : LoadJob} {s : State} (hj : s.pat.job = some j)
include hj

theorem storeRead_reads (hb : j.boot = false) (h0 : j.stage = 0) (hr : j.raw = []) : storeRead s =
    { s with pat := { s.pat with job := some { j with raw := (storeEntry s.pat.flashEntry s).raw } } } := by
  unfold storeRead
  rw [hj]
  simp [h0, hr, hb, modPat]

theorem verifyDone_judges (h0 : j.stage = 0) (hr : j.raw ≠ []) (hi : islandRuns 0 s = true ∨ islandRuns 1 s = true) :
    verifyDone s = if verifyCode j.raw j.patch s ≠ 0 then failJob (verifyCode j.raw j.patch s) none s
      else { s with pat := { s.pat with
        job := some { j with stage := 1, image := parseImage j.raw }, st := if j.patch then .verifying else .fitting } } := by
  unfold verifyDone
  rw [hj]
  dsimp only
  rw [if_neg]
  · rfl
  · rintro (h | h | ⟨ha, hb⟩)
    · exact h h0
    · exact hr (List.isEmpty_iff.1 h)
    · rcases hi with hi | hi
      · simp [hi] at ha
      · simp [hi] at hb

/-! ### Fitting (R101, R103) -/

theorem fitDone_ends (h1 : j.stage = 1) (hp : j.patch = false) (hc : checkImage j.image s = none)
    (c0 : Nat) (f0 : List Byte) (c1 : Nat) (f1 : List Byte) :
    (∀ p, (fittedPlacement j s).getD (fitterResult j.image c0 f0 c1 f1 s) = .placed p →
      fitDone c0 f0 c1 f1 s = { s with pat := { s.pat with
        st := .loading
        job := some { j with stage := 2, fit := p.fit, primary := p.primary, alts := p.alts, source := p.source
                             altKind := p.altKind, altIndex := p.altIndex } } })
    ∧ ∀ c b, (fittedPlacement j s).getD (fitterResult j.image c0 f0 c1 f1 s) = .refused c b →
      fitDone c0 f0 c1 f1 s = failJob c b (fitterSource c s) := by
  unfold fitDone
  rw [hj]
  dsimp only
  rw [if_neg (by simp [h1, hp]), hc]
  exact ⟨fun p h => by rw [h]; rfl, fun c b h => by rw [h]⟩

/-! ### LOADED (R98, R100) -/

theorem loadComplete_installs (h2 : j.stage = 2) (hp : j.patch = false) (hb : j.boot = false) (hc : contentError j.raw j.image s = none) :
    ∃ u, loadComplete s = settle u ∧ u.led.stopLoad = false
      ∧ ∃ a ms, u.pat = { patLoaded j s.time.now { s.pat with image := some j.image, masters := ms } with auth := a } := by
  unfold loadComplete
  rw [hj]
  dsimp only
  rw [if_neg (by simp [h2, hp]), hc]
  dsimp only
  rw [if_neg (by simp [hb])]
  refine ⟨_, rfl, ?_⟩
  obtain ⟨a, ha⟩ := dropAuth_eq j.image.patternId j.image.generation _
  rw [ha]
  exact ⟨rfl, a, mastersOf j.raw j.image s, by simp [installBlocks_pat, modPat]⟩

theorem loadComplete_fails (h2 : j.stage = 2) (hp : j.patch = false) {e : Refused} (hc : contentError j.raw j.image s = some e) :
    loadComplete s = failJob e.1 e.2 s := by
  unfold loadComplete
  rw [hj]
  dsimp only
  rw [if_neg (by simp [h2, hp]), hc]

/-! ### Patches (R114 to R116, R475) -/

theorem patchStaged_judges (h1 : j.stage = 1) (hp : j.patch = true) :
    patchStaged s = match patchError j s with
      | some e => failJob e.1 e.2 s
      | none => { s with pat := { s.pat with
          st := .patchArmed, job := some { j with stage := 3, groups := patchGroups j.image s } } } := by
  unfold patchStaged
  rw [hj]
  dsimp only
  rw [if_neg (by simp [h1, hp])]
  cases patchError j s <;> rfl

theorem patchSeam_begins (h3 : j.stage = 3) (hd : j.loadStamp ≤ stamp (liveDie 0 s) s) :
    patchSeam s = { s with pat := { s.pat with
      job := some { j with stage := 4, takingAt := s.time.now }, withdrawn := 0 } } := by
  unfold patchSeam
  rw [hj]
  dsimp only
  rw [if_neg (by omega)]
  rfl

theorem patchSeam_waits (hd : stamp (liveDie 0 s) s < j.loadStamp) : patchSeam s = s := by
  unfold patchSeam
  rw [hj]
  exact if_pos (.inr hd)

end

/-! ### Constants and authorizations (R102, R342) -/

/-- The module states in which constants are refilled. -/
def refillState (p : ModSt) : Prop := p = .standby ∨ p = .active ∨ p = .degraded ∨ p = .boot

theorem refillDone_refills {s : State} (h : refillState s.power.st) (m : Nat) :
    refillDone m s = modMitten m (fun x => { x with waitConst := false }) s := by
  unfold refillDone
  rcases h with h | h | h | h <;> rw [h]

theorem fitterSource_pat (c : Nat) (s : State) : (fitterSource c s).pat = s.pat := by
  unfold fitterSource
  split
  · rfl
  · rfl

/-- Every seam engine is idle once a full load is done. -/
theorem patLoaded_engines {u : State} {j : LoadJob} {now : Nat} {p : PatternState} {a : Option (Nat × Nat × Nat)}
    (h : u.pat = { patLoaded j now p with auth := a }) (e : Nat) : engine e u = {} := by
  unfold engine
  rw [h]
  repeat' split
  all_goals rfl

theorem authExpire_due {s : State} {a : Nat × Nat × Nat} (ha : s.pat.auth = some a) (h : a.2.2 ≤ s.time.now) :
    authExpire s = { s with pat := { s.pat with auth := none } } := by
  unfold authExpire
  rw [ha]
  exact if_pos h

theorem authExpire_early {s : State} {a : Nat × Nat × Nat} (ha : s.pat.auth = some a) (h : s.time.now < a.2.2) : authExpire s = s := by
  unfold authExpire
  rw [ha]
  exact if_neg (by omega)

theorem contentError_badContents {raw : List Byte} {im : Image} {s : State} {x : GTen} (h : badContents raw im s = some x) :
    contentError raw im s = some (0x17, im.find 4 1 x.id) := by
  unfold contentError
  rw [h]

end Sys2Proof.Machine

namespace Sys2Proof

open Sys2Proof.Machine

/-- Settles O40: the judgement of GO, then the job from its image to LOADED, one stage at a time. -/
theorem loadsAndPatchesAreJudgedVerifiedAndInstalled : Obligations.LoadsAndPatchesAreJudgedVerifiedAndInstalled := by
  intro t v s0 s judged
  refine ⟨fun h0 hb => ⟨fun hm => ?_, fun hm => ?_⟩, fun h0 => ⟨?_, ?_⟩, ?_, ?_, fun j hj hb => ⟨?_, ?_, ?_, ?_, ?_, ?_, ?_, ?_⟩, ?_, ?_⟩
  · exact ⟨goWrite v s, congrArg Host.Outcome.next (loadFullGo_goes h0 hm hb), goWrite_judgedAs (decide_eq_false hm) s⟩
  · exact ⟨goWrite v s, congrArg Host.Outcome.next (patchGo_goes h0 hm hb), goWrite_judgedAs (decide_eq_true hm) s⟩
  · exact congrArg Host.Outcome.next (loadFullGo_ignored h0)
  · exact congrArg Host.Outcome.next (patchGo_ignored h0)
  · exact fun hm h3 hl ha hpos hmax h => goCode_busy hm h3 ⟨hl, ha, hpos, hmax⟩ h
  · exact fun hm h3 hl ha hpos hmax h => goCode_patchBase hm h3 ⟨hl, ha, hpos, hmax⟩ h
  · exact fun h0 hr => ⟨_, congrArg Host.Outcome.next (storeRead_reads hj hb h0 hr), rfl⟩
  · intro h0 hr hi
    refine ⟨_, congrArg Host.Outcome.next (verifyDone_judges hj h0 hr hi), fun hc => if_neg (fun h => h hc), fun hc => ?_⟩
    obtain ⟨hst, hcode, hjob, himage, -, hstop⟩ := failJob_spec hj hb (verifyCode j.raw j.patch s) none
    rw [if_pos hc]
    exact ⟨hst, hcode, hjob, himage, hstop⟩
  · intro h1 hp hc c0 f0 c1 f1
    obtain ⟨hplaced, hrefused⟩ := fitDone_ends hj h1 hp hc c0 f0 c1 f1
    refine ⟨fun p h => ⟨_, _, congrArg Host.Outcome.next (hplaced p h), rfl, rfl, rfl, rfl, rfl, rfl⟩, fun c b h => ?_⟩
    obtain ⟨hst, hcode, hjob, -⟩ := failJob_spec (s := fitterSource c s) ((fitterSource_pat c s).symm ▸ hj) hb c b
    exact ⟨_, congrArg Host.Outcome.next (hrefused c b h), hst, hcode, hjob⟩
  · intro h2 hp hc
    obtain ⟨u, hu, hstop, a, ms, hpat⟩ := loadComplete_installs hj h2 hp hb hc
    refine ⟨settle u, congrArg Host.Outcome.next (hu), ?_⟩
    rw [settle_led, settle_pat, hpat]
    exact ⟨rfl, rfl, rfl, rfl, rfl, rfl, rfl, rfl, fun e he => patLoaded_engines (settle_pat u ▸ hpat) e, hstop⟩
  · intro h2 hp x hx
    obtain ⟨hst, hcode, -, himage, -⟩ := failJob_spec hj hb 0x17 (j.image.find 4 1 x.id)
    exact ⟨_, congrArg Host.Outcome.next (loadComplete_fails hj h2 hp (contentError_badContents hx)), hst, hcode, himage⟩
  · intro h2 hp e he
    obtain ⟨hst, hcode, -, himage, -⟩ := failJob_spec hj hb e.1 e.2
    exact ⟨_, congrArg Host.Outcome.next (loadComplete_fails hj h2 hp he), hst, hcode, himage⟩
  · intro h1 hp
    have hop := patchStaged_judges hj h1 hp
    constructor
    · intro h
      rw [h] at hop
      exact ⟨_, congrArg Host.Outcome.next (hop), rfl⟩
    · intro c b h
      rw [h] at hop
      obtain ⟨hst, hcode, -, himage, hgen, -⟩ := failJob_spec hj hb c b
      exact ⟨_, congrArg Host.Outcome.next (hop), hst, hcode, himage, hgen⟩
  · exact fun h3 => ⟨fun hd => ⟨_, congrArg Host.Outcome.next (patchSeam_begins hj h3 hd), rfl⟩,
      fun hd => congrArg Host.Outcome.next (patchSeam_waits hj hd)⟩
  · exact fun m hst => ⟨_, congrArg Host.Outcome.next (refillDone_refills hst m), mitten_modMitten_same .., 
      fun k hk => mitten_modMitten_ne _ s hk, rfl⟩
  · exact fun a ha => ⟨fun hd => ⟨_, congrArg Host.Outcome.next (authExpire_due ha hd), rfl⟩,
      fun hd => congrArg Host.Outcome.next (authExpire_early ha hd)⟩

end Sys2Proof

/-! SUPPORT. Re-placement after a loss, and the exit of RETAIN (R103 to R107, R113, R391, R474). -/

namespace Sys2Proof.Machine

/-! ### Operations that leave the PATTERN block and the list of re-placements alone -/

/-- The pattern in force with its placement, and the re-placements that wait, are the same in two states. -/
def SamePlacement (s u : State) : Prop := u.pat = s.pat ∧ u.fault.replace = s.fault.replace

theorem SamePlacement.trans {s u w : State} (h1 : SamePlacement s u) (h2 : SamePlacement u w) : SamePlacement s w :=
  ⟨h2.1.trans h1.1, h2.2.trans h1.2⟩

theorem samePlacement_foldl {α : Type} (f : State → α → State) (h : ∀ a x, SamePlacement a (f a x)) (xs : List α) (s : State) :
    SamePlacement s (xs.foldl f s) :=
  List.foldlRecOn (motive := SamePlacement s) xs f ⟨rfl, rfl⟩ fun u hu x _ => hu.trans (h u x)

theorem samePlacement_voidWhere (p : Ticket → Bool) (cause part quad detail : Nat) (s : State) :
    SamePlacement s (voidWhere p cause part quad detail s) := by
  obtain ⟨-, -, ks, l, w, hv⟩ := voidWhere_spec p cause part quad detail s
  rw [hv]
  exact ⟨rfl, rfl⟩

/-- Abandoning a firing without freeing its edges, and voiding the tickets it served. -/
theorem samePlacement_voidFiring (m cause part quad detail : Nat) (s : State) :
    SamePlacement s (voidFiring false m cause part quad detail s) := by
  have habandon : ∀ v, SamePlacement v (abandonFiring false m v) := fun v => by
    unfold abandonFiring
    split <;> exact ⟨rfl, rfl⟩
  have hvoid : SamePlacement s (voidTags (firingTags m s) cause part quad detail s) := samePlacement_voidWhere _ cause part quad detail s
  exact hvoid.trans (habandon _)

theorem samePlacement_resetEdge (e : GEdge) (part quad : Nat) (s : State) : SamePlacement s (resetEdge e part quad s) :=
  samePlacement_voidWhere _ 1 part quad 0 s

theorem samePlacement_resetLostStates (old : List Stitch) (part : Nat) (s : State) : SamePlacement s (resetLostStates old part s) :=
  samePlacement_foldl (fun a (b : Stitch) => resetStateTensor b.id a) (fun _ _ => ⟨rfl, rfl⟩) _ s

theorem samePlacement_disableStreams (sts : List Nat) (cause part quad : Nat) (s : State) :
    SamePlacement s (disableStreams sts cause part quad s) :=
  samePlacement_foldl (fun a st => disableStream st cause part quad a)
    (fun a st => samePlacement_voidWhere (fun k => k.stream == st) cause part quad 0 a) sts s

theorem samePlacement_fitterSource (c : Nat) (s : State) : SamePlacement s (fitterSource c s) := by
  unfold fitterSource
  split <;> exact ⟨rfl, rfl⟩

theorem samePlacement_writeRec (c : Nat) (r : FaultRec) (s : State) : SamePlacement s (writeRec c r s) := by
  have hcoll : ∀ f : Collector → Collector, SamePlacement s (modColl c f s) := fun f => by
    unfold modColl
    split <;> exact ⟨rfl, rfl⟩
  have htrace : ∀ d k x v, SamePlacement v (traceEv d k 0x20 x v) := fun d k x v => by
    obtain ⟨m, a, b, h⟩ := traceEv_eq d k 0x20 x v
    rw [h]
    exact ⟨rfl, rfl⟩
  have hcopy : ∀ r v, SamePlacement v (copyRec r v) := fun r v => by
    rcases copyRec_cases r v with ⟨-, h⟩ | ⟨-, w, h, -⟩
    · rw [h]
      exact ⟨rfl, rfl⟩
    · rw [h]
      exact ⟨rfl, rfl⟩
  exact ((hcoll _).trans (htrace ..)).trans (hcopy ..)

/-! ### The end of a re-placement (R351, R362) -/

/-- Ending a re-placement takes it off the list and leaves the placement alone. -/
theorem endReplace_spec (src conf : Nat) (s : State) :
    (endReplace src conf s).pat = s.pat ∧ (endReplace src conf s).fault.replace = s.fault.replace.drop 1 := by
  unfold endReplace
  dsimp only
  rw [settle_pat, settle_fault]
  split
  · exact samePlacement_writeRec ..
  · exact ⟨rfl, rfl⟩

/-! ### A switch of placements (R106, R107) -/

/-- A switch puts the new placement in force and counts it; nothing else of the PATTERN block changes. -/
theorem switchFit_spec (new : List Stitch) (part : Nat) (s : State) :
    (switchFit new part s).pat = { s.pat with fit := new, switches := satAdd 16 s.pat.switches 1 }
    ∧ (switchFit new part s).fault.replace = s.fault.replace := by
  unfold switchFit
  extract_lets old ch pid quad s1 es s2 s3 s4 s5
  have h1 : SamePlacement s s1 := samePlacement_foldl _ (fun a m => samePlacement_voidFiring m 1 pid quad 0 a) ch s
  have h2 : SamePlacement s s2 := h1.trans (samePlacement_foldl _ (fun a e => samePlacement_resetEdge e pid quad a) _ s1)
  have h3 : SamePlacement s s3 := h2.trans (samePlacement_resetLostStates old part s2)
  have h4 : SamePlacement s s4 := h3.trans (samePlacement_foldl _ (fun a m => by split <;> exact ⟨rfl, rfl⟩) ch s3)
  exact ⟨by show { s4.pat with fit := new, switches := satAdd 16 s4.pat.switches 1 } = _; rw [h4.1], h4.2⟩

theorem patRest_fit (p : PatternState) : (patRest p).fit = p.fit := by
  unfold patRest
  split <;> rfl

theorem dropShadows_spec (gs : List Nat) (s : State) :
    ∃ sh l, dropShadows gs s = { s with pat := { s.pat with shadow := sh, shadowLost := l } } := by
  unfold dropShadows
  split
  · exact ⟨_, true, rfl⟩
  · exact ⟨_, s.pat.shadowLost, rfl⟩

/-! ### ALT_COMPUTE_DONE (R104) -/

theorem altComputeDone_takes {bs : List Byte} {s : State} (hst : s.pat.st = .loaded) (hsrc : s.pat.source = 2) (hk : s.pat.altKind = 0)
    (hr : s.pat.altReady = false)
    (he : altError (curImage s) s.pat.stackAlts s.pat.primary (parseStitches 0x11 (bs.length / 8 + 1) bs) = none) :
    altComputeDone bs s = { s with pat := { s.pat with
      altReady := true, alts := altsOf (parseStitches 0x11 (bs.length / 8 + 1) bs) } } :=
  if_pos ⟨hst, hsrc, hk, by rw [hr]; rfl, he⟩

theorem altComputeDone_error {bs : List Byte} {s : State}
    (he : altError (curImage s) s.pat.stackAlts s.pat.primary (parseStitches 0x11 (bs.length / 8 + 1) bs) ≠ none) :
    altComputeDone bs s = s := if_neg fun ⟨_, _, _, _, h⟩ => he h

theorem altComputeDone_ignored {bs : List Byte} {s : State} (h : s.pat.altReady = true ∨ s.pat.altKind ≠ 0 ∨ s.pat.source ≠ 2) :
    altComputeDone bs s = s := by
  refine if_neg fun ⟨_, hsrc, hk, hr, _⟩ => ?_
  rcases h with h | h | h
  · simp [h] at hr
  · exact h hk
  · exact h hsrc

/-! ### ALTERNATE_SWITCH (R106, R107, R113) -/

section
variable {part src conf : Nat} {rest : List (Nat × Nat × Nat)} {s : State} (hw : s.fault.replace = (part, src, conf) :: rest)
include hw

theorem alternateSwitch_waits (h : anyTaking s = true) : alternateSwitch s = s := by
  unfold alternateSwitch
  rw [hw]
  exact if_pos (.inl h)

/-- With a matching alternate the re-placement ends in it. -/
theorem alternateSwitch_switches (ht : anyTaking s = false) (hr : s.pat.refitAt = none) (hi : s.pat.image.isSome = true)
    (hl : s.pat.dieLost = false) {k i : Nat} {f : List Stitch} (hm : matchingAlt part s = some (k, i, f)) :
    (alternateSwitch s).pat = { s.pat with fit := f, switches := satAdd 16 s.pat.switches 1, altKind := k, altIndex := i }
    ∧ (alternateSwitch s).fault.replace = rest := by
  obtain ⟨hpat, hrep⟩ := switchFit_spec f part s
  unfold alternateSwitch
  rw [hw]
  dsimp only
  rw [if_neg (by simp [ht, hr, Option.isSome_iff_ne_none.1 hi]), hm]
  dsimp only
  rw [if_neg (by simp [hl])]
  obtain ⟨h1, h2⟩ := endReplace_spec src conf
    (installGuards (curImage (switchFit f part s)) f (modPat (fun p => { p with altKind := k, altIndex := i }) (switchFit f part s)))
  rw [h1, h2]
  refine ⟨?_, ?_⟩
  · show { (switchFit f part s).pat with altKind := k, altIndex := i } = _
    rw [hpat]
  · show (switchFit f part s).fault.replace.drop 1 = _
    rw [hrep, hw]
    rfl

/-- Without one a device re-fit begins. -/
theorem alternateSwitch_refits (ht : anyTaking s = false) (hr : s.pat.refitAt = none) (hi : s.pat.image.isSome = true)
    (hl : s.pat.dieLost = false) (hm : matchingAlt part s = none) :
    alternateSwitch s = { s with pat := { s.pat with
      refitAt := some conf, st := if s.pat.job.isNone then .refitting else s.pat.st } } := by
  unfold alternateSwitch
  rw [hw]
  dsimp only
  rw [if_neg (by simp [ht, hr, Option.isSome_iff_ne_none.1 hi]), hm]
  exact if_neg (by simp [hl])

/-! ### DEVICE_REFIT_DONE (R103, R106, R107) -/

variable {cf : Nat} (hr : s.pat.refitAt = some cf) {c0 c1 : Nat} {f0 f1 : List Byte}
include hr

theorem deviceRefitDone_waits (h : anyTaking s = true) : deviceRefitDone c0 f0 c1 f1 s = s := by
  unfold deviceRefitDone
  rw [hr, hw]
  exact if_pos (.inl h)

theorem deviceRefitDone_places (ht : anyTaking s = false) (hl : s.pat.dieLost = false) {p : Placement}
    (hp : fitterResult (curImage s) c0 f0 c1 f1 s = .placed p) :
    (deviceRefitDone c0 f0 c1 f1 s).pat.fit = p.fit ∧ (deviceRefitDone c0 f0 c1 f1 s).pat.altKind = 3
    ∧ (deviceRefitDone c0 f0 c1 f1 s).pat.source = 2 ∧ (deviceRefitDone c0 f0 c1 f1 s).pat.refitAt = none
    ∧ (deviceRefitDone c0 f0 c1 f1 s).fault.replace = rest := by
  obtain ⟨sh, l, hd⟩ := dropShadows_spec (shadowDropped s.pat.fit p.fit) s
  obtain ⟨hpat, hrep⟩ := switchFit_spec p.fit part (dropShadows (shadowDropped s.pat.fit p.fit) s)
  unfold deviceRefitDone
  rw [hr, hw]
  dsimp only
  rw [if_neg (by simp [ht, hl]), hp]
  dsimp only
  generalize switchFit p.fit part (dropShadows (shadowDropped s.pat.fit p.fit) s) = v at hpat hrep ⊢
  have hfit : v.pat.fit = p.fit := by rw [hpat]
  have hrest : v.fault.replace = (part, src, conf) :: rest := by rw [hrep, hd, ← hw]
  obtain ⟨w, hw1, hw2⟩ : ∃ w, installGuards (curImage s) p.fit v = w ∧ SamePlacement v w := ⟨_, rfl, rfl, rfl⟩
  rw [hw1]
  obtain ⟨h1, h2⟩ := endReplace_spec src cf (modPat (fun x => { patRest x with
      refitAt := none, altKind := 3, altIndex := 0, altReady := false, alts := [], stackAlts := false, source := 2, code := 0
      fitUs := satU 32 ((s.time.now - cf) / 1000) }) w)
  rw [h1, h2]
  refine ⟨?_, rfl, rfl, rfl, ?_⟩
  · show (patRest w.pat).fit = _
    rw [patRest_fit, hw2.1, hfit]
  · show w.fault.replace.drop 1 = _
    rw [hw2.2, hrest]
    rfl

theorem deviceRefitDone_refuses (ht : anyTaking s = false) (hl : s.pat.dieLost = false) {c : Nat} {b : Option Stitch}
    (hp : fitterResult (curImage s) c0 f0 c1 f1 s = .refused c b) :
    (deviceRefitDone c0 f0 c1 f1 s).pat.fit = s.pat.fit ∧ (deviceRefitDone c0 f0 c1 f1 s).pat.code = c
    ∧ (deviceRefitDone c0 f0 c1 f1 s).pat.refitAt = none ∧ (deviceRefitDone c0 f0 c1 f1 s).fault.replace = rest := by
  unfold deviceRefitDone
  rw [hr, hw]
  dsimp only
  rw [if_neg (by simp [ht, hl]), hp]
  dsimp only
  have hsame : SamePlacement s (disableStreams (unplacedStreams s) 1 (partId part) (partQuad part)
      (loseScenes s.pat.fit [] part (fitterSource c s))) :=
    (samePlacement_fitterSource c s).trans (samePlacement_disableStreams _ 1 _ _ (loseScenes s.pat.fit [] part (fitterSource c s)))
  generalize disableStreams (unplacedStreams s) 1 (partId part) (partQuad part)
    (loseScenes s.pat.fit [] part (fitterSource c s)) = v at hsame ⊢
  obtain ⟨hvp, hvr⟩ := hsame
  obtain ⟨h1, h2⟩ := endReplace_spec src cf (modPat (fun p => { patRest p with refitAt := none, code := c }) v)
  rw [h1, h2]
  refine ⟨?_, rfl, rfl, ?_⟩
  · show (patRest v.pat).fit = _
    rw [patRest_fit, hvp]
  · show v.fault.replace.drop 1 = _
    rw [hvr, hw]
    rfl

end

/-! ### RETAIN_EXIT_DONE (R391) -/

/-- The state in which the channels and the ledger leave RETAIN, before the blocks restart. -/
def leaveRetain (s : State) : State :=
  { s with
    power := { s.power with retainExit := false }
    led := { s.led with stopRetain := false }
    ddr := { s.ddr with
      ch := tmapAll {} (fun _ (c : DdrChan) => if c.st = .selfRefresh then { c with st := .active } else c) s.ddr.ch } }

theorem retainExitDone_restarts {s : State} (h : s.power.retainExit = true) : retainExitDone s
    = settle (restartBlocks (if (leaveRetain s).pat.image.isSome then reinstall (leaveRetain s) else leaveRetain s)) :=
  if_neg (by simp [h])

/-- A channel leaves self-refresh. -/
def DdrChan.awake (c : DdrChan) : DdrChan := if c.st = .selfRefresh then { c with st := .active } else c

/-- Restarting the blocks leaves power, ledger, channels, pattern and firmware settings alone. -/
theorem restartBlocks_keeps (s : State) :
    (restartBlocks s).power = s.power ∧ (restartBlocks s).led = s.led ∧ (restartBlocks s).ddr = s.ddr
    ∧ (restartBlocks s).pat = s.pat ∧ (restartBlocks s).sec = s.sec := by
  have hplan : ∀ v, (planEpoch0 v).power = v.power ∧ (planEpoch0 v).led = v.led ∧ (planEpoch0 v).ddr = v.ddr
      ∧ (planEpoch0 v).pat = v.pat ∧ (planEpoch0 v).sec = v.sec := fun v => by simp [planEpoch0]
  unfold restartBlocks
  extract_lets
  split
  · exact hplan _
  · exact ⟨rfl, rfl, rfl, rfl, rfl⟩

theorem retainExitDone_exits {s : State} (h : s.power.retainExit = true) :
    (retainExitDone s).power.retainExit = false ∧ (retainExitDone s).led.stopRetain = false
    ∧ (∀ i, chan i (retainExitDone s) = (chan i s).awake) ∧ (retainExitDone s).pat = s.pat ∧ (retainExitDone s).sec = s.sec := by
  have hpower : ∀ v : State, (settle v).power.retainExit = v.power.retainExit := fun v => by rw [settle_kept]
  have hre : ∃ fab, (if (leaveRetain s).pat.image.isSome then reinstall (leaveRetain s) else leaveRetain s)
      = { leaveRetain s with fab := fab } := by
    split
    · exact ⟨_, rfl⟩
    · exact ⟨(leaveRetain s).fab, rfl⟩
  obtain ⟨fab, hre⟩ := hre
  obtain ⟨hp, hl, hd, hpat, hsec⟩ := restartBlocks_keeps { leaveRetain s with fab := fab }
  rw [retainExitDone_restarts h, hre, hpower, settle_led, settle_pat, settle_sec, hp, hl, hpat, hsec]
  refine ⟨rfl, rfl, fun i => ?_, rfl, rfl⟩
  show tget {} i (settle _).ddr.ch = _
  rw [settle_ddr, hd]
  exact tget_tmapAll {} (fun _ => DdrChan.awake) (fun _ => rfl) i s.ddr.ch

theorem retainExitDone_ignored {s : State} (h : s.power.retainExit = false) : retainExitDone s = s := if_pos (by rw [h]; rfl)

end Sys2Proof.Machine

namespace Sys2Proof

open Sys2Proof.Machine

/-- Settles O41: a switch of placements leaves the PATTERN block alone apart from what it installs. -/
theorem lossesAreReplacedByAlternatesOrRefits : Obligations.LossesAreReplacedByAlternatesOrRefits := by
  intro t s0 s
  refine ⟨?_, fun bs h => ?_, fun part src conf rest hw hr hi => ⟨fun ht => ?_, fun ht hl => ⟨?_, ?_⟩⟩,
    fun cf part src conf rest c0 f0 c1 f1 hr hw hl => ⟨fun ht => ?_, fun ht => ⟨?_, ?_⟩⟩, fun h _ => ?_, fun h => ?_⟩
  · intro bs ts hst hsrc hk hr
    exact ⟨fun he => ⟨_, congrArg Host.Outcome.next (altComputeDone_takes hst hsrc hk hr he), rfl⟩,
      fun he => congrArg Host.Outcome.next (altComputeDone_error he)⟩
  · exact congrArg Host.Outcome.next (altComputeDone_ignored h)
  · exact congrArg Host.Outcome.next (alternateSwitch_waits hw ht)
  · intro k i f hm
    obtain ⟨hpat, hrep⟩ := alternateSwitch_switches hw ht hr hi hl hm
    refine ⟨alternateSwitch s, rfl, ?_⟩
    rw [hpat]
    exact ⟨rfl, rfl, rfl, rfl, hrep, rfl, rfl⟩
  · exact fun hm => ⟨_, congrArg Host.Outcome.next (alternateSwitch_refits hw ht hr hi hl hm), rfl⟩
  · exact congrArg Host.Outcome.next (deviceRefitDone_waits hw hr ht)
  · exact fun p hp => ⟨deviceRefitDone c0 f0 c1 f1 s, rfl, deviceRefitDone_places hw hr ht hl hp⟩
  · exact fun c b hp => ⟨deviceRefitDone c0 f0 c1 f1 s, rfl, deviceRefitDone_refuses hw hr ht hl hp⟩
  · obtain ⟨hexit, hstop, hch, hpat, hsec⟩ := retainExitDone_exits h
    refine ⟨retainExitDone s, rfl, hexit, hstop, fun i hi => ?_, fun i hi => ?_, hpat, hsec⟩
    · rw [hch, DdrChan.awake, if_pos hi]
    · rw [hch, DdrChan.awake, if_neg hi]
  · exact congrArg Host.Outcome.next (retainExitDone_ignored h)

end Sys2Proof

/-! SUPPORT. Packets on the mesh (R39 to R48, R419): the header check, injection, the service of an output, and the swap of a
die's route tables. -/

namespace Sys2Proof.Machine

/-! ### Fields of a list of bytes put together -/

theorem fieldLe_append_left {xs : List Byte} {o n : Nat} (h : o + n ≤ xs.length) (ys : List Byte) :
    fieldLe (xs ++ ys) o n = fieldLe xs o n := by
  unfold fieldLe
  rw [List.drop_append_of_le_length (by omega), List.take_append_of_le_length (by rw [List.length_drop]; omega)]

theorem fieldLe_append_right {xs : List Byte} {o k : Nat} (h : xs.length + k = o) (ys : List Byte) (n : Nat) :
    fieldLe (xs ++ ys) o n = fieldLe ys k n := by
  unfold fieldLe
  rw [← h, List.drop_append, List.drop_of_length_le (by omega), List.nil_append, Nat.add_sub_cancel_left]

theorem fieldLe_take {xs : List Byte} {o n m : Nat} (h : o + n ≤ m) : fieldLe (xs.take m) o n = fieldLe xs o n := by
  unfold fieldLe
  rw [List.drop_take, List.take_take, Nat.min_eq_left (by omega)]

theorem fieldLe_slice {xs : List Byte} {o n a m : Nat} (h : o + n ≤ m) : fieldLe (slice xs a m) o n = fieldLe xs (a + o) n := by
  unfold slice
  rw [fieldLe_take h]
  unfold fieldLe
  rw [List.drop_drop]

theorem fieldLe_leBytes (n v : Nat) : fieldLe (leBytes n v) 0 n = v % 256 ^ n := by
  unfold fieldLe
  rw [List.drop_zero, List.take_of_length_le (by rw [length_leBytes]), leVal_leBytes]

/-! ### The header check (R44) -/

theorem crcStepN_lt (c : Nat) : crcStepN 16 0x1021 c < 2 ^ 16 := by
  unfold crcStepN
  split
  · exact Nat.xor_lt_two_pow (Nat.mod_lt _ (by decide)) (by decide)
  · exact Nat.mod_lt _ (by decide)

theorem crcStepsN_lt (n : Nat) {c : Nat} (h : c < 2 ^ 16) : crcStepsN 16 0x1021 n c < 2 ^ 16 := by
  induction n generalizing c with
  | zero => exact h
  | succ n ih => exact ih (crcStepN_lt c)

theorem crcN_lt (bs : List Byte) {c : Nat} (h : c < 2 ^ 16) : crcN 16 0x1021 c bs < 2 ^ 16 := by
  induction bs generalizing c with
  | nil => exact h
  | cons b bs ih => exact ih (crcStepsN_lt 7 (crcStepN_lt _))

theorem crc16_lt (bs : List Byte) : crc16 bs < 2 ^ 16 := crcN_lt bs (by decide)

/-! ### A packet as it is injected (R44) -/

/-- The first 14 bytes of an injected packet's header. -/
def stampedHead (pl : Place) (p : Packet) (s : State) : List Byte :=
  p.header.take 8 ++ leBytes 4 (shortStamp (placeHalf pl) s) ++ slice p.header 12 2

section
variable {pl : Place} {p : Packet} {s : State}

theorem stamped_wrong (h : pktOk p = false) : stamped pl p s = p := if_neg (by simp [h])

theorem stamped_right (h : pktOk p = true) :
    stamped pl p s = { p with header := stampedHead pl p s ++ leBytes 2 (crc16 (stampedHead pl p s)) } := if_pos h

theorem header_length (h : pktWhole p = true) : p.header.length = 16 := by
  obtain ⟨h16, -⟩ := of_decide_eq_true h
  exact h16

theorem length_stampedHead (hw : pktWhole p = true) : (stampedHead pl p s).length = 14 := by
  simp [stampedHead, slice, header_length hw]

variable (hok : pktOk p = true) (hw : pktWhole p = true)
include hok hw

/-- The fields before STAMP are those of the packet. -/
theorem fieldLe_stamped {o n : Nat} (h : o + n ≤ 8) : fieldLe (stamped pl p s).header o n = fieldLe p.header o n := by
  have h16 := header_length hw
  have h8 : (p.header.take 8).length = 8 := by simp [h16]
  rw [stamped_right hok]
  show fieldLe (stampedHead pl p s ++ leBytes 2 (crc16 (stampedHead pl p s))) o n = _
  rw [fieldLe_append_left (by rw [length_stampedHead hw]; omega)]
  unfold stampedHead
  rw [List.append_assoc, fieldLe_append_left (by omega), fieldLe_take h]

theorem stamped_stamp : fieldLe (stamped pl p s).header 8 4 = shortStamp (placeHalf pl) s := by
  have h16 := header_length hw
  have h8 : (p.header.take 8).length = 8 := by simp [h16]
  rw [stamped_right hok]
  show fieldLe (stampedHead pl p s ++ leBytes 2 (crc16 (stampedHead pl p s))) 8 4 = _
  rw [fieldLe_append_left (by rw [length_stampedHead hw]; omega)]
  unfold stampedHead
  rw [List.append_assoc, fieldLe_append_right (k := 0) (by omega), fieldLe_append_left (by rw [length_leBytes]), fieldLe_leBytes]
  exact Nat.mod_eq_of_lt (Nat.mod_lt _ (by decide))

theorem stamped_tag : pktTag (stamped pl p s) = pktTag p := by
  have h16 := header_length hw
  have h12 : (p.header.take 8 ++ leBytes 4 (shortStamp (placeHalf pl) s)).length = 12 := by simp [h16]
  unfold pktTag
  rw [stamped_right hok]
  show fieldLe (stampedHead pl p s ++ leBytes 2 (crc16 (stampedHead pl p s))) 12 2 = _
  rw [fieldLe_append_left (by rw [length_stampedHead hw])]
  unfold stampedHead
  rw [fieldLe_append_right (k := 0) (by omega), fieldLe_slice (by omega)]

/-- An injected packet's header check is right. -/
theorem stamped_ok : pktOk (stamped pl p s) = true := by
  have h14 := length_stampedHead (pl := pl) (s := s) hw
  rw [stamped_right hok]
  unfold pktOk
  rw [beq_iff_eq]
  show fieldLe (stampedHead pl p s ++ leBytes 2 (crc16 (stampedHead pl p s))) 14 2
    = crc16 ((stampedHead pl p s ++ leBytes 2 (crc16 (stampedHead pl p s))).take 14)
  rw [fieldLe_append_right (k := 0) (by omega), fieldLe_leBytes, List.take_append_of_le_length (by omega),
    List.take_of_length_le (by omega)]
  exact Nat.mod_eq_of_lt (crc16_lt _)

end

/-! ### A packet at a place (R39, R47, R48, R419) -/

/-- A packet put at an output: it waits there, or is handed over where the output ends. -/
def putPacket (pl : Place) (input : Nat) (p : Packet) (o : OutPort) (s : State) : State :=
  if (nextPlace pl o p).isNone then { s with fab := { s.fab with delivered := s.fab.delivered ++ [(pl, o, p)] } }
  else { s with fab := { s.fab with queued := s.fab.queued ++ [⟨pl, o, pktClass p, p, input⟩] } }

theorem putPacket_waits {pl : Place} {p : Packet} {o : OutPort} (h : (nextPlace pl o p).isSome = true) (input : Nat) (s : State) :
    putPacket pl input p o s = { s with fab := { s.fab with queued := s.fab.queued ++ [⟨pl, o, pktClass p, p, input⟩] } } :=
  if_neg (by simp [Option.isSome_iff_ne_none.1 h])

theorem putPacket_ends {pl : Place} {p : Packet} {o : OutPort} (h : nextPlace pl o p = none) (input : Nat) (s : State) :
    putPacket pl input p o s = { s with fab := { s.fab with delivered := s.fab.delivered ++ [(pl, o, p)] } } :=
  if_pos (by rw [h]; rfl)

section
variable {k q input : Nat} {p : Packet} {s : State} (hc : placeClosed (.router k q) s = false)
include hc

theorem packetAt_router (hok : pktOk p = true) {o : OutPort} (ho : outPortAt (.router k q) p s = some o)
    (hr : portRefuses (.router k q) o p s = false) : packetAt (.router k q) input p s = putPacket (.router k q) input p o s := by
  unfold packetAt
  rw [if_neg (by simp [hc])]
  dsimp only
  rw [if_neg (by simp [hok]), ho]
  exact if_neg (by simp [hr])

theorem packetAt_spoilt (hok : pktOk p = false) : packetAt (.router k q) input p s = latch (srcStack k 7) 0 s := by
  unfold packetAt
  rw [if_neg (by simp [hc])]
  exact if_pos (by simp [hok])

end

/-- A stop with no block (R48). -/
theorem packetAt_unusedStop {die stop input : Nat} {p : Packet} {s : State} (hd : dieUp die s = true)
    (h15 : bit (pktDest p) 15 = true) (hi : ioDie (pktDest p) = die) (hu : stopUsed (ioStop (pktDest p)) = false) :
    packetAt (.brim die stop) input p s = latch (die * 0x400 + 0x143) (ioStop (pktDest p) + 256 * die) s := by
  have hq : quadTarget (pktDest p) = none := if_pos h15
  unfold packetAt
  rw [if_neg (by simp [placeClosed, hd])]
  exact if_pos (by simp [hq, hi, hu])

/-! ### PACKET_ARRIVE -/

section
variable {pl : Place} {h b : List Byte} {s : State}

theorem packetArrive_shut (hs : placeDrains pl s = true ∨ placeClosed pl s = true) : packetArrive pl none h b s = s :=
  if_neg (by rcases hs with hs | hs <;> simp [hs])

variable (he : placeExists pl = true) (hd : placeDrains pl s = false) (hc : placeClosed pl s = false)
include he hd hc

theorem packetArrive_injects : packetArrive pl none h b s = inject pl ⟨h, b⟩ s := if_pos ⟨he, by rw [hd]; rfl, by rw [hc]; rfl⟩

/-- A packet that is no response goes on from the place where it is injected. -/
theorem packetArrive_new (hp : pktOk ⟨h, b⟩ = true → pktWhole ⟨h, b⟩ = true ∧ pktClass ⟨h, b⟩ ≠ 1) :
    packetArrive pl none h b s = packetAt pl (localInput pl ⟨h, b⟩) (stamped pl ⟨h, b⟩ s) s := by
  rw [packetArrive_injects he hd hc]
  unfold inject
  cases hok : pktOk ⟨h, b⟩ with
  | false => simp
  | true =>
    obtain ⟨hw, h1⟩ := hp hok
    rw [if_neg (by simp [hw]), if_neg (by simp [h1])]

/-- A response that answers no request is not taken. -/
theorem packetArrive_unasked (hok : pktOk ⟨h, b⟩ = true) (hw : pktWhole ⟨h, b⟩ = true) (h1 : pktClass ⟨h, b⟩ = 1)
    (hn : ∀ d ∈ s.fab.delivered, answers pl ⟨h, b⟩ d = false) : packetArrive pl none h b s = s := by
  rw [packetArrive_injects he hd hc]
  unfold inject
  rw [if_neg (by simp [hw]), if_pos (by simp [hok, h1]), List.find?_eq_none.2 (fun d hd => by simp [hn d hd])]

end

section
variable {pl p0 : Place} {o : OutPort} {h b : List Byte} {s : State}

theorem packetArrive_noneServed (hn : servedNext p0 o s = none) : packetArrive pl (some (p0, o)) h b s = s := by
  unfold packetArrive
  simp only [hn]

theorem packetArrive_hop {w : Queued} (hw : servedNext p0 o s = some w) (hp : nextPlace p0 o w.pkt = some pl) :
    packetArrive pl (some (p0, o)) h b s = packetAt pl (linkInput p0 o) w.pkt (serve w s) := by
  unfold packetArrive
  simp only [hw]
  exact if_pos hp

end

/-! ### The service of an output (R43) -/

theorem classNext_mem {turn cls : Nat} {ws : List Queued} {w : Queued} (h : classNext turn cls ws = some w) : w ∈ ws := by
  unfold classNext at h
  dsimp only at h
  split at h
  · cases h
  · exact (List.mem_filter.1 (List.mem_of_find?_eq_some h)).1

/-- What an output serves waits there and holds a credit. -/
theorem servedNext_mem {p0 : Place} {o : OutPort} {s : State} {w : Queued} (h : servedNext p0 o s = some w) :
    w ∈ s.fab.queued ∧ hasCredit w s = true := by
  have hmem : w ∈ (waitingAt p0 o s).filter (fun q => hasCredit q s) := by
    unfold servedNext at h
    dsimp only at h
    split at h
    · cases h
    · next q hq =>
      obtain ⟨c, -, hc⟩ := List.exists_of_findSome?_eq_some hq
      split at h
      · cases h
        exact classNext_mem hc
      · next t ht =>
        split at h
        · cases h
          exact classNext_mem ht
        · cases h
          exact classNext_mem hc
  obtain ⟨hw, hcredit⟩ := List.mem_filter.1 hmem
  exact ⟨(List.mem_filter.1 hw).1, hcredit⟩

/-! ### Default routes (R42) -/

/-- A default route goes along the row to the destination's column, then along the column. -/
theorem defaultRoute_cases {q dest : Nat} (hd : dest < 84) :
    (q % 7 < dest % 7 ∧ defaultRoute q dest = 2) ∨ (dest % 7 < q % 7 ∧ defaultRoute q dest = 3)
    ∨ (q % 7 = dest % 7 ∧ q / 7 < dest / 7 ∧ defaultRoute q dest = 0)
    ∨ (q % 7 = dest % 7 ∧ dest / 7 < q / 7 ∧ defaultRoute q dest = 1) ∨ (q = dest ∧ defaultRoute q dest = 4) := by
  have h84 : ¬ dest = 84 := by omega
  have h85 : ¬ dest = 85 := by omega
  have hle : ¬ 84 ≤ dest := by omega
  simp only [defaultRoute, h84, h85, hle, if_false]
  split_ifs <;> omega

/-! ### ROUTE_TABLE_SWAP (R42) -/

section
variable {k : Nat} {new : List (Nat × Nat)} {s : State} (hd : s.fab.draining.find? (fun d => d.1 == k) = some (k, new))
include hd

theorem routeSwap_waits (h : dieHolds k s = true) : routeSwap k s = s := by
  unfold routeSwap
  rw [hd]
  exact if_pos h

theorem routeSwap_installs (h : dieHolds k s = false) : routeSwap k s = { s with fab := { s.fab with
    routes := new.foldl (fun a e => tset none e.1 (some e.2) a) (s.fab.routes.filter (fun e => e.1 / (84 * 86) != k))
    rtGen := tmod 0 k (fun g => (g + 1) % 256) s.fab.rtGen
    draining := s.fab.draining.filter (fun x => x.1 != k) } } := by
  unfold routeSwap
  rw [hd]
  exact if_neg (by simp [h])

end

end Sys2Proof.Machine

namespace Sys2Proof

open Sys2Proof.Machine

/-- Settles O33: a packet is put at its output once its place takes it; routes, hops and swaps follow from the tables. -/
theorem packetsFollowTheRouteTablesOneHopAtATime : Obligations.PacketsFollowTheRouteTablesOneHopAtATime := by
  refine ⟨fun t k q h b s0 hk hq => ?_, fun t die stop h b s0 hdie hstop => ?_, fun q dest hq hd => ?_, fun t k new s0 => ?_⟩
  · intro s p pl y
    have he : placeExists pl = true := decide_eq_true ⟨hk, hq⟩
    refine ⟨fun hd hc => ⟨fun hok hw h1 o ho hr => ?_, fun hok hw h1 hn => ?_, fun hok => ?_⟩, fun hs => ?_, fun p0 o hn => ?_,
      fun p0 o w o' hw hp hc hok ho hr => ?_⟩
    · have hy := stamped_ok (pl := pl) (s := s) hok hw
      have hop := (packetArrive_new he hd hc fun _ => ⟨hw, h1⟩).trans (packetAt_router hc hy ho hr)
      exact ⟨hy, fieldLe_stamped hok hw (by omega), fieldLe_stamped hok hw (by omega), stamped_tag hok hw,
        congrArg Packet.payload (stamped_right hok), stamped_stamp hok hw,
        fun hn => congrArg Host.Outcome.next (hop.trans (putPacket_waits hn _ s)),
        fun hn => congrArg Host.Outcome.next (hop.trans (putPacket_ends hn _ s))⟩
    · exact congrArg Host.Outcome.next (packetArrive_unasked he hd hc hok hw h1 hn)
    · have hop := packetArrive_new (h := h) (b := b) he hd hc (fun ht => absurd (hok.symm.trans ht) Bool.false_ne_true)
      rw [stamped_wrong hok, packetAt_spoilt hc hok] at hop
      exact ⟨_, congrArg Host.Outcome.next hop, fsrc_latch_latched .., rfl⟩
    · exact congrArg Host.Outcome.next (packetArrive_shut hs)
    · exact congrArg Host.Outcome.next (packetArrive_noneServed hn)
    · obtain ⟨hmem, hcredit⟩ := servedNext_mem hw
      have hop := (packetArrive_hop (h := h) (b := b) hw hp).trans (packetAt_router hc hok ho hr)
      cases hn : nextPlace pl o' w.pkt with
      | none =>
        exact ⟨_, congrArg Host.Outcome.next (hop.trans (putPacket_ends hn _ _)), hmem, hcredit, fun h => by simp at h,
          fun _ => ⟨rfl, rfl⟩, rfl⟩
      | some pl' =>
        exact ⟨_, congrArg Host.Outcome.next (hop.trans (putPacket_waits (by rw [hn]; rfl) _ _)), hmem, hcredit, fun _ => ⟨rfl, rfl⟩,
          fun h => by simp at h, rfl⟩
  · intro s p hup h15 hi hu hp
    have hdest : pktDest (stamped (.brim die stop) p s) = pktDest p := by
      cases hok : pktOk p with
      | false => rw [stamped_wrong hok]
      | true => exact fieldLe_stamped hok (hp hok).1 (by omega)
    have hop := packetArrive_new (h := h) (b := b) (pl := .brim die stop) (s := s) (decide_eq_true ⟨hdie, hstop⟩) rfl
      (by simp [placeClosed, hup]) hp
    rw [packetAt_unusedStop hup (hdest.symm ▸ h15) (hdest.symm ▸ hi) (hdest.symm ▸ hu), hdest] at hop
    exact ⟨_, congrArg Host.Outcome.next hop, fsrc_latch_latched .., fsrc_latch_detail .., rfl⟩
  · intro far next
    dsimp only [far]
    rcases defaultRoute_cases (q := q) hd with ⟨h, hcode⟩ | ⟨h, hcode⟩ | ⟨hcol, h, hcode⟩ | ⟨hcol, h, hcode⟩ | ⟨h, hcode⟩
    · have hnext : next = q + 1 := by simp only [next, hcode]
      clear_value next
      omega
    · have hnext : next = q - 1 := by simp only [next, hcode]
      clear_value next
      omega
    · have hnext : next = q + 7 := by simp only [next, hcode]
      clear_value next
      omega
    · have hnext : next = q - 7 := by simp only [next, hcode]
      clear_value next
      omega
    · exact .inl ⟨h, hcode⟩
  · intro s hd
    refine ⟨fun h => ?_, fun h => congrArg Host.Outcome.next (routeSwap_waits hd h)⟩
    refine ⟨_, congrArg Host.Outcome.next (routeSwap_installs hd h), tget_tmod_same 0 k (fun g => (g + 1) % 256) s.fab.rtGen,
      fun j hj => tget_tmod_ne 0 (fun g => (g + 1) % 256) s.fab.rtGen hj, fun d hd => by simpa using (List.mem_filter.1 hd).2,
      fun x y hn => ?_, rfl⟩
    rw [hn]
    exact tget_tset_same none x (some y) (s.fab.routes.filter (fun e => e.1 / (84 * 86) != k))

end Sys2Proof

/-! SUPPORT. The start of a firing (R57 to R59, R168, R451): what it takes, and what a firing cut short gives back. -/

namespace Sys2Proof.Machine

/-! ### Sums over the entries that name an edge -/

/-- Of entries with different keys at most one names an edge: their sum keeps a bound that each of them keeps. -/
theorem sum_filter_key_le {α : Type} {key n : α → Nat} {l : List α} (hl : (l.map key).Nodup) {bound : Nat → Nat}
    (hb : ∀ a ∈ l, n a ≤ bound (key a)) (x : Nat) : ((l.filter (fun a => key a == x)).map n).sum ≤ bound x := by
  by_cases h : ∃ a ∈ l, key a = x
  · obtain ⟨a, ha, rfl⟩ := h
    rw [filter_key_nodup key l hl a ha]
    simpa using hb a ha
  · rw [List.filter_eq_nil_iff.2 fun a ha hx => h ⟨a, ha, by simpa using hx⟩]
    exact Nat.zero_le _

/-- Balance once a firing has taken `t` tokens and `g` credits. -/
theorem balanced_fired {e : Edge} {t g : Nat} (ht : t ≤ e.held.length) (hg : g ≤ e.credits) (hb : Balanced e) :
    Balanced { e with held := e.held.drop t, inUse := e.inUse + t, credits := e.credits - g, taken := e.taken + g } := by
  unfold Balanced at hb ⊢
  simp only [List.length_drop]
  omega

theorem fireReady_iff {m : Nat} {s : State} : fireReady m s = true
    ↔ (∀ e ∈ inEdges m s, e.consume ≤ (edge e.id s).held.length) ∧ ∀ e ∈ outEdges m s, e.produce ≤ (edge e.id s).credits := by
  simp [fireReady, List.all_eq_true]

/-- The tokens and the credits that a ready firing takes of an edge are there. -/
theorem fireReady_bounds {m : Nat} {s : State} (h : fireReady m s = true) (hi : ((inEdges m s).map (·.id)).Nodup)
    (ho : ((outEdges m s).map (·.id)).Nodup) (x : Nat) :
    (((inEdges m s).filter (fun e => e.id == x)).map (·.consume)).sum ≤ (edge x s).held.length
    ∧ (((outEdges m s).filter (fun e => e.id == x)).map (·.produce)).sum ≤ (edge x s).credits := by
  obtain ⟨hin, hout⟩ := fireReady_iff.1 h
  exact ⟨sum_filter_key_le (bound := fun x => (edge x s).held.length) hi hin x,
    sum_filter_key_le (bound := fun x => (edge x s).credits) ho hout x⟩

/-! ### FIRING_START -/

section
variable {m : Nat} {allow : Bool} {s : State}

theorem firingStart_idle (h : ¬ (fireFree m s = true ∧ fireReady m s = true ∧ writerBusy m s = false ∧ (s.crown.level = 3 → allow = true))) :
    firingStart m allow s = s := by
  refine if_pos (by_contra fun hn => h ?_)
  simp only [not_or, not_and, Bool.not_eq_true', Bool.not_eq_false, Bool.not_eq_true] at hn
  obtain ⟨hf, hr, hw, hl⟩ := hn
  exact ⟨hf, hr, hw, hl⟩

variable (h : fireFree m s = true ∧ fireReady m s = true ∧ writerBusy m s = false ∧ (s.crown.level = 3 → allow = true))
include h

theorem firingStart_starts : firingStart m allow s = match t3Down m s with
    | none => takeFiring m s
    | some p => settle (loseT3 (readersOf m s) (voidFiring true m 1 (0x48 + p) 0xFFFF 0 (latch (srcHost p 2) 0 (takeFiring m s)))) := by
  obtain ⟨hf, hr, hw, hl⟩ := h
  unfold firingStart
  refine (if_neg (by rintro (h | h | h | ⟨h3, h⟩) <;> simp_all)).trans ?_
  cases t3Down m s <;> rfl

end

/-! ### A firing cut short (R59, R112) -/

/-- Voiding the firing of a mitten: its tickets, its edges, and all that stays. -/
theorem voidFiring_firing {m : Nat} {f : Firing} {s : State} (hf : (mitten m s).firing = some f) (cause part quad detail : Nat) :
    ∃ ks e w es, voidFiring true m cause part quad detail s = { s with
        fab := { s.fab with mittens := (modMitten m (fun x => { x with firing := none }) s).fab.mittens, edges := es }
        led := { s.led with tickets := ks, lastEnd := e }, isl := { s.isl with watch := w } }
      ∧ (∀ x, edge x (voidFiring true m cause part quad detail s) = edge x (freeFiring f s))
      ∧ ∀ k ∈ s.led.tickets, ticketOpen k = true → (∃ g ∈ f.tags, g.stream = k.stream ∧ g.seq = k.seq) →
          k.voided cause part quad detail (stamp (liveDie (homeOf k.stream s) s) s) ∈ (voidFiring true m cause part quad detail s).led.tickets := by
  have htags : firingTags m s = f.tags := by
    unfold firingTags
    rw [hf]
  obtain ⟨hvoid, -, ks, e, w, hv⟩ := voidWhere_spec
    (fun k => f.tags.any (fun g => g.stream == k.stream && g.seq == k.seq)) cause part quad detail s
  have hv' : voidTags f.tags cause part quad detail s = _ := hv
  have hm : (mitten m (voidTags f.tags cause part quad detail s)).firing = some f := by
    rw [hv']
    exact hf
  obtain ⟨es, hes⟩ := freeFiring_eq f (modMitten m (fun x => { x with firing := none }) (voidTags f.tags cause part quad detail s))
  have heq : voidFiring true m cause part quad detail s
      = freeFiring f (modMitten m (fun x => { x with firing := none }) (voidTags f.tags cause part quad detail s)) := by
    unfold voidFiring abandonFiring
    rw [htags, hm]
    rfl
  rw [heq]
  refine ⟨ks, e, w, es, ?_, fun x => ?_, fun k hk ho hg => ?_⟩
  · rw [hes, hv']
    rfl
  · rw [edge_freeFiring, edge_freeFiring, edge_modMitten, hv']
    rfl
  · obtain ⟨g, hg, h1, h2⟩ := hg
    rw [hes]
    exact hvoid k hk ho (List.any_eq_true.2 ⟨g, hg, by simp [h1, h2]⟩)

/-! ### Lost pages (R168) -/

/-- What a reader's step loses: its pages of the third tier. -/
def readerLoses (s : State) (r : GOp × Nat) : SceneMem → SceneMem :=
  losePages (fun g => g.tier == 3 && ((readPages r.1 (scene r.2 s)).map (·.seq)).contains g.seq)

theorem loseT3_eq (rs : List (GOp × Nat)) (s : State) : loseT3 rs s = rs.foldl (fun a r => modScene r.2 (readerLoses s r) a) s := rfl

/-- No page of a set is left valid. -/
def noneValid (p : ScenePage → Bool) (x : SceneMem) : Prop := ∀ g ∈ x.pages, g.st = .valid → p g = false

theorem noneValid_losePages (p : ScenePage → Bool) (x : SceneMem) : noneValid p (losePages p x) := by
  intro g hg hv
  obtain ⟨g', hg', rfl⟩ := List.mem_map.1 hg
  split at hv
  · cases hv
  · next hn =>
    rw [if_neg hn]
    simpa [hv] using hn

theorem noneValid_losePages_of {p q : ScenePage → Bool} {x : SceneMem} (h : noneValid p x) : noneValid p (losePages q x) := by
  intro g hg hv
  obtain ⟨g', hg', rfl⟩ := List.mem_map.1 hg
  split at hv
  · cases hv
  · next hn =>
    rw [if_neg hn]
    exact h g' hg' hv

theorem noneValid_foldl {s : State} {p : ScenePage → Bool} (rs : List (GOp × Nat)) {x : SceneMem} (h : noneValid p x) :
    noneValid p (rs.foldl (fun y r => readerLoses s r y) x) :=
  List.foldlRecOn (motive := noneValid p) rs _ h fun _ hy _ _ => noneValid_losePages_of hy

/-- Every reader's pages of the third tier are lost, whatever the others lose. -/
theorem noneValid_foldl_mem {s : State} {rs : List (GOp × Nat)} {r : GOp × Nat} (hr : r ∈ rs) (x : SceneMem) :
    noneValid (fun g => g.tier == 3 && ((readPages r.1 (scene r.2 s)).map (·.seq)).contains g.seq)
      (rs.foldl (fun y r => readerLoses s r y) x) := by
  obtain ⟨a, b, rfl⟩ := List.append_of_mem hr
  rw [List.foldl_append, List.foldl_cons]
  exact noneValid_foldl b (noneValid_losePages _ _)

/-- After the loss no reader finds a valid page of the third tier among those it reads. -/
theorem loseT3_spec (rs : List (GOp × Nat)) (s : State) :
    (∀ r ∈ rs, ∀ g ∈ (scene r.2 (loseT3 rs s)).pages, g.st = .valid → g.tier = 3 → g.seq ∉ (readPages r.1 (scene r.2 s)).map (·.seq))
    ∧ (∀ n, (∀ r ∈ rs, r.2 ≠ n) → scene n (loseT3 rs s) = scene n s) ∧ ∃ ms, loseT3 rs s = { s with scene := ms } := by
  have hscene : ∀ n, scene n (loseT3 rs s) = (rs.filter (fun r => r.2 == n)).foldl (fun y r => readerLoses s r y) (scene n s) :=
    fun n => scene_foldl_modScene (fun r : GOp × Nat => r.2) (readerLoses s) rs s n
  refine ⟨fun r hr g hg hv ht hs => ?_, fun n hn => ?_, foldl_modScene_eq (fun r : GOp × Nat => r.2) (readerLoses s) rs s⟩
  · rw [hscene] at hg
    have h := noneValid_foldl_mem (s := s) (List.mem_filter.2 ⟨hr, by simp⟩ : r ∈ rs.filter (fun r' => r'.2 == r.2)) (scene r.2 s) g hg hv
    simp [ht, List.contains_eq_mem, hs] at h
  · rw [hscene, List.filter_eq_nil_iff.2 (fun r hr => by simpa using hn r hr)]
    rfl

/-! ### What a firing takes, and what it gives back when it is cut short (R58, R59, R112) -/

/-- The tokens that the next firing of a mitten takes of its input edges. -/
def firingTokens (m : Nat) (s : State) : List (Nat × List Token) :=
  (inEdges m s).map (fun e => (e.id, (edge e.id s).held.take e.consume))

/-- The tokens that a firing takes of an edge, and the credits that it takes for one. -/
def tokensTaken (m : Nat) (s : State) (x : Nat) : Nat := (((inEdges m s).filter (fun e => e.id == x)).map (·.consume)).sum
def creditsTaken (m : Nat) (s : State) (x : Nat) : Nat := (((outEdges m s).filter (fun e => e.id == x)).map (·.produce)).sum

theorem sum_firingTokens {m : Nat} {s : State} (h : fireReady m s = true) (x : Nat) :
    (((firingTokens m s).filter (fun i => i.1 == x)).map (·.2.length)).sum = tokensTaken m s x := by
  obtain ⟨hin, -⟩ := fireReady_iff.1 h
  unfold firingTokens tokensTaken
  rw [List.filter_map, List.map_map]
  refine congrArg List.sum (List.map_congr_left fun e he => ?_)
  simpa using hin e (List.mem_filter.1 he).1

theorem sum_firingOuts (m : Nat) (s : State) (x : Nat) :
    ((((outEdges m s).map (fun e => (e.id, e.produce))).filter (fun o => o.1 == x)).map (·.2)).sum = creditsTaken m s x := by
  unfold creditsTaken
  rw [List.filter_map, List.map_map]
  rfl

/-- A firing cut short frees its tokens' buffers, each with a credit, and has its own credits again. -/
theorem edge_cut {e fired : Edge} {t g t' g' : Nat}
    (hf : fired = { e with held := e.held.drop t, inUse := e.inUse + t, credits := e.credits - g, taken := e.taken + g })
    (ht : t' = t) (hg : g' = g) (hle : g ≤ e.credits) :
    ({ fired with
        inUse := fired.inUse - t', creditFlight := fired.creditFlight + t'
        taken := fired.taken - g', credits := fired.credits + g' } : Edge)
      = { e with held := e.held.drop t, creditFlight := e.creditFlight + t } := by
  subst hf ht hg
  dsimp only
  rw [Nat.add_sub_cancel, Nat.add_sub_cancel, Nat.sub_add_cancel hle]

theorem firingStart_cut {m p : Nat} {s : State} (hr : fireReady m s = true) :
    let u := settle (loseT3 (readersOf m s) (voidFiring true m 1 (0x48 + p) 0xFFFF 0 (latch (srcHost p 2) 0 (takeFiring m s))))
    mitten m u = { mitten m s with firing := none, half := wantsHalf m s } ∧ (∀ j, j ≠ m → mitten j u = mitten j s)
    ∧ (fsrc (srcHost p 2) u).latched = true ∧ (∀ j, j ≠ srcHost p 2 → fsrc j u = fsrc j s)
    ∧ (((inEdges m s).map (·.id)).Nodup → ((outEdges m s).map (·.id)).Nodup → ∀ x, edge x u = { edge x s with
        held := (edge x s).held.drop (tokensTaken m s x), creditFlight := (edge x s).creditFlight + tokensTaken m s x })
    ∧ (∀ k ∈ s.led.tickets, ticketOpen k = true →
        (∃ i ∈ firingTokens m s, ∃ y ∈ i.2, ∃ g ∈ y.tags, g.stream = k.stream ∧ g.seq = k.seq) →
        k.voided 1 (0x48 + p) 0xFFFF 0 (stamp (liveDie (homeOf k.stream s) s) s) ∈ u.led.tickets)
    ∧ (∀ r ∈ readersOf m s, ∀ g ∈ (scene r.2 u).pages, g.st = .valid → g.tier = 3 →
        g.seq ∉ (readPages r.1 (scene r.2 s)).map (·.seq))
    ∧ (∀ n, (∀ r ∈ readersOf m s, r.2 ≠ n) → scene n u = scene n s)
    ∧ u = { s with
        fab := { s.fab with mittens := u.fab.mittens, edges := u.fab.edges }, scene := u.scene
        fault := { s.fault with src := u.fault.src }, led := { s.led with tickets := u.led.tickets, lastEnd := u.led.lastEnd }
        isl := { s.isl with watch := u.isl.watch }, power := { s.power with st := u.power.st, prev := u.power.prev } } := by
  intro u
  obtain ⟨f, hm, hmj, hinputs, houts, -, -, htags, -, -, -, hedge, hscene, hother, hframe⟩ := takeFiring_spec m s
  have hul : u = settle (loseT3 (readersOf m s)
    (voidFiring true m 1 (0x48 + p) 0xFFFF 0 (latch (srcHost p 2) 0 (takeFiring m s)))) := rfl
  clear_value u
  generalize hw : latch (srcHost p 2) 0 (takeFiring m s) = w at hul
  have hwm : mitten m w = { mitten m s with firing := some f, half := wantsHalf m s } := by rw [← hw]; exact hm
  obtain ⟨ks, e, wt, es, hv, hve, hvoid⟩ := voidFiring_firing (congrArg Mitten.firing hwm) 1 (0x48 + p) 0xFFFF 0
  generalize voidFiring true m 1 (0x48 + p) 0xFFFF 0 w = v at hul hv hve hvoid
  obtain ⟨hpages, hrest, ms, hl⟩ := loseT3_spec (readersOf m s) v
  have hvs : ∀ n, scene n v = scene n (takeFiring m s) := fun n => by rw [hv, ← hw]; rfl
  have hread : ∀ r : GOp × Nat, readPages r.1 (scene r.2 v) = readPages r.1 (scene r.2 s) := fun r => by
    rw [hvs, hscene]
    rfl
  have hvm : ∀ j, mitten j v = mitten j (modMitten m (fun x => { x with firing := none }) w) := fun j => by rw [hv]; rfl
  refine ⟨?_, fun j hj => ?_, ?_, fun j hj => ?_, fun hi ho x => ?_, fun k hk hopen hg => ?_, fun r hrr g hg hval ht => ?_, fun n hn => ?_, ?_⟩
  · rw [hul, mitten_settle, hl]
    show mitten m v = _
    rw [hvm, mitten_modMitten_same, hwm]
  · rw [hul, mitten_settle, hl]
    show mitten j v = _
    rw [hvm, mitten_modMitten_ne _ _ hj, ← hw]
    exact hmj j hj
  · rw [hul, fsrc_settle, hl, hv, ← hw]
    exact fsrc_latch_latched ..
  · rw [hul, fsrc_settle, hl, hv, ← hw]
    refine (fsrc_latch_ne 0 (takeFiring m s) hj).trans ?_
    rw [hframe]
    rfl
  · obtain ⟨ht, hc⟩ := fireReady_bounds hr hi ho x
    rw [hul, edge_settle, hl]
    show edge x v = _
    have hwx : edge x w = edge x (takeFiring m s) := by rw [← hw]; rfl
    rw [hve, edge_freeFiring, hinputs, houts]
    exact edge_cut (hwx.trans (hedge x)) (sum_firingTokens hr x) (sum_firingOuts m s x) hc
  · have hin : k ∈ w.led.tickets := by rw [← hw, latch_led, hframe]; exact hk
    have hst : stamp (liveDie (homeOf k.stream w) w) w = stamp (liveDie (homeOf k.stream s) s) s := by rw [← hw, hframe]; rfl
    obtain ⟨i, hi, y, hy, g, hg, hgk⟩ := hg
    rw [hul, settle_led, hl, ← hst]
    exact hvoid k hin hopen ⟨g, (htags g).2 ⟨i, hi, y, hy, hg⟩, hgk⟩
  · rw [← hread]
    rw [hul, scene_settle] at hg
    exact hpages r hrr g hg hval ht
  · rw [hul, scene_settle, hrest n hn, hvs]
    exact hother n hn
  · obtain ⟨a, b, hs⟩ := settle_eq (loseT3 (readersOf m s) v)
    rw [hul, hs, hl, hv, ← hw, hframe]
    rfl

end Sys2Proof.Machine

/-! SUPPORT. The end of a firing (R58, R59, R74, R75, R168, R182, R206): its tokens, its credits, what its operators commit,
and the events that gloves and tickets count. -/

namespace Sys2Proof.Machine

/-! ### The operators of a firing -/

theorem mem_graphOrder {im : Image} {ops : List GOp} {n : Nat} {done : List GOp} {o : GOp} (h : o ∈ graphOrder im ops n done) :
    o ∈ done ∨ o ∈ ops := by
  induction n generalizing done with
  | zero => exact .inl h
  | succ n ih =>
    unfold graphOrder at h
    dsimp only at h
    split at h
    · exact .inl h
    · next p hp =>
      rcases ih h with h | h
      · rcases List.mem_append.1 h with h | h
        · exact .inl h
        · exact .inr (List.mem_singleton.1 h ▸ List.mem_of_find?_eq_some hp)
      · exact .inr h

/-- What a firing evaluates are the operators of its mitten. -/
theorem evalUnit_op {m : Nat} {f : Firing} {s : State} {v : Evaluated} (h : v ∈ evalUnit m f s) : v.op ∈ unitOf m s := by
  have hall : ∀ v ∈ evalUnit m f s, v.op ∈ unitOf m s := by
    unfold evalUnit
    refine List.foldlRecOn (motive := fun a : List Evaluated × List (Nat × List Byte) => ∀ v ∈ a.1, v.op ∈ unitOf m s)
      _ _ (fun v hv => by simp at hv) fun a ha o ho v hv => ?_
    rcases List.mem_append.1 hv with hv | hv
    · exact ha v hv
    · rw [List.mem_singleton.1 hv]
      rcases mem_graphOrder ho with h | h
      · simp at h
      · exact h
  exact hall v h

/-! ### State tensors (R182) -/

theorem stateOf_setStateTensor (id : Nat) (bs : List Byte) (s : State) : stateOf id (setStateTensor id bs s) = bs := by
  unfold stateOf setStateTensor
  have hnone : (s.fab.tensors.filter (fun e => e.1 != id)).find? (fun e => e.1 == id) = none := by
    rw [List.find?_eq_none]
    intro e he
    simpa using (List.mem_filter.1 he).2
  dsimp only
  rw [List.find?_append, hnone]
  simp

/-- The one state tensor that an operator writes takes the elements of its result. -/
theorem stateOf_commitTensors {m id : Nat} {v : Evaluated} {bs : List Byte} {x : GTen} {s : State} (hop : v.op ∈ unitOf m s)
    (ho : v.op.outs = [id]) (hr : v.res.outs = [bs]) (hx : (curImage s).tensor id = some x) (h4 : x.role = 4) (hmx : isMx x.fmt = false) :
    stateOf id (commitTensors m v s) = bs.take (elemBytes x) := by
  have hw : (writesStates m s).contains id = true := by
    rw [List.contains_iff_mem, writesStates, List.mem_filter]
    exact ⟨List.mem_flatMap.2 ⟨v.op, hop, by rw [ho]; exact List.mem_singleton_self id⟩, by rw [hx]; simp [h4]⟩
  unfold commitTensors
  rw [ho, hr]
  simp only [List.zip_cons_cons, List.zip_nil_right, List.foldl_cons, List.foldl_nil, hx, hw, hmx, if_true, Bool.false_eq_true, if_false]
  exact stateOf_setStateTensor ..

/-! ### Events of gloves (R74, R75) -/

theorem length_addShares {a b : Shares} (ha : a.length = 1) (hb : b.length = 1) : (addShares a b).length = 1 := by
  simp [addShares, ha, hb]

theorem length_unitShares (n : Nat) (items : List (Nat × Nat)) : (unitShares n items).length = n := by
  simp [unitShares]

/-- The events of a firing on a single glove are one share. -/
theorem length_eventShares_one {k m : Nat} {evs : List Evaluated} {s : State} (h : (mitten m s).every.length = 1) :
    (eventShares k m evs s).length = 1 := by
  unfold eventShares
  dsimp only
  rw [h]
  split
  · rw [if_neg (by omega)]
    exact length_unitShares 1 _
  · split
    · exact List.foldlRecOn (motive := fun a : Shares => a.length = 1) _ _ rfl
        fun a ha l _ => length_addShares ha (length_unitShares 1 _)
    · exact List.foldlRecOn (motive := fun a : Shares => a.length = 1) _ _ rfl fun a ha v _ => length_addShares ha rfl

theorem sumEvents_one (e : Nat × Nat) : sumEvents [e] = e := by simp [sumEvents]

theorem glove_countEvents_other {g : Nat} {gs : List Nat} (hg : g ∉ gs) (es : Shares) (s : State) :
    glove g (countEvents gs es s) = glove g s := by
  refine List.foldlRecOn (motive := fun a : Tbl Glove => tget {} g a = glove g s) (gs.zip es)
    (fun a e => tmod {} e.1 (countGlove s.time.now e.2) a) rfl fun a ha e he => ?_
  have hne : g ≠ e.1 := fun h => hg (h ▸ (List.of_mem_zip he).1)
  exact (tget_tmod_ne {} (countGlove s.time.now e.2) a hne).trans ha

theorem glove_countEvents_one (g : Nat) (e : Nat × Nat) (s : State) :
    glove g (countEvents [g] [e] s) = countGlove s.time.now e (glove g s) :=
  tget_tmod_same ({} : Glove) g (countGlove s.time.now e) s.fab.gloves

/-! ### FIRING_COMPLETE -/

section
variable {m : Nat} {f : Firing} {s : State}

theorem firingComplete_idle (h : (mitten m s).firing = none ∨ fireMayEnd m s = false) : firingComplete m s = s := by
  unfold firingComplete
  split
  · rfl
  · next g hg =>
    rcases h with h | h
    · rw [h] at hg
      cases hg
    · exact if_pos (by rw [h]; rfl)

/-- The free values that the end of a firing draws. -/
def drawFiring (m : Nat) (f : Firing) (s : State) : State :=
  { s with fab := { s.fab with fresh := s.fab.fresh + (evalUnit m f s).length + (mitten m s).every.length + 1 } }

/-- What the gloves of a firing count. -/
def firingShares (m : Nat) (f : Firing) (s : State) : Shares :=
  eventShares (s.fab.fresh + (evalUnit m f s).length) m (evalUnit m f s) s

/-- The output edges of a firing have its tokens. -/
def sendFiring (m : Nat) (f : Firing) (s a : State) : State :=
  (outEdges m s).foldl (fun a e => modEdge e.id (fun x => { x with
    taken := x.taken - e.produce
    flight := x.flight ++ outTokens e (evalUnit m f s) f (((mitten m s).gloves.headD 0) / 4) s }) a) a

/-- The input edges of a firing have their buffers free, each with a credit. -/
def releaseFiring (f : Firing) (a : State) : State :=
  f.inputs.foldl (fun a i => modEdge i.1 (fun x => { x with
    inUse := x.inUse - i.2.length, creditFlight := x.creditFlight + i.2.length }) a) a

/-- The mitten after its firing. -/
def Mitten.fired (now : Nat) (x : Mitten) : Mitten := { x with firing := none, lastFire := now, fires := x.fires + 1 }

/-- The fabric and the memories after the end of a firing, before its events are counted. -/
def endFiring (m : Nat) (f : Firing) (s : State) : State :=
  modMitten m (Mitten.fired s.time.now)
    (releaseFiring f (sendFiring m f s ((evalUnit m f s).foldl (commitOp m) (drawFiring m f s))))

theorem firingComplete_ends (hf : (mitten m s).firing = some f) (hend : fireMayEnd m s = true) : firingComplete m s =
    markTags f.degraded f.stale f.tags
      (countTickets f.tags (sumEvents (firingShares m f s)).1 (sumEvents (firingShares m f s)).2 (firingFailure (evalUnit m f s))
        (countEvents (mitten m s).every (firingShares m f s) (endFiring m f s))) := by
  unfold firingComplete
  rw [hf]
  exact if_neg (by rw [hend]; exact Bool.false_ne_true)

/-- What the operators of a firing commit. -/
def commitFiring (m : Nat) (f : Firing) (s : State) : State := (evalUnit m f s).foldl (commitOp m) (drawFiring m f s)

/-- After the commits the end of a firing changes mittens and edges only. -/
theorem endFiring_commits : ∃ es, endFiring m f s = { commitFiring m f s with fab := { (commitFiring m f s).fab with
    mittens := (modMitten m (Mitten.fired s.time.now) (commitFiring m f s)).fab.mittens, edges := es } } := by
  obtain ⟨e1, h1⟩ := foldl_modEdge_eq GEdge.id (fun (e : GEdge) x => { x with
    taken := x.taken - e.produce
    flight := x.flight ++ outTokens e (evalUnit m f s) f (((mitten m s).gloves.headD 0) / 4) s }) (outEdges m s) (commitFiring m f s)
  have h1 : sendFiring m f s (commitFiring m f s) = _ := h1
  obtain ⟨e2, h2⟩ := foldl_modEdge_eq (fun i : Nat × List Token => i.1) (fun i x => { x with
    inUse := x.inUse - i.2.length, creditFlight := x.creditFlight + i.2.length }) f.inputs (sendFiring m f s (commitFiring m f s))
  have h2 : releaseFiring f (sendFiring m f s (commitFiring m f s)) = _ := h2
  refine ⟨e2, ?_⟩
  show modMitten m _ (releaseFiring f (sendFiring m f s (commitFiring m f s))) = _
  rw [h2, h1]
  rfl

/-- The end of a firing changes the fabric, the scene memories and the channels only. -/
theorem endFiring_eq : ∃ es ts ms d, endFiring m f s = { s with
    fab := { s.fab with
      mittens := (modMitten m (Mitten.fired s.time.now) s).fab.mittens, edges := es, tensors := ts
      fresh := s.fab.fresh + (evalUnit m f s).length + (mitten m s).every.length + 1 }
    scene := ms, ddr := d } := by
  obtain ⟨es, he⟩ := endFiring_commits (m := m) (f := f) (s := s)
  obtain ⟨⟨ts, ms, d, hc⟩, -⟩ := commits_spec m (evalUnit m f s) (drawFiring m f s)
  have hc : commitFiring m f s = _ := hc
  refine ⟨es, ts, ms, d, ?_⟩
  rw [he, hc]
  rfl

/-- The tokens that a firing sends on an edge. -/
def sentTokens (m : Nat) (f : Firing) (s : State) (x : Nat) : List Token :=
  ((outEdges m s).filter (fun e => e.id == x)).flatMap
    (fun e => outTokens e (evalUnit m f s) f (((mitten m s).gloves.headD 0) / 4) s)

theorem length_sentTokens (x : Nat) : (sentTokens m f s x).length = creditsTaken m s x := by
  unfold sentTokens creditsTaken
  rw [List.length_flatMap]
  exact congrArg List.sum (List.map_congr_left fun e _ => by simp [outTokens])

theorem mem_sentTokens {x : Nat} {k : Token} (h : k ∈ sentTokens m f s x) : k.tags = f.tags ∧ k.quad = (mitten m s).gloves.headD 0 / 4 := by
  obtain ⟨e, -, hk⟩ := List.mem_flatMap.1 h
  obtain ⟨i, -, rfl⟩ := List.mem_map.1 hk
  exact ⟨rfl, rfl⟩

/-- The one token of an edge carries what its operator computed. -/
theorem sentTokens_one {x : Nat} {o : GEdge} {v : Evaluated} {bs : List Byte} (ho : (outEdges m s).filter (fun e => e.id == x) = [o])
    (hp : o.produce = 1) (hv : (evalUnit m f s).find? (fun v => v.op.id == o.src) = some v) (hb : v.res.outs[o.srcPort]? = some bs) :
    (sentTokens m f s x).map (·.data) = [bs] := by
  unfold sentTokens outTokens
  rw [ho]
  simp only [List.flatMap_cons, List.flatMap_nil, List.append_nil, hp, hv]
  simp [hb]

/-- The buffers that a firing frees on an edge. -/
def freedBuffers (f : Firing) (x : Nat) : Nat := ((f.inputs.filter (fun i => i.1 == x)).map (·.2.length)).sum

theorem edge_endFiring (x : Nat) : edge x (endFiring m f s) = { edge x s with
    taken := (edge x s).taken - creditsTaken m s x, flight := (edge x s).flight ++ sentTokens m f s x
    inUse := (edge x s).inUse - freedBuffers f x, creditFlight := (edge x s).creditFlight + freedBuffers f x } := by
  obtain ⟨⟨ts, ms, d, hc⟩, -⟩ := commits_spec m (evalUnit m f s) (drawFiring m f s)
  have hcommit : edge x ((evalUnit m f s).foldl (commitOp m) (drawFiring m f s)) = edge x s := by rw [hc]; rfl
  have hsend : edge x (sendFiring m f s ((evalUnit m f s).foldl (commitOp m) (drawFiring m f s))) = { edge x s with
      taken := (edge x s).taken - creditsTaken m s x, flight := (edge x s).flight ++ sentTokens m f s x } :=
    (edge_foldl_modEdge GEdge.id (fun (e : GEdge) y => { y with
      taken := y.taken - e.produce
      flight := y.flight ++ outTokens e (evalUnit m f s) f (((mitten m s).gloves.headD 0) / 4) s }) (outEdges m s) _ x).trans
      (by rw [hcommit, foldl_sends]; rfl)
  have hrel : edge x (releaseFiring f (sendFiring m f s ((evalUnit m f s).foldl (commitOp m) (drawFiring m f s)))) = _ :=
    edge_foldl_modEdge (fun i : Nat × List Token => i.1) (fun i y => { y with
      inUse := y.inUse - i.2.length, creditFlight := y.creditFlight + i.2.length }) f.inputs _ x
  unfold endFiring
  rw [edge_modMitten, hrel, hsend, foldl_frees]
  rfl

/-- Balance once a firing has sent its tokens and freed its buffers. -/
theorem balanced_sent {e : Edge} {ks : List Token} {fr : Nat} (hg : ks.length ≤ e.taken) (hf : fr ≤ e.inUse) (hb : Balanced e) :
    Balanced { e with
      taken := e.taken - ks.length, flight := e.flight ++ ks, inUse := e.inUse - fr, creditFlight := e.creditFlight + fr } := by
  unfold Balanced at hb ⊢
  simp only [List.length_append]
  omega

/-! ### The tickets of a firing (R74, R75, R206) -/

/-- A ticket that a firing serves: open, and named by one of its tags. -/
def servedBy (f : Firing) (k : Ticket) : Prop := ticketOpen k = true ∧ ∃ g ∈ f.tags, g.stream = k.stream ∧ g.seq = k.seq

theorem servedBy_iff {k : Ticket} : (ticketOpen k = true ∧ (f.tags.any (fun g => g.stream == k.stream && g.seq == k.seq)) = true)
    ↔ servedBy f k := by
  simp [servedBy, List.any_eq_true]

/-- What a firing adds to a ticket that it serves. -/
def Ticket.firedBy (e : Nat × Nat) (failed : Option (Nat × Nat)) (f : Firing) (k : Ticket) : Ticket :=
  { k with
    numSat := satAdd 16 k.numSat e.1, numNan := satAdd 16 k.numNan e.2, failed := if k.failed.isSome then k.failed else failed
    degraded := k.degraded || f.degraded, stale := k.stale || f.stale }

theorem tickets_counted (e : Nat × Nat) (failed : Option (Nat × Nat)) (a : State) :
    ∃ ks, markTags f.degraded f.stale f.tags (countTickets f.tags e.1 e.2 failed a) = { a with led := { a.led with tickets := ks } }
      ∧ ks.length = a.led.tickets.length
      ∧ ∀ (i : Nat) (k : Ticket), a.led.tickets[i]? = some k →
          (¬ servedBy f k → ks[i]? = some k) ∧ (servedBy f k → ks[i]? = some (k.firedBy e failed f)) := by
  refine ⟨_, rfl, by simp [countTickets, mapTickets, setTickets], fun i k hk => ?_⟩
  simp only [countTickets, mapTickets, setTickets, List.getElem?_map, hk, Option.map_some, Option.some.injEq]
  constructor
  · intro hn
    have hn := fun h => hn (servedBy_iff.1 h)
    rw [if_neg hn, if_neg hn]
  · intro hs
    have hs := servedBy_iff.2 hs
    rw [if_pos hs]
    exact if_pos hs

/-! ### All that a firing's end leaves -/

/-- The state tensors, the scene memories and the channels after the end of a firing. -/
theorem endFiring_memory :
    (∀ id, (∀ v ∈ evalUnit m f s, id ∉ v.op.outs ∧ ∀ y ∈ v.op.outs, ∀ z, (curImage s).tensor y = some z → z.scaleT ≠ id) →
      stateOf id (endFiring m f s) = stateOf id s)
    ∧ (∀ v id bs x, evalUnit m f s = [v] → v.op.outs = [id] → v.res.outs = [bs] → (curImage s).tensor id = some x → x.role = 4 →
      isMx x.fmt = false → stateOf id (endFiring m f s) = bs.take (elemBytes x))
    ∧ ((∀ v ∈ evalUnit m f s, v.op.opcode ≠ 0x0201 ∧ v.op.opcode ≠ 0x0202) → (endFiring m f s).scene = s.scene)
    ∧ ((∀ v ∈ evalUnit m f s, v.op.opcode ≠ 0x0202) → (endFiring m f s).ddr = s.ddr)
    ∧ DeviceKept (fun a => ∃ v ∈ evalUnit m f s, v.op.opcode = 0x0202 ∧ (committedScene v s).tableAt ≤ a
        ∧ a < (committedScene v s).tableAt + (tableBytes (committedScene v s)).length) s (endFiring m f s) := by
  obtain ⟨es, he⟩ := endFiring_commits (m := m) (f := f) (s := s)
  obtain ⟨-, hstate, hscene, hddr, hkept⟩ := commits_spec m (evalUnit m f s) (drawFiring m f s)
  have hst : ∀ id, stateOf id (endFiring m f s) = stateOf id (commitFiring m f s) := fun id => by rw [he]; rfl
  refine ⟨fun id hid => (hst id).trans (hstate id hid), fun v id bs x hv ho hr hx h4 hmx => ?_, fun h => ?_, fun h => ?_, ?_⟩
  · have hop : v.op ∈ unitOf m s := evalUnit_op (f := f) (by rw [hv]; exact List.mem_singleton_self v)
    obtain ⟨-, -, hcommit, -⟩ := commitOp_spec m (drawFiring m f s) v
    rw [hst, commitFiring, hv]
    exact (hcommit id).trans (stateOf_commitTensors (s := drawFiring m f s) hop ho hr hx h4 hmx)
  · rw [he]
    exact hscene h
  · rw [he]
    exact hddr h
  · exact hkept.of_ddr rfl (by rw [he]; rfl)

theorem mitten_endFiring (j : Nat) :
    mitten j (endFiring m f s) = if j = m then (mitten m s).fired s.time.now else mitten j s := by
  obtain ⟨es, ts, ms, d, he⟩ := endFiring_eq (m := m) (f := f) (s := s)
  rw [he]
  exact mitten_modMitten j m (Mitten.fired s.time.now) s

theorem glove_endFiring (g : Nat) : glove g (endFiring m f s) = glove g s := by
  obtain ⟨es, ts, ms, d, he⟩ := endFiring_eq (m := m) (f := f) (s := s)
  rw [he]
  rfl

/-- The state after the end of a firing, up to the gloves' and the tickets' counts. -/
theorem firingComplete_counts (hf : (mitten m s).firing = some f) (hend : fireMayEnd m s = true) :
    ∃ ks, firingComplete m s = { endFiring m f s with
        fab := { (endFiring m f s).fab with gloves := (countEvents (mitten m s).every (firingShares m f s) (endFiring m f s)).fab.gloves }
        led := { s.led with tickets := ks } }
      ∧ ks.length = s.led.tickets.length
      ∧ ∀ (i : Nat) (k : Ticket), s.led.tickets[i]? = some k →
          (¬ servedBy f k → ks[i]? = some k)
          ∧ (servedBy f k → ks[i]? = some (k.firedBy (sumEvents (firingShares m f s)) (firingFailure (evalUnit m f s)) f)) := by
  obtain ⟨es, ts, ms, d, he⟩ := endFiring_eq (m := m) (f := f) (s := s)
  obtain ⟨ks, hk, hlen, hks⟩ := tickets_counted (f := f) (sumEvents (firingShares m f s)) (firingFailure (evalUnit m f s))
    (countEvents (mitten m s).every (firingShares m f s) (endFiring m f s))
  have hled : (countEvents (mitten m s).every (firingShares m f s) (endFiring m f s)).led = s.led := by
    show (endFiring m f s).led = s.led
    rw [he]
  rw [hled] at hlen hks
  refine ⟨ks, ?_, hlen, hks⟩
  rw [firingComplete_ends hf hend, hk, hled]
  rfl

end

end Sys2Proof.Machine

/-! SUPPORT. Tokens and credits that arrive (R57, R182, R205, R206, R264, R266, R387). -/

namespace Sys2Proof.Machine

/-! ### TOKEN_ARRIVE by endpoint -/

theorem gEdgeOf_id {e : Nat} {g : GEdge} {s : State} (h : gEdgeOf e s = some g) : g.id = e := by
  obtain ⟨t, ht, rfl⟩ := Option.map_eq_some_iff.1 h
  show t.id = e
  simpa using List.find?_some ht

theorem tokenArrive_idle {e : Nat} {s : State} (h : gEdgeOf e s = none ∨ arriving e s = none) : tokenArrive e s = s := by
  unfold tokenArrive
  rcases h with h | h
  · rw [h]
  · rw [h]
    cases gEdgeOf e s <;> rfl

section
variable {e : Nat} {g : GEdge} {k : Token} {s : State} (hg : gEdgeOf e s = some g) (hk : arriving e s = some k)
include hg hk

theorem tokenArrive_other (h0 : g.dstKind ≠ 0) (h1 : g.dstKind ≠ 1) (h4 : g.dstKind ≠ 4) : tokenArrive e s = s := by
  unfold tokenArrive
  rw [hg, hk]
  dsimp only
  split
  · next h => exact absurd h h0
  · next h => exact absurd h h1
  · next h => exact absurd h h4
  · rfl

theorem tokenArrive_operator (h0 : g.dstKind = 0) :
    tokenArrive e s = modEdge e (fun x => { x with flight := x.flight.drop 1, held := x.held ++ [k] }) s := by
  unfold tokenArrive
  simp only [hg, hk, h0]

theorem tokenArrive_stream (h1 : g.dstKind = 1) : tokenArrive e s = resultToken g k s := by
  unfold tokenArrive
  simp only [hg, hk, h1]

theorem tokenArrive_planner (h4 : g.dstKind = 4) : tokenArrive e s = planToken g k s := by
  unfold tokenArrive
  simp only [hg, hk, h4]

end

/-- A token that arrives is one of those in flight. -/
theorem arriving_pos {e : Nat} {k : Token} {s : State} (h : arriving e s = some k) : 0 < (edge e s).flight.length := by
  unfold arriving at h
  cases hf : (edge e s).flight with
  | nil => rw [hf] at h; cases h
  | cons a r => exact Nat.succ_pos _

theorem balanced_held {x : Edge} (h : 0 < x.flight.length) (k : Token) (hb : Balanced x) :
    Balanced { x with flight := x.flight.drop 1, held := x.held ++ [k] } := by
  unfold Balanced at hb ⊢
  simp only [List.length_drop, List.length_append, List.length_singleton]
  omega

theorem balanced_planned {x : Edge} (h : 0 < x.flight.length) (hb : Balanced x) :
    Balanced { x with flight := x.flight.drop 1, inUse := x.inUse + 1 } := by
  unfold Balanced at hb ⊢
  simp only [List.length_drop]
  omega

/-! ### Results (R205, R206, R387) -/

theorem mem_resultDescs {st sub : Nat} {k : Token} {s : State} {q : Ticket} {d : Desc} (h : (q, d) ∈ resultDescs st sub k s) :
    q ∈ s.led.tickets ∧ ticketOpen q = true ∧ q.stream = st := by
  obtain ⟨y, hy, hd⟩ := List.mem_filterMap.1 h
  obtain ⟨d', -, hq⟩ := Option.map_eq_some_iff.1 hd
  cases hq
  obtain ⟨hmem, hsel⟩ := List.mem_filter.1 hy
  obtain ⟨hopen, htags⟩ := Bool.and_eq_true_iff.1 hsel
  obtain ⟨g, -, hg⟩ := List.any_eq_true.1 htags
  simp only [Bool.and_eq_true, beq_iff_eq] at hg
  exact ⟨hmem, hopen, hg.1.2⟩

theorem outWrite_host {x : Strm} {d : Desc} {s : State} (h1 : d.space = 1) : outWrite x d s = if carried x.port s then .ok else .waits :=
  if_pos h1

theorem outWrite_up {x : Strm} {d : Desc} {s : State} (h1 : d.space ≠ 1) (hu : ∀ c ∈ chansOfRange d.addr d.len, chanUp c s = true) :
    outWrite x d s = .ok := by
  unfold outWrite
  rw [if_neg h1, List.find?_eq_none.2 fun c hc => by simp [hu c hc]]

theorem outWrite_lost {x : Strm} {d : Desc} {s : State} {c : Nat} (h1 : d.space ≠ 1)
    (hc : (chansOfRange d.addr d.len).find? (fun c => !chanUp c s) = some c) : outWrite x d s = .voids (0x10 + c) := by
  unfold outWrite
  rw [if_neg h1, hc]

/-- A write waits for a HOST port only. -/
theorem outWrite_waits_iff {x : Strm} {d : Desc} {s : State} : outWrite x d s = .waits ↔ d.space = 1 ∧ carried x.port s = false := by
  constructor
  · intro h
    unfold outWrite at h
    split at h
    · next h1 =>
      split at h
      · cases h
      · next hc => exact ⟨h1, by simpa using hc⟩
    · split at h <;> cases h
  · rintro ⟨h1, hc⟩
    rw [outWrite_host h1, hc]
    rfl

section
variable {g : GEdge} {k : Token} {s : State}

theorem resultToken_noStream (h : streamNumber g.dst s = none) : resultToken g k s = takeArriving g.id s := by
  unfold resultToken
  rw [h]

variable {st : Nat} (hst : streamNumber g.dst s = some st)
include hst

theorem resultToken_waits (h : ∃ q ∈ resultDescs st g.dstPort k s, q.2.space = 1) (hc : carried (strm st s).port s = false) :
    resultToken g k s = s := by
  obtain ⟨q, hq, h1⟩ := h
  unfold resultToken
  rw [hst]
  exact if_pos (List.any_eq_true.2 ⟨q, hq, by rw [outWrite_waits_iff.2 ⟨h1, hc⟩]; rfl⟩)

theorem resultToken_writes (h : ∀ q ∈ resultDescs st g.dstPort k s, q.2.space = 1 → carried (strm st s).port s = true) :
    resultToken g k s = (resultDescs st g.dstPort k s).foldl (writeResult st g.dstPort k.data) (takeArriving g.id s) := by
  unfold resultToken
  rw [hst]
  refine if_neg fun hw => ?_
  obtain ⟨q, hq, hw⟩ := List.any_eq_true.1 hw
  obtain ⟨h1, hc⟩ := outWrite_waits_iff.1 (beq_iff_eq.1 hw)
  rw [h q hq h1] at hc
  cases hc

end

/-! ### The write of one result -/

section
variable {st sub : Nat} {data : List Byte} {s : State} {q : Ticket} {d : Desc}

/-- The tickets once the result of a sub-port is noted. -/
def noteOutput (st sub seq : Nat) (ks : List Ticket) : List Ticket :=
  ks.map (fun y => if y.stream = st ∧ y.seq = seq then { y with outputs := y.outputs ++ [sub] } else y)

theorem writeResult_host (h1 : d.space = 1) (hc : carried (strm st s).port s = true) : writeResult st sub data s (q, d) = { s with
    host := { s.host with mem := wrBytes s.host.mem d.addr (data.take d.len) }
    led := { s.led with tickets := noteOutput st sub q.seq s.led.tickets } } := by
  unfold writeResult
  dsimp only
  rw [outWrite_host h1, if_pos hc]
  dsimp only
  rw [if_pos h1, hostWr, if_pos hc]
  rfl

theorem writeResult_device (h1 : d.space ≠ 1) (hok : outWrite (strm st s) d s = .ok) : writeResult st sub data s (q, d) = { s with
    ddr := (devWr d.addr (data.take d.len) s).ddr, led := { s.led with tickets := noteOutput st sub q.seq s.led.tickets } } := by
  obtain ⟨m, hm⟩ := devWr_eq d.addr (data.take d.len) s
  unfold writeResult
  dsimp only
  rw [hok]
  dsimp only
  rw [if_neg h1, hm]
  rfl

theorem writeResult_waits (h : outWrite (strm st s) d s = .waits) : writeResult st sub data s (q, d) = s := by
  unfold writeResult
  dsimp only
  rw [h]

theorem writeResult_voids {p : Nat} (h : outWrite (strm st s) d s = .voids p) :
    writeResult st sub data s (q, d) = settle (voidTags [⟨st, q.seq⟩] 1 p 0xFFFF 0 s) := by
  unfold writeResult
  dsimp only
  rw [h]

end

/-- Between `s` and `u` results were written: host memory outside `H` and device memory outside `D` read as before, and of the
rest only the tickets, the watches and the module state differ. -/
def ResultsWritten (H D : Nat → Prop) (s u : State) : Prop :=
  (∀ a, ¬ H a → rd8 u.host.mem a = rd8 s.host.mem a) ∧ DeviceKept D s u
  ∧ u = { s with
      host := { s.host with mem := u.host.mem }, ddr := u.ddr
      led := { s.led with tickets := u.led.tickets, lastEnd := u.led.lastEnd }
      isl := { s.isl with watch := u.isl.watch }, power := { s.power with st := u.power.st, prev := u.power.prev } }

theorem ResultsWritten.refl (H D : Nat → Prop) (s : State) : ResultsWritten H D s s := ⟨fun _ _ => rfl, DeviceKept.refl D s, rfl⟩

theorem ResultsWritten.trans {H D : Nat → Prop} {s u w : State} (h1 : ResultsWritten H D s u) (h2 : ResultsWritten H D u w) :
    ResultsWritten H D s w := by
  obtain ⟨m1, d1, e1⟩ := h1
  obtain ⟨m2, d2, e2⟩ := h2
  refine ⟨fun a ha => (m2 a ha).trans (m1 a ha), d1.trans d2, ?_⟩
  rw [e2, e1]

/-- The bytes of host memory and of device memory that the descriptors of a list name. -/
def hostBytes (qs : List (Ticket × Desc)) (a : Nat) : Prop := ∃ q ∈ qs, q.2.space = 1 ∧ q.2.addr ≤ a ∧ a < q.2.addr + q.2.len
def deviceBytesOf (qs : List (Ticket × Desc)) (a : Nat) : Prop := ∃ q ∈ qs, q.2.space ≠ 1 ∧ q.2.addr ≤ a ∧ a < q.2.addr + q.2.len

theorem writeResult_written {qs : List (Ticket × Desc)} {q : Ticket × Desc} (hq : q ∈ qs) (st sub : Nat) (data : List Byte) (s : State) :
    ResultsWritten (hostBytes qs) (deviceBytesOf qs) s (writeResult st sub data s q) := by
  obtain ⟨t, d⟩ := q
  have hlen : (data.take d.len).length ≤ d.len := by rw [List.length_take]; exact Nat.min_le_left ..
  cases hw : outWrite (strm st s) d s with
  | waits =>
    rw [writeResult_waits hw]
    exact ResultsWritten.refl ..
  | voids p =>
    obtain ⟨-, -, ks, e, w, hv⟩ := voidWhere_spec
      (fun k => [(⟨st, t.seq⟩ : Tag)].any (fun g => g.stream == k.stream && g.seq == k.seq)) 1 p 0xFFFF 0 s
    have hv : voidTags [⟨st, t.seq⟩] 1 p 0xFFFF 0 s = _ := hv
    obtain ⟨a, b, hs⟩ := settle_eq (voidTags [⟨st, t.seq⟩] 1 p 0xFFFF 0 s)
    rw [writeResult_voids hw, hs, hv]
    exact ⟨fun _ _ => rfl, (DeviceKept.refl _ s).of_ddr rfl rfl, rfl⟩
  | ok =>
    by_cases h1 : d.space = 1
    · have hc : carried (strm st s).port s = true := by
        by_contra hc
        rw [outWrite_host h1, if_neg hc] at hw
        cases hw
      rw [writeResult_host h1 hc]
      refine ⟨fun a ha => rd8_wrBytes_out _ _ _ _ ?_, (DeviceKept.refl _ s).of_ddr rfl rfl, rfl⟩
      by_contra hin
      exact ha ⟨(t, d), hq, h1, by dsimp only; omega, by dsimp only; omega⟩
    · rw [writeResult_device h1 hw]
      refine ⟨fun _ _ => rfl, ((devWr_kept d.addr (data.take d.len) s).mono fun a ha => ?_).of_ddr rfl rfl, rfl⟩
      exact ⟨(t, d), hq, h1, ha.1, by dsimp only; omega⟩

/-- Writing the results of a token. -/
theorem writeResults_written (st sub : Nat) (data : List Byte) (qs : List (Ticket × Desc)) (s : State) :
    ResultsWritten (hostBytes qs) (deviceBytesOf qs) s (qs.foldl (writeResult st sub data) s) :=
  List.foldlRecOn (motive := ResultsWritten (hostBytes qs) (deviceBytesOf qs) s) qs _ (ResultsWritten.refl ..)
    fun u hu _ hq => hu.trans (writeResult_written hq st sub data u)

/-- The channel of a byte of a range is one of the channels of the range. -/
theorem chanOf_mem_chansOfRange {a n j : Nat} (h : j < n) : chanOf (a + j) ∈ chansOfRange a n := by
  refine List.mem_map.2 ⟨(a % 4096 + j) / 4096 % 12, List.mem_range.2 ?_, ?_⟩
  · have h1 : (a % 4096 + j) / 4096 < (a % 4096 + n + 4095) / 4096 := by omega
    have h2 : (a % 4096 + j) / 4096 % 12 < 12 := Nat.mod_lt _ (by decide)
    have h3 : (a % 4096 + j) / 4096 % 12 ≤ (a % 4096 + j) / 4096 := Nat.mod_le ..
    omega
  · unfold chanOf
    omega

/-- A written byte of device memory reads back where every channel of the range is up. -/
theorem devRd8_written {d : Desc} {data : List Byte} {s : State} (hu : ∀ c ∈ chansOfRange d.addr d.len, chanUp c s = true) {i : Nat}
    (hi : i < d.len) (hd : i < data.length) : devRd8 (d.addr + i) (devWr d.addr (data.take d.len) s) = data.getD i 0 := by
  have hlen : i < (data.take d.len).length := by rw [List.length_take]; omega
  rw [devRd8_devWr d.addr i (data.take d.len) s hlen fun j hj => hu _ (chanOf_mem_chansOfRange (by rw [List.length_take] at hj; omega)),
    List.getElem_take, List.getD_eq_getElem _ _ hd]

/-- A result whose channel is lost voids its ticket. -/
theorem voided_mem {st p : Nat} {q : Ticket} {s : State} (hq : q ∈ s.led.tickets) (ho : ticketOpen q = true) (hst : q.stream = st) :
    q.voided 1 p 0xFFFF 0 (stamp (liveDie (homeOf st s) s) s) ∈ (settle (voidTags [⟨st, q.seq⟩] 1 p 0xFFFF 0 s)).led.tickets := by
  obtain ⟨hvoid, -⟩ := voidWhere_spec
    (fun k => [(⟨st, q.seq⟩ : Tag)].any (fun g => g.stream == k.stream && g.seq == k.seq)) 1 p 0xFFFF 0 s
  rw [settle_led]
  have h := hvoid q hq ho (by simp [hst])
  rwa [hst] at h

/-! ### Tokens for the planner (R264, R266) -/

/-- An update joins a die's queue where the die is in service. -/
def putUpdate (e : Nat) (k : Token) (d : Nat) (a : State) : State :=
  if dieUp d a then modPdie d (fun p => { p with updates := p.updates ++ [(e, k.data, k.tags)] }) a else a

theorem planToken_update {g : GEdge} (k : Token) (s : State) (h : g.dstPort = 0) : planToken g k s = putUpdate g.id k 1
    (putUpdate g.id k 0 (modEdge g.id (fun y => { y with flight := y.flight.drop 1, inUse := y.inUse + 1 }) s)) := if_pos h

theorem planToken_request {g : GEdge} (k : Token) (s : State) (h : g.dstPort ≠ 0) : planToken g k s =
    { modEdge g.id (fun y => { y with flight := y.flight.drop 1, inUse := y.inUse + 1 }) s with
      plan := { s.plan with
        reqs := insertReq (PlanReq.mk g.dstPort g.id k.data k.tags (stamp (liveDie 0 s) s) none {} 0 [] false none) s.plan.reqs } } :=
  if_neg h

/-- What an update leaves: the queue of its die, and nothing else. -/
theorem putUpdate_spec (e : Nat) (k : Token) {d : Nat} (hd : d < 2) (a : State) :
    (∀ j, j < 2 → pdie j (putUpdate e k d a) = if j = d ∧ dieUp d a = true then
      { pdie j a with updates := (pdie j a).updates ++ [(e, k.data, k.tags)] } else pdie j a)
    ∧ putUpdate e k d a = { a with plan := { a.plan with d0 := (putUpdate e k d a).plan.d0, d1 := (putUpdate e k d a).plan.d1 } } := by
  unfold putUpdate
  obtain rfl | rfl : d = 0 ∨ d = 1 := by omega
  · cases hu : dieUp 0 a with
    | true =>
      refine ⟨fun j hj => ?_, rfl⟩
      obtain rfl | rfl : j = 0 ∨ j = 1 := by omega
      · rfl
      · rfl
    | false => exact ⟨fun j _ => (if_neg (by simp)).symm, rfl⟩
  · cases hu : dieUp 1 a with
    | true =>
      refine ⟨fun j hj => ?_, rfl⟩
      obtain rfl | rfl : j = 0 ∨ j = 1 := by omega
      · rfl
      · rfl
    | false => exact ⟨fun j _ => (if_neg (by simp)).symm, rfl⟩

/-- An update goes to every die in service. -/
theorem pdie_updates (e : Nat) (k : Token) (a : State) {j : Nat} (hj : j < 2) : pdie j (putUpdate e k 1 (putUpdate e k 0 a)) =
    if dieUp j a = true then { pdie j a with updates := (pdie j a).updates ++ [(e, k.data, k.tags)] } else pdie j a := by
  obtain ⟨h0, hf⟩ := putUpdate_spec e k (d := 0) (by omega) a
  obtain ⟨h1, -⟩ := putUpdate_spec e k (d := 1) (by omega) (putUpdate e k 0 a)
  have hup : dieUp 1 (putUpdate e k 0 a) = dieUp 1 a := by rw [hf]; rfl
  rw [h1 j hj, h0 j hj, hup]
  obtain rfl | rfl : j = 0 ∨ j = 1 := by omega
  · simp
  · simp

end Sys2Proof.Machine

namespace Sys2Proof.Machine

/-! ### All that FIRING_COMPLETE leaves -/

theorem firingComplete_spec {m : Nat} {f : Firing} {s : State} (hf : (mitten m s).firing = some f) (hend : fireMayEnd m s = true) :
    let u := firingComplete m s
    let e := sumEvents (firingShares m f s)
    mitten m u = (mitten m s).fired s.time.now ∧ (∀ j, j ≠ m → mitten j u = mitten j s)
    ∧ (∀ x, ∃ ks, edge x u = { edge x s with
          taken := (edge x s).taken - creditsTaken m s x, flight := (edge x s).flight ++ ks
          inUse := (edge x s).inUse - freedBuffers f x, creditFlight := (edge x s).creditFlight + freedBuffers f x }
        ∧ ks.length = creditsTaken m s x ∧ (∀ k ∈ ks, k.tags = f.tags ∧ k.quad = (mitten m s).gloves.headD 0 / 4)
        ∧ ∀ o v bs, (outEdges m s).filter (fun o => o.id == x) = [o] → o.produce = 1 →
            (evalUnit m f s).find? (fun v => v.op.id == o.src) = some v → v.res.outs[o.srcPort]? = some bs → ks.map (·.data) = [bs])
    ∧ (∀ x, creditsTaken m s x ≤ (edge x s).taken → freedBuffers f x ≤ (edge x s).inUse → Balanced (edge x s) → Balanced (edge x u))
    ∧ u.led.tickets.length = s.led.tickets.length
    ∧ (∀ (i : Nat) (k : Ticket), s.led.tickets[i]? = some k →
        (¬ servedBy f k → u.led.tickets[i]? = some k)
        ∧ (servedBy f k → u.led.tickets[i]? = some (k.firedBy e (firingFailure (evalUnit m f s)) f)))
    ∧ (∀ g, g ∉ (mitten m s).every → glove g u = glove g s)
    ∧ (∀ g, (mitten m s).every = [g] → glove g u = countGlove s.time.now e (glove g s))
    ∧ (∀ id, (∀ v ∈ evalUnit m f s, id ∉ v.op.outs ∧ ∀ y ∈ v.op.outs, ∀ z, (curImage s).tensor y = some z → z.scaleT ≠ id) →
        stateOf id u = stateOf id s)
    ∧ (∀ v ∈ evalUnit m f s, ∀ id bs x, evalUnit m f s = [v] → v.op.outs = [id] → v.res.outs = [bs] → (curImage s).tensor id = some x →
        x.role = 4 → isMx x.fmt = false → stateOf id u = bs.take (elemBytes x))
    ∧ ((∀ v ∈ evalUnit m f s, v.op.opcode ≠ 0x0201 ∧ v.op.opcode ≠ 0x0202) → u.scene = s.scene)
    ∧ ((∀ v ∈ evalUnit m f s, v.op.opcode ≠ 0x0202) → u.ddr = s.ddr)
    ∧ DeviceKept (fun a => ∃ v ∈ evalUnit m f s, v.op.opcode = 0x0202 ∧ (committedScene v s).tableAt ≤ a
        ∧ a < (committedScene v s).tableAt + (tableBytes (committedScene v s)).length) s u
    ∧ u = { s with
        fab := { s.fab with
          mittens := u.fab.mittens, edges := u.fab.edges, gloves := u.fab.gloves, tensors := u.fab.tensors
          fresh := s.fab.fresh + (evalUnit m f s).length + (mitten m s).every.length + 1 }
        scene := u.scene, ddr := u.ddr, led := { s.led with tickets := u.led.tickets } } := by
  intro u e
  obtain ⟨ks, hu, hlen, hks⟩ := firingComplete_counts hf hend
  obtain ⟨hsame, hone, hscene, hddr, hkept⟩ := endFiring_memory (m := m) (f := f) (s := s)
  obtain ⟨es, ts, ms, d, hE⟩ := endFiring_eq (m := m) (f := f) (s := s)
  have hu : u = _ := hu
  clear_value u
  have hm : ∀ j, mitten j u = mitten j (endFiring m f s) := fun j => by rw [hu]; rfl
  have hedge : ∀ x, edge x u = edge x (endFiring m f s) := fun x => by rw [hu]; rfl
  have hst : ∀ id, stateOf id u = stateOf id (endFiring m f s) := fun id => by rw [hu]; rfl
  have hg : ∀ g, glove g u = glove g (countEvents (mitten m s).every (firingShares m f s) (endFiring m f s)) := fun g => by rw [hu]; rfl
  have htickets : u.led.tickets = ks := by rw [hu]
  refine ⟨?_, fun j hj => ?_, fun x => ⟨sentTokens m f s x, (hedge x).trans (edge_endFiring x), length_sentTokens x,
      fun k hk => mem_sentTokens hk, fun o v bs ho hp hv hb => sentTokens_one ho hp hv hb⟩, fun x ht hi hb => ?_, ?_, fun i k hk => ?_,
    fun g hn => ?_, fun g hone' => ?_, fun id hid => (hst id).trans (hsame id hid),
    fun v _ id bs x hv ho hr hx h4 hmx => (hst id).trans (hone v id bs x hv ho hr hx h4 hmx), fun h => ?_, fun h => ?_, ?_, ?_⟩
  · rw [hm, mitten_endFiring, if_pos rfl]
  · rw [hm, mitten_endFiring, if_neg hj]
  · rw [hedge, edge_endFiring, ← length_sentTokens (f := f)]
    exact balanced_sent (by rwa [length_sentTokens]) hi hb
  · rw [htickets]
    exact hlen
  · rw [htickets]
    exact hks i k hk
  · rw [hg, glove_countEvents_other hn, glove_endFiring]
  · have hlen : (firingShares m f s).length = 1 := length_eventShares_one (by rw [hone']; rfl)
    obtain ⟨a, ha⟩ := List.length_eq_one_iff.1 hlen
    have he : e = a := by
      show sumEvents (firingShares m f s) = a
      rw [ha, sumEvents_one]
    have hnow : (endFiring m f s).time.now = s.time.now := by rw [hE]
    rw [hg, hone', ha, glove_countEvents_one, glove_endFiring, he, hnow]
  · rw [hu]
    exact hscene h
  · rw [hu]
    exact hddr h
  · exact hkept.of_ddr rfl (by rw [hu])
  · rw [hu, hE]

/-! ### CREDIT_RETURN (R57) -/

theorem creditReturn_none {e : Nat} {s : State} (h : (edge e s).creditFlight = 0) : creditReturn e s = s := if_pos h

theorem creditReturn_returns {e : Nat} {s : State} (h : (edge e s).creditFlight ≠ 0) :
    creditReturn e s = modEdge e (fun x => { x with creditFlight := x.creditFlight - 1, credits := x.credits + 1 }) s := if_neg h

theorem balanced_credited {x : Edge} (h : x.creditFlight ≠ 0) (hb : Balanced x) :
    Balanced { x with creditFlight := x.creditFlight - 1, credits := x.credits + 1 } := by
  unfold Balanced at hb ⊢
  dsimp only
  omega

/-! ### A result token (R205, R206) -/

/-- All that a result token's writes leave, whatever it serves. -/
theorem resultToken_written {e st : Nat} {g : GEdge} {k : Token} {s u : State} (qs : List (Ticket × Desc)) (sub : Nat)
    (hg : g.id = e) (hu : u = qs.foldl (writeResult st sub k.data) (takeArriving g.id s)) (ha : arriving e s = some k) :
    (edge e u = { edge e s with flight := (edge e s).flight.drop 1, creditFlight := (edge e s).creditFlight + 1 }
      ∧ ∀ j, j ≠ e → edge j u = edge j s)
    ∧ (Balanced (edge e s) → Balanced (edge e u))
    ∧ (∀ a, (∀ q ∈ qs, q.2.space = 1 → a < q.2.addr ∨ q.2.addr + q.2.len ≤ a) → rd8 u.host.mem a = rd8 s.host.mem a)
    ∧ DeviceKept (fun a => ∃ q ∈ qs, q.2.space ≠ 1 ∧ q.2.addr ≤ a ∧ a < q.2.addr + q.2.len) s u
    ∧ u = { s with
        fab := { s.fab with edges := u.fab.edges }, host := { s.host with mem := u.host.mem }, ddr := u.ddr
        led := { s.led with tickets := u.led.tickets, lastEnd := u.led.lastEnd }
        isl := { s.isl with watch := u.isl.watch }, power := { s.power with st := u.power.st, prev := u.power.prev } } := by
  subst hg
  obtain ⟨hmem, hdev, hframe⟩ := writeResults_written st sub k.data qs (takeArriving g.id s)
  rw [← hu] at hmem hdev hframe
  have hedge : ∀ j, edge j u = edge j (takeArriving g.id s) := fun j => by rw [hframe]; rfl
  refine ⟨⟨(hedge g.id).trans (edge_takeArriving g.id s), fun j hj => (hedge j).trans (edge_modEdge_ne _ s hj)⟩,
    fun hb => (hedge g.id).symm ▸ balanced_takeArriving ha hb, fun a hn => hmem a ?_, hdev.of_ddr rfl rfl, ?_⟩
  · rintro ⟨q, hq, h1, hlo, hhi⟩
    have := hn q hq h1
    omega
  · rw [hframe]
    rfl

/-- A token that serves one ticket: its result is written where it can be, and voids the ticket where a channel is lost. -/
theorem resultToken_one {e st sub : Nat} {k : Token} {s u : State} {q : Ticket} {d : Desc}
    (hq : (q, d) ∈ resultDescs st sub k s) (hc : d.space = 1 → carried (strm st s).port s = true)
    (hu : u = writeResult st sub k.data (takeArriving e s) (q, d)) :
    (d.space = 1 → u.led.tickets = noteOutput st sub q.seq s.led.tickets ∧ u.ddr = s.ddr
      ∧ u.host.mem = wrBytes s.host.mem d.addr (k.data.take d.len))
    ∧ (d.space ≠ 1 → (∀ c ∈ chansOfRange d.addr d.len, chanUp c s = true) → u.led.tickets = noteOutput st sub q.seq s.led.tickets
      ∧ u.host = s.host ∧ ∀ i, i < d.len → i < k.data.length → devRd8 (d.addr + i) u = k.data.getD i 0)
    ∧ ∀ c, d.space ≠ 1 → (chansOfRange d.addr d.len).find? (fun c => !chanUp c s) = some c → u.ddr = s.ddr ∧ u.host = s.host
      ∧ q.voided 1 (0x10 + c) 0xFFFF 0 (stamp (liveDie (homeOf st s) s) s) ∈ u.led.tickets := by
  subst hu
  refine ⟨fun h1 => ?_, fun h1 hup => ?_, fun c h1 hl => ?_⟩
  · rw [writeResult_host (s := takeArriving e s) h1 (hc h1)]
    exact ⟨rfl, rfl, rfl⟩
  · rw [writeResult_device (s := takeArriving e s) h1 (outWrite_up h1 hup)]
    refine ⟨rfl, rfl, fun i hi hd => ?_⟩
    exact devRd8_written (s := takeArriving e s) hup hi hd
  · obtain ⟨hmem, hopen, hst⟩ := mem_resultDescs hq
    have hv := voided_mem (p := 0x10 + c) (s := takeArriving e s) hmem hopen hst
    rw [writeResult_voids (s := takeArriving e s) (outWrite_lost h1 hl)]
    obtain ⟨-, -, ks, e', w, hw⟩ := voidWhere_spec
      (fun k => [(⟨st, q.seq⟩ : Tag)].any (fun g => g.stream == k.stream && g.seq == k.seq)) 1 (0x10 + c) 0xFFFF 0 (takeArriving e s)
    have hw : voidTags [⟨st, q.seq⟩] 1 (0x10 + c) 0xFFFF 0 (takeArriving e s) = _ := hw
    refine ⟨?_, ?_, hv⟩
    · rw [settle_ddr, hw]
      rfl
    · rw [settle_host, hw]
      rfl

/-! ### A token for the planner (R264, R266) -/

/-- What a token for the planner leaves on its edge, and in the rest of the module. -/
theorem planToken_spec {e : Nat} {g : GEdge} {k : Token} {s : State} (hg : g.id = e) (ha : arriving e s = some k) :
    let u := planToken g k s
    edge e u = { edge e s with flight := (edge e s).flight.drop 1, inUse := (edge e s).inUse + 1 }
    ∧ (Balanced (edge e s) → Balanced (edge e u)) ∧ (∀ j, j ≠ e → edge j u = edge j s)
    ∧ (g.dstPort = 0 → (∀ d, d < 2 → pdie d u = if dieUp d s = true then
          { pdie d s with updates := (pdie d s).updates ++ [(e, k.data, k.tags)] } else pdie d s)
        ∧ u = { s with fab := { s.fab with edges := u.fab.edges }, plan := { s.plan with d0 := u.plan.d0, d1 := u.plan.d1 } })
    ∧ (g.dstPort ≠ 0 → u = { s with fab := { s.fab with edges := u.fab.edges }, plan := { s.plan with
          reqs := insertReq (PlanReq.mk g.dstPort e k.data k.tags (stamp (liveDie 0 s) s) none {} 0 [] false none) s.plan.reqs } }) := by
  subst hg
  intro u
  have hedge : ∀ j, edge j u = edge j (modEdge g.id (fun y => { y with flight := y.flight.drop 1, inUse := y.inUse + 1 }) s) := fun j => by
    by_cases h0 : g.dstPort = 0
    · obtain ⟨-, h1⟩ := putUpdate_spec g.id k (d := 1) (by omega)
        (putUpdate g.id k 0 (modEdge g.id (fun y => { y with flight := y.flight.drop 1, inUse := y.inUse + 1 }) s))
      obtain ⟨-, h2⟩ := putUpdate_spec g.id k (d := 0) (by omega)
        (modEdge g.id (fun y => { y with flight := y.flight.drop 1, inUse := y.inUse + 1 }) s)
      show edge j (planToken g k s) = _
      rw [planToken_update k s h0, h1, h2]
      rfl
    · show edge j (planToken g k s) = _
      rw [planToken_request k s h0]
      rfl
  have he : edge g.id u = { edge g.id s with flight := (edge g.id s).flight.drop 1, inUse := (edge g.id s).inUse + 1 } :=
    (hedge g.id).trans (edge_modEdge_same ..)
  refine ⟨he, fun hb => he.symm ▸ balanced_planned (arriving_pos ha) hb, fun j hj => (hedge j).trans (edge_modEdge_ne _ s hj),
    fun h0 => ?_, fun h0 => ?_⟩
  case refine_2 =>
    have hu : u = _ := planToken_request k s h0
    clear_value u
    rw [hu]
    rfl
  have hu : u = putUpdate g.id k 1 (putUpdate g.id k 0
      (modEdge g.id (fun y => { y with flight := y.flight.drop 1, inUse := y.inUse + 1 }) s)) := planToken_update k s h0
  clear_value u
  obtain ⟨-, h1⟩ := putUpdate_spec g.id k (d := 1) (by omega)
    (putUpdate g.id k 0 (modEdge g.id (fun y => { y with flight := y.flight.drop 1, inUse := y.inUse + 1 }) s))
  obtain ⟨-, h2⟩ := putUpdate_spec g.id k (d := 0) (by omega)
    (modEdge g.id (fun y => { y with flight := y.flight.drop 1, inUse := y.inUse + 1 }) s)
  refine ⟨fun d hd => ?_, ?_⟩
  · rw [hu]
    exact pdie_updates g.id k (modEdge g.id (fun y => { y with flight := y.flight.drop 1, inUse := y.inUse + 1 }) s) hd
  · rw [hu, h1, h2]
    rfl

end Sys2Proof.Machine

namespace Sys2Proof

open Sys2Proof.Machine

/-- Settles O34: a firing's edges change by what it takes and gives; the rest by the operation of each command. -/
theorem firingsTakeAndGiveTokensAndCredits : Obligations.FiringsTakeAndGiveTokensAndCredits := by
  refine ⟨fun t m allow s0 => ?_, fun t m s0 => ?_, fun t e s0 => ?_, fun t e s0 => ?_⟩
  · intro s ins outs toks takes gives starts
    refine ⟨fun h => ⟨fun hd => ?_, fun p hd => ?_⟩, fun h => congrArg Host.Outcome.next (firingStart_idle h)⟩
    · have hop := firingStart_starts h
      rw [hd] at hop
      obtain ⟨f, hm, hmj, hin, hout, hat, hstamp, htags, hstates, hdeg, hstale, hedge, hscene, hother, hframe⟩ := takeFiring_spec m s
      refine ⟨takeFiring m s, f, congrArg Host.Outcome.next hop, hm, hmj, hin, hout, hat, hstamp, htags, hstates, hdeg, hstale, hedge,
        fun hi ho x hb => ?_, hscene, hother, hframe⟩
      obtain ⟨ht, hc⟩ := fireReady_bounds h.2.1 hi ho x
      rw [hedge]
      exact balanced_fired ht hc hb
    · have hop := firingStart_starts h
      rw [hd] at hop
      exact ⟨_, congrArg Host.Outcome.next hop, firingStart_cut h.2.1⟩
  · intro s
    refine ⟨fun h => congrArg Host.Outcome.next (firingComplete_idle h), fun f hf hend => ?_⟩
    intro evs outs every e frees gives serves table
    exact ⟨firingComplete m s, rfl, firingComplete_spec hf hend⟩
  · intro s took
    refine ⟨fun h => congrArg Host.Outcome.next (tokenArrive_idle h), fun g k hg hk => ⟨fun h0 h1 h4 => ?_, fun h0 => ?_, fun h1 hn => ?_,
      fun st h1 hst => ?_, fun h4 => ?_⟩⟩
    · exact congrArg Host.Outcome.next (tokenArrive_other hg hk h0 h1 h4)
    · exact ⟨_, congrArg Host.Outcome.next (tokenArrive_operator hg hk h0), edge_modEdge_same ..,
        fun hb => (edge_modEdge_same e _ s).symm ▸ balanced_held (arriving_pos hk) k hb, fun j hj => edge_modEdge_ne _ _ hj, rfl⟩
    · have hop := (tokenArrive_stream hg hk h1).trans (resultToken_noStream hn)
      rw [gEdgeOf_id hg] at hop
      exact ⟨_, congrArg Host.Outcome.next hop, ⟨edge_takeArriving e s, fun j hj => edge_modEdge_ne _ _ hj⟩, rfl⟩
    · intro qs
      refine ⟨fun hq hc => congrArg Host.Outcome.next ((tokenArrive_stream hg hk h1).trans (resultToken_waits hst hq hc)), fun hall => ?_⟩
      have hop := (tokenArrive_stream hg hk h1).trans (resultToken_writes hst hall)
      obtain ⟨htook, hbal, hmem, hdev, hframe⟩ := resultToken_written qs g.dstPort (gEdgeOf_id hg) rfl hk
      refine ⟨_, congrArg Host.Outcome.next hop, htook, hbal, hmem, hdev, fun hnil => ?_, fun q d hone => ?_, hframe⟩
      · have hu := congrArg (List.foldl (writeResult st g.dstPort k.data) (takeArriving g.id s)) hnil
        have hled := congrArg State.led hu
        have hddr := congrArg State.ddr hu
        have hhost := congrArg State.host hu
        exact ⟨hled, hddr, hhost⟩
      · have hmem : (q, d) ∈ qs := by rw [hone]; exact List.mem_singleton_self _
        exact resultToken_one hmem (hall _ hmem) (congrArg (List.foldl _ _) hone)
    · exact ⟨_, congrArg Host.Outcome.next (tokenArrive_planner hg hk h4), planToken_spec (gEdgeOf_id hg) hk⟩
  · intro s
    refine ⟨fun h => ?_, fun h => congrArg Host.Outcome.next (creditReturn_none h)⟩
    exact ⟨_, congrArg Host.Outcome.next (creditReturn_returns h), edge_modEdge_same ..,
      fun hb => (edge_modEdge_same e _ s).symm ▸ balanced_credited h hb, fun j hj => edge_modEdge_ne _ _ hj, rfl⟩

end Sys2Proof
